-- ==== Sys2Proof/Word.lean ====
section
/-! DEFINITION. The word types of the device and the plainest arithmetic on them (00_scope R3 to R5). -/

namespace Sys2Proof

/-- A byte. -/
abbrev Byte := BitVec 8
/-- A register or instruction word of 32 bits (R9). -/
abbrev Word := BitVec 32
/-- A 64-bit value: positions, lines, P registers (R4). -/
abbrev Dword := BitVec 64

/-- The two's-complement reading of the low `w` bits of a number. -/
def sx (w n : Nat) : Int :=
  if 2 * (n % 2 ^ w) < 2 ^ w then (n % 2 ^ w : Nat) else ((n % 2 ^ w : Nat) : Int) - (2 ^ w : Nat)

/-- The low `w` bits of an integer, as a number. -/
def ux (w : Nat) (z : Int) : Nat := (z % (2 ^ w : Nat)).toNat

/-- An integer held to a range. -/
def clampI (lo hi z : Int) : Int := if z < lo then lo else if hi < z then hi else z

/-- Bit `i` of a number. -/
def bitN (n i : Nat) : Bool := n / 2 ^ i % 2 == 1

/-- Bits `[lo + w - 1 : lo]` of a number. -/
def bitsN (n lo w : Nat) : Nat := n / 2 ^ lo % 2 ^ w

/-- A number with bit `i` made `b`. -/
def putBit (n i : Nat) (b : Bool) : Nat :=
  if bitN n i then (if b then n else n - 2 ^ i) else (if b then n + 2 ^ i else n)

/-- Division rounded to nearest, halves away from zero. -/
def rdiv (a : Int) (b : Nat) : Int :=
  if 0 ≤ a then (2 * a + b) / (2 * b) else -((2 * -a + b) / (2 * b))

/-- A Bool as a number. -/
def b2n (b : Bool) : Nat := if b then 1 else 0

end Sys2Proof
end

