-- ==== Sys2Proof/Syntax.lean ====
section
/-! DEFINITION. The commands the block takes: writes and reads of its registers, entries of its queues, events on its pins, links
and timers, and the instructions of its engines, one constructor per row of spec/opcode_table.json. -/

namespace Sys2Proof

/-- A bar B00 to B15. -/
abbrev Bar := Fin 16
/-- A head port HP000 to HP127. -/
abbrev Port := Fin 128
/-- An engine: 0 to 15 sequencers, 16 to 27 pixel engines. -/
abbrev Eng := Fin 28
/-- A hardware queue Q00 to Q63. -/
abbrev Qn := Fin 64
/-- A tracker GK0 to GK3. -/
abbrev Tn := Fin 4
/-- A camera unit: 0 to 3 CXC0 to CXC3, 4 to 7 CSC0 to CSC3. -/
abbrev Cu := Fin 8
/-- A tiller TL00 to TL11. -/
abbrev Tl := Fin 12

/-- The red, green and blue mean of one column as a calibration measures it, 16-bit (R336). -/
abbrev Rgb := List (BitVec 16)

/-- A host-written queue entry of 64 bytes (R420): OP, FLAGS, whether the six zero bytes and reserved body bytes are zero, TAG, and
the 48 bytes of BODY as twelve 32-bit words (missing words are 0). -/
structure Sub where
  op : Nat
  flags : Nat
  zeros : Bool
  tag : Nat
  body : List Word
deriving DecidableEq, Repr

/-- A STATUS frame as received (R265): whether it is not corrupt; with ECHO, the PING SEQ, TURN and the RTT measured, both in 0.4 ns; the fields
of words 0 to 4; temperatures and rails; nozzle-fault entries as (NOZZLE, KIND). -/
structure StatusIn where
  good : Bool
  echo : Option (Nat × Nat × Nat)
  version : Nat
  nheads : BitVec 4
  sel : Bool
  buflines : BitVec 9
  hblat : BitVec 16
  fault : BitVec 16
  vendor : Word
  serial : Word
  blanks : BitVec 16
  cfgSeq : BitVec 16
  temps : List Byte
  rails : List (BitVec 16)
  nf : List (BitVec 14 × BitVec 2)
deriving DecidableEq, Repr

/-- A picture as the decoder's arithmetic gives it (R372 to R376): POC, whether it is an IRAP, 10 bits, the CTU size, luma lines and interleaved chroma
lines, CTUs not decoded, errors met, whether a reference was missing, the hash SEI failed, RASL pictures were skipped before it. -/
structure DecPic where
  poc : BitVec 32
  irap : Bool
  deep : Bool
  ctb : BitVec 7
  y : List (List (BitVec 16))
  c : List (List (BitVec 16))
  lost : List Nat
  errs : Nat
  missing : Bool
  hash : Bool
  rasl : Bool
deriving DecidableEq, Repr

/-- Lanes and rate to which the display link trained, coded as DP_CFG codes them; none: it did not train (R378). -/
abbrev DpGot := Option (Fin 3 × Fin 4)

/-- An Announce as the firmware takes it (R383, R388): the sender, the grandmaster's identity, PRIORITY1, CLASS, ACCURACY, PRIORITY2. -/
structure Announce where
  src : BitVec 64
  gm : BitVec 64
  p1 : Byte
  cls : Byte
  acc : Byte
  p2 : Byte
deriving DecidableEq, Repr

/-- A PTP message as the firmware takes it (R383, R388), times in 2^-16 ns: a Sync, with its Follow_Up when two-step (sender, origin time, correction,
raw ingress stamp, and the ADJ to which the servo steers); a Delay_Resp (master's ingress time, correction); a Pdelay_Resp (the peer's two times,
correction, raw ingress stamp). -/
inductive PtpMsg where
  | announce (a : Announce)
  | sync (src : BitVec 64) (t1 corr raw adj : Int)
  | delayResp (t4 corr : Int)
  | pdelayResp (t2 t3 corr raw : Int)
deriving DecidableEq, Repr

/-- A tracker in a copy image (R400): whether it counts from the secondary, that source's count (an ABS input's unwrapped value), P as counted in 2^-32 pu, NEXT, C, K, CONSEC,
ARMED, SHEET_NUM. -/
structure CopyTrk where
  k : Fin 4
  sec : Bool
  count : Int
  pos : Int
  next : Int
  corr : Int
  left : BitVec 16
  consec : BitVec 2
  armed : Bool
  sheet : BitVec 32
deriving DecidableEq, Repr

/-- A bar in a copy image (R400): LINE, the release mark, STROBES. -/
structure CopyBar where
  bar : Fin 16
  line : Int
  mark : Int
  strobes : Nat
deriving DecidableEq, Repr

/-- A zone sheaf in a copy image (R400): repeat, points, TAG, items as (KIND, POINT, slot, 32-bit and 64-bit value). -/
structure CopySheaf where
  rep : BitVec 32
  mask : BitVec 16
  tag : BitVec 64
  items : List (Byte × Byte × Byte × BitVec 32 × BitVec 64)
deriving DecidableEq, Repr

/-- A channel of the colour loop in a copy image (R400). -/
structure CopyChan where
  ch : Fin 12
  state : BitVec 3
  applied : BitVec 32
  judged : BitVec 32
  cur : BitVec 64
deriving DecidableEq, Repr

/-- A copy image (R400): CYCLE, TIME, MODE and whether changes are left over; PRESS: the sixteen mode entries and a staged transition (target, repeat); TRACK; BAR; GIO; REJECT: SEQ_REJ_WR and entries as
(number, START, LEN, INFO); SHEAF: TAG and REPEAT of pending sheaves, CMP_CP_APPLIED, zone sheaves; ZONE: buffers as (address, bytes); NZT: changes as
(entry index, entry, EFF); LOOP: channels, nozzle-health runs as (entry index, class, strips); SEQ. -/
structure CopyImg where
  cycle : BitVec 32
  time : BitVec 64
  mode : BitVec 4
  full : Bool
  bars : BitVec 64
  staged : Option (BitVec 4 × BitVec 32)
  trks : List CopyTrk
  lines : List CopyBar
  gio : BitVec 32
  rejWr : BitVec 32
  rejs : List (BitVec 32 × Int × BitVec 32 × BitVec 32)
  pend : List (BitVec 64 × BitVec 32)
  applied : List (BitVec 32)
  zsheaves : List CopySheaf
  zones : List (Nat × List Byte)
  nzt : List (Nat × BitVec 32 × Int)
  chans : List CopyChan
  runs : List (Nat × Nat × Nat)
  seqs : List (BitVec 3)
deriving DecidableEq, Repr

/-- A JOIN image (R410): NZT entries that differ from the reset value, per channel CUR and its buffers as (address, bytes). -/
structure JoinImg where
  nzt : List (Nat × BitVec 32)
  cur : List (Fin 12 × BitVec 64)
  zones : List (Nat × List Byte)
deriving DecidableEq, Repr

/-- What the partner's line clock holds at the line boundary of a join (R410): LINE, COMPARE in 2^-32 pu, high-water mark. -/
structure JoinLc where
  bar : Fin 16
  line : Int
  compare : Int
  hwm : Int
deriving DecidableEq, Repr

/-- A remote temperature input as measured in a round (R457): the reading in 0.125 °C, and the diode difference in 0.01 mV or the thermistor ratio in 0.0001. -/
structure TsIn where
  read : Int
  raw : Nat
deriving DecidableEq, Repr

/-- The raw readings of a housekeeping round (R456): TS00 to TS31, the pin voltage at SM00 to SM23 in 0.01 mV, OD00 to OD15 in 0.125 °C. -/
structure HkIn where
  ts : List TsIn
  sm : List Nat
  od : List Int
deriving DecidableEq, Repr

/-- What a sub-channel's training gives (R161, R163): the narrowest read, write and CA eye in 0.01 UI, and the SC_REC bytes of the record. -/
structure ScTrain where
  rd : Byte
  wr : Byte
  ca : Byte
  record : List Byte
deriving DecidableEq, Repr

/-- What a start meets (R447, R448): REF_CLK is good; PLLs and domains come up; the first housekeeping round; the training of SC00 to SC23 (cold);
the sub-channels whose sentinel reads back intact (warm); the error of the clock's hand-over in ns (R391); the duration in ms. -/
structure StartIn where
  clock : Bool
  power : Bool
  hk : HkIn
  train : List ScTrain
  sentinel : List Bool
  handover : Int
  ms : BitVec 32
deriving DecidableEq, Repr

/-- How many changes of ZONE and NZT fit a copy image; none: all of them (R402). -/
abbrev CopyFit := Option (Nat × Nat)

/-- The sections of a copy image as they stand in the store, as (TYPE, bytes); the spec gives their layout no further (R400). -/
abbrev CopySects := List (BitVec 16 × List Byte)

/-- The commands of the device: one constructor per row of the operation table, with the row's operands. -/
inductive Instr where
  /-- Host writes GLB_MODE_REQ with TARGET = IDLE and the mode controller accepts or refuses it under the transition table (R30). -/
  | modeReqIdle (tag : BitVec 8)
  /-- Host requests IDLE-to-READY, which starts composing the first lead of the queued job (R28). -/
  | modeReqReady (tag : BitVec 8)
  /-- Host requests PRINT, which is staged to the first boundary that the most upstream bar reaches (R28). -/
  | modeReqPrint (tag : BitVec 8)
  /-- Host requests HOLD at the boundary of the same repeat for every bar (R27). -/
  | modeReqHold (tag : BitVec 8)
  /-- Host requests HOLD with IMMEDIATE, which stops every bar at its next line (R32). -/
  | modeReqHoldImmediate (tag : BitVec 8)
  /-- Host requests IDLE-to-SHADOW, and the unit joins as standby at the partner's next line boundary (R410). `same`: the same job is queued on both units; `m`, `lcs`: the partner's state at its line boundary -/
  | modeReqShadow (tag : BitVec 8) (same : Bool) (m : CopyImg) (lcs : List JoinLc)
  /-- Host requests SERVICE from IDLE with no job queued (R27). -/
  | modeReqService (tag : BitVec 8)
  /-- Host requests SAFE, for which no host transition exists, so the request completes with BAD_MODE (R30). -/
  | modeReqSafe (tag : BitVec 8)
  /-- Host requests BOOT, which begins a warm start (R32). -/
  | modeReqBoot (tag : BitVec 8)
  /-- In the SEQ cycle after an EMIT TRIG of the named trigger, the mode controller takes it as a READY-to-PRINT request (R33). -/
  | startTrigger
  /-- Host writes GLB_HOLD_CAUSE.ACK to acknowledge a fault-driven HOLD (R34). -/
  | holdCauseAck
  /-- Host writes 1 to GLB_FATAL_FIRST.VALID to acknowledge the first FATAL cause (R46). -/
  | fatalAck
  /-- A fenced running unit reaches its stop point, and the data plane stops it (R40). `n`: the unit's entry of the unit-state table -/
  | unitStopPoint (n : Fin 0xD8)
  /-- A unit is still in skew 500 ms after its stop point, which raises a FATAL event (R42). `n`: the unit's entry of the unit-state table -/
  | skewTimeout (n : Fin 0xD8)
  /-- When a full event queue has space again, the device writes one EVENT_LOST record with the count (R46). `q`: event queue Q32 + q -/
  | eventLost (q : Fin 8)
  /-- An accepted change of an encoder channel counts and advances the trackers that use that input (R48). `a`, `b`, `z`: the filtered levels from now on; `dt`: SEQ cycles since the command before -/
  | encEdge (n : Fin 8) (a b z : Bool) (dt : Nat)
  /-- An open or shorted encoder pair persists for 1 us, so the device declares LOSS and trackers fall back or stop (R51). -/
  | encLossDetect (n : Fin 8)
  /-- An encoder pair is good for 1 ms, and LOSS clears (R51). -/
  | encLossClear (n : Fin 8)
  /-- The SSI frame period expires, and an absolute input starts a frame (R52). -/
  | absFrameStart (n : Tn)
  /-- An SSI frame completes, and the tracker adds the signed difference of good values (R54). `d`: data bits; `par`, `err`: the bits after them -/
  | absFrameDone (n : Tn) (d : BitVec 32) (par err : Bool) (dt : Nat)
  /-- A mark input accepts an edge, latches the tracker position, counts it and handles it as an index where configured (R55). `level`: the filtered level from now on -/
  | mkEdge (n : Fin 8) (level : Bool) (dt : Nat)
  /-- A speed gate expires, and the tracker computes speed in gate mode (R60). -/
  | speedGate (k : Tn) (dt : Nat)
  /-- No count for STILL us, so the tracker reports speed 0 and sets STILL (R62). -/
  | standstill (k : Tn)
  /-- Host writes LOAD to set P to GEK_TRK_LOAD; the write is refused in PRINT, HOLD and SHADOW (R59). -/
  | trackerLoad (k : Tn)
  /-- Host writes ARM so that the next index sets P (R64). -/
  | trackerArm (k : Tn)
  /-- Host writes GEK_TRK_CTL, and a change of EN or SEC_EN ends fall-back (R57). -/
  | trackerCtlWrite (k : Tn) (v : BitVec 32)
  /-- Host writes CLR to clear the QERR and ZCNT counts of an encoder input (R81). -/
  | encClr (n : Fin 8)
  /-- A read of the low word of a 64-bit register pair latches the high word (R81). `a`: the BAR0 byte address of the low word -/
  | regPairReadLatch (a : Nat)
  /-- The bar position reaches COMPARE, so the line clock advances LINE and COMPARE and signals the sequencer and plane stream (R71). `dt`: SEQ cycles since the command before -/
  | lineClockHit (b : Bar) (dt : Nat)
  /-- A hit held by MINGAP takes place at the previous hit plus MINGAP (R73). -/
  | lineClockDelayedHit (b : Bar)
  /-- A sheet-mode line clock waiting for an edge takes the next queued edge and sets COMPARE (R77). -/
  | sheetEdgeTake (b : Bar)
  /-- Host writes line clock EN to 1, which sets the high-water mark to -2^63 (R74). `k`, `sheet`: the fields TRK and SHEET written with EN = 1 -/
  | lcEnable (b : Bar) (k : Tn) (sheet : Bool)
  /-- Host writes PITCH or OFFSET, which applies at once while EN = 0 and otherwise waits for the bar's sheaf (R75). `which`: OFFSET_LO, OFFSET_HI, PITCH_FRAC, PITCH_INT -/
  | lcPitchOffsetWrite (b : Bar) (which : Fin 4) (v : BitVec 32)
  /-- ALU ADD of two G registers (R90). -/
  | add (e : Eng) (rd ra rb : Fin 32)
  /-- ALU SUB of two G registers (R90). -/
  | sub (e : Eng) (rd ra rb : Fin 32)
  /-- ALU bitwise AND (R90). -/
  | and (e : Eng) (rd ra rb : Fin 32)
  /-- ALU bitwise OR (R90). -/
  | or (e : Eng) (rd ra rb : Fin 32)
  /-- ALU bitwise XOR (R90). -/
  | xor (e : Eng) (rd ra rb : Fin 32)
  /-- Logical shift left by register (R90). -/
  | sll (e : Eng) (rd ra rb : Fin 32)
  /-- Logical shift right by register (R90). -/
  | srl (e : Eng) (rd ra rb : Fin 32)
  /-- Arithmetic shift right by register (R90). -/
  | sra (e : Eng) (rd ra rb : Fin 32)
  /-- Low 32 bits of a product (R90). -/
  | mul (e : Eng) (rd ra rb : Fin 32)
  /-- High 32 bits of a signed product (R90). -/
  | mulhs (e : Eng) (rd ra rb : Fin 32)
  /-- High 32 bits of an unsigned product (R90). -/
  | mulhu (e : Eng) (rd ra rb : Fin 32)
  /-- Signed minimum (R90). -/
  | min (e : Eng) (rd ra rb : Fin 32)
  /-- Signed maximum (R90). -/
  | max (e : Eng) (rd ra rb : Fin 32)
  /-- Unsigned minimum (R90). -/
  | minu (e : Eng) (rd ra rb : Fin 32)
  /-- Unsigned maximum (R90). -/
  | maxu (e : Eng) (rd ra rb : Fin 32)
  /-- Selects Ga or Gb by a flag (R90). `f`: the flag -/
  | sel (e : Eng) (f : Fin 4) (rd ra rb : Fin 32)
  /-- Counts leading zeros (R90). -/
  | clz (e : Eng) (rd ra : Fin 32)
  /-- Counts set bits (R90). -/
  | popc (e : Eng) (rd ra : Fin 32)
  /-- Shift left by a constant (R90). -/
  | slli (e : Eng) (rd ra n : Fin 32)
  /-- Logical shift right by a constant (R90). -/
  | srli (e : Eng) (rd ra n : Fin 32)
  /-- Arithmetic shift right by a constant (R90). -/
  | srai (e : Eng) (rd ra n : Fin 32)
  /-- Copies the flags into a G register (R90). -/
  | getf (e : Eng) (rd : Fin 32)
  /-- Sets the flags from a G register (R90). -/
  | setf (e : Eng) (ra : Fin 32)
  /-- Adds a sign-extended immediate (R91). -/
  | addi (e : Eng) (rd ra : Fin 32) (imm : BitVec 16)
  /-- ANDs a zero-extended immediate (R91). -/
  | andi (e : Eng) (rd ra : Fin 32) (imm : BitVec 16)
  /-- ORs a zero-extended immediate (R91). -/
  | ori (e : Eng) (rd ra : Fin 32) (imm : BitVec 16)
  /-- XORs a zero-extended immediate (R91). -/
  | xori (e : Eng) (rd ra : Fin 32) (imm : BitVec 16)
  /-- Loads an immediate into the upper half of a register (R91). -/
  | lui (e : Eng) (rd : Fin 32) (imm : BitVec 16)
  /-- Compares two registers and writes a flag (R92). `c`: COND; `f`: the target flag -/
  | cmp (e : Eng) (c : Fin 8) (f : Fin 4) (ra rb : Fin 32)
  /-- Compares a register with an immediate and writes a flag (R92). `c`: COND; `f`: the target flag -/
  | cmpi (e : Eng) (c : Fin 8) (f : Fin 4) (ra : Fin 32) (imm : BitVec 16)
  /-- Loads a 32-bit word from data memory (R93). -/
  | ld (e : Eng) (rd ra : Fin 32) (imm : BitVec 16)
  /-- Loads a halfword (R93). -/
  | ldh (e : Eng) (rd ra : Fin 32) (imm : BitVec 16)
  /-- Loads a byte (R93). -/
  | ldb (e : Eng) (rd ra : Fin 32) (imm : BitVec 16)
  /-- Stores a word (R93). -/
  | st (e : Eng) (rd ra : Fin 32) (imm : BitVec 16)
  /-- Stores a halfword (R93). -/
  | sth (e : Eng) (rd ra : Fin 32) (imm : BitVec 16)
  /-- Stores a byte (R93). -/
  | stb (e : Eng) (rd ra : Fin 32) (imm : BitVec 16)
  /-- Loads a 64-bit doubleword into a P register (R93). -/
  | pld (e : Eng) (pd : Fin 8) (ra : Fin 32) (imm : BitVec 16)
  /-- Stores a P register (R93). -/
  | pst (e : Eng) (pd : Fin 8) (ra : Fin 32) (imm : BitVec 16)
  /-- Branches, always or on a flag (R94). `c`: COND; `f`: FLAG -/
  | br (e : Eng) (c : Fin 8) (f : Fin 4) (off : BitVec 21)
  /-- Writes the link register and branches (R94). -/
  | call (e : Eng) (off : BitVec 21)
  /-- Branches to a register address (R94). -/
  | jr (e : Eng) (ra : Fin 32)
  /-- Decrements a register and branches when the result is non-zero (R94). -/
  | dbnz (e : Eng) (rd : Fin 32) (imm : BitVec 16)
  /-- Stops the engine in HALTED and raises SEQ_HALT (R94). -/
  | halt (e : Eng)
  /-- 64-bit add of P registers (R95). -/
  | padd (e : Eng) (pd pa pb : Fin 8)
  /-- 64-bit subtract of P registers (R95). -/
  | psub (e : Eng) (pd pa pb : Fin 8)
  /-- Adds a sign-extended G register to a P register (R95). -/
  | paddg (e : Eng) (pd pa : Fin 8) (rb : Fin 32)
  /-- Signed 32x32 multiply-accumulate into a P register (R95). -/
  | pmac (e : Eng) (pd : Fin 8) (ra rb : Fin 32)
  /-- Sets a P register from a sign-extended G register (R95). -/
  | psetg (e : Eng) (pd : Fin 8) (ra : Fin 32)
  /-- Sets a P register from a zero-extended G register (R95). -/
  | psetgu (e : Eng) (pd : Fin 8) (ra : Fin 32)
  /-- Copies the low word of a P register to a G register (R95). -/
  | pgetl (e : Eng) (rd : Fin 32) (pa : Fin 8)
  /-- Copies the high word of a P register to a G register (R95). -/
  | pgeth (e : Eng) (rd : Fin 32) (pa : Fin 8)
  /-- Copies one P register to another (R95). -/
  | pmov (e : Eng) (pd pa : Fin 8)
  /-- Sets the high word of a P register (R95). -/
  | pseth (e : Eng) (pd : Fin 8) (ra : Fin 32)
  /-- 64-bit shift left by a constant (R95). -/
  | pslli (e : Eng) (pd pa : Fin 8) (n : Fin 32)
  /-- 64-bit arithmetic shift right by a constant (R95). -/
  | psrai (e : Eng) (pd pa : Fin 8) (n : Fin 32)
  /-- 64-bit compare that writes a flag (R95). `c`: COND; `f`: the target flag -/
  | pcmp (e : Eng) (c : Fin 8) (f : Fin 4) (pa pb : Fin 8)
  /-- An engine reads a BAR0 register into a G register (R96). -/
  | iord (e : Eng) (rd ra : Fin 32) (imm : BitVec 16)
  /-- Reads a live position, line, latch, speed, edge or counter into a P register (R97). -/
  | prd (e : Eng) (pd : Fin 8) (unit : Fin 32) (mode : Fin 16)
  /-- Stops issue until a position or line condition holds (R98). `line`, `tmo`, `le`: MODE[0] to MODE[2] -/
  | waitpos (e : Eng) (pa : Fin 8) (unit : Fin 32) (line tmo le : Bool)
  /-- Stops issue until a latched event is present, then clears the latch and writes F2 (R99). `clear`, `tmo`: MODE[0] and MODE[1] -/
  | waitevt (e : Eng) (unit : Fin 32) (imm : BitVec 12) (clear tmo : Bool)
  /-- Waits a number of microseconds (R101). -/
  | waitt (e : Eng) (ra : Fin 32) (imm : BitVec 16)
  /-- The condition of a waiting WAITPOS, WAITEVT or DMAWAIT holds, and issue resumes (R103). -/
  | waitConditionMet (e : Eng)
  /-- ENG_WAIT_TMO expires on a wait with a timeout, and the wait ends with F3 = 1 (R102). -/
  | waitTimeout (e : Eng)
  /-- The time of a WAITT elapses, and issue resumes (R101). -/
  | waittExpiry (e : Eng)
  /-- Drives a GIO logical level low (R104). `n`: IMM12 -/
  | emitGioLow (e : Eng) (n : BitVec 12)
  /-- Drives a GIO logical level high (R104). `n`: IMM12 -/
  | emitGioHigh (e : Eng) (n : BitVec 12)
  /-- Toggles a GIO logical level (R104). `n`: IMM12 -/
  | emitGioToggle (e : Eng) (n : BitVec 12)
  /-- Starts a GIO pulse of a given width (R142). `n`: IMM12 -/
  | emitGioPulse (e : Eng) (ra : Fin 32) (n : BitVec 12)
  /-- A GIO pulse width expires, and the level falls to 0 (R142). -/
  | gioPulseEnd (n : Fin 32)
  /-- Sets an internal trigger latch in all 28 engines (R104). `n`: IMM12 -/
  | emitTrig (e : Eng) (n : BitVec 12)
  /-- Pulses a time-pulse output whose source is set to sequencer (R104). `n`: IMM12 -/
  | emitTpulse (e : Eng) (ra : Fin 32) (n : BitVec 12)
  /-- Raises SEQ_USER with a user code and payload (R104). `n`: IMM12, the user code -/
  | emitHostevt (e : Eng) (ra : Fin 32) (n : BitVec 12)
  /-- Fires line LINE - 1 of a bar, and every port sends its STROBE pair (R105). -/
  | fireStrobe (e : Eng) (unit : Fin 32)
  /-- Sends a TICKLE with a pattern code to every port of the bar (R105). -/
  | fireTickle (e : Eng) (ra unit : Fin 32)
  /-- Raises the bar's release mark to an absolute line (R106). -/
  | lineRelease (e : Eng) (ra unit : Fin 32)
  /-- Raises the release mark to LINE plus an offset (R106). -/
  | lineReleaseRel (e : Eng) (ra unit : Fin 32)
  /-- Releases lines that carry the ladder pattern in place of ring content (R106). `imm`: IMM12, the step S and the drop code D -/
  | lineLadder (e : Eng) (ra unit : Fin 32) (imm : BitVec 12)
  /-- Releases lines that carry no drops (R106). -/
  | lineBlank (e : Eng) (ra unit : Fin 32)
  /-- Queues a Wengil CONFIG block to a port or bar (R107). `imm`: IMM12, the destination -/
  | sendConfig (e : Eng) (ra : Fin 32) (imm : BitVec 12)
  /-- Queues a Wengil SYNC block to a port or bar (R107). `imm`: IMM12, the destination -/
  | sendSync (e : Eng) (ra : Fin 32) (imm : BitVec 12)
  /-- A sequencer submits a prepared sheaf and stalls until the composer answers (R108). `imm`: IMM12, the entry of the sheaf table -/
  | sheaf (e : Eng) (ra : Fin 32) (imm : BitVec 12)
  /-- The composer answers a sequencer's SHEAF, which writes F3 and resumes issue (R108). -/
  | sheafAnswer (e : Eng)
  /-- Lane-wise modular add (R110). -/
  | vadd (e : Eng) (vd va vb : Fin 32)
  /-- Lane-wise modular subtract (R110). -/
  | vsub (e : Eng) (vd va vb : Fin 32)
  /-- Lane-wise signed saturating add (R110). -/
  | vadds (e : Eng) (vd va vb : Fin 32)
  /-- Lane-wise signed saturating subtract (R110). -/
  | vsubs (e : Eng) (vd va vb : Fin 32)
  /-- Lane-wise unsigned saturating add (R110). -/
  | vaddus (e : Eng) (vd va vb : Fin 32)
  /-- Lane-wise unsigned saturating subtract (R110). -/
  | vsubus (e : Eng) (vd va vb : Fin 32)
  /-- Lane-wise signed minimum (R110). -/
  | vmin (e : Eng) (vd va vb : Fin 32)
  /-- Lane-wise signed maximum (R110). -/
  | vmax (e : Eng) (vd va vb : Fin 32)
  /-- Lane-wise unsigned minimum (R110). -/
  | vminu (e : Eng) (vd va vb : Fin 32)
  /-- Lane-wise unsigned maximum (R110). -/
  | vmaxu (e : Eng) (vd va vb : Fin 32)
  /-- Lane-wise absolute difference (R110). -/
  | vabsd (e : Eng) (vd va vb : Fin 32)
  /-- Lane-wise AND (R110). -/
  | vand (e : Eng) (vd va vb : Fin 32)
  /-- Lane-wise OR (R110). -/
  | vor (e : Eng) (vd va vb : Fin 32)
  /-- Lane-wise XOR (R110). -/
  | vxor (e : Eng) (vd va vb : Fin 32)
  /-- Lane-wise low product (R110). -/
  | vmull (e : Eng) (vd va vb : Fin 32)
  /-- Lane-wise high signed product (R110). -/
  | vmulhs (e : Eng) (vd va vb : Fin 32)
  /-- Lane-wise rounded Q15 product (R110). -/
  | vmulq (e : Eng) (vd va vb : Fin 32)
  /-- Lane-wise shift left (R110). -/
  | vshl (e : Eng) (vd va vb : Fin 32)
  /-- Lane-wise logical shift right (R110). -/
  | vshr (e : Eng) (vd va vb : Fin 32)
  /-- Lane-wise arithmetic shift right (R110). -/
  | vsra (e : Eng) (vd va vb : Fin 32)
  /-- Lane-wise rounded unsigned average (R110). -/
  | vavgu (e : Eng) (vd va vb : Fin 32)
  /-- Slides lanes across two vectors (R110). -/
  | vslide (e : Eng) (vd va vb : Fin 32) (k : Fin 16)
  /-- Permutes lanes by index (R110). -/
  | vperm (e : Eng) (vd va vb : Fin 32)
  /-- Lane-wise multiply-accumulate (R111). -/
  | vmac (e : Eng) (vd va vb : Fin 32)
  /-- Lane-wise Q15 saturating multiply-accumulate (R111). -/
  | vmacq (e : Eng) (vd va vb : Fin 32)
  /-- Lane-wise compare into a G-register mask (R111). `c`: COND -/
  | vcmp (e : Eng) (c : Fin 8) (rd va vb : Fin 32)
  /-- Lane-wise select by a mask (R111). -/
  | vsel (e : Eng) (vd va vb m : Fin 32)
  /-- Reduces a vector into a G register (R111). `k`: SUB -/
  | vred (e : Eng) (k : Fin 8) (rd va : Fin 32)
  /-- Broadcasts a value into every lane (R111). -/
  | vbcast (e : Eng) (vd ra : Fin 32)
  /-- Inserts a value into one lane (R111). -/
  | vins (e : Eng) (vd ra rb : Fin 32)
  /-- Extracts one lane, sign-extended (R111). -/
  | vext (e : Eng) (rd va rb : Fin 32)
  /-- Extracts one lane, zero-extended (R111). -/
  | vextu (e : Eng) (rd va rb : Fin 32)
  /-- Copies a vector register (R111). -/
  | vmovv (e : Eng) (vd va : Fin 32)
  /-- Loads 32 bytes into a vector (R111). -/
  | vld (e : Eng) (vd ra : Fin 32) (imm : BitVec 16)
  /-- Stores 32 bytes from a vector (R111). -/
  | vst (e : Eng) (vd ra : Fin 32) (imm : BitVec 16)
  /-- Loads 16 bytes, zero-extended to lanes (R111). -/
  | vldb (e : Eng) (vd ra : Fin 32) (imm : BitVec 16)
  /-- Stores lanes saturated to bytes (R111). -/
  | vstb (e : Eng) (vd ra : Fin 32) (imm : BitVec 16)
  /-- Starts a DMA from the store into engine data memory (R112). -/
  | dmaRead (e : Eng) (pd : Fin 8) (ra rb : Fin 32)
  /-- Starts a DMA from engine data memory into the store (R112). -/
  | dmaWrite (e : Eng) (pd : Fin 8) (ra rb : Fin 32)
  /-- Stalls until at most a given number of DMAs remain outstanding (R112). -/
  | dmawait (e : Eng) (imm : BitVec 16)
  /-- A DMA completes, or meets a store error and traps with DMA_ERR (R113). -/
  | dmaDone (e : Eng)
  /-- ENG_CMD START clears the engine and runs from ENG_ENTRY (R119). -/
  | engStart (e : Eng)
  /-- ENG_CMD RESUME runs the engine on from PC (R119). -/
  | engResume (e : Eng)
  /-- ENG_CMD HALT stops the engine at the next instruction boundary (R119). -/
  | engHalt (e : Eng)
  /-- ENG_CMD STEP executes one instruction (R119). The instruction is the code word at PC -/
  | engStep (e : Eng)
  /-- ENG_CMD RESET puts the engine in OFF (R119). -/
  | engReset (e : Eng)
  /-- Host writes ENG_DOORBELL, which sets latch 60 (R99). -/
  | engDoorbell (e : Eng)
  /-- Host writes SEQ_TRIG, which sets internal triggers in every engine (R124). `m`: SEQ_TRIG.SET -/
  | hostTrig (m : BitVec 16)
  /-- Host binds bars to sequencers; accepted only in IDLE and SERVICE (R123). `k`: SEQ_BIND0 to SEQ_BIND3 -/
  | seqBindWrite (k : Tn) (v : BitVec 32)
  /-- Host writes sequencer code memory; accepted only when stopped or inside the open window (R121). `i`: word of code memory -/
  | codeWrite (e : Fin 16) (i : Fin 16384) (v : BitVec 32)
  /-- Host writes an engine's register window; accepted only in OFF, HALTED and TRAP (R122). `i`: word of the register window -/
  | engRegWrite (e : Eng) (i : Fin 1024) (v : BitVec 32)
  /-- Host writes SEQ_LD_CMD.GO to start a loader copy (R120). -/
  | loaderGo
  /-- Host writes SEQ_LD_CMD.ABORT to stop a loader copy (R120). `n`: the parts of 32 bytes copied by then; more than the copy has: its completion has committed -/
  | loaderAbort (n : Nat)
  /-- A loader copy ends, which raises LOAD_DONE or LOAD_FAIL (R120). -/
  | loaderComplete
  /-- A gathered run of rejected lines is written to the reject list (R137). -/
  | rejectEntryWrite (cause : Fin 16) (b : Bar)
  /-- Host writes SEQ_REJ_ADD_CMD.GO to enter a HOST range (R138). -/
  | rejectAdd
  /-- Host writes SEQ_REJ_CTL.CLR to empty the reject list in IDLE or SERVICE (R138). -/
  | rejectClear
  /-- Host writes GIO direction, inversion or safe codes; applied only in IDLE and SERVICE (R139). `k`: 0 SEQ_GIO_DIR, 1 SEQ_GIO_INV, 2 SEQ_GIO_SAFE0, 3 SEQ_GIO_SAFE1 -/
  | gioConfigWrite (k : Tn) (v : BitVec 32)
  /-- Host sets GIO logical levels (R143). -/
  | gioSet (m : BitVec 32)
  /-- Host clears GIO logical levels (R143). -/
  | gioClr (m : BitVec 32)
  /-- The store controller serves a read request of a port (R173). `p`: the port; `a`: an address in the burst read; `rank`, `err`: its rank and the devices with errors in it; `level`: the port's FIFO level from now on -/
  | storeReadRequest (p : Fin 195) (a : Nat) (rank : Fin 2) (err : List (Fin 10)) (level : Option (Fin 65))
  /-- The store controller serves and acknowledges a write request of a port (R173). `a`, `d`: the bytes of one burst written; `rank`, `err`: as for a read, met by a partial write -/
  | storeWriteRequest (p : Fin 195) (a : Nat) (d : List Byte) (rank : Fin 2) (err : List (Fin 10)) (level : Option (Fin 65))
  /-- A panic episode outlasts PANIC_LIMIT (R172). -/
  | memPanicLong (p : Fin 195)
  /-- A request passes its class's age limit and is promoted (R170). `c`: the class, 0 CRIT to 3 BACK -/
  | requestPromotion (c : Tn)
  /-- DRAM refresh falls due and goes ahead of requests, or is postponed under panic (R171). -/
  | refreshDue (n : Fin 24)
  /-- The patrol scrubber reads, corrects and writes back one burst as one indivisible step (R156). `rank`, `err`: rank and devices in error of the burst at MEM_SCRUB_POS -/
  | scrubStep (rank : Fin 2) (err : List (Fin 10))
  /-- The DRAM raises ALERT_N, and the controller classifies the alert and replays buffered commands (R158). `capar`, `wcrc`: what the error status shows; `again`: the reissued command of the retry buffer that raised ALERT_N again -/
  | dramAlert (n : Fin 24) (capar wcrc : Bool) (again : Option (Fin 64))
  /-- Periodic ZQ calibration of a rank, every 128 ms (R166). -/
  | zqCalibration (n : Fin 24)
  /-- Periodic DQS oscillator read adjusts the delays, every 16 ms (R166). -/
  | dqsTrack (n : Fin 24) (rank : Fin 2)
  /-- Periodic MR4 read sets or clears doubled refresh (R167). `hot`: above 85 C -/
  | mr4Read (n : Fin 24) (rank : Fin 2) (hot : Bool)
  /-- A fenced sub-channel finishes its accepted requests; its running view becomes OFF and it enters self-refresh (R176). -/
  | subchannelDrained (n : Fin 24)
  /-- A composition point composes its next line once it lies within the lead (R180). `b`: the point, CPb of bar Bb -/
  | composeLine (b : Bar)
  /-- Host submits a sheaf on Q52, and the composer answers with a status on Q54 (R195). The submission is the oldest fetched from Q52 -/
  | sheafSubmit
  /-- A host write to an RWS field goes to its shadow until the next sheaf applies (R199). `a`: the register's BAR0 byte address -/
  | rwsWrite (a : Nat) (v : BitVec 32)
  /-- Host writes CMP_CP_CTL: PS, CSTEP and CPHASE only in IDLE and SERVICE, EN to its shadow (R211). -/
  | cpCtlWrite (b : Bar) (v : BitVec 32)
  /-- A read of CMP_POOL returns PEAK and clears it (R211). -/
  | poolPeakRead
  /-- Host submits a display sheaf on Q53 (R208). The submission is the oldest fetched from Q53 -/
  | displaySheafSubmit
  /-- At vertical blank the display composer applies the due display sheaves and counts the frame (R208). -/
  | verticalBlank
  /-- Display reads miss a pixel, and the rest of the line shows the background (R209). -/
  | dspUnderrun
  /-- Host starts a Husk compression command, which is checked for RANGE (R226). -/
  | hskGo
  /-- Host aborts the Husk command (R227). `n`: the lines coded by then; more than the surface has: its header write has committed -/
  | hskAbort (n : Nat)
  /-- The Husk engine finishes a command with DONE, NO_GAIN or STORE_ERR (R224). -/
  | hskComplete
  /-- A tiller screens a composed line of a point and writes it to the drop rings (R240). `b`: the point, CPb of bar Bb; `ce`, `ue`: nozzle entries that the reads find correctable and uncorrectable -/
  | screenLine (b : Bar) (ce ue : List Nat)
  /-- Every store write of a line to a port is acknowledged, and TIL_PORT_DONE advances (R250). -/
  | lineComplete (p : Port)
  /-- A plain write of an NZT entry takes effect from line EFF (R235). `j`: the entry index -/
  | nztWrite (j : Fin 1572864) (v : BitVec 32)
  /-- A compare-and-set update-path command on an NZT entry (R236). `v`: the word written to TIL_NZU_CMD -/
  | nzuGo (v : BitVec 32)
  /-- Host writes TIL_HEAD_COL or CFG in IDLE or SERVICE, and coverage is checked (R254). `cfg`: TIL_HEAD_CFG, else TIL_HEAD_COL -/
  | headMapWrite (p : Port) (h : Fin 8) (cfg : Bool) (v : BitVec 32)
  /-- A neighbour-weight set write takes effect as an NZT write does (R254). `n`: the set; `hi`: TIL_TL_NW1, else TIL_TL_NW0 -/
  | nwSetWrite (t : Tl) (n : Fin 16) (hi : Bool) (v : BitVec 32)
  /-- A read of TIL_TL_STAT returns LAT and clears it (R254). -/
  | tilStatRead (t : Tl)
  /-- Host assigns a port to a bar in IDLE or SERVICE; EN = 1 starts training (R255). -/
  | portCfgWrite (p : Port) (v : BitVec 32)
  /-- Host writes HPL_PORT_CFG.TRAIN to start link training (R267). -/
  | linkTrain (p : Port)
  /-- Host writes HPL_PORT_CFG.DOWN to take the link DOWN (R267). -/
  | linkDownCmd (p : Port)
  /-- A Wengil link gains upstream block lock during LOCK (R267). -/
  | linkBlockLock (p : Port)
  /-- A training state times out, and the link repeats MEASURE or enters FAULT (R267). -/
  | linkTrainTimeout (p : Port)
  /-- With AUTO, 1 s after FAULT or loss, training begins again (R267). -/
  | linkAutoRetrain (p : Port)
  /-- A STATUS frame from a head board is taken and judged (R265). -/
  | statusRx (p : Port) (st : StatusIn)
  /-- No STATUS arrives for STAT_TMO us, and the link goes DOWN (R267). -/
  | statusTimeout (p : Port)
  /-- An UP link loses upstream lock, and its unstrobed lines retire as BLANK_LINE (R279). -/
  | linkLockLoss (p : Port)
  /-- A CORRUPT NAK is received, and the named line is resent if allowed (R271). `x`: LINE[31:0] -/
  | nakCorruptRx (p : Port) (x : BitVec 32)
  /-- A BLANKED NAK is received, and the line is rejected as BLANK_LINE (R272). `x`: LINE[31:0] -/
  | nakBlankedRx (p : Port) (x : BitVec 32)
  /-- A STROBE_LOST NAK is received, and the dropped line is rejected (R272). `x`: LINE[31:0] -/
  | nakStrobeLostRx (p : Port) (x : BitVec 32)
  /-- A CFG_CORRUPT NAK is received, and the CONFIG frame is resent up to three times (R264). -/
  | nakCfgCorruptRx (p : Port) (seq : BitVec 16)
  /-- A control word of unknown type or failing CRC-8 is discarded and counted (R258). -/
  | unknownWordRx (p : Port)
  /-- A port engine sends the next line as a LINE frame once it is released, complete and within the buffer (R269). -/
  | lineFrameSend (p : Port)
  /-- The PING period expires, and a PING SYNC frame is sent (R264). -/
  | pingPeriod (p : Port)
  /-- The TIME period expires, and a TIME SYNC frame is sent (R264). -/
  | timeSyncPeriod (p : Port)
  /-- Host writes camera unit or ISP configuration; accepted only in IDLE and SERVICE (R282). `off`: from the base of the CAM block -/
  | camConfigWrite (off : BitVec 14) (v : BitVec 32)
  /-- Link discovery runs on a CX link, at enable and every 1 s while DOWN (R284). `up`: whether discovery succeeded -/
  | cxDiscovery (l : Fin 8) (up : Bool)
  /-- A CX link loses 8b/10b sync for 1 ms and goes DOWN (R284). -/
  | cxSyncLoss (l : Fin 8)
  /-- A CoaXPress stream, event or heartbeat packet is received (R283). `stream`: a stream packet; `crc`: its CRC is good -/
  | cxPacketRx (l : Fin 8) (stream crc : Bool)
  /-- The camera position reaches COMPARE, so the trigger clock triggers a line and opens a slot (R288). -/
  | cameraTrigger (u : Cu) (dt : Nat)
  /-- A trigger held by MINGAP is delivered (R288). -/
  | cameraDelayedTrigger (u : Cu)
  /-- The camera position reaches an area trigger position of the repeat or sheet (R290). -/
  | areaTrigger (u : Cu) (i : Fin 16) (dt : Nat)
  /-- The 1 us CAM_TRIG pin pulse ends (R289). -/
  | camTrigPinEnd (u : Cu)
  /-- A complete camera line is assigned to the oldest eligible slot, or cut as extra (R292). `px`: the samples of the line, pixel after pixel -/
  | cameraLineRx (u : Tn) (px : List (BitVec 16)) (dt : Nat)
  /-- A slot is still open LINE_TMO after its trigger and is filled with chaff as missing (R292). -/
  | cameraLineTimeout (u : Tn) (dt : Nat)
  /-- A CSI-2 packet is received and checked for ECC and CRC (R295). `ecc`: header ECC good, corrected or uncorrectable; `ty`: data type; `crc`: payload CRC good; `sot`: start-of-transmission error -/
  | csiPacketRx (p : Fin 4) (ecc : Fin 3) (vc : BitVec 4) (ty : BitVec 6) (crc sot : Bool) (px : List (BitVec 16)) (dt : Nat)
  /-- A CSI frame start opens a frame, closing any open frame as SHORT_FRAME (R295). -/
  | csiFrameStart (p : Fin 4) (ecc : Fin 3) (vc : BitVec 4) (dt : Nat)
  /-- A CSI frame end closes the frame (R295). -/
  | csiFrameEnd (p : Fin 4) (ecc : Fin 3) (vc : BitVec 4) (dt : Nat)
  /-- The ISP processes one line of a unit through its stages (R297). -/
  | ispLine (dt : Nat)
  /-- A frame or block finishes: streams, record, queue entry and engine latch (R307). -/
  | frameComplete (u : Cu)
  /-- Host starts a camera control mailbox transaction (R286). `v`: the word written to CAM_U_CTRL_CMD -/
  | camCtrlGo (u : Cu) (v : BitVec 32)
  /-- A mailbox transaction ends DONE, NAK or BAD (R286). -/
  | camCtrlDone (u : Cu) (nak : Bool) (d : BitVec 32)
  /-- A mailbox transaction times out after CTRL_TMO (R286). -/
  | camCtrlTimeout (u : Cu)
  /-- Host commits a settings set, which is checked, copied and begins sending camera items (R310). -/
  | camSetCommit (u : Cu)
  /-- A camera acknowledges a settings item, and the next is sent or the commit instant is fixed (R310). -/
  | camSetItemAck (u : Cu) (nak : Bool) (dt : Nat)
  /-- A read of CAM_U_LAT returns and clears the latencies seen (R313). -/
  | camLatRead (u : Cu)
  /-- A read of CAM_ISP_LOAD returns PEAK and clears it (R313). -/
  | ispLoadRead
  /-- A pixel engine's ZONE task measures a completed block and writes a zone record (R316). `e`: pixel engine; `seq`: the completed block; `busy`: its program was still busy; `us`: time spent -/
  | zoneTask (e : Fin 12) (seq : BitVec 32) (busy : Bool) (us : BitVec 16)
  /-- A LADDER task estimates nozzle losses from a strip and writes nozzle records (R329). as for ZONE_TASK -/
  | ladderTask (e : Fin 12) (seq : BitVec 32) (busy : Bool) (us : BitVec 16)
  /-- The loop firmware judges an eligible zone record and computes offset updates (R320). -/
  | chlJudge
  /-- The nozzle-health firmware judges a strip's records and issues state changes (R332). -/
  | nhStripJudge
  /-- Host starts a FLAT or COLOUR camera calibration; accepted only in SERVICE (R336). `v`: the word written to CHL_CAL_CMD -/
  | calGo (v : BitVec 32)
  /-- Host aborts a calibration (R336). -/
  | calAbort
  /-- A calibration finishes and passes or fails (R336). `cols`: FLAT, the measured means per column; the rest: COLOUR, frame found, fitted WB to OFF words, tone curves, residuals -/
  | calComplete (cols : List Rgb) (found : Bool) (words : List (BitVec 32)) (tone : List (BitVec 16)) (mean top : BitVec 16)
  /-- The daily age check finds a calibration older than CAL_MAXAGE (R338). -/
  | calStale
  /-- Host writes LS_CFG.EN; writing 1 clears OPEN and SHORT (R351). `n`: string; `v`: the word written to LS_CFG -/
  | lsEnable (n : Tl) (v : BitVec 32)
  /-- Host writes string configuration, refused while EN is 1 (R345). `i`: the register, from LS_CFG on -/
  | lsConfigWrite (n : Tl) (i : Fin 8) (v : BitVec 32)
  /-- A FREE dimming period starts, and the string lights (R346). -/
  | lampPeriodStart (n : Tl) (dt : Nat)
  /-- PHASE after an exposure start, a LOCK string lights (R346). -/
  | lockPulseStart (n : Tl) (dt : Nat)
  /-- A string's on-time ends (R346). -/
  | lampPulseEnd (n : Tl)
  /-- Every 20 us the SWC samples Vds and adjusts its target (R350). `vds`: per string, `vout`: the output, both in 10 mV -/
  | headroomSample (vds : List (BitVec 16)) (vout : BitVec 14) (dt : Nat)
  /-- The sense voltage stays below 10 % for 20 us, and the string goes off as OPEN (R351). -/
  | lsOpen (n : Tl)
  /-- Vds stays above its limit for 1 ms, and the string goes off as SHORT (R351). -/
  | lsShort (n : Tl)
  /-- The target stays at VMAX with low current for 1 ms (R351). -/
  | swcLimit (n : Tl)
  /-- The output exceeds VMAX + 5 %, so switching stops; the third within 1 s latches the SWC off (R351). -/
  | swcOvp (dt : Nat)
  /-- 100 ms after an overvoltage the SWC soft-starts again (R351). -/
  | swcSoftRestart
  /-- Host writes SWC_CFG, which releases a latched SWC (R351). -/
  | swcCfgWrite (v : BitVec 32)
  /-- Host writes SW_CMD.UPDATE to swap banks at the next frame (R353). -/
  | swUpdate (c : Tn)
  /-- A status chain sends a frame, on UPDATE or every PER ms (R352). -/
  | chainFrameSend (c : Tn) (dt : Nat)
  /-- A changed node LEVEL is written over the lamp bus (R354). -/
  | lbLevelWrite (m : Fin 16) (ack : Bool) (dt : Nat)
  /-- Every POLL ms each enabled node's status is read (R354). -/
  | lbPoll (m : Fin 16) (ack : Bool) (st : BitVec 8)
  /-- SDA is low for 10 ms, so the device sends recovery clocks (R354). -/
  | lbBusStuck (low : Bool)
  /-- Host writes a codec context's configuration, refused while EN is 1 (R362). `dec`: a decode context; `i`: the register from CFG on -/
  | vidCfgWrite (dec : Bool) (c : Fin 8) (i : Fin 12) (v : BitVec 32)
  /-- The encoder takes a picture from Q48 and codes it (R363). `ctus`: bits of each CTU as the encoder would code it; `out`: the coded picture; `qp`: mean QP x 16 -/
  | encSubmit (ctus : List Nat) (out : List Byte) (qp : BitVec 16)
  /-- An encoded picture completes and its output entry goes to Q49 (R364). -/
  | encPictureDone
  /-- Host advances the encoder output RD, which frees room (R371). -/
  | encOutRdWrite (c : Fin 8) (v : BitVec 32)
  /-- The decoder takes access units from Q50 and decodes them (R363). `pics`: the pictures decoded, in decode order; `outs`: places of those released among those held -/
  | decSubmit (pics : List DecPic) (outs : List Nat)
  /-- A decoded picture is written to a free slot and reported on Q51 (R376). -/
  | decPictureOut (c : Fin 8)
  /-- Host advances VID_DEC_RD, which frees slots (R376). -/
  | decRdWrite (c : Fin 8) (v : BitVec 32)
  /-- Host aborts encoding, and the queue is discarded (R365). -/
  | encAbort
  /-- Host aborts decoding, and the queue is discarded (R365). -/
  | decAbort
  /-- Host writes DP_CFG.EN from 0 to 1, which applies the timing and trains the link (R378). `v`: the word written to DP_CFG; `got`: lanes and rate trained -/
  | dpEnable (v : BitVec 32) (got : DpGot)
  /-- HPD goes high, and the display link trains and starts the stream if it fits (R378). -/
  | dpHpdRise (got : DpGot)
  /-- HPD falls for 2 ms or pulses for loss of lock (R378). `pulse`: loss of lock by an HPD pulse -/
  | dpLinkDown (pulse : Bool) (got : DpGot)
  /-- Host starts an AUX transaction (R377). -/
  | dpAuxGo (v : BitVec 32)
  /-- An AUX transaction ends ACK, NACK, DEFER or TIMEOUT (R377). `d`: bytes read -/
  | dpAuxDone (result : Fin 4) (d : List Byte)
  /-- The switch receives a frame and forwards, floods or drops it (R382). `p`: N0, N1, NI; `f`: the bytes before the FCS; whether the FCS is good and buffer space is found; raw stamps in 2^-16 ns at ingress and per egress port -/
  | netFrameRx (p : Fin 3) (f : List Byte) (fcs room : Bool) (tin : Int) (tout : List Int)
  /-- A learnt address ages out after 300 s (R382). -/
  | macAgeOut (a : BitVec 48)
  /-- An Ethernet port gains block lock (R393). -/
  | netLinkUp (n : Fin 2)
  /-- An Ethernet port loses block lock (R393). -/
  | netLinkDown (n : Fin 2)
  /-- The firmware takes a PTP message, runs the best-master choice and the servo (R388). -/
  | ptpMessageRx (port : Fin 2) (dom : Byte) (m : PtpMsg)
  /-- No Announce for ANN_TMO intervals, so the servo enters HOLDOVER (R389). -/
  | announceTimeout
  /-- NS passes 0, and the epoch advances by one wrap (R386). -/
  | nsWrap
  /-- A scheduled time-pulse edge falls due (R392). -/
  | tpoEdge (k : Fin 8)
  /-- Host writes TPO_CFG.ARM to schedule pulses from START (R392). `v`: the word written to TPO_CFG -/
  | tpoArm (k : Fin 8) (v : BitVec 32)
  /-- Host writes RELOCK to permit one further step (R388). -/
  | timRelock
  /-- Host writes ADJ, which acts only in FREE (R387). -/
  | timAdjWrite (hi : Bool) (v : BitVec 32)
  /-- Host writes TIM_CTL or TIM_NET_CFG; accepted only in IDLE and SERVICE (R394). `n`: none TIM_CTL, else TIM_NET_CFG of the port -/
  | timConfigWrite (n : Option (Fin 2)) (v : BitVec 32)
  /-- A read of TIM_NOW_NS or TIM_EPOCH_NS latches the companion registers (R394). -/
  | timeReadLatch (epoch : Bool)
  /-- Every 50 us the twin engine sends a heartbeat and toggles TWIN_ALIVE_O (R403). -/
  | hbSend
  /-- A good heartbeat from the partner is received (R403). -/
  | hbRx (seq : BitVec 16) (mode : Fin 8) (ready : Bool) (fired : List (BitVec 32))
  /-- A 50 us judging slot ends with or without a heartbeat or toggle (R403). whether TWIN_ALIVE_I toggled; the level of the TWIN_ACTIVE net -/
  | hbSlotEnd (toggle net : Bool)
  /-- At the end of each control cycle the active unit snapshots and sends a copy image (R400). `late`: the previous image is not fully sent -/
  | copySnapshot (late : Bool) (fit : CopyFit) (sects : CopySects)
  /-- The standby applies a complete copy image and acknowledges it (R401). `m`: none for an image that fails its CRC or loses a chunk; `kib`: its size -/
  | copyImageRx (m : Option CopyImg) (kib : BitVec 16)
  /-- The active unit receives an ACK of an applied image (R402). -/
  | copyAckRx (cycle : BitVec 32)
  /-- No image is applied for 4 x T_CYCLE, and SB_READY clears (R402). -/
  | twinCopyStale
  /-- A joining unit applies a JOIN image of NZT and zone tables (R410). -/
  | joinImageRx (m : JoinImg)
  /-- Twin Link training starts at enable and every 100 ms while DOWN (R399). -/
  | twinLinkTrain
  /-- A HELLO is judged, and the link becomes UP or reports a role clash (R399). -/
  | twinHelloRx (version : BitVec 16) (role : Bool)
  /-- A lane loses lock or alignment, and the Twin Link goes DOWN (R399). -/
  | twinLaneLoss (lane : Fin 4)
  /-- Unit A, while active, sees the net low for 100 us and enters SAFE (R397). -/
  | twinContention
  /-- Unit B's pull goes 150 us without a refresh, and AON releases it (R396). -/
  | twinPullRelease
  /-- Host requests a planned switch-over on the active unit (R409). -/
  | twinSwitch (fit : CopyFit) (sects : CopySects)
  /-- A SWITCH request or grant is received, and the units exchange activeness (R409). `grant`: a grant, else a request -/
  | switchRx (grant : Bool)
  /-- Host writes TWN_CMD.RETRAIN to take the Twin Link down and train again (R413). -/
  | twinRetrain
  /-- Host writes twin configuration; accepted only in IDLE and SERVICE (R413). `i`: 0 TWN_CFG, 1 and 2 TWN_IMG, 3 and 4 TWN_JOIN, 5 TWN_ATTACH -/
  | twnConfigWrite (i : Fin 6) (v : BitVec 32)
  /-- The daily check finds the standby hours above AGE_H (R409). -/
  | twinStandbyAge
  /-- A Q60 or Q61 entry sends a message to the partner (R429). `q`: Q60 or Q61 -/
  | twinMsgSend (q : Fin 2)
  /-- A received message is written to a slot and reported on Q62 or Q63 (R429). `q`: Q62 or Q63 -/
  | twinMsgRx (q : Fin 2) (d : List Byte)
  /-- A BAR0 access that is not an aligned 4-byte access completes Unsupported Request (R415). -/
  | bar0BadAccess
  /-- A BAR2 read or write reaches the store through the window (R416). `x`: the offset in BAR2; `n`: bytes read; `d`: the bytes written, none for a read -/
  | bar2Access (x : BitVec 36) (n : BitVec 13) (d : Option (List Byte))
  /-- Host moves the store window base (R416). -/
  | hifWinWrite (v : BitVec 32)
  /-- Host writes a queue's EN from 0 to 1, which resets PI and CI (R418). `v`: the word written to HIF_Q_CFG -/
  | queueEnable (q : Qn) (v : BitVec 32)
  /-- Host writes PI of a host-to-device queue (R418). -/
  | queueDoorbell (q : Qn) (pi : BitVec 32)
  /-- Host writes CI of a device-to-host queue, which frees entries (R418). -/
  | queueCiWrite (q : Qn) (ci : BitVec 32)
  /-- The device fetches a submission, or meets a PCIe error that stops the queue (R419). `x`: the submission fetched; none: a PCIe error meets the fetch, or a write of an entry on a device-to-host queue -/
  | descriptorFetch (q : Qn) (x : Option Sub)
  /-- Completes DONE with nothing done (R422). The oldest fetched descriptor of Qq, whose OP is NOP or unknown, starts -/
  | nop (q : Fin 16)
  /-- Copies host memory into the store (R422). `d`: what the host memory gives, shorter than LEN where an access failed; `n`: bytes moved before the next command (the rest moves at DESCRIPTOR_COMPLETE) -/
  | copyIn (q : Fin 16) (d : List Byte) (n : Nat)
  /-- Copies the store into host memory (R422). `fail`: the bytes after which a host-memory access failed; `n`: bytes moved before the next command -/
  | copyOut (q : Fin 16) (fail : Option Nat) (n : Nat)
  /-- Fills a store range with a pattern (R422). `n`: bytes written before the next command -/
  | fill (q : Fin 16) (n : Nat)
  /-- Waits until earlier store writes are acknowledged before later descriptors start (R174). -/
  | fence (q : Fin 16)
  /-- Checks a job descriptor and enters the job in a slot, computing its line-rate bounds (R431). -/
  | jobLoad (q : Fin 16)
  /-- Frees a job slot unless the job is in use (R432). -/
  | jobUnload (q : Fin 16)
  /-- A descriptor finishes, and its completion entry is written when there is room (R423). -/
  | descriptorComplete (q : Fin 16)
  /-- Host aborts a submission queue's fetched and in-progress descriptors (R425). -/
  | queueAbort (q : Fin 16)
  /-- TIME us pass since the first unsignalled entry, and the vector signals (R433). -/
  | interruptTimer (q : Qn)
  /-- Host unmasks a vector, whose pending bit then signals (R433). -/
  | msixUnmask (v : Fin 64)
  /-- The PCIe link goes down, and fetching stops (R434). -/
  | pcieLinkDown
  /-- The PCIe link comes up (R434). `gen`: generation less 1; `w`: lanes as a power of two -/
  | pcieLinkUp (gen : Fin 5) (w : Fin 4)
  /-- A hot or function-level reset disables every queue and resets vectors (R434). -/
  | pcieHotReset
  /-- Host writes HIF_WDOG, which restarts the watchdog count (R435). -/
  | hifWdogWrite (v : BitVec 32)
  /-- Host kicks the host watchdog and clears HOST_LOST (R435). -/
  | hifWdogKick
  /-- TMO ms pass with no kick, and HOST_LOST is set (R435). -/
  | hostLost
  /-- Host changes an event route for later events (R438). -/
  | evtRouteWrite (n : Fin 18) (v : BitVec 32)
  /-- Mailbox PING returns the running image's SEQ (R440). `q`: Q56 or Q57, whose oldest fetched request is taken; an unknown CMD is taken here too -/
  | mboxPing (q : Fin 2)
  /-- Mailbox FENCE sets a unit's PERMIT to FENCED (R440). -/
  | mboxFence (q : Fin 2)
  /-- Mailbox PERMIT sets a unit's PERMIT to PERMITTED (R440). -/
  | mboxPermit (q : Fin 2)
  /-- Copies the newer valid training record to the store (R440). -/
  | trainRead (q : Fin 2)
  /-- Copies the newer valid calibration record to the store (R440). -/
  | calRead (q : Fin 2)
  /-- Writes a camera unit's tone and flat tables and points its registers at them (R440). -/
  | calPlace (q : Fin 2)
  /-- Replaces the board record of the calibration store (R440). -/
  | boardWrite (q : Fin 2)
  /-- Programs bytes of a boot image slot (R440). -/
  | imageWrite (q : Fin 2)
  /-- Checks a slot as the boot ROM would and may raise the fused SVN (R440). -/
  | imageCommit (q : Fin 2)
  /-- Copies log records to the store (R440). -/
  | logRead (q : Fin 2)
  /-- Power-on reset begins a cold start (R446). -/
  | powerOnReset
  /-- RESET_N or PERST_N asserts and begins a warm or cold start by WARM_RST (R446). -/
  | resetPin
  /-- Host writes GLB_START_CMD.COLD (R446). -/
  | startColdCmd
  /-- Host writes GLB_START_CMD.WARM (R446). -/
  | startWarmCmd
  /-- The cold start sequence runs and ends in IDLE or SAFE (R447). -/
  | coldStart (x : StartIn)
  /-- The warm start sequence restores the store and runs to IDLE (R448). -/
  | warmStart (x : StartIn)
  /-- The started firmware does not report ready in 2 s, and the boot ROM starts the other slot (R445). -/
  | bootReadyTimeout
  /-- The firmware reports ready to the boot ROM (R445). -/
  | firmwareReady
  /-- In RECOVERY, reads a word of the NOR (R465). -/
  | norReadWord
  /-- In RECOVERY, programs a word of the NOR (R465). -/
  | norProgramWord
  /-- In RECOVERY, erases a 64 KiB sector (R465). -/
  | norEraseSector
  /-- Every 64 ms the firmware reads and judges all sensors and publishes values and actions (R456). -/
  | housekeepingRound (x : HkIn)
  /-- An on-die sensor at 125 C makes AON assert THERM_TRIP_N and hold reset (R461). -/
  | thermTrip
  /-- A management core misses its kick (R462). -/
  | mgmtWdogExpiry (c : Fin 4)
  /-- Gathered log records are written as a 4 KiB page, at once for a FATAL event (R463). -/
  | logPageWrite
  /-- A read of MGT_TDIE returns PEAK and clears it (R466). -/
  | tdieRead
  /-- VDD_AON or VDD_CORE below 85 % for 1 us holds power-on reset, then a cold start follows (R474). -/
  | brownout
  /-- REF_CLK stops for 10 us, and the device is held in power-on reset until it runs again (R478). -/
  | refClkLoss
  /-- Host sets the behaviour level in GLB_COMPAT; accepted only in IDLE and SERVICE (R490). -/
  | compatWrite (v : BitVec 32)
  /-- A host write to a register that has no row of its own acts on each field by its type (R9). `a`: the BAR0 offset, of which the low two bits are 0 -/
  | registerWrite (a : BitVec 26) (v : BitVec 32)
  /-- An engine issues an instruction word whose OP, SUB, COND, MODE or UNIT is unassigned and traps with ILLEGAL (R88). `w`: the instruction word -/
  | reservedOpcode (e : Eng) (w : BitVec 32)
  /-- The level of a GIO pin configured as input changes and, after the 4-sample filter, shows in SEQ_GIO_IN (R144). `level`: the filtered pin level from now on -/
  | gioInputChange (n : Fin 32) (level : Bool)
  /-- The width of a TPULSE that a sequencer started on a TPO expires, and the output returns inactive (R104). -/
  | tpulseEnd (n : Fin 8)
  /-- A port engine sends the next CONFIG or SYNC frame from its control queue, or a CONFIG resend, which frees a queue entry for a stalled SEND (R270). -/
  | controlFrameSend (p : Port)
  /-- A PTP interval timer (Sync or Announce as master, Delay_Req or Pdelay_Req) expires and the ordinary clock sends its message (R383). `kind`: 0 Sync, 1 Delay_Req, 2 Pdelay_Req, 3 Announce -/
  | ptpMessageSend (port : Fin 2) (kind : Fin 4)
  /-- All four Twin Link lanes have held lock and alignment for 1 ms, and the link passes from ALIGN to HELLO (R399). -/
  | twinLaneAlign (skew : Byte)
  /-- The lanes of a CSI port gain or lose sync, which makes the CSI unit's source UP or not UP (R287). -/
  | csiLaneSync (p : Fin 4) (sync : Bool)
  /-- 100 ms pass after the last in-line line lost to overload, and the in-line unit leaves STALL (R297). -/
  | camOverloadEnd (u : Cu)
  /-- A camera item of a settings set is not acknowledged in time, so the set ends TIMEOUT and its ISP items are discarded (R311). -/
  | camSetItemTimeout (u : Cu)
  /-- No string of a lamp group has lit for 100 ms, and the group's RUNSTATE moves from RUN to READY (R344). -/
  | lampGroupDark (g : Fin 8)
  /-- A firmware write of SPI NOR (a training record in the background, a calibration store copy, or a mailbox image or board write) completes and is read back (R454). whether the write, and a second try after a failure, reads back right -/
  | norWriteDone (first second : Bool)
  /-- A GLB_NOR program or erase in RECOVERY finishes, which clears BUSY and sets ERR on failure (R465). -/
  | glbNorDone (ok : Bool)
deriving DecidableEq, Repr

end Sys2Proof
end

