-- ==== Sys2Proof/Decode.lean ====
section
/-! DEFINITION. The commands by their words: spec/opcode_table.json gives no row of this hardware any bits, so no word spells a command. The words of the
engines' instructions are written in Machine/Operands.lean (R86) and Machine/Words.lean. -/

namespace Sys2Proof

/-- The command that a word spells by the table's bits: none, since the table gives no row bits. -/
def decodeTableWord (_nbits _w : Nat) : Option Instr := none

end Sys2Proof
end

