-- ==== Sys2Proof/Machine/Events.lean ====
section
/-! DEFINITION. The events of the device: code and class of each, from the event tables of spec/ (R44 to R464). The class
fixes the effect on the press (R45). -/

namespace Sys2Proof.Machine

/-- An event: its 16-bit code (R43) and its class, 0 NOTE, 1 WARN, 2 FAULT, 3 FATAL (R12). -/
structure Ev where
  code : Nat
  cls : Nat
deriving DecidableEq, Repr

/-- MODE_CHANGE (R44). -/
abbrev EV_MODE_CHANGE : Ev := ⟨0x0, 0⟩
/-- MODE_REFUSED (R44). -/
abbrev EV_MODE_REFUSED : Ev := ⟨0x1, 0⟩
/-- STATE_SKEW (R44). -/
abbrev EV_STATE_SKEW : Ev := ⟨0x2, 1⟩
/-- STATE_SKEW_CLEAR (R44). -/
abbrev EV_STATE_SKEW_CLEAR : Ev := ⟨0x3, 0⟩
/-- SKEW_TIMEOUT (R44). -/
abbrev EV_SKEW_TIMEOUT : Ev := ⟨0x4, 3⟩
/-- EVENT_LOST (R44). -/
abbrev EV_EVENT_LOST : Ev := ⟨0x5, 1⟩
/-- ENC_LOSS (R80). -/
abbrev EV_ENC_LOSS : Ev := ⟨0xc00, 2⟩
/-- ENC_FALLBACK (R80). -/
abbrev EV_ENC_FALLBACK : Ev := ⟨0xc01, 1⟩
/-- ENC_QERR (R80). -/
abbrev EV_ENC_QERR : Ev := ⟨0xc02, 1⟩
/-- ABS_ERR (R80). -/
abbrev EV_ABS_ERR : Ev := ⟨0xc03, 1⟩
/-- INDEX_CORR (R80). -/
abbrev EV_INDEX_CORR : Ev := ⟨0xc04, 0⟩
/-- INDEX_FAULT (R80). -/
abbrev EV_INDEX_FAULT : Ev := ⟨0xc05, 1⟩
/-- INDEX_MISSED (R80). -/
abbrev EV_INDEX_MISSED : Ev := ⟨0xc06, 1⟩
/-- INDEX_HOLD (R80). -/
abbrev EV_INDEX_HOLD : Ev := ⟨0xc07, 2⟩
/-- SPEED_REVERSAL (R80). -/
abbrev EV_SPEED_REVERSAL : Ev := ⟨0xc08, 0⟩
/-- STANDSTILL (R80). -/
abbrev EV_STANDSTILL : Ev := ⟨0xc09, 0⟩
/-- LINE_SKIP (R80). -/
abbrev EV_LINE_SKIP : Ev := ⟨0xc0a, 2⟩
/-- OVERSPEED (R80). -/
abbrev EV_OVERSPEED : Ev := ⟨0xc0b, 1⟩
/-- SHEET_SHORT (R80). -/
abbrev EV_SHEET_SHORT : Ev := ⟨0xc0c, 2⟩
/-- SHEET_OVF (R80). -/
abbrev EV_SHEET_OVF : Ev := ⟨0xc0d, 2⟩
/-- SHEET_GAP (R80). -/
abbrev EV_SHEET_GAP : Ev := ⟨0xc0e, 0⟩
/-- POS_LOAD (R80). -/
abbrev EV_POS_LOAD : Ev := ⟨0xc0f, 0⟩
/-- SEQ_TRAP (R125). -/
abbrev EV_SEQ_TRAP : Ev := ⟨0x1000, 2⟩
/-- SEQ_HALT (R125). -/
abbrev EV_SEQ_HALT : Ev := ⟨0x1001, 0⟩
/-- FIRE_DUP (R125). -/
abbrev EV_FIRE_DUP : Ev := ⟨0x1002, 1⟩
/-- SEQ_RESUMED (R125). -/
abbrev EV_SEQ_RESUMED : Ev := ⟨0x1003, 0⟩
/-- SEQ_USER (R125). -/
abbrev EV_SEQ_USER : Ev := ⟨0x1004, 0⟩
/-- LOAD_DONE (R125). -/
abbrev EV_LOAD_DONE : Ev := ⟨0x1005, 0⟩
/-- LOAD_FAIL (R125). -/
abbrev EV_LOAD_FAIL : Ev := ⟨0x1006, 1⟩
/-- SHEAF_REFUSED (R125). -/
abbrev EV_SHEAF_REFUSED : Ev := ⟨0x1007, 1⟩
/-- GIO_DIR_ERR (R147). -/
abbrev EV_GIO_DIR_ERR : Ev := ⟨0x1008, 1⟩
/-- MEM_CE (R177). -/
abbrev EV_MEM_CE : Ev := ⟨0x2400, 0⟩
/-- MEM_UE (R177). -/
abbrev EV_MEM_UE : Ev := ⟨0x2401, 2⟩
/-- MEM_DEV_ERASED (R177). -/
abbrev EV_MEM_DEV_ERASED : Ev := ⟨0x2402, 1⟩
/-- MEM_CA_REPLAY (R177). -/
abbrev EV_MEM_CA_REPLAY : Ev := ⟨0x2403, 1⟩
/-- MEM_WCRC_RETRY (R177). -/
abbrev EV_MEM_WCRC_RETRY : Ev := ⟨0x2404, 1⟩
/-- MEM_SC_FAILED (R177). -/
abbrev EV_MEM_SC_FAILED : Ev := ⟨0x2405, 3⟩
/-- MEM_PANIC (R177). -/
abbrev EV_MEM_PANIC : Ev := ⟨0x2406, 0⟩
/-- MEM_PANIC_LONG (R177). -/
abbrev EV_MEM_PANIC_LONG : Ev := ⟨0x2407, 1⟩
/-- MEM_BUDGET (R177). -/
abbrev EV_MEM_BUDGET : Ev := ⟨0x2408, 1⟩
/-- MEM_SCRUB_PASS (R177). -/
abbrev EV_MEM_SCRUB_PASS : Ev := ⟨0x2409, 0⟩
/-- MEM_TEMP_DRIFT (R177). -/
abbrev EV_MEM_TEMP_DRIFT : Ev := ⟨0x240a, 1⟩
/-- MEM_REFRESH_2X (R177). -/
abbrev EV_MEM_REFRESH_2X : Ev := ⟨0x240b, 0⟩
/-- LEAD_LOW (R210). -/
abbrev EV_LEAD_LOW : Ev := ⟨0x1400, 1⟩
/-- LAYER_FIT (R210). -/
abbrev EV_LAYER_FIT : Ev := ⟨0x1401, 2⟩
/-- LAYER_FIT_CLEAR (R210). -/
abbrev EV_LAYER_FIT_CLEAR : Ev := ⟨0x1402, 0⟩
/-- CODE_MISSING (R210). -/
abbrev EV_CODE_MISSING : Ev := ⟨0x1403, 2⟩
/-- SHEAF_ITEM_BAD (R210). -/
abbrev EV_SHEAF_ITEM_BAD : Ev := ⟨0x1404, 1⟩
/-- CMP_POISON (R210). -/
abbrev EV_CMP_POISON : Ev := ⟨0x1405, 1⟩
/-- JOB_CHANGE (R210). -/
abbrev EV_JOB_CHANGE : Ev := ⟨0x1406, 0⟩
/-- SHEAF_DISCARDED (R210). -/
abbrev EV_SHEAF_DISCARDED : Ev := ⟨0x1407, 0⟩
/-- CMP_BUDGET (R210). -/
abbrev EV_CMP_BUDGET : Ev := ⟨0x1408, 1⟩
/-- DSP_UNDERRUN (R210). -/
abbrev EV_DSP_UNDERRUN : Ev := ⟨0x1409, 1⟩
/-- HSK_DONE (R228). -/
abbrev EV_HSK_DONE : Ev := ⟨0x1800, 0⟩
/-- HSK_FAIL (R228). -/
abbrev EV_HSK_FAIL : Ev := ⟨0x1801, 1⟩
/-- HSK_SEG_BAD (R228). -/
abbrev EV_HSK_SEG_BAD : Ev := ⟨0x1802, 1⟩
/-- NZT_CE (R253). -/
abbrev EV_NZT_CE : Ev := ⟨0x1c00, 0⟩
/-- NZT_UE (R253). -/
abbrev EV_NZT_UE : Ev := ⟨0x1c01, 1⟩
/-- NOZZLE_STATE (R253). -/
abbrev EV_NOZZLE_STATE : Ev := ⟨0x1c02, 0⟩
/-- DEAD_RUN (R253). -/
abbrev EV_DEAD_RUN : Ev := ⟨0x1c03, 1⟩
/-- ERR_CLAMP (R253). -/
abbrev EV_ERR_CLAMP : Ev := ⟨0x1c04, 0⟩
/-- RING_WAIT (R253). -/
abbrev EV_RING_WAIT : Ev := ⟨0x1c05, 1⟩
/-- MAP_GAP (R253). -/
abbrev EV_MAP_GAP : Ev := ⟨0x1c06, 1⟩
/-- TIL_TABLE_BAD (R253). -/
abbrev EV_TIL_TABLE_BAD : Ev := ⟨0x1c07, 1⟩
/-- LINK_UP (R280). -/
abbrev EV_LINK_UP : Ev := ⟨0x2000, 0⟩
/-- LINK_DOWN (R280). -/
abbrev EV_LINK_DOWN : Ev := ⟨0x2001, 2⟩
/-- LINK_TRAIN_FAIL (R280). -/
abbrev EV_LINK_TRAIN_FAIL : Ev := ⟨0x2002, 1⟩
/-- LAT_FIT (R280). -/
abbrev EV_LAT_FIT : Ev := ⟨0x2003, 2⟩
/-- LAT_DRIFT (R280). -/
abbrev EV_LAT_DRIFT : Ev := ⟨0x2004, 1⟩
/-- BLANK_LINE (R280). -/
abbrev EV_BLANK_LINE : Ev := ⟨0x2005, 2⟩
/-- BLANK_UNREPORTED (R280). -/
abbrev EV_BLANK_UNREPORTED : Ev := ⟨0x2006, 2⟩
/-- RESEND (R280). -/
abbrev EV_RESEND : Ev := ⟨0x2007, 1⟩
/-- HB_FAULT (R280). -/
abbrev EV_HB_FAULT : Ev := ⟨0x2008, 2⟩
/-- HB_FAULT_CLEAR (R280). -/
abbrev EV_HB_FAULT_CLEAR : Ev := ⟨0x2009, 0⟩
/-- HB_NOZZLE (R280). -/
abbrev EV_HB_NOZZLE : Ev := ⟨0x200a, 0⟩
/-- HB_CFG_FAIL (R280). -/
abbrev EV_HB_CFG_FAIL : Ev := ⟨0x200b, 1⟩
/-- RING_PARITY (R280). -/
abbrev EV_RING_PARITY : Ev := ⟨0x200c, 1⟩
/-- HB_SELECT (R280). -/
abbrev EV_HB_SELECT : Ev := ⟨0x200d, 0⟩
/-- LINE_LATE (R280). -/
abbrev EV_LINE_LATE : Ev := ⟨0x200e, 2⟩
/-- CAM_LINK_UP (R312). -/
abbrev EV_CAM_LINK_UP : Ev := ⟨0x2800, 0⟩
/-- CAM_LINK_DOWN (R312). -/
abbrev EV_CAM_LINK_DOWN : Ev := ⟨0x2801, 2⟩
/-- CAM_LINE_BAD (R312). -/
abbrev EV_CAM_LINE_BAD : Ev := ⟨0x2802, 1⟩
/-- CAM_BLOCK_BAD (R312). -/
abbrev EV_CAM_BLOCK_BAD : Ev := ⟨0x2803, 1⟩
/-- CAM_CSI_ERR (R312). -/
abbrev EV_CAM_CSI_ERR : Ev := ⟨0x2804, 1⟩
/-- CAM_FRAME_DROP (R312). -/
abbrev EV_CAM_FRAME_DROP : Ev := ⟨0x2805, 1⟩
/-- CAM_STREAM_SKIP (R312). -/
abbrev EV_CAM_STREAM_SKIP : Ev := ⟨0x2806, 1⟩
/-- CAM_TRIG_OVERRUN (R312). -/
abbrev EV_CAM_TRIG_OVERRUN : Ev := ⟨0x2807, 1⟩
/-- CAM_ISP_OVERLOAD (R312). -/
abbrev EV_CAM_ISP_OVERLOAD : Ev := ⟨0x2808, 2⟩
/-- CAM_SET_APPLIED (R312). -/
abbrev EV_CAM_SET_APPLIED : Ev := ⟨0x2809, 0⟩
/-- CAM_SET_FAIL (R312). -/
abbrev EV_CAM_SET_FAIL : Ev := ⟨0x280a, 1⟩
/-- CAM_CTRL_ERR (R312). -/
abbrev EV_CAM_CTRL_ERR : Ev := ⟨0x280b, 1⟩
/-- CAM_POISON (R312). -/
abbrev EV_CAM_POISON : Ev := ⟨0x280c, 1⟩
/-- PIX_BLOCK_SKIP (R339). -/
abbrev EV_PIX_BLOCK_SKIP : Ev := ⟨0x2c00, 1⟩
/-- NH_STRIP_BAD (R339). -/
abbrev EV_NH_STRIP_BAD : Ev := ⟨0x2c01, 1⟩
/-- CHL_UPDATE (R340). -/
abbrev EV_CHL_UPDATE : Ev := ⟨0x3000, 0⟩
/-- CHL_LATE (R340). -/
abbrev EV_CHL_LATE : Ev := ⟨0x3001, 1⟩
/-- CHL_CLAMP (R340). -/
abbrev EV_CHL_CLAMP : Ev := ⟨0x3002, 1⟩
/-- CHL_HOLD (R340). -/
abbrev EV_CHL_HOLD : Ev := ⟨0x3003, 0⟩
/-- CHL_TARGET (R340). -/
abbrev EV_CHL_TARGET : Ev := ⟨0x3004, 0⟩
/-- NH_STREAK (R340). -/
abbrev EV_NH_STREAK : Ev := ⟨0x3005, 1⟩
/-- NH_SUSPECT (R340). -/
abbrev EV_NH_SUSPECT : Ev := ⟨0x3006, 1⟩
/-- NH_PORT_LIMIT (R340). -/
abbrev EV_NH_PORT_LIMIT : Ev := ⟨0x3007, 1⟩
/-- CAL_DONE (R340). -/
abbrev EV_CAL_DONE : Ev := ⟨0x3008, 0⟩
/-- CAL_FAIL (R340). -/
abbrev EV_CAL_FAIL : Ev := ⟨0x3009, 1⟩
/-- CAL_STALE (R340). -/
abbrev EV_CAL_STALE : Ev := ⟨0x300a, 1⟩
/-- LS_OPEN (R357). -/
abbrev EV_LS_OPEN : Ev := ⟨0x3400, 2⟩
/-- LS_SHORT (R357). -/
abbrev EV_LS_SHORT : Ev := ⟨0x3401, 2⟩
/-- LS_THERMAL (R357). -/
abbrev EV_LS_THERMAL : Ev := ⟨0x3402, 2⟩
/-- LS_THERMAL_CLEAR (R357). -/
abbrev EV_LS_THERMAL_CLEAR : Ev := ⟨0x3403, 0⟩
/-- SWC_LIMIT (R357). -/
abbrev EV_SWC_LIMIT : Ev := ⟨0x3404, 1⟩
/-- SWC_OVP (R357). -/
abbrev EV_SWC_OVP : Ev := ⟨0x3405, 2⟩
/-- LOCK_SHORT (R357). -/
abbrev EV_LOCK_SHORT : Ev := ⟨0x3406, 1⟩
/-- LB_NODE_LOST (R357). -/
abbrev EV_LB_NODE_LOST : Ev := ⟨0x3407, 1⟩
/-- LB_BUS_STUCK (R357). -/
abbrev EV_LB_BUS_STUCK : Ev := ⟨0x3408, 1⟩
/-- ENC_BUDGET (R379). -/
abbrev EV_ENC_BUDGET : Ev := ⟨0x3800, 1⟩
/-- ENC_OUT_FULL (R379). -/
abbrev EV_ENC_OUT_FULL : Ev := ⟨0x3801, 1⟩
/-- ENC_POISON (R379). -/
abbrev EV_ENC_POISON : Ev := ⟨0x3802, 1⟩
/-- DEC_ERROR (R379). -/
abbrev EV_DEC_ERROR : Ev := ⟨0x3803, 1⟩
/-- DEC_MISSING_REF (R379). -/
abbrev EV_DEC_MISSING_REF : Ev := ⟨0x3804, 1⟩
/-- DEC_CLEAR (R379). -/
abbrev EV_DEC_CLEAR : Ev := ⟨0x3805, 0⟩
/-- DP_LINK_UP (R379). -/
abbrev EV_DP_LINK_UP : Ev := ⟨0x3806, 0⟩
/-- DP_LINK_DOWN (R379). -/
abbrev EV_DP_LINK_DOWN : Ev := ⟨0x3807, 1⟩
/-- DP_NO_FIT (R379). -/
abbrev EV_DP_NO_FIT : Ev := ⟨0x3808, 1⟩
/-- NET_LINK_UP (R393). -/
abbrev EV_NET_LINK_UP : Ev := ⟨0x3c00, 0⟩
/-- NET_LINK_DOWN (R393). -/
abbrev EV_NET_LINK_DOWN : Ev := ⟨0x3c01, 1⟩
/-- PTP_LOCK (R393). -/
abbrev EV_PTP_LOCK : Ev := ⟨0x3c02, 0⟩
/-- PTP_HOLDOVER (R393). -/
abbrev EV_PTP_HOLDOVER : Ev := ⟨0x3c03, 1⟩
/-- PTP_MASTER_CHANGE (R393). -/
abbrev EV_PTP_MASTER_CHANGE : Ev := ⟨0x3c04, 0⟩
/-- TIME_STEP (R393). -/
abbrev EV_TIME_STEP : Ev := ⟨0x3c05, 0⟩
/-- TIME_OFFSET_LARGE (R393). -/
abbrev EV_TIME_OFFSET_LARGE : Ev := ⟨0x3c06, 1⟩
/-- TPO_SKIP (R393). -/
abbrev EV_TPO_SKIP : Ev := ⟨0x3c07, 1⟩
/-- TWIN_LINK_UP (R412). -/
abbrev EV_TWIN_LINK_UP : Ev := ⟨0x4000, 0⟩
/-- TWIN_LINK_DOWN (R412). -/
abbrev EV_TWIN_LINK_DOWN : Ev := ⟨0x4001, 1⟩
/-- TWIN_HB_MISS (R412). -/
abbrev EV_TWIN_HB_MISS : Ev := ⟨0x4002, 1⟩
/-- TWIN_TAKEOVER (R412). -/
abbrev EV_TWIN_TAKEOVER : Ev := ⟨0x4003, 1⟩
/-- TWIN_PARTNER_LOST (R412). -/
abbrev EV_TWIN_PARTNER_LOST : Ev := ⟨0x4004, 1⟩
/-- TWIN_STANDBY_LOST (R412). -/
abbrev EV_TWIN_STANDBY_LOST : Ev := ⟨0x4005, 1⟩
/-- TWIN_COPY_LATE (R412). -/
abbrev EV_TWIN_COPY_LATE : Ev := ⟨0x4006, 1⟩
/-- TWIN_COPY_BAD (R412). -/
abbrev EV_TWIN_COPY_BAD : Ev := ⟨0x4007, 1⟩
/-- TWIN_COPY_STALE (R412). -/
abbrev EV_TWIN_COPY_STALE : Ev := ⟨0x4008, 1⟩
/-- TWIN_SKEW (R412). -/
abbrev EV_TWIN_SKEW : Ev := ⟨0x4009, 1⟩
/-- TWIN_CONTENTION (R412). -/
abbrev EV_TWIN_CONTENTION : Ev := ⟨0x400a, 3⟩
/-- TWIN_ROLE_CLASH (R412). -/
abbrev EV_TWIN_ROLE_CLASH : Ev := ⟨0x400b, 1⟩
/-- TWIN_SB_READY (R412). -/
abbrev EV_TWIN_SB_READY : Ev := ⟨0x400c, 0⟩
/-- TWIN_STANDBY_AGE (R412). -/
abbrev EV_TWIN_STANDBY_AGE : Ev := ⟨0x400d, 0⟩
/-- TWIN_NZT_LATE (R412). -/
abbrev EV_TWIN_NZT_LATE : Ev := ⟨0x400e, 1⟩
/-- HIF_LINK_UP (R436). -/
abbrev EV_HIF_LINK_UP : Ev := ⟨0x800, 0⟩
/-- HIF_LINK_DOWN (R436). -/
abbrev EV_HIF_LINK_DOWN : Ev := ⟨0x801, 1⟩
/-- HIF_Q_ERR (R436). -/
abbrev EV_HIF_Q_ERR : Ev := ⟨0x802, 1⟩
/-- WIN_RANGE (R436). -/
abbrev EV_WIN_RANGE : Ev := ⟨0x803, 1⟩
/-- HOST_LOST (R436). -/
abbrev EV_HOST_LOST : Ev := ⟨0x804, 1⟩
/-- JOB_LOADED (R436). -/
abbrev EV_JOB_LOADED : Ev := ⟨0x805, 0⟩
/-- MSG_DROP (R436). -/
abbrev EV_MSG_DROP : Ev := ⟨0x806, 1⟩
/-- SENSOR_SUSPECT (R464). -/
abbrev EV_SENSOR_SUSPECT : Ev := ⟨0x4400, 1⟩
/-- SENSOR_CLEAR (R464). -/
abbrev EV_SENSOR_CLEAR : Ev := ⟨0x4401, 0⟩
/-- SENSOR_OPEN (R464). -/
abbrev EV_SENSOR_OPEN : Ev := ⟨0x4402, 1⟩
/-- SUPPLY_WARN (R464). -/
abbrev EV_SUPPLY_WARN : Ev := ⟨0x4403, 1⟩
/-- SUPPLY_TRIP (R464). -/
abbrev EV_SUPPLY_TRIP : Ev := ⟨0x4404, 3⟩
/-- DIE_HOT (R464). -/
abbrev EV_DIE_HOT : Ev := ⟨0x4405, 1⟩
/-- DIE_OVERTEMP (R464). -/
abbrev EV_DIE_OVERTEMP : Ev := ⟨0x4406, 3⟩
/-- MGMT_RESTART (R464). -/
abbrev EV_MGMT_RESTART : Ev := ⟨0x4407, 2⟩
/-- MGMT_HANG (R464). -/
abbrev EV_MGMT_HANG : Ev := ⟨0x4408, 3⟩
/-- NOR_ERR (R464). -/
abbrev EV_NOR_ERR : Ev := ⟨0x4409, 1⟩

end Sys2Proof.Machine
end

