-- ==== Sys2Proof/Config.lean ====
section
/-! DEFINITION. What an implementation fixes and the free values: opaque constants with no body, so that no proof can see what
they are. Each is applied to the operands it depends on; a fresh one is applied to the state's counter `fresh`. -/

namespace Sys2Proof.Config

/-- GLB_ID.STEPPING, "per die" (R465). -/
opaque stepping : Nat
/-- GLB_DIE_ID, "per die" (R465, R163). -/
opaque dieId : Nat
/-- The printed width of a plane in columns, which no register names (R2, R188, R231). -/
opaque printedWidth : Nat → Nat
/-- What a read at or beyond the usable capacity returns (R151, R496), by address and the counter `fresh`. -/
opaque beyondByte : Nat → Nat → BitVec 8
/-- A value the spec leaves open, by what it is for and the counter `fresh`. -/
opaque free : Nat → Nat → Nat
/-- Gradient-corrected bilinear interpolation, whose coefficients the spec does not give (R299): the colour of the pixel and of its right neighbour, the
channel wanted, the 5 x 5 neighbourhood by rows. -/
opaque bayer : Nat → Nat → Nat → List Nat → Nat

end Sys2Proof.Config
end

