-- ==== Sys2Proof/Machine/RegMap.lean ====
section
/-! DEFINITION. The BAR0 register map: one `Fld` per register and per field (address, strides, bits), and the table
of every register's fields with type and reset value, written from the register tables of spec/ (R32 to R490) by the
columns Bits, Field, Type and Reset of each. The meaning of each type is R9, of a reset `cold / kept` is R10. -/

namespace Sys2Proof.Machine

/-- The field types of R9. -/
inductive FieldType | RW | RO | WO | W1C | W1S | RWS
deriving DecidableEq, Repr

/-- One row of a register table: low bit, width, type, cold reset value, what each further instance of the innermost
index adds to that value (0 but for a field that resets to its own index), and whether a warm start keeps it (R10). -/
structure FieldDef where
  lo : Nat
  width : Nat
  ty : FieldType
  cold : Nat
  step : Nat
  kept : Bool
deriving DecidableEq, Repr

/-- One register or array of registers: byte address of the first, (stride, count) of each index outermost first, and its
fields; bits no field names are reserved (R11). -/
structure RegDef where
  base : Nat
  dims : List (Nat × Nat)
  fields : List FieldDef
deriving DecidableEq, Repr

/-- A named field: address of the first instance, the strides of up to three indices, low bit, width. -/
structure Fld where
  base : Nat
  s1 : Nat
  s2 : Nat
  s3 : Nat
  lo : Nat
  width : Nat
deriving DecidableEq, Repr

/-- The byte address of instance (i, j, k) of a field's register. -/
def Fld.addr (f : Fld) (i j k : Nat := 0) : Nat := f.base + f.s1 * i + f.s2 * j + f.s3 * k

/-- Register GLB_MODE_REQ (R32), the whole word. -/
abbrev GLB_MODE_REQ : Fld := ⟨0x100, 0, 0, 0, 0, 32⟩
abbrev GLB_MODE_REQ_TARGET : Fld := ⟨0x100, 0, 0, 0, 0, 4⟩
abbrev GLB_MODE_REQ_IMMEDIATE : Fld := ⟨0x100, 0, 0, 0, 4, 1⟩
abbrev GLB_MODE_REQ_TAG : Fld := ⟨0x100, 0, 0, 0, 8, 8⟩
/-- Register GLB_MODE_STAT (R32), the whole word. -/
abbrev GLB_MODE_STAT : Fld := ⟨0x104, 0, 0, 0, 0, 32⟩
abbrev GLB_MODE_STAT_MODE : Fld := ⟨0x104, 0, 0, 0, 0, 4⟩
abbrev GLB_MODE_STAT_PENDING : Fld := ⟨0x104, 0, 0, 0, 4, 4⟩
abbrev GLB_MODE_STAT_TAG : Fld := ⟨0x104, 0, 0, 0, 8, 8⟩
abbrev GLB_MODE_STAT_RESULT : Fld := ⟨0x104, 0, 0, 0, 16, 3⟩
abbrev GLB_MODE_STAT_CAUSE : Fld := ⟨0x104, 0, 0, 0, 20, 4⟩
/-- Register GLB_PRINT_TRIG (R33), the whole word. -/
abbrev GLB_PRINT_TRIG : Fld := ⟨0x130, 0, 0, 0, 0, 32⟩
abbrev GLB_PRINT_TRIG_TRIG : Fld := ⟨0x130, 0, 0, 0, 0, 4⟩
abbrev GLB_PRINT_TRIG_EN : Fld := ⟨0x130, 0, 0, 0, 4, 1⟩
/-- Register GLB_HOLD_CAUSE (R34), the whole word. -/
abbrev GLB_HOLD_CAUSE : Fld := ⟨0x10c, 0, 0, 0, 0, 32⟩
abbrev GLB_HOLD_CAUSE_PENDING : Fld := ⟨0x10c, 0, 0, 0, 0, 1⟩
abbrev GLB_HOLD_CAUSE_KIND : Fld := ⟨0x10c, 0, 0, 0, 1, 2⟩
abbrev GLB_HOLD_CAUSE_TRK : Fld := ⟨0x10c, 0, 0, 0, 3, 2⟩
abbrev GLB_HOLD_CAUSE_SC : Fld := ⟨0x10c, 0, 0, 0, 5, 5⟩
abbrev GLB_HOLD_CAUSE_ACK : Fld := ⟨0x10c, 0, 0, 0, 31, 1⟩
/-- Register GLB_UST (R35), the whole word. -/
abbrev GLB_UST : Fld := ⟨0x2000, 4, 0, 0, 0, 32⟩
abbrev GLB_UST_RUNSTATE : Fld := ⟨0x2000, 4, 0, 0, 0, 3⟩
abbrev GLB_UST_PERMIT : Fld := ⟨0x2000, 4, 0, 0, 4, 3⟩
abbrev GLB_UST_STATE : Fld := ⟨0x2000, 4, 0, 0, 8, 3⟩
abbrev GLB_UST_SKEW : Fld := ⟨0x2000, 4, 0, 0, 11, 1⟩
abbrev GLB_UST_CAUSE : Fld := ⟨0x2000, 4, 0, 0, 16, 8⟩
abbrev GLB_UST_CHANGES : Fld := ⟨0x2000, 4, 0, 0, 24, 8⟩
/-- Register GLB_SKEW_MAP (R35), the whole word. -/
abbrev GLB_SKEW_MAP : Fld := ⟨0x110, 4, 0, 0, 0, 32⟩
abbrev GLB_SKEW_MAP_SKEW : Fld := ⟨0x110, 4, 0, 0, 0, 32⟩
/-- Register GLB_FATAL_FIRST (R46), the whole word. -/
abbrev GLB_FATAL_FIRST : Fld := ⟨0x108, 0, 0, 0, 0, 32⟩
abbrev GLB_FATAL_FIRST_CODE : Fld := ⟨0x108, 0, 0, 0, 0, 16⟩
abbrev GLB_FATAL_FIRST_UNIT : Fld := ⟨0x108, 0, 0, 0, 16, 8⟩
abbrev GLB_FATAL_FIRST_VALID : Fld := ⟨0x108, 0, 0, 0, 31, 1⟩
/-- Register GEK_CTL (R81), the whole word. -/
abbrev GEK_CTL : Fld := ⟨0x40000, 0, 0, 0, 0, 32⟩
abbrev GEK_CTL_REF_TRK : Fld := ⟨0x40000, 0, 0, 0, 0, 2⟩
/-- Register GEK_STAT (R81), the whole word. -/
abbrev GEK_STAT : Fld := ⟨0x40004, 0, 0, 0, 0, 32⟩
abbrev GEK_STAT_ENC_LOSS : Fld := ⟨0x40004, 0, 0, 0, 0, 8⟩
abbrev GEK_STAT_ABS_LOSS : Fld := ⟨0x40004, 0, 0, 0, 8, 4⟩
abbrev GEK_STAT_FALLBACK : Fld := ⟨0x40004, 0, 0, 0, 12, 4⟩
/-- Register GEK_ENC_CTL (R81), the whole word. -/
abbrev GEK_ENC_CTL : Fld := ⟨0x40100, 32, 0, 0, 0, 32⟩
abbrev GEK_ENC_CTL_EN : Fld := ⟨0x40100, 32, 0, 0, 0, 1⟩
abbrev GEK_ENC_CTL_SWAP : Fld := ⟨0x40100, 32, 0, 0, 1, 1⟩
abbrev GEK_ENC_CTL_FILT : Fld := ⟨0x40100, 32, 0, 0, 2, 5⟩
abbrev GEK_ENC_CTL_ZGATE : Fld := ⟨0x40100, 32, 0, 0, 7, 1⟩
abbrev GEK_ENC_CTL_LOSS_Z : Fld := ⟨0x40100, 32, 0, 0, 8, 1⟩
abbrev GEK_ENC_CTL_CLR : Fld := ⟨0x40100, 32, 0, 0, 9, 1⟩
/-- Register GEK_ENC_STAT (R81), the whole word. -/
abbrev GEK_ENC_STAT : Fld := ⟨0x40104, 32, 0, 0, 0, 32⟩
abbrev GEK_ENC_STAT_LEVEL : Fld := ⟨0x40104, 32, 0, 0, 0, 3⟩
abbrev GEK_ENC_STAT_LOSS : Fld := ⟨0x40104, 32, 0, 0, 3, 1⟩
abbrev GEK_ENC_STAT_LOSS_SEEN : Fld := ⟨0x40104, 32, 0, 0, 4, 1⟩
/-- Register GEK_ENC_COUNT (R81), the whole word. -/
abbrev GEK_ENC_COUNT : Fld := ⟨0x40108, 32, 0, 0, 0, 32⟩
abbrev GEK_ENC_COUNT_COUNT : Fld := ⟨0x40108, 32, 0, 0, 0, 32⟩
/-- Register GEK_ENC_ERR (R81), the whole word. -/
abbrev GEK_ENC_ERR : Fld := ⟨0x4010c, 32, 0, 0, 0, 32⟩
abbrev GEK_ENC_ERR_QERR : Fld := ⟨0x4010c, 32, 0, 0, 0, 16⟩
abbrev GEK_ENC_ERR_ZCNT : Fld := ⟨0x4010c, 32, 0, 0, 16, 16⟩
/-- Register GEK_ABS_CTL (R81), the whole word. -/
abbrev GEK_ABS_CTL : Fld := ⟨0x40200, 32, 0, 0, 0, 32⟩
abbrev GEK_ABS_CTL_EN : Fld := ⟨0x40200, 32, 0, 0, 0, 1⟩
abbrev GEK_ABS_CTL_BITS : Fld := ⟨0x40200, 32, 0, 0, 1, 5⟩
abbrev GEK_ABS_CTL_GRAY : Fld := ⟨0x40200, 32, 0, 0, 6, 1⟩
abbrev GEK_ABS_CTL_PARITY : Fld := ⟨0x40200, 32, 0, 0, 7, 1⟩
abbrev GEK_ABS_CTL_ERRBIT : Fld := ⟨0x40200, 32, 0, 0, 8, 1⟩
abbrev GEK_ABS_CTL_CLKDIV : Fld := ⟨0x40200, 32, 0, 0, 16, 11⟩
/-- Register GEK_ABS_TIMING (R81), the whole word. -/
abbrev GEK_ABS_TIMING : Fld := ⟨0x40204, 32, 0, 0, 0, 32⟩
abbrev GEK_ABS_TIMING_PERIOD : Fld := ⟨0x40204, 32, 0, 0, 0, 16⟩
abbrev GEK_ABS_TIMING_MONO : Fld := ⟨0x40204, 32, 0, 0, 16, 8⟩
/-- Register GEK_ABS_VALUE (R81), the whole word. -/
abbrev GEK_ABS_VALUE : Fld := ⟨0x40208, 32, 0, 0, 0, 32⟩
abbrev GEK_ABS_VALUE_VALUE : Fld := ⟨0x40208, 32, 0, 0, 0, 32⟩
/-- Register GEK_ABS_ERR (R81), the whole word. -/
abbrev GEK_ABS_ERR : Fld := ⟨0x4020c, 32, 0, 0, 0, 32⟩
abbrev GEK_ABS_ERR_ERRS : Fld := ⟨0x4020c, 32, 0, 0, 0, 16⟩
abbrev GEK_ABS_ERR_LOSS : Fld := ⟨0x4020c, 32, 0, 0, 16, 1⟩
/-- Register GEK_ABS_MAXDELTA (R81), the whole word. -/
abbrev GEK_ABS_MAXDELTA : Fld := ⟨0x40210, 32, 0, 0, 0, 32⟩
abbrev GEK_ABS_MAXDELTA_MAXDELTA : Fld := ⟨0x40210, 32, 0, 0, 0, 32⟩
/-- Register GEK_MK_CTL (R81), the whole word. -/
abbrev GEK_MK_CTL : Fld := ⟨0x40300, 32, 0, 0, 0, 32⟩
abbrev GEK_MK_CTL_EN : Fld := ⟨0x40300, 32, 0, 0, 0, 1⟩
abbrev GEK_MK_CTL_EDGE : Fld := ⟨0x40300, 32, 0, 0, 1, 2⟩
abbrev GEK_MK_CTL_FILT : Fld := ⟨0x40300, 32, 0, 0, 3, 8⟩
abbrev GEK_MK_CTL_TRK : Fld := ⟨0x40300, 32, 0, 0, 11, 2⟩
/-- Register GEK_MK_HOLDOFF (R81), the whole word. -/
abbrev GEK_MK_HOLDOFF : Fld := ⟨0x40304, 32, 0, 0, 0, 32⟩
abbrev GEK_MK_HOLDOFF_HOLDOFF : Fld := ⟨0x40304, 32, 0, 0, 0, 32⟩
/-- Register GEK_MK_STAT (R81), the whole word. -/
abbrev GEK_MK_STAT : Fld := ⟨0x40308, 32, 0, 0, 0, 32⟩
abbrev GEK_MK_STAT_LEVEL : Fld := ⟨0x40308, 32, 0, 0, 0, 1⟩
abbrev GEK_MK_STAT_EDGES : Fld := ⟨0x40308, 32, 0, 0, 16, 16⟩
/-- Register GEK_MK_LATCH_LO (R81), the whole word. -/
abbrev GEK_MK_LATCH_LO : Fld := ⟨0x4030c, 32, 0, 0, 0, 32⟩
abbrev GEK_MK_LATCH_LO_LATCH : Fld := ⟨0x4030c, 32, 0, 0, 0, 32⟩
/-- Register GEK_MK_LATCH_HI (R81), the whole word. -/
abbrev GEK_MK_LATCH_HI : Fld := ⟨0x40310, 32, 0, 0, 0, 32⟩
abbrev GEK_MK_LATCH_HI_LATCH : Fld := ⟨0x40310, 32, 0, 0, 0, 32⟩
/-- Register GEK_TRK_CTL (R81), the whole word. -/
abbrev GEK_TRK_CTL : Fld := ⟨0x41000, 256, 0, 0, 0, 32⟩
abbrev GEK_TRK_CTL_EN : Fld := ⟨0x41000, 256, 0, 0, 0, 1⟩
abbrev GEK_TRK_CTL_SRC_ABS : Fld := ⟨0x41000, 256, 0, 0, 1, 1⟩
abbrev GEK_TRK_CTL_SRC : Fld := ⟨0x41000, 256, 0, 0, 2, 3⟩
abbrev GEK_TRK_CTL_SEC_EN : Fld := ⟨0x41000, 256, 0, 0, 5, 1⟩
abbrev GEK_TRK_CTL_SEC_ABS : Fld := ⟨0x41000, 256, 0, 0, 6, 1⟩
abbrev GEK_TRK_CTL_SEC : Fld := ⟨0x41000, 256, 0, 0, 7, 3⟩
abbrev GEK_TRK_CTL_INTERP : Fld := ⟨0x41000, 256, 0, 0, 10, 1⟩
abbrev GEK_TRK_CTL_SHEET : Fld := ⟨0x41000, 256, 0, 0, 11, 1⟩
abbrev GEK_TRK_CTL_IDX_MK : Fld := ⟨0x41000, 256, 0, 0, 12, 3⟩
abbrev GEK_TRK_CTL_IDX_Z : Fld := ⟨0x41000, 256, 0, 0, 15, 1⟩
abbrev GEK_TRK_CTL_IDX_MODE : Fld := ⟨0x41000, 256, 0, 0, 16, 2⟩
abbrev GEK_TRK_CTL_WIN_EN : Fld := ⟨0x41000, 256, 0, 0, 18, 1⟩
abbrev GEK_TRK_CTL_HOLD3 : Fld := ⟨0x41000, 256, 0, 0, 19, 1⟩
abbrev GEK_TRK_CTL_ARM : Fld := ⟨0x41000, 256, 0, 0, 20, 1⟩
abbrev GEK_TRK_CTL_LOAD : Fld := ⟨0x41000, 256, 0, 0, 21, 1⟩
/-- Register GEK_TRK_STAT (R81), the whole word. -/
abbrev GEK_TRK_STAT : Fld := ⟨0x41004, 256, 0, 0, 0, 32⟩
abbrev GEK_TRK_STAT_SPEED_VALID : Fld := ⟨0x41004, 256, 0, 0, 0, 1⟩
abbrev GEK_TRK_STAT_REVERSAL : Fld := ⟨0x41004, 256, 0, 0, 1, 1⟩
abbrev GEK_TRK_STAT_STILL : Fld := ⟨0x41004, 256, 0, 0, 2, 1⟩
abbrev GEK_TRK_STAT_DIR : Fld := ⟨0x41004, 256, 0, 0, 3, 1⟩
abbrev GEK_TRK_STAT_GATE_MODE : Fld := ⟨0x41004, 256, 0, 0, 4, 1⟩
abbrev GEK_TRK_STAT_FALLBACK : Fld := ⟨0x41004, 256, 0, 0, 5, 1⟩
abbrev GEK_TRK_STAT_LOSS : Fld := ⟨0x41004, 256, 0, 0, 6, 1⟩
abbrev GEK_TRK_STAT_ARMED : Fld := ⟨0x41004, 256, 0, 0, 7, 1⟩
abbrev GEK_TRK_STAT_SPREADING : Fld := ⟨0x41004, 256, 0, 0, 8, 1⟩
abbrev GEK_TRK_STAT_LOAD_ERR : Fld := ⟨0x41004, 256, 0, 0, 9, 1⟩
abbrev GEK_TRK_STAT_CONSEC : Fld := ⟨0x41004, 256, 0, 0, 10, 2⟩
/-- Register GEK_TRK_STEP_FRAC (R81), the whole word. -/
abbrev GEK_TRK_STEP_FRAC : Fld := ⟨0x41008, 256, 0, 0, 0, 32⟩
abbrev GEK_TRK_STEP_FRAC_STEP : Fld := ⟨0x41008, 256, 0, 0, 0, 32⟩
/-- Register GEK_TRK_STEP_INT (R81), the whole word. -/
abbrev GEK_TRK_STEP_INT : Fld := ⟨0x4100c, 256, 0, 0, 0, 32⟩
abbrev GEK_TRK_STEP_INT_STEP : Fld := ⟨0x4100c, 256, 0, 0, 0, 32⟩
/-- Register GEK_TRK_SSTEP_FRAC (R81), the whole word. -/
abbrev GEK_TRK_SSTEP_FRAC : Fld := ⟨0x41010, 256, 0, 0, 0, 32⟩
abbrev GEK_TRK_SSTEP_FRAC_SSTEP : Fld := ⟨0x41010, 256, 0, 0, 0, 32⟩
/-- Register GEK_TRK_SSTEP_INT (R81), the whole word. -/
abbrev GEK_TRK_SSTEP_INT : Fld := ⟨0x41014, 256, 0, 0, 0, 32⟩
abbrev GEK_TRK_SSTEP_INT_SSTEP : Fld := ⟨0x41014, 256, 0, 0, 0, 32⟩
/-- Register GEK_TRK_POS_LO (R81), the whole word. -/
abbrev GEK_TRK_POS_LO : Fld := ⟨0x41018, 256, 0, 0, 0, 32⟩
abbrev GEK_TRK_POS_LO_P : Fld := ⟨0x41018, 256, 0, 0, 0, 32⟩
/-- Register GEK_TRK_POS_HI (R81), the whole word. -/
abbrev GEK_TRK_POS_HI : Fld := ⟨0x4101c, 256, 0, 0, 0, 32⟩
abbrev GEK_TRK_POS_HI_P : Fld := ⟨0x4101c, 256, 0, 0, 0, 32⟩
/-- Register GEK_TRK_LOAD_LO (R81), the whole word. -/
abbrev GEK_TRK_LOAD_LO : Fld := ⟨0x41020, 256, 0, 0, 0, 32⟩
abbrev GEK_TRK_LOAD_LO_LOAD : Fld := ⟨0x41020, 256, 0, 0, 0, 32⟩
/-- Register GEK_TRK_LOAD_HI (R81), the whole word. -/
abbrev GEK_TRK_LOAD_HI : Fld := ⟨0x41024, 256, 0, 0, 0, 32⟩
abbrev GEK_TRK_LOAD_HI_LOAD : Fld := ⟨0x41024, 256, 0, 0, 0, 32⟩
/-- Register GEK_TRK_SPEED (R81), the whole word. -/
abbrev GEK_TRK_SPEED : Fld := ⟨0x41028, 256, 0, 0, 0, 32⟩
abbrev GEK_TRK_SPEED_SPEED : Fld := ⟨0x41028, 256, 0, 0, 0, 32⟩
/-- Register GEK_TRK_SPD_LOW (R81), the whole word. -/
abbrev GEK_TRK_SPD_LOW : Fld := ⟨0x4102c, 256, 0, 0, 0, 32⟩
abbrev GEK_TRK_SPD_LOW_SPD_LOW : Fld := ⟨0x4102c, 256, 0, 0, 0, 32⟩
/-- Register GEK_TRK_SPD_HIGH (R81), the whole word. -/
abbrev GEK_TRK_SPD_HIGH : Fld := ⟨0x41030, 256, 0, 0, 0, 32⟩
abbrev GEK_TRK_SPD_HIGH_SPD_HIGH : Fld := ⟨0x41030, 256, 0, 0, 0, 32⟩
/-- Register GEK_TRK_GATE (R81), the whole word. -/
abbrev GEK_TRK_GATE : Fld := ⟨0x41034, 256, 0, 0, 0, 32⟩
abbrev GEK_TRK_GATE_GATE : Fld := ⟨0x41034, 256, 0, 0, 0, 32⟩
/-- Register GEK_TRK_STILL (R81), the whole word. -/
abbrev GEK_TRK_STILL : Fld := ⟨0x41038, 256, 0, 0, 0, 32⟩
abbrev GEK_TRK_STILL_STILL : Fld := ⟨0x41038, 256, 0, 0, 0, 32⟩
/-- Register GEK_TRK_WINDOW (R81), the whole word. -/
abbrev GEK_TRK_WINDOW : Fld := ⟨0x4103c, 256, 0, 0, 0, 32⟩
abbrev GEK_TRK_WINDOW_WINDOW : Fld := ⟨0x4103c, 256, 0, 0, 0, 32⟩
/-- Register GEK_TRK_IDX_PITCH_LO (R81), the whole word. -/
abbrev GEK_TRK_IDX_PITCH_LO : Fld := ⟨0x41040, 256, 0, 0, 0, 32⟩
abbrev GEK_TRK_IDX_PITCH_LO_IDX_PITCH : Fld := ⟨0x41040, 256, 0, 0, 0, 32⟩
/-- Register GEK_TRK_IDX_PITCH_HI (R81), the whole word. -/
abbrev GEK_TRK_IDX_PITCH_HI : Fld := ⟨0x41044, 256, 0, 0, 0, 32⟩
abbrev GEK_TRK_IDX_PITCH_HI_IDX_PITCH : Fld := ⟨0x41044, 256, 0, 0, 0, 32⟩
/-- Register GEK_TRK_IDX_LOAD_LO (R81), the whole word. -/
abbrev GEK_TRK_IDX_LOAD_LO : Fld := ⟨0x41048, 256, 0, 0, 0, 32⟩
abbrev GEK_TRK_IDX_LOAD_LO_IDX_LOAD : Fld := ⟨0x41048, 256, 0, 0, 0, 32⟩
/-- Register GEK_TRK_IDX_LOAD_HI (R81), the whole word. -/
abbrev GEK_TRK_IDX_LOAD_HI : Fld := ⟨0x4104c, 256, 0, 0, 0, 32⟩
abbrev GEK_TRK_IDX_LOAD_HI_IDX_LOAD : Fld := ⟨0x4104c, 256, 0, 0, 0, 32⟩
/-- Register GEK_TRK_NEXT_LO (R81), the whole word. -/
abbrev GEK_TRK_NEXT_LO : Fld := ⟨0x41050, 256, 0, 0, 0, 32⟩
abbrev GEK_TRK_NEXT_LO_NEXT : Fld := ⟨0x41050, 256, 0, 0, 0, 32⟩
/-- Register GEK_TRK_NEXT_HI (R81), the whole word. -/
abbrev GEK_TRK_NEXT_HI : Fld := ⟨0x41054, 256, 0, 0, 0, 32⟩
abbrev GEK_TRK_NEXT_HI_NEXT : Fld := ⟨0x41054, 256, 0, 0, 0, 32⟩
/-- Register GEK_TRK_IDX_DEV (R81), the whole word. -/
abbrev GEK_TRK_IDX_DEV : Fld := ⟨0x41058, 256, 0, 0, 0, 32⟩
abbrev GEK_TRK_IDX_DEV_IDX_DEV : Fld := ⟨0x41058, 256, 0, 0, 0, 32⟩
/-- Register GEK_TRK_SPREAD (R81), the whole word. -/
abbrev GEK_TRK_SPREAD : Fld := ⟨0x4105c, 256, 0, 0, 0, 32⟩
abbrev GEK_TRK_SPREAD_N : Fld := ⟨0x4105c, 256, 0, 0, 0, 16⟩
abbrev GEK_TRK_SPREAD_LC : Fld := ⟨0x4105c, 256, 0, 0, 16, 4⟩
/-- Register GEK_TRK_CORR_REM (R81), the whole word. -/
abbrev GEK_TRK_CORR_REM : Fld := ⟨0x41060, 256, 0, 0, 0, 32⟩
abbrev GEK_TRK_CORR_REM_C : Fld := ⟨0x41060, 256, 0, 0, 0, 32⟩
/-- Register GEK_TRK_IDX_CNT (R81), the whole word. -/
abbrev GEK_TRK_IDX_CNT : Fld := ⟨0x41064, 256, 0, 0, 0, 32⟩
abbrev GEK_TRK_IDX_CNT_ACCEPTED : Fld := ⟨0x41064, 256, 0, 0, 0, 16⟩
abbrev GEK_TRK_IDX_CNT_FAULTS : Fld := ⟨0x41064, 256, 0, 0, 16, 16⟩
/-- Register GEK_TRK_SHEET_MIN (R81), the whole word. -/
abbrev GEK_TRK_SHEET_MIN : Fld := ⟨0x41068, 256, 0, 0, 0, 32⟩
abbrev GEK_TRK_SHEET_MIN_SHEET_MIN : Fld := ⟨0x41068, 256, 0, 0, 0, 32⟩
/-- Register GEK_TRK_SHEET_MAX (R81), the whole word. -/
abbrev GEK_TRK_SHEET_MAX : Fld := ⟨0x4106c, 256, 0, 0, 0, 32⟩
abbrev GEK_TRK_SHEET_MAX_SHEET_MAX : Fld := ⟨0x4106c, 256, 0, 0, 0, 32⟩
/-- Register GEK_TRK_SHEET_NUM (R81), the whole word. -/
abbrev GEK_TRK_SHEET_NUM : Fld := ⟨0x41070, 256, 0, 0, 0, 32⟩
abbrev GEK_TRK_SHEET_NUM_SHEET_NUM : Fld := ⟨0x41070, 256, 0, 0, 0, 32⟩
/-- Register GEK_TRK_SHEET_Q (R81), the whole word. -/
abbrev GEK_TRK_SHEET_Q : Fld := ⟨0x41074, 256, 0, 0, 0, 32⟩
abbrev GEK_TRK_SHEET_Q_LEVEL : Fld := ⟨0x41074, 256, 0, 0, 0, 5⟩
/-- Register GEK_TRK_REV_CNT (R81), the whole word. -/
abbrev GEK_TRK_REV_CNT : Fld := ⟨0x41078, 256, 0, 0, 0, 32⟩
abbrev GEK_TRK_REV_CNT_REV_CNT : Fld := ⟨0x41078, 256, 0, 0, 0, 32⟩
/-- Register GEK_LC_CTL (R81), the whole word. -/
abbrev GEK_LC_CTL : Fld := ⟨0x42000, 128, 0, 0, 0, 32⟩
abbrev GEK_LC_CTL_EN : Fld := ⟨0x42000, 128, 0, 0, 0, 1⟩
abbrev GEK_LC_CTL_TRK : Fld := ⟨0x42000, 128, 0, 0, 1, 2⟩
abbrev GEK_LC_CTL_SHEET : Fld := ⟨0x42000, 128, 0, 0, 3, 1⟩
/-- Register GEK_LC_STAT (R81), the whole word. -/
abbrev GEK_LC_STAT : Fld := ⟨0x42004, 128, 0, 0, 0, 32⟩
abbrev GEK_LC_STAT_BACK : Fld := ⟨0x42004, 128, 0, 0, 0, 1⟩
abbrev GEK_LC_STAT_DELAYED : Fld := ⟨0x42004, 128, 0, 0, 1, 1⟩
abbrev GEK_LC_STAT_SPREADING : Fld := ⟨0x42004, 128, 0, 0, 2, 1⟩
abbrev GEK_LC_STAT_WAIT_SHEET : Fld := ⟨0x42004, 128, 0, 0, 3, 1⟩
/-- Register GEK_LC_OFFSET_LO (R81), the whole word. -/
abbrev GEK_LC_OFFSET_LO : Fld := ⟨0x42008, 128, 0, 0, 0, 32⟩
abbrev GEK_LC_OFFSET_LO_OFFSET : Fld := ⟨0x42008, 128, 0, 0, 0, 32⟩
/-- Register GEK_LC_OFFSET_HI (R81), the whole word. -/
abbrev GEK_LC_OFFSET_HI : Fld := ⟨0x4200c, 128, 0, 0, 0, 32⟩
abbrev GEK_LC_OFFSET_HI_OFFSET : Fld := ⟨0x4200c, 128, 0, 0, 0, 32⟩
/-- Register GEK_LC_PITCH_FRAC (R81), the whole word. -/
abbrev GEK_LC_PITCH_FRAC : Fld := ⟨0x42010, 128, 0, 0, 0, 32⟩
abbrev GEK_LC_PITCH_FRAC_PITCH : Fld := ⟨0x42010, 128, 0, 0, 0, 32⟩
/-- Register GEK_LC_PITCH_INT (R81), the whole word. -/
abbrev GEK_LC_PITCH_INT : Fld := ⟨0x42014, 128, 0, 0, 0, 32⟩
abbrev GEK_LC_PITCH_INT_PITCH : Fld := ⟨0x42014, 128, 0, 0, 0, 32⟩
/-- Register GEK_LC_CMP_FRAC (R81), the whole word. -/
abbrev GEK_LC_CMP_FRAC : Fld := ⟨0x42018, 128, 0, 0, 0, 32⟩
abbrev GEK_LC_CMP_FRAC_COMPARE : Fld := ⟨0x42018, 128, 0, 0, 0, 32⟩
/-- Register GEK_LC_CMP_LO (R81), the whole word. -/
abbrev GEK_LC_CMP_LO : Fld := ⟨0x4201c, 128, 0, 0, 0, 32⟩
abbrev GEK_LC_CMP_LO_COMPARE : Fld := ⟨0x4201c, 128, 0, 0, 0, 32⟩
/-- Register GEK_LC_CMP_HI (R81), the whole word. -/
abbrev GEK_LC_CMP_HI : Fld := ⟨0x42020, 128, 0, 0, 0, 32⟩
abbrev GEK_LC_CMP_HI_COMPARE : Fld := ⟨0x42020, 128, 0, 0, 0, 32⟩
/-- Register GEK_LC_LINE_LO (R81), the whole word. -/
abbrev GEK_LC_LINE_LO : Fld := ⟨0x42024, 128, 0, 0, 0, 32⟩
abbrev GEK_LC_LINE_LO_LINE : Fld := ⟨0x42024, 128, 0, 0, 0, 32⟩
/-- Register GEK_LC_LINE_HI (R81), the whole word. -/
abbrev GEK_LC_LINE_HI : Fld := ⟨0x42028, 128, 0, 0, 0, 32⟩
abbrev GEK_LC_LINE_HI_LINE : Fld := ⟨0x42028, 128, 0, 0, 0, 32⟩
/-- Register GEK_LC_HWM_LO (R81), the whole word. -/
abbrev GEK_LC_HWM_LO : Fld := ⟨0x4202c, 128, 0, 0, 0, 32⟩
abbrev GEK_LC_HWM_LO_HWM : Fld := ⟨0x4202c, 128, 0, 0, 0, 32⟩
/-- Register GEK_LC_HWM_HI (R81), the whole word. -/
abbrev GEK_LC_HWM_HI : Fld := ⟨0x42030, 128, 0, 0, 0, 32⟩
abbrev GEK_LC_HWM_HI_HWM : Fld := ⟨0x42030, 128, 0, 0, 0, 32⟩
/-- Register GEK_LC_MINGAP (R81), the whole word. -/
abbrev GEK_LC_MINGAP : Fld := ⟨0x42034, 128, 0, 0, 0, 32⟩
abbrev GEK_LC_MINGAP_MINGAP : Fld := ⟨0x42034, 128, 0, 0, 0, 32⟩
/-- Register GEK_LC_SKIP (R81), the whole word. -/
abbrev GEK_LC_SKIP : Fld := ⟨0x42038, 128, 0, 0, 0, 32⟩
abbrev GEK_LC_SKIP_SKIP : Fld := ⟨0x42038, 128, 0, 0, 0, 32⟩
/-- Register GEK_LC_SHEET_TOP (R81), the whole word. -/
abbrev GEK_LC_SHEET_TOP : Fld := ⟨0x4203c, 128, 0, 0, 0, 32⟩
abbrev GEK_LC_SHEET_TOP_SHEET_TOP : Fld := ⟨0x4203c, 128, 0, 0, 0, 32⟩
/-- Register GEK_LC_SHEET_LINES (R81), the whole word. -/
abbrev GEK_LC_SHEET_LINES : Fld := ⟨0x42040, 128, 0, 0, 0, 32⟩
abbrev GEK_LC_SHEET_LINES_SHEET_LINES : Fld := ⟨0x42040, 128, 0, 0, 0, 32⟩
/-- Register GEK_LC_SHEET (R81), the whole word. -/
abbrev GEK_LC_SHEET : Fld := ⟨0x42044, 128, 0, 0, 0, 32⟩
abbrev GEK_LC_SHEET_SHEET : Fld := ⟨0x42044, 128, 0, 0, 0, 32⟩
/-- Register SEQ_BIND (R124), the whole word. -/
abbrev SEQ_BIND : Fld := ⟨0x80000, 4, 0, 0, 0, 32⟩
abbrev SEQ_BIND_SQ0 : Fld := ⟨0x80000, 4, 0, 0, 0, 4⟩
abbrev SEQ_BIND_SQ1 : Fld := ⟨0x80000, 4, 0, 0, 8, 4⟩
abbrev SEQ_BIND_SQ2 : Fld := ⟨0x80000, 4, 0, 0, 16, 4⟩
abbrev SEQ_BIND_SQ3 : Fld := ⟨0x80000, 4, 0, 0, 24, 4⟩
abbrev SEQ_BIND_VALID0 : Fld := ⟨0x80000, 4, 0, 0, 7, 1⟩
abbrev SEQ_BIND_VALID1 : Fld := ⟨0x80000, 4, 0, 0, 15, 1⟩
abbrev SEQ_BIND_VALID2 : Fld := ⟨0x80000, 4, 0, 0, 23, 1⟩
abbrev SEQ_BIND_VALID3 : Fld := ⟨0x80000, 4, 0, 0, 31, 1⟩
/-- Register SEQ_TRIG (R124), the whole word. -/
abbrev SEQ_TRIG : Fld := ⟨0x80010, 0, 0, 0, 0, 32⟩
abbrev SEQ_TRIG_SET : Fld := ⟨0x80010, 0, 0, 0, 0, 16⟩
/-- Register SEQ_STAT (R124), the whole word. -/
abbrev SEQ_STAT : Fld := ⟨0x80014, 0, 0, 0, 0, 32⟩
abbrev SEQ_STAT_BIND_ERR : Fld := ⟨0x80014, 0, 0, 0, 0, 1⟩
/-- Register SEQ_LD_SRC_LO (R124), the whole word. -/
abbrev SEQ_LD_SRC_LO : Fld := ⟨0x80100, 0, 0, 0, 0, 32⟩
abbrev SEQ_LD_SRC_LO_SRC : Fld := ⟨0x80100, 0, 0, 0, 0, 32⟩
/-- Register SEQ_LD_SRC_HI (R124), the whole word. -/
abbrev SEQ_LD_SRC_HI : Fld := ⟨0x80104, 0, 0, 0, 0, 32⟩
abbrev SEQ_LD_SRC_HI_SRC : Fld := ⟨0x80104, 0, 0, 0, 0, 32⟩
/-- Register SEQ_LD_DST (R124), the whole word. -/
abbrev SEQ_LD_DST : Fld := ⟨0x80108, 0, 0, 0, 0, 32⟩
abbrev SEQ_LD_DST_ENGINE : Fld := ⟨0x80108, 0, 0, 0, 0, 5⟩
abbrev SEQ_LD_DST_MEM : Fld := ⟨0x80108, 0, 0, 0, 5, 1⟩
abbrev SEQ_LD_DST_DIR : Fld := ⟨0x80108, 0, 0, 0, 6, 1⟩
/-- Register SEQ_LD_OFF (R124), the whole word. -/
abbrev SEQ_LD_OFF : Fld := ⟨0x8010c, 0, 0, 0, 0, 32⟩
abbrev SEQ_LD_OFF_OFF : Fld := ⟨0x8010c, 0, 0, 0, 0, 19⟩
/-- Register SEQ_LD_LEN (R124), the whole word. -/
abbrev SEQ_LD_LEN : Fld := ⟨0x80110, 0, 0, 0, 0, 32⟩
abbrev SEQ_LD_LEN_LEN : Fld := ⟨0x80110, 0, 0, 0, 0, 20⟩
/-- Register SEQ_LD_CMD (R124), the whole word. -/
abbrev SEQ_LD_CMD : Fld := ⟨0x80114, 0, 0, 0, 0, 32⟩
abbrev SEQ_LD_CMD_GO : Fld := ⟨0x80114, 0, 0, 0, 0, 1⟩
abbrev SEQ_LD_CMD_ABORT : Fld := ⟨0x80114, 0, 0, 0, 1, 1⟩
/-- Register SEQ_LD_STAT (R124), the whole word. -/
abbrev SEQ_LD_STAT : Fld := ⟨0x80118, 0, 0, 0, 0, 32⟩
abbrev SEQ_LD_STAT_BUSY : Fld := ⟨0x80118, 0, 0, 0, 0, 1⟩
abbrev SEQ_LD_STAT_RESULT : Fld := ⟨0x80118, 0, 0, 0, 1, 3⟩
/-- Register ENG_CMD (R124), the whole word. -/
abbrev ENG_CMD : Fld := ⟨0x81000, 256, 0, 0, 0, 32⟩
abbrev ENG_CMD_CMD : Fld := ⟨0x81000, 256, 0, 0, 0, 3⟩
/-- Register ENG_STAT (R124), the whole word. -/
abbrev ENG_STAT : Fld := ⟨0x81004, 256, 0, 0, 0, 32⟩
abbrev ENG_STAT_STATE : Fld := ⟨0x81004, 256, 0, 0, 0, 3⟩
abbrev ENG_STAT_PROFILE : Fld := ⟨0x81004, 256, 0, 0, 3, 1⟩
abbrev ENG_STAT_BREAK : Fld := ⟨0x81004, 256, 0, 0, 4, 1⟩
abbrev ENG_STAT_CMD_ERR : Fld := ⟨0x81004, 256, 0, 0, 5, 1⟩
abbrev ENG_STAT_SAFE_HALT : Fld := ⟨0x81004, 256, 0, 0, 6, 1⟩
abbrev ENG_STAT_WAIT_UNIT : Fld := ⟨0x81004, 256, 0, 0, 7, 5⟩
abbrev ENG_STAT_WAIT_KIND : Fld := ⟨0x81004, 256, 0, 0, 12, 4⟩
/-- Register ENG_ENTRY (R124), the whole word. -/
abbrev ENG_ENTRY : Fld := ⟨0x81008, 256, 0, 0, 0, 32⟩
abbrev ENG_ENTRY_ENTRY : Fld := ⟨0x81008, 256, 0, 0, 0, 16⟩
/-- Register ENG_PC (R124), the whole word. -/
abbrev ENG_PC : Fld := ⟨0x8100c, 256, 0, 0, 0, 32⟩
abbrev ENG_PC_PC : Fld := ⟨0x8100c, 256, 0, 0, 0, 16⟩
/-- Register ENG_TRAP (R124), the whole word. -/
abbrev ENG_TRAP : Fld := ⟨0x81010, 256, 0, 0, 0, 32⟩
abbrev ENG_TRAP_CAUSE : Fld := ⟨0x81010, 256, 0, 0, 0, 8⟩
abbrev ENG_TRAP_TPC : Fld := ⟨0x81010, 256, 0, 0, 16, 16⟩
/-- Register ENG_TRAP_INSN (R124), the whole word. -/
abbrev ENG_TRAP_INSN : Fld := ⟨0x81014, 256, 0, 0, 0, 32⟩
abbrev ENG_TRAP_INSN_INSN : Fld := ⟨0x81014, 256, 0, 0, 0, 32⟩
/-- Register ENG_WAIT_TMO (R124), the whole word. -/
abbrev ENG_WAIT_TMO : Fld := ⟨0x81018, 256, 0, 0, 0, 32⟩
abbrev ENG_WAIT_TMO_TMO : Fld := ⟨0x81018, 256, 0, 0, 0, 32⟩
/-- Register ENG_CODE_OPEN (R124), the whole word. -/
abbrev ENG_CODE_OPEN : Fld := ⟨0x8101c, 256, 0, 0, 0, 32⟩
abbrev ENG_CODE_OPEN_BASE : Fld := ⟨0x8101c, 256, 0, 0, 0, 11⟩
abbrev ENG_CODE_OPEN_SIZE : Fld := ⟨0x8101c, 256, 0, 0, 16, 11⟩
/-- Register ENG_SHEAF_TBL_LO (R124), the whole word. -/
abbrev ENG_SHEAF_TBL_LO : Fld := ⟨0x81020, 256, 0, 0, 0, 32⟩
abbrev ENG_SHEAF_TBL_LO_TBL : Fld := ⟨0x81020, 256, 0, 0, 0, 32⟩
/-- Register ENG_SHEAF_TBL_HI (R124), the whole word. -/
abbrev ENG_SHEAF_TBL_HI : Fld := ⟨0x81024, 256, 0, 0, 0, 32⟩
abbrev ENG_SHEAF_TBL_HI_TBL : Fld := ⟨0x81024, 256, 0, 0, 0, 32⟩
/-- Register ENG_DOORBELL (R124), the whole word. -/
abbrev ENG_DOORBELL : Fld := ⟨0x81028, 256, 0, 0, 0, 32⟩
abbrev ENG_DOORBELL_RING : Fld := ⟨0x81028, 256, 0, 0, 0, 1⟩
/-- Register ENG_BREAK (R124), the whole word. -/
abbrev ENG_BREAK : Fld := ⟨0x8102c, 256, 0, 0, 0, 32⟩
abbrev ENG_BREAK_EN : Fld := ⟨0x8102c, 256, 0, 0, 0, 1⟩
abbrev ENG_BREAK_ADDR : Fld := ⟨0x8102c, 256, 0, 0, 2, 14⟩
/-- Register ENG_CYCLES_LO (R124), the whole word. -/
abbrev ENG_CYCLES_LO : Fld := ⟨0x81030, 256, 0, 0, 0, 32⟩
abbrev ENG_CYCLES_LO_CYCLES : Fld := ⟨0x81030, 256, 0, 0, 0, 32⟩
/-- Register ENG_CYCLES_HI (R124), the whole word. -/
abbrev ENG_CYCLES_HI : Fld := ⟨0x81034, 256, 0, 0, 0, 32⟩
abbrev ENG_CYCLES_HI_CYCLES : Fld := ⟨0x81034, 256, 0, 0, 0, 32⟩
/-- Register ENG_CNT (R124), the whole word. -/
abbrev ENG_CNT : Fld := ⟨0x81038, 256, 0, 0, 0, 32⟩
abbrev ENG_CNT_FIRE_DUP : Fld := ⟨0x81038, 256, 0, 0, 0, 16⟩
abbrev ENG_CNT_SUPPRESSED : Fld := ⟨0x81038, 256, 0, 0, 16, 16⟩
/-- Register ENG_EVLATCH0 (R124), the whole word. -/
abbrev ENG_EVLATCH0 : Fld := ⟨0x8103c, 256, 0, 0, 0, 32⟩
abbrev ENG_EVLATCH0_LATCH : Fld := ⟨0x8103c, 256, 0, 0, 0, 32⟩
/-- Register ENG_EVLATCH1 (R124), the whole word. -/
abbrev ENG_EVLATCH1 : Fld := ⟨0x81040, 256, 0, 0, 0, 32⟩
abbrev ENG_EVLATCH1_LATCH : Fld := ⟨0x81040, 256, 0, 0, 0, 32⟩
/-- Register ENG_EVLATCH2 (R124), the whole word. -/
abbrev ENG_EVLATCH2 : Fld := ⟨0x81044, 256, 0, 0, 0, 32⟩
abbrev ENG_EVLATCH2_LATCH : Fld := ⟨0x81044, 256, 0, 0, 0, 32⟩
/-- Register ENG_SHEAF_CNT (R124), the whole word. -/
abbrev ENG_SHEAF_CNT : Fld := ⟨0x81048, 256, 0, 0, 0, 32⟩
abbrev ENG_SHEAF_CNT_ACCEPTED : Fld := ⟨0x81048, 256, 0, 0, 0, 16⟩
abbrev ENG_SHEAF_CNT_REFUSED : Fld := ⟨0x81048, 256, 0, 0, 16, 16⟩
/-- Register ENG_G (R124), the whole word. -/
abbrev ENG_G : Fld := ⟨0x90000, 4096, 4, 0, 0, 32⟩
abbrev ENG_G_G : Fld := ⟨0x90000, 4096, 4, 0, 0, 32⟩
/-- Register ENG_P_LO (R124), the whole word. -/
abbrev ENG_P_LO : Fld := ⟨0x90080, 4096, 8, 0, 0, 32⟩
abbrev ENG_P_LO_P : Fld := ⟨0x90080, 4096, 8, 0, 0, 32⟩
/-- Register ENG_P_HI (R124), the whole word. -/
abbrev ENG_P_HI : Fld := ⟨0x90084, 4096, 8, 0, 0, 32⟩
abbrev ENG_P_HI_P : Fld := ⟨0x90084, 4096, 8, 0, 0, 32⟩
/-- Register ENG_FLAGS (R124), the whole word. -/
abbrev ENG_FLAGS : Fld := ⟨0x900c0, 4096, 0, 0, 0, 32⟩
abbrev ENG_FLAGS_F : Fld := ⟨0x900c0, 4096, 0, 0, 0, 4⟩
/-- Register ENG_V (R124), the whole word. -/
abbrev ENG_V : Fld := ⟨0x90400, 4096, 32, 4, 0, 32⟩
abbrev ENG_V_V : Fld := ⟨0x90400, 4096, 32, 4, 0, 32⟩
/-- Register SEQ_GIO_DIR (R146), the whole word. -/
abbrev SEQ_GIO_DIR : Fld := ⟨0x80200, 0, 0, 0, 0, 32⟩
abbrev SEQ_GIO_DIR_OUT : Fld := ⟨0x80200, 0, 0, 0, 0, 32⟩
/-- Register SEQ_GIO_INV (R146), the whole word. -/
abbrev SEQ_GIO_INV : Fld := ⟨0x80204, 0, 0, 0, 0, 32⟩
abbrev SEQ_GIO_INV_INV : Fld := ⟨0x80204, 0, 0, 0, 0, 32⟩
/-- Register SEQ_GIO_SAFE0 (R146), the whole word. -/
abbrev SEQ_GIO_SAFE0 : Fld := ⟨0x80208, 0, 0, 0, 0, 32⟩
abbrev SEQ_GIO_SAFE0_SAFE0 : Fld := ⟨0x80208, 0, 0, 0, 0, 2⟩
abbrev SEQ_GIO_SAFE0_SAFE1 : Fld := ⟨0x80208, 0, 0, 0, 2, 2⟩
abbrev SEQ_GIO_SAFE0_SAFE2 : Fld := ⟨0x80208, 0, 0, 0, 4, 2⟩
abbrev SEQ_GIO_SAFE0_SAFE3 : Fld := ⟨0x80208, 0, 0, 0, 6, 2⟩
abbrev SEQ_GIO_SAFE0_SAFE4 : Fld := ⟨0x80208, 0, 0, 0, 8, 2⟩
abbrev SEQ_GIO_SAFE0_SAFE5 : Fld := ⟨0x80208, 0, 0, 0, 10, 2⟩
abbrev SEQ_GIO_SAFE0_SAFE6 : Fld := ⟨0x80208, 0, 0, 0, 12, 2⟩
abbrev SEQ_GIO_SAFE0_SAFE7 : Fld := ⟨0x80208, 0, 0, 0, 14, 2⟩
abbrev SEQ_GIO_SAFE0_SAFE8 : Fld := ⟨0x80208, 0, 0, 0, 16, 2⟩
abbrev SEQ_GIO_SAFE0_SAFE9 : Fld := ⟨0x80208, 0, 0, 0, 18, 2⟩
abbrev SEQ_GIO_SAFE0_SAFE10 : Fld := ⟨0x80208, 0, 0, 0, 20, 2⟩
abbrev SEQ_GIO_SAFE0_SAFE11 : Fld := ⟨0x80208, 0, 0, 0, 22, 2⟩
abbrev SEQ_GIO_SAFE0_SAFE12 : Fld := ⟨0x80208, 0, 0, 0, 24, 2⟩
abbrev SEQ_GIO_SAFE0_SAFE13 : Fld := ⟨0x80208, 0, 0, 0, 26, 2⟩
abbrev SEQ_GIO_SAFE0_SAFE14 : Fld := ⟨0x80208, 0, 0, 0, 28, 2⟩
abbrev SEQ_GIO_SAFE0_SAFE15 : Fld := ⟨0x80208, 0, 0, 0, 30, 2⟩
/-- Register SEQ_GIO_SAFE1 (R146), the whole word. -/
abbrev SEQ_GIO_SAFE1 : Fld := ⟨0x8020c, 0, 0, 0, 0, 32⟩
abbrev SEQ_GIO_SAFE1_SAFE0 : Fld := ⟨0x8020c, 0, 0, 0, 0, 2⟩
abbrev SEQ_GIO_SAFE1_SAFE1 : Fld := ⟨0x8020c, 0, 0, 0, 2, 2⟩
abbrev SEQ_GIO_SAFE1_SAFE2 : Fld := ⟨0x8020c, 0, 0, 0, 4, 2⟩
abbrev SEQ_GIO_SAFE1_SAFE3 : Fld := ⟨0x8020c, 0, 0, 0, 6, 2⟩
abbrev SEQ_GIO_SAFE1_SAFE4 : Fld := ⟨0x8020c, 0, 0, 0, 8, 2⟩
abbrev SEQ_GIO_SAFE1_SAFE5 : Fld := ⟨0x8020c, 0, 0, 0, 10, 2⟩
abbrev SEQ_GIO_SAFE1_SAFE6 : Fld := ⟨0x8020c, 0, 0, 0, 12, 2⟩
abbrev SEQ_GIO_SAFE1_SAFE7 : Fld := ⟨0x8020c, 0, 0, 0, 14, 2⟩
abbrev SEQ_GIO_SAFE1_SAFE8 : Fld := ⟨0x8020c, 0, 0, 0, 16, 2⟩
abbrev SEQ_GIO_SAFE1_SAFE9 : Fld := ⟨0x8020c, 0, 0, 0, 18, 2⟩
abbrev SEQ_GIO_SAFE1_SAFE10 : Fld := ⟨0x8020c, 0, 0, 0, 20, 2⟩
abbrev SEQ_GIO_SAFE1_SAFE11 : Fld := ⟨0x8020c, 0, 0, 0, 22, 2⟩
abbrev SEQ_GIO_SAFE1_SAFE12 : Fld := ⟨0x8020c, 0, 0, 0, 24, 2⟩
abbrev SEQ_GIO_SAFE1_SAFE13 : Fld := ⟨0x8020c, 0, 0, 0, 26, 2⟩
abbrev SEQ_GIO_SAFE1_SAFE14 : Fld := ⟨0x8020c, 0, 0, 0, 28, 2⟩
abbrev SEQ_GIO_SAFE1_SAFE15 : Fld := ⟨0x8020c, 0, 0, 0, 30, 2⟩
/-- Register SEQ_GIO_OUT (R146), the whole word. -/
abbrev SEQ_GIO_OUT : Fld := ⟨0x80210, 0, 0, 0, 0, 32⟩
abbrev SEQ_GIO_OUT_LEVEL : Fld := ⟨0x80210, 0, 0, 0, 0, 32⟩
/-- Register SEQ_GIO_IN (R146), the whole word. -/
abbrev SEQ_GIO_IN : Fld := ⟨0x80214, 0, 0, 0, 0, 32⟩
abbrev SEQ_GIO_IN_LEVEL : Fld := ⟨0x80214, 0, 0, 0, 0, 32⟩
/-- Register SEQ_GIO_SET (R146), the whole word. -/
abbrev SEQ_GIO_SET : Fld := ⟨0x80218, 0, 0, 0, 0, 32⟩
abbrev SEQ_GIO_SET_SET : Fld := ⟨0x80218, 0, 0, 0, 0, 32⟩
/-- Register SEQ_GIO_CLR (R146), the whole word. -/
abbrev SEQ_GIO_CLR : Fld := ⟨0x8021c, 0, 0, 0, 0, 32⟩
abbrev SEQ_GIO_CLR_CLR : Fld := ⟨0x8021c, 0, 0, 0, 0, 32⟩
/-- Register SEQ_GIO_STAT (R146), the whole word. -/
abbrev SEQ_GIO_STAT : Fld := ⟨0x80220, 0, 0, 0, 0, 32⟩
abbrev SEQ_GIO_STAT_DIR_ERR : Fld := ⟨0x80220, 0, 0, 0, 0, 1⟩
abbrev SEQ_GIO_STAT_CFG_ERR : Fld := ⟨0x80220, 0, 0, 0, 1, 1⟩
/-- Register SEQ_BAR_MODE0 (R146), the whole word. -/
abbrev SEQ_BAR_MODE0 : Fld := ⟨0x80240, 0, 0, 0, 0, 32⟩
abbrev SEQ_BAR_MODE0_MODE0 : Fld := ⟨0x80240, 0, 0, 0, 0, 4⟩
abbrev SEQ_BAR_MODE0_MODE1 : Fld := ⟨0x80240, 0, 0, 0, 4, 4⟩
abbrev SEQ_BAR_MODE0_MODE2 : Fld := ⟨0x80240, 0, 0, 0, 8, 4⟩
abbrev SEQ_BAR_MODE0_MODE3 : Fld := ⟨0x80240, 0, 0, 0, 12, 4⟩
abbrev SEQ_BAR_MODE0_MODE4 : Fld := ⟨0x80240, 0, 0, 0, 16, 4⟩
abbrev SEQ_BAR_MODE0_MODE5 : Fld := ⟨0x80240, 0, 0, 0, 20, 4⟩
abbrev SEQ_BAR_MODE0_MODE6 : Fld := ⟨0x80240, 0, 0, 0, 24, 4⟩
abbrev SEQ_BAR_MODE0_MODE7 : Fld := ⟨0x80240, 0, 0, 0, 28, 4⟩
/-- Register SEQ_BAR_MODE1 (R146), the whole word. -/
abbrev SEQ_BAR_MODE1 : Fld := ⟨0x80244, 0, 0, 0, 0, 32⟩
abbrev SEQ_BAR_MODE1_MODE0 : Fld := ⟨0x80244, 0, 0, 0, 0, 4⟩
abbrev SEQ_BAR_MODE1_MODE1 : Fld := ⟨0x80244, 0, 0, 0, 4, 4⟩
abbrev SEQ_BAR_MODE1_MODE2 : Fld := ⟨0x80244, 0, 0, 0, 8, 4⟩
abbrev SEQ_BAR_MODE1_MODE3 : Fld := ⟨0x80244, 0, 0, 0, 12, 4⟩
abbrev SEQ_BAR_MODE1_MODE4 : Fld := ⟨0x80244, 0, 0, 0, 16, 4⟩
abbrev SEQ_BAR_MODE1_MODE5 : Fld := ⟨0x80244, 0, 0, 0, 20, 4⟩
abbrev SEQ_BAR_MODE1_MODE6 : Fld := ⟨0x80244, 0, 0, 0, 24, 4⟩
abbrev SEQ_BAR_MODE1_MODE7 : Fld := ⟨0x80244, 0, 0, 0, 28, 4⟩
/-- Register SEQ_REJ_WR (R146), the whole word. -/
abbrev SEQ_REJ_WR : Fld := ⟨0x80300, 0, 0, 0, 0, 32⟩
abbrev SEQ_REJ_WR_WR : Fld := ⟨0x80300, 0, 0, 0, 0, 32⟩
/-- Register SEQ_REJ_CTL (R146), the whole word. -/
abbrev SEQ_REJ_CTL : Fld := ⟨0x80304, 0, 0, 0, 0, 32⟩
abbrev SEQ_REJ_CTL_MASK : Fld := ⟨0x80304, 0, 0, 0, 0, 16⟩
abbrev SEQ_REJ_CTL_CLR : Fld := ⟨0x80304, 0, 0, 0, 16, 1⟩
/-- Register SEQ_REJ_ADD_START_LO (R146), the whole word. -/
abbrev SEQ_REJ_ADD_START_LO : Fld := ⟨0x80310, 0, 0, 0, 0, 32⟩
abbrev SEQ_REJ_ADD_START_LO_START : Fld := ⟨0x80310, 0, 0, 0, 0, 32⟩
/-- Register SEQ_REJ_ADD_START_HI (R146), the whole word. -/
abbrev SEQ_REJ_ADD_START_HI : Fld := ⟨0x80314, 0, 0, 0, 0, 32⟩
abbrev SEQ_REJ_ADD_START_HI_START : Fld := ⟨0x80314, 0, 0, 0, 0, 32⟩
/-- Register SEQ_REJ_ADD_LEN (R146), the whole word. -/
abbrev SEQ_REJ_ADD_LEN : Fld := ⟨0x80318, 0, 0, 0, 0, 32⟩
abbrev SEQ_REJ_ADD_LEN_LEN : Fld := ⟨0x80318, 0, 0, 0, 0, 32⟩
/-- Register SEQ_REJ_ADD_CMD (R146), the whole word. -/
abbrev SEQ_REJ_ADD_CMD : Fld := ⟨0x8031c, 0, 0, 0, 0, 32⟩
abbrev SEQ_REJ_ADD_CMD_GO : Fld := ⟨0x8031c, 0, 0, 0, 0, 1⟩
/-- Register SEQ_REJ_START_LO (R146), the whole word. -/
abbrev SEQ_REJ_START_LO : Fld := ⟨0x80400, 16, 0, 0, 0, 32⟩
abbrev SEQ_REJ_START_LO_START : Fld := ⟨0x80400, 16, 0, 0, 0, 32⟩
/-- Register SEQ_REJ_START_HI (R146), the whole word. -/
abbrev SEQ_REJ_START_HI : Fld := ⟨0x80404, 16, 0, 0, 0, 32⟩
abbrev SEQ_REJ_START_HI_START : Fld := ⟨0x80404, 16, 0, 0, 0, 32⟩
/-- Register SEQ_REJ_LEN (R146), the whole word. -/
abbrev SEQ_REJ_LEN : Fld := ⟨0x80408, 16, 0, 0, 0, 32⟩
abbrev SEQ_REJ_LEN_LEN : Fld := ⟨0x80408, 16, 0, 0, 0, 32⟩
/-- Register SEQ_REJ_INFO (R146), the whole word. -/
abbrev SEQ_REJ_INFO : Fld := ⟨0x8040c, 16, 0, 0, 0, 32⟩
abbrev SEQ_REJ_INFO_CAUSE : Fld := ⟨0x8040c, 16, 0, 0, 0, 8⟩
abbrev SEQ_REJ_INFO_BAR : Fld := ⟨0x8040c, 16, 0, 0, 8, 4⟩
abbrev SEQ_REJ_INFO_TRK : Fld := ⟨0x8040c, 16, 0, 0, 12, 2⟩
abbrev SEQ_REJ_INFO_SEQ : Fld := ⟨0x8040c, 16, 0, 0, 16, 16⟩
/-- Register MEM_CFG (R178), the whole word. -/
abbrev MEM_CFG : Fld := ⟨0xb00000, 0, 0, 0, 0, 32⟩
abbrev MEM_CFG_POP : Fld := ⟨0xb00000, 0, 0, 0, 0, 1⟩
abbrev MEM_CFG_WIDTH : Fld := ⟨0xb00000, 0, 0, 0, 1, 1⟩
abbrev MEM_CFG_DENSITY : Fld := ⟨0xb00000, 0, 0, 0, 2, 2⟩
abbrev MEM_CFG_RANKS : Fld := ⟨0xb00000, 0, 0, 0, 4, 1⟩
abbrev MEM_CFG_RATE : Fld := ⟨0xb00000, 0, 0, 0, 5, 2⟩
/-- Register MEM_STAT (R178), the whole word. -/
abbrev MEM_STAT : Fld := ⟨0xb00004, 0, 0, 0, 0, 32⟩
abbrev MEM_STAT_READY : Fld := ⟨0xb00004, 0, 0, 0, 0, 1⟩
abbrev MEM_STAT_WARM : Fld := ⟨0xb00004, 0, 0, 0, 1, 1⟩
abbrev MEM_STAT_INIT_BUSY : Fld := ⟨0xb00004, 0, 0, 0, 2, 1⟩
/-- Register MEM_CAP_LO (R178), the whole word. -/
abbrev MEM_CAP_LO : Fld := ⟨0xb00008, 0, 0, 0, 0, 32⟩
abbrev MEM_CAP_LO_CAP : Fld := ⟨0xb00008, 0, 0, 0, 0, 32⟩
/-- Register MEM_CAP_HI (R178), the whole word. -/
abbrev MEM_CAP_HI : Fld := ⟨0xb0000c, 0, 0, 0, 0, 32⟩
abbrev MEM_CAP_HI_CAP : Fld := ⟨0xb0000c, 0, 0, 0, 0, 32⟩
/-- Register MEM_TRAIN_TEMP (R178), the whole word. -/
abbrev MEM_TRAIN_TEMP : Fld := ⟨0xb00010, 0, 0, 0, 0, 32⟩
abbrev MEM_TRAIN_TEMP_TEMP : Fld := ⟨0xb00010, 0, 0, 0, 0, 16⟩
abbrev MEM_TRAIN_TEMP_COUNT : Fld := ⟨0xb00010, 0, 0, 0, 16, 16⟩
/-- Register MEM_FAILED_MAP (R178), the whole word. -/
abbrev MEM_FAILED_MAP : Fld := ⟨0xb00014, 0, 0, 0, 0, 32⟩
abbrev MEM_FAILED_MAP_FAILED : Fld := ⟨0xb00014, 0, 0, 0, 0, 24⟩
/-- Register MEM_FENCED_MAP (R178), the whole word. -/
abbrev MEM_FENCED_MAP : Fld := ⟨0xb00018, 0, 0, 0, 0, 32⟩
abbrev MEM_FENCED_MAP_FENCED : Fld := ⟨0xb00018, 0, 0, 0, 0, 24⟩
/-- Register MEM_AGE_CRIT (R178), the whole word. -/
abbrev MEM_AGE_CRIT : Fld := ⟨0xb00020, 0, 0, 0, 0, 32⟩
abbrev MEM_AGE_CRIT_LIMIT : Fld := ⟨0xb00020, 0, 0, 0, 0, 32⟩
/-- Register MEM_AGE_RT (R178), the whole word. -/
abbrev MEM_AGE_RT : Fld := ⟨0xb00024, 0, 0, 0, 0, 32⟩
abbrev MEM_AGE_RT_LIMIT : Fld := ⟨0xb00024, 0, 0, 0, 0, 32⟩
/-- Register MEM_AGE_BULK (R178), the whole word. -/
abbrev MEM_AGE_BULK : Fld := ⟨0xb00028, 0, 0, 0, 0, 32⟩
abbrev MEM_AGE_BULK_LIMIT : Fld := ⟨0xb00028, 0, 0, 0, 0, 32⟩
/-- Register MEM_AGE_BACK (R178), the whole word. -/
abbrev MEM_AGE_BACK : Fld := ⟨0xb0002c, 0, 0, 0, 0, 32⟩
abbrev MEM_AGE_BACK_LIMIT : Fld := ⟨0xb0002c, 0, 0, 0, 0, 32⟩
/-- Register MEM_PANIC_LIMIT (R178), the whole word. -/
abbrev MEM_PANIC_LIMIT : Fld := ⟨0xb00030, 0, 0, 0, 0, 32⟩
abbrev MEM_PANIC_LIMIT_LIMIT : Fld := ⟨0xb00030, 0, 0, 0, 0, 32⟩
/-- Register MEM_PANIC_STAT (R178), the whole word. -/
abbrev MEM_PANIC_STAT : Fld := ⟨0xb00034, 0, 0, 0, 0, 32⟩
abbrev MEM_PANIC_STAT_ANY : Fld := ⟨0xb00034, 0, 0, 0, 0, 1⟩
abbrev MEM_PANIC_STAT_PORTS : Fld := ⟨0xb00034, 0, 0, 0, 8, 8⟩
/-- Register MEM_SCRUB_CTL (R178), the whole word. -/
abbrev MEM_SCRUB_CTL : Fld := ⟨0xb00040, 0, 0, 0, 0, 32⟩
abbrev MEM_SCRUB_CTL_EN : Fld := ⟨0xb00040, 0, 0, 0, 0, 1⟩
abbrev MEM_SCRUB_CTL_PERIOD : Fld := ⟨0xb00040, 0, 0, 0, 8, 8⟩
abbrev MEM_SCRUB_CTL_DEV_THRESH : Fld := ⟨0xb00040, 0, 0, 0, 16, 16⟩
/-- Register MEM_SCRUB_PASSES (R178), the whole word. -/
abbrev MEM_SCRUB_PASSES : Fld := ⟨0xb00044, 0, 0, 0, 0, 32⟩
abbrev MEM_SCRUB_PASSES_PASSES : Fld := ⟨0xb00044, 0, 0, 0, 0, 32⟩
/-- Register MEM_SCRUB_POS_LO (R178), the whole word. -/
abbrev MEM_SCRUB_POS_LO : Fld := ⟨0xb00048, 0, 0, 0, 0, 32⟩
abbrev MEM_SCRUB_POS_LO_POS : Fld := ⟨0xb00048, 0, 0, 0, 0, 32⟩
/-- Register MEM_SCRUB_POS_HI (R178), the whole word. -/
abbrev MEM_SCRUB_POS_HI : Fld := ⟨0xb0004c, 0, 0, 0, 0, 32⟩
abbrev MEM_SCRUB_POS_HI_POS : Fld := ⟨0xb0004c, 0, 0, 0, 0, 32⟩
/-- Register MEM_FIXED_BW (R178), the whole word. -/
abbrev MEM_FIXED_BW : Fld := ⟨0xb00050, 0, 0, 0, 0, 32⟩
abbrev MEM_FIXED_BW_F : Fld := ⟨0xb00050, 0, 0, 0, 0, 16⟩
/-- Register MEM_FMAX (R178), the whole word. -/
abbrev MEM_FMAX : Fld := ⟨0xb00054, 0, 0, 0, 0, 32⟩
abbrev MEM_FMAX_FMAX : Fld := ⟨0xb00054, 0, 0, 0, 0, 32⟩
/-- Register MEM_PLAN_BW (R178), the whole word. -/
abbrev MEM_PLAN_BW : Fld := ⟨0xb00058, 0, 0, 0, 0, 32⟩
abbrev MEM_PLAN_BW_W : Fld := ⟨0xb00058, 0, 0, 0, 0, 16⟩
/-- Register MEM_UE_ADDR_LO (R178), the whole word. -/
abbrev MEM_UE_ADDR_LO : Fld := ⟨0xb00060, 0, 0, 0, 0, 32⟩
abbrev MEM_UE_ADDR_LO_ADDR : Fld := ⟨0xb00060, 0, 0, 0, 0, 32⟩
/-- Register MEM_UE_ADDR_HI (R178), the whole word. -/
abbrev MEM_UE_ADDR_HI : Fld := ⟨0xb00064, 0, 0, 0, 0, 32⟩
abbrev MEM_UE_ADDR_HI_ADDR : Fld := ⟨0xb00064, 0, 0, 0, 0, 32⟩
/-- Register MEM_UE_INFO (R178), the whole word. -/
abbrev MEM_UE_INFO : Fld := ⟨0xb00068, 0, 0, 0, 0, 32⟩
abbrev MEM_UE_INFO_PORT : Fld := ⟨0xb00068, 0, 0, 0, 0, 8⟩
abbrev MEM_UE_INFO_SC : Fld := ⟨0xb00068, 0, 0, 0, 8, 5⟩
abbrev MEM_UE_INFO_SCRUB : Fld := ⟨0xb00068, 0, 0, 0, 13, 1⟩
abbrev MEM_UE_INFO_WRITE : Fld := ⟨0xb00068, 0, 0, 0, 14, 1⟩
abbrev MEM_UE_INFO_COUNT : Fld := ⟨0xb00068, 0, 0, 0, 16, 16⟩
/-- Register MEM_SC_STAT (R178), the whole word. -/
abbrev MEM_SC_STAT : Fld := ⟨0xb01000, 64, 0, 0, 0, 32⟩
abbrev MEM_SC_STAT_TRAINED : Fld := ⟨0xb01000, 64, 0, 0, 0, 1⟩
abbrev MEM_SC_STAT_FENCED : Fld := ⟨0xb01000, 64, 0, 0, 1, 1⟩
abbrev MEM_SC_STAT_FAILED : Fld := ⟨0xb01000, 64, 0, 0, 2, 1⟩
abbrev MEM_SC_STAT_REFRESH_2X : Fld := ⟨0xb01000, 64, 0, 0, 3, 1⟩
abbrev MEM_SC_STAT_ERASED0 : Fld := ⟨0xb01000, 64, 0, 0, 4, 1⟩
abbrev MEM_SC_STAT_ERASED1 : Fld := ⟨0xb01000, 64, 0, 0, 5, 1⟩
abbrev MEM_SC_STAT_DEV0 : Fld := ⟨0xb01000, 64, 0, 0, 6, 4⟩
abbrev MEM_SC_STAT_DEV1 : Fld := ⟨0xb01000, 64, 0, 0, 10, 4⟩
/-- Register MEM_SC_CE (R178), the whole word. -/
abbrev MEM_SC_CE : Fld := ⟨0xb01004, 64, 0, 0, 0, 32⟩
abbrev MEM_SC_CE_CE : Fld := ⟨0xb01004, 64, 0, 0, 0, 32⟩
/-- Register MEM_SC_UE (R178), the whole word. -/
abbrev MEM_SC_UE : Fld := ⟨0xb01008, 64, 0, 0, 0, 32⟩
abbrev MEM_SC_UE_UE : Fld := ⟨0xb01008, 64, 0, 0, 0, 16⟩
abbrev MEM_SC_UE_POISON_RD : Fld := ⟨0xb01008, 64, 0, 0, 16, 16⟩
/-- Register MEM_SC_REPLAY (R178), the whole word. -/
abbrev MEM_SC_REPLAY : Fld := ⟨0xb0100c, 64, 0, 0, 0, 32⟩
abbrev MEM_SC_REPLAY_CAPAR : Fld := ⟨0xb0100c, 64, 0, 0, 0, 16⟩
abbrev MEM_SC_REPLAY_WCRC : Fld := ⟨0xb0100c, 64, 0, 0, 16, 16⟩
/-- Register MEM_SC_MARGIN (R178), the whole word. -/
abbrev MEM_SC_MARGIN : Fld := ⟨0xb01010, 64, 0, 0, 0, 32⟩
abbrev MEM_SC_MARGIN_RD_EYE : Fld := ⟨0xb01010, 64, 0, 0, 0, 8⟩
abbrev MEM_SC_MARGIN_WR_EYE : Fld := ⟨0xb01010, 64, 0, 0, 8, 8⟩
abbrev MEM_SC_MARGIN_CA_EYE : Fld := ⟨0xb01010, 64, 0, 0, 16, 8⟩
/-- Register MEM_SC_WORST (R178), the whole word. -/
abbrev MEM_SC_WORST : Fld := ⟨0xb01014, 64, 0, 0, 0, 32⟩
abbrev MEM_SC_WORST_DEV : Fld := ⟨0xb01014, 64, 0, 0, 0, 4⟩
abbrev MEM_SC_WORST_RANK : Fld := ⟨0xb01014, 64, 0, 0, 4, 1⟩
abbrev MEM_SC_WORST_COUNT : Fld := ⟨0xb01014, 64, 0, 0, 16, 16⟩
/-- Register MEM_SC_FENCED_REQ (R178), the whole word. -/
abbrev MEM_SC_FENCED_REQ : Fld := ⟨0xb01018, 64, 0, 0, 0, 32⟩
abbrev MEM_SC_FENCED_REQ_REQ : Fld := ⟨0xb01018, 64, 0, 0, 0, 32⟩
/-- Register MEM_PORT_CFG (R178), the whole word. -/
abbrev MEM_PORT_CFG : Fld := ⟨0xb02000, 8, 0, 0, 0, 32⟩
abbrev MEM_PORT_CFG_CLASS : Fld := ⟨0xb02000, 8, 0, 0, 0, 2⟩
abbrev MEM_PORT_CFG_SIDE : Fld := ⟨0xb02000, 8, 0, 0, 2, 1⟩
abbrev MEM_PORT_CFG_THRESH : Fld := ⟨0xb02000, 8, 0, 0, 4, 6⟩
abbrev MEM_PORT_CFG_HYST : Fld := ⟨0xb02000, 8, 0, 0, 10, 6⟩
/-- Register MEM_PORT_STAT (R178), the whole word. -/
abbrev MEM_PORT_STAT : Fld := ⟨0xb02004, 8, 0, 0, 0, 32⟩
abbrev MEM_PORT_STAT_LEVEL : Fld := ⟨0xb02004, 8, 0, 0, 0, 7⟩
abbrev MEM_PORT_STAT_PANIC : Fld := ⟨0xb02004, 8, 0, 0, 7, 1⟩
abbrev MEM_PORT_STAT_PANIC_CNT : Fld := ⟨0xb02004, 8, 0, 0, 16, 16⟩
/-- Register CMP_STAT (R211), the whole word. -/
abbrev CMP_STAT : Fld := ⟨0x300000, 0, 0, 0, 0, 32⟩
abbrev CMP_STAT_PENDING : Fld := ⟨0x300000, 0, 0, 0, 0, 3⟩
abbrev CMP_STAT_DSP_PENDING : Fld := ⟨0x300000, 0, 0, 0, 3, 3⟩
abbrev CMP_STAT_LAST : Fld := ⟨0x300000, 0, 0, 0, 8, 3⟩
/-- Register CMP_SHEAF_CNT (R211), the whole word. -/
abbrev CMP_SHEAF_CNT : Fld := ⟨0x300004, 0, 0, 0, 0, 32⟩
abbrev CMP_SHEAF_CNT_ACCEPTED : Fld := ⟨0x300004, 0, 0, 0, 0, 16⟩
abbrev CMP_SHEAF_CNT_REFUSED : Fld := ⟨0x300004, 0, 0, 0, 16, 16⟩
/-- Register CMP_POOL (R211), the whole word. -/
abbrev CMP_POOL : Fld := ⟨0x300008, 0, 0, 0, 0, 32⟩
abbrev CMP_POOL_FREE : Fld := ⟨0x300008, 0, 0, 0, 0, 15⟩
abbrev CMP_POOL_PEAK : Fld := ⟨0x300008, 0, 0, 0, 16, 15⟩
/-- Register CMP_FMAX (R211), the whole word. -/
abbrev CMP_FMAX : Fld := ⟨0x30000c, 0, 0, 0, 0, 32⟩
abbrev CMP_FMAX_FMAX : Fld := ⟨0x30000c, 0, 0, 0, 0, 32⟩
/-- Register CMP_JOB_START_LO (R211), the whole word. -/
abbrev CMP_JOB_START_LO : Fld := ⟨0x300010, 0, 0, 0, 0, 32⟩
abbrev CMP_JOB_START_LO_LINE : Fld := ⟨0x300010, 0, 0, 0, 0, 32⟩
/-- Register CMP_JOB_START_HI (R211), the whole word. -/
abbrev CMP_JOB_START_HI : Fld := ⟨0x300014, 0, 0, 0, 0, 32⟩
abbrev CMP_JOB_START_HI_LINE : Fld := ⟨0x300014, 0, 0, 0, 0, 32⟩
/-- Register CMP_JOB_START_REP (R211), the whole word. -/
abbrev CMP_JOB_START_REP : Fld := ⟨0x300018, 0, 0, 0, 0, 32⟩
abbrev CMP_JOB_START_REP_REPEAT : Fld := ⟨0x300018, 0, 0, 0, 0, 32⟩
/-- Register CMP_JOB_START_STAT (R211), the whole word. -/
abbrev CMP_JOB_START_STAT : Fld := ⟨0x30001c, 0, 0, 0, 0, 32⟩
abbrev CMP_JOB_START_STAT_VALID : Fld := ⟨0x30001c, 0, 0, 0, 0, 1⟩
/-- Register CMP_FEED_BASE_LO (R211), the whole word. -/
abbrev CMP_FEED_BASE_LO : Fld := ⟨0x300020, 0, 0, 0, 0, 32⟩
abbrev CMP_FEED_BASE_LO_BASE : Fld := ⟨0x300020, 0, 0, 0, 0, 32⟩
/-- Register CMP_FEED_BASE_HI (R211), the whole word. -/
abbrev CMP_FEED_BASE_HI : Fld := ⟨0x300024, 0, 0, 0, 0, 32⟩
abbrev CMP_FEED_BASE_HI_BASE : Fld := ⟨0x300024, 0, 0, 0, 0, 32⟩
/-- Register CMP_FEED_CFG (R211), the whole word. -/
abbrev CMP_FEED_CFG : Fld := ⟨0x300028, 0, 0, 0, 0, 32⟩
abbrev CMP_FEED_CFG_DEPTH : Fld := ⟨0x300028, 0, 0, 0, 0, 16⟩
abbrev CMP_FEED_CFG_NINST : Fld := ⟨0x300028, 0, 0, 0, 16, 8⟩
/-- Register CMP_FEED_DONE (R211), the whole word. -/
abbrev CMP_FEED_DONE : Fld := ⟨0x30002c, 0, 0, 0, 0, 32⟩
abbrev CMP_FEED_DONE_DONE : Fld := ⟨0x30002c, 0, 0, 0, 0, 32⟩
/-- Register CMP_FEED_MISS (R211), the whole word. -/
abbrev CMP_FEED_MISS : Fld := ⟨0x300030, 0, 0, 0, 0, 32⟩
abbrev CMP_FEED_MISS_MISS : Fld := ⟨0x300030, 0, 0, 0, 0, 32⟩
/-- Register CMP_POISON_CNT (R211), the whole word. -/
abbrev CMP_POISON_CNT : Fld := ⟨0x300034, 0, 0, 0, 0, 32⟩
abbrev CMP_POISON_CNT_BURSTS : Fld := ⟨0x300034, 0, 0, 0, 0, 32⟩
/-- Register CMP_CP_CTL (R211), the whole word. -/
abbrev CMP_CP_CTL : Fld := ⟨0x301000, 256, 0, 0, 0, 32⟩
abbrev CMP_CP_CTL_EN : Fld := ⟨0x301000, 256, 0, 0, 0, 1⟩
abbrev CMP_CP_CTL_PS : Fld := ⟨0x301000, 256, 0, 0, 1, 4⟩
abbrev CMP_CP_CTL_CSTEP : Fld := ⟨0x301000, 256, 0, 0, 5, 1⟩
abbrev CMP_CP_CTL_CPHASE : Fld := ⟨0x301000, 256, 0, 0, 6, 1⟩
/-- Register CMP_CP_STAT (R211), the whole word. -/
abbrev CMP_CP_STAT : Fld := ⟨0x301004, 256, 0, 0, 0, 32⟩
abbrev CMP_CP_STAT_STATE : Fld := ⟨0x301004, 256, 0, 0, 0, 2⟩
abbrev CMP_CP_STAT_LEAD_LOW : Fld := ⟨0x301004, 256, 0, 0, 2, 1⟩
abbrev CMP_CP_STAT_CATCHUP : Fld := ⟨0x301004, 256, 0, 0, 3, 1⟩
abbrev CMP_CP_STAT_LEAD : Fld := ⟨0x301004, 256, 0, 0, 16, 16⟩
/-- Register CMP_CP_NEXT_LO (R211), the whole word. -/
abbrev CMP_CP_NEXT_LO : Fld := ⟨0x301008, 256, 0, 0, 0, 32⟩
abbrev CMP_CP_NEXT_LO_NEXT : Fld := ⟨0x301008, 256, 0, 0, 0, 32⟩
/-- Register CMP_CP_NEXT_HI (R211), the whole word. -/
abbrev CMP_CP_NEXT_HI : Fld := ⟨0x30100c, 256, 0, 0, 0, 32⟩
abbrev CMP_CP_NEXT_HI_NEXT : Fld := ⟨0x30100c, 256, 0, 0, 0, 32⟩
/-- Register CMP_CP_REPEAT (R211), the whole word. -/
abbrev CMP_CP_REPEAT : Fld := ⟨0x301010, 256, 0, 0, 0, 32⟩
abbrev CMP_CP_REPEAT_REPEAT : Fld := ⟨0x301010, 256, 0, 0, 0, 32⟩
/-- Register CMP_CP_APPLIED (R211), the whole word. -/
abbrev CMP_CP_APPLIED : Fld := ⟨0x301014, 256, 0, 0, 0, 32⟩
abbrev CMP_CP_APPLIED_REPEAT : Fld := ⟨0x301014, 256, 0, 0, 0, 32⟩
/-- Register CMP_CP_DROPPED (R211), the whole word. -/
abbrev CMP_CP_DROPPED : Fld := ⟨0x301018, 256, 0, 0, 0, 32⟩
abbrev CMP_CP_DROPPED_LAYERS : Fld := ⟨0x301018, 256, 0, 0, 0, 32⟩
/-- Register CMP_CP_POOL (R211), the whole word. -/
abbrev CMP_CP_POOL : Fld := ⟨0x30101c, 256, 0, 0, 0, 32⟩
abbrev CMP_CP_POOL_HELD : Fld := ⟨0x30101c, 256, 0, 0, 0, 15⟩
/-- Register CMP_CP_OX (R211), the whole word. -/
abbrev CMP_CP_OX : Fld := ⟨0x301020, 256, 0, 0, 0, 32⟩
abbrev CMP_CP_OX_OX : Fld := ⟨0x301020, 256, 0, 0, 0, 32⟩
/-- Register CMP_CP_OY (R211), the whole word. -/
abbrev CMP_CP_OY : Fld := ⟨0x301024, 256, 0, 0, 0, 32⟩
abbrev CMP_CP_OY_OY : Fld := ⟨0x301024, 256, 0, 0, 0, 32⟩
/-- Register CMP_CP_SX (R211), the whole word. -/
abbrev CMP_CP_SX : Fld := ⟨0x301028, 256, 0, 0, 0, 32⟩
abbrev CMP_CP_SX_SX : Fld := ⟨0x301028, 256, 0, 0, 0, 32⟩
/-- Register CMP_CP_SY (R211), the whole word. -/
abbrev CMP_CP_SY : Fld := ⟨0x30102c, 256, 0, 0, 0, 32⟩
abbrev CMP_CP_SY_SY : Fld := ⟨0x30102c, 256, 0, 0, 0, 32⟩
/-- Register CMP_CP_K (R211), the whole word. -/
abbrev CMP_CP_K : Fld := ⟨0x301030, 256, 0, 0, 0, 32⟩
abbrev CMP_CP_K_K : Fld := ⟨0x301030, 256, 0, 0, 0, 32⟩
/-- Register CMP_CP_TONE_LO (R211), the whole word. -/
abbrev CMP_CP_TONE_LO : Fld := ⟨0x301034, 256, 0, 0, 0, 32⟩
abbrev CMP_CP_TONE_LO_ADDR : Fld := ⟨0x301034, 256, 0, 0, 0, 32⟩
/-- Register CMP_CP_TONE_HI (R211), the whole word. -/
abbrev CMP_CP_TONE_HI : Fld := ⟨0x301038, 256, 0, 0, 0, 32⟩
abbrev CMP_CP_TONE_HI_ADDR : Fld := ⟨0x301038, 256, 0, 0, 0, 32⟩
/-- Register CMP_CP_ZONE_LO (R211), the whole word. -/
abbrev CMP_CP_ZONE_LO : Fld := ⟨0x30103c, 256, 0, 0, 0, 32⟩
abbrev CMP_CP_ZONE_LO_ADDR : Fld := ⟨0x30103c, 256, 0, 0, 0, 32⟩
/-- Register CMP_CP_ZONE_HI (R211), the whole word. -/
abbrev CMP_CP_ZONE_HI : Fld := ⟨0x301040, 256, 0, 0, 0, 32⟩
abbrev CMP_CP_ZONE_HI_ADDR : Fld := ⟨0x301040, 256, 0, 0, 0, 32⟩
/-- Register CMP_CP_NZONE (R211), the whole word. -/
abbrev CMP_CP_NZONE : Fld := ⟨0x301044, 256, 0, 0, 0, 32⟩
abbrev CMP_CP_NZONE_NZ : Fld := ⟨0x301044, 256, 0, 0, 0, 7⟩
/-- Register CMP_CP_PROOF_LO (R211), the whole word. -/
abbrev CMP_CP_PROOF_LO : Fld := ⟨0x301048, 256, 0, 0, 0, 32⟩
abbrev CMP_CP_PROOF_LO_ADDR : Fld := ⟨0x301048, 256, 0, 0, 0, 32⟩
/-- Register CMP_CP_PROOF_HI (R211), the whole word. -/
abbrev CMP_CP_PROOF_HI : Fld := ⟨0x30104c, 256, 0, 0, 0, 32⟩
abbrev CMP_CP_PROOF_HI_ADDR : Fld := ⟨0x30104c, 256, 0, 0, 0, 32⟩
/-- Register CMP_CP_PROOF_CFG (R211), the whole word. -/
abbrev CMP_CP_PROOF_CFG : Fld := ⟨0x301050, 256, 0, 0, 0, 32⟩
abbrev CMP_CP_PROOF_CFG_PDEPTH : Fld := ⟨0x301050, 256, 0, 0, 0, 16⟩
abbrev CMP_CP_PROOF_CFG_RXL : Fld := ⟨0x301050, 256, 0, 0, 16, 3⟩
abbrev CMP_CP_PROOF_CFG_RYL : Fld := ⟨0x301050, 256, 0, 0, 20, 3⟩
/-- Register CMP_CP_PTAG_LO (R211), the whole word. -/
abbrev CMP_CP_PTAG_LO : Fld := ⟨0x301054, 256, 0, 0, 0, 32⟩
abbrev CMP_CP_PTAG_LO_ADDR : Fld := ⟨0x301054, 256, 0, 0, 0, 32⟩
/-- Register CMP_CP_PTAG_HI (R211), the whole word. -/
abbrev CMP_CP_PTAG_HI : Fld := ⟨0x301058, 256, 0, 0, 0, 32⟩
abbrev CMP_CP_PTAG_HI_ADDR : Fld := ⟨0x301058, 256, 0, 0, 0, 32⟩
/-- Register CMP_CP_PROOF_WR (R211), the whole word. -/
abbrev CMP_CP_PROOF_WR : Fld := ⟨0x30105c, 256, 0, 0, 0, 32⟩
abbrev CMP_CP_PROOF_WR_K : Fld := ⟨0x30105c, 256, 0, 0, 0, 32⟩
/-- Register CMP_CP_CNT (R211), the whole word. -/
abbrev CMP_CP_CNT : Fld := ⟨0x301060, 256, 0, 0, 0, 32⟩
abbrev CMP_CP_CNT_LEADLOW : Fld := ⟨0x301060, 256, 0, 0, 0, 16⟩
abbrev CMP_CP_CNT_FIT : Fld := ⟨0x301060, 256, 0, 0, 16, 16⟩
/-- Register CMP_DSP_FRAME (R211), the whole word. -/
abbrev CMP_DSP_FRAME : Fld := ⟨0x304000, 0, 0, 0, 0, 32⟩
abbrev CMP_DSP_FRAME_FRAME : Fld := ⟨0x304000, 0, 0, 0, 0, 32⟩
/-- Register CMP_DSP_BG (R211), the whole word. -/
abbrev CMP_DSP_BG : Fld := ⟨0x304004, 0, 0, 0, 0, 32⟩
abbrev CMP_DSP_BG_RGB : Fld := ⟨0x304004, 0, 0, 0, 0, 24⟩
/-- Register CMP_DSP_UNDERRUN (R211), the whole word. -/
abbrev CMP_DSP_UNDERRUN : Fld := ⟨0x304008, 0, 0, 0, 0, 32⟩
abbrev CMP_DSP_UNDERRUN_LINES : Fld := ⟨0x304008, 0, 0, 0, 0, 32⟩
/-- Register CMP_DSP_CTL (R211), the whole word. -/
abbrev CMP_DSP_CTL : Fld := ⟨0x304100, 32, 0, 0, 0, 32⟩
abbrev CMP_DSP_CTL_EN : Fld := ⟨0x304100, 32, 0, 0, 0, 1⟩
abbrev CMP_DSP_CTL_FMT : Fld := ⟨0x304100, 32, 0, 0, 1, 2⟩
abbrev CMP_DSP_CTL_ZOOM : Fld := ⟨0x304100, 32, 0, 0, 3, 2⟩
abbrev CMP_DSP_CTL_GALPHA : Fld := ⟨0x304100, 32, 0, 0, 8, 8⟩
/-- Register CMP_DSP_BASE_LO (R211), the whole word. -/
abbrev CMP_DSP_BASE_LO : Fld := ⟨0x304104, 32, 0, 0, 0, 32⟩
abbrev CMP_DSP_BASE_LO_ADDR : Fld := ⟨0x304104, 32, 0, 0, 0, 32⟩
/-- Register CMP_DSP_BASE_HI (R211), the whole word. -/
abbrev CMP_DSP_BASE_HI : Fld := ⟨0x304108, 32, 0, 0, 0, 32⟩
abbrev CMP_DSP_BASE_HI_ADDR : Fld := ⟨0x304108, 32, 0, 0, 0, 32⟩
/-- Register CMP_DSP_STRIDE (R211), the whole word. -/
abbrev CMP_DSP_STRIDE : Fld := ⟨0x30410c, 32, 0, 0, 0, 32⟩
abbrev CMP_DSP_STRIDE_STRIDE : Fld := ⟨0x30410c, 32, 0, 0, 0, 32⟩
/-- Register CMP_DSP_POS (R211), the whole word. -/
abbrev CMP_DSP_POS : Fld := ⟨0x304110, 32, 0, 0, 0, 32⟩
abbrev CMP_DSP_POS_X : Fld := ⟨0x304110, 32, 0, 0, 0, 16⟩
abbrev CMP_DSP_POS_Y : Fld := ⟨0x304110, 32, 0, 0, 16, 16⟩
/-- Register CMP_DSP_SIZE (R211), the whole word. -/
abbrev CMP_DSP_SIZE : Fld := ⟨0x304114, 32, 0, 0, 0, 32⟩
abbrev CMP_DSP_SIZE_W : Fld := ⟨0x304114, 32, 0, 0, 0, 16⟩
abbrev CMP_DSP_SIZE_H : Fld := ⟨0x304114, 32, 0, 0, 16, 16⟩
/-- Register HSK_SRC_LO (R229), the whole word. -/
abbrev HSK_SRC_LO : Fld := ⟨0x340000, 0, 0, 0, 0, 32⟩
abbrev HSK_SRC_LO_SRC : Fld := ⟨0x340000, 0, 0, 0, 0, 32⟩
/-- Register HSK_SRC_HI (R229), the whole word. -/
abbrev HSK_SRC_HI : Fld := ⟨0x340004, 0, 0, 0, 0, 32⟩
abbrev HSK_SRC_HI_SRC : Fld := ⟨0x340004, 0, 0, 0, 0, 32⟩
/-- Register HSK_STRIDE (R229), the whole word. -/
abbrev HSK_STRIDE : Fld := ⟨0x340008, 0, 0, 0, 0, 32⟩
abbrev HSK_STRIDE_STRIDE : Fld := ⟨0x340008, 0, 0, 0, 0, 32⟩
/-- Register HSK_CFG (R229), the whole word. -/
abbrev HSK_CFG : Fld := ⟨0x34000c, 0, 0, 0, 0, 32⟩
abbrev HSK_CFG_W : Fld := ⟨0x34000c, 0, 0, 0, 0, 20⟩
abbrev HSK_CFG_RIL : Fld := ⟨0x34000c, 0, 0, 0, 20, 4⟩
/-- Register HSK_H (R229), the whole word. -/
abbrev HSK_H : Fld := ⟨0x340010, 0, 0, 0, 0, 32⟩
abbrev HSK_H_H : Fld := ⟨0x340010, 0, 0, 0, 0, 32⟩
/-- Register HSK_DST_LO (R229), the whole word. -/
abbrev HSK_DST_LO : Fld := ⟨0x340018, 0, 0, 0, 0, 32⟩
abbrev HSK_DST_LO_DST : Fld := ⟨0x340018, 0, 0, 0, 0, 32⟩
/-- Register HSK_DST_HI (R229), the whole word. -/
abbrev HSK_DST_HI : Fld := ⟨0x34001c, 0, 0, 0, 0, 32⟩
abbrev HSK_DST_HI_DST : Fld := ⟨0x34001c, 0, 0, 0, 0, 32⟩
/-- Register HSK_CAP_LO (R229), the whole word. -/
abbrev HSK_CAP_LO : Fld := ⟨0x340020, 0, 0, 0, 0, 32⟩
abbrev HSK_CAP_LO_CAP : Fld := ⟨0x340020, 0, 0, 0, 0, 32⟩
/-- Register HSK_CAP_HI (R229), the whole word. -/
abbrev HSK_CAP_HI : Fld := ⟨0x340024, 0, 0, 0, 0, 32⟩
abbrev HSK_CAP_HI_CAP : Fld := ⟨0x340024, 0, 0, 0, 0, 32⟩
/-- Register HSK_CMD (R229), the whole word. -/
abbrev HSK_CMD : Fld := ⟨0x340028, 0, 0, 0, 0, 32⟩
abbrev HSK_CMD_GO : Fld := ⟨0x340028, 0, 0, 0, 0, 1⟩
abbrev HSK_CMD_ABORT : Fld := ⟨0x340028, 0, 0, 0, 1, 1⟩
/-- Register HSK_STAT (R229), the whole word. -/
abbrev HSK_STAT : Fld := ⟨0x34002c, 0, 0, 0, 0, 32⟩
abbrev HSK_STAT_BUSY : Fld := ⟨0x34002c, 0, 0, 0, 0, 1⟩
abbrev HSK_STAT_RESULT : Fld := ⟨0x34002c, 0, 0, 0, 1, 3⟩
/-- Register HSK_LINE (R229), the whole word. -/
abbrev HSK_LINE : Fld := ⟨0x340030, 0, 0, 0, 0, 32⟩
abbrev HSK_LINE_LINE : Fld := ⟨0x340030, 0, 0, 0, 0, 32⟩
/-- Register HSK_OUT_LO (R229), the whole word. -/
abbrev HSK_OUT_LO : Fld := ⟨0x340034, 0, 0, 0, 0, 32⟩
abbrev HSK_OUT_LO_OUT : Fld := ⟨0x340034, 0, 0, 0, 0, 32⟩
/-- Register HSK_OUT_HI (R229), the whole word. -/
abbrev HSK_OUT_HI : Fld := ⟨0x340038, 0, 0, 0, 0, 32⟩
abbrev HSK_OUT_HI_OUT : Fld := ⟨0x340038, 0, 0, 0, 0, 32⟩
/-- Register HSK_MAXLINE (R229), the whole word. -/
abbrev HSK_MAXLINE : Fld := ⟨0x34003c, 0, 0, 0, 0, 32⟩
abbrev HSK_MAXLINE_MAXLINE : Fld := ⟨0x34003c, 0, 0, 0, 0, 32⟩
/-- Register HSK_SEG_BAD_CNT (R229), the whole word. -/
abbrev HSK_SEG_BAD_CNT : Fld := ⟨0x340040, 0, 0, 0, 0, 32⟩
abbrev HSK_SEG_BAD_CNT_SEGS : Fld := ⟨0x340040, 0, 0, 0, 0, 32⟩
/-- Register HSK_HDR_BAD (R229), the whole word. -/
abbrev HSK_HDR_BAD : Fld := ⟨0x340044, 0, 0, 0, 0, 32⟩
abbrev HSK_HDR_BAD_HDRS : Fld := ⟨0x340044, 0, 0, 0, 0, 32⟩
/-- Register HSK_CMD_CNT (R229), the whole word. -/
abbrev HSK_CMD_CNT : Fld := ⟨0x340048, 0, 0, 0, 0, 32⟩
abbrev HSK_CMD_CNT_DONE : Fld := ⟨0x340048, 0, 0, 0, 0, 16⟩
abbrev HSK_CMD_CNT_NO_GAIN : Fld := ⟨0x340048, 0, 0, 0, 16, 16⟩
/-- Register TIL_STAT (R254), the whole word. -/
abbrev TIL_STAT : Fld := ⟨0x380000, 0, 0, 0, 0, 32⟩
abbrev TIL_STAT_CFG_ERR : Fld := ⟨0x380000, 0, 0, 0, 0, 1⟩
abbrev TIL_STAT_MAP_GAP : Fld := ⟨0x380000, 0, 0, 0, 1, 1⟩
/-- Register TIL_MAP_GAPS (R254), the whole word. -/
abbrev TIL_MAP_GAPS : Fld := ⟨0x380004, 0, 0, 0, 0, 32⟩
abbrev TIL_MAP_GAPS_COLS : Fld := ⟨0x380004, 0, 0, 0, 0, 32⟩
/-- Register TIL_NZU_ADDR (R254), the whole word. -/
abbrev TIL_NZU_ADDR : Fld := ⟨0x380010, 0, 0, 0, 0, 32⟩
abbrev TIL_NZU_ADDR_NOZZLE : Fld := ⟨0x380010, 0, 0, 0, 0, 14⟩
abbrev TIL_NZU_ADDR_PORT : Fld := ⟨0x380010, 0, 0, 0, 16, 7⟩
/-- Register TIL_NZU_CMD (R254), the whole word. -/
abbrev TIL_NZU_CMD : Fld := ⟨0x380014, 0, 0, 0, 0, 32⟩
abbrev TIL_NZU_CMD_EXPECT : Fld := ⟨0x380014, 0, 0, 0, 0, 2⟩
abbrev TIL_NZU_CMD_NEW : Fld := ⟨0x380014, 0, 0, 0, 2, 2⟩
abbrev TIL_NZU_CMD_SETGAIN : Fld := ⟨0x380014, 0, 0, 0, 4, 1⟩
abbrev TIL_NZU_CMD_GAIN : Fld := ⟨0x380014, 0, 0, 0, 16, 10⟩
abbrev TIL_NZU_CMD_GO : Fld := ⟨0x380014, 0, 0, 0, 31, 1⟩
/-- Register TIL_NZU_STAT (R254), the whole word. -/
abbrev TIL_NZU_STAT : Fld := ⟨0x380018, 0, 0, 0, 0, 32⟩
abbrev TIL_NZU_STAT_BUSY : Fld := ⟨0x380018, 0, 0, 0, 0, 1⟩
abbrev TIL_NZU_STAT_RESULT : Fld := ⟨0x380018, 0, 0, 0, 1, 2⟩
/-- Register TIL_NZU_EFF_LO (R254), the whole word. -/
abbrev TIL_NZU_EFF_LO : Fld := ⟨0x38001c, 0, 0, 0, 0, 32⟩
abbrev TIL_NZU_EFF_LO_EFF : Fld := ⟨0x38001c, 0, 0, 0, 0, 32⟩
/-- Register TIL_NZU_EFF_HI (R254), the whole word. -/
abbrev TIL_NZU_EFF_HI : Fld := ⟨0x380020, 0, 0, 0, 0, 32⟩
abbrev TIL_NZU_EFF_HI_EFF : Fld := ⟨0x380020, 0, 0, 0, 0, 32⟩
/-- Register TIL_NZU_CNT (R254), the whole word. -/
abbrev TIL_NZU_CNT : Fld := ⟨0x380024, 0, 0, 0, 0, 32⟩
abbrev TIL_NZU_CNT_DONE : Fld := ⟨0x380024, 0, 0, 0, 0, 16⟩
abbrev TIL_NZU_CNT_REFUSED : Fld := ⟨0x380024, 0, 0, 0, 16, 16⟩
/-- Register TIL_NZT_ECC (R254), the whole word. -/
abbrev TIL_NZT_ECC : Fld := ⟨0x380040, 0, 0, 0, 0, 32⟩
abbrev TIL_NZT_ECC_CE : Fld := ⟨0x380040, 0, 0, 0, 0, 16⟩
abbrev TIL_NZT_ECC_UE : Fld := ⟨0x380040, 0, 0, 0, 16, 16⟩
/-- Register TIL_NZT_UE_ADDR (R254), the whole word. -/
abbrev TIL_NZT_UE_ADDR : Fld := ⟨0x380044, 0, 0, 0, 0, 32⟩
abbrev TIL_NZT_UE_ADDR_INDEX : Fld := ⟨0x380044, 0, 0, 0, 0, 21⟩
/-- Register TIL_TL_CTL (R254), the whole word. -/
abbrev TIL_TL_CTL : Fld := ⟨0x381000, 512, 0, 0, 0, 32⟩
abbrev TIL_TL_CTL_MODE : Fld := ⟨0x381000, 512, 0, 0, 0, 1⟩
abbrev TIL_TL_CTL_WEAKMAX : Fld := ⟨0x381000, 512, 0, 0, 1, 3⟩
abbrev TIL_TL_CTL_MAXRUN : Fld := ⟨0x381000, 512, 0, 0, 4, 4⟩
/-- Register TIL_TL_NLEV (R254), the whole word. -/
abbrev TIL_TL_NLEV : Fld := ⟨0x381004, 512, 0, 0, 0, 32⟩
abbrev TIL_TL_NLEV_NLEV : Fld := ⟨0x381004, 512, 0, 0, 0, 4⟩
/-- Register TIL_TL_LEVEL (R254), the whole word. -/
abbrev TIL_TL_LEVEL : Fld := ⟨0x381008, 512, 4, 0, 0, 32⟩
abbrev TIL_TL_LEVEL_LEVEL : Fld := ⟨0x381008, 512, 4, 0, 0, 12⟩
abbrev TIL_TL_LEVEL_CODE : Fld := ⟨0x381008, 512, 4, 0, 16, 3⟩
/-- Register TIL_TL_KERNEL0 (R254), the whole word. -/
abbrev TIL_TL_KERNEL0 : Fld := ⟨0x381024, 512, 0, 0, 0, 32⟩
abbrev TIL_TL_KERNEL0_W0 : Fld := ⟨0x381024, 512, 0, 0, 0, 6⟩
abbrev TIL_TL_KERNEL0_W1 : Fld := ⟨0x381024, 512, 0, 0, 8, 6⟩
abbrev TIL_TL_KERNEL0_W2 : Fld := ⟨0x381024, 512, 0, 0, 16, 6⟩
abbrev TIL_TL_KERNEL0_W3 : Fld := ⟨0x381024, 512, 0, 0, 24, 6⟩
/-- Register TIL_TL_KERNEL1 (R254), the whole word. -/
abbrev TIL_TL_KERNEL1 : Fld := ⟨0x381028, 512, 0, 0, 0, 32⟩
abbrev TIL_TL_KERNEL1_W0 : Fld := ⟨0x381028, 512, 0, 0, 0, 6⟩
abbrev TIL_TL_KERNEL1_W1 : Fld := ⟨0x381028, 512, 0, 0, 8, 6⟩
abbrev TIL_TL_KERNEL1_W2 : Fld := ⟨0x381028, 512, 0, 0, 16, 6⟩
/-- Register TIL_TL_ERRMAX (R254), the whole word. -/
abbrev TIL_TL_ERRMAX : Fld := ⟨0x38102c, 512, 0, 0, 0, 32⟩
abbrev TIL_TL_ERRMAX_ERRMAX : Fld := ⟨0x38102c, 512, 0, 0, 0, 14⟩
/-- Register TIL_TL_NOISE_LO (R254), the whole word. -/
abbrev TIL_TL_NOISE_LO : Fld := ⟨0x381030, 512, 0, 0, 0, 32⟩
abbrev TIL_TL_NOISE_LO_ADDR : Fld := ⟨0x381030, 512, 0, 0, 0, 32⟩
/-- Register TIL_TL_NOISE_HI (R254), the whole word. -/
abbrev TIL_TL_NOISE_HI : Fld := ⟨0x381034, 512, 0, 0, 0, 32⟩
abbrev TIL_TL_NOISE_HI_ADDR : Fld := ⟨0x381034, 512, 0, 0, 0, 32⟩
/-- Register TIL_TL_NOISE_CFG (R254), the whole word. -/
abbrev TIL_TL_NOISE_CFG : Fld := ⟨0x381038, 512, 0, 0, 0, 32⟩
abbrev TIL_TL_NOISE_CFG_AMP : Fld := ⟨0x381038, 512, 0, 0, 0, 16⟩
abbrev TIL_TL_NOISE_CFG_PHX : Fld := ⟨0x381038, 512, 0, 0, 16, 6⟩
abbrev TIL_TL_NOISE_CFG_PHY : Fld := ⟨0x381038, 512, 0, 0, 24, 8⟩
/-- Register TIL_TL_MATRIX_LO (R254), the whole word. -/
abbrev TIL_TL_MATRIX_LO : Fld := ⟨0x38103c, 512, 0, 0, 0, 32⟩
abbrev TIL_TL_MATRIX_LO_ADDR : Fld := ⟨0x38103c, 512, 0, 0, 0, 32⟩
/-- Register TIL_TL_MATRIX_HI (R254), the whole word. -/
abbrev TIL_TL_MATRIX_HI : Fld := ⟨0x381040, 512, 0, 0, 0, 32⟩
abbrev TIL_TL_MATRIX_HI_ADDR : Fld := ⟨0x381040, 512, 0, 0, 0, 32⟩
/-- Register TIL_TL_MATRIX_CFG (R254), the whole word. -/
abbrev TIL_TL_MATRIX_CFG : Fld := ⟨0x381044, 512, 0, 0, 0, 32⟩
abbrev TIL_TL_MATRIX_CFG_TWL : Fld := ⟨0x381044, 512, 0, 0, 0, 4⟩
abbrev TIL_TL_MATRIX_CFG_THL : Fld := ⟨0x381044, 512, 0, 0, 4, 4⟩
/-- Register TIL_TL_STITCH_LO (R254), the whole word. -/
abbrev TIL_TL_STITCH_LO : Fld := ⟨0x381048, 512, 0, 0, 0, 32⟩
abbrev TIL_TL_STITCH_LO_ADDR : Fld := ⟨0x381048, 512, 0, 0, 0, 32⟩
/-- Register TIL_TL_STITCH_HI (R254), the whole word. -/
abbrev TIL_TL_STITCH_HI : Fld := ⟨0x38104c, 512, 0, 0, 0, 32⟩
abbrev TIL_TL_STITCH_HI_ADDR : Fld := ⟨0x38104c, 512, 0, 0, 0, 32⟩
/-- Register TIL_TL_NZLINE_LO (R254), the whole word. -/
abbrev TIL_TL_NZLINE_LO : Fld := ⟨0x381054, 512, 0, 0, 0, 32⟩
abbrev TIL_TL_NZLINE_LO_EFF : Fld := ⟨0x381054, 512, 0, 0, 0, 32⟩
/-- Register TIL_TL_NZLINE_HI (R254), the whole word. -/
abbrev TIL_TL_NZLINE_HI : Fld := ⟨0x381058, 512, 0, 0, 0, 32⟩
abbrev TIL_TL_NZLINE_HI_EFF : Fld := ⟨0x381058, 512, 0, 0, 0, 32⟩
/-- Register TIL_TL_CNT (R254), the whole word. -/
abbrev TIL_TL_CNT : Fld := ⟨0x38105c, 512, 0, 0, 0, 32⟩
abbrev TIL_TL_CNT_CLAMP : Fld := ⟨0x38105c, 512, 0, 0, 0, 16⟩
abbrev TIL_TL_CNT_DEADRUN : Fld := ⟨0x38105c, 512, 0, 0, 16, 16⟩
/-- Register TIL_TL_RESCUE (R254), the whole word. -/
abbrev TIL_TL_RESCUE : Fld := ⟨0x381060, 512, 0, 0, 0, 32⟩
abbrev TIL_TL_RESCUE_RESCUE : Fld := ⟨0x381060, 512, 0, 0, 0, 32⟩
/-- Register TIL_TL_STAT (R254), the whole word. -/
abbrev TIL_TL_STAT : Fld := ⟨0x381064, 512, 0, 0, 0, 32⟩
abbrev TIL_TL_STAT_LAT : Fld := ⟨0x381064, 512, 0, 0, 0, 16⟩
abbrev TIL_TL_STAT_TBL_BAD : Fld := ⟨0x381064, 512, 0, 0, 16, 8⟩
/-- Register TIL_TL_NW0 (R254), the whole word. -/
abbrev TIL_TL_NW0 : Fld := ⟨0x381100, 512, 8, 0, 0, 32⟩
abbrev TIL_TL_NW0_W0 : Fld := ⟨0x381100, 512, 8, 0, 0, 6⟩
abbrev TIL_TL_NW0_W1 : Fld := ⟨0x381100, 512, 8, 0, 8, 6⟩
abbrev TIL_TL_NW0_W2 : Fld := ⟨0x381100, 512, 8, 0, 16, 6⟩
abbrev TIL_TL_NW0_W3 : Fld := ⟨0x381100, 512, 8, 0, 24, 6⟩
/-- Register TIL_TL_NW1 (R254), the whole word. -/
abbrev TIL_TL_NW1 : Fld := ⟨0x381104, 512, 8, 0, 0, 32⟩
abbrev TIL_TL_NW1_W5 : Fld := ⟨0x381104, 512, 8, 0, 0, 6⟩
abbrev TIL_TL_NW1_W6 : Fld := ⟨0x381104, 512, 8, 0, 8, 6⟩
/-- Register TIL_PORT_CFG (R254), the whole word. -/
abbrev TIL_PORT_CFG : Fld := ⟨0x388000, 128, 0, 0, 0, 32⟩
abbrev TIL_PORT_CFG_NNOZ : Fld := ⟨0x388000, 128, 0, 0, 0, 14⟩
abbrev TIL_PORT_CFG_EN : Fld := ⟨0x388000, 128, 0, 0, 16, 1⟩
/-- Register TIL_PORT_NZ (R254), the whole word. -/
abbrev TIL_PORT_NZ : Fld := ⟨0x388004, 128, 0, 0, 0, 32⟩
abbrev TIL_PORT_NZ_WEAK : Fld := ⟨0x388004, 128, 0, 0, 0, 14⟩
abbrev TIL_PORT_NZ_DEAD : Fld := ⟨0x388004, 128, 0, 0, 16, 14⟩
/-- Register TIL_PORT_RING_LO (R254), the whole word. -/
abbrev TIL_PORT_RING_LO : Fld := ⟨0x388008, 128, 0, 0, 0, 32⟩
abbrev TIL_PORT_RING_LO_RING : Fld := ⟨0x388008, 128, 0, 0, 0, 32⟩
/-- Register TIL_PORT_RING_HI (R254), the whole word. -/
abbrev TIL_PORT_RING_HI : Fld := ⟨0x38800c, 128, 0, 0, 0, 32⟩
abbrev TIL_PORT_RING_HI_RING : Fld := ⟨0x38800c, 128, 0, 0, 0, 32⟩
/-- Register TIL_PORT_DEPTH (R254), the whole word. -/
abbrev TIL_PORT_DEPTH : Fld := ⟨0x388010, 128, 0, 0, 0, 32⟩
abbrev TIL_PORT_DEPTH_DEPTH : Fld := ⟨0x388010, 128, 0, 0, 0, 15⟩
/-- Register TIL_PORT_SLOT (R254), the whole word. -/
abbrev TIL_PORT_SLOT : Fld := ⟨0x388014, 128, 0, 0, 0, 32⟩
abbrev TIL_PORT_SLOT_SLOT : Fld := ⟨0x388014, 128, 0, 0, 0, 13⟩
/-- Register TIL_PORT_DONE_LO (R254), the whole word. -/
abbrev TIL_PORT_DONE_LO : Fld := ⟨0x388018, 128, 0, 0, 0, 32⟩
abbrev TIL_PORT_DONE_LO_DONE : Fld := ⟨0x388018, 128, 0, 0, 0, 32⟩
/-- Register TIL_PORT_DONE_HI (R254), the whole word. -/
abbrev TIL_PORT_DONE_HI : Fld := ⟨0x38801c, 128, 0, 0, 0, 32⟩
abbrev TIL_PORT_DONE_HI_DONE : Fld := ⟨0x38801c, 128, 0, 0, 0, 32⟩
/-- Register TIL_PORT_WAIT (R254), the whole word. -/
abbrev TIL_PORT_WAIT : Fld := ⟨0x388020, 128, 0, 0, 0, 32⟩
abbrev TIL_PORT_WAIT_LINES : Fld := ⟨0x388020, 128, 0, 0, 0, 32⟩
/-- Register TIL_HEAD_COL (R254), the whole word. -/
abbrev TIL_HEAD_COL : Fld := ⟨0x388040, 128, 8, 0, 0, 32⟩
abbrev TIL_HEAD_COL_COL0 : Fld := ⟨0x388040, 128, 8, 0, 0, 32⟩
/-- Register TIL_HEAD_CFG (R254), the whole word. -/
abbrev TIL_HEAD_CFG : Fld := ⟨0x388044, 128, 8, 0, 0, 32⟩
abbrev TIL_HEAD_CFG_NNOZ : Fld := ⟨0x388044, 128, 8, 0, 0, 14⟩
abbrev TIL_HEAD_CFG_REV : Fld := ⟨0x388044, 128, 8, 0, 16, 1⟩
/-- Register HPL_PORT_CFG (R281), the whole word. -/
abbrev HPL_PORT_CFG : Fld := ⟨0xa00000, 4096, 0, 0, 0, 32⟩
abbrev HPL_PORT_CFG_EN : Fld := ⟨0xa00000, 4096, 0, 0, 0, 1⟩
abbrev HPL_PORT_CFG_BAR : Fld := ⟨0xa00000, 4096, 0, 0, 1, 4⟩
abbrev HPL_PORT_CFG_AUTO : Fld := ⟨0xa00000, 4096, 0, 0, 5, 1⟩
abbrev HPL_PORT_CFG_TRAIN : Fld := ⟨0xa00000, 4096, 0, 0, 6, 1⟩
abbrev HPL_PORT_CFG_DOWN : Fld := ⟨0xa00000, 4096, 0, 0, 7, 1⟩
/-- Register HPL_PORT_STAT (R281), the whole word. -/
abbrev HPL_PORT_STAT : Fld := ⟨0xa00004, 4096, 0, 0, 0, 32⟩
abbrev HPL_PORT_STAT_LINK : Fld := ⟨0xa00004, 4096, 0, 0, 0, 3⟩
abbrev HPL_PORT_STAT_CFG_ERR : Fld := ⟨0xa00004, 4096, 0, 0, 3, 1⟩
abbrev HPL_PORT_STAT_LAT_FIT : Fld := ⟨0xa00004, 4096, 0, 0, 4, 1⟩
abbrev HPL_PORT_STAT_HB_FAULT : Fld := ⟨0xa00004, 4096, 0, 0, 5, 1⟩
abbrev HPL_PORT_STAT_ATTEMPTS : Fld := ⟨0xa00004, 4096, 0, 0, 8, 8⟩
/-- Register HPL_PORT_LINKLAT (R281), the whole word. -/
abbrev HPL_PORT_LINKLAT : Fld := ⟨0xa00008, 4096, 0, 0, 0, 32⟩
abbrev HPL_PORT_LINKLAT_LAT : Fld := ⟨0xa00008, 4096, 0, 0, 0, 16⟩
abbrev HPL_PORT_LINKLAT_SPREAD : Fld := ⟨0xa00008, 4096, 0, 0, 16, 16⟩
/-- Register HPL_PORT_ASYM (R281), the whole word. -/
abbrev HPL_PORT_ASYM : Fld := ⟨0xa0000c, 4096, 0, 0, 0, 32⟩
abbrev HPL_PORT_ASYM_ASYM : Fld := ⟨0xa0000c, 4096, 0, 0, 0, 16⟩
/-- Register HPL_PORT_HBINFO (R281), the whole word. -/
abbrev HPL_PORT_HBINFO : Fld := ⟨0xa00010, 4096, 0, 0, 0, 32⟩
abbrev HPL_PORT_HBINFO_HBLAT : Fld := ⟨0xa00010, 4096, 0, 0, 0, 16⟩
abbrev HPL_PORT_HBINFO_BUFLINES : Fld := ⟨0xa00010, 4096, 0, 0, 16, 9⟩
abbrev HPL_PORT_HBINFO_NHEADS : Fld := ⟨0xa00010, 4096, 0, 0, 25, 4⟩
abbrev HPL_PORT_HBINFO_SEL : Fld := ⟨0xa00010, 4096, 0, 0, 29, 1⟩
/-- Register HPL_PORT_VENDOR (R281), the whole word. -/
abbrev HPL_PORT_VENDOR : Fld := ⟨0xa00014, 4096, 0, 0, 0, 32⟩
abbrev HPL_PORT_VENDOR_VENDOR : Fld := ⟨0xa00014, 4096, 0, 0, 0, 32⟩
/-- Register HPL_PORT_SERIAL (R281), the whole word. -/
abbrev HPL_PORT_SERIAL : Fld := ⟨0xa00018, 4096, 0, 0, 0, 32⟩
abbrev HPL_PORT_SERIAL_SERIAL : Fld := ⟨0xa00018, 4096, 0, 0, 0, 32⟩
/-- Register HPL_PORT_FAULT (R281), the whole word. -/
abbrev HPL_PORT_FAULT : Fld := ⟨0xa0001c, 4096, 0, 0, 0, 32⟩
abbrev HPL_PORT_FAULT_FAULT : Fld := ⟨0xa0001c, 4096, 0, 0, 0, 16⟩
abbrev HPL_PORT_FAULT_CFG_SEQ : Fld := ⟨0xa0001c, 4096, 0, 0, 16, 16⟩
/-- Register HPL_PORT_TEMP0 (R281), the whole word. -/
abbrev HPL_PORT_TEMP0 : Fld := ⟨0xa00020, 4096, 0, 0, 0, 32⟩
abbrev HPL_PORT_TEMP0_TEMP0 : Fld := ⟨0xa00020, 4096, 0, 0, 0, 8⟩
abbrev HPL_PORT_TEMP0_TEMP1 : Fld := ⟨0xa00020, 4096, 0, 0, 8, 8⟩
abbrev HPL_PORT_TEMP0_TEMP2 : Fld := ⟨0xa00020, 4096, 0, 0, 16, 8⟩
abbrev HPL_PORT_TEMP0_TEMP3 : Fld := ⟨0xa00020, 4096, 0, 0, 24, 8⟩
/-- Register HPL_PORT_TEMP1 (R281), the whole word. -/
abbrev HPL_PORT_TEMP1 : Fld := ⟨0xa00024, 4096, 0, 0, 0, 32⟩
abbrev HPL_PORT_TEMP1_TEMP0 : Fld := ⟨0xa00024, 4096, 0, 0, 0, 8⟩
abbrev HPL_PORT_TEMP1_TEMP1 : Fld := ⟨0xa00024, 4096, 0, 0, 8, 8⟩
abbrev HPL_PORT_TEMP1_TEMP2 : Fld := ⟨0xa00024, 4096, 0, 0, 16, 8⟩
abbrev HPL_PORT_TEMP1_TEMP3 : Fld := ⟨0xa00024, 4096, 0, 0, 24, 8⟩
/-- Register HPL_PORT_RAIL01 (R281), the whole word. -/
abbrev HPL_PORT_RAIL01 : Fld := ⟨0xa00028, 4096, 0, 0, 0, 32⟩
abbrev HPL_PORT_RAIL01_RAIL0 : Fld := ⟨0xa00028, 4096, 0, 0, 0, 16⟩
abbrev HPL_PORT_RAIL01_RAIL1 : Fld := ⟨0xa00028, 4096, 0, 0, 16, 16⟩
/-- Register HPL_PORT_RAIL23 (R281), the whole word. -/
abbrev HPL_PORT_RAIL23 : Fld := ⟨0xa0002c, 4096, 0, 0, 0, 32⟩
abbrev HPL_PORT_RAIL23_RAIL2 : Fld := ⟨0xa0002c, 4096, 0, 0, 0, 16⟩
abbrev HPL_PORT_RAIL23_RAIL3 : Fld := ⟨0xa0002c, 4096, 0, 0, 16, 16⟩
/-- Register HPL_PORT_SENT_LO (R281), the whole word. -/
abbrev HPL_PORT_SENT_LO : Fld := ⟨0xa00030, 4096, 0, 0, 0, 32⟩
abbrev HPL_PORT_SENT_LO_SENT : Fld := ⟨0xa00030, 4096, 0, 0, 0, 32⟩
/-- Register HPL_PORT_SENT_HI (R281), the whole word. -/
abbrev HPL_PORT_SENT_HI : Fld := ⟨0xa00034, 4096, 0, 0, 0, 32⟩
abbrev HPL_PORT_SENT_HI_SENT : Fld := ⟨0xa00034, 4096, 0, 0, 0, 32⟩
/-- Register HPL_PORT_CNT_RESEND (R281), the whole word. -/
abbrev HPL_PORT_CNT_RESEND : Fld := ⟨0xa00038, 4096, 0, 0, 0, 32⟩
abbrev HPL_PORT_CNT_RESEND_RESENDS : Fld := ⟨0xa00038, 4096, 0, 0, 0, 32⟩
/-- Register HPL_PORT_CNT_BLANK (R281), the whole word. -/
abbrev HPL_PORT_CNT_BLANK : Fld := ⟨0xa0003c, 4096, 0, 0, 0, 32⟩
abbrev HPL_PORT_CNT_BLANK_BLANKS : Fld := ⟨0xa0003c, 4096, 0, 0, 0, 32⟩
/-- Register HPL_PORT_CNT_LATE (R281), the whole word. -/
abbrev HPL_PORT_CNT_LATE : Fld := ⟨0xa00040, 4096, 0, 0, 0, 32⟩
abbrev HPL_PORT_CNT_LATE_LATE : Fld := ⟨0xa00040, 4096, 0, 0, 0, 32⟩
/-- Register HPL_PORT_CNT_ERR (R281), the whole word. -/
abbrev HPL_PORT_CNT_ERR : Fld := ⟨0xa00044, 4096, 0, 0, 0, 32⟩
abbrev HPL_PORT_CNT_ERR_UP_CRC : Fld := ⟨0xa00044, 4096, 0, 0, 0, 16⟩
abbrev HPL_PORT_CNT_ERR_UNKNOWN : Fld := ⟨0xa00044, 4096, 0, 0, 16, 16⟩
/-- Register HPL_PORT_CNT_NAK (R281), the whole word. -/
abbrev HPL_PORT_CNT_NAK : Fld := ⟨0xa00048, 4096, 0, 0, 0, 32⟩
abbrev HPL_PORT_CNT_NAK_NAKS : Fld := ⟨0xa00048, 4096, 0, 0, 0, 16⟩
abbrev HPL_PORT_CNT_NAK_CFG : Fld := ⟨0xa00048, 4096, 0, 0, 16, 16⟩
/-- Register HPL_PORT_CNT_PARITY (R281), the whole word. -/
abbrev HPL_PORT_CNT_PARITY : Fld := ⟨0xa0004c, 4096, 0, 0, 0, 32⟩
abbrev HPL_PORT_CNT_PARITY_WORDS : Fld := ⟨0xa0004c, 4096, 0, 0, 0, 32⟩
/-- Register HPL_PORT_CNT_DOWN (R281), the whole word. -/
abbrev HPL_PORT_CNT_DOWN : Fld := ⟨0xa00050, 4096, 0, 0, 0, 32⟩
abbrev HPL_PORT_CNT_DOWN_LOSS : Fld := ⟨0xa00050, 4096, 0, 0, 0, 16⟩
abbrev HPL_PORT_CNT_DOWN_UNREP : Fld := ⟨0xa00050, 4096, 0, 0, 16, 16⟩
/-- Register HPL_PORT_RSCFG (R281), the whole word. -/
abbrev HPL_PORT_RSCFG : Fld := ⟨0xa00054, 4096, 0, 0, 0, 32⟩
abbrev HPL_PORT_RSCFG_RS_MAX : Fld := ⟨0xa00054, 4096, 0, 0, 0, 2⟩
/-- Register HPL_PORT_STAT_TMO (R281), the whole word. -/
abbrev HPL_PORT_STAT_TMO : Fld := ⟨0xa00058, 4096, 0, 0, 0, 32⟩
abbrev HPL_PORT_STAT_TMO_TMO : Fld := ⟨0xa00058, 4096, 0, 0, 0, 16⟩
/-- Register HPL_PORT_NF (R281), the whole word. -/
abbrev HPL_PORT_NF : Fld := ⟨0xa00060, 4096, 4, 0, 0, 32⟩
abbrev HPL_PORT_NF_NOZZLE : Fld := ⟨0xa00060, 4096, 4, 0, 0, 14⟩
abbrev HPL_PORT_NF_KIND : Fld := ⟨0xa00060, 4096, 4, 0, 14, 2⟩
abbrev HPL_PORT_NF_SEQ : Fld := ⟨0xa00060, 4096, 4, 0, 16, 16⟩
/-- Register HPL_PORT_NF_WR (R281), the whole word. -/
abbrev HPL_PORT_NF_WR : Fld := ⟨0xa000e0, 4096, 0, 0, 0, 32⟩
abbrev HPL_PORT_NF_WR_WR : Fld := ⟨0xa000e0, 4096, 0, 0, 0, 32⟩
/-- Register HPL_BAR_LAT (R281), the whole word. -/
abbrev HPL_BAR_LAT : Fld := ⟨0xa80000, 64, 0, 0, 0, 32⟩
abbrev HPL_BAR_LAT_LAT : Fld := ⟨0xa80000, 64, 0, 0, 0, 16⟩
/-- Register HPL_BAR_LATMIN (R281), the whole word. -/
abbrev HPL_BAR_LATMIN : Fld := ⟨0xa80004, 64, 0, 0, 0, 32⟩
abbrev HPL_BAR_LATMIN_LATMIN : Fld := ⟨0xa80004, 64, 0, 0, 0, 16⟩
/-- Register HPL_BAR_STAT (R281), the whole word. -/
abbrev HPL_BAR_STAT : Fld := ⟨0xa80008, 64, 0, 0, 0, 32⟩
abbrev HPL_BAR_STAT_NPORTS : Fld := ⟨0xa80008, 64, 0, 0, 0, 5⟩
abbrev HPL_BAR_STAT_STALL : Fld := ⟨0xa80008, 64, 0, 0, 5, 1⟩
/-- Register HPL_CTL (R281), the whole word. -/
abbrev HPL_CTL : Fld := ⟨0xa81000, 0, 0, 0, 0, 32⟩
abbrev HPL_CTL_PING_PER : Fld := ⟨0xa81000, 0, 0, 0, 0, 8⟩
abbrev HPL_CTL_TIME_PER : Fld := ⟨0xa81000, 0, 0, 0, 8, 8⟩
/-- Register HPL_UP_MAP (R281), the whole word. -/
abbrev HPL_UP_MAP : Fld := ⟨0xa81010, 4, 0, 0, 0, 32⟩
abbrev HPL_UP_MAP_UP : Fld := ⟨0xa81010, 4, 0, 0, 0, 32⟩
/-- Register CAM_ISP_CFG (R313), the whole word. -/
abbrev CAM_ISP_CFG : Fld := ⟨0xc00000, 0, 0, 0, 0, 32⟩
abbrev CAM_ISP_CFG_INLINE : Fld := ⟨0xc00000, 0, 0, 0, 0, 3⟩
abbrev CAM_ISP_CFG_INLINE_EN : Fld := ⟨0xc00000, 0, 0, 0, 3, 1⟩
/-- Register CAM_ISP_LOAD (R313), the whole word. -/
abbrev CAM_ISP_LOAD : Fld := ⟨0xc00004, 0, 0, 0, 0, 32⟩
abbrev CAM_ISP_LOAD_LOAD : Fld := ⟨0xc00004, 0, 0, 0, 0, 10⟩
abbrev CAM_ISP_LOAD_PEAK : Fld := ⟨0xc00004, 0, 0, 0, 16, 10⟩
/-- Register CAM_ISP_CNT (R313), the whole word. -/
abbrev CAM_ISP_CNT : Fld := ⟨0xc00008, 0, 0, 0, 0, 32⟩
abbrev CAM_ISP_CNT_OVERLOAD : Fld := ⟨0xc00008, 0, 0, 0, 0, 32⟩
/-- Register CAM_CX_CFG (R313), the whole word. -/
abbrev CAM_CX_CFG : Fld := ⟨0xc00100, 16, 0, 0, 0, 32⟩
abbrev CAM_CX_CFG_EN : Fld := ⟨0xc00100, 16, 0, 0, 0, 1⟩
abbrev CAM_CX_CFG_RATE : Fld := ⟨0xc00100, 16, 0, 0, 1, 3⟩
/-- Register CAM_CX_STAT (R313), the whole word. -/
abbrev CAM_CX_STAT : Fld := ⟨0xc00104, 16, 0, 0, 0, 32⟩
abbrev CAM_CX_STAT_LINK : Fld := ⟨0xc00104, 16, 0, 0, 0, 2⟩
/-- Register CAM_CX_ERR (R313), the whole word. -/
abbrev CAM_CX_ERR : Fld := ⟨0xc00108, 16, 0, 0, 0, 32⟩
abbrev CAM_CX_ERR_CRC : Fld := ⟨0xc00108, 16, 0, 0, 0, 16⟩
abbrev CAM_CX_ERR_LOSS : Fld := ⟨0xc00108, 16, 0, 0, 16, 16⟩
/-- Register CAM_CX_OTHER (R313), the whole word. -/
abbrev CAM_CX_OTHER : Fld := ⟨0xc0010c, 16, 0, 0, 0, 32⟩
abbrev CAM_CX_OTHER_PKTS : Fld := ⟨0xc0010c, 16, 0, 0, 0, 32⟩
/-- Register CAM_CS_CFG (R313), the whole word. -/
abbrev CAM_CS_CFG : Fld := ⟨0xc00200, 32, 0, 0, 0, 32⟩
abbrev CAM_CS_CFG_EN : Fld := ⟨0xc00200, 32, 0, 0, 0, 1⟩
abbrev CAM_CS_CFG_LANES : Fld := ⟨0xc00200, 32, 0, 0, 1, 2⟩
abbrev CAM_CS_CFG_RATE : Fld := ⟨0xc00200, 32, 0, 0, 3, 9⟩
abbrev CAM_CS_CFG_VC : Fld := ⟨0xc00200, 32, 0, 0, 12, 4⟩
abbrev CAM_CS_CFG_DT : Fld := ⟨0xc00200, 32, 0, 0, 16, 6⟩
abbrev CAM_CS_CFG_I2C : Fld := ⟨0xc00200, 32, 0, 0, 22, 2⟩
/-- Register CAM_CS_STAT (R313), the whole word. -/
abbrev CAM_CS_STAT : Fld := ⟨0xc00204, 32, 0, 0, 0, 32⟩
abbrev CAM_CS_STAT_SYNC : Fld := ⟨0xc00204, 32, 0, 0, 0, 1⟩
abbrev CAM_CS_STAT_IN_FRAME : Fld := ⟨0xc00204, 32, 0, 0, 1, 1⟩
/-- Register CAM_CS_ECC (R313), the whole word. -/
abbrev CAM_CS_ECC : Fld := ⟨0xc00208, 32, 0, 0, 0, 32⟩
abbrev CAM_CS_ECC_CORR : Fld := ⟨0xc00208, 32, 0, 0, 0, 16⟩
abbrev CAM_CS_ECC_UE : Fld := ⟨0xc00208, 32, 0, 0, 16, 16⟩
/-- Register CAM_CS_CRC (R313), the whole word. -/
abbrev CAM_CS_CRC : Fld := ⟨0xc0020c, 32, 0, 0, 0, 32⟩
abbrev CAM_CS_CRC_CRC : Fld := ⟨0xc0020c, 32, 0, 0, 0, 16⟩
abbrev CAM_CS_CRC_SOT : Fld := ⟨0xc0020c, 32, 0, 0, 16, 16⟩
/-- Register CAM_CS_OTHER (R313), the whole word. -/
abbrev CAM_CS_OTHER : Fld := ⟨0xc00210, 32, 0, 0, 0, 32⟩
abbrev CAM_CS_OTHER_PKTS : Fld := ⟨0xc00210, 32, 0, 0, 0, 32⟩
/-- Register CAM_U_CFG (R313), the whole word. -/
abbrev CAM_U_CFG : Fld := ⟨0xc01000, 1024, 0, 0, 0, 32⟩
abbrev CAM_U_CFG_EN : Fld := ⟨0xc01000, 1024, 0, 0, 0, 1⟩
abbrev CAM_U_CFG_MODE : Fld := ⟨0xc01000, 1024, 0, 0, 1, 1⟩
abbrev CAM_U_CFG_LINK0 : Fld := ⟨0xc01000, 1024, 0, 0, 2, 3⟩
abbrev CAM_U_CFG_NLINK : Fld := ⟨0xc01000, 1024, 0, 0, 5, 2⟩
abbrev CAM_U_CFG_FMT : Fld := ⟨0xc01000, 1024, 0, 0, 7, 6⟩
abbrev CAM_U_CFG_BAYER : Fld := ⟨0xc01000, 1024, 0, 0, 13, 2⟩
abbrev CAM_U_CFG_TRIG_PIN : Fld := ⟨0xc01000, 1024, 0, 0, 15, 1⟩
abbrev CAM_U_CFG_TEN : Fld := ⟨0xc01000, 1024, 0, 0, 16, 1⟩
/-- Register CAM_U_STAT (R313), the whole word. -/
abbrev CAM_U_STAT : Fld := ⟨0xc01004, 1024, 0, 0, 0, 32⟩
abbrev CAM_U_STAT_UP : Fld := ⟨0xc01004, 1024, 0, 0, 0, 1⟩
abbrev CAM_U_STAT_CFG_ERR : Fld := ⟨0xc01004, 1024, 0, 0, 1, 1⟩
abbrev CAM_U_STAT_INLINE : Fld := ⟨0xc01004, 1024, 0, 0, 2, 1⟩
/-- Register CAM_U_SIZE (R313), the whole word. -/
abbrev CAM_U_SIZE : Fld := ⟨0xc01008, 1024, 0, 0, 0, 32⟩
abbrev CAM_U_SIZE_W : Fld := ⟨0xc01008, 1024, 0, 0, 0, 16⟩
abbrev CAM_U_SIZE_H : Fld := ⟨0xc01008, 1024, 0, 0, 16, 16⟩
/-- Register CAM_U_BLK (R313), the whole word. -/
abbrev CAM_U_BLK : Fld := ⟨0xc0100c, 1024, 0, 0, 0, 32⟩
abbrev CAM_U_BLK_TRK : Fld := ⟨0xc0100c, 1024, 0, 0, 0, 2⟩
abbrev CAM_U_BLK_BMODE : Fld := ⟨0xc0100c, 1024, 0, 0, 2, 2⟩
abbrev CAM_U_BLK_BLINES : Fld := ⟨0xc0100c, 1024, 0, 0, 16, 16⟩
/-- Register CAM_U_OFFSET_LO (R313), the whole word. -/
abbrev CAM_U_OFFSET_LO : Fld := ⟨0xc01010, 1024, 0, 0, 0, 32⟩
abbrev CAM_U_OFFSET_LO_OFFSET : Fld := ⟨0xc01010, 1024, 0, 0, 0, 32⟩
/-- Register CAM_U_OFFSET_HI (R313), the whole word. -/
abbrev CAM_U_OFFSET_HI : Fld := ⟨0xc01014, 1024, 0, 0, 0, 32⟩
abbrev CAM_U_OFFSET_HI_OFFSET : Fld := ⟨0xc01014, 1024, 0, 0, 0, 32⟩
/-- Register CAM_U_PITCH_FRAC (R313), the whole word. -/
abbrev CAM_U_PITCH_FRAC : Fld := ⟨0xc01018, 1024, 0, 0, 0, 32⟩
abbrev CAM_U_PITCH_FRAC_PITCH : Fld := ⟨0xc01018, 1024, 0, 0, 0, 32⟩
/-- Register CAM_U_PITCH_INT (R313), the whole word. -/
abbrev CAM_U_PITCH_INT : Fld := ⟨0xc0101c, 1024, 0, 0, 0, 32⟩
abbrev CAM_U_PITCH_INT_PITCH : Fld := ⟨0xc0101c, 1024, 0, 0, 0, 32⟩
/-- Register CAM_U_CMP_FRAC (R313), the whole word. -/
abbrev CAM_U_CMP_FRAC : Fld := ⟨0xc01020, 1024, 0, 0, 0, 32⟩
abbrev CAM_U_CMP_FRAC_COMPARE : Fld := ⟨0xc01020, 1024, 0, 0, 0, 32⟩
/-- Register CAM_U_CMP_LO (R313), the whole word. -/
abbrev CAM_U_CMP_LO : Fld := ⟨0xc01024, 1024, 0, 0, 0, 32⟩
abbrev CAM_U_CMP_LO_COMPARE : Fld := ⟨0xc01024, 1024, 0, 0, 0, 32⟩
/-- Register CAM_U_CMP_HI (R313), the whole word. -/
abbrev CAM_U_CMP_HI : Fld := ⟨0xc01028, 1024, 0, 0, 0, 32⟩
abbrev CAM_U_CMP_HI_COMPARE : Fld := ⟨0xc01028, 1024, 0, 0, 0, 32⟩
/-- Register CAM_U_TCOUNT_LO (R313), the whole word. -/
abbrev CAM_U_TCOUNT_LO : Fld := ⟨0xc0102c, 1024, 0, 0, 0, 32⟩
abbrev CAM_U_TCOUNT_LO_TCOUNT : Fld := ⟨0xc0102c, 1024, 0, 0, 0, 32⟩
/-- Register CAM_U_TCOUNT_HI (R313), the whole word. -/
abbrev CAM_U_TCOUNT_HI : Fld := ⟨0xc01030, 1024, 0, 0, 0, 32⟩
abbrev CAM_U_TCOUNT_HI_TCOUNT : Fld := ⟨0xc01030, 1024, 0, 0, 0, 32⟩
/-- Register CAM_U_MINGAP (R313), the whole word. -/
abbrev CAM_U_MINGAP : Fld := ⟨0xc01034, 1024, 0, 0, 0, 32⟩
abbrev CAM_U_MINGAP_MINGAP : Fld := ⟨0xc01034, 1024, 0, 0, 0, 32⟩
/-- Register CAM_U_TRIG_LAT (R313), the whole word. -/
abbrev CAM_U_TRIG_LAT : Fld := ⟨0xc01038, 1024, 0, 0, 0, 32⟩
abbrev CAM_U_TRIG_LAT_TRIG_LAT : Fld := ⟨0xc01038, 1024, 0, 0, 0, 16⟩
abbrev CAM_U_TRIG_LAT_FRAME_LAT : Fld := ⟨0xc01038, 1024, 0, 0, 16, 16⟩
/-- Register CAM_U_LINEWIN (R313), the whole word. -/
abbrev CAM_U_LINEWIN : Fld := ⟨0xc0103c, 1024, 0, 0, 0, 32⟩
abbrev CAM_U_LINEWIN_LINE_MIN : Fld := ⟨0xc0103c, 1024, 0, 0, 0, 16⟩
abbrev CAM_U_LINEWIN_LINE_TMO : Fld := ⟨0xc0103c, 1024, 0, 0, 16, 16⟩
/-- Register CAM_U_LAT (R313), the whole word. -/
abbrev CAM_U_LAT : Fld := ⟨0xc01040, 1024, 0, 0, 0, 32⟩
abbrev CAM_U_LAT_LEAST : Fld := ⟨0xc01040, 1024, 0, 0, 0, 16⟩
abbrev CAM_U_LAT_MOST : Fld := ⟨0xc01040, 1024, 0, 0, 16, 16⟩
/-- Register CAM_U_SHEET_TOP (R313), the whole word. -/
abbrev CAM_U_SHEET_TOP : Fld := ⟨0xc01044, 1024, 0, 0, 0, 32⟩
abbrev CAM_U_SHEET_TOP_SHEET_TOP : Fld := ⟨0xc01044, 1024, 0, 0, 0, 32⟩
/-- Register CAM_U_CHAFF (R313), the whole word. -/
abbrev CAM_U_CHAFF : Fld := ⟨0xc01048, 1024, 0, 0, 0, 32⟩
abbrev CAM_U_CHAFF_CHAFF : Fld := ⟨0xc01048, 1024, 0, 0, 0, 16⟩
/-- Register CAM_U_NAT (R313), the whole word. -/
abbrev CAM_U_NAT : Fld := ⟨0xc0104c, 1024, 0, 0, 0, 32⟩
abbrev CAM_U_NAT_NAT : Fld := ⟨0xc0104c, 1024, 0, 0, 0, 5⟩
/-- Register CAM_U_AT_POS (R313), the whole word. -/
abbrev CAM_U_AT_POS : Fld := ⟨0xc01050, 1024, 4, 0, 0, 32⟩
abbrev CAM_U_AT_POS_POS : Fld := ⟨0xc01050, 1024, 4, 0, 0, 32⟩
/-- Register CAM_U_RAW_LO (R313), the whole word. -/
abbrev CAM_U_RAW_LO : Fld := ⟨0xc01090, 1024, 0, 0, 0, 32⟩
abbrev CAM_U_RAW_LO_RAW : Fld := ⟨0xc01090, 1024, 0, 0, 0, 32⟩
/-- Register CAM_U_RAW_HI (R313), the whole word. -/
abbrev CAM_U_RAW_HI : Fld := ⟨0xc01094, 1024, 0, 0, 0, 32⟩
abbrev CAM_U_RAW_HI_RAW : Fld := ⟨0xc01094, 1024, 0, 0, 0, 32⟩
/-- Register CAM_U_RAW_CFG (R313), the whole word. -/
abbrev CAM_U_RAW_CFG : Fld := ⟨0xc01098, 1024, 0, 0, 0, 32⟩
abbrev CAM_U_RAW_CFG_RDEPTH : Fld := ⟨0xc01098, 1024, 0, 0, 0, 8⟩
abbrev CAM_U_RAW_CFG_RSLOT : Fld := ⟨0xc01098, 1024, 0, 0, 8, 24⟩
/-- Register CAM_U_REC_LO (R313), the whole word. -/
abbrev CAM_U_REC_LO : Fld := ⟨0xc010a0, 1024, 0, 0, 0, 32⟩
abbrev CAM_U_REC_LO_REC : Fld := ⟨0xc010a0, 1024, 0, 0, 0, 32⟩
/-- Register CAM_U_REC_HI (R313), the whole word. -/
abbrev CAM_U_REC_HI : Fld := ⟨0xc010a4, 1024, 0, 0, 0, 32⟩
abbrev CAM_U_REC_HI_REC : Fld := ⟨0xc010a4, 1024, 0, 0, 0, 32⟩
/-- Register CAM_U_REC_CFG (R313), the whole word. -/
abbrev CAM_U_REC_CFG : Fld := ⟨0xc010a8, 1024, 0, 0, 0, 32⟩
abbrev CAM_U_REC_CFG_RDEPTH : Fld := ⟨0xc010a8, 1024, 0, 0, 0, 16⟩
abbrev CAM_U_REC_CFG_RECSIZE : Fld := ⟨0xc010a8, 1024, 0, 0, 16, 16⟩
/-- Register CAM_U_SEQ (R313), the whole word. -/
abbrev CAM_U_SEQ : Fld := ⟨0xc010b0, 1024, 0, 0, 0, 32⟩
abbrev CAM_U_SEQ_SEQ : Fld := ⟨0xc010b0, 1024, 0, 0, 0, 32⟩
/-- Register CAM_U_CNT1 (R313), the whole word. -/
abbrev CAM_U_CNT1 : Fld := ⟨0xc010b4, 1024, 0, 0, 0, 32⟩
abbrev CAM_U_CNT1_MISSING : Fld := ⟨0xc010b4, 1024, 0, 0, 0, 16⟩
abbrev CAM_U_CNT1_EXTRA : Fld := ⟨0xc010b4, 1024, 0, 0, 16, 16⟩
/-- Register CAM_U_CNT2 (R313), the whole word. -/
abbrev CAM_U_CNT2 : Fld := ⟨0xc010b8, 1024, 0, 0, 0, 32⟩
abbrev CAM_U_CNT2_SHORT : Fld := ⟨0xc010b8, 1024, 0, 0, 0, 16⟩
abbrev CAM_U_CNT2_LONG : Fld := ⟨0xc010b8, 1024, 0, 0, 16, 16⟩
/-- Register CAM_U_CNT3 (R313), the whole word. -/
abbrev CAM_U_CNT3 : Fld := ⟨0xc010bc, 1024, 0, 0, 0, 32⟩
abbrev CAM_U_CNT3_DROP : Fld := ⟨0xc010bc, 1024, 0, 0, 0, 8⟩
abbrev CAM_U_CNT3_SKIP : Fld := ⟨0xc010bc, 1024, 0, 0, 8, 8⟩
abbrev CAM_U_CNT3_CORRUPT : Fld := ⟨0xc010bc, 1024, 0, 0, 16, 16⟩
/-- Register CAM_U_SET_LO (R313), the whole word. -/
abbrev CAM_U_SET_LO : Fld := ⟨0xc010d0, 1024, 0, 0, 0, 32⟩
abbrev CAM_U_SET_LO_ADDR : Fld := ⟨0xc010d0, 1024, 0, 0, 0, 32⟩
/-- Register CAM_U_SET_HI (R313), the whole word. -/
abbrev CAM_U_SET_HI : Fld := ⟨0xc010d4, 1024, 0, 0, 0, 32⟩
abbrev CAM_U_SET_HI_ADDR : Fld := ⟨0xc010d4, 1024, 0, 0, 0, 32⟩
/-- Register CAM_U_SET_CMD (R313), the whole word. -/
abbrev CAM_U_SET_CMD : Fld := ⟨0xc010d8, 1024, 0, 0, 0, 32⟩
abbrev CAM_U_SET_CMD_COMMIT : Fld := ⟨0xc010d8, 1024, 0, 0, 0, 1⟩
/-- Register CAM_U_SET_STAT (R313), the whole word. -/
abbrev CAM_U_SET_STAT : Fld := ⟨0xc010dc, 1024, 0, 0, 0, 32⟩
abbrev CAM_U_SET_STAT_BUSY : Fld := ⟨0xc010dc, 1024, 0, 0, 0, 1⟩
abbrev CAM_U_SET_STAT_PENDING : Fld := ⟨0xc010dc, 1024, 0, 0, 1, 1⟩
abbrev CAM_U_SET_STAT_READ : Fld := ⟨0xc010dc, 1024, 0, 0, 2, 1⟩
abbrev CAM_U_SET_STAT_RESULT : Fld := ⟨0xc010dc, 1024, 0, 0, 3, 3⟩
abbrev CAM_U_SET_STAT_NUM : Fld := ⟨0xc010dc, 1024, 0, 0, 16, 16⟩
/-- Register CAM_U_SET_LAT (R313), the whole word. -/
abbrev CAM_U_SET_LAT : Fld := ⟨0xc010e0, 1024, 0, 0, 0, 32⟩
abbrev CAM_U_SET_LAT_LAT_US : Fld := ⟨0xc010e0, 1024, 0, 0, 0, 24⟩
abbrev CAM_U_SET_LAT_LAT_FRAMES : Fld := ⟨0xc010e0, 1024, 0, 0, 24, 4⟩
/-- Register CAM_U_CTRL_ADDR (R313), the whole word. -/
abbrev CAM_U_CTRL_ADDR : Fld := ⟨0xc010f0, 1024, 0, 0, 0, 32⟩
abbrev CAM_U_CTRL_ADDR_ADDR : Fld := ⟨0xc010f0, 1024, 0, 0, 0, 32⟩
/-- Register CAM_U_CTRL_DATA (R313), the whole word. -/
abbrev CAM_U_CTRL_DATA : Fld := ⟨0xc010f4, 1024, 0, 0, 0, 32⟩
abbrev CAM_U_CTRL_DATA_DATA : Fld := ⟨0xc010f4, 1024, 0, 0, 0, 32⟩
/-- Register CAM_U_CTRL_CMD (R313), the whole word. -/
abbrev CAM_U_CTRL_CMD : Fld := ⟨0xc010f8, 1024, 0, 0, 0, 32⟩
abbrev CAM_U_CTRL_CMD_GO : Fld := ⟨0xc010f8, 1024, 0, 0, 0, 1⟩
abbrev CAM_U_CTRL_CMD_WRITE : Fld := ⟨0xc010f8, 1024, 0, 0, 1, 1⟩
abbrev CAM_U_CTRL_CMD_KIND : Fld := ⟨0xc010f8, 1024, 0, 0, 2, 2⟩
abbrev CAM_U_CTRL_CMD_SIZE : Fld := ⟨0xc010f8, 1024, 0, 0, 4, 3⟩
abbrev CAM_U_CTRL_CMD_DEV : Fld := ⟨0xc010f8, 1024, 0, 0, 8, 7⟩
/-- Register CAM_U_CTRL_STAT (R313), the whole word. -/
abbrev CAM_U_CTRL_STAT : Fld := ⟨0xc010fc, 1024, 0, 0, 0, 32⟩
abbrev CAM_U_CTRL_STAT_BUSY : Fld := ⟨0xc010fc, 1024, 0, 0, 0, 1⟩
abbrev CAM_U_CTRL_STAT_RESULT : Fld := ⟨0xc010fc, 1024, 0, 0, 1, 2⟩
abbrev CAM_U_CTRL_STAT_CTRL_TMO : Fld := ⟨0xc010fc, 1024, 0, 0, 16, 16⟩
/-- Register CAM_U_BLACK0 (R313), the whole word. -/
abbrev CAM_U_BLACK0 : Fld := ⟨0xc01140, 1024, 0, 0, 0, 32⟩
abbrev CAM_U_BLACK0_BLACK_R : Fld := ⟨0xc01140, 1024, 0, 0, 0, 16⟩
abbrev CAM_U_BLACK0_BLACK_G : Fld := ⟨0xc01140, 1024, 0, 0, 16, 16⟩
/-- Register CAM_U_BLACK1 (R313), the whole word. -/
abbrev CAM_U_BLACK1 : Fld := ⟨0xc01144, 1024, 0, 0, 0, 32⟩
abbrev CAM_U_BLACK1_BLACK_B : Fld := ⟨0xc01144, 1024, 0, 0, 0, 16⟩
/-- Register CAM_U_DEFECT_LO (R313), the whole word. -/
abbrev CAM_U_DEFECT_LO : Fld := ⟨0xc01148, 1024, 0, 0, 0, 32⟩
abbrev CAM_U_DEFECT_LO_DEFECT : Fld := ⟨0xc01148, 1024, 0, 0, 0, 32⟩
/-- Register CAM_U_DEFECT_HI (R313), the whole word. -/
abbrev CAM_U_DEFECT_HI : Fld := ⟨0xc0114c, 1024, 0, 0, 0, 32⟩
abbrev CAM_U_DEFECT_HI_DEFECT : Fld := ⟨0xc0114c, 1024, 0, 0, 0, 32⟩
/-- Register CAM_U_DEFECT_CFG (R313), the whole word. -/
abbrev CAM_U_DEFECT_CFG : Fld := ⟨0xc01150, 1024, 0, 0, 0, 32⟩
abbrev CAM_U_DEFECT_CFG_NDEF : Fld := ⟨0xc01150, 1024, 0, 0, 0, 11⟩
abbrev CAM_U_DEFECT_CFG_DP_THRESH : Fld := ⟨0xc01150, 1024, 0, 0, 16, 16⟩
/-- Register CAM_U_DLY (R313), the whole word. -/
abbrev CAM_U_DLY : Fld := ⟨0xc01154, 1024, 0, 0, 0, 32⟩
abbrev CAM_U_DLY_DLY_R : Fld := ⟨0xc01154, 1024, 0, 0, 0, 6⟩
abbrev CAM_U_DLY_DLY_G : Fld := ⟨0xc01154, 1024, 0, 0, 8, 6⟩
abbrev CAM_U_DLY_DLY_B : Fld := ⟨0xc01154, 1024, 0, 0, 16, 6⟩
/-- Register CAM_U_FLAT_LO (R313), the whole word. -/
abbrev CAM_U_FLAT_LO : Fld := ⟨0xc01158, 1024, 0, 0, 0, 32⟩
abbrev CAM_U_FLAT_LO_FLAT : Fld := ⟨0xc01158, 1024, 0, 0, 0, 32⟩
/-- Register CAM_U_FLAT_HI (R313), the whole word. -/
abbrev CAM_U_FLAT_HI : Fld := ⟨0xc0115c, 1024, 0, 0, 0, 32⟩
abbrev CAM_U_FLAT_HI_FLAT : Fld := ⟨0xc0115c, 1024, 0, 0, 0, 32⟩
/-- Register CAM_U_ILLUM0 (R313), the whole word. -/
abbrev CAM_U_ILLUM0 : Fld := ⟨0xc01160, 1024, 0, 0, 0, 32⟩
abbrev CAM_U_ILLUM0_ILLUM_R : Fld := ⟨0xc01160, 1024, 0, 0, 0, 16⟩
abbrev CAM_U_ILLUM0_ILLUM_G : Fld := ⟨0xc01160, 1024, 0, 0, 16, 16⟩
/-- Register CAM_U_ILLUM1 (R313), the whole word. -/
abbrev CAM_U_ILLUM1 : Fld := ⟨0xc01164, 1024, 0, 0, 0, 32⟩
abbrev CAM_U_ILLUM1_ILLUM_B : Fld := ⟨0xc01164, 1024, 0, 0, 0, 16⟩
/-- Register CAM_U_WB0 (R313), the whole word. -/
abbrev CAM_U_WB0 : Fld := ⟨0xc01168, 1024, 0, 0, 0, 32⟩
abbrev CAM_U_WB0_WB_R : Fld := ⟨0xc01168, 1024, 0, 0, 0, 16⟩
abbrev CAM_U_WB0_WB_G : Fld := ⟨0xc01168, 1024, 0, 0, 16, 16⟩
/-- Register CAM_U_WB1 (R313), the whole word. -/
abbrev CAM_U_WB1 : Fld := ⟨0xc0116c, 1024, 0, 0, 0, 32⟩
abbrev CAM_U_WB1_WB_B : Fld := ⟨0xc0116c, 1024, 0, 0, 0, 16⟩
/-- Register CAM_U_M0 (R313), the whole word. -/
abbrev CAM_U_M0 : Fld := ⟨0xc01170, 1024, 0, 0, 0, 32⟩
abbrev CAM_U_M0_M00 : Fld := ⟨0xc01170, 1024, 0, 0, 0, 16⟩
abbrev CAM_U_M0_M01 : Fld := ⟨0xc01170, 1024, 0, 0, 16, 16⟩
/-- Register CAM_U_M1 (R313), the whole word. -/
abbrev CAM_U_M1 : Fld := ⟨0xc01174, 1024, 0, 0, 0, 32⟩
abbrev CAM_U_M1_M02 : Fld := ⟨0xc01174, 1024, 0, 0, 0, 16⟩
abbrev CAM_U_M1_M10 : Fld := ⟨0xc01174, 1024, 0, 0, 16, 16⟩
/-- Register CAM_U_M2 (R313), the whole word. -/
abbrev CAM_U_M2 : Fld := ⟨0xc01178, 1024, 0, 0, 0, 32⟩
abbrev CAM_U_M2_M11 : Fld := ⟨0xc01178, 1024, 0, 0, 0, 16⟩
abbrev CAM_U_M2_M12 : Fld := ⟨0xc01178, 1024, 0, 0, 16, 16⟩
/-- Register CAM_U_M3 (R313), the whole word. -/
abbrev CAM_U_M3 : Fld := ⟨0xc0117c, 1024, 0, 0, 0, 32⟩
abbrev CAM_U_M3_M20 : Fld := ⟨0xc0117c, 1024, 0, 0, 0, 16⟩
abbrev CAM_U_M3_M21 : Fld := ⟨0xc0117c, 1024, 0, 0, 16, 16⟩
/-- Register CAM_U_M4 (R313), the whole word. -/
abbrev CAM_U_M4 : Fld := ⟨0xc01180, 1024, 0, 0, 0, 32⟩
abbrev CAM_U_M4_M22 : Fld := ⟨0xc01180, 1024, 0, 0, 0, 16⟩
/-- Register CAM_U_OFF0 (R313), the whole word. -/
abbrev CAM_U_OFF0 : Fld := ⟨0xc01184, 1024, 0, 0, 0, 32⟩
abbrev CAM_U_OFF0_OFF_0 : Fld := ⟨0xc01184, 1024, 0, 0, 0, 16⟩
abbrev CAM_U_OFF0_OFF_1 : Fld := ⟨0xc01184, 1024, 0, 0, 16, 16⟩
/-- Register CAM_U_OFF1 (R313), the whole word. -/
abbrev CAM_U_OFF1 : Fld := ⟨0xc01188, 1024, 0, 0, 0, 32⟩
abbrev CAM_U_OFF1_OFF_2 : Fld := ⟨0xc01188, 1024, 0, 0, 0, 16⟩
/-- Register CAM_U_TONE_LO (R313), the whole word. -/
abbrev CAM_U_TONE_LO : Fld := ⟨0xc0118c, 1024, 0, 0, 0, 32⟩
abbrev CAM_U_TONE_LO_TONE : Fld := ⟨0xc0118c, 1024, 0, 0, 0, 32⟩
/-- Register CAM_U_TONE_HI (R313), the whole word. -/
abbrev CAM_U_TONE_HI : Fld := ⟨0xc01190, 1024, 0, 0, 0, 32⟩
abbrev CAM_U_TONE_HI_TONE : Fld := ⟨0xc01190, 1024, 0, 0, 0, 32⟩
/-- Register CAM_U_WHITE (R313), the whole word. -/
abbrev CAM_U_WHITE : Fld := ⟨0xc01194, 1024, 0, 0, 0, 32⟩
abbrev CAM_U_WHITE_WHITE : Fld := ⟨0xc01194, 1024, 0, 0, 0, 16⟩
/-- Register CAM_U_STATS_CFG (R313), the whole word. -/
abbrev CAM_U_STATS_CFG : Fld := ⟨0xc01198, 1024, 0, 0, 0, 32⟩
abbrev CAM_U_STATS_CFG_NZX : Fld := ⟨0xc01198, 1024, 0, 0, 0, 7⟩
abbrev CAM_U_STATS_CFG_NZY : Fld := ⟨0xc01198, 1024, 0, 0, 8, 4⟩
abbrev CAM_U_STATS_CFG_SAT : Fld := ⟨0xc01198, 1024, 0, 0, 16, 16⟩
/-- Register CAM_U_STATS_WIN (R313), the whole word. -/
abbrev CAM_U_STATS_WIN : Fld := ⟨0xc0119c, 1024, 0, 0, 0, 32⟩
abbrev CAM_U_STATS_WIN_X0 : Fld := ⟨0xc0119c, 1024, 0, 0, 0, 16⟩
abbrev CAM_U_STATS_WIN_SW : Fld := ⟨0xc0119c, 1024, 0, 0, 16, 16⟩
/-- Register CAM_K_CTL (R313), the whole word. -/
abbrev CAM_K_CTL : Fld := ⟨0xc01200, 1024, 64, 0, 0, 32⟩
abbrev CAM_K_CTL_EN : Fld := ⟨0xc01200, 1024, 64, 0, 0, 1⟩
abbrev CAM_K_CTL_SRC : Fld := ⟨0xc01200, 1024, 64, 0, 1, 3⟩
abbrev CAM_K_CTL_FMT : Fld := ⟨0xc01200, 1024, 64, 0, 4, 2⟩
/-- Register CAM_K_CROPX (R313), the whole word. -/
abbrev CAM_K_CROPX : Fld := ⟨0xc01204, 1024, 64, 0, 0, 32⟩
abbrev CAM_K_CROPX_X0 : Fld := ⟨0xc01204, 1024, 64, 0, 0, 16⟩
abbrev CAM_K_CROPX_CW : Fld := ⟨0xc01204, 1024, 64, 0, 16, 16⟩
/-- Register CAM_K_CROPY (R313), the whole word. -/
abbrev CAM_K_CROPY : Fld := ⟨0xc01208, 1024, 64, 0, 0, 32⟩
abbrev CAM_K_CROPY_Y0 : Fld := ⟨0xc01208, 1024, 64, 0, 0, 16⟩
abbrev CAM_K_CROPY_CH : Fld := ⟨0xc01208, 1024, 64, 0, 16, 16⟩
/-- Register CAM_K_SCALE (R313), the whole word. -/
abbrev CAM_K_SCALE : Fld := ⟨0xc0120c, 1024, 64, 0, 0, 32⟩
abbrev CAM_K_SCALE_SXF : Fld := ⟨0xc0120c, 1024, 64, 0, 0, 16⟩
abbrev CAM_K_SCALE_SYF : Fld := ⟨0xc0120c, 1024, 64, 0, 16, 16⟩
/-- Register CAM_K_BASE_LO (R313), the whole word. -/
abbrev CAM_K_BASE_LO : Fld := ⟨0xc01210, 1024, 64, 0, 0, 32⟩
abbrev CAM_K_BASE_LO_BASE : Fld := ⟨0xc01210, 1024, 64, 0, 0, 32⟩
/-- Register CAM_K_BASE_HI (R313), the whole word. -/
abbrev CAM_K_BASE_HI : Fld := ⟨0xc01214, 1024, 64, 0, 0, 32⟩
abbrev CAM_K_BASE_HI_BASE : Fld := ⟨0xc01214, 1024, 64, 0, 0, 32⟩
/-- Register CAM_K_STRIDE (R313), the whole word. -/
abbrev CAM_K_STRIDE : Fld := ⟨0xc01218, 1024, 64, 0, 0, 32⟩
abbrev CAM_K_STRIDE_STRIDE : Fld := ⟨0xc01218, 1024, 64, 0, 0, 32⟩
/-- Register CAM_K_SLOT (R313), the whole word. -/
abbrev CAM_K_SLOT : Fld := ⟨0xc0121c, 1024, 64, 0, 0, 32⟩
abbrev CAM_K_SLOT_SLOT : Fld := ⟨0xc0121c, 1024, 64, 0, 0, 32⟩
/-- Register CAM_K_DEPTH (R313), the whole word. -/
abbrev CAM_K_DEPTH : Fld := ⟨0xc01220, 1024, 64, 0, 0, 32⟩
abbrev CAM_K_DEPTH_DEPTH : Fld := ⟨0xc01220, 1024, 64, 0, 0, 8⟩
/-- Register CAM_K_RD (R313), the whole word. -/
abbrev CAM_K_RD : Fld := ⟨0xc01224, 1024, 64, 0, 0, 32⟩
abbrev CAM_K_RD_RD : Fld := ⟨0xc01224, 1024, 64, 0, 0, 32⟩
/-- Register PIX_NH_TH (R341), the whole word. -/
abbrev PIX_NH_TH : Fld := ⟨0xd00000, 0, 0, 0, 0, 32⟩
abbrev PIX_NH_TH_OK_TH : Fld := ⟨0xd00000, 0, 0, 0, 0, 8⟩
abbrev PIX_NH_TH_WEAK_TH : Fld := ⟨0xd00000, 0, 0, 0, 8, 8⟩
abbrev PIX_NH_TH_DEAD_TH : Fld := ⟨0xd00000, 0, 0, 0, 16, 8⟩
abbrev PIX_NH_TH_STRIP_MIN : Fld := ⟨0xd00000, 0, 0, 0, 24, 8⟩
/-- Register PIX_SOLO (R341), the whole word. -/
abbrev PIX_SOLO : Fld := ⟨0xd00004, 0, 0, 0, 0, 32⟩
abbrev PIX_SOLO_SOLO_MAX : Fld := ⟨0xd00004, 0, 0, 0, 0, 8⟩
/-- Register PIX_ZR_LO (R341), the whole word. -/
abbrev PIX_ZR_LO : Fld := ⟨0xd00010, 0, 0, 0, 0, 32⟩
abbrev PIX_ZR_LO_ADDR : Fld := ⟨0xd00010, 0, 0, 0, 0, 32⟩
/-- Register PIX_ZR_HI (R341), the whole word. -/
abbrev PIX_ZR_HI : Fld := ⟨0xd00014, 0, 0, 0, 0, 32⟩
abbrev PIX_ZR_HI_ADDR : Fld := ⟨0xd00014, 0, 0, 0, 0, 32⟩
/-- Register PIX_ZR_CFG (R341), the whole word. -/
abbrev PIX_ZR_CFG : Fld := ⟨0xd00018, 0, 0, 0, 0, 32⟩
abbrev PIX_ZR_CFG_DEPTH : Fld := ⟨0xd00018, 0, 0, 0, 0, 8⟩
/-- Register PIX_ZR_WR (R341), the whole word. -/
abbrev PIX_ZR_WR : Fld := ⟨0xd0001c, 0, 0, 0, 0, 32⟩
abbrev PIX_ZR_WR_WR : Fld := ⟨0xd0001c, 0, 0, 0, 0, 32⟩
/-- Register PIX_NC_LO (R341), the whole word. -/
abbrev PIX_NC_LO : Fld := ⟨0xd00020, 0, 0, 0, 0, 32⟩
abbrev PIX_NC_LO_ADDR : Fld := ⟨0xd00020, 0, 0, 0, 0, 32⟩
/-- Register PIX_NC_HI (R341), the whole word. -/
abbrev PIX_NC_HI : Fld := ⟨0xd00024, 0, 0, 0, 0, 32⟩
abbrev PIX_NC_HI_ADDR : Fld := ⟨0xd00024, 0, 0, 0, 0, 32⟩
/-- Register PIX_NC_CFG (R341), the whole word. -/
abbrev PIX_NC_CFG : Fld := ⟨0xd00028, 0, 0, 0, 0, 32⟩
abbrev PIX_NC_CFG_DEPTH : Fld := ⟨0xd00028, 0, 0, 0, 0, 16⟩
/-- Register PIX_NC_WR (R341), the whole word. -/
abbrev PIX_NC_WR : Fld := ⟨0xd0002c, 0, 0, 0, 0, 32⟩
abbrev PIX_NC_WR_WR : Fld := ⟨0xd0002c, 0, 0, 0, 0, 32⟩
/-- Register PIX_TASK (R341), the whole word. -/
abbrev PIX_TASK : Fld := ⟨0xd00100, 32, 0, 0, 0, 32⟩
abbrev PIX_TASK_KIND : Fld := ⟨0xd00100, 32, 0, 0, 0, 2⟩
abbrev PIX_TASK_UNIT : Fld := ⟨0xd00100, 32, 0, 0, 2, 3⟩
abbrev PIX_TASK_STREAM : Fld := ⟨0xd00100, 32, 0, 0, 5, 3⟩
abbrev PIX_TASK_MASK : Fld := ⟨0xd00100, 32, 0, 0, 8, 16⟩
/-- Register PIX_TASK_SEQ (R341), the whole word. -/
abbrev PIX_TASK_SEQ : Fld := ⟨0xd00104, 32, 0, 0, 0, 32⟩
abbrev PIX_TASK_SEQ_SEQ : Fld := ⟨0xd00104, 32, 0, 0, 0, 32⟩
/-- Register PIX_TASK_STAT (R341), the whole word. -/
abbrev PIX_TASK_STAT : Fld := ⟨0xd00108, 32, 0, 0, 0, 32⟩
abbrev PIX_TASK_STAT_TIME : Fld := ⟨0xd00108, 32, 0, 0, 0, 16⟩
abbrev PIX_TASK_STAT_SKIP : Fld := ⟨0xd00108, 32, 0, 0, 16, 16⟩
/-- Register PIX_MAP_CX0 (R341), the whole word. -/
abbrev PIX_MAP_CX0 : Fld := ⟨0xd00400, 32, 0, 0, 0, 32⟩
abbrev PIX_MAP_CX0_CX0 : Fld := ⟨0xd00400, 32, 0, 0, 0, 32⟩
/-- Register PIX_MAP_CXS (R341), the whole word. -/
abbrev PIX_MAP_CXS : Fld := ⟨0xd00404, 32, 0, 0, 0, 32⟩
abbrev PIX_MAP_CXS_CXS : Fld := ⟨0xd00404, 32, 0, 0, 0, 32⟩
/-- Register PIX_MAP_DY (R341), the whole word. -/
abbrev PIX_MAP_DY : Fld := ⟨0xd00408, 32, 0, 0, 0, 32⟩
abbrev PIX_MAP_DY_DY : Fld := ⟨0xd00408, 32, 0, 0, 0, 32⟩
/-- Register PIX_STRIP_OFF (R341), the whole word. -/
abbrev PIX_STRIP_OFF : Fld := ⟨0xd0040c, 32, 0, 0, 0, 32⟩
abbrev PIX_STRIP_OFF_OFF : Fld := ⟨0xd0040c, 32, 0, 0, 0, 20⟩
/-- Register PIX_STRIP_CFG (R341), the whole word. -/
abbrev PIX_STRIP_CFG : Fld := ⟨0xd00410, 32, 0, 0, 0, 32⟩
abbrev PIX_STRIP_CFG_LEN : Fld := ⟨0xd00410, 32, 0, 0, 0, 8⟩
abbrev PIX_STRIP_CFG_S : Fld := ⟨0xd00410, 32, 0, 0, 8, 8⟩
abbrev PIX_STRIP_CFG_D : Fld := ⟨0xd00410, 32, 0, 0, 16, 3⟩
/-- Register CHL_CTL (R342), the whole word. -/
abbrev CHL_CTL : Fld := ⟨0xe00000, 0, 0, 0, 0, 32⟩
abbrev CHL_CTL_EN : Fld := ⟨0xe00000, 0, 0, 0, 0, 1⟩
abbrev CHL_CTL_FREEZE : Fld := ⟨0xe00000, 0, 0, 0, 1, 1⟩
abbrev CHL_CTL_NAVG : Fld := ⟨0xe00000, 0, 0, 0, 2, 3⟩
abbrev CHL_CTL_MARGIN : Fld := ⟨0xe00000, 0, 0, 0, 8, 8⟩
/-- Register CHL_SHEAF (R342), the whole word. -/
abbrev CHL_SHEAF : Fld := ⟨0xe00004, 0, 0, 0, 0, 32⟩
abbrev CHL_SHEAF_LAST : Fld := ⟨0xe00004, 0, 0, 0, 0, 3⟩
abbrev CHL_SHEAF_PENDING : Fld := ⟨0xe00004, 0, 0, 0, 3, 1⟩
abbrev CHL_SHEAF_REFUSED : Fld := ⟨0xe00004, 0, 0, 0, 16, 16⟩
/-- Register CHL_SHEAF_REP (R342), the whole word. -/
abbrev CHL_SHEAF_REP : Fld := ⟨0xe00008, 0, 0, 0, 0, 32⟩
abbrev CHL_SHEAF_REP_REPEAT : Fld := ⟨0xe00008, 0, 0, 0, 0, 32⟩
/-- Register CHL_UPDATES (R342), the whole word. -/
abbrev CHL_UPDATES : Fld := ⟨0xe0000c, 0, 0, 0, 0, 32⟩
abbrev CHL_UPDATES_COUNT : Fld := ⟨0xe0000c, 0, 0, 0, 0, 32⟩
/-- Register CHL_NH_CFG (R342), the whole word. -/
abbrev CHL_NH_CFG : Fld := ⟨0xe00020, 0, 0, 0, 0, 32⟩
abbrev CHL_NH_CFG_EN : Fld := ⟨0xe00020, 0, 0, 0, 0, 1⟩
abbrev CHL_NH_CFG_FAST : Fld := ⟨0xe00020, 0, 0, 0, 1, 1⟩
abbrev CHL_NH_CFG_NCONF : Fld := ⟨0xe00020, 0, 0, 0, 2, 4⟩
abbrev CHL_NH_CFG_NREC : Fld := ⟨0xe00020, 0, 0, 0, 6, 4⟩
abbrev CHL_NH_CFG_MAXCHG : Fld := ⟨0xe00020, 0, 0, 0, 10, 8⟩
abbrev CHL_NH_CFG_MAXDEAD : Fld := ⟨0xe00020, 0, 0, 0, 18, 14⟩
/-- Register CHL_NH_CNT (R342), the whole word. -/
abbrev CHL_NH_CNT : Fld := ⟨0xe00024, 0, 0, 0, 0, 32⟩
abbrev CHL_NH_CNT_MARKED : Fld := ⟨0xe00024, 0, 0, 0, 0, 16⟩
abbrev CHL_NH_CNT_RESTORED : Fld := ⟨0xe00024, 0, 0, 0, 16, 16⟩
/-- Register CHL_NH_STRIPS (R342), the whole word. -/
abbrev CHL_NH_STRIPS : Fld := ⟨0xe00028, 0, 0, 0, 0, 32⟩
abbrev CHL_NH_STRIPS_SUSPECT : Fld := ⟨0xe00028, 0, 0, 0, 0, 16⟩
abbrev CHL_NH_STRIPS_BAD : Fld := ⟨0xe00028, 0, 0, 0, 16, 16⟩
/-- Register CHL_CH_CTL (R342), the whole word. -/
abbrev CHL_CH_CTL : Fld := ⟨0xe00100, 64, 0, 0, 0, 32⟩
abbrev CHL_CH_CTL_EN : Fld := ⟨0xe00100, 64, 0, 0, 0, 1⟩
abbrev CHL_CH_CTL_CAPTURE : Fld := ⟨0xe00100, 64, 0, 0, 1, 1⟩
abbrev CHL_CH_CTL_UNIT : Fld := ⟨0xe00100, 64, 0, 0, 2, 3⟩
abbrev CHL_CH_CTL_NCAP : Fld := ⟨0xe00100, 64, 0, 0, 8, 8⟩
/-- Register CHL_CH_STAT (R342), the whole word. -/
abbrev CHL_CH_STAT : Fld := ⟨0xe00104, 64, 0, 0, 0, 32⟩
abbrev CHL_CH_STAT_STATE : Fld := ⟨0xe00104, 64, 0, 0, 0, 3⟩
abbrev CHL_CH_STAT_CAUSE : Fld := ⟨0xe00104, 64, 0, 0, 8, 8⟩
abbrev CHL_CH_STAT_CLAMPS : Fld := ⟨0xe00104, 64, 0, 0, 16, 16⟩
/-- Register CHL_CH_GAIN (R342), the whole word. -/
abbrev CHL_CH_GAIN : Fld := ⟨0xe00108, 64, 0, 0, 0, 32⟩
abbrev CHL_CH_GAIN_GAIN : Fld := ⟨0xe00108, 64, 0, 0, 0, 10⟩
abbrev CHL_CH_GAIN_DEADBAND : Fld := ⟨0xe00108, 64, 0, 0, 16, 16⟩
/-- Register CHL_CH_CLAMP (R342), the whole word. -/
abbrev CHL_CH_CLAMP : Fld := ⟨0xe0010c, 64, 0, 0, 0, 32⟩
abbrev CHL_CH_CLAMP_STEP_MAX : Fld := ⟨0xe0010c, 64, 0, 0, 0, 16⟩
abbrev CHL_CH_CLAMP_TOT_MAX : Fld := ⟨0xe0010c, 64, 0, 0, 16, 16⟩
/-- Register CHL_CH_LIM (R342), the whole word. -/
abbrev CHL_CH_LIM : Fld := ⟨0xe00110, 64, 0, 0, 0, 32⟩
abbrev CHL_CH_LIM_MINCNT : Fld := ⟨0xe00110, 64, 0, 0, 0, 16⟩
abbrev CHL_CH_LIM_SLOPE_MIN : Fld := ⟨0xe00110, 64, 0, 0, 16, 16⟩
/-- Register CHL_CH_TGT_LO (R342), the whole word. -/
abbrev CHL_CH_TGT_LO : Fld := ⟨0xe00114, 64, 0, 0, 0, 32⟩
abbrev CHL_CH_TGT_LO_ADDR : Fld := ⟨0xe00114, 64, 0, 0, 0, 32⟩
/-- Register CHL_CH_TGT_HI (R342), the whole word. -/
abbrev CHL_CH_TGT_HI : Fld := ⟨0xe00118, 64, 0, 0, 0, 32⟩
abbrev CHL_CH_TGT_HI_ADDR : Fld := ⟨0xe00118, 64, 0, 0, 0, 32⟩
/-- Register CHL_CH_BUF_LO (R342), the whole word. -/
abbrev CHL_CH_BUF_LO : Fld := ⟨0xe0011c, 64, 0, 0, 0, 32⟩
abbrev CHL_CH_BUF_LO_ADDR : Fld := ⟨0xe0011c, 64, 0, 0, 0, 32⟩
/-- Register CHL_CH_BUF_HI (R342), the whole word. -/
abbrev CHL_CH_BUF_HI : Fld := ⟨0xe00120, 64, 0, 0, 0, 32⟩
abbrev CHL_CH_BUF_HI_ADDR : Fld := ⟨0xe00120, 64, 0, 0, 0, 32⟩
/-- Register CHL_CH_CUR_LO (R342), the whole word. -/
abbrev CHL_CH_CUR_LO : Fld := ⟨0xe00124, 64, 0, 0, 0, 32⟩
abbrev CHL_CH_CUR_LO_ADDR : Fld := ⟨0xe00124, 64, 0, 0, 0, 32⟩
/-- Register CHL_CH_CUR_HI (R342), the whole word. -/
abbrev CHL_CH_CUR_HI : Fld := ⟨0xe00128, 64, 0, 0, 0, 32⟩
abbrev CHL_CH_CUR_HI_ADDR : Fld := ⟨0xe00128, 64, 0, 0, 0, 32⟩
/-- Register CHL_CH_APPLIED (R342), the whole word. -/
abbrev CHL_CH_APPLIED : Fld := ⟨0xe0012c, 64, 0, 0, 0, 32⟩
abbrev CHL_CH_APPLIED_REPEAT : Fld := ⟨0xe0012c, 64, 0, 0, 0, 32⟩
/-- Register CHL_CH_JUDGED (R342), the whole word. -/
abbrev CHL_CH_JUDGED : Fld := ⟨0xe00130, 64, 0, 0, 0, 32⟩
abbrev CHL_CH_JUDGED_REPEAT : Fld := ⟨0xe00130, 64, 0, 0, 0, 32⟩
/-- Register CHL_CH_DE (R342), the whole word. -/
abbrev CHL_CH_DE : Fld := ⟨0xe00134, 64, 0, 0, 0, 32⟩
abbrev CHL_CH_DE_MEAN : Fld := ⟨0xe00134, 64, 0, 0, 0, 16⟩
abbrev CHL_CH_DE_MAX : Fld := ⟨0xe00134, 64, 0, 0, 16, 16⟩
/-- Register CHL_CAL_CMD (R342), the whole word. -/
abbrev CHL_CAL_CMD : Fld := ⟨0xe01000, 0, 0, 0, 0, 32⟩
abbrev CHL_CAL_CMD_GO : Fld := ⟨0xe01000, 0, 0, 0, 0, 1⟩
abbrev CHL_CAL_CMD_ABORT : Fld := ⟨0xe01000, 0, 0, 0, 1, 1⟩
abbrev CHL_CAL_CMD_KIND : Fld := ⟨0xe01000, 0, 0, 0, 2, 1⟩
abbrev CHL_CAL_CMD_UNIT : Fld := ⟨0xe01000, 0, 0, 0, 3, 3⟩
/-- Register CHL_CAL_STAT (R342), the whole word. -/
abbrev CHL_CAL_STAT : Fld := ⟨0xe01004, 0, 0, 0, 0, 32⟩
abbrev CHL_CAL_STAT_BUSY : Fld := ⟨0xe01004, 0, 0, 0, 0, 1⟩
abbrev CHL_CAL_STAT_RESULT : Fld := ⟨0xe01004, 0, 0, 0, 1, 3⟩
abbrev CHL_CAL_STAT_COUNT : Fld := ⟨0xe01004, 0, 0, 0, 16, 16⟩
/-- Register CHL_CAL_TILE_LO (R342), the whole word. -/
abbrev CHL_CAL_TILE_LO : Fld := ⟨0xe01008, 0, 0, 0, 0, 32⟩
abbrev CHL_CAL_TILE_LO_ADDR : Fld := ⟨0xe01008, 0, 0, 0, 0, 32⟩
/-- Register CHL_CAL_TILE_HI (R342), the whole word. -/
abbrev CHL_CAL_TILE_HI : Fld := ⟨0xe0100c, 0, 0, 0, 0, 32⟩
abbrev CHL_CAL_TILE_HI_ADDR : Fld := ⟨0xe0100c, 0, 0, 0, 0, 32⟩
/-- Register CHL_CAL_LIMIT (R342), the whole word. -/
abbrev CHL_CAL_LIMIT : Fld := ⟨0xe01010, 0, 0, 0, 0, 32⟩
abbrev CHL_CAL_LIMIT_MEAN_MAX : Fld := ⟨0xe01010, 0, 0, 0, 0, 16⟩
abbrev CHL_CAL_LIMIT_MAX_MAX : Fld := ⟨0xe01010, 0, 0, 0, 16, 16⟩
/-- Register CHL_CAL_DE (R342), the whole word. -/
abbrev CHL_CAL_DE : Fld := ⟨0xe01014, 0, 0, 0, 0, 32⟩
abbrev CHL_CAL_DE_MEAN : Fld := ⟨0xe01014, 0, 0, 0, 0, 16⟩
abbrev CHL_CAL_DE_MAX : Fld := ⟨0xe01014, 0, 0, 0, 16, 16⟩
/-- Register CHL_CAL_TIME (R342), the whole word. -/
abbrev CHL_CAL_TIME : Fld := ⟨0xe01018, 0, 0, 0, 0, 32⟩
abbrev CHL_CAL_TIME_SECONDS : Fld := ⟨0xe01018, 0, 0, 0, 0, 32⟩
/-- Register CHL_CAL_MAXAGE (R342), the whole word. -/
abbrev CHL_CAL_MAXAGE : Fld := ⟨0xe0101c, 0, 0, 0, 0, 32⟩
abbrev CHL_CAL_MAXAGE_DAYS : Fld := ⟨0xe0101c, 0, 0, 0, 0, 16⟩
abbrev CHL_CAL_MAXAGE_FLATLINES : Fld := ⟨0xe0101c, 0, 0, 0, 16, 16⟩
/-- Register LMP_STAT (R358), the whole word. -/
abbrev LMP_STAT : Fld := ⟨0xe80000, 0, 0, 0, 0, 32⟩
abbrev LMP_STAT_CFG_ERR : Fld := ⟨0xe80000, 0, 0, 0, 0, 1⟩
/-- Register SWC_CFG (R358), the whole word. -/
abbrev SWC_CFG : Fld := ⟨0xe80010, 0, 0, 0, 0, 32⟩
abbrev SWC_CFG_VMAX : Fld := ⟨0xe80010, 0, 0, 0, 0, 8⟩
abbrev SWC_CFG_HEADROOM : Fld := ⟨0xe80010, 0, 0, 0, 8, 8⟩
abbrev SWC_CFG_FSW : Fld := ⟨0xe80010, 0, 0, 0, 16, 4⟩
abbrev SWC_CFG_SHORT_V : Fld := ⟨0xe80010, 0, 0, 0, 20, 8⟩
/-- Register SWC_FBDIV (R358), the whole word. -/
abbrev SWC_FBDIV : Fld := ⟨0xe80014, 0, 0, 0, 0, 32⟩
abbrev SWC_FBDIV_FBDIV : Fld := ⟨0xe80014, 0, 0, 0, 0, 16⟩
/-- Register SWC_STAT (R358), the whole word. -/
abbrev SWC_STAT : Fld := ⟨0xe80018, 0, 0, 0, 0, 32⟩
abbrev SWC_STAT_VOUT : Fld := ⟨0xe80018, 0, 0, 0, 0, 14⟩
abbrev SWC_STAT_LIMIT : Fld := ⟨0xe80018, 0, 0, 0, 14, 1⟩
abbrev SWC_STAT_LATCHED : Fld := ⟨0xe80018, 0, 0, 0, 15, 1⟩
abbrev SWC_STAT_OVP_CNT : Fld := ⟨0xe80018, 0, 0, 0, 16, 16⟩
/-- Register LS_CFG (R358), the whole word. -/
abbrev LS_CFG : Fld := ⟨0xe80100, 32, 0, 0, 0, 32⟩
abbrev LS_CFG_EN : Fld := ⟨0xe80100, 32, 0, 0, 0, 1⟩
abbrev LS_CFG_MODE : Fld := ⟨0xe80100, 32, 0, 0, 1, 1⟩
abbrev LS_CFG_BITS : Fld := ⟨0xe80100, 32, 0, 0, 2, 5⟩
abbrev LS_CFG_GRP : Fld := ⟨0xe80100, 32, 0, 0, 7, 3⟩
abbrev LS_CFG_CLR : Fld := ⟨0xe80100, 32, 0, 0, 10, 2⟩
abbrev LS_CFG_UNIT : Fld := ⟨0xe80100, 32, 0, 0, 12, 3⟩
abbrev LS_CFG_TS : Fld := ⟨0xe80100, 32, 0, 0, 15, 5⟩
abbrev LS_CFG_TS_EN : Fld := ⟨0xe80100, 32, 0, 0, 20, 1⟩
/-- Register LS_ISET (R358), the whole word. -/
abbrev LS_ISET : Fld := ⟨0xe80104, 32, 0, 0, 0, 32⟩
abbrev LS_ISET_ISET : Fld := ⟨0xe80104, 32, 0, 0, 0, 11⟩
abbrev LS_ISET_RSENSE : Fld := ⟨0xe80104, 32, 0, 0, 16, 16⟩
/-- Register LS_DUTY (R358), the whole word. -/
abbrev LS_DUTY : Fld := ⟨0xe80108, 32, 0, 0, 0, 32⟩
abbrev LS_DUTY_DUTY : Fld := ⟨0xe80108, 32, 0, 0, 0, 17⟩
abbrev LS_DUTY_DIV : Fld := ⟨0xe80108, 32, 0, 0, 17, 15⟩
/-- Register LS_PHASE (R358), the whole word. -/
abbrev LS_PHASE : Fld := ⟨0xe8010c, 32, 0, 0, 0, 32⟩
abbrev LS_PHASE_PHASE : Fld := ⟨0xe8010c, 32, 0, 0, 0, 32⟩
/-- Register LS_TSHUT (R358), the whole word. -/
abbrev LS_TSHUT : Fld := ⟨0xe80110, 32, 0, 0, 0, 32⟩
abbrev LS_TSHUT_TSHUT : Fld := ⟨0xe80110, 32, 0, 0, 0, 8⟩
abbrev LS_TSHUT_HYS : Fld := ⟨0xe80110, 32, 0, 0, 8, 8⟩
/-- Register LS_STAT (R358), the whole word. -/
abbrev LS_STAT : Fld := ⟨0xe80114, 32, 0, 0, 0, 32⟩
abbrev LS_STAT_STATE : Fld := ⟨0xe80114, 32, 0, 0, 0, 3⟩
abbrev LS_STAT_DIM : Fld := ⟨0xe80114, 32, 0, 0, 3, 1⟩
abbrev LS_STAT_CLAMP : Fld := ⟨0xe80114, 32, 0, 0, 4, 1⟩
abbrev LS_STAT_VDS : Fld := ⟨0xe80114, 32, 0, 0, 16, 16⟩
/-- Register LS_MEAS (R358), the whole word. -/
abbrev LS_MEAS : Fld := ⟨0xe80118, 32, 0, 0, 0, 32⟩
abbrev LS_MEAS_I : Fld := ⟨0xe80118, 32, 0, 0, 0, 11⟩
abbrev LS_MEAS_TEMP : Fld := ⟨0xe80118, 32, 0, 0, 16, 16⟩
/-- Register LS_CNT (R358), the whole word. -/
abbrev LS_CNT : Fld := ⟨0xe8011c, 32, 0, 0, 0, 32⟩
abbrev LS_CNT_OPEN : Fld := ⟨0xe8011c, 32, 0, 0, 0, 8⟩
abbrev LS_CNT_SHORT : Fld := ⟨0xe8011c, 32, 0, 0, 8, 8⟩
abbrev LS_CNT_THERMAL : Fld := ⟨0xe8011c, 32, 0, 0, 16, 8⟩
abbrev LS_CNT_LOCK_SHORT : Fld := ⟨0xe8011c, 32, 0, 0, 24, 8⟩
/-- Register LMP_TC (R358), the whole word. -/
abbrev LMP_TC : Fld := ⟨0xe80400, 64, 4, 0, 0, 32⟩
abbrev LMP_TC_GAIN : Fld := ⟨0xe80400, 64, 4, 0, 0, 16⟩
/-- Register LMP_GRP (R358), the whole word. -/
abbrev LMP_GRP : Fld := ⟨0xe80500, 4, 0, 0, 0, 32⟩
abbrev LMP_GRP_ATTACH : Fld := ⟨0xe80500, 4, 0, 0, 0, 1⟩
/-- Register SW_CFG (R358), the whole word. -/
abbrev SW_CFG : Fld := ⟨0xe80600, 32, 0, 0, 0, 32⟩
abbrev SW_CFG_EN : Fld := ⟨0xe80600, 32, 0, 0, 0, 1⟩
abbrev SW_CFG_NODES : Fld := ⟨0xe80600, 32, 0, 0, 1, 11⟩
abbrev SW_CFG_PER : Fld := ⟨0xe80600, 32, 0, 0, 12, 20⟩
/-- Register SW_TIME (R358), the whole word. -/
abbrev SW_TIME : Fld := ⟨0xe80604, 32, 0, 0, 0, 32⟩
abbrev SW_TIME_T0H : Fld := ⟨0xe80604, 32, 0, 0, 0, 8⟩
abbrev SW_TIME_T1H : Fld := ⟨0xe80604, 32, 0, 0, 8, 8⟩
abbrev SW_TIME_TBIT : Fld := ⟨0xe80604, 32, 0, 0, 16, 8⟩
abbrev SW_TIME_TRST : Fld := ⟨0xe80604, 32, 0, 0, 24, 8⟩
/-- Register SW_CMD (R358), the whole word. -/
abbrev SW_CMD : Fld := ⟨0xe80608, 32, 0, 0, 0, 32⟩
abbrev SW_CMD_UPDATE : Fld := ⟨0xe80608, 32, 0, 0, 0, 1⟩
/-- Register SW_STAT (R358), the whole word. -/
abbrev SW_STAT : Fld := ⟨0xe8060c, 32, 0, 0, 0, 32⟩
abbrev SW_STAT_BUSY : Fld := ⟨0xe8060c, 32, 0, 0, 0, 1⟩
abbrev SW_STAT_FRONT : Fld := ⟨0xe8060c, 32, 0, 0, 1, 1⟩
abbrev SW_STAT_FRAMES : Fld := ⟨0xe8060c, 32, 0, 0, 16, 16⟩
/-- Register LB_CFG (R358), the whole word. -/
abbrev LB_CFG : Fld := ⟨0xe80800, 0, 0, 0, 0, 32⟩
abbrev LB_CFG_EN : Fld := ⟨0xe80800, 0, 0, 0, 0, 1⟩
abbrev LB_CFG_SPEED : Fld := ⟨0xe80800, 0, 0, 0, 1, 2⟩
abbrev LB_CFG_POLL : Fld := ⟨0xe80800, 0, 0, 0, 8, 8⟩
/-- Register LB_NODE_CFG (R358), the whole word. -/
abbrev LB_NODE_CFG : Fld := ⟨0xe80840, 16, 0, 0, 0, 32⟩
abbrev LB_NODE_CFG_ADDR : Fld := ⟨0xe80840, 16, 0, 0, 0, 7⟩
abbrev LB_NODE_CFG_EN : Fld := ⟨0xe80840, 16, 0, 0, 7, 1⟩
abbrev LB_NODE_CFG_SAFE : Fld := ⟨0xe80840, 16, 0, 0, 8, 2⟩
/-- Register LB_LEVEL (R358), the whole word. -/
abbrev LB_LEVEL : Fld := ⟨0xe80844, 16, 0, 0, 0, 32⟩
abbrev LB_LEVEL_LEVEL : Fld := ⟨0xe80844, 16, 0, 0, 0, 16⟩
abbrev LB_LEVEL_SAFE_LEVEL : Fld := ⟨0xe80844, 16, 0, 0, 16, 16⟩
/-- Register LB_NODE_STAT (R358), the whole word. -/
abbrev LB_NODE_STAT : Fld := ⟨0xe80848, 16, 0, 0, 0, 32⟩
abbrev LB_NODE_STAT_STATUS : Fld := ⟨0xe80848, 16, 0, 0, 0, 8⟩
abbrev LB_NODE_STAT_LOST : Fld := ⟨0xe80848, 16, 0, 0, 8, 1⟩
abbrev LB_NODE_STAT_NAKS : Fld := ⟨0xe80848, 16, 0, 0, 16, 16⟩
/-- Register PAT_CTL (R358), the whole word. -/
abbrev PAT_CTL : Fld := ⟨0xe80c00, 32, 0, 0, 0, 32⟩
abbrev PAT_CTL_EN : Fld := ⟨0xe80c00, 32, 0, 0, 0, 1⟩
abbrev PAT_CTL_KIND : Fld := ⟨0xe80c00, 32, 0, 0, 1, 2⟩
abbrev PAT_CTL_TARGET : Fld := ⟨0xe80c00, 32, 0, 0, 3, 3⟩
abbrev PAT_CTL_AUTO : Fld := ⟨0xe80c00, 32, 0, 0, 8, 8⟩
/-- Register PAT_RANGE (R358), the whole word. -/
abbrev PAT_RANGE : Fld := ⟨0xe80c04, 32, 0, 0, 0, 32⟩
abbrev PAT_RANGE_FIRST : Fld := ⟨0xe80c04, 32, 0, 0, 0, 10⟩
abbrev PAT_RANGE_LAST : Fld := ⟨0xe80c04, 32, 0, 0, 16, 10⟩
/-- Register PAT_A (R358), the whole word. -/
abbrev PAT_A : Fld := ⟨0xe80c08, 32, 0, 0, 0, 32⟩
abbrev PAT_A_A : Fld := ⟨0xe80c08, 32, 0, 0, 0, 24⟩
/-- Register PAT_B (R358), the whole word. -/
abbrev PAT_B : Fld := ⟨0xe80c0c, 32, 0, 0, 0, 32⟩
abbrev PAT_B_B : Fld := ⟨0xe80c0c, 32, 0, 0, 0, 24⟩
/-- Register PAT_TIME (R358), the whole word. -/
abbrev PAT_TIME : Fld := ⟨0xe80c10, 32, 0, 0, 0, 32⟩
abbrev PAT_TIME_PERIOD : Fld := ⟨0xe80c10, 32, 0, 0, 0, 16⟩
abbrev PAT_TIME_DUTY : Fld := ⟨0xe80c10, 32, 0, 0, 16, 8⟩
abbrev PAT_TIME_SPACING : Fld := ⟨0xe80c10, 32, 0, 0, 24, 8⟩
/-- Register SW_NODE (R358), the whole word. -/
abbrev SW_NODE : Fld := ⟨0xe90000, 8192, 4096, 4, 0, 32⟩
abbrev SW_NODE_VALUE : Fld := ⟨0xe90000, 8192, 4096, 4, 0, 24⟩
/-- Register VID_STAT (R380), the whole word. -/
abbrev VID_STAT : Fld := ⟨0xf00000, 0, 0, 0, 0, 32⟩
abbrev VID_STAT_ENC_BUSY : Fld := ⟨0xf00000, 0, 0, 0, 0, 1⟩
abbrev VID_STAT_ENC_CTX : Fld := ⟨0xf00000, 0, 0, 0, 1, 3⟩
abbrev VID_STAT_DEC_BUSY : Fld := ⟨0xf00000, 0, 0, 0, 4, 1⟩
abbrev VID_STAT_DEC_CTX : Fld := ⟨0xf00000, 0, 0, 0, 5, 3⟩
abbrev VID_STAT_CFG_ERR : Fld := ⟨0xf00000, 0, 0, 0, 8, 1⟩
/-- Register VID_CMD (R380), the whole word. -/
abbrev VID_CMD : Fld := ⟨0xf00004, 0, 0, 0, 0, 32⟩
abbrev VID_CMD_ENC_ABORT : Fld := ⟨0xf00004, 0, 0, 0, 0, 1⟩
abbrev VID_CMD_DEC_ABORT : Fld := ⟨0xf00004, 0, 0, 0, 1, 1⟩
/-- Register VID_ENC_PICS (R380), the whole word. -/
abbrev VID_ENC_PICS : Fld := ⟨0xf00008, 0, 0, 0, 0, 32⟩
abbrev VID_ENC_PICS_PICS : Fld := ⟨0xf00008, 0, 0, 0, 0, 32⟩
/-- Register VID_DEC_PICS (R380), the whole word. -/
abbrev VID_DEC_PICS : Fld := ⟨0xf0000c, 0, 0, 0, 0, 32⟩
abbrev VID_DEC_PICS_PICS : Fld := ⟨0xf0000c, 0, 0, 0, 0, 32⟩
/-- Register VID_ENC_CFG (R380), the whole word. -/
abbrev VID_ENC_CFG : Fld := ⟨0xf01000, 128, 0, 0, 0, 32⟩
abbrev VID_ENC_CFG_EN : Fld := ⟨0xf01000, 128, 0, 0, 0, 1⟩
abbrev VID_ENC_CFG_PROFILE : Fld := ⟨0xf01000, 128, 0, 0, 1, 2⟩
abbrev VID_ENC_CFG_HASH : Fld := ⟨0xf01000, 128, 0, 0, 3, 1⟩
abbrev VID_ENC_CFG_CRA : Fld := ⟨0xf01000, 128, 0, 0, 4, 1⟩
abbrev VID_ENC_CFG_NREF : Fld := ⟨0xf01000, 128, 0, 0, 5, 1⟩
abbrev VID_ENC_CFG_IPERIOD : Fld := ⟨0xf01000, 128, 0, 0, 16, 16⟩
/-- Register VID_ENC_SIZE (R380), the whole word. -/
abbrev VID_ENC_SIZE : Fld := ⟨0xf01004, 128, 0, 0, 0, 32⟩
abbrev VID_ENC_SIZE_W : Fld := ⟨0xf01004, 128, 0, 0, 0, 16⟩
abbrev VID_ENC_SIZE_H : Fld := ⟨0xf01004, 128, 0, 0, 16, 16⟩
/-- Register VID_ENC_RC (R380), the whole word. -/
abbrev VID_ENC_RC : Fld := ⟨0xf01008, 128, 0, 0, 0, 32⟩
abbrev VID_ENC_RC_MODE : Fld := ⟨0xf01008, 128, 0, 0, 0, 2⟩
abbrev VID_ENC_RC_QP_INIT : Fld := ⟨0xf01008, 128, 0, 0, 2, 6⟩
abbrev VID_ENC_RC_QP_MIN : Fld := ⟨0xf01008, 128, 0, 0, 8, 6⟩
abbrev VID_ENC_RC_QP_MAX : Fld := ⟨0xf01008, 128, 0, 0, 14, 6⟩
/-- Register VID_ENC_RATE (R380), the whole word. -/
abbrev VID_ENC_RATE : Fld := ⟨0xf0100c, 128, 0, 0, 0, 32⟩
abbrev VID_ENC_RATE_RATE : Fld := ⟨0xf0100c, 128, 0, 0, 0, 32⟩
/-- Register VID_ENC_FPS (R380), the whole word. -/
abbrev VID_ENC_FPS : Fld := ⟨0xf01010, 128, 0, 0, 0, 32⟩
abbrev VID_ENC_FPS_NUM : Fld := ⟨0xf01010, 128, 0, 0, 0, 16⟩
abbrev VID_ENC_FPS_DEN : Fld := ⟨0xf01010, 128, 0, 0, 16, 16⟩
/-- Register VID_ENC_CAP (R380), the whole word. -/
abbrev VID_ENC_CAP : Fld := ⟨0xf01014, 128, 0, 0, 0, 32⟩
abbrev VID_ENC_CAP_HARD_CAP : Fld := ⟨0xf01014, 128, 0, 0, 0, 32⟩
/-- Register VID_ENC_BUF (R380), the whole word. -/
abbrev VID_ENC_BUF : Fld := ⟨0xf01018, 128, 0, 0, 0, 32⟩
abbrev VID_ENC_BUF_BUFSIZE : Fld := ⟨0xf01018, 128, 0, 0, 0, 32⟩
/-- Register VID_ENC_BUFTGT (R380), the whole word. -/
abbrev VID_ENC_BUFTGT : Fld := ⟨0xf0101c, 128, 0, 0, 0, 32⟩
abbrev VID_ENC_BUFTGT_BUFTGT : Fld := ⟨0xf0101c, 128, 0, 0, 0, 32⟩
/-- Register VID_ENC_SEARCH (R380), the whole word. -/
abbrev VID_ENC_SEARCH : Fld := ⟨0xf01020, 128, 0, 0, 0, 32⟩
abbrev VID_ENC_SEARCH_SR_X : Fld := ⟨0xf01020, 128, 0, 0, 0, 7⟩
abbrev VID_ENC_SEARCH_SR_Y : Fld := ⟨0xf01020, 128, 0, 0, 16, 6⟩
/-- Register VID_ENC_OUT_LO (R380), the whole word. -/
abbrev VID_ENC_OUT_LO : Fld := ⟨0xf01024, 128, 0, 0, 0, 32⟩
abbrev VID_ENC_OUT_LO_OUT : Fld := ⟨0xf01024, 128, 0, 0, 0, 32⟩
/-- Register VID_ENC_OUT_HI (R380), the whole word. -/
abbrev VID_ENC_OUT_HI : Fld := ⟨0xf01028, 128, 0, 0, 0, 32⟩
abbrev VID_ENC_OUT_HI_OUT : Fld := ⟨0xf01028, 128, 0, 0, 0, 32⟩
/-- Register VID_ENC_OUT_SIZE (R380), the whole word. -/
abbrev VID_ENC_OUT_SIZE : Fld := ⟨0xf0102c, 128, 0, 0, 0, 32⟩
abbrev VID_ENC_OUT_SIZE_SIZE : Fld := ⟨0xf0102c, 128, 0, 0, 0, 32⟩
/-- Register VID_ENC_OUT_WR (R380), the whole word. -/
abbrev VID_ENC_OUT_WR : Fld := ⟨0xf01030, 128, 0, 0, 0, 32⟩
abbrev VID_ENC_OUT_WR_WR : Fld := ⟨0xf01030, 128, 0, 0, 0, 32⟩
/-- Register VID_ENC_OUT_RD (R380), the whole word. -/
abbrev VID_ENC_OUT_RD : Fld := ⟨0xf01034, 128, 0, 0, 0, 32⟩
abbrev VID_ENC_OUT_RD_RD : Fld := ⟨0xf01034, 128, 0, 0, 0, 32⟩
/-- Register VID_ENC_CNT (R380), the whole word. -/
abbrev VID_ENC_CNT : Fld := ⟨0xf01038, 128, 0, 0, 0, 32⟩
abbrev VID_ENC_CNT_BUDGET : Fld := ⟨0xf01038, 128, 0, 0, 0, 16⟩
abbrev VID_ENC_CNT_POISON : Fld := ⟨0xf01038, 128, 0, 0, 16, 16⟩
/-- Register VID_DEC_CFG (R380), the whole word. -/
abbrev VID_DEC_CFG : Fld := ⟨0xf02000, 128, 0, 0, 0, 32⟩
abbrev VID_DEC_CFG_EN : Fld := ⟨0xf02000, 128, 0, 0, 0, 1⟩
abbrev VID_DEC_CFG_FMT : Fld := ⟨0xf02000, 128, 0, 0, 1, 1⟩
/-- Register VID_DEC_BUF_LO (R380), the whole word. -/
abbrev VID_DEC_BUF_LO : Fld := ⟨0xf02004, 128, 0, 0, 0, 32⟩
abbrev VID_DEC_BUF_LO_BUF : Fld := ⟨0xf02004, 128, 0, 0, 0, 32⟩
/-- Register VID_DEC_BUF_HI (R380), the whole word. -/
abbrev VID_DEC_BUF_HI : Fld := ⟨0xf02008, 128, 0, 0, 0, 32⟩
abbrev VID_DEC_BUF_HI_BUF : Fld := ⟨0xf02008, 128, 0, 0, 0, 32⟩
/-- Register VID_DEC_BUF_CFG (R380), the whole word. -/
abbrev VID_DEC_BUF_CFG : Fld := ⟨0xf0200c, 128, 0, 0, 0, 32⟩
abbrev VID_DEC_BUF_CFG_NBUF : Fld := ⟨0xf0200c, 128, 0, 0, 0, 5⟩
abbrev VID_DEC_BUF_CFG_SLOT : Fld := ⟨0xf0200c, 128, 0, 0, 5, 27⟩
/-- Register VID_DEC_STRIDE (R380), the whole word. -/
abbrev VID_DEC_STRIDE : Fld := ⟨0xf02010, 128, 0, 0, 0, 32⟩
abbrev VID_DEC_STRIDE_STRIDE : Fld := ⟨0xf02010, 128, 0, 0, 0, 32⟩
/-- Register VID_DEC_RD (R380), the whole word. -/
abbrev VID_DEC_RD : Fld := ⟨0xf02014, 128, 0, 0, 0, 32⟩
abbrev VID_DEC_RD_RD : Fld := ⟨0xf02014, 128, 0, 0, 0, 32⟩
/-- Register VID_DEC_CNT (R380), the whole word. -/
abbrev VID_DEC_CNT : Fld := ⟨0xf02018, 128, 0, 0, 0, 32⟩
abbrev VID_DEC_CNT_ERR : Fld := ⟨0xf02018, 128, 0, 0, 0, 16⟩
abbrev VID_DEC_CNT_CONC : Fld := ⟨0xf02018, 128, 0, 0, 16, 16⟩
/-- Register DP_CFG (R380), the whole word. -/
abbrev DP_CFG : Fld := ⟨0xf04000, 0, 0, 0, 0, 32⟩
abbrev DP_CFG_EN : Fld := ⟨0xf04000, 0, 0, 0, 0, 1⟩
abbrev DP_CFG_LANES : Fld := ⟨0xf04000, 0, 0, 0, 1, 2⟩
abbrev DP_CFG_RATE : Fld := ⟨0xf04000, 0, 0, 0, 3, 2⟩
abbrev DP_CFG_BPC : Fld := ⟨0xf04000, 0, 0, 0, 5, 2⟩
abbrev DP_CFG_HPOL : Fld := ⟨0xf04000, 0, 0, 0, 7, 1⟩
abbrev DP_CFG_VPOL : Fld := ⟨0xf04000, 0, 0, 0, 8, 1⟩
/-- Register DP_STAT (R380), the whole word. -/
abbrev DP_STAT : Fld := ⟨0xf04004, 0, 0, 0, 0, 32⟩
abbrev DP_STAT_HPD : Fld := ⟨0xf04004, 0, 0, 0, 0, 1⟩
abbrev DP_STAT_LINK : Fld := ⟨0xf04004, 0, 0, 0, 1, 2⟩
abbrev DP_STAT_T_LANES : Fld := ⟨0xf04004, 0, 0, 0, 3, 2⟩
abbrev DP_STAT_T_RATE : Fld := ⟨0xf04004, 0, 0, 0, 5, 2⟩
abbrev DP_STAT_DOWNS : Fld := ⟨0xf04004, 0, 0, 0, 16, 16⟩
/-- Register DP_PCLK (R380), the whole word. -/
abbrev DP_PCLK : Fld := ⟨0xf04008, 0, 0, 0, 0, 32⟩
abbrev DP_PCLK_PCLK : Fld := ⟨0xf04008, 0, 0, 0, 0, 20⟩
/-- Register DP_HTIM (R380), the whole word. -/
abbrev DP_HTIM : Fld := ⟨0xf0400c, 0, 0, 0, 0, 32⟩
abbrev DP_HTIM_HACTIVE : Fld := ⟨0xf0400c, 0, 0, 0, 0, 16⟩
abbrev DP_HTIM_HTOTAL : Fld := ⟨0xf0400c, 0, 0, 0, 16, 16⟩
/-- Register DP_HSYNC (R380), the whole word. -/
abbrev DP_HSYNC : Fld := ⟨0xf04010, 0, 0, 0, 0, 32⟩
abbrev DP_HSYNC_HSTART : Fld := ⟨0xf04010, 0, 0, 0, 0, 16⟩
abbrev DP_HSYNC_HWIDTH : Fld := ⟨0xf04010, 0, 0, 0, 16, 16⟩
/-- Register DP_VTIM (R380), the whole word. -/
abbrev DP_VTIM : Fld := ⟨0xf04014, 0, 0, 0, 0, 32⟩
abbrev DP_VTIM_VACTIVE : Fld := ⟨0xf04014, 0, 0, 0, 0, 16⟩
abbrev DP_VTIM_VTOTAL : Fld := ⟨0xf04014, 0, 0, 0, 16, 16⟩
/-- Register DP_VSYNC (R380), the whole word. -/
abbrev DP_VSYNC : Fld := ⟨0xf04018, 0, 0, 0, 0, 32⟩
abbrev DP_VSYNC_VSTART : Fld := ⟨0xf04018, 0, 0, 0, 0, 16⟩
abbrev DP_VSYNC_VWIDTH : Fld := ⟨0xf04018, 0, 0, 0, 16, 16⟩
/-- Register DP_AUX_CMD (R380), the whole word. -/
abbrev DP_AUX_CMD : Fld := ⟨0xf04020, 0, 0, 0, 0, 32⟩
abbrev DP_AUX_CMD_GO : Fld := ⟨0xf04020, 0, 0, 0, 0, 1⟩
abbrev DP_AUX_CMD_WRITE : Fld := ⟨0xf04020, 0, 0, 0, 1, 1⟩
abbrev DP_AUX_CMD_I2C : Fld := ⟨0xf04020, 0, 0, 0, 2, 1⟩
abbrev DP_AUX_CMD_LEN : Fld := ⟨0xf04020, 0, 0, 0, 3, 5⟩
abbrev DP_AUX_CMD_ADDR : Fld := ⟨0xf04020, 0, 0, 0, 8, 20⟩
/-- Register DP_AUX_STAT (R380), the whole word. -/
abbrev DP_AUX_STAT : Fld := ⟨0xf04024, 0, 0, 0, 0, 32⟩
abbrev DP_AUX_STAT_BUSY : Fld := ⟨0xf04024, 0, 0, 0, 0, 1⟩
abbrev DP_AUX_STAT_RESULT : Fld := ⟨0xf04024, 0, 0, 0, 1, 2⟩
/-- Register DP_AUX_DATA (R380), the whole word. -/
abbrev DP_AUX_DATA : Fld := ⟨0xf04030, 4, 0, 0, 0, 32⟩
abbrev DP_AUX_DATA_DATA : Fld := ⟨0xf04030, 4, 0, 0, 0, 32⟩
/-- Register TIM_CTL (R394), the whole word. -/
abbrev TIM_CTL : Fld := ⟨0xf80000, 0, 0, 0, 0, 32⟩
abbrev TIM_CTL_OC_EN : Fld := ⟨0xf80000, 0, 0, 0, 0, 1⟩
abbrev TIM_CTL_TC_EN : Fld := ⟨0xf80000, 0, 0, 0, 1, 1⟩
abbrev TIM_CTL_P2P : Fld := ⟨0xf80000, 0, 0, 0, 2, 1⟩
abbrev TIM_CTL_TRANSPORT : Fld := ⟨0xf80000, 0, 0, 0, 3, 2⟩
abbrev TIM_CTL_SLAVE_ONLY : Fld := ⟨0xf80000, 0, 0, 0, 5, 1⟩
abbrev TIM_CTL_RELOCK : Fld := ⟨0xf80000, 0, 0, 0, 6, 1⟩
abbrev TIM_CTL_DOMAIN : Fld := ⟨0xf80000, 0, 0, 0, 8, 8⟩
/-- Register TIM_PRIO (R394), the whole word. -/
abbrev TIM_PRIO : Fld := ⟨0xf80004, 0, 0, 0, 0, 32⟩
abbrev TIM_PRIO_PRIORITY1 : Fld := ⟨0xf80004, 0, 0, 0, 0, 8⟩
abbrev TIM_PRIO_PRIORITY2 : Fld := ⟨0xf80004, 0, 0, 0, 8, 8⟩
abbrev TIM_PRIO_CLASS : Fld := ⟨0xf80004, 0, 0, 0, 16, 8⟩
abbrev TIM_PRIO_ACCURACY : Fld := ⟨0xf80004, 0, 0, 0, 24, 8⟩
/-- Register TIM_INTV (R394), the whole word. -/
abbrev TIM_INTV : Fld := ⟨0xf80008, 0, 0, 0, 0, 32⟩
abbrev TIM_INTV_LOG_SYNC : Fld := ⟨0xf80008, 0, 0, 0, 0, 8⟩
abbrev TIM_INTV_LOG_ANN : Fld := ⟨0xf80008, 0, 0, 0, 8, 8⟩
abbrev TIM_INTV_LOG_DELAY : Fld := ⟨0xf80008, 0, 0, 0, 16, 8⟩
abbrev TIM_INTV_ANN_TMO : Fld := ⟨0xf80008, 0, 0, 0, 24, 8⟩
/-- Register TIM_STEP_TH (R394), the whole word. -/
abbrev TIM_STEP_TH : Fld := ⟨0xf8000c, 0, 0, 0, 0, 32⟩
abbrev TIM_STEP_TH_STEP_TH : Fld := ⟨0xf8000c, 0, 0, 0, 0, 32⟩
/-- Register TIM_SERVO (R394), the whole word. -/
abbrev TIM_SERVO : Fld := ⟨0xf80010, 0, 0, 0, 0, 32⟩
abbrev TIM_SERVO_SLEW_MAX : Fld := ⟨0xf80010, 0, 0, 0, 0, 16⟩
abbrev TIM_SERVO_LOCK_TH : Fld := ⟨0xf80010, 0, 0, 0, 16, 16⟩
/-- Register TIM_STAT (R394), the whole word. -/
abbrev TIM_STAT : Fld := ⟨0xf80014, 0, 0, 0, 0, 32⟩
abbrev TIM_STAT_SERVO : Fld := ⟨0xf80014, 0, 0, 0, 0, 2⟩
abbrev TIM_STAT_STEPPED : Fld := ⟨0xf80014, 0, 0, 0, 2, 1⟩
abbrev TIM_STAT_CFG_ERR : Fld := ⟨0xf80014, 0, 0, 0, 3, 1⟩
abbrev TIM_STAT_IN_TOL : Fld := ⟨0xf80014, 0, 0, 0, 4, 1⟩
abbrev TIM_STAT_HOLDOVERS : Fld := ⟨0xf80014, 0, 0, 0, 16, 16⟩
/-- Register TIM_GM_ID_LO (R394), the whole word. -/
abbrev TIM_GM_ID_LO : Fld := ⟨0xf80018, 0, 0, 0, 0, 32⟩
abbrev TIM_GM_ID_LO_GM_ID : Fld := ⟨0xf80018, 0, 0, 0, 0, 32⟩
/-- Register TIM_GM_ID_HI (R394), the whole word. -/
abbrev TIM_GM_ID_HI : Fld := ⟨0xf8001c, 0, 0, 0, 0, 32⟩
abbrev TIM_GM_ID_HI_GM_ID : Fld := ⟨0xf8001c, 0, 0, 0, 0, 32⟩
/-- Register TIM_OFFSET_LO (R394), the whole word. -/
abbrev TIM_OFFSET_LO : Fld := ⟨0xf80020, 0, 0, 0, 0, 32⟩
abbrev TIM_OFFSET_LO_OFFSET : Fld := ⟨0xf80020, 0, 0, 0, 0, 32⟩
/-- Register TIM_OFFSET_HI (R394), the whole word. -/
abbrev TIM_OFFSET_HI : Fld := ⟨0xf80024, 0, 0, 0, 0, 32⟩
abbrev TIM_OFFSET_HI_OFFSET : Fld := ⟨0xf80024, 0, 0, 0, 0, 32⟩
/-- Register TIM_ADJ_LO (R394), the whole word. -/
abbrev TIM_ADJ_LO : Fld := ⟨0xf80028, 0, 0, 0, 0, 32⟩
abbrev TIM_ADJ_LO_ADJ : Fld := ⟨0xf80028, 0, 0, 0, 0, 32⟩
/-- Register TIM_ADJ_HI (R394), the whole word. -/
abbrev TIM_ADJ_HI : Fld := ⟨0xf8002c, 0, 0, 0, 0, 32⟩
abbrev TIM_ADJ_HI_ADJ : Fld := ⟨0xf8002c, 0, 0, 0, 0, 32⟩
/-- Register TIM_NOW_NS (R394), the whole word. -/
abbrev TIM_NOW_NS : Fld := ⟨0xf80030, 0, 0, 0, 0, 32⟩
abbrev TIM_NOW_NS_NS : Fld := ⟨0xf80030, 0, 0, 0, 0, 30⟩
/-- Register TIM_NOW_SEC (R394), the whole word. -/
abbrev TIM_NOW_SEC : Fld := ⟨0xf80034, 0, 0, 0, 0, 32⟩
abbrev TIM_NOW_SEC_SEC : Fld := ⟨0xf80034, 0, 0, 0, 0, 32⟩
/-- Register TIM_NS (R394), the whole word. -/
abbrev TIM_NS : Fld := ⟨0xf80038, 0, 0, 0, 0, 32⟩
abbrev TIM_NS_NS : Fld := ⟨0xf80038, 0, 0, 0, 0, 32⟩
/-- Register TIM_EPOCH_NS (R394), the whole word. -/
abbrev TIM_EPOCH_NS : Fld := ⟨0xf8003c, 0, 0, 0, 0, 32⟩
abbrev TIM_EPOCH_NS_NS : Fld := ⟨0xf8003c, 0, 0, 0, 0, 30⟩
/-- Register TIM_EPOCH_SEC (R394), the whole word. -/
abbrev TIM_EPOCH_SEC : Fld := ⟨0xf80040, 0, 0, 0, 0, 32⟩
abbrev TIM_EPOCH_SEC_SEC : Fld := ⟨0xf80040, 0, 0, 0, 0, 32⟩
/-- Register TIM_SEC_HI (R394), the whole word. -/
abbrev TIM_SEC_HI : Fld := ⟨0xf80044, 0, 0, 0, 0, 32⟩
abbrev TIM_SEC_HI_SEC_HI : Fld := ⟨0xf80044, 0, 0, 0, 0, 16⟩
/-- Register TIM_NET_CFG (R394), the whole word. -/
abbrev TIM_NET_CFG : Fld := ⟨0xf80100, 64, 0, 0, 0, 32⟩
abbrev TIM_NET_CFG_EN : Fld := ⟨0xf80100, 64, 0, 0, 0, 1⟩
abbrev TIM_NET_CFG_SPEED : Fld := ⟨0xf80100, 64, 0, 0, 1, 1⟩
/-- Register TIM_NET_STAT (R394), the whole word. -/
abbrev TIM_NET_STAT : Fld := ⟨0xf80104, 64, 0, 0, 0, 32⟩
abbrev TIM_NET_STAT_LOCK : Fld := ⟨0xf80104, 64, 0, 0, 0, 1⟩
abbrev TIM_NET_STAT_PTP_STATE : Fld := ⟨0xf80104, 64, 0, 0, 4, 4⟩
/-- Register TIM_ING_LAT (R394), the whole word. -/
abbrev TIM_ING_LAT : Fld := ⟨0xf80108, 64, 0, 0, 0, 32⟩
abbrev TIM_ING_LAT_ING_LAT : Fld := ⟨0xf80108, 64, 0, 0, 0, 32⟩
/-- Register TIM_EGR_LAT (R394), the whole word. -/
abbrev TIM_EGR_LAT : Fld := ⟨0xf8010c, 64, 0, 0, 0, 32⟩
abbrev TIM_EGR_LAT_EGR_LAT : Fld := ⟨0xf8010c, 64, 0, 0, 0, 32⟩
/-- Register TIM_ASYM (R394), the whole word. -/
abbrev TIM_ASYM : Fld := ⟨0xf80110, 64, 0, 0, 0, 32⟩
abbrev TIM_ASYM_ASYM : Fld := ⟨0xf80110, 64, 0, 0, 0, 32⟩
/-- Register TIM_PDELAY (R394), the whole word. -/
abbrev TIM_PDELAY : Fld := ⟨0xf80114, 64, 0, 0, 0, 32⟩
abbrev TIM_PDELAY_PDELAY : Fld := ⟨0xf80114, 64, 0, 0, 0, 32⟩
/-- Register TIM_CNT_RX (R394), the whole word. -/
abbrev TIM_CNT_RX : Fld := ⟨0xf80118, 64, 0, 0, 0, 32⟩
abbrev TIM_CNT_RX_FRAMES : Fld := ⟨0xf80118, 64, 0, 0, 0, 32⟩
/-- Register TIM_CNT_TX (R394), the whole word. -/
abbrev TIM_CNT_TX : Fld := ⟨0xf8011c, 64, 0, 0, 0, 32⟩
abbrev TIM_CNT_TX_FRAMES : Fld := ⟨0xf8011c, 64, 0, 0, 0, 32⟩
/-- Register TIM_CNT_ERR (R394), the whole word. -/
abbrev TIM_CNT_ERR : Fld := ⟨0xf80120, 64, 0, 0, 0, 32⟩
abbrev TIM_CNT_ERR_DROP : Fld := ⟨0xf80120, 64, 0, 0, 0, 16⟩
abbrev TIM_CNT_ERR_FCS : Fld := ⟨0xf80120, 64, 0, 0, 16, 16⟩
/-- Register TPO_CFG (R394), the whole word. -/
abbrev TPO_CFG : Fld := ⟨0xf80200, 32, 0, 0, 0, 32⟩
abbrev TPO_CFG_SRC : Fld := ⟨0xf80200, 32, 0, 0, 0, 2⟩
abbrev TPO_CFG_POL : Fld := ⟨0xf80200, 32, 0, 0, 2, 1⟩
abbrev TPO_CFG_ARM : Fld := ⟨0xf80200, 32, 0, 0, 3, 1⟩
/-- Register TPO_START_SEC (R394), the whole word. -/
abbrev TPO_START_SEC : Fld := ⟨0xf80204, 32, 0, 0, 0, 32⟩
abbrev TPO_START_SEC_START : Fld := ⟨0xf80204, 32, 0, 0, 0, 32⟩
/-- Register TPO_START_NS (R394), the whole word. -/
abbrev TPO_START_NS : Fld := ⟨0xf80208, 32, 0, 0, 0, 32⟩
abbrev TPO_START_NS_START : Fld := ⟨0xf80208, 32, 0, 0, 0, 30⟩
/-- Register TPO_PERIOD (R394), the whole word. -/
abbrev TPO_PERIOD : Fld := ⟨0xf8020c, 32, 0, 0, 0, 32⟩
abbrev TPO_PERIOD_PERIOD : Fld := ⟨0xf8020c, 32, 0, 0, 0, 32⟩
/-- Register TPO_WIDTH (R394), the whole word. -/
abbrev TPO_WIDTH : Fld := ⟨0xf80210, 32, 0, 0, 0, 32⟩
abbrev TPO_WIDTH_WIDTH : Fld := ⟨0xf80210, 32, 0, 0, 0, 32⟩
/-- Register TPO_STAT (R394), the whole word. -/
abbrev TPO_STAT : Fld := ⟨0xf80214, 32, 0, 0, 0, 32⟩
abbrev TPO_STAT_SKIP : Fld := ⟨0xf80214, 32, 0, 0, 0, 16⟩
abbrev TPO_STAT_PULSES : Fld := ⟨0xf80214, 32, 0, 0, 16, 16⟩
/-- Register TWN_CFG (R413), the whole word. -/
abbrev TWN_CFG : Fld := ⟨0xfc0000, 0, 0, 0, 0, 32⟩
abbrev TWN_CFG_EN : Fld := ⟨0xfc0000, 0, 0, 0, 0, 1⟩
abbrev TWN_CFG_CYCLE : Fld := ⟨0xfc0000, 0, 0, 0, 1, 5⟩
abbrev TWN_CFG_AUTO_TAKE : Fld := ⟨0xfc0000, 0, 0, 0, 6, 1⟩
abbrev TWN_CFG_SAFE_TAKE : Fld := ⟨0xfc0000, 0, 0, 0, 7, 1⟩
abbrev TWN_CFG_AGE_H : Fld := ⟨0xfc0000, 0, 0, 0, 16, 16⟩
/-- Register TWN_STAT (R413), the whole word. -/
abbrev TWN_STAT : Fld := ⟨0xfc0004, 0, 0, 0, 0, 32⟩
abbrev TWN_STAT_ROLE : Fld := ⟨0xfc0004, 0, 0, 0, 0, 1⟩
abbrev TWN_STAT_ACTIVE : Fld := ⟨0xfc0004, 0, 0, 0, 1, 1⟩
abbrev TWN_STAT_NET : Fld := ⟨0xfc0004, 0, 0, 0, 2, 1⟩
abbrev TWN_STAT_LINK : Fld := ⟨0xfc0004, 0, 0, 0, 3, 2⟩
abbrev TWN_STAT_ALIVE_IN : Fld := ⟨0xfc0004, 0, 0, 0, 5, 1⟩
abbrev TWN_STAT_PARTNER_READY : Fld := ⟨0xfc0004, 0, 0, 0, 6, 1⟩
abbrev TWN_STAT_SB_READY : Fld := ⟨0xfc0004, 0, 0, 0, 7, 1⟩
abbrev TWN_STAT_PMODE : Fld := ⟨0xfc0004, 0, 0, 0, 8, 4⟩
abbrev TWN_STAT_CFG_ERR : Fld := ⟨0xfc0004, 0, 0, 0, 12, 1⟩
/-- Register TWN_CMD (R413), the whole word. -/
abbrev TWN_CMD : Fld := ⟨0xfc0008, 0, 0, 0, 0, 32⟩
abbrev TWN_CMD_SWITCH : Fld := ⟨0xfc0008, 0, 0, 0, 0, 1⟩
abbrev TWN_CMD_RETRAIN : Fld := ⟨0xfc0008, 0, 0, 0, 1, 1⟩
/-- Register TWN_SWITCH_STAT (R413), the whole word. -/
abbrev TWN_SWITCH_STAT : Fld := ⟨0xfc000c, 0, 0, 0, 0, 32⟩
abbrev TWN_SWITCH_STAT_RESULT : Fld := ⟨0xfc000c, 0, 0, 0, 0, 2⟩
/-- Register TWN_IMG_LO (R413), the whole word. -/
abbrev TWN_IMG_LO : Fld := ⟨0xfc0010, 0, 0, 0, 0, 32⟩
abbrev TWN_IMG_LO_ADDR : Fld := ⟨0xfc0010, 0, 0, 0, 0, 32⟩
/-- Register TWN_IMG_HI (R413), the whole word. -/
abbrev TWN_IMG_HI : Fld := ⟨0xfc0014, 0, 0, 0, 0, 32⟩
abbrev TWN_IMG_HI_ADDR : Fld := ⟨0xfc0014, 0, 0, 0, 0, 32⟩
/-- Register TWN_JOIN_LO (R413), the whole word. -/
abbrev TWN_JOIN_LO : Fld := ⟨0xfc0018, 0, 0, 0, 0, 32⟩
abbrev TWN_JOIN_LO_ADDR : Fld := ⟨0xfc0018, 0, 0, 0, 0, 32⟩
/-- Register TWN_JOIN_HI (R413), the whole word. -/
abbrev TWN_JOIN_HI : Fld := ⟨0xfc001c, 0, 0, 0, 0, 32⟩
abbrev TWN_JOIN_HI_ADDR : Fld := ⟨0xfc001c, 0, 0, 0, 0, 32⟩
/-- Register TWN_HB (R413), the whole word. -/
abbrev TWN_HB : Fld := ⟨0xfc0020, 0, 0, 0, 0, 32⟩
abbrev TWN_HB_SEQ_TX : Fld := ⟨0xfc0020, 0, 0, 0, 0, 16⟩
abbrev TWN_HB_SEQ_RX : Fld := ⟨0xfc0020, 0, 0, 0, 16, 16⟩
/-- Register TWN_HB_MISS (R413), the whole word. -/
abbrev TWN_HB_MISS : Fld := ⟨0xfc0024, 0, 0, 0, 0, 32⟩
abbrev TWN_HB_MISS_RUN : Fld := ⟨0xfc0024, 0, 0, 0, 0, 8⟩
abbrev TWN_HB_MISS_TOTAL : Fld := ⟨0xfc0024, 0, 0, 0, 16, 16⟩
/-- Register TWN_COPY_TX (R413), the whole word. -/
abbrev TWN_COPY_TX : Fld := ⟨0xfc0028, 0, 0, 0, 0, 32⟩
abbrev TWN_COPY_TX_CYCLE : Fld := ⟨0xfc0028, 0, 0, 0, 0, 32⟩
/-- Register TWN_COPY_RX (R413), the whole word. -/
abbrev TWN_COPY_RX : Fld := ⟨0xfc002c, 0, 0, 0, 0, 32⟩
abbrev TWN_COPY_RX_CYCLE : Fld := ⟨0xfc002c, 0, 0, 0, 0, 32⟩
/-- Register TWN_COPY_AGE (R413), the whole word. -/
abbrev TWN_COPY_AGE : Fld := ⟨0xfc0030, 0, 0, 0, 0, 32⟩
abbrev TWN_COPY_AGE_AGE : Fld := ⟨0xfc0030, 0, 0, 0, 0, 16⟩
abbrev TWN_COPY_AGE_SIZE : Fld := ⟨0xfc0030, 0, 0, 0, 16, 16⟩
/-- Register TWN_CNT_COPY (R413), the whole word. -/
abbrev TWN_CNT_COPY : Fld := ⟨0xfc0034, 0, 0, 0, 0, 32⟩
abbrev TWN_CNT_COPY_LATE : Fld := ⟨0xfc0034, 0, 0, 0, 0, 8⟩
abbrev TWN_CNT_COPY_BAD : Fld := ⟨0xfc0034, 0, 0, 0, 8, 8⟩
abbrev TWN_CNT_COPY_STALE : Fld := ⟨0xfc0034, 0, 0, 0, 16, 8⟩
abbrev TWN_CNT_COPY_OVER : Fld := ⟨0xfc0034, 0, 0, 0, 24, 8⟩
/-- Register TWN_CNT_SKEW (R413), the whole word. -/
abbrev TWN_CNT_SKEW : Fld := ⟨0xfc0038, 0, 0, 0, 0, 32⟩
abbrev TWN_CNT_SKEW_POS : Fld := ⟨0xfc0038, 0, 0, 0, 0, 8⟩
abbrev TWN_CNT_SKEW_SEQ : Fld := ⟨0xfc0038, 0, 0, 0, 8, 8⟩
abbrev TWN_CNT_SKEW_SHEAF : Fld := ⟨0xfc0038, 0, 0, 0, 16, 8⟩
abbrev TWN_CNT_SKEW_GIO : Fld := ⟨0xfc0038, 0, 0, 0, 24, 8⟩
/-- Register TWN_TAKEOVERS (R413), the whole word. -/
abbrev TWN_TAKEOVERS : Fld := ⟨0xfc003c, 0, 0, 0, 0, 32⟩
abbrev TWN_TAKEOVERS_TAKE : Fld := ⟨0xfc003c, 0, 0, 0, 0, 16⟩
abbrev TWN_TAKEOVERS_SWITCH : Fld := ⟨0xfc003c, 0, 0, 0, 16, 16⟩
/-- Register TWN_LAST (R413), the whole word. -/
abbrev TWN_LAST : Fld := ⟨0xfc0040, 0, 0, 0, 0, 32⟩
abbrev TWN_LAST_CAUSE : Fld := ⟨0xfc0040, 0, 0, 0, 0, 2⟩
abbrev TWN_LAST_STALE : Fld := ⟨0xfc0040, 0, 0, 0, 2, 1⟩
abbrev TWN_LAST_MODE : Fld := ⟨0xfc0040, 0, 0, 0, 4, 4⟩
/-- Register TWN_LAST_SEC (R413), the whole word. -/
abbrev TWN_LAST_SEC : Fld := ⟨0xfc0044, 0, 0, 0, 0, 32⟩
abbrev TWN_LAST_SEC_TIME : Fld := ⟨0xfc0044, 0, 0, 0, 0, 32⟩
/-- Register TWN_LAST_NS (R413), the whole word. -/
abbrev TWN_LAST_NS : Fld := ⟨0xfc0048, 0, 0, 0, 0, 32⟩
abbrev TWN_LAST_NS_TIME : Fld := ⟨0xfc0048, 0, 0, 0, 0, 30⟩
/-- Register TWN_ATTACH (R413), the whole word. -/
abbrev TWN_ATTACH : Fld := ⟨0xfc004c, 0, 0, 0, 0, 32⟩
abbrev TWN_ATTACH_CAM : Fld := ⟨0xfc004c, 0, 0, 0, 0, 8⟩
/-- Register TWN_STANDBY_H (R413), the whole word. -/
abbrev TWN_STANDBY_H : Fld := ⟨0xfc0050, 0, 0, 0, 0, 32⟩
abbrev TWN_STANDBY_H_HOURS : Fld := ⟨0xfc0050, 0, 0, 0, 0, 32⟩
/-- Register TWN_LINK (R413), the whole word. -/
abbrev TWN_LINK : Fld := ⟨0xfc0060, 0, 0, 0, 0, 32⟩
abbrev TWN_LINK_LOCK : Fld := ⟨0xfc0060, 0, 0, 0, 0, 4⟩
abbrev TWN_LINK_SKEW : Fld := ⟨0xfc0060, 0, 0, 0, 8, 8⟩
abbrev TWN_LINK_DOWNS : Fld := ⟨0xfc0060, 0, 0, 0, 16, 16⟩
/-- Register TWN_GAP_FIRST (R413), the whole word. -/
abbrev TWN_GAP_FIRST : Fld := ⟨0xfc0080, 8, 0, 0, 0, 32⟩
abbrev TWN_GAP_FIRST_LINE : Fld := ⟨0xfc0080, 8, 0, 0, 0, 32⟩
/-- Register TWN_GAP_N (R413), the whole word. -/
abbrev TWN_GAP_N : Fld := ⟨0xfc0084, 8, 0, 0, 0, 32⟩
abbrev TWN_GAP_N_LINES : Fld := ⟨0xfc0084, 8, 0, 0, 0, 32⟩
/-- Register HIF_STAT (R437), the whole word. -/
abbrev HIF_STAT : Fld := ⟨0x20000, 0, 0, 0, 0, 32⟩
abbrev HIF_STAT_LINK : Fld := ⟨0x20000, 0, 0, 0, 0, 1⟩
abbrev HIF_STAT_GEN : Fld := ⟨0x20000, 0, 0, 0, 1, 3⟩
abbrev HIF_STAT_WIDTH : Fld := ⟨0x20000, 0, 0, 0, 4, 4⟩
abbrev HIF_STAT_HOST_LOST : Fld := ⟨0x20000, 0, 0, 0, 8, 1⟩
/-- Register HIF_WIN (R437), the whole word. -/
abbrev HIF_WIN : Fld := ⟨0x20004, 0, 0, 0, 0, 32⟩
abbrev HIF_WIN_BASE : Fld := ⟨0x20004, 0, 0, 0, 0, 10⟩
/-- Register HIF_WIN_ERR (R437), the whole word. -/
abbrev HIF_WIN_ERR : Fld := ⟨0x20008, 0, 0, 0, 0, 32⟩
abbrev HIF_WIN_ERR_RANGE : Fld := ⟨0x20008, 0, 0, 0, 0, 16⟩
abbrev HIF_WIN_ERR_POISON : Fld := ⟨0x20008, 0, 0, 0, 16, 16⟩
/-- Register HIF_ERR (R437), the whole word. -/
abbrev HIF_ERR : Fld := ⟨0x2000c, 0, 0, 0, 0, 32⟩
abbrev HIF_ERR_HOST : Fld := ⟨0x2000c, 0, 0, 0, 0, 16⟩
abbrev HIF_ERR_DOWNS : Fld := ⟨0x2000c, 0, 0, 0, 16, 8⟩
abbrev HIF_ERR_BAD_ACCESS : Fld := ⟨0x2000c, 0, 0, 0, 24, 8⟩
/-- Register HIF_WDOG (R437), the whole word. -/
abbrev HIF_WDOG : Fld := ⟨0x20010, 0, 0, 0, 0, 32⟩
abbrev HIF_WDOG_TMO : Fld := ⟨0x20010, 0, 0, 0, 0, 16⟩
/-- Register HIF_WDOG_KICK (R437), the whole word. -/
abbrev HIF_WDOG_KICK : Fld := ⟨0x20014, 0, 0, 0, 0, 32⟩
abbrev HIF_WDOG_KICK_KICK : Fld := ⟨0x20014, 0, 0, 0, 0, 1⟩
/-- Register HIF_TWMSG_LO (R437), the whole word. -/
abbrev HIF_TWMSG_LO : Fld := ⟨0x20018, 0, 0, 0, 0, 32⟩
abbrev HIF_TWMSG_LO_ADDR : Fld := ⟨0x20018, 0, 0, 0, 0, 32⟩
/-- Register HIF_TWMSG_HI (R437), the whole word. -/
abbrev HIF_TWMSG_HI : Fld := ⟨0x2001c, 0, 0, 0, 0, 32⟩
abbrev HIF_TWMSG_HI_ADDR : Fld := ⟨0x2001c, 0, 0, 0, 0, 32⟩
/-- Register HIF_JOB_DESC_LO (R437), the whole word. -/
abbrev HIF_JOB_DESC_LO : Fld := ⟨0x20100, 16, 0, 0, 0, 32⟩
abbrev HIF_JOB_DESC_LO_DESC : Fld := ⟨0x20100, 16, 0, 0, 0, 32⟩
/-- Register HIF_JOB_DESC_HI (R437), the whole word. -/
abbrev HIF_JOB_DESC_HI : Fld := ⟨0x20104, 16, 0, 0, 0, 32⟩
abbrev HIF_JOB_DESC_HI_DESC : Fld := ⟨0x20104, 16, 0, 0, 0, 32⟩
/-- Register HIF_JOB_STAT (R437), the whole word. -/
abbrev HIF_JOB_STAT : Fld := ⟨0x20108, 16, 0, 0, 0, 32⟩
abbrev HIF_JOB_STAT_VALID : Fld := ⟨0x20108, 16, 0, 0, 0, 1⟩
abbrev HIF_JOB_STAT_START : Fld := ⟨0x20108, 16, 0, 0, 1, 1⟩
abbrev HIF_JOB_STAT_RUNNING : Fld := ⟨0x20108, 16, 0, 0, 2, 1⟩
abbrev HIF_JOB_STAT_CHAINED : Fld := ⟨0x20108, 16, 0, 0, 3, 1⟩
/-- Register HIF_Q_BASE_LO (R437), the whole word. -/
abbrev HIF_Q_BASE_LO : Fld := ⟨0x21000, 64, 0, 0, 0, 32⟩
abbrev HIF_Q_BASE_LO_BASE : Fld := ⟨0x21000, 64, 0, 0, 0, 32⟩
/-- Register HIF_Q_BASE_HI (R437), the whole word. -/
abbrev HIF_Q_BASE_HI : Fld := ⟨0x21004, 64, 0, 0, 0, 32⟩
abbrev HIF_Q_BASE_HI_BASE : Fld := ⟨0x21004, 64, 0, 0, 0, 32⟩
/-- Register HIF_Q_CFG (R437), the whole word. -/
abbrev HIF_Q_CFG : Fld := ⟨0x21008, 64, 0, 0, 0, 32⟩
abbrev HIF_Q_CFG_EN : Fld := ⟨0x21008, 64, 0, 0, 0, 1⟩
abbrev HIF_Q_CFG_SIZEL : Fld := ⟨0x21008, 64, 0, 0, 1, 4⟩
abbrev HIF_Q_CFG_ABORT : Fld := ⟨0x21008, 64, 0, 0, 5, 1⟩
/-- Register HIF_Q_PI (R437), the whole word. -/
abbrev HIF_Q_PI : Fld := ⟨0x2100c, 64, 0, 0, 0, 32⟩
abbrev HIF_Q_PI_PI : Fld := ⟨0x2100c, 64, 0, 0, 0, 32⟩
/-- Register HIF_Q_CI (R437), the whole word. -/
abbrev HIF_Q_CI : Fld := ⟨0x21010, 64, 0, 0, 0, 32⟩
abbrev HIF_Q_CI_CI : Fld := ⟨0x21010, 64, 0, 0, 0, 32⟩
/-- Register HIF_Q_STAT (R437), the whole word. -/
abbrev HIF_Q_STAT : Fld := ⟨0x21014, 64, 0, 0, 0, 32⟩
abbrev HIF_Q_STAT_ACTIVE : Fld := ⟨0x21014, 64, 0, 0, 0, 1⟩
abbrev HIF_Q_STAT_STALL : Fld := ⟨0x21014, 64, 0, 0, 1, 1⟩
abbrev HIF_Q_STAT_ABORT : Fld := ⟨0x21014, 64, 0, 0, 2, 2⟩
abbrev HIF_Q_STAT_ERR : Fld := ⟨0x21014, 64, 0, 0, 4, 3⟩
abbrev HIF_Q_STAT_LOST : Fld := ⟨0x21014, 64, 0, 0, 16, 16⟩
/-- Register HIF_Q_MOD (R437), the whole word. -/
abbrev HIF_Q_MOD : Fld := ⟨0x21018, 64, 0, 0, 0, 32⟩
abbrev HIF_Q_MOD_COUNT : Fld := ⟨0x21018, 64, 0, 0, 0, 16⟩
abbrev HIF_Q_MOD_TIME : Fld := ⟨0x21018, 64, 0, 0, 16, 16⟩
/-- Register HIF_Q_VEC (R437), the whole word. -/
abbrev HIF_Q_VEC : Fld := ⟨0x2101c, 64, 0, 0, 0, 32⟩
abbrev HIF_Q_VEC_VEC : Fld := ⟨0x2101c, 64, 0, 0, 0, 6⟩
/-- Register EVT_ROUTE (R438), the whole word. -/
abbrev EVT_ROUTE : Fld := ⟨0x10000, 4, 0, 0, 0, 32⟩
abbrev EVT_ROUTE_QUEUE0 : Fld := ⟨0x10000, 4, 0, 0, 0, 3⟩
abbrev EVT_ROUTE_QUEUE1 : Fld := ⟨0x10000, 4, 0, 0, 4, 3⟩
abbrev EVT_ROUTE_QUEUE2 : Fld := ⟨0x10000, 4, 0, 0, 8, 3⟩
abbrev EVT_ROUTE_QUEUE3 : Fld := ⟨0x10000, 4, 0, 0, 12, 3⟩
/-- Register EVT_LOST (R438), the whole word. -/
abbrev EVT_LOST : Fld := ⟨0x10100, 4, 0, 0, 0, 32⟩
abbrev EVT_LOST_LOST : Fld := ⟨0x10100, 4, 0, 0, 0, 32⟩
/-- Register EVT_STAT (R438), the whole word. -/
abbrev EVT_STAT : Fld := ⟨0x10200, 0, 0, 0, 0, 32⟩
abbrev EVT_STAT_FULL : Fld := ⟨0x10200, 0, 0, 0, 0, 8⟩
/-- Register GLB_ID (R465), the whole word. -/
abbrev GLB_ID : Fld := ⟨0x0, 0, 0, 0, 0, 32⟩
abbrev GLB_ID_DEVICE : Fld := ⟨0x0, 0, 0, 0, 0, 16⟩
abbrev GLB_ID_STEPPING : Fld := ⟨0x0, 0, 0, 0, 16, 8⟩
/-- Register GLB_START_CFG (R465), the whole word. -/
abbrev GLB_START_CFG : Fld := ⟨0x4, 0, 0, 0, 0, 32⟩
abbrev GLB_START_CFG_WARM_RST : Fld := ⟨0x4, 0, 0, 0, 0, 1⟩
/-- Register GLB_START_CMD (R465), the whole word. -/
abbrev GLB_START_CMD : Fld := ⟨0x8, 0, 0, 0, 0, 32⟩
abbrev GLB_START_CMD_COLD : Fld := ⟨0x8, 0, 0, 0, 0, 1⟩
abbrev GLB_START_CMD_WARM : Fld := ⟨0x8, 0, 0, 0, 1, 1⟩
/-- Register GLB_START_STAT (R465), the whole word. -/
abbrev GLB_START_STAT : Fld := ⟨0xc, 0, 0, 0, 0, 32⟩
abbrev GLB_START_STAT_KIND : Fld := ⟨0xc, 0, 0, 0, 0, 2⟩
abbrev GLB_START_STAT_DONE : Fld := ⟨0xc, 0, 0, 0, 2, 1⟩
abbrev GLB_START_STAT_STEP : Fld := ⟨0xc, 0, 0, 0, 3, 4⟩
abbrev GLB_START_STAT_RESULT : Fld := ⟨0xc, 0, 0, 0, 7, 4⟩
abbrev GLB_START_STAT_WFAIL : Fld := ⟨0xc, 0, 0, 0, 11, 2⟩
abbrev GLB_START_STAT_CAUSE : Fld := ⟨0xc, 0, 0, 0, 13, 3⟩
abbrev GLB_START_STAT_RECOVERY : Fld := ⟨0xc, 0, 0, 0, 16, 1⟩
/-- Register GLB_START_TIME (R465), the whole word. -/
abbrev GLB_START_TIME : Fld := ⟨0x10, 0, 0, 0, 0, 32⟩
abbrev GLB_START_TIME_MS : Fld := ⟨0x10, 0, 0, 0, 0, 32⟩
/-- Register GLB_DIE_ID_LO (R465), the whole word. -/
abbrev GLB_DIE_ID_LO : Fld := ⟨0x14, 0, 0, 0, 0, 32⟩
abbrev GLB_DIE_ID_LO_DIE_ID : Fld := ⟨0x14, 0, 0, 0, 0, 32⟩
/-- Register GLB_DIE_ID_HI (R465), the whole word. -/
abbrev GLB_DIE_ID_HI : Fld := ⟨0x18, 0, 0, 0, 0, 32⟩
abbrev GLB_DIE_ID_HI_DIE_ID : Fld := ⟨0x18, 0, 0, 0, 0, 32⟩
/-- Register GLB_BOOT (R465), the whole word. -/
abbrev GLB_BOOT : Fld := ⟨0x1c, 0, 0, 0, 0, 32⟩
abbrev GLB_BOOT_SLOT : Fld := ⟨0x1c, 0, 0, 0, 0, 1⟩
abbrev GLB_BOOT_FALLBACK : Fld := ⟨0x1c, 0, 0, 0, 1, 1⟩
abbrev GLB_BOOT_SVN : Fld := ⟨0x1c, 0, 0, 0, 16, 16⟩
/-- Register GLB_FW_SEQ (R465), the whole word. -/
abbrev GLB_FW_SEQ : Fld := ⟨0x20, 0, 0, 0, 0, 32⟩
abbrev GLB_FW_SEQ_SEQ : Fld := ⟨0x20, 0, 0, 0, 0, 32⟩
/-- Register GLB_NOR_ADDR (R465), the whole word. -/
abbrev GLB_NOR_ADDR : Fld := ⟨0x30, 0, 0, 0, 0, 32⟩
abbrev GLB_NOR_ADDR_ADDR : Fld := ⟨0x30, 0, 0, 0, 0, 26⟩
/-- Register GLB_NOR_DATA (R465), the whole word. -/
abbrev GLB_NOR_DATA : Fld := ⟨0x34, 0, 0, 0, 0, 32⟩
abbrev GLB_NOR_DATA_DATA : Fld := ⟨0x34, 0, 0, 0, 0, 32⟩
/-- Register GLB_NOR_CMD (R465), the whole word. -/
abbrev GLB_NOR_CMD : Fld := ⟨0x38, 0, 0, 0, 0, 32⟩
abbrev GLB_NOR_CMD_OP : Fld := ⟨0x38, 0, 0, 0, 0, 2⟩
/-- Register GLB_NOR_STAT (R465), the whole word. -/
abbrev GLB_NOR_STAT : Fld := ⟨0x3c, 0, 0, 0, 0, 32⟩
abbrev GLB_NOR_STAT_BUSY : Fld := ⟨0x3c, 0, 0, 0, 0, 1⟩
abbrev GLB_NOR_STAT_ERR : Fld := ⟨0x3c, 0, 0, 0, 1, 1⟩
/-- Register MGT_STAT (R466), the whole word. -/
abbrev MGT_STAT : Fld := ⟨0x1000000, 0, 0, 0, 0, 32⟩
abbrev MGT_STAT_CORES : Fld := ⟨0x1000000, 0, 0, 0, 0, 4⟩
abbrev MGT_STAT_RESTARTING : Fld := ⟨0x1000000, 0, 0, 0, 4, 1⟩
abbrev MGT_STAT_RESTARTS : Fld := ⟨0x1000000, 0, 0, 0, 8, 8⟩
/-- Register MGT_WDOG (R466), the whole word. -/
abbrev MGT_WDOG : Fld := ⟨0x1000004, 0, 0, 0, 0, 32⟩
abbrev MGT_WDOG_TMO : Fld := ⟨0x1000004, 0, 0, 0, 0, 16⟩
/-- Register MGT_HK_ROUND (R466), the whole word. -/
abbrev MGT_HK_ROUND : Fld := ⟨0x1000008, 0, 0, 0, 0, 32⟩
abbrev MGT_HK_ROUND_ROUND : Fld := ⟨0x1000008, 0, 0, 0, 0, 32⟩
/-- Register MGT_TDIE (R466), the whole word. -/
abbrev MGT_TDIE : Fld := ⟨0x100000c, 0, 0, 0, 0, 32⟩
abbrev MGT_TDIE_TDIE : Fld := ⟨0x100000c, 0, 0, 0, 0, 16⟩
abbrev MGT_TDIE_PEAK : Fld := ⟨0x100000c, 0, 0, 0, 16, 16⟩
/-- Register MGT_THERM (R466), the whole word. -/
abbrev MGT_THERM : Fld := ⟨0x1000010, 0, 0, 0, 0, 32⟩
abbrev MGT_THERM_TJ_WARN : Fld := ⟨0x1000010, 0, 0, 0, 0, 8⟩
abbrev MGT_THERM_TJ_SAFE : Fld := ⟨0x1000010, 0, 0, 0, 8, 8⟩
/-- Register MGT_XCHK (R466), the whole word. -/
abbrev MGT_XCHK : Fld := ⟨0x1000014, 0, 0, 0, 0, 32⟩
abbrev MGT_XCHK_DEV : Fld := ⟨0x1000014, 0, 0, 0, 0, 8⟩
abbrev MGT_XCHK_AGREE : Fld := ⟨0x1000014, 0, 0, 0, 8, 8⟩
abbrev MGT_XCHK_CLEAR : Fld := ⟨0x1000014, 0, 0, 0, 16, 8⟩
/-- Register MGT_LOG_WR (R466), the whole word. -/
abbrev MGT_LOG_WR : Fld := ⟨0x1000018, 0, 0, 0, 0, 32⟩
abbrev MGT_LOG_WR_WR : Fld := ⟨0x1000018, 0, 0, 0, 0, 32⟩
/-- Register MGT_TS_CFG (R466), the whole word. -/
abbrev MGT_TS_CFG : Fld := ⟨0x1000100, 16, 0, 0, 0, 32⟩
abbrev MGT_TS_CFG_TYPE : Fld := ⟨0x1000100, 16, 0, 0, 0, 2⟩
abbrev MGT_TS_CFG_N1 : Fld := ⟨0x1000100, 16, 0, 0, 2, 5⟩
abbrev MGT_TS_CFG_N1_EN : Fld := ⟨0x1000100, 16, 0, 0, 7, 1⟩
abbrev MGT_TS_CFG_N2 : Fld := ⟨0x1000100, 16, 0, 0, 8, 5⟩
abbrev MGT_TS_CFG_N2_EN : Fld := ⟨0x1000100, 16, 0, 0, 13, 1⟩
/-- Register MGT_TS_PAR0 (R466), the whole word. -/
abbrev MGT_TS_PAR0 : Fld := ⟨0x1000104, 16, 0, 0, 0, 32⟩
abbrev MGT_TS_PAR0_IDEAL_B : Fld := ⟨0x1000104, 16, 0, 0, 0, 16⟩
abbrev MGT_TS_PAR0_RSER_R25 : Fld := ⟨0x1000104, 16, 0, 0, 16, 16⟩
/-- Register MGT_TS_PAR1 (R466), the whole word. -/
abbrev MGT_TS_PAR1 : Fld := ⟨0x1000108, 16, 0, 0, 0, 32⟩
abbrev MGT_TS_PAR1_RPU : Fld := ⟨0x1000108, 16, 0, 0, 0, 16⟩
/-- Register MGT_TS_VAL (R466), the whole word. -/
abbrev MGT_TS_VAL : Fld := ⟨0x100010c, 16, 0, 0, 0, 32⟩
abbrev MGT_TS_VAL_READ : Fld := ⟨0x100010c, 16, 0, 0, 0, 16⟩
abbrev MGT_TS_VAL_CTRL : Fld := ⟨0x100010c, 16, 0, 0, 16, 16⟩
/-- Register MGT_TS_STAT (R466), the whole word. -/
abbrev MGT_TS_STAT : Fld := ⟨0x1000300, 4, 0, 0, 0, 32⟩
abbrev MGT_TS_STAT_STATE : Fld := ⟨0x1000300, 4, 0, 0, 0, 2⟩
abbrev MGT_TS_STAT_NOJUDGE : Fld := ⟨0x1000300, 4, 0, 0, 2, 1⟩
abbrev MGT_TS_STAT_SUSPECTS : Fld := ⟨0x1000300, 4, 0, 0, 8, 8⟩
/-- Register MGT_SM_CFG (R466), the whole word. -/
abbrev MGT_SM_CFG : Fld := ⟨0x1000400, 16, 0, 0, 0, 32⟩
abbrev MGT_SM_CFG_NOM : Fld := ⟨0x1000400, 16, 0, 0, 0, 16⟩
abbrev MGT_SM_CFG_WARN : Fld := ⟨0x1000400, 16, 0, 0, 16, 8⟩
abbrev MGT_SM_CFG_TRIP : Fld := ⟨0x1000400, 16, 0, 0, 24, 8⟩
/-- Register MGT_SM_CFG2 (R466), the whole word. -/
abbrev MGT_SM_CFG2 : Fld := ⟨0x1000404, 16, 0, 0, 0, 32⟩
abbrev MGT_SM_CFG2_DIV : Fld := ⟨0x1000404, 16, 0, 0, 0, 16⟩
abbrev MGT_SM_CFG2_ACT : Fld := ⟨0x1000404, 16, 0, 0, 16, 1⟩
/-- Register MGT_SM_VAL (R466), the whole word. -/
abbrev MGT_SM_VAL : Fld := ⟨0x1000408, 16, 0, 0, 0, 32⟩
abbrev MGT_SM_VAL_MV : Fld := ⟨0x1000408, 16, 0, 0, 0, 16⟩
abbrev MGT_SM_VAL_STATE : Fld := ⟨0x1000408, 16, 0, 0, 16, 2⟩
abbrev MGT_SM_VAL_TRIPS : Fld := ⟨0x1000408, 16, 0, 0, 24, 8⟩
/-- Register MGT_OD (R466), the whole word. -/
abbrev MGT_OD : Fld := ⟨0x1000600, 4, 0, 0, 0, 32⟩
abbrev MGT_OD_TEMP : Fld := ⟨0x1000600, 4, 0, 0, 0, 16⟩
abbrev MGT_OD_EXCL : Fld := ⟨0x1000600, 4, 0, 0, 16, 1⟩
/-- Register GLB_COMPAT (R490), the whole word. -/
abbrev GLB_COMPAT : Fld := ⟨0x24, 0, 0, 0, 0, 32⟩
abbrev GLB_COMPAT_LEVEL : Fld := ⟨0x24, 0, 0, 0, 0, 2⟩
abbrev GLB_COMPAT_CFG_ERR : Fld := ⟨0x24, 0, 0, 0, 2, 1⟩
/-- Register NZT (R233), the whole word. -/
abbrev NZT : Fld := ⟨0x400000, 4, 0, 0, 0, 32⟩
abbrev NZT_GAIN : Fld := ⟨0x400000, 4, 0, 0, 0, 10⟩
abbrev NZT_OFFSET : Fld := ⟨0x400000, 4, 0, 0, 10, 8⟩
abbrev NZT_STATE : Fld := ⟨0x400000, 4, 0, 0, 18, 2⟩
abbrev NZT_NWSEL : Fld := ⟨0x400000, 4, 0, 0, 20, 4⟩
abbrev NZT_RSV : Fld := ⟨0x400000, 4, 0, 0, 24, 8⟩
/-- MSI-X table word ADDR_LO of vector v (R433; layout PRESUMED from the PCIe specification, log 4). -/
abbrev MSIX_ADDR_LO : Fld := ⟨0x28000, 16, 0, 0, 0, 32⟩
/-- MSI-X table word ADDR_HI of vector v (R433; layout PRESUMED from the PCIe specification, log 4). -/
abbrev MSIX_ADDR_HI : Fld := ⟨0x28004, 16, 0, 0, 0, 32⟩
/-- MSI-X table word DATA of vector v (R433; layout PRESUMED from the PCIe specification, log 4). -/
abbrev MSIX_DATA : Fld := ⟨0x28008, 16, 0, 0, 0, 32⟩
/-- MSI-X table word CTRL of vector v (R433; layout PRESUMED from the PCIe specification, log 4). -/
abbrev MSIX_CTRL : Fld := ⟨0x2800c, 16, 0, 0, 0, 32⟩
abbrev MSIX_CTRL_MASK : Fld := ⟨0x2800c, 16, 0, 0, 0, 1⟩
/-- MSI-X pending-bit array word k (R433; PRESUMED layout, log 4). -/
abbrev MSIX_PBA : Fld := ⟨0x29000, 4, 0, 0, 0, 32⟩

/-- Register table of block GLB, part 0. -/
def regsGLB0 : List RegDef := [
  /- GLB_MODE_REQ -/ ⟨0x100, [], [⟨0, 4, .WO, 0, 0, false⟩, ⟨4, 1, .WO, 0, 0, false⟩, ⟨8, 8, .WO, 0, 0, false⟩]⟩,
  /- GLB_MODE_STAT -/ ⟨0x104, [], [⟨0, 4, .RO, 0, 0, false⟩, ⟨4, 4, .RO, 15, 0, false⟩, ⟨8, 8, .RO, 0, 0, false⟩, ⟨16, 3, .RO, 0, 0, false⟩, ⟨20, 4, .RO, 1, 0, false⟩]⟩,
  /- GLB_PRINT_TRIG -/ ⟨0x130, [], [⟨0, 4, .RW, 0, 0, true⟩, ⟨4, 1, .RW, 0, 0, true⟩]⟩,
  /- GLB_HOLD_CAUSE -/ ⟨0x10c, [], [⟨0, 1, .RO, 0, 0, false⟩, ⟨1, 2, .RO, 0, 0, false⟩, ⟨3, 2, .RO, 0, 0, false⟩, ⟨5, 5, .RO, 0, 0, false⟩, ⟨31, 1, .WO, 0, 0, false⟩]⟩,
  /- GLB_UST -/ ⟨0x2000, [(4, 256)], [⟨0, 3, .RO, 0, 0, true⟩, ⟨4, 3, .RO, 0, 0, true⟩, ⟨8, 3, .RO, 0, 0, true⟩, ⟨11, 1, .RO, 0, 0, false⟩, ⟨16, 8, .RO, 0, 0, true⟩, ⟨24, 8, .RO, 0, 0, true⟩]⟩,
  /- GLB_SKEW_MAP -/ ⟨0x110, [(4, 8)], [⟨0, 32, .RO, 0, 0, false⟩]⟩,
  /- GLB_FATAL_FIRST -/ ⟨0x108, [], [⟨0, 16, .RO, 0, 0, true⟩, ⟨16, 8, .RO, 0, 0, true⟩, ⟨31, 1, .W1C, 0, 0, true⟩]⟩,
  /- GLB_ID -/ ⟨0x0, [], [⟨0, 16, .RO, 8722, 0, false⟩, ⟨16, 8, .RO, Config.stepping, 0, true⟩]⟩,
  /- GLB_START_CFG -/ ⟨0x4, [], [⟨0, 1, .RW, 1, 0, true⟩]⟩,
  /- GLB_START_CMD -/ ⟨0x8, [], [⟨0, 1, .WO, 0, 0, false⟩, ⟨1, 1, .WO, 0, 0, false⟩]⟩,
  /- GLB_START_STAT -/ ⟨0xc, [], [⟨0, 2, .RO, 0, 0, true⟩, ⟨2, 1, .RO, 0, 0, true⟩, ⟨3, 4, .RO, 0, 0, true⟩, ⟨7, 4, .RO, 0, 0, true⟩, ⟨11, 2, .RO, 0, 0, true⟩, ⟨13, 3, .RO, 0, 0, true⟩, ⟨16, 1, .RO, 0, 0, false⟩]⟩,
  /- GLB_START_TIME -/ ⟨0x10, [], [⟨0, 32, .RO, 0, 0, true⟩]⟩,
  /- GLB_DIE_ID_LO -/ ⟨0x14, [], [⟨0, 32, .RO, (Config.dieId % 2 ^ 32), 0, true⟩]⟩,
  /- GLB_DIE_ID_HI -/ ⟨0x18, [], [⟨0, 32, .RO, (Config.dieId / 2 ^ 32), 0, true⟩]⟩,
  /- GLB_BOOT -/ ⟨0x1c, [], [⟨0, 1, .RO, 0, 0, true⟩, ⟨1, 1, .RO, 0, 0, true⟩, ⟨16, 16, .RO, 0, 0, true⟩]⟩,
  /- GLB_FW_SEQ -/ ⟨0x20, [], [⟨0, 32, .RO, 0, 0, true⟩]⟩,
  /- GLB_NOR_ADDR -/ ⟨0x30, [], [⟨0, 26, .RW, 0, 0, false⟩]⟩,
  /- GLB_NOR_DATA -/ ⟨0x34, [], [⟨0, 32, .RW, 0, 0, false⟩]⟩,
  /- GLB_NOR_CMD -/ ⟨0x38, [], [⟨0, 2, .WO, 0, 0, false⟩]⟩,
  /- GLB_NOR_STAT -/ ⟨0x3c, [], [⟨0, 1, .RO, 0, 0, false⟩, ⟨1, 1, .RO, 0, 0, false⟩]⟩,
  /- GLB_COMPAT -/ ⟨0x24, [], [⟨0, 2, .RW, 0, 0, true⟩, ⟨2, 1, .W1C, 0, 0, false⟩]⟩]

/-- Register table of block GLB. -/
def regsGLB : List RegDef := regsGLB0

/-- Register table of block EVT, part 0. -/
def regsEVT0 : List RegDef := [
  /- EVT_ROUTE -/ ⟨0x10000, [(4, 18)], [⟨0, 3, .RW, 0, 0, true⟩, ⟨4, 3, .RW, 0, 0, true⟩, ⟨8, 3, .RW, 0, 0, true⟩, ⟨12, 3, .RW, 0, 0, true⟩]⟩,
  /- EVT_LOST -/ ⟨0x10100, [(4, 8)], [⟨0, 32, .RO, 0, 0, false⟩]⟩,
  /- EVT_STAT -/ ⟨0x10200, [], [⟨0, 8, .RO, 0, 0, false⟩]⟩]

/-- Register table of block EVT. -/
def regsEVT : List RegDef := regsEVT0

/-- Register table of block HIF, part 0. -/
def regsHIF0 : List RegDef := [
  /- HIF_STAT -/ ⟨0x20000, [], [⟨0, 1, .RO, 0, 0, false⟩, ⟨1, 3, .RO, 0, 0, false⟩, ⟨4, 4, .RO, 0, 0, false⟩, ⟨8, 1, .RO, 0, 0, false⟩]⟩,
  /- HIF_WIN -/ ⟨0x20004, [], [⟨0, 10, .RW, 0, 0, true⟩]⟩,
  /- HIF_WIN_ERR -/ ⟨0x20008, [], [⟨0, 16, .RO, 0, 0, false⟩, ⟨16, 16, .RO, 0, 0, false⟩]⟩,
  /- HIF_ERR -/ ⟨0x2000c, [], [⟨0, 16, .RO, 0, 0, false⟩, ⟨16, 8, .RO, 0, 0, true⟩, ⟨24, 8, .RO, 0, 0, false⟩]⟩,
  /- HIF_WDOG -/ ⟨0x20010, [], [⟨0, 16, .RW, 0, 0, true⟩]⟩,
  /- HIF_WDOG_KICK -/ ⟨0x20014, [], [⟨0, 1, .WO, 0, 0, false⟩]⟩,
  /- HIF_TWMSG_LO -/ ⟨0x20018, [], [⟨0, 32, .RW, 0, 0, true⟩]⟩,
  /- HIF_TWMSG_HI -/ ⟨0x2001c, [], [⟨0, 32, .RW, 0, 0, true⟩]⟩,
  /- HIF_JOB_DESC_LO -/ ⟨0x20100, [(16, 8)], [⟨0, 32, .RO, 0, 0, true⟩]⟩,
  /- HIF_JOB_DESC_HI -/ ⟨0x20104, [(16, 8)], [⟨0, 32, .RO, 0, 0, true⟩]⟩,
  /- HIF_JOB_STAT -/ ⟨0x20108, [(16, 8)], [⟨0, 1, .RO, 0, 0, true⟩, ⟨1, 1, .RO, 0, 0, true⟩, ⟨2, 1, .RO, 0, 0, false⟩, ⟨3, 1, .RO, 0, 0, false⟩]⟩,
  /- HIF_Q_BASE_LO -/ ⟨0x21000, [(64, 64)], [⟨0, 32, .RW, 0, 0, false⟩]⟩,
  /- HIF_Q_BASE_HI -/ ⟨0x21004, [(64, 64)], [⟨0, 32, .RW, 0, 0, false⟩]⟩,
  /- HIF_Q_CFG -/ ⟨0x21008, [(64, 64)], [⟨0, 1, .RW, 0, 0, false⟩, ⟨1, 4, .RW, 0, 0, false⟩, ⟨5, 1, .WO, 0, 0, false⟩]⟩,
  /- HIF_Q_PI -/ ⟨0x2100c, [(64, 64)], [⟨0, 32, .RW, 0, 0, false⟩]⟩,
  /- HIF_Q_CI -/ ⟨0x21010, [(64, 64)], [⟨0, 32, .RW, 0, 0, false⟩]⟩,
  /- HIF_Q_STAT -/ ⟨0x21014, [(64, 64)], [⟨0, 1, .RO, 0, 0, false⟩, ⟨1, 1, .RO, 0, 0, false⟩, ⟨2, 2, .RO, 0, 0, false⟩, ⟨4, 3, .RO, 0, 0, false⟩, ⟨16, 16, .RO, 0, 0, false⟩]⟩,
  /- HIF_Q_MOD -/ ⟨0x21018, [(64, 64)], [⟨0, 16, .RW, 0, 0, true⟩, ⟨16, 16, .RW, 0, 0, true⟩]⟩,
  /- HIF_Q_VEC -/ ⟨0x2101c, [(64, 64)], [⟨0, 6, .RW, 0, 1, false⟩]⟩,
  /- MSIX_ADDR_LO -/ ⟨0x28000, [(16, 64)], [⟨0, 32, .RW, 0, 0, false⟩]⟩,
  /- MSIX_ADDR_HI -/ ⟨0x28004, [(16, 64)], [⟨0, 32, .RW, 0, 0, false⟩]⟩,
  /- MSIX_DATA -/ ⟨0x28008, [(16, 64)], [⟨0, 32, .RW, 0, 0, false⟩]⟩,
  /- MSIX_CTRL -/ ⟨0x2800c, [(16, 64)], [⟨0, 1, .RW, 1, 0, false⟩]⟩,
  /- MSIX_PBA -/ ⟨0x29000, [(4, 2)], [⟨0, 32, .RO, 0, 0, false⟩]⟩]

/-- Register table of block HIF. -/
def regsHIF : List RegDef := regsHIF0

/-- Register table of block GEK, part 0. -/
def regsGEK0 : List RegDef := [
  /- GEK_CTL -/ ⟨0x40000, [], [⟨0, 2, .RW, 0, 0, true⟩]⟩,
  /- GEK_STAT -/ ⟨0x40004, [], [⟨0, 8, .RO, 0, 0, false⟩, ⟨8, 4, .RO, 0, 0, false⟩, ⟨12, 4, .RO, 0, 0, false⟩]⟩,
  /- GEK_ENC_CTL -/ ⟨0x40100, [(32, 8)], [⟨0, 1, .RW, 0, 0, true⟩, ⟨1, 1, .RW, 0, 0, true⟩, ⟨2, 5, .RW, 3, 0, true⟩, ⟨7, 1, .RW, 0, 0, true⟩, ⟨8, 1, .RW, 0, 0, true⟩, ⟨9, 1, .WO, 0, 0, false⟩]⟩,
  /- GEK_ENC_STAT -/ ⟨0x40104, [(32, 8)], [⟨0, 3, .RO, 0, 0, false⟩, ⟨3, 1, .RO, 0, 0, false⟩, ⟨4, 1, .W1C, 0, 0, false⟩]⟩,
  /- GEK_ENC_COUNT -/ ⟨0x40108, [(32, 8)], [⟨0, 32, .RO, 0, 0, true⟩]⟩,
  /- GEK_ENC_ERR -/ ⟨0x4010c, [(32, 8)], [⟨0, 16, .RO, 0, 0, false⟩, ⟨16, 16, .RO, 0, 0, false⟩]⟩,
  /- GEK_ABS_CTL -/ ⟨0x40200, [(32, 4)], [⟨0, 1, .RW, 0, 0, true⟩, ⟨1, 5, .RW, 24, 0, true⟩, ⟨6, 1, .RW, 1, 0, true⟩, ⟨7, 1, .RW, 0, 0, true⟩, ⟨8, 1, .RW, 0, 0, true⟩, ⟨16, 11, .RW, 199, 0, true⟩]⟩,
  /- GEK_ABS_TIMING -/ ⟨0x40204, [(32, 4)], [⟨0, 16, .RW, 0, 0, true⟩, ⟨16, 8, .RW, 20, 0, true⟩]⟩,
  /- GEK_ABS_VALUE -/ ⟨0x40208, [(32, 4)], [⟨0, 32, .RO, 0, 0, false⟩]⟩,
  /- GEK_ABS_ERR -/ ⟨0x4020c, [(32, 4)], [⟨0, 16, .RO, 0, 0, false⟩, ⟨16, 1, .RO, 0, 0, false⟩]⟩,
  /- GEK_ABS_MAXDELTA -/ ⟨0x40210, [(32, 4)], [⟨0, 32, .RW, 0, 0, true⟩]⟩,
  /- GEK_MK_CTL -/ ⟨0x40300, [(32, 8)], [⟨0, 1, .RW, 0, 0, true⟩, ⟨1, 2, .RW, 0, 0, true⟩, ⟨3, 8, .RW, 15, 0, true⟩, ⟨11, 2, .RW, 0, 0, true⟩]⟩,
  /- GEK_MK_HOLDOFF -/ ⟨0x40304, [(32, 8)], [⟨0, 32, .RW, 0, 0, true⟩]⟩,
  /- GEK_MK_STAT -/ ⟨0x40308, [(32, 8)], [⟨0, 1, .RO, 0, 0, false⟩, ⟨16, 16, .RO, 0, 0, false⟩]⟩,
  /- GEK_MK_LATCH_LO -/ ⟨0x4030c, [(32, 8)], [⟨0, 32, .RO, 0, 0, false⟩]⟩,
  /- GEK_MK_LATCH_HI -/ ⟨0x40310, [(32, 8)], [⟨0, 32, .RO, 0, 0, false⟩]⟩,
  /- GEK_TRK_CTL -/ ⟨0x41000, [(256, 4)], [⟨0, 1, .RW, 0, 0, true⟩, ⟨1, 1, .RW, 0, 0, true⟩, ⟨2, 3, .RW, 0, 0, true⟩, ⟨5, 1, .RW, 0, 0, true⟩, ⟨6, 1, .RW, 0, 0, true⟩, ⟨7, 3, .RW, 0, 0, true⟩, ⟨10, 1, .RW, 1, 0, true⟩, ⟨11, 1, .RW, 0, 0, true⟩, ⟨12, 3, .RW, 0, 0, true⟩, ⟨15, 1, .RW, 0, 0, true⟩, ⟨16, 2, .RW, 0, 0, true⟩, ⟨18, 1, .RW, 0, 0, true⟩, ⟨19, 1, .RW, 0, 0, true⟩, ⟨20, 1, .W1S, 0, 0, false⟩, ⟨21, 1, .WO, 0, 0, false⟩]⟩,
  /- GEK_TRK_STAT -/ ⟨0x41004, [(256, 4)], [⟨0, 1, .RO, 0, 0, false⟩, ⟨1, 1, .RO, 0, 0, false⟩, ⟨2, 1, .RO, 1, 0, false⟩, ⟨3, 1, .RO, 0, 0, false⟩, ⟨4, 1, .RO, 0, 0, false⟩, ⟨5, 1, .RO, 0, 0, false⟩, ⟨6, 1, .RO, 0, 0, false⟩, ⟨7, 1, .RO, 0, 0, false⟩, ⟨8, 1, .RO, 0, 0, false⟩, ⟨9, 1, .W1C, 0, 0, false⟩, ⟨10, 2, .RO, 0, 0, false⟩]⟩,
  /- GEK_TRK_STEP_FRAC -/ ⟨0x41008, [(256, 4)], [⟨0, 32, .RW, 0, 0, true⟩]⟩,
  /- GEK_TRK_STEP_INT -/ ⟨0x4100c, [(256, 4)], [⟨0, 32, .RW, 0, 0, true⟩]⟩,
  /- GEK_TRK_SSTEP_FRAC -/ ⟨0x41010, [(256, 4)], [⟨0, 32, .RW, 0, 0, true⟩]⟩,
  /- GEK_TRK_SSTEP_INT -/ ⟨0x41014, [(256, 4)], [⟨0, 32, .RW, 0, 0, true⟩]⟩,
  /- GEK_TRK_POS_LO -/ ⟨0x41018, [(256, 4)], [⟨0, 32, .RO, 0, 0, true⟩]⟩,
  /- GEK_TRK_POS_HI -/ ⟨0x4101c, [(256, 4)], [⟨0, 32, .RO, 0, 0, true⟩]⟩,
  /- GEK_TRK_LOAD_LO -/ ⟨0x41020, [(256, 4)], [⟨0, 32, .RW, 0, 0, true⟩]⟩]

/-- Register table of block GEK, part 1. -/
def regsGEK1 : List RegDef := [
  /- GEK_TRK_LOAD_HI -/ ⟨0x41024, [(256, 4)], [⟨0, 32, .RW, 0, 0, true⟩]⟩,
  /- GEK_TRK_SPEED -/ ⟨0x41028, [(256, 4)], [⟨0, 32, .RO, 0, 0, false⟩]⟩,
  /- GEK_TRK_SPD_LOW -/ ⟨0x4102c, [(256, 4)], [⟨0, 32, .RW, 2000, 0, true⟩]⟩,
  /- GEK_TRK_SPD_HIGH -/ ⟨0x41030, [(256, 4)], [⟨0, 32, .RW, 2400, 0, true⟩]⟩,
  /- GEK_TRK_GATE -/ ⟨0x41034, [(256, 4)], [⟨0, 32, .RW, 1000, 0, true⟩]⟩,
  /- GEK_TRK_STILL -/ ⟨0x41038, [(256, 4)], [⟨0, 32, .RW, 100000, 0, true⟩]⟩,
  /- GEK_TRK_WINDOW -/ ⟨0x4103c, [(256, 4)], [⟨0, 32, .RW, 0, 0, true⟩]⟩,
  /- GEK_TRK_IDX_PITCH_LO -/ ⟨0x41040, [(256, 4)], [⟨0, 32, .RW, 0, 0, true⟩]⟩,
  /- GEK_TRK_IDX_PITCH_HI -/ ⟨0x41044, [(256, 4)], [⟨0, 32, .RW, 0, 0, true⟩]⟩,
  /- GEK_TRK_IDX_LOAD_LO -/ ⟨0x41048, [(256, 4)], [⟨0, 32, .RW, 0, 0, true⟩]⟩,
  /- GEK_TRK_IDX_LOAD_HI -/ ⟨0x4104c, [(256, 4)], [⟨0, 32, .RW, 0, 0, true⟩]⟩,
  /- GEK_TRK_NEXT_LO -/ ⟨0x41050, [(256, 4)], [⟨0, 32, .RO, 0, 0, true⟩]⟩,
  /- GEK_TRK_NEXT_HI -/ ⟨0x41054, [(256, 4)], [⟨0, 32, .RO, 0, 0, true⟩]⟩,
  /- GEK_TRK_IDX_DEV -/ ⟨0x41058, [(256, 4)], [⟨0, 32, .RO, 0, 0, false⟩]⟩,
  /- GEK_TRK_SPREAD -/ ⟨0x4105c, [(256, 4)], [⟨0, 16, .RW, 1024, 0, true⟩, ⟨16, 4, .RW, 0, 0, true⟩]⟩,
  /- GEK_TRK_CORR_REM -/ ⟨0x41060, [(256, 4)], [⟨0, 32, .RO, 0, 0, false⟩]⟩,
  /- GEK_TRK_IDX_CNT -/ ⟨0x41064, [(256, 4)], [⟨0, 16, .RO, 0, 0, false⟩, ⟨16, 16, .RO, 0, 0, false⟩]⟩,
  /- GEK_TRK_SHEET_MIN -/ ⟨0x41068, [(256, 4)], [⟨0, 32, .RW, 0, 0, true⟩]⟩,
  /- GEK_TRK_SHEET_MAX -/ ⟨0x4106c, [(256, 4)], [⟨0, 32, .RW, 0, 0, true⟩]⟩,
  /- GEK_TRK_SHEET_NUM -/ ⟨0x41070, [(256, 4)], [⟨0, 32, .RO, 0, 0, true⟩]⟩,
  /- GEK_TRK_SHEET_Q -/ ⟨0x41074, [(256, 4)], [⟨0, 5, .RO, 0, 0, false⟩]⟩,
  /- GEK_TRK_REV_CNT -/ ⟨0x41078, [(256, 4)], [⟨0, 32, .RO, 0, 0, false⟩]⟩,
  /- GEK_LC_CTL -/ ⟨0x42000, [(128, 16)], [⟨0, 1, .RW, 0, 0, true⟩, ⟨1, 2, .RW, 0, 0, true⟩, ⟨3, 1, .RW, 0, 0, true⟩]⟩,
  /- GEK_LC_STAT -/ ⟨0x42004, [(128, 16)], [⟨0, 1, .RO, 0, 0, false⟩, ⟨1, 1, .RO, 0, 0, false⟩, ⟨2, 1, .RO, 0, 0, false⟩, ⟨3, 1, .RO, 0, 0, false⟩]⟩,
  /- GEK_LC_OFFSET_LO -/ ⟨0x42008, [(128, 16)], [⟨0, 32, .RWS, 0, 0, true⟩]⟩]

/-- Register table of block GEK, part 2. -/
def regsGEK2 : List RegDef := [
  /- GEK_LC_OFFSET_HI -/ ⟨0x4200c, [(128, 16)], [⟨0, 32, .RWS, 0, 0, true⟩]⟩,
  /- GEK_LC_PITCH_FRAC -/ ⟨0x42010, [(128, 16)], [⟨0, 32, .RWS, 0, 0, true⟩]⟩,
  /- GEK_LC_PITCH_INT -/ ⟨0x42014, [(128, 16)], [⟨0, 32, .RWS, 0, 0, true⟩]⟩,
  /- GEK_LC_CMP_FRAC -/ ⟨0x42018, [(128, 16)], [⟨0, 32, .RW, 0, 0, true⟩]⟩,
  /- GEK_LC_CMP_LO -/ ⟨0x4201c, [(128, 16)], [⟨0, 32, .RW, 0, 0, true⟩]⟩,
  /- GEK_LC_CMP_HI -/ ⟨0x42020, [(128, 16)], [⟨0, 32, .RW, 0, 0, true⟩]⟩,
  /- GEK_LC_LINE_LO -/ ⟨0x42024, [(128, 16)], [⟨0, 32, .RW, 0, 0, true⟩]⟩,
  /- GEK_LC_LINE_HI -/ ⟨0x42028, [(128, 16)], [⟨0, 32, .RW, 0, 0, true⟩]⟩,
  /- GEK_LC_HWM_LO -/ ⟨0x4202c, [(128, 16)], [⟨0, 32, .RO, 0, 0, true⟩]⟩,
  /- GEK_LC_HWM_HI -/ ⟨0x42030, [(128, 16)], [⟨0, 32, .RO, 0, 0, true⟩]⟩,
  /- GEK_LC_MINGAP -/ ⟨0x42034, [(128, 16)], [⟨0, 32, .RW, 8334, 0, true⟩]⟩,
  /- GEK_LC_SKIP -/ ⟨0x42038, [(128, 16)], [⟨0, 32, .RO, 0, 0, false⟩]⟩,
  /- GEK_LC_SHEET_TOP -/ ⟨0x4203c, [(128, 16)], [⟨0, 32, .RW, 0, 0, true⟩]⟩,
  /- GEK_LC_SHEET_LINES -/ ⟨0x42040, [(128, 16)], [⟨0, 32, .RW, 0, 0, true⟩]⟩,
  /- GEK_LC_SHEET -/ ⟨0x42044, [(128, 16)], [⟨0, 32, .RO, 0, 0, true⟩]⟩]

/-- Register table of block GEK. -/
def regsGEK : List RegDef := regsGEK0 ++ regsGEK1 ++ regsGEK2

/-- Register table of block SEQ, part 0. -/
def regsSEQ0 : List RegDef := [
  /- SEQ_BIND -/ ⟨0x80000, [(4, 4)], [⟨0, 4, .RW, 0, 0, true⟩, ⟨8, 4, .RW, 0, 0, true⟩, ⟨16, 4, .RW, 0, 0, true⟩, ⟨24, 4, .RW, 0, 0, true⟩, ⟨7, 1, .RW, 0, 0, true⟩, ⟨15, 1, .RW, 0, 0, true⟩, ⟨23, 1, .RW, 0, 0, true⟩, ⟨31, 1, .RW, 0, 0, true⟩]⟩,
  /- SEQ_TRIG -/ ⟨0x80010, [], [⟨0, 16, .WO, 0, 0, false⟩]⟩,
  /- SEQ_STAT -/ ⟨0x80014, [], [⟨0, 1, .W1C, 0, 0, false⟩]⟩,
  /- SEQ_LD_SRC_LO -/ ⟨0x80100, [], [⟨0, 32, .RW, 0, 0, false⟩]⟩,
  /- SEQ_LD_SRC_HI -/ ⟨0x80104, [], [⟨0, 32, .RW, 0, 0, false⟩]⟩,
  /- SEQ_LD_DST -/ ⟨0x80108, [], [⟨0, 5, .RW, 0, 0, false⟩, ⟨5, 1, .RW, 0, 0, false⟩, ⟨6, 1, .RW, 0, 0, false⟩]⟩,
  /- SEQ_LD_OFF -/ ⟨0x8010c, [], [⟨0, 19, .RW, 0, 0, false⟩]⟩,
  /- SEQ_LD_LEN -/ ⟨0x80110, [], [⟨0, 20, .RW, 0, 0, false⟩]⟩,
  /- SEQ_LD_CMD -/ ⟨0x80114, [], [⟨0, 1, .WO, 0, 0, false⟩, ⟨1, 1, .WO, 0, 0, false⟩]⟩,
  /- SEQ_LD_STAT -/ ⟨0x80118, [], [⟨0, 1, .RO, 0, 0, false⟩, ⟨1, 3, .RO, 0, 0, false⟩]⟩,
  /- ENG_CMD -/ ⟨0x81000, [(256, 28)], [⟨0, 3, .WO, 0, 0, false⟩]⟩,
  /- ENG_STAT -/ ⟨0x81004, [(256, 16)], [⟨0, 3, .RO, 0, 0, false⟩, ⟨3, 1, .RO, 0, 0, false⟩, ⟨4, 1, .RO, 0, 0, false⟩, ⟨5, 1, .W1C, 0, 0, false⟩, ⟨6, 1, .RO, 0, 0, false⟩, ⟨7, 5, .RO, 0, 0, false⟩, ⟨12, 4, .RO, 0, 0, false⟩]⟩,
  /- ENG_STAT -/ ⟨0x82004, [(256, 12)], [⟨0, 3, .RO, 0, 0, false⟩, ⟨3, 1, .RO, 1, 0, false⟩, ⟨4, 1, .RO, 0, 0, false⟩, ⟨5, 1, .W1C, 0, 0, false⟩, ⟨6, 1, .RO, 0, 0, false⟩, ⟨7, 5, .RO, 0, 0, false⟩, ⟨12, 4, .RO, 0, 0, false⟩]⟩,
  /- ENG_ENTRY -/ ⟨0x81008, [(256, 28)], [⟨0, 16, .RW, 0, 0, true⟩]⟩,
  /- ENG_PC -/ ⟨0x8100c, [(256, 28)], [⟨0, 16, .RO, 0, 0, false⟩]⟩,
  /- ENG_TRAP -/ ⟨0x81010, [(256, 28)], [⟨0, 8, .RO, 0, 0, false⟩, ⟨16, 16, .RO, 0, 0, false⟩]⟩,
  /- ENG_TRAP_INSN -/ ⟨0x81014, [(256, 28)], [⟨0, 32, .RO, 0, 0, false⟩]⟩,
  /- ENG_WAIT_TMO -/ ⟨0x81018, [(256, 28)], [⟨0, 32, .RW, 0, 0, true⟩]⟩,
  /- ENG_CODE_OPEN -/ ⟨0x8101c, [(256, 28)], [⟨0, 11, .RW, 0, 0, true⟩, ⟨16, 11, .RW, 0, 0, true⟩]⟩,
  /- ENG_SHEAF_TBL_LO -/ ⟨0x81020, [(256, 28)], [⟨0, 32, .RW, 0, 0, true⟩]⟩,
  /- ENG_SHEAF_TBL_HI -/ ⟨0x81024, [(256, 28)], [⟨0, 32, .RW, 0, 0, true⟩]⟩,
  /- ENG_DOORBELL -/ ⟨0x81028, [(256, 28)], [⟨0, 1, .WO, 0, 0, false⟩]⟩,
  /- ENG_BREAK -/ ⟨0x8102c, [(256, 28)], [⟨0, 1, .RW, 0, 0, false⟩, ⟨2, 14, .RW, 0, 0, false⟩]⟩,
  /- ENG_CYCLES_LO -/ ⟨0x81030, [(256, 28)], [⟨0, 32, .RO, 0, 0, false⟩]⟩,
  /- ENG_CYCLES_HI -/ ⟨0x81034, [(256, 28)], [⟨0, 32, .RO, 0, 0, false⟩]⟩]

/-- Register table of block SEQ, part 1. -/
def regsSEQ1 : List RegDef := [
  /- ENG_CNT -/ ⟨0x81038, [(256, 28)], [⟨0, 16, .RO, 0, 0, false⟩, ⟨16, 16, .RO, 0, 0, false⟩]⟩,
  /- ENG_EVLATCH0 -/ ⟨0x8103c, [(256, 28)], [⟨0, 32, .RO, 0, 0, false⟩]⟩,
  /- ENG_EVLATCH1 -/ ⟨0x81040, [(256, 28)], [⟨0, 32, .RO, 0, 0, false⟩]⟩,
  /- ENG_EVLATCH2 -/ ⟨0x81044, [(256, 28)], [⟨0, 32, .RO, 0, 0, false⟩]⟩,
  /- ENG_SHEAF_CNT -/ ⟨0x81048, [(256, 28)], [⟨0, 16, .RO, 0, 0, false⟩, ⟨16, 16, .RO, 0, 0, false⟩]⟩,
  /- ENG_G -/ ⟨0x90000, [(4096, 28), (4, 32)], [⟨0, 32, .RW, 0, 0, false⟩]⟩,
  /- ENG_P_LO -/ ⟨0x90080, [(4096, 28), (8, 8)], [⟨0, 32, .RW, 0, 0, false⟩]⟩,
  /- ENG_P_HI -/ ⟨0x90084, [(4096, 28), (8, 8)], [⟨0, 32, .RW, 0, 0, false⟩]⟩,
  /- ENG_FLAGS -/ ⟨0x900c0, [(4096, 28)], [⟨0, 4, .RW, 0, 0, false⟩]⟩,
  /- ENG_V -/ ⟨0xa0400, [(4096, 12), (32, 32), (4, 8)], [⟨0, 32, .RW, 0, 0, false⟩]⟩,
  /- SEQ_GIO_DIR -/ ⟨0x80200, [], [⟨0, 32, .RW, 0, 0, true⟩]⟩,
  /- SEQ_GIO_INV -/ ⟨0x80204, [], [⟨0, 32, .RW, 0, 0, true⟩]⟩,
  /- SEQ_GIO_SAFE0 -/ ⟨0x80208, [], [⟨0, 2, .RW, 2, 0, true⟩, ⟨2, 2, .RW, 2, 0, true⟩, ⟨4, 2, .RW, 2, 0, true⟩, ⟨6, 2, .RW, 2, 0, true⟩, ⟨8, 2, .RW, 2, 0, true⟩, ⟨10, 2, .RW, 2, 0, true⟩, ⟨12, 2, .RW, 2, 0, true⟩, ⟨14, 2, .RW, 2, 0, true⟩, ⟨16, 2, .RW, 2, 0, true⟩, ⟨18, 2, .RW, 2, 0, true⟩, ⟨20, 2, .RW, 2, 0, true⟩, ⟨22, 2, .RW, 2, 0, true⟩, ⟨24, 2, .RW, 2, 0, true⟩, ⟨26, 2, .RW, 2, 0, true⟩, ⟨28, 2, .RW, 2, 0, true⟩, ⟨30, 2, .RW, 2, 0, true⟩]⟩,
  /- SEQ_GIO_SAFE1 -/ ⟨0x8020c, [], [⟨0, 2, .RW, 2, 0, true⟩, ⟨2, 2, .RW, 2, 0, true⟩, ⟨4, 2, .RW, 2, 0, true⟩, ⟨6, 2, .RW, 2, 0, true⟩, ⟨8, 2, .RW, 2, 0, true⟩, ⟨10, 2, .RW, 2, 0, true⟩, ⟨12, 2, .RW, 2, 0, true⟩, ⟨14, 2, .RW, 2, 0, true⟩, ⟨16, 2, .RW, 2, 0, true⟩, ⟨18, 2, .RW, 2, 0, true⟩, ⟨20, 2, .RW, 2, 0, true⟩, ⟨22, 2, .RW, 2, 0, true⟩, ⟨24, 2, .RW, 2, 0, true⟩, ⟨26, 2, .RW, 2, 0, true⟩, ⟨28, 2, .RW, 2, 0, true⟩, ⟨30, 2, .RW, 2, 0, true⟩]⟩,
  /- SEQ_GIO_OUT -/ ⟨0x80210, [], [⟨0, 32, .RO, 0, 0, false⟩]⟩,
  /- SEQ_GIO_IN -/ ⟨0x80214, [], [⟨0, 32, .RO, 0, 0, false⟩]⟩,
  /- SEQ_GIO_SET -/ ⟨0x80218, [], [⟨0, 32, .WO, 0, 0, false⟩]⟩,
  /- SEQ_GIO_CLR -/ ⟨0x8021c, [], [⟨0, 32, .WO, 0, 0, false⟩]⟩,
  /- SEQ_GIO_STAT -/ ⟨0x80220, [], [⟨0, 1, .W1C, 0, 0, false⟩, ⟨1, 1, .W1C, 0, 0, false⟩]⟩,
  /- SEQ_BAR_MODE0 -/ ⟨0x80240, [], [⟨0, 4, .RO, 0, 0, false⟩, ⟨4, 4, .RO, 0, 0, false⟩, ⟨8, 4, .RO, 0, 0, false⟩, ⟨12, 4, .RO, 0, 0, false⟩, ⟨16, 4, .RO, 0, 0, false⟩, ⟨20, 4, .RO, 0, 0, false⟩, ⟨24, 4, .RO, 0, 0, false⟩, ⟨28, 4, .RO, 0, 0, false⟩]⟩,
  /- SEQ_BAR_MODE1 -/ ⟨0x80244, [], [⟨0, 4, .RO, 0, 0, false⟩, ⟨4, 4, .RO, 0, 0, false⟩, ⟨8, 4, .RO, 0, 0, false⟩, ⟨12, 4, .RO, 0, 0, false⟩, ⟨16, 4, .RO, 0, 0, false⟩, ⟨20, 4, .RO, 0, 0, false⟩, ⟨24, 4, .RO, 0, 0, false⟩, ⟨28, 4, .RO, 0, 0, false⟩]⟩,
  /- SEQ_REJ_WR -/ ⟨0x80300, [], [⟨0, 32, .RO, 0, 0, false⟩]⟩,
  /- SEQ_REJ_CTL -/ ⟨0x80304, [], [⟨0, 16, .RW, 2046, 0, true⟩, ⟨16, 1, .WO, 0, 0, false⟩]⟩,
  /- SEQ_REJ_ADD_START_LO -/ ⟨0x80310, [], [⟨0, 32, .RW, 0, 0, false⟩]⟩,
  /- SEQ_REJ_ADD_START_HI -/ ⟨0x80314, [], [⟨0, 32, .RW, 0, 0, false⟩]⟩]

/-- Register table of block SEQ, part 2. -/
def regsSEQ2 : List RegDef := [
  /- SEQ_REJ_ADD_LEN -/ ⟨0x80318, [], [⟨0, 32, .RW, 0, 0, false⟩]⟩,
  /- SEQ_REJ_ADD_CMD -/ ⟨0x8031c, [], [⟨0, 1, .WO, 0, 0, false⟩]⟩,
  /- SEQ_REJ_START_LO -/ ⟨0x80400, [(16, 64)], [⟨0, 32, .RO, 0, 0, false⟩]⟩,
  /- SEQ_REJ_START_HI -/ ⟨0x80404, [(16, 64)], [⟨0, 32, .RO, 0, 0, false⟩]⟩,
  /- SEQ_REJ_LEN -/ ⟨0x80408, [(16, 64)], [⟨0, 32, .RO, 0, 0, false⟩]⟩,
  /- SEQ_REJ_INFO -/ ⟨0x8040c, [(16, 64)], [⟨0, 8, .RO, 0, 0, false⟩, ⟨8, 4, .RO, 0, 0, false⟩, ⟨12, 2, .RO, 0, 0, false⟩, ⟨16, 16, .RO, 0, 0, false⟩]⟩]

/-- Register table of block SEQ. -/
def regsSEQ : List RegDef := regsSEQ0 ++ regsSEQ1 ++ regsSEQ2

/-- Register table of block CMP, part 0. -/
def regsCMP0 : List RegDef := [
  /- CMP_STAT -/ ⟨0x300000, [], [⟨0, 3, .RO, 0, 0, false⟩, ⟨3, 3, .RO, 0, 0, false⟩, ⟨8, 3, .RO, 0, 0, false⟩]⟩,
  /- CMP_SHEAF_CNT -/ ⟨0x300004, [], [⟨0, 16, .RO, 0, 0, false⟩, ⟨16, 16, .RO, 0, 0, false⟩]⟩,
  /- CMP_POOL -/ ⟨0x300008, [], [⟨0, 15, .RO, 16384, 0, false⟩, ⟨16, 15, .RO, 0, 0, false⟩]⟩,
  /- CMP_FMAX -/ ⟨0x30000c, [], [⟨0, 32, .RO, 0, 0, true⟩]⟩,
  /- CMP_JOB_START_LO -/ ⟨0x300010, [], [⟨0, 32, .RO, 0, 0, true⟩]⟩,
  /- CMP_JOB_START_HI -/ ⟨0x300014, [], [⟨0, 32, .RO, 0, 0, true⟩]⟩,
  /- CMP_JOB_START_REP -/ ⟨0x300018, [], [⟨0, 32, .RO, 0, 0, true⟩]⟩,
  /- CMP_JOB_START_STAT -/ ⟨0x30001c, [], [⟨0, 1, .RO, 0, 0, false⟩]⟩,
  /- CMP_FEED_BASE_LO -/ ⟨0x300020, [], [⟨0, 32, .RWS, 0, 0, true⟩]⟩,
  /- CMP_FEED_BASE_HI -/ ⟨0x300024, [], [⟨0, 32, .RWS, 0, 0, true⟩]⟩,
  /- CMP_FEED_CFG -/ ⟨0x300028, [], [⟨0, 16, .RWS, 0, 0, true⟩, ⟨16, 8, .RWS, 0, 0, true⟩]⟩,
  /- CMP_FEED_DONE -/ ⟨0x30002c, [], [⟨0, 32, .RO, 0, 0, false⟩]⟩,
  /- CMP_FEED_MISS -/ ⟨0x300030, [], [⟨0, 32, .RO, 0, 0, false⟩]⟩,
  /- CMP_POISON_CNT -/ ⟨0x300034, [], [⟨0, 32, .RO, 0, 0, false⟩]⟩,
  /- CMP_CP_CTL -/ ⟨0x301000, [(256, 16)], [⟨0, 1, .RWS, 0, 0, true⟩, ⟨1, 4, .RW, 0, 0, true⟩, ⟨5, 1, .RW, 0, 0, true⟩, ⟨6, 1, .RW, 0, 0, true⟩]⟩,
  /- CMP_CP_STAT -/ ⟨0x301004, [(256, 16)], [⟨0, 2, .RO, 0, 0, false⟩, ⟨2, 1, .RO, 0, 0, false⟩, ⟨3, 1, .RO, 0, 0, false⟩, ⟨16, 16, .RO, 0, 0, false⟩]⟩,
  /- CMP_CP_NEXT_LO -/ ⟨0x301008, [(256, 16)], [⟨0, 32, .RO, 0, 0, true⟩]⟩,
  /- CMP_CP_NEXT_HI -/ ⟨0x30100c, [(256, 16)], [⟨0, 32, .RO, 0, 0, true⟩]⟩,
  /- CMP_CP_REPEAT -/ ⟨0x301010, [(256, 16)], [⟨0, 32, .RO, 0, 0, true⟩]⟩,
  /- CMP_CP_APPLIED -/ ⟨0x301014, [(256, 16)], [⟨0, 32, .RO, 0, 0, true⟩]⟩,
  /- CMP_CP_DROPPED -/ ⟨0x301018, [(256, 16)], [⟨0, 32, .RO, 0, 0, false⟩]⟩,
  /- CMP_CP_POOL -/ ⟨0x30101c, [(256, 16)], [⟨0, 15, .RO, 0, 0, false⟩]⟩,
  /- CMP_CP_OX -/ ⟨0x301020, [(256, 16)], [⟨0, 32, .RWS, 0, 0, true⟩]⟩,
  /- CMP_CP_OY -/ ⟨0x301024, [(256, 16)], [⟨0, 32, .RWS, 0, 0, true⟩]⟩,
  /- CMP_CP_SX -/ ⟨0x301028, [(256, 16)], [⟨0, 32, .RWS, 1073741824, 0, true⟩]⟩]

/-- Register table of block CMP, part 1. -/
def regsCMP1 : List RegDef := [
  /- CMP_CP_SY -/ ⟨0x30102c, [(256, 16)], [⟨0, 32, .RWS, 1073741824, 0, true⟩]⟩,
  /- CMP_CP_K -/ ⟨0x301030, [(256, 16)], [⟨0, 32, .RWS, 0, 0, true⟩]⟩,
  /- CMP_CP_TONE_LO -/ ⟨0x301034, [(256, 16)], [⟨0, 32, .RWS, 0, 0, true⟩]⟩,
  /- CMP_CP_TONE_HI -/ ⟨0x301038, [(256, 16)], [⟨0, 32, .RWS, 0, 0, true⟩]⟩,
  /- CMP_CP_ZONE_LO -/ ⟨0x30103c, [(256, 16)], [⟨0, 32, .RWS, 0, 0, true⟩]⟩,
  /- CMP_CP_ZONE_HI -/ ⟨0x301040, [(256, 16)], [⟨0, 32, .RWS, 0, 0, true⟩]⟩,
  /- CMP_CP_NZONE -/ ⟨0x301044, [(256, 16)], [⟨0, 7, .RWS, 0, 0, true⟩]⟩,
  /- CMP_CP_PROOF_LO -/ ⟨0x301048, [(256, 16)], [⟨0, 32, .RWS, 0, 0, true⟩]⟩,
  /- CMP_CP_PROOF_HI -/ ⟨0x30104c, [(256, 16)], [⟨0, 32, .RWS, 0, 0, true⟩]⟩,
  /- CMP_CP_PROOF_CFG -/ ⟨0x301050, [(256, 16)], [⟨0, 16, .RWS, 0, 0, true⟩, ⟨16, 3, .RWS, 2, 0, true⟩, ⟨20, 3, .RWS, 2, 0, true⟩]⟩,
  /- CMP_CP_PTAG_LO -/ ⟨0x301054, [(256, 16)], [⟨0, 32, .RWS, 0, 0, true⟩]⟩,
  /- CMP_CP_PTAG_HI -/ ⟨0x301058, [(256, 16)], [⟨0, 32, .RWS, 0, 0, true⟩]⟩,
  /- CMP_CP_PROOF_WR -/ ⟨0x30105c, [(256, 16)], [⟨0, 32, .RO, 0, 0, false⟩]⟩,
  /- CMP_CP_CNT -/ ⟨0x301060, [(256, 16)], [⟨0, 16, .RO, 0, 0, false⟩, ⟨16, 16, .RO, 0, 0, false⟩]⟩,
  /- CMP_DSP_FRAME -/ ⟨0x304000, [], [⟨0, 32, .RO, 0, 0, false⟩]⟩,
  /- CMP_DSP_BG -/ ⟨0x304004, [], [⟨0, 24, .RWS, 0, 0, true⟩]⟩,
  /- CMP_DSP_UNDERRUN -/ ⟨0x304008, [], [⟨0, 32, .RO, 0, 0, false⟩]⟩,
  /- CMP_DSP_CTL -/ ⟨0x304100, [(32, 8)], [⟨0, 1, .RWS, 0, 0, true⟩, ⟨1, 2, .RWS, 0, 0, true⟩, ⟨3, 2, .RWS, 0, 0, true⟩, ⟨8, 8, .RWS, 255, 0, true⟩]⟩,
  /- CMP_DSP_BASE_LO -/ ⟨0x304104, [(32, 8)], [⟨0, 32, .RWS, 0, 0, true⟩]⟩,
  /- CMP_DSP_BASE_HI -/ ⟨0x304108, [(32, 8)], [⟨0, 32, .RWS, 0, 0, true⟩]⟩,
  /- CMP_DSP_STRIDE -/ ⟨0x30410c, [(32, 8)], [⟨0, 32, .RWS, 0, 0, true⟩]⟩,
  /- CMP_DSP_POS -/ ⟨0x304110, [(32, 8)], [⟨0, 16, .RWS, 0, 0, true⟩, ⟨16, 16, .RWS, 0, 0, true⟩]⟩,
  /- CMP_DSP_SIZE -/ ⟨0x304114, [(32, 8)], [⟨0, 16, .RWS, 0, 0, true⟩, ⟨16, 16, .RWS, 0, 0, true⟩]⟩]

/-- Register table of block CMP. -/
def regsCMP : List RegDef := regsCMP0 ++ regsCMP1

/-- Register table of block HSK, part 0. -/
def regsHSK0 : List RegDef := [
  /- HSK_SRC_LO -/ ⟨0x340000, [], [⟨0, 32, .RW, 0, 0, false⟩]⟩,
  /- HSK_SRC_HI -/ ⟨0x340004, [], [⟨0, 32, .RW, 0, 0, false⟩]⟩,
  /- HSK_STRIDE -/ ⟨0x340008, [], [⟨0, 32, .RW, 0, 0, false⟩]⟩,
  /- HSK_CFG -/ ⟨0x34000c, [], [⟨0, 20, .RW, 0, 0, false⟩, ⟨20, 4, .RW, 0, 0, false⟩]⟩,
  /- HSK_H -/ ⟨0x340010, [], [⟨0, 32, .RW, 0, 0, false⟩]⟩,
  /- HSK_DST_LO -/ ⟨0x340018, [], [⟨0, 32, .RW, 0, 0, false⟩]⟩,
  /- HSK_DST_HI -/ ⟨0x34001c, [], [⟨0, 32, .RW, 0, 0, false⟩]⟩,
  /- HSK_CAP_LO -/ ⟨0x340020, [], [⟨0, 32, .RW, 0, 0, false⟩]⟩,
  /- HSK_CAP_HI -/ ⟨0x340024, [], [⟨0, 32, .RW, 0, 0, false⟩]⟩,
  /- HSK_CMD -/ ⟨0x340028, [], [⟨0, 1, .WO, 0, 0, false⟩, ⟨1, 1, .WO, 0, 0, false⟩]⟩,
  /- HSK_STAT -/ ⟨0x34002c, [], [⟨0, 1, .RO, 0, 0, false⟩, ⟨1, 3, .RO, 0, 0, false⟩]⟩,
  /- HSK_LINE -/ ⟨0x340030, [], [⟨0, 32, .RO, 0, 0, false⟩]⟩,
  /- HSK_OUT_LO -/ ⟨0x340034, [], [⟨0, 32, .RO, 0, 0, false⟩]⟩,
  /- HSK_OUT_HI -/ ⟨0x340038, [], [⟨0, 32, .RO, 0, 0, false⟩]⟩,
  /- HSK_MAXLINE -/ ⟨0x34003c, [], [⟨0, 32, .RO, 0, 0, false⟩]⟩,
  /- HSK_SEG_BAD_CNT -/ ⟨0x340040, [], [⟨0, 32, .RO, 0, 0, false⟩]⟩,
  /- HSK_HDR_BAD -/ ⟨0x340044, [], [⟨0, 32, .RO, 0, 0, false⟩]⟩,
  /- HSK_CMD_CNT -/ ⟨0x340048, [], [⟨0, 16, .RO, 0, 0, false⟩, ⟨16, 16, .RO, 0, 0, false⟩]⟩]

/-- Register table of block HSK. -/
def regsHSK : List RegDef := regsHSK0

/-- Register table of block TIL, part 0. -/
def regsTIL0 : List RegDef := [
  /- TIL_STAT -/ ⟨0x380000, [], [⟨0, 1, .W1C, 0, 0, false⟩, ⟨1, 1, .RO, 0, 0, true⟩]⟩,
  /- TIL_MAP_GAPS -/ ⟨0x380004, [], [⟨0, 32, .RO, 0, 0, true⟩]⟩,
  /- TIL_NZU_ADDR -/ ⟨0x380010, [], [⟨0, 14, .RW, 0, 0, false⟩, ⟨16, 7, .RW, 0, 0, false⟩]⟩,
  /- TIL_NZU_CMD -/ ⟨0x380014, [], [⟨0, 2, .WO, 0, 0, false⟩, ⟨2, 2, .WO, 0, 0, false⟩, ⟨4, 1, .WO, 0, 0, false⟩, ⟨16, 10, .WO, 0, 0, false⟩, ⟨31, 1, .WO, 0, 0, false⟩]⟩,
  /- TIL_NZU_STAT -/ ⟨0x380018, [], [⟨0, 1, .RO, 0, 0, false⟩, ⟨1, 2, .RO, 0, 0, false⟩]⟩,
  /- TIL_NZU_EFF_LO -/ ⟨0x38001c, [], [⟨0, 32, .RO, 0, 0, false⟩]⟩,
  /- TIL_NZU_EFF_HI -/ ⟨0x380020, [], [⟨0, 32, .RO, 0, 0, false⟩]⟩,
  /- TIL_NZU_CNT -/ ⟨0x380024, [], [⟨0, 16, .RO, 0, 0, false⟩, ⟨16, 16, .RO, 0, 0, false⟩]⟩,
  /- TIL_NZT_ECC -/ ⟨0x380040, [], [⟨0, 16, .RO, 0, 0, true⟩, ⟨16, 16, .RO, 0, 0, true⟩]⟩,
  /- TIL_NZT_UE_ADDR -/ ⟨0x380044, [], [⟨0, 21, .RO, 0, 0, true⟩]⟩,
  /- TIL_TL_CTL -/ ⟨0x381000, [(512, 12)], [⟨0, 1, .RWS, 0, 0, true⟩, ⟨1, 3, .RWS, 7, 0, true⟩, ⟨4, 4, .RWS, 2, 0, true⟩]⟩,
  /- TIL_TL_NLEV -/ ⟨0x381004, [(512, 12)], [⟨0, 4, .RWS, 2, 0, true⟩]⟩,
  /- TIL_TL_LEVEL -/ ⟨0x381008, [(512, 12), (4, 7)], [⟨0, 12, .RWS, 4095, 0, true⟩, ⟨16, 3, .RWS, 1, 1, true⟩]⟩,
  /- TIL_TL_KERNEL0 -/ ⟨0x381024, [(512, 12)], [⟨0, 6, .RWS, 16, 0, true⟩, ⟨8, 6, .RWS, 8, 0, true⟩, ⟨16, 6, .RWS, 4, 0, true⟩, ⟨24, 6, .RWS, 8, 0, true⟩]⟩,
  /- TIL_TL_KERNEL1 -/ ⟨0x381028, [(512, 12)], [⟨0, 6, .RWS, 16, 0, true⟩, ⟨8, 6, .RWS, 8, 0, true⟩, ⟨16, 6, .RWS, 4, 0, true⟩]⟩,
  /- TIL_TL_ERRMAX -/ ⟨0x38102c, [(512, 12)], [⟨0, 14, .RWS, 4095, 0, true⟩]⟩,
  /- TIL_TL_NOISE_LO -/ ⟨0x381030, [(512, 12)], [⟨0, 32, .RWS, 0, 0, true⟩]⟩,
  /- TIL_TL_NOISE_HI -/ ⟨0x381034, [(512, 12)], [⟨0, 32, .RWS, 0, 0, true⟩]⟩,
  /- TIL_TL_NOISE_CFG -/ ⟨0x381038, [(512, 12)], [⟨0, 16, .RWS, 0, 0, true⟩, ⟨16, 6, .RWS, 0, 0, true⟩, ⟨24, 8, .RWS, 0, 0, true⟩]⟩,
  /- TIL_TL_MATRIX_LO -/ ⟨0x38103c, [(512, 12)], [⟨0, 32, .RWS, 0, 0, true⟩]⟩,
  /- TIL_TL_MATRIX_HI -/ ⟨0x381040, [(512, 12)], [⟨0, 32, .RWS, 0, 0, true⟩]⟩,
  /- TIL_TL_MATRIX_CFG -/ ⟨0x381044, [(512, 12)], [⟨0, 4, .RWS, 0, 0, true⟩, ⟨4, 4, .RWS, 0, 0, true⟩]⟩,
  /- TIL_TL_STITCH_LO -/ ⟨0x381048, [(512, 12)], [⟨0, 32, .RWS, 0, 0, true⟩]⟩,
  /- TIL_TL_STITCH_HI -/ ⟨0x38104c, [(512, 12)], [⟨0, 32, .RWS, 0, 0, true⟩]⟩,
  /- TIL_TL_NZLINE_LO -/ ⟨0x381054, [(512, 12)], [⟨0, 32, .RO, 0, 0, false⟩]⟩]

/-- Register table of block TIL, part 1. -/
def regsTIL1 : List RegDef := [
  /- TIL_TL_NZLINE_HI -/ ⟨0x381058, [(512, 12)], [⟨0, 32, .RO, 0, 0, false⟩]⟩,
  /- TIL_TL_CNT -/ ⟨0x38105c, [(512, 12)], [⟨0, 16, .RO, 0, 0, false⟩, ⟨16, 16, .RO, 0, 0, false⟩]⟩,
  /- TIL_TL_RESCUE -/ ⟨0x381060, [(512, 12)], [⟨0, 32, .RO, 0, 0, false⟩]⟩,
  /- TIL_TL_STAT -/ ⟨0x381064, [(512, 12)], [⟨0, 16, .RO, 0, 0, false⟩, ⟨16, 8, .RO, 0, 0, false⟩]⟩,
  /- TIL_TL_NW0 -/ ⟨0x381100, [(512, 12)], [⟨0, 6, .RW, 16, 0, true⟩, ⟨8, 6, .RW, 8, 0, true⟩, ⟨16, 6, .RW, 8, 0, true⟩, ⟨24, 6, .RW, 16, 0, true⟩]⟩,
  /- TIL_TL_NW0 -/ ⟨0x381108, [(512, 12)], [⟨0, 6, .RW, 24, 0, true⟩, ⟨8, 6, .RW, 16, 0, true⟩, ⟨16, 6, .RW, 0, 0, true⟩, ⟨24, 6, .RW, 0, 0, true⟩]⟩,
  /- TIL_TL_NW0 -/ ⟨0x381110, [(512, 12)], [⟨0, 6, .RW, 0, 0, true⟩, ⟨8, 6, .RW, 0, 0, true⟩, ⟨16, 6, .RW, 24, 0, true⟩, ⟨24, 6, .RW, 40, 0, true⟩]⟩,
  /- TIL_TL_NW0 -/ ⟨0x381118, [(512, 12), (8, 13)], [⟨0, 6, .RW, 16, 0, true⟩, ⟨8, 6, .RW, 8, 0, true⟩, ⟨16, 6, .RW, 8, 0, true⟩, ⟨24, 6, .RW, 16, 0, true⟩]⟩,
  /- TIL_TL_NW1 -/ ⟨0x381104, [(512, 12)], [⟨0, 6, .RW, 12, 0, true⟩, ⟨8, 6, .RW, 4, 0, true⟩]⟩,
  /- TIL_TL_NW1 -/ ⟨0x38110c, [(512, 12)], [⟨0, 6, .RW, 16, 0, true⟩, ⟨8, 6, .RW, 8, 0, true⟩]⟩,
  /- TIL_TL_NW1 -/ ⟨0x381114, [(512, 12)], [⟨0, 6, .RW, 0, 0, true⟩, ⟨8, 6, .RW, 0, 0, true⟩]⟩,
  /- TIL_TL_NW1 -/ ⟨0x38111c, [(512, 12), (8, 13)], [⟨0, 6, .RW, 12, 0, true⟩, ⟨8, 6, .RW, 4, 0, true⟩]⟩,
  /- TIL_PORT_CFG -/ ⟨0x388000, [(128, 128)], [⟨0, 14, .RO, 0, 0, true⟩, ⟨16, 1, .RO, 0, 0, true⟩]⟩,
  /- TIL_PORT_NZ -/ ⟨0x388004, [(128, 128)], [⟨0, 14, .RO, 0, 0, true⟩, ⟨16, 14, .RO, 0, 0, true⟩]⟩,
  /- TIL_PORT_RING_LO -/ ⟨0x388008, [(128, 128)], [⟨0, 32, .RO, 0, 0, true⟩]⟩,
  /- TIL_PORT_RING_HI -/ ⟨0x38800c, [(128, 128)], [⟨0, 32, .RO, 0, 0, true⟩]⟩,
  /- TIL_PORT_DEPTH -/ ⟨0x388010, [(128, 128)], [⟨0, 15, .RO, 0, 0, true⟩]⟩,
  /- TIL_PORT_SLOT -/ ⟨0x388014, [(128, 128)], [⟨0, 13, .RO, 0, 0, true⟩]⟩,
  /- TIL_PORT_DONE_LO -/ ⟨0x388018, [(128, 128)], [⟨0, 32, .RO, 0, 0, true⟩]⟩,
  /- TIL_PORT_DONE_HI -/ ⟨0x38801c, [(128, 128)], [⟨0, 32, .RO, 0, 0, true⟩]⟩,
  /- TIL_PORT_WAIT -/ ⟨0x388020, [(128, 128)], [⟨0, 32, .RO, 0, 0, false⟩]⟩,
  /- TIL_HEAD_COL -/ ⟨0x388040, [(128, 128), (8, 8)], [⟨0, 32, .RW, 0, 0, true⟩]⟩,
  /- TIL_HEAD_CFG -/ ⟨0x388044, [(128, 128), (8, 8)], [⟨0, 14, .RW, 0, 0, true⟩, ⟨16, 1, .RW, 0, 0, true⟩]⟩,
  /- NZT -/ ⟨0x400000, [(4, 1572864)], [⟨0, 10, .RW, 512, 0, true⟩, ⟨10, 8, .RW, 0, 0, true⟩, ⟨18, 2, .RW, 0, 0, true⟩, ⟨20, 4, .RW, 0, 0, true⟩, ⟨24, 8, .RW, 0, 0, true⟩]⟩]

/-- Register table of block TIL. -/
def regsTIL : List RegDef := regsTIL0 ++ regsTIL1

/-- Register table of block HPL, part 0. -/
def regsHPL0 : List RegDef := [
  /- HPL_PORT_CFG -/ ⟨0xa00000, [(4096, 128)], [⟨0, 1, .RW, 0, 0, true⟩, ⟨1, 4, .RW, 0, 0, true⟩, ⟨5, 1, .RW, 1, 0, true⟩, ⟨6, 1, .WO, 0, 0, false⟩, ⟨7, 1, .WO, 0, 0, false⟩]⟩,
  /- HPL_PORT_STAT -/ ⟨0xa00004, [(4096, 128)], [⟨0, 3, .RO, 0, 0, false⟩, ⟨3, 1, .W1C, 0, 0, false⟩, ⟨4, 1, .RO, 0, 0, false⟩, ⟨5, 1, .RO, 0, 0, false⟩, ⟨8, 8, .RO, 0, 0, false⟩]⟩,
  /- HPL_PORT_LINKLAT -/ ⟨0xa00008, [(4096, 128)], [⟨0, 16, .RO, 0, 0, true⟩, ⟨16, 16, .RO, 0, 0, true⟩]⟩,
  /- HPL_PORT_ASYM -/ ⟨0xa0000c, [(4096, 128)], [⟨0, 16, .RW, 0, 0, true⟩]⟩,
  /- HPL_PORT_HBINFO -/ ⟨0xa00010, [(4096, 128)], [⟨0, 16, .RO, 0, 0, false⟩, ⟨16, 9, .RO, 0, 0, false⟩, ⟨25, 4, .RO, 0, 0, false⟩, ⟨29, 1, .RO, 0, 0, false⟩]⟩,
  /- HPL_PORT_VENDOR -/ ⟨0xa00014, [(4096, 128)], [⟨0, 32, .RO, 0, 0, false⟩]⟩,
  /- HPL_PORT_SERIAL -/ ⟨0xa00018, [(4096, 128)], [⟨0, 32, .RO, 0, 0, false⟩]⟩,
  /- HPL_PORT_FAULT -/ ⟨0xa0001c, [(4096, 128)], [⟨0, 16, .RO, 0, 0, false⟩, ⟨16, 16, .RO, 0, 0, false⟩]⟩,
  /- HPL_PORT_TEMP0 -/ ⟨0xa00020, [(4096, 128)], [⟨0, 8, .RO, 128, 0, false⟩, ⟨8, 8, .RO, 128, 0, false⟩, ⟨16, 8, .RO, 128, 0, false⟩, ⟨24, 8, .RO, 128, 0, false⟩]⟩,
  /- HPL_PORT_TEMP1 -/ ⟨0xa00024, [(4096, 128)], [⟨0, 8, .RO, 128, 0, false⟩, ⟨8, 8, .RO, 128, 0, false⟩, ⟨16, 8, .RO, 128, 0, false⟩, ⟨24, 8, .RO, 128, 0, false⟩]⟩,
  /- HPL_PORT_RAIL01 -/ ⟨0xa00028, [(4096, 128)], [⟨0, 16, .RO, 0, 0, false⟩, ⟨16, 16, .RO, 0, 0, false⟩]⟩,
  /- HPL_PORT_RAIL23 -/ ⟨0xa0002c, [(4096, 128)], [⟨0, 16, .RO, 0, 0, false⟩, ⟨16, 16, .RO, 0, 0, false⟩]⟩,
  /- HPL_PORT_SENT_LO -/ ⟨0xa00030, [(4096, 128)], [⟨0, 32, .RO, 0, 0, false⟩]⟩,
  /- HPL_PORT_SENT_HI -/ ⟨0xa00034, [(4096, 128)], [⟨0, 32, .RO, 0, 0, false⟩]⟩,
  /- HPL_PORT_CNT_RESEND -/ ⟨0xa00038, [(4096, 128)], [⟨0, 32, .RO, 0, 0, false⟩]⟩,
  /- HPL_PORT_CNT_BLANK -/ ⟨0xa0003c, [(4096, 128)], [⟨0, 32, .RO, 0, 0, false⟩]⟩,
  /- HPL_PORT_CNT_LATE -/ ⟨0xa00040, [(4096, 128)], [⟨0, 32, .RO, 0, 0, false⟩]⟩,
  /- HPL_PORT_CNT_ERR -/ ⟨0xa00044, [(4096, 128)], [⟨0, 16, .RO, 0, 0, false⟩, ⟨16, 16, .RO, 0, 0, false⟩]⟩,
  /- HPL_PORT_CNT_NAK -/ ⟨0xa00048, [(4096, 128)], [⟨0, 16, .RO, 0, 0, false⟩, ⟨16, 16, .RO, 0, 0, false⟩]⟩,
  /- HPL_PORT_CNT_PARITY -/ ⟨0xa0004c, [(4096, 128)], [⟨0, 32, .RO, 0, 0, false⟩]⟩,
  /- HPL_PORT_CNT_DOWN -/ ⟨0xa00050, [(4096, 128)], [⟨0, 16, .RO, 0, 0, true⟩, ⟨16, 16, .RO, 0, 0, false⟩]⟩,
  /- HPL_PORT_RSCFG -/ ⟨0xa00054, [(4096, 128)], [⟨0, 2, .RW, 2, 0, true⟩]⟩,
  /- HPL_PORT_STAT_TMO -/ ⟨0xa00058, [(4096, 128)], [⟨0, 16, .RW, 4000, 0, true⟩]⟩,
  /- HPL_PORT_NF -/ ⟨0xa00060, [(4096, 128), (4, 32)], [⟨0, 14, .RO, 0, 0, false⟩, ⟨14, 2, .RO, 0, 0, false⟩, ⟨16, 16, .RO, 0, 0, false⟩]⟩,
  /- HPL_PORT_NF_WR -/ ⟨0xa000e0, [(4096, 128)], [⟨0, 32, .RO, 0, 0, false⟩]⟩]

/-- Register table of block HPL, part 1. -/
def regsHPL1 : List RegDef := [
  /- HPL_BAR_LAT -/ ⟨0xa80000, [(64, 16)], [⟨0, 16, .RO, 0, 0, true⟩]⟩,
  /- HPL_BAR_LATMIN -/ ⟨0xa80004, [(64, 16)], [⟨0, 16, .RW, 0, 0, true⟩]⟩,
  /- HPL_BAR_STAT -/ ⟨0xa80008, [(64, 16)], [⟨0, 5, .RO, 0, 0, true⟩, ⟨5, 1, .RO, 0, 0, false⟩]⟩,
  /- HPL_CTL -/ ⟨0xa81000, [], [⟨0, 8, .RW, 100, 0, true⟩, ⟨8, 8, .RW, 10, 0, true⟩]⟩,
  /- HPL_UP_MAP -/ ⟨0xa81010, [(4, 4)], [⟨0, 32, .RO, 0, 0, false⟩]⟩]

/-- Register table of block HPL. -/
def regsHPL : List RegDef := regsHPL0 ++ regsHPL1

/-- Register table of block MEM, part 0. -/
def regsMEM0 : List RegDef := [
  /- MEM_CFG -/ ⟨0xb00000, [], [⟨0, 1, .RO, 0, 0, true⟩, ⟨1, 1, .RO, 0, 0, true⟩, ⟨2, 2, .RO, 0, 0, true⟩, ⟨4, 1, .RO, 0, 0, true⟩, ⟨5, 2, .RO, 2, 0, true⟩]⟩,
  /- MEM_STAT -/ ⟨0xb00004, [], [⟨0, 1, .RO, 0, 0, false⟩, ⟨1, 1, .RO, 0, 0, false⟩, ⟨2, 1, .RO, 0, 0, false⟩]⟩,
  /- MEM_CAP_LO -/ ⟨0xb00008, [], [⟨0, 32, .RO, 0, 0, true⟩]⟩,
  /- MEM_CAP_HI -/ ⟨0xb0000c, [], [⟨0, 32, .RO, 0, 0, true⟩]⟩,
  /- MEM_TRAIN_TEMP -/ ⟨0xb00010, [], [⟨0, 16, .RO, 0, 0, true⟩, ⟨16, 16, .RO, 0, 0, true⟩]⟩,
  /- MEM_FAILED_MAP -/ ⟨0xb00014, [], [⟨0, 24, .RO, 0, 0, true⟩]⟩,
  /- MEM_FENCED_MAP -/ ⟨0xb00018, [], [⟨0, 24, .RO, 0, 0, true⟩]⟩,
  /- MEM_AGE_CRIT -/ ⟨0xb00020, [], [⟨0, 32, .RW, 2000, 0, true⟩]⟩,
  /- MEM_AGE_RT -/ ⟨0xb00024, [], [⟨0, 32, .RW, 8000, 0, true⟩]⟩,
  /- MEM_AGE_BULK -/ ⟨0xb00028, [], [⟨0, 32, .RW, 64000, 0, true⟩]⟩,
  /- MEM_AGE_BACK -/ ⟨0xb0002c, [], [⟨0, 32, .RW, 1000000, 0, true⟩]⟩,
  /- MEM_PANIC_LIMIT -/ ⟨0xb00030, [], [⟨0, 32, .RW, 50, 0, true⟩]⟩,
  /- MEM_PANIC_STAT -/ ⟨0xb00034, [], [⟨0, 1, .RO, 0, 0, false⟩, ⟨8, 8, .RO, 0, 0, false⟩]⟩,
  /- MEM_SCRUB_CTL -/ ⟨0xb00040, [], [⟨0, 1, .RW, 1, 0, true⟩, ⟨8, 8, .RW, 24, 0, true⟩, ⟨16, 16, .RW, 256, 0, true⟩]⟩,
  /- MEM_SCRUB_PASSES -/ ⟨0xb00044, [], [⟨0, 32, .RO, 0, 0, true⟩]⟩,
  /- MEM_SCRUB_POS_LO -/ ⟨0xb00048, [], [⟨0, 32, .RO, 0, 0, true⟩]⟩,
  /- MEM_SCRUB_POS_HI -/ ⟨0xb0004c, [], [⟨0, 32, .RO, 0, 0, true⟩]⟩,
  /- MEM_FIXED_BW -/ ⟨0xb00050, [], [⟨0, 16, .RW, 660, 0, true⟩]⟩,
  /- MEM_FMAX -/ ⟨0xb00054, [], [⟨0, 32, .RO, 0, 0, true⟩]⟩,
  /- MEM_PLAN_BW -/ ⟨0xb00058, [], [⟨0, 16, .RO, 4300, 0, true⟩]⟩,
  /- MEM_UE_ADDR_LO -/ ⟨0xb00060, [], [⟨0, 32, .RO, 0, 0, true⟩]⟩,
  /- MEM_UE_ADDR_HI -/ ⟨0xb00064, [], [⟨0, 32, .RO, 0, 0, true⟩]⟩,
  /- MEM_UE_INFO -/ ⟨0xb00068, [], [⟨0, 8, .RO, 0, 0, true⟩, ⟨8, 5, .RO, 0, 0, true⟩, ⟨13, 1, .RO, 0, 0, true⟩, ⟨14, 1, .RO, 0, 0, true⟩, ⟨16, 16, .RO, 0, 0, true⟩]⟩,
  /- MEM_SC_STAT -/ ⟨0xb01000, [(64, 24)], [⟨0, 1, .RO, 0, 0, true⟩, ⟨1, 1, .RO, 0, 0, true⟩, ⟨2, 1, .RO, 0, 0, true⟩, ⟨3, 1, .RO, 0, 0, false⟩, ⟨4, 1, .RO, 0, 0, true⟩, ⟨5, 1, .RO, 0, 0, true⟩, ⟨6, 4, .RO, 0, 0, true⟩, ⟨10, 4, .RO, 0, 0, true⟩]⟩,
  /- MEM_SC_CE -/ ⟨0xb01004, [(64, 24)], [⟨0, 32, .RO, 0, 0, true⟩]⟩]

/-- Register table of block MEM, part 1. -/
def regsMEM1 : List RegDef := [
  /- MEM_SC_UE -/ ⟨0xb01008, [(64, 24)], [⟨0, 16, .RO, 0, 0, true⟩, ⟨16, 16, .RO, 0, 0, true⟩]⟩,
  /- MEM_SC_REPLAY -/ ⟨0xb0100c, [(64, 24)], [⟨0, 16, .RO, 0, 0, true⟩, ⟨16, 16, .RO, 0, 0, true⟩]⟩,
  /- MEM_SC_MARGIN -/ ⟨0xb01010, [(64, 24)], [⟨0, 8, .RO, 0, 0, true⟩, ⟨8, 8, .RO, 0, 0, true⟩, ⟨16, 8, .RO, 0, 0, true⟩]⟩,
  /- MEM_SC_WORST -/ ⟨0xb01014, [(64, 24)], [⟨0, 4, .RO, 0, 0, false⟩, ⟨4, 1, .RO, 0, 0, false⟩, ⟨16, 16, .RO, 0, 0, false⟩]⟩,
  /- MEM_SC_FENCED_REQ -/ ⟨0xb01018, [(64, 24)], [⟨0, 32, .RO, 0, 0, false⟩]⟩,
  /- MEM_PORT_CFG -/ ⟨0xb02000, [(8, 128)], [⟨0, 2, .RO, 0, 0, false⟩, ⟨2, 1, .RO, 0, 0, false⟩, ⟨4, 6, .RW, 16, 0, true⟩, ⟨10, 6, .RW, 8, 0, true⟩]⟩,
  /- MEM_PORT_CFG -/ ⟨0xb02400, [(8, 12)], [⟨0, 2, .RO, 1, 0, false⟩, ⟨2, 1, .RO, 0, 0, false⟩, ⟨4, 6, .RW, 16, 0, true⟩, ⟨10, 6, .RW, 8, 0, true⟩]⟩,
  /- MEM_PORT_CFG -/ ⟨0xb02460, [(8, 32)], [⟨0, 2, .RO, 1, 0, false⟩, ⟨2, 1, .RO, 1, 0, false⟩, ⟨4, 6, .RW, 48, 0, true⟩, ⟨10, 6, .RW, 8, 0, true⟩]⟩,
  /- MEM_PORT_CFG -/ ⟨0xb02560, [(8, 2)], [⟨0, 2, .RO, 1, 0, false⟩, ⟨2, 1, .RO, 0, 0, false⟩, ⟨4, 6, .RW, 16, 0, true⟩, ⟨10, 6, .RW, 8, 0, true⟩]⟩,
  /- MEM_PORT_CFG -/ ⟨0xb02570, [(8, 18)], [⟨0, 2, .RO, 2, 0, false⟩, ⟨2, 1, .RO, 0, 0, false⟩, ⟨4, 6, .RW, 0, 0, true⟩, ⟨10, 6, .RW, 8, 0, true⟩]⟩,
  /- MEM_PORT_CFG -/ ⟨0xb02600, [(8, 3)], [⟨0, 2, .RO, 3, 0, false⟩, ⟨2, 1, .RO, 0, 0, false⟩, ⟨4, 6, .RW, 0, 0, true⟩, ⟨10, 6, .RW, 8, 0, true⟩]⟩,
  /- MEM_PORT_STAT -/ ⟨0xb02004, [(8, 195)], [⟨0, 7, .RO, 0, 0, false⟩, ⟨7, 1, .RO, 0, 0, false⟩, ⟨16, 16, .RO, 0, 0, false⟩]⟩]

/-- Register table of block MEM. -/
def regsMEM : List RegDef := regsMEM0 ++ regsMEM1

/-- Register table of block CAM, part 0. -/
def regsCAM0 : List RegDef := [
  /- CAM_ISP_CFG -/ ⟨0xc00000, [], [⟨0, 3, .RW, 0, 0, true⟩, ⟨3, 1, .RW, 0, 0, true⟩]⟩,
  /- CAM_ISP_LOAD -/ ⟨0xc00004, [], [⟨0, 10, .RO, 0, 0, false⟩, ⟨16, 10, .RO, 0, 0, false⟩]⟩,
  /- CAM_ISP_CNT -/ ⟨0xc00008, [], [⟨0, 32, .RO, 0, 0, false⟩]⟩,
  /- CAM_CX_CFG -/ ⟨0xc00100, [(16, 8)], [⟨0, 1, .RW, 0, 0, true⟩, ⟨1, 3, .RW, 6, 0, true⟩]⟩,
  /- CAM_CX_STAT -/ ⟨0xc00104, [(16, 8)], [⟨0, 2, .RO, 0, 0, false⟩]⟩,
  /- CAM_CX_ERR -/ ⟨0xc00108, [(16, 8)], [⟨0, 16, .RO, 0, 0, false⟩, ⟨16, 16, .RO, 0, 0, true⟩]⟩,
  /- CAM_CX_OTHER -/ ⟨0xc0010c, [(16, 8)], [⟨0, 32, .RO, 0, 0, false⟩]⟩,
  /- CAM_CS_CFG -/ ⟨0xc00200, [(32, 4)], [⟨0, 1, .RW, 0, 0, true⟩, ⟨1, 2, .RW, 2, 0, true⟩, ⟨3, 9, .RW, 250, 0, true⟩, ⟨12, 4, .RW, 0, 0, true⟩, ⟨16, 6, .RW, 43, 0, true⟩, ⟨22, 2, .RW, 1, 0, true⟩]⟩,
  /- CAM_CS_STAT -/ ⟨0xc00204, [(32, 4)], [⟨0, 1, .RO, 0, 0, false⟩, ⟨1, 1, .RO, 0, 0, false⟩]⟩,
  /- CAM_CS_ECC -/ ⟨0xc00208, [(32, 4)], [⟨0, 16, .RO, 0, 0, false⟩, ⟨16, 16, .RO, 0, 0, false⟩]⟩,
  /- CAM_CS_CRC -/ ⟨0xc0020c, [(32, 4)], [⟨0, 16, .RO, 0, 0, false⟩, ⟨16, 16, .RO, 0, 0, false⟩]⟩,
  /- CAM_CS_OTHER -/ ⟨0xc00210, [(32, 4)], [⟨0, 32, .RO, 0, 0, false⟩]⟩,
  /- CAM_U_CFG -/ ⟨0xc01000, [(1024, 8)], [⟨0, 1, .RW, 0, 0, true⟩, ⟨1, 1, .RW, 0, 0, true⟩, ⟨2, 3, .RW, 0, 0, true⟩, ⟨5, 2, .RW, 0, 0, true⟩, ⟨7, 6, .RW, 0, 0, true⟩, ⟨13, 2, .RW, 0, 0, true⟩, ⟨15, 1, .RW, 0, 0, true⟩, ⟨16, 1, .RW, 0, 0, true⟩]⟩,
  /- CAM_U_STAT -/ ⟨0xc01004, [(1024, 8)], [⟨0, 1, .RO, 0, 0, false⟩, ⟨1, 1, .W1C, 0, 0, false⟩, ⟨2, 1, .RO, 0, 0, false⟩]⟩,
  /- CAM_U_SIZE -/ ⟨0xc01008, [(1024, 8)], [⟨0, 16, .RW, 0, 0, true⟩, ⟨16, 16, .RW, 0, 0, true⟩]⟩,
  /- CAM_U_BLK -/ ⟨0xc0100c, [(1024, 8)], [⟨0, 2, .RW, 0, 0, true⟩, ⟨2, 2, .RW, 0, 0, true⟩, ⟨16, 16, .RW, 0, 0, true⟩]⟩,
  /- CAM_U_OFFSET_LO -/ ⟨0xc01010, [(1024, 8)], [⟨0, 32, .RW, 0, 0, true⟩]⟩,
  /- CAM_U_OFFSET_HI -/ ⟨0xc01014, [(1024, 8)], [⟨0, 32, .RW, 0, 0, true⟩]⟩,
  /- CAM_U_PITCH_FRAC -/ ⟨0xc01018, [(1024, 8)], [⟨0, 32, .RW, 0, 0, true⟩]⟩,
  /- CAM_U_PITCH_INT -/ ⟨0xc0101c, [(1024, 8)], [⟨0, 32, .RW, 0, 0, true⟩]⟩,
  /- CAM_U_CMP_FRAC -/ ⟨0xc01020, [(1024, 8)], [⟨0, 32, .RW, 0, 0, true⟩]⟩,
  /- CAM_U_CMP_LO -/ ⟨0xc01024, [(1024, 8)], [⟨0, 32, .RW, 0, 0, true⟩]⟩,
  /- CAM_U_CMP_HI -/ ⟨0xc01028, [(1024, 8)], [⟨0, 32, .RW, 0, 0, true⟩]⟩,
  /- CAM_U_TCOUNT_LO -/ ⟨0xc0102c, [(1024, 8)], [⟨0, 32, .RW, 0, 0, true⟩]⟩,
  /- CAM_U_TCOUNT_HI -/ ⟨0xc01030, [(1024, 8)], [⟨0, 32, .RW, 0, 0, true⟩]⟩]

/-- Register table of block CAM, part 1. -/
def regsCAM1 : List RegDef := [
  /- CAM_U_MINGAP -/ ⟨0xc01034, [(1024, 8)], [⟨0, 32, .RW, 10000, 0, true⟩]⟩,
  /- CAM_U_TRIG_LAT -/ ⟨0xc01038, [(1024, 8)], [⟨0, 16, .RW, 4000, 0, true⟩, ⟨16, 16, .RW, 0, 0, true⟩]⟩,
  /- CAM_U_LINEWIN -/ ⟨0xc0103c, [(1024, 8)], [⟨0, 16, .RW, 0, 0, true⟩, ⟨16, 16, .RW, 100, 0, true⟩]⟩,
  /- CAM_U_LAT -/ ⟨0xc01040, [(1024, 8)], [⟨0, 16, .RO, 65535, 0, false⟩, ⟨16, 16, .RO, 0, 0, false⟩]⟩,
  /- CAM_U_SHEET_TOP -/ ⟨0xc01044, [(1024, 8)], [⟨0, 32, .RW, 0, 0, true⟩]⟩,
  /- CAM_U_CHAFF -/ ⟨0xc01048, [(1024, 8)], [⟨0, 16, .RW, 0, 0, true⟩]⟩,
  /- CAM_U_NAT -/ ⟨0xc0104c, [(1024, 8)], [⟨0, 5, .RW, 0, 0, true⟩]⟩,
  /- CAM_U_AT_POS -/ ⟨0xc01050, [(1024, 8), (4, 16)], [⟨0, 32, .RW, 0, 0, true⟩]⟩,
  /- CAM_U_RAW_LO -/ ⟨0xc01090, [(1024, 8)], [⟨0, 32, .RW, 0, 0, true⟩]⟩,
  /- CAM_U_RAW_HI -/ ⟨0xc01094, [(1024, 8)], [⟨0, 32, .RW, 0, 0, true⟩]⟩,
  /- CAM_U_RAW_CFG -/ ⟨0xc01098, [(1024, 8)], [⟨0, 8, .RW, 0, 0, true⟩, ⟨8, 24, .RW, 0, 0, true⟩]⟩,
  /- CAM_U_REC_LO -/ ⟨0xc010a0, [(1024, 8)], [⟨0, 32, .RW, 0, 0, true⟩]⟩,
  /- CAM_U_REC_HI -/ ⟨0xc010a4, [(1024, 8)], [⟨0, 32, .RW, 0, 0, true⟩]⟩,
  /- CAM_U_REC_CFG -/ ⟨0xc010a8, [(1024, 8)], [⟨0, 16, .RW, 0, 0, true⟩, ⟨16, 16, .RW, 0, 0, true⟩]⟩,
  /- CAM_U_SEQ -/ ⟨0xc010b0, [(1024, 8)], [⟨0, 32, .RO, 0, 0, false⟩]⟩,
  /- CAM_U_CNT1 -/ ⟨0xc010b4, [(1024, 8)], [⟨0, 16, .RO, 0, 0, false⟩, ⟨16, 16, .RO, 0, 0, false⟩]⟩,
  /- CAM_U_CNT2 -/ ⟨0xc010b8, [(1024, 8)], [⟨0, 16, .RO, 0, 0, false⟩, ⟨16, 16, .RO, 0, 0, false⟩]⟩,
  /- CAM_U_CNT3 -/ ⟨0xc010bc, [(1024, 8)], [⟨0, 8, .RO, 0, 0, false⟩, ⟨8, 8, .RO, 0, 0, false⟩, ⟨16, 16, .RO, 0, 0, false⟩]⟩,
  /- CAM_U_SET_LO -/ ⟨0xc010d0, [(1024, 8)], [⟨0, 32, .RW, 0, 0, false⟩]⟩,
  /- CAM_U_SET_HI -/ ⟨0xc010d4, [(1024, 8)], [⟨0, 32, .RW, 0, 0, false⟩]⟩,
  /- CAM_U_SET_CMD -/ ⟨0xc010d8, [(1024, 8)], [⟨0, 1, .WO, 0, 0, false⟩]⟩,
  /- CAM_U_SET_STAT -/ ⟨0xc010dc, [(1024, 8)], [⟨0, 1, .RO, 0, 0, false⟩, ⟨1, 1, .RO, 0, 0, false⟩, ⟨2, 1, .RO, 0, 0, false⟩, ⟨3, 3, .RO, 0, 0, false⟩, ⟨16, 16, .RO, 0, 0, false⟩]⟩,
  /- CAM_U_SET_LAT -/ ⟨0xc010e0, [(1024, 8)], [⟨0, 24, .RW, 0, 0, true⟩, ⟨24, 4, .RW, 0, 0, true⟩]⟩,
  /- CAM_U_CTRL_ADDR -/ ⟨0xc010f0, [(1024, 8)], [⟨0, 32, .RW, 0, 0, false⟩]⟩,
  /- CAM_U_CTRL_DATA -/ ⟨0xc010f4, [(1024, 8)], [⟨0, 32, .RW, 0, 0, false⟩]⟩]

/-- Register table of block CAM, part 2. -/
def regsCAM2 : List RegDef := [
  /- CAM_U_CTRL_CMD -/ ⟨0xc010f8, [(1024, 8)], [⟨0, 1, .WO, 0, 0, false⟩, ⟨1, 1, .WO, 0, 0, false⟩, ⟨2, 2, .WO, 0, 0, false⟩, ⟨4, 3, .WO, 0, 0, false⟩, ⟨8, 7, .WO, 0, 0, false⟩]⟩,
  /- CAM_U_CTRL_STAT -/ ⟨0xc010fc, [(1024, 8)], [⟨0, 1, .RO, 0, 0, false⟩, ⟨1, 2, .RO, 0, 0, false⟩, ⟨16, 16, .RW, 100, 0, true⟩]⟩,
  /- CAM_U_BLACK0 -/ ⟨0xc01140, [(1024, 8)], [⟨0, 16, .RW, 0, 0, true⟩, ⟨16, 16, .RW, 0, 0, true⟩]⟩,
  /- CAM_U_BLACK1 -/ ⟨0xc01144, [(1024, 8)], [⟨0, 16, .RW, 0, 0, true⟩]⟩,
  /- CAM_U_DEFECT_LO -/ ⟨0xc01148, [(1024, 8)], [⟨0, 32, .RW, 0, 0, true⟩]⟩,
  /- CAM_U_DEFECT_HI -/ ⟨0xc0114c, [(1024, 8)], [⟨0, 32, .RW, 0, 0, true⟩]⟩,
  /- CAM_U_DEFECT_CFG -/ ⟨0xc01150, [(1024, 8)], [⟨0, 11, .RW, 0, 0, true⟩, ⟨16, 16, .RW, 0, 0, true⟩]⟩,
  /- CAM_U_DLY -/ ⟨0xc01154, [(1024, 8)], [⟨0, 6, .RW, 0, 0, true⟩, ⟨8, 6, .RW, 0, 0, true⟩, ⟨16, 6, .RW, 0, 0, true⟩]⟩,
  /- CAM_U_FLAT_LO -/ ⟨0xc01158, [(1024, 8)], [⟨0, 32, .RW, 0, 0, true⟩]⟩,
  /- CAM_U_FLAT_HI -/ ⟨0xc0115c, [(1024, 8)], [⟨0, 32, .RW, 0, 0, true⟩]⟩,
  /- CAM_U_ILLUM0 -/ ⟨0xc01160, [(1024, 8)], [⟨0, 16, .RW, 16384, 0, true⟩, ⟨16, 16, .RW, 16384, 0, true⟩]⟩,
  /- CAM_U_ILLUM1 -/ ⟨0xc01164, [(1024, 8)], [⟨0, 16, .RW, 16384, 0, true⟩]⟩,
  /- CAM_U_WB0 -/ ⟨0xc01168, [(1024, 8)], [⟨0, 16, .RW, 4096, 0, true⟩, ⟨16, 16, .RW, 4096, 0, true⟩]⟩,
  /- CAM_U_WB1 -/ ⟨0xc0116c, [(1024, 8)], [⟨0, 16, .RW, 4096, 0, true⟩]⟩,
  /- CAM_U_M0 -/ ⟨0xc01170, [(1024, 8)], [⟨0, 16, .RW, 4096, 0, true⟩, ⟨16, 16, .RW, 0, 0, true⟩]⟩,
  /- CAM_U_M1 -/ ⟨0xc01174, [(1024, 8)], [⟨0, 16, .RW, 0, 0, true⟩, ⟨16, 16, .RW, 0, 0, true⟩]⟩,
  /- CAM_U_M2 -/ ⟨0xc01178, [(1024, 8)], [⟨0, 16, .RW, 4096, 0, true⟩, ⟨16, 16, .RW, 0, 0, true⟩]⟩,
  /- CAM_U_M3 -/ ⟨0xc0117c, [(1024, 8)], [⟨0, 16, .RW, 0, 0, true⟩, ⟨16, 16, .RW, 0, 0, true⟩]⟩,
  /- CAM_U_M4 -/ ⟨0xc01180, [(1024, 8)], [⟨0, 16, .RW, 4096, 0, true⟩]⟩,
  /- CAM_U_OFF0 -/ ⟨0xc01184, [(1024, 8)], [⟨0, 16, .RW, 0, 0, true⟩, ⟨16, 16, .RW, 0, 0, true⟩]⟩,
  /- CAM_U_OFF1 -/ ⟨0xc01188, [(1024, 8)], [⟨0, 16, .RW, 0, 0, true⟩]⟩,
  /- CAM_U_TONE_LO -/ ⟨0xc0118c, [(1024, 8)], [⟨0, 32, .RW, 0, 0, true⟩]⟩,
  /- CAM_U_TONE_HI -/ ⟨0xc01190, [(1024, 8)], [⟨0, 32, .RW, 0, 0, true⟩]⟩,
  /- CAM_U_WHITE -/ ⟨0xc01194, [(1024, 8)], [⟨0, 16, .RW, 61440, 0, true⟩]⟩,
  /- CAM_U_STATS_CFG -/ ⟨0xc01198, [(1024, 8)], [⟨0, 7, .RW, 0, 0, true⟩, ⟨8, 4, .RW, 0, 0, true⟩, ⟨16, 16, .RW, 65535, 0, true⟩]⟩]

/-- Register table of block CAM, part 3. -/
def regsCAM3 : List RegDef := [
  /- CAM_U_STATS_WIN -/ ⟨0xc0119c, [(1024, 8)], [⟨0, 16, .RW, 0, 0, true⟩, ⟨16, 16, .RW, 0, 0, true⟩]⟩,
  /- CAM_K_CTL -/ ⟨0xc01200, [(1024, 8), (64, 6)], [⟨0, 1, .RW, 0, 0, true⟩, ⟨1, 3, .RW, 0, 0, true⟩, ⟨4, 2, .RW, 0, 0, true⟩]⟩,
  /- CAM_K_CROPX -/ ⟨0xc01204, [(1024, 8), (64, 6)], [⟨0, 16, .RW, 0, 0, true⟩, ⟨16, 16, .RW, 0, 0, true⟩]⟩,
  /- CAM_K_CROPY -/ ⟨0xc01208, [(1024, 8), (64, 6)], [⟨0, 16, .RW, 0, 0, true⟩, ⟨16, 16, .RW, 0, 0, true⟩]⟩,
  /- CAM_K_SCALE -/ ⟨0xc0120c, [(1024, 8), (64, 6)], [⟨0, 16, .RW, 256, 0, true⟩, ⟨16, 16, .RW, 256, 0, true⟩]⟩,
  /- CAM_K_BASE_LO -/ ⟨0xc01210, [(1024, 8), (64, 6)], [⟨0, 32, .RW, 0, 0, true⟩]⟩,
  /- CAM_K_BASE_HI -/ ⟨0xc01214, [(1024, 8), (64, 6)], [⟨0, 32, .RW, 0, 0, true⟩]⟩,
  /- CAM_K_STRIDE -/ ⟨0xc01218, [(1024, 8), (64, 6)], [⟨0, 32, .RW, 0, 0, true⟩]⟩,
  /- CAM_K_SLOT -/ ⟨0xc0121c, [(1024, 8), (64, 6)], [⟨0, 32, .RW, 0, 0, true⟩]⟩,
  /- CAM_K_DEPTH -/ ⟨0xc01220, [(1024, 8), (64, 6)], [⟨0, 8, .RW, 0, 0, true⟩]⟩,
  /- CAM_K_RD -/ ⟨0xc01224, [(1024, 8), (64, 6)], [⟨0, 32, .RW, 0, 0, false⟩]⟩]

/-- Register table of block CAM. -/
def regsCAM : List RegDef := regsCAM0 ++ regsCAM1 ++ regsCAM2 ++ regsCAM3

/-- Register table of block PIX, part 0. -/
def regsPIX0 : List RegDef := [
  /- PIX_NH_TH -/ ⟨0xd00000, [], [⟨0, 8, .RW, 64, 0, true⟩, ⟨8, 8, .RW, 96, 0, true⟩, ⟨16, 8, .RW, 192, 0, true⟩, ⟨24, 8, .RW, 16, 0, true⟩]⟩,
  /- PIX_SOLO -/ ⟨0xd00004, [], [⟨0, 8, .RW, 2, 0, true⟩]⟩,
  /- PIX_ZR_LO -/ ⟨0xd00010, [], [⟨0, 32, .RW, 0, 0, true⟩]⟩,
  /- PIX_ZR_HI -/ ⟨0xd00014, [], [⟨0, 32, .RW, 0, 0, true⟩]⟩,
  /- PIX_ZR_CFG -/ ⟨0xd00018, [], [⟨0, 8, .RW, 0, 0, true⟩]⟩,
  /- PIX_ZR_WR -/ ⟨0xd0001c, [], [⟨0, 32, .RO, 0, 0, false⟩]⟩,
  /- PIX_NC_LO -/ ⟨0xd00020, [], [⟨0, 32, .RW, 0, 0, true⟩]⟩,
  /- PIX_NC_HI -/ ⟨0xd00024, [], [⟨0, 32, .RW, 0, 0, true⟩]⟩,
  /- PIX_NC_CFG -/ ⟨0xd00028, [], [⟨0, 16, .RW, 0, 0, true⟩]⟩,
  /- PIX_NC_WR -/ ⟨0xd0002c, [], [⟨0, 32, .RO, 0, 0, false⟩]⟩,
  /- PIX_TASK -/ ⟨0xd00100, [(32, 12)], [⟨0, 2, .RW, 0, 0, true⟩, ⟨2, 3, .RW, 0, 0, true⟩, ⟨5, 3, .RW, 0, 0, true⟩, ⟨8, 16, .RW, 0, 0, true⟩]⟩,
  /- PIX_TASK_SEQ -/ ⟨0xd00104, [(32, 12)], [⟨0, 32, .RO, 0, 0, false⟩]⟩,
  /- PIX_TASK_STAT -/ ⟨0xd00108, [(32, 12)], [⟨0, 16, .RO, 0, 0, false⟩, ⟨16, 16, .RO, 0, 0, false⟩]⟩,
  /- PIX_MAP_CX0 -/ ⟨0xd00400, [(32, 16)], [⟨0, 32, .RWS, 0, 0, true⟩]⟩,
  /- PIX_MAP_CXS -/ ⟨0xd00404, [(32, 16)], [⟨0, 32, .RWS, 65536, 0, true⟩]⟩,
  /- PIX_MAP_DY -/ ⟨0xd00408, [(32, 16)], [⟨0, 32, .RWS, 0, 0, true⟩]⟩,
  /- PIX_STRIP_OFF -/ ⟨0xd0040c, [(32, 16)], [⟨0, 20, .RWS, 0, 0, true⟩]⟩,
  /- PIX_STRIP_CFG -/ ⟨0xd00410, [(32, 16)], [⟨0, 8, .RWS, 0, 0, true⟩, ⟨8, 8, .RWS, 8, 0, true⟩, ⟨16, 3, .RWS, 7, 0, true⟩]⟩]

/-- Register table of block PIX. -/
def regsPIX : List RegDef := regsPIX0

/-- Register table of block CHL, part 0. -/
def regsCHL0 : List RegDef := [
  /- CHL_CTL -/ ⟨0xe00000, [], [⟨0, 1, .RW, 0, 0, true⟩, ⟨1, 1, .RW, 0, 0, true⟩, ⟨2, 3, .RW, 1, 0, true⟩, ⟨8, 8, .RW, 10, 0, true⟩]⟩,
  /- CHL_SHEAF -/ ⟨0xe00004, [], [⟨0, 3, .RO, 0, 0, false⟩, ⟨3, 1, .RO, 0, 0, false⟩, ⟨16, 16, .RO, 0, 0, false⟩]⟩,
  /- CHL_SHEAF_REP -/ ⟨0xe00008, [], [⟨0, 32, .RO, 0, 0, true⟩]⟩,
  /- CHL_UPDATES -/ ⟨0xe0000c, [], [⟨0, 32, .RO, 0, 0, false⟩]⟩,
  /- CHL_NH_CFG -/ ⟨0xe00020, [], [⟨0, 1, .RW, 0, 0, true⟩, ⟨1, 1, .RW, 1, 0, true⟩, ⟨2, 4, .RW, 2, 0, true⟩, ⟨6, 4, .RW, 4, 0, true⟩, ⟨10, 8, .RW, 16, 0, true⟩, ⟨18, 14, .RW, 64, 0, true⟩]⟩,
  /- CHL_NH_CNT -/ ⟨0xe00024, [], [⟨0, 16, .RO, 0, 0, false⟩, ⟨16, 16, .RO, 0, 0, false⟩]⟩,
  /- CHL_NH_STRIPS -/ ⟨0xe00028, [], [⟨0, 16, .RO, 0, 0, false⟩, ⟨16, 16, .RO, 0, 0, false⟩]⟩,
  /- CHL_CH_CTL -/ ⟨0xe00100, [(64, 12)], [⟨0, 1, .RW, 0, 0, true⟩, ⟨1, 1, .RW, 0, 0, true⟩, ⟨2, 3, .RW, 0, 0, true⟩, ⟨8, 8, .RW, 4, 0, true⟩]⟩,
  /- CHL_CH_STAT -/ ⟨0xe00104, [(64, 12)], [⟨0, 3, .RO, 0, 0, false⟩, ⟨8, 8, .RO, 0, 0, false⟩, ⟨16, 16, .RO, 0, 0, false⟩]⟩,
  /- CHL_CH_GAIN -/ ⟨0xe00108, [(64, 12)], [⟨0, 10, .RW, 128, 0, true⟩, ⟨16, 16, .RW, 128, 0, true⟩]⟩,
  /- CHL_CH_CLAMP -/ ⟨0xe0010c, [(64, 12)], [⟨0, 16, .RW, 32, 0, true⟩, ⟨16, 16, .RW, 256, 0, true⟩]⟩,
  /- CHL_CH_LIM -/ ⟨0xe00110, [(64, 12)], [⟨0, 16, .RW, 4096, 0, true⟩, ⟨16, 16, .RW, 128, 0, true⟩]⟩,
  /- CHL_CH_TGT_LO -/ ⟨0xe00114, [(64, 12)], [⟨0, 32, .RW, 0, 0, true⟩]⟩,
  /- CHL_CH_TGT_HI -/ ⟨0xe00118, [(64, 12)], [⟨0, 32, .RW, 0, 0, true⟩]⟩,
  /- CHL_CH_BUF_LO -/ ⟨0xe0011c, [(64, 12)], [⟨0, 32, .RW, 0, 0, true⟩]⟩,
  /- CHL_CH_BUF_HI -/ ⟨0xe00120, [(64, 12)], [⟨0, 32, .RW, 0, 0, true⟩]⟩,
  /- CHL_CH_CUR_LO -/ ⟨0xe00124, [(64, 12)], [⟨0, 32, .RO, 0, 0, true⟩]⟩,
  /- CHL_CH_CUR_HI -/ ⟨0xe00128, [(64, 12)], [⟨0, 32, .RO, 0, 0, true⟩]⟩,
  /- CHL_CH_APPLIED -/ ⟨0xe0012c, [(64, 12)], [⟨0, 32, .RO, 0, 0, true⟩]⟩,
  /- CHL_CH_JUDGED -/ ⟨0xe00130, [(64, 12)], [⟨0, 32, .RO, 0, 0, false⟩]⟩,
  /- CHL_CH_DE -/ ⟨0xe00134, [(64, 12)], [⟨0, 16, .RO, 0, 0, false⟩, ⟨16, 16, .RO, 0, 0, false⟩]⟩,
  /- CHL_CAL_CMD -/ ⟨0xe01000, [], [⟨0, 1, .WO, 0, 0, false⟩, ⟨1, 1, .WO, 0, 0, false⟩, ⟨2, 1, .WO, 0, 0, false⟩, ⟨3, 3, .WO, 0, 0, false⟩]⟩,
  /- CHL_CAL_STAT -/ ⟨0xe01004, [], [⟨0, 1, .RO, 0, 0, false⟩, ⟨1, 3, .RO, 0, 0, false⟩, ⟨16, 16, .RO, 0, 0, true⟩]⟩,
  /- CHL_CAL_TILE_LO -/ ⟨0xe01008, [], [⟨0, 32, .RW, 0, 0, false⟩]⟩,
  /- CHL_CAL_TILE_HI -/ ⟨0xe0100c, [], [⟨0, 32, .RW, 0, 0, false⟩]⟩]

/-- Register table of block CHL, part 1. -/
def regsCHL1 : List RegDef := [
  /- CHL_CAL_LIMIT -/ ⟨0xe01010, [], [⟨0, 16, .RW, 256, 0, true⟩, ⟨16, 16, .RW, 640, 0, true⟩]⟩,
  /- CHL_CAL_DE -/ ⟨0xe01014, [], [⟨0, 16, .RO, 0, 0, false⟩, ⟨16, 16, .RO, 0, 0, false⟩]⟩,
  /- CHL_CAL_TIME -/ ⟨0xe01018, [], [⟨0, 32, .RO, 0, 0, true⟩]⟩,
  /- CHL_CAL_MAXAGE -/ ⟨0xe0101c, [], [⟨0, 16, .RW, 90, 0, true⟩, ⟨16, 16, .RW, 1024, 0, true⟩]⟩]

/-- Register table of block CHL. -/
def regsCHL : List RegDef := regsCHL0 ++ regsCHL1

/-- Register table of block LMP, part 0. -/
def regsLMP0 : List RegDef := [
  /- LMP_STAT -/ ⟨0xe80000, [], [⟨0, 1, .W1C, 0, 0, false⟩]⟩,
  /- SWC_CFG -/ ⟨0xe80010, [], [⟨0, 8, .RW, 0, 0, true⟩, ⟨8, 8, .RW, 60, 0, true⟩, ⟨16, 4, .RW, 4, 0, true⟩, ⟨20, 8, .RW, 200, 0, true⟩]⟩,
  /- SWC_FBDIV -/ ⟨0xe80014, [], [⟨0, 16, .RW, 4096, 0, true⟩]⟩,
  /- SWC_STAT -/ ⟨0xe80018, [], [⟨0, 14, .RO, 0, 0, false⟩, ⟨14, 1, .RO, 0, 0, false⟩, ⟨15, 1, .RO, 0, 0, false⟩, ⟨16, 16, .RO, 0, 0, false⟩]⟩,
  /- LS_CFG -/ ⟨0xe80100, [(32, 12)], [⟨0, 1, .RW, 0, 0, true⟩, ⟨1, 1, .RW, 0, 0, true⟩, ⟨2, 5, .RW, 8, 0, true⟩, ⟨7, 3, .RW, 0, 0, true⟩, ⟨10, 2, .RW, 0, 0, true⟩, ⟨12, 3, .RW, 0, 0, true⟩, ⟨15, 5, .RW, 0, 0, true⟩, ⟨20, 1, .RW, 0, 0, true⟩]⟩,
  /- LS_ISET -/ ⟨0xe80104, [(32, 12)], [⟨0, 11, .RW, 0, 0, true⟩, ⟨16, 16, .RW, 0, 0, true⟩]⟩,
  /- LS_DUTY -/ ⟨0xe80108, [(32, 12)], [⟨0, 17, .RW, 0, 0, true⟩, ⟨17, 15, .RW, 0, 0, true⟩]⟩,
  /- LS_PHASE -/ ⟨0xe8010c, [(32, 12)], [⟨0, 32, .RW, 0, 0, true⟩]⟩,
  /- LS_TSHUT -/ ⟨0xe80110, [(32, 12)], [⟨0, 8, .RW, 85, 0, true⟩, ⟨8, 8, .RW, 10, 0, true⟩]⟩,
  /- LS_STAT -/ ⟨0xe80114, [(32, 12)], [⟨0, 3, .RO, 0, 0, false⟩, ⟨3, 1, .RO, 0, 0, false⟩, ⟨4, 1, .RO, 0, 0, false⟩, ⟨16, 16, .RO, 0, 0, false⟩]⟩,
  /- LS_MEAS -/ ⟨0xe80118, [(32, 12)], [⟨0, 11, .RO, 0, 0, false⟩, ⟨16, 16, .RO, 0, 0, false⟩]⟩,
  /- LS_CNT -/ ⟨0xe8011c, [(32, 12)], [⟨0, 8, .RO, 0, 0, false⟩, ⟨8, 8, .RO, 0, 0, false⟩, ⟨16, 8, .RO, 0, 0, false⟩, ⟨24, 8, .RO, 0, 0, false⟩]⟩,
  /- LMP_TC -/ ⟨0xe80400, [(64, 4), (4, 9)], [⟨0, 16, .RW, 16384, 0, true⟩]⟩,
  /- LMP_GRP -/ ⟨0xe80500, [(4, 8)], [⟨0, 1, .RW, 1, 0, true⟩]⟩,
  /- SW_CFG -/ ⟨0xe80600, [(32, 4)], [⟨0, 1, .RW, 0, 0, true⟩, ⟨1, 11, .RW, 0, 0, true⟩, ⟨12, 20, .RW, 0, 0, true⟩]⟩,
  /- SW_TIME -/ ⟨0xe80604, [(32, 4)], [⟨0, 8, .RW, 40, 0, true⟩, ⟨8, 8, .RW, 80, 0, true⟩, ⟨16, 8, .RW, 125, 0, true⟩, ⟨24, 8, .RW, 80, 0, true⟩]⟩,
  /- SW_CMD -/ ⟨0xe80608, [(32, 4)], [⟨0, 1, .WO, 0, 0, false⟩]⟩,
  /- SW_STAT -/ ⟨0xe8060c, [(32, 4)], [⟨0, 1, .RO, 0, 0, false⟩, ⟨1, 1, .RO, 0, 0, false⟩, ⟨16, 16, .RO, 0, 0, false⟩]⟩,
  /- LB_CFG -/ ⟨0xe80800, [], [⟨0, 1, .RW, 0, 0, true⟩, ⟨1, 2, .RW, 1, 0, true⟩, ⟨8, 8, .RW, 100, 0, true⟩]⟩,
  /- LB_NODE_CFG -/ ⟨0xe80840, [(16, 16)], [⟨0, 7, .RW, 0, 0, true⟩, ⟨7, 1, .RW, 0, 0, true⟩, ⟨8, 2, .RW, 0, 0, true⟩]⟩,
  /- LB_LEVEL -/ ⟨0xe80844, [(16, 16)], [⟨0, 16, .RW, 0, 0, true⟩, ⟨16, 16, .RW, 0, 0, true⟩]⟩,
  /- LB_NODE_STAT -/ ⟨0xe80848, [(16, 16)], [⟨0, 8, .RO, 0, 0, false⟩, ⟨8, 1, .RO, 0, 0, false⟩, ⟨16, 16, .RO, 0, 0, false⟩]⟩,
  /- PAT_CTL -/ ⟨0xe80c00, [(32, 8)], [⟨0, 1, .RW, 0, 0, true⟩, ⟨1, 2, .RW, 0, 0, true⟩, ⟨3, 3, .RW, 0, 0, true⟩, ⟨8, 8, .RW, 0, 0, true⟩]⟩,
  /- PAT_RANGE -/ ⟨0xe80c04, [(32, 8)], [⟨0, 10, .RW, 0, 0, true⟩, ⟨16, 10, .RW, 0, 0, true⟩]⟩,
  /- PAT_A -/ ⟨0xe80c08, [(32, 8)], [⟨0, 24, .RW, 0, 0, true⟩]⟩]

/-- Register table of block LMP, part 1. -/
def regsLMP1 : List RegDef := [
  /- PAT_B -/ ⟨0xe80c0c, [(32, 8)], [⟨0, 24, .RW, 0, 0, true⟩]⟩,
  /- PAT_TIME -/ ⟨0xe80c10, [(32, 8)], [⟨0, 16, .RW, 1000, 0, true⟩, ⟨16, 8, .RW, 128, 0, true⟩, ⟨24, 8, .RW, 4, 0, true⟩]⟩,
  /- SW_NODE -/ ⟨0xe90000, [(8192, 4), (4096, 2), (4, 1024)], [⟨0, 24, .RW, 0, 0, true⟩]⟩]

/-- Register table of block LMP. -/
def regsLMP : List RegDef := regsLMP0 ++ regsLMP1

/-- Register table of block VID, part 0. -/
def regsVID0 : List RegDef := [
  /- VID_STAT -/ ⟨0xf00000, [], [⟨0, 1, .RO, 0, 0, false⟩, ⟨1, 3, .RO, 0, 0, false⟩, ⟨4, 1, .RO, 0, 0, false⟩, ⟨5, 3, .RO, 0, 0, false⟩, ⟨8, 1, .W1C, 0, 0, false⟩]⟩,
  /- VID_CMD -/ ⟨0xf00004, [], [⟨0, 1, .WO, 0, 0, false⟩, ⟨1, 1, .WO, 0, 0, false⟩]⟩,
  /- VID_ENC_PICS -/ ⟨0xf00008, [], [⟨0, 32, .RO, 0, 0, false⟩]⟩,
  /- VID_DEC_PICS -/ ⟨0xf0000c, [], [⟨0, 32, .RO, 0, 0, false⟩]⟩,
  /- VID_ENC_CFG -/ ⟨0xf01000, [(128, 8)], [⟨0, 1, .RW, 0, 0, true⟩, ⟨1, 2, .RW, 0, 0, true⟩, ⟨3, 1, .RW, 0, 0, true⟩, ⟨4, 1, .RW, 0, 0, true⟩, ⟨5, 1, .RW, 0, 0, true⟩, ⟨16, 16, .RW, 0, 0, true⟩]⟩,
  /- VID_ENC_SIZE -/ ⟨0xf01004, [(128, 8)], [⟨0, 16, .RW, 0, 0, true⟩, ⟨16, 16, .RW, 0, 0, true⟩]⟩,
  /- VID_ENC_RC -/ ⟨0xf01008, [(128, 8)], [⟨0, 2, .RW, 0, 0, true⟩, ⟨2, 6, .RW, 30, 0, true⟩, ⟨8, 6, .RW, 10, 0, true⟩, ⟨14, 6, .RW, 51, 0, true⟩]⟩,
  /- VID_ENC_RATE -/ ⟨0xf0100c, [(128, 8)], [⟨0, 32, .RW, 0, 0, true⟩]⟩,
  /- VID_ENC_FPS -/ ⟨0xf01010, [(128, 8)], [⟨0, 16, .RW, 30, 0, true⟩, ⟨16, 16, .RW, 1, 0, true⟩]⟩,
  /- VID_ENC_CAP -/ ⟨0xf01014, [(128, 8)], [⟨0, 32, .RW, 0, 0, true⟩]⟩,
  /- VID_ENC_BUF -/ ⟨0xf01018, [(128, 8)], [⟨0, 32, .RW, 0, 0, true⟩]⟩,
  /- VID_ENC_BUFTGT -/ ⟨0xf0101c, [(128, 8)], [⟨0, 32, .RW, 0, 0, true⟩]⟩,
  /- VID_ENC_SEARCH -/ ⟨0xf01020, [(128, 8)], [⟨0, 7, .RW, 32, 0, true⟩, ⟨16, 6, .RW, 16, 0, true⟩]⟩,
  /- VID_ENC_OUT_LO -/ ⟨0xf01024, [(128, 8)], [⟨0, 32, .RW, 0, 0, true⟩]⟩,
  /- VID_ENC_OUT_HI -/ ⟨0xf01028, [(128, 8)], [⟨0, 32, .RW, 0, 0, true⟩]⟩,
  /- VID_ENC_OUT_SIZE -/ ⟨0xf0102c, [(128, 8)], [⟨0, 32, .RW, 0, 0, true⟩]⟩,
  /- VID_ENC_OUT_WR -/ ⟨0xf01030, [(128, 8)], [⟨0, 32, .RO, 0, 0, false⟩]⟩,
  /- VID_ENC_OUT_RD -/ ⟨0xf01034, [(128, 8)], [⟨0, 32, .RW, 0, 0, false⟩]⟩,
  /- VID_ENC_CNT -/ ⟨0xf01038, [(128, 8)], [⟨0, 16, .RO, 0, 0, false⟩, ⟨16, 16, .RO, 0, 0, false⟩]⟩,
  /- VID_DEC_CFG -/ ⟨0xf02000, [(128, 8)], [⟨0, 1, .RW, 0, 0, true⟩, ⟨1, 1, .RW, 0, 0, true⟩]⟩,
  /- VID_DEC_BUF_LO -/ ⟨0xf02004, [(128, 8)], [⟨0, 32, .RW, 0, 0, true⟩]⟩,
  /- VID_DEC_BUF_HI -/ ⟨0xf02008, [(128, 8)], [⟨0, 32, .RW, 0, 0, true⟩]⟩,
  /- VID_DEC_BUF_CFG -/ ⟨0xf0200c, [(128, 8)], [⟨0, 5, .RW, 0, 0, true⟩, ⟨5, 27, .RW, 0, 0, true⟩]⟩,
  /- VID_DEC_STRIDE -/ ⟨0xf02010, [(128, 8)], [⟨0, 32, .RW, 0, 0, true⟩]⟩,
  /- VID_DEC_RD -/ ⟨0xf02014, [(128, 8)], [⟨0, 32, .RW, 0, 0, false⟩]⟩]

/-- Register table of block VID, part 1. -/
def regsVID1 : List RegDef := [
  /- VID_DEC_CNT -/ ⟨0xf02018, [(128, 8)], [⟨0, 16, .RO, 0, 0, false⟩, ⟨16, 16, .RO, 0, 0, false⟩]⟩,
  /- DP_CFG -/ ⟨0xf04000, [], [⟨0, 1, .RW, 0, 0, true⟩, ⟨1, 2, .RW, 2, 0, true⟩, ⟨3, 2, .RW, 3, 0, true⟩, ⟨5, 2, .RW, 1, 0, true⟩, ⟨7, 1, .RW, 0, 0, true⟩, ⟨8, 1, .RW, 0, 0, true⟩]⟩,
  /- DP_STAT -/ ⟨0xf04004, [], [⟨0, 1, .RO, 0, 0, false⟩, ⟨1, 2, .RO, 0, 0, false⟩, ⟨3, 2, .RO, 0, 0, false⟩, ⟨5, 2, .RO, 0, 0, false⟩, ⟨16, 16, .RO, 0, 0, false⟩]⟩,
  /- DP_PCLK -/ ⟨0xf04008, [], [⟨0, 20, .RW, 0, 0, true⟩]⟩,
  /- DP_HTIM -/ ⟨0xf0400c, [], [⟨0, 16, .RW, 0, 0, true⟩, ⟨16, 16, .RW, 0, 0, true⟩]⟩,
  /- DP_HSYNC -/ ⟨0xf04010, [], [⟨0, 16, .RW, 0, 0, true⟩, ⟨16, 16, .RW, 0, 0, true⟩]⟩,
  /- DP_VTIM -/ ⟨0xf04014, [], [⟨0, 16, .RW, 0, 0, true⟩, ⟨16, 16, .RW, 0, 0, true⟩]⟩,
  /- DP_VSYNC -/ ⟨0xf04018, [], [⟨0, 16, .RW, 0, 0, true⟩, ⟨16, 16, .RW, 0, 0, true⟩]⟩,
  /- DP_AUX_CMD -/ ⟨0xf04020, [], [⟨0, 1, .WO, 0, 0, false⟩, ⟨1, 1, .WO, 0, 0, false⟩, ⟨2, 1, .WO, 0, 0, false⟩, ⟨3, 5, .WO, 0, 0, false⟩, ⟨8, 20, .WO, 0, 0, false⟩]⟩,
  /- DP_AUX_STAT -/ ⟨0xf04024, [], [⟨0, 1, .RO, 0, 0, false⟩, ⟨1, 2, .RO, 0, 0, false⟩]⟩,
  /- DP_AUX_DATA -/ ⟨0xf04030, [(4, 4)], [⟨0, 32, .RW, 0, 0, false⟩]⟩]

/-- Register table of block VID. -/
def regsVID : List RegDef := regsVID0 ++ regsVID1

/-- Register table of block TIM, part 0. -/
def regsTIM0 : List RegDef := [
  /- TIM_CTL -/ ⟨0xf80000, [], [⟨0, 1, .RW, 0, 0, true⟩, ⟨1, 1, .RW, 0, 0, true⟩, ⟨2, 1, .RW, 0, 0, true⟩, ⟨3, 2, .RW, 0, 0, true⟩, ⟨5, 1, .RW, 1, 0, true⟩, ⟨6, 1, .WO, 0, 0, false⟩, ⟨8, 8, .RW, 0, 0, true⟩]⟩,
  /- TIM_PRIO -/ ⟨0xf80004, [], [⟨0, 8, .RW, 128, 0, true⟩, ⟨8, 8, .RW, 128, 0, true⟩, ⟨16, 8, .RW, 248, 0, true⟩, ⟨24, 8, .RW, 254, 0, true⟩]⟩,
  /- TIM_INTV -/ ⟨0xf80008, [], [⟨0, 8, .RW, 253, 0, true⟩, ⟨8, 8, .RW, 1, 0, true⟩, ⟨16, 8, .RW, 0, 0, true⟩, ⟨24, 8, .RW, 3, 0, true⟩]⟩,
  /- TIM_STEP_TH -/ ⟨0xf8000c, [], [⟨0, 32, .RW, 1000, 0, true⟩]⟩,
  /- TIM_SERVO -/ ⟨0xf80010, [], [⟨0, 16, .RW, 100, 0, true⟩, ⟨16, 16, .RW, 100, 0, true⟩]⟩,
  /- TIM_STAT -/ ⟨0xf80014, [], [⟨0, 2, .RO, 0, 0, true⟩, ⟨2, 1, .RO, 0, 0, true⟩, ⟨3, 1, .W1C, 0, 0, false⟩, ⟨4, 1, .RO, 0, 0, false⟩, ⟨16, 16, .RO, 0, 0, true⟩]⟩,
  /- TIM_GM_ID_LO -/ ⟨0xf80018, [], [⟨0, 32, .RO, 0, 0, true⟩]⟩,
  /- TIM_GM_ID_HI -/ ⟨0xf8001c, [], [⟨0, 32, .RO, 0, 0, true⟩]⟩,
  /- TIM_OFFSET_LO -/ ⟨0xf80020, [], [⟨0, 32, .RO, 0, 0, false⟩]⟩,
  /- TIM_OFFSET_HI -/ ⟨0xf80024, [], [⟨0, 32, .RO, 0, 0, false⟩]⟩,
  /- TIM_ADJ_LO -/ ⟨0xf80028, [], [⟨0, 32, .RW, 0, 0, true⟩]⟩,
  /- TIM_ADJ_HI -/ ⟨0xf8002c, [], [⟨0, 32, .RW, 0, 0, true⟩]⟩,
  /- TIM_NOW_NS -/ ⟨0xf80030, [], [⟨0, 30, .RO, 0, 0, true⟩]⟩,
  /- TIM_NOW_SEC -/ ⟨0xf80034, [], [⟨0, 32, .RO, 0, 0, true⟩]⟩,
  /- TIM_NS -/ ⟨0xf80038, [], [⟨0, 32, .RO, 0, 0, true⟩]⟩,
  /- TIM_EPOCH_NS -/ ⟨0xf8003c, [], [⟨0, 30, .RO, 0, 0, true⟩]⟩,
  /- TIM_EPOCH_SEC -/ ⟨0xf80040, [], [⟨0, 32, .RO, 0, 0, true⟩]⟩,
  /- TIM_SEC_HI -/ ⟨0xf80044, [], [⟨0, 16, .RW, 0, 0, true⟩]⟩,
  /- TIM_NET_CFG -/ ⟨0xf80100, [(64, 2)], [⟨0, 1, .RW, 0, 0, true⟩, ⟨1, 1, .RW, 0, 0, true⟩]⟩,
  /- TIM_NET_STAT -/ ⟨0xf80104, [(64, 2)], [⟨0, 1, .RO, 0, 0, false⟩, ⟨4, 4, .RO, 0, 0, false⟩]⟩,
  /- TIM_ING_LAT -/ ⟨0xf80108, [(64, 2)], [⟨0, 32, .RW, 0, 0, true⟩]⟩,
  /- TIM_EGR_LAT -/ ⟨0xf8010c, [(64, 2)], [⟨0, 32, .RW, 0, 0, true⟩]⟩,
  /- TIM_ASYM -/ ⟨0xf80110, [(64, 2)], [⟨0, 32, .RW, 0, 0, true⟩]⟩,
  /- TIM_PDELAY -/ ⟨0xf80114, [(64, 2)], [⟨0, 32, .RO, 0, 0, false⟩]⟩,
  /- TIM_CNT_RX -/ ⟨0xf80118, [(64, 2)], [⟨0, 32, .RO, 0, 0, false⟩]⟩]

/-- Register table of block TIM, part 1. -/
def regsTIM1 : List RegDef := [
  /- TIM_CNT_TX -/ ⟨0xf8011c, [(64, 2)], [⟨0, 32, .RO, 0, 0, false⟩]⟩,
  /- TIM_CNT_ERR -/ ⟨0xf80120, [(64, 2)], [⟨0, 16, .RO, 0, 0, false⟩, ⟨16, 16, .RO, 0, 0, false⟩]⟩,
  /- TPO_CFG -/ ⟨0xf80200, [(32, 8)], [⟨0, 2, .RW, 0, 0, true⟩, ⟨2, 1, .RW, 0, 0, true⟩, ⟨3, 1, .RW, 0, 0, false⟩]⟩,
  /- TPO_START_SEC -/ ⟨0xf80204, [(32, 8)], [⟨0, 32, .RW, 0, 0, true⟩]⟩,
  /- TPO_START_NS -/ ⟨0xf80208, [(32, 8)], [⟨0, 30, .RW, 0, 0, true⟩]⟩,
  /- TPO_PERIOD -/ ⟨0xf8020c, [(32, 8)], [⟨0, 32, .RW, 0, 0, true⟩]⟩,
  /- TPO_WIDTH -/ ⟨0xf80210, [(32, 8)], [⟨0, 32, .RW, 0, 0, true⟩]⟩,
  /- TPO_STAT -/ ⟨0xf80214, [(32, 8)], [⟨0, 16, .RO, 0, 0, false⟩, ⟨16, 16, .RO, 0, 0, false⟩]⟩]

/-- Register table of block TIM. -/
def regsTIM : List RegDef := regsTIM0 ++ regsTIM1

/-- Register table of block TWN, part 0. -/
def regsTWN0 : List RegDef := [
  /- TWN_CFG -/ ⟨0xfc0000, [], [⟨0, 1, .RW, 0, 0, true⟩, ⟨1, 5, .RW, 4, 0, true⟩, ⟨6, 1, .RW, 1, 0, true⟩, ⟨7, 1, .RW, 1, 0, true⟩, ⟨16, 16, .RW, 168, 0, true⟩]⟩,
  /- TWN_STAT -/ ⟨0xfc0004, [], [⟨0, 1, .RO, 0, 0, true⟩, ⟨1, 1, .RO, 0, 0, false⟩, ⟨2, 1, .RO, 0, 0, false⟩, ⟨3, 2, .RO, 0, 0, false⟩, ⟨5, 1, .RO, 0, 0, false⟩, ⟨6, 1, .RO, 0, 0, false⟩, ⟨7, 1, .RO, 0, 0, false⟩, ⟨8, 4, .RO, 0, 0, false⟩, ⟨12, 1, .W1C, 0, 0, false⟩]⟩,
  /- TWN_CMD -/ ⟨0xfc0008, [], [⟨0, 1, .WO, 0, 0, false⟩, ⟨1, 1, .WO, 0, 0, false⟩]⟩,
  /- TWN_SWITCH_STAT -/ ⟨0xfc000c, [], [⟨0, 2, .RO, 0, 0, false⟩]⟩,
  /- TWN_IMG_LO -/ ⟨0xfc0010, [], [⟨0, 32, .RW, 0, 0, true⟩]⟩,
  /- TWN_IMG_HI -/ ⟨0xfc0014, [], [⟨0, 32, .RW, 0, 0, true⟩]⟩,
  /- TWN_JOIN_LO -/ ⟨0xfc0018, [], [⟨0, 32, .RW, 0, 0, true⟩]⟩,
  /- TWN_JOIN_HI -/ ⟨0xfc001c, [], [⟨0, 32, .RW, 0, 0, true⟩]⟩,
  /- TWN_HB -/ ⟨0xfc0020, [], [⟨0, 16, .RO, 0, 0, false⟩, ⟨16, 16, .RO, 0, 0, false⟩]⟩,
  /- TWN_HB_MISS -/ ⟨0xfc0024, [], [⟨0, 8, .RO, 0, 0, false⟩, ⟨16, 16, .RO, 0, 0, false⟩]⟩,
  /- TWN_COPY_TX -/ ⟨0xfc0028, [], [⟨0, 32, .RO, 0, 0, false⟩]⟩,
  /- TWN_COPY_RX -/ ⟨0xfc002c, [], [⟨0, 32, .RO, 0, 0, false⟩]⟩,
  /- TWN_COPY_AGE -/ ⟨0xfc0030, [], [⟨0, 16, .RO, 0, 0, false⟩, ⟨16, 16, .RO, 0, 0, false⟩]⟩,
  /- TWN_CNT_COPY -/ ⟨0xfc0034, [], [⟨0, 8, .RO, 0, 0, false⟩, ⟨8, 8, .RO, 0, 0, false⟩, ⟨16, 8, .RO, 0, 0, false⟩, ⟨24, 8, .RO, 0, 0, false⟩]⟩,
  /- TWN_CNT_SKEW -/ ⟨0xfc0038, [], [⟨0, 8, .RO, 0, 0, false⟩, ⟨8, 8, .RO, 0, 0, false⟩, ⟨16, 8, .RO, 0, 0, false⟩, ⟨24, 8, .RO, 0, 0, false⟩]⟩,
  /- TWN_TAKEOVERS -/ ⟨0xfc003c, [], [⟨0, 16, .RO, 0, 0, true⟩, ⟨16, 16, .RO, 0, 0, true⟩]⟩,
  /- TWN_LAST -/ ⟨0xfc0040, [], [⟨0, 2, .RO, 0, 0, true⟩, ⟨2, 1, .RO, 0, 0, true⟩, ⟨4, 4, .RO, 0, 0, true⟩]⟩,
  /- TWN_LAST_SEC -/ ⟨0xfc0044, [], [⟨0, 32, .RO, 0, 0, true⟩]⟩,
  /- TWN_LAST_NS -/ ⟨0xfc0048, [], [⟨0, 30, .RO, 0, 0, true⟩]⟩,
  /- TWN_ATTACH -/ ⟨0xfc004c, [], [⟨0, 8, .RW, 255, 0, true⟩]⟩,
  /- TWN_STANDBY_H -/ ⟨0xfc0050, [], [⟨0, 32, .RO, 0, 0, true⟩]⟩,
  /- TWN_LINK -/ ⟨0xfc0060, [], [⟨0, 4, .RO, 0, 0, false⟩, ⟨8, 8, .RO, 0, 0, false⟩, ⟨16, 16, .RO, 0, 0, false⟩]⟩,
  /- TWN_GAP_FIRST -/ ⟨0xfc0080, [(8, 16)], [⟨0, 32, .RO, 0, 0, true⟩]⟩,
  /- TWN_GAP_N -/ ⟨0xfc0084, [(8, 16)], [⟨0, 32, .RO, 0, 0, true⟩]⟩]

/-- Register table of block TWN. -/
def regsTWN : List RegDef := regsTWN0

/-- Register table of block MGT, part 0. -/
def regsMGT0 : List RegDef := [
  /- MGT_STAT -/ ⟨0x1000000, [], [⟨0, 4, .RO, 0, 0, false⟩, ⟨4, 1, .RO, 0, 0, false⟩, ⟨8, 8, .RO, 0, 0, true⟩]⟩,
  /- MGT_WDOG -/ ⟨0x1000004, [], [⟨0, 16, .RW, 500, 0, true⟩]⟩,
  /- MGT_HK_ROUND -/ ⟨0x1000008, [], [⟨0, 32, .RO, 0, 0, false⟩]⟩,
  /- MGT_TDIE -/ ⟨0x100000c, [], [⟨0, 16, .RO, 0, 0, false⟩, ⟨16, 16, .RO, 0, 0, false⟩]⟩,
  /- MGT_THERM -/ ⟨0x1000010, [], [⟨0, 8, .RW, 100, 0, true⟩, ⟨8, 8, .RW, 110, 0, true⟩]⟩,
  /- MGT_XCHK -/ ⟨0x1000014, [], [⟨0, 8, .RW, 48, 0, true⟩, ⟨8, 8, .RW, 32, 0, true⟩, ⟨16, 8, .RW, 16, 0, true⟩]⟩,
  /- MGT_LOG_WR -/ ⟨0x1000018, [], [⟨0, 32, .RO, 0, 0, true⟩]⟩,
  /- MGT_TS_CFG -/ ⟨0x1000100, [(16, 32)], [⟨0, 2, .RW, 0, 0, true⟩, ⟨2, 5, .RW, 0, 0, true⟩, ⟨7, 1, .RW, 0, 0, true⟩, ⟨8, 5, .RW, 0, 0, true⟩, ⟨13, 1, .RW, 0, 0, true⟩]⟩,
  /- MGT_TS_PAR0 -/ ⟨0x1000104, [(16, 32)], [⟨0, 16, .RW, 16384, 0, true⟩, ⟨16, 16, .RW, 0, 0, true⟩]⟩,
  /- MGT_TS_PAR1 -/ ⟨0x1000108, [(16, 32)], [⟨0, 16, .RW, 0, 0, true⟩]⟩,
  /- MGT_TS_VAL -/ ⟨0x100010c, [(16, 32)], [⟨0, 16, .RO, 0, 0, false⟩, ⟨16, 16, .RO, 0, 0, false⟩]⟩,
  /- MGT_TS_STAT -/ ⟨0x1000300, [(4, 32)], [⟨0, 2, .RO, 0, 0, false⟩, ⟨2, 1, .RO, 0, 0, false⟩, ⟨8, 8, .RO, 0, 0, true⟩]⟩,
  /- MGT_SM_CFG -/ ⟨0x1000400, [(16, 24)], [⟨0, 16, .RW, 0, 0, true⟩, ⟨16, 8, .RW, 30, 0, true⟩, ⟨24, 8, .RW, 80, 0, true⟩]⟩,
  /- MGT_SM_CFG2 -/ ⟨0x1000404, [(16, 24)], [⟨0, 16, .RW, 256, 0, true⟩, ⟨16, 1, .RW, 1, 0, true⟩]⟩,
  /- MGT_SM_VAL -/ ⟨0x1000408, [(16, 24)], [⟨0, 16, .RO, 0, 0, false⟩, ⟨16, 2, .RO, 0, 0, false⟩, ⟨24, 8, .RO, 0, 0, true⟩]⟩,
  /- MGT_OD -/ ⟨0x1000600, [(4, 16)], [⟨0, 16, .RO, 0, 0, false⟩, ⟨16, 1, .RO, 0, 0, false⟩]⟩]

/-- Register table of block MGT. -/
def regsMGT : List RegDef := regsMGT0

/-- The table that holds the block of a byte address (the BAR0 ranges of 00_scope). -/
def regsAt (a : Nat) : List RegDef :=
  if a < 0x10000 then regsGLB
  else if a < 0x20000 then regsEVT
  else if a < 0x40000 then regsHIF
  else if a < 0x80000 then regsGEK
  else if a < 0x300000 then regsSEQ
  else if a < 0x340000 then regsCMP
  else if a < 0x380000 then regsHSK
  else if a < 0xA00000 then regsTIL
  else if a < 0xB00000 then regsHPL
  else if a < 0xC00000 then regsMEM
  else if a < 0xD00000 then regsCAM
  else if a < 0xE00000 then regsPIX
  else if a < 0xE80000 then regsCHL
  else if a < 0xF00000 then regsLMP
  else if a < 0xF80000 then regsVID
  else if a < 0xFC0000 then regsTIM
  else if a < 0x1000000 then regsTWN
  else regsMGT

/-- Where offset `o` falls among the instances `dims`: the innermost index of the instance, or none when `o` is no
instance's word. `last` is the index found so far. -/
def dimIndex (dims : List (Nat × Nat)) (o last : Nat) : Option Nat :=
  match dims with
  | [] => if o = 0 then some last else none
  | (st, n) :: rest => if o / st < n then dimIndex rest (o % st) (o / st) else none

/-- The register of a table whose instance stands at byte address `a`, with its innermost index. -/
def findIn (l : List RegDef) (a : Nat) : Option (RegDef × Nat) :=
  match l with
  | [] => none
  | r :: rest =>
    if r.base ≤ a then
      match dimIndex r.dims (a - r.base) 0 with
      | some i => some (r, i)
      | none => findIn rest a
    else findIn rest a

/-- The register at a byte address, none for a reserved address (R11). -/
def regFind (a : Nat) : Option (RegDef × Nat) := findIn (regsAt a) a

/-- The cold reset value of a list of fields, instance `i`. -/
def fieldsReset (fs : List FieldDef) (i : Nat) : Nat :=
  match fs with
  | [] => 0
  | f :: rest => ((f.cold + f.step * i) % 2 ^ f.width) * 2 ^ f.lo + fieldsReset rest i

/-- The bits of a list of fields that satisfy `p`, as a mask. -/
def fieldsMask (p : FieldDef → Bool) (fs : List FieldDef) : Nat :=
  match fs with
  | [] => 0
  | f :: rest => (if p f then (2 ^ f.width - 1) * 2 ^ f.lo else 0) + fieldsMask p rest

/-- What the register at a byte address holds after cold reset (R10); 0 at a reserved address (R11). -/
def resetAt (a : Nat) : BitVec 32 :=
  match regFind a with
  | some (r, i) => BitVec.ofNat 32 (fieldsReset r.fields i)
  | none => 0#32

/-- The bits of the register at a byte address whose fields satisfy `p`. -/
def maskAt (p : FieldDef → Bool) (a : Nat) : BitVec 32 :=
  match regFind a with
  | some (r, _) => BitVec.ofNat 32 (fieldsMask p r.fields)
  | none => 0#32

end Sys2Proof.Machine
end

