-- ==== Sys2Proof/Machine/SMap.lean ====
section
/-! DEFINITION. Sparse data by key in ONE canonical form: keys strictly rising, no entry equal to what an unlisted key reads as.
`d k` is what the unlisted key `k` reads as. Registers, store bytes and every array of units are held this way. -/

namespace Sys2Proof.Machine

/-- A sparse map from numbers. -/
abbrev SMap (β : Type) := List (Nat × β)

/-- The listed value of a key. -/
def smLook {β : Type} (m : SMap β) (k : Nat) : Option β :=
  match m with
  | [] => none
  | (a, v) :: r => if a = k then some v else smLook r k

/-- The value of a key. -/
def smGet {β : Type} (d : Nat → β) (m : SMap β) (k : Nat) : β := (smLook m k).getD (d k)

/-- The map without a key. -/
def smErase {β : Type} (m : SMap β) (k : Nat) : SMap β :=
  match m with
  | [] => []
  | (a, v) :: r => if a = k then smErase r k else (a, v) :: smErase r k

/-- The map with a key listed, kept in rising order. -/
def smInsert {β : Type} (m : SMap β) (k : Nat) (v : β) : SMap β :=
  match m with
  | [] => [(k, v)]
  | (a, w) :: r => if k < a then (k, v) :: (a, w) :: r else if a = k then (k, v) :: r else (a, w) :: smInsert r k v

/-- The map after a write; writing what the unlisted key reads as removes the entry. -/
def smPut {β : Type} [DecidableEq β] (d : Nat → β) (m : SMap β) (k : Nat) (v : β) : SMap β :=
  if v = d k then smErase m k else smInsert m k v

/-- Every key of the map lies above `k`. -/
def smAbove {β : Type} (k : Nat) (m : SMap β) : Bool := m.all (fun e => decide (k < e.1))

/-- The canonical form: keys strictly rising, no entry equal to its default. -/
def smWf {β : Type} [DecidableEq β] (d : Nat → β) (m : SMap β) : Bool :=
  match m with
  | [] => true
  | (a, v) :: r => smAbove a r && decide (v ≠ d a) && smWf d r

/-- Every listed value passed through `f`, kept canonical. -/
def smMap {β : Type} [DecidableEq β] (d : Nat → β) (f : Nat → β → β) (m : SMap β) : SMap β :=
  match m with
  | [] => []
  | (a, v) :: r => smPut d (smMap d f r) a (f a v)

end Sys2Proof.Machine
end

