-- ==== Sys2Proof/Machine/State.lean ====
section
/-! DEFINITION. The state of the device as plain data: the BAR0 register file (every register's one home), the memories, and per
unit the state the spec gives it beside its registers. Registers and arrays are sparse maps in one canonical form (SMap). -/

namespace Sys2Proof.Machine

/-- The reasons a step can stop with a fault. -/
inductive Fault where
  /-- Raised by no meaning: the spec describes no event on which the device stops and goes no further. Safe. -/
  | stuck
deriving DecidableEq, Repr

/-- The reasons a command has no meaning. -/
inductive Refusal where
  /-- Answered by an arm of `exec` whose command is not modelled yet. Safe: the model stops where the device goes on. -/
  | notModelled (mnemonic : String)
deriving DecidableEq, Repr

/-- An entry the device writes into a queue (R421): KIND, STATUS, SRC, SQHEAD, TAG, the PHASE bit it was written with, and the
32-bit words of BODY from 0x10 on, trailing zero words left out. -/
structure Entry where
  kind : Nat
  status : Nat
  src : Nat
  sqhead : Nat
  tag : Nat
  phase : Bool
  body : List Word
deriving DecidableEq, Repr

/-- A descriptor the device has taken from a queue and works on (R423, R425): the entry, what it will complete with so far, the bytes that a copy
carries, and how many of them it can move. -/
structure Running where
  sub : Sub
  status : Nat
  result : Nat
  data : List Byte
  lim : Nat
deriving DecidableEq, Repr

/-- What a hardware queue holds beside its registers (R418, R425, R428, R433): `ring`, the device-written entries between CI and
PI, oldest first; `waiting`, entries that wait in the device for space; `fetched`, submissions fetched and not started; `run`,
the descriptor in progress; `ended`, whether the most recent descriptor completed (none: the queue has never run);
`unsig`, entries not signalled yet; `lost`, events discarded while full since the last EVENT_LOST (R46). -/
structure Queue where
  ring : List Entry
  waiting : List Entry
  fetched : List Sub
  run : Option Running
  ended : Option Bool
  unsig : Nat
  lost : Nat
deriving DecidableEq, Repr

/-- A queue after reset. -/
def Queue.empty : Queue := ⟨[], [], [], none, none, 0, 0⟩

/-- What a tracker keeps beside its registers (02_web_position): `frac`, the 32-bit fraction of P the host never sees (R56);
`ahead`, how far interpolation has carried P beyond the counted position, in 2^-32 pu (R58); the last count's time and whether
one is known; the last measured speed as `spNum` 2^-32 pu in `spDen` SEQ cycles and the last period (R60); the gate's count, first
and last time; `est`, whether NEXT is established (R67); the last judged index and whether the web went back since (R69); the
steps left of a correction (R70); queued sheet edges (number, E), oldest first (R76); the previous edge; whether SHEET_GAP has
been raised for it; the start of a discarded range (R79). -/
structure Trk where
  frac : Nat
  ahead : Int
  lastT : Nat
  have_ : Bool
  spNum : Int
  spDen : Nat
  period : Nat
  gN : Nat
  gFirst : Nat
  gLast : Nat
  est : Bool
  lastJ : Option Int
  back : Bool
  kLeft : Nat
  edges : List (Nat × Int)
  lastE : Option Int
  gap : Bool
  ovf : Option Int
deriving DecidableEq, Repr

/-- A tracker after reset. -/
def Trk.empty : Trk := ⟨0, 0, 0, false, 0, 0, 0, 0, 0, 0, false, none, false, 0, [], none, false, none⟩

/-- What a line clock keeps beside its registers: the OFFSET correction left and its steps (R75), the time of the last hit (R73),
the lines hit of the sheet being printed and the line number of its first line (R77, R78), the SHEET_OVF ranges still to pass the
bar (R79), the boundary line numbers the composer has given it, as (line, repeat) (R181). -/
structure Lc where
  offC : Int
  offK : Nat
  lastHit : Option Nat
  done : Nat
  first : Int
  ovf : List (Int × Int)
  bounds : List (Int × Nat)
deriving DecidableEq, Repr

/-- A line clock after reset. -/
def Lc.empty : Lc := ⟨0, 0, none, 0, 0, [], []⟩

/-- What an absolute input keeps beside its registers (R52 to R54): consecutive failed frames, whether a good value is known, whether a frame
is in progress, and the unwrapped value (R400). -/
structure AbsIn where
  fails : Nat
  good : Bool
  busy : Bool
  unw : Int
deriving DecidableEq, Repr

/-- An absolute input after reset. -/
def AbsIn.empty : AbsIn := ⟨0, false, false, 0⟩

/-- A word a port engine puts on its link: a control word (header 0b10) or a data word (R257). -/
structure TxWord where
  ctrl : Bool
  word : Dword
deriving DecidableEq, Repr

/-- A line a port engine has sent and neither strobed nor discarded (R262, R271): number, FLAGS and words of its LINE frame, resends. -/
structure SentLine where
  line : Int
  flags : Nat
  words : List Dword
  resent : Nat
deriving DecidableEq, Repr

/-- A CONFIG frame kept for resending (R264): SEQ, payload, resends so far, and whether a resend waits. -/
structure CfgFrame where
  seq : Nat
  payload : List Dword
  resends : Nat
  wait : Bool
deriving DecidableEq, Repr

/-- What a port engine keeps beside its registers (09_head_links): lines sent and not strobed; lines it discarded; lines strobed since
the previous STATUS (R273); lines found incomplete at sending (R269); the 8-entry control queue, as (KIND 2 CONFIG or 3 SYNC, payload)
(R107); the next CONFIG and SYNC SEQ (R260); the last four CONFIG frames (R264); its count of BLANKED and STROBE_LOST NAKs (R273); in
MEASURE the estimates, in 0.2 ns, and failed rounds (R267, R268); SEQ of the PING awaiting its echo; LINKLAT in 0.2 ns; the last
STATUS.SEL known; whether it was lost from UP; lines
not sent because the link was lost or does not fit, as (first line not yet rejected, line from which sending resumed) (R279); the first line the
ring holds for the job, and the line from which sending resumes after a loss or a take-over (R278, R279); `out`, the words last put on the link;
and the line after the last one sent since the press last stood in IDLE. -/
structure HPort where
  sent : List SentLine
  disc : List Int
  strobed : List Int
  bad : List Int
  ctl : List (Nat × List Dword)
  cfgSeq : Nat
  syncSeq : Nat
  cfgs : List CfgFrame
  naks : Nat
  ests : List Int
  rounds : Nat
  ping : Option Nat
  lat2 : Int
  seenStatus : Bool
  lost : Bool
  gap : Option (Int × Option Int)
  from_ : Int
  low : Int
  out : List TxWord
  next : Int
deriving DecidableEq, Repr

/-- A port engine after reset. -/
def HPort.empty : HPort := ⟨[], [], [], [], [], 0, 0, [], 0, [], 0, none, 0, false, false, none, 0, -(2 ^ 63), [], -(2 ^ 63)⟩

/-- What the engines keep per bar (R105, R106, R116, R274): release mark; the line fired last; the substitutions of LADDER and BLANK,
newest first, as (first line, last line, step S, drop code D), S = 0 for BLANK; where a trap began, in lines; whether BARLAT is held; FIRE STROBEs so far (R400). -/
structure HBar where
  mark : Int
  fired : Option Int
  subs : List (Int × Int × Nat × Nat)
  trapAt : Option Int
  held : Bool
  strobes : Nat
deriving DecidableEq, Repr

/-- A bar after reset: nothing released, nothing fired. -/
def HBar.empty : HBar := ⟨-(2 ^ 63), none, [], none, false, 0⟩

/-- A pending transition of the mode controller (R27, R30): target, cause, TAG of the host request it serves (none: not the host's),
whether every bar changes at its next line, the repeat at whose boundary bars change once chosen (R27, R28), the bars that have
changed, whether a bar other than the most upstream has been waited for, whether the repeat is still to be chosen by the most
upstream bar's next boundary hit. -/
structure ModeTr where
  target : Nat
  cause : Nat
  tag : Option Nat
  imm : Bool
  rep : Option Nat
  moved : List Nat
deriving DecidableEq, Repr

/-- A layer descriptor as read (R183). -/
structure LayerD where
  addr : Nat
  elastic : Bool
  coding : Bool
  knock : Bool
  feed : Bool
  tile : Bool
  blend : Nat
  kplanes : Nat
  husk : Bool
  base : Nat
  chStride : Nat
  stride : Nat
  w : Nat
  h : Nat
  chmap : Nat
  lsx : Nat
  lsy : Nat
  x0 : Int
  y0 : Int
  nx : Nat
  ny : Nat
  dx : Nat
  dy : Nat
  ew : Nat
  eh : Nat
  inst0 : Nat
deriving DecidableEq, Repr

/-- An item of a sheaf, or a REGS item of a job (R194). -/
structure Item where
  kind : Nat
  point : Nat
  slot : Nat
  a : Nat
  b : Nat
deriving DecidableEq, Repr

/-- A pending sheaf (R194 to R198): repeat (for a display sheaf, frame), points named, job, items, TAG, where it came from (0 host, 1
sequencer, 2 loop), points that applied it, points skipped, FIT. -/
structure Sheaf where
  rep : Nat
  mask : Nat
  job : Option Nat
  items : List Item
  tag : Nat
  origin : Nat
  applied : Nat
  skipped : Nat
  fit : Bool
deriving DecidableEq, Repr

/-- The tables a tiller holds (R248): blue-noise tile (64 x 64 bytes), threshold matrix, stitch pattern (32 x 64 bytes); empty: none. -/
structure TilTab where
  noise : List Nat
  matrix : List Nat
  stitch : List Nat
deriving DecidableEq, Repr

/-- A tiller's tables after reset. -/
def TilTab.empty : TilTab := ⟨[], [], []⟩

/-- The tiller settings in force for a line (R230): the applied values of the tiller's RWS registers and its tables. -/
structure TSet where
  matrixMode : Bool
  weakMax : Nat
  maxRun : Nat
  nlev : Nat
  levels : List Nat
  codes : List Nat
  kernel : List Nat
  errMax : Nat
  amp : Nat
  phx : Nat
  phy : Nat
  twl : Nat
  thl : Nat
  tab : TilTab
deriving DecidableEq, Repr

/-- The settings that have never been applied. -/
def TSet.empty : TSet := ⟨false, 0, 0, 0, [], [], [], 0, 0, 0, 0, 0, 0, TilTab.empty⟩

/-- A composed line on its way to the tiller: line, repeat, LINE when it was composed, the values of the point's columns in order,
tiller settings. -/
structure CLine where
  line : Int
  rep : Nat
  cAt : Int
  px : List Nat
  tset : TSet
deriving DecidableEq, Repr

/-- What a composition point keeps beside its registers (06_composer): the job it composes (descriptor address; none: no job), its R0,
NREP, REPEAT, ORG, LEAD, tracker, sheet mode, plane, what is added to an edge number to give the repeat index (R28, R77), the layer table, the repeat that begins at the next line when that is settled
(R28), the first line of the repeat being composed, COMPARE of the next line in 2^-32 pu and the PITCH in force there (R181), the tone curve and zone
table read at application (R188, R196), the tiller settings in force at the point (R230), the feed in force as (BASE, DEPTH, NINST) (R200), the proof line being gathered as (sums per
proof column, lines so far, first line, its repeat, FLAGS) (R192), the fire-side shadow as (first line, BAR0 address, value,
mask) (R197), composed lines not screened yet, the line after the job's last (R432), and the line ranges composed without a layer or instance, as (cause, from, to)
(R190, R205). -/
structure Point where
  job : Option Nat
  r0 : Nat
  nrep : Nat
  rep : Nat
  org : Int
  lead : Nat
  trk : Nat
  sheet : Bool
  plane : Nat
  soff : Nat
  layers : SMap (Option LayerD)
  start : Option Nat
  first : Int
  cpos : Int
  cpitch : Nat
  tone : List Nat
  zone : List (List Int)
  tset : TSet
  fcfg : Nat × Nat × Nat
  proof : Option (List Nat × Nat × Int × Nat × Nat)
  fire : List (Int × Nat × Nat × Nat)
  lines : List CLine
  endLine : Option Int
  spans : List (Nat × Int × Int)
deriving DecidableEq, Repr

/-- A point after reset: no job. -/
def Point.empty : Point := ⟨none, 0, 0, 0, 0, 0, 0, false, 0, 0, [], none, 0, 0, 0, [], [], TSet.empty, (0, 0, 0), none, [], [], none, []⟩

/-- The feed as the points keep it (R189 to R191): records marked missing, and per record the points whose instance is passed. -/
structure Feed where
  missing : List Nat
  passed : List (Nat × Nat)
deriving DecidableEq, Repr

/-- The feed after reset. -/
def Feed.empty : Feed := ⟨[], []⟩

/-- A tiller's state for a point (R242, R243): the error the next line has received, by column place in the point's column space; the
line after the highest begun; lines whose writes are not all acknowledged, as (line, composed at LINE); whether the point waits
for a ring slot. -/
structure TPoint where
  err : List Int
  begun : Int
  wait : Bool
deriving DecidableEq, Repr

/-- A tiller's point state after reset. -/
def TPoint.empty : TPoint := ⟨[], 0, false⟩

/-- A wait in progress (R98, R99, R102, R107, R108, R112): kind as in ENG_STAT.WAIT_KIND, UNIT, IMM12 or the DMAs allowed, the target, whether LINE
is compared, whether it waits until source ≤ target, whether the timeout is enabled, the instruction word (SEND and SHEAF issue it again). -/
structure UWait where
  kind : Nat
  unit : Nat
  imm : Nat
  tgt : Int
  line : Bool
  le : Bool
  tmo : Bool
  word : Word
deriving DecidableEq, Repr

/-- A DMA outstanding (R112): store address, data-memory address, bytes, whether it writes the store. -/
structure Dma where
  addr : Nat
  mem : Nat
  len : Nat
  out : Bool
deriving DecidableEq, Repr

/-- What an engine keeps beside its registers (03_ulran): the wait in progress, whether it halts when its instruction or stall ends (R119),
DMAs outstanding, oldest first, whether a DMA has met a store error (R113), and the clock at the last START (ENG_CYCLES). -/
structure EngX where
  wait : Option UWait
  haltNext : Bool
  dmas : List Dma
  dmaErr : Bool
  startClk : Option Nat
deriving DecidableEq, Repr

/-- An engine after reset. -/
def EngX.empty : EngX := ⟨none, false, [], false, none⟩

/-- A command of the Husk engine (R224, R226): source, STRIDE, W, RIL, H, destination, CAP. -/
structure HuskJob where
  src : Nat
  stride : Nat
  w : Nat
  ril : Nat
  h : Nat
  dst : Nat
  cap : Nat
deriving DecidableEq, Repr

/-- A camera line as the ISP takes it (R292 to R297): the number of its trigger (area: its place in the frame), its channels as 16-bit
rows (one for mono and Bayer, three for RGB), its line flags (R306), the leading pixels that are no chaff, and its number among the
lines that entered the unit's ISP queue (none: chaff made by the device). -/
structure CamLn where
  n : Int
  rows : List (List Nat)
  flags : Nat
  good : Nat
  k : Option Nat
deriving DecidableEq, Repr

/-- An open slot (R292): the camera line number and time of its trigger, its block (none: in no block), line flags set so far. -/
structure CamSlot where
  n : Int
  clk : Nat
  blk : Option Nat
  flags : Nat
deriving DecidableEq, Repr

/-- ISP parameters of a frame as it entered the ISP (R298): the words of the unit page from 0x140 to 0x37C, and the tables read from the store: tone curves, flat field, defect map, as words; empty: none. -/
structure CamPar where
  words : List Word
  tone : List Nat
  flat : List Nat
  defects : List Nat
deriving DecidableEq, Repr

/-- A frame or block that is not complete (R294, R295, R306): SEQ; a block; repeat or sheet index; POS; TIME; TRIG0; exposure starts of its first and last trigger in SEQ cycles; triggers so far;
whether no more will join it; through-store; DROPPED; its lines, and the lines up to DLY_MAX beyond; FLAGS so far; SKIP, EXTRA, ECC and CRC counts; once it entered
the ISP, its parameters and its SET. -/
structure CamFrame where
  seq : Nat
  block : Bool
  rep : Nat
  pos : Int
  time : Nat
  trig0 : Int
  c0 : Int
  c1 : Int
  n : Nat
  ended : Bool
  thru : Bool
  dropped : Bool
  lines : List CamLn
  tail : List CamLn
  flags : Nat
  skip : Nat
  extra : Nat
  ecc : Nat
  crc : Nat
  par : Option CamPar
  set : Nat
deriving DecidableEq, Repr

/-- A settings set taken (R309, R310): NUM, its items as (KIND, SIZE, DEV, ADDR, VALUE), camera items acknowledged, the commit instant, frames still to
count once the latency has passed, the SEQ of the frame it governs. -/
structure CamSet where
  num : Nat
  items : List (Nat × Nat × Nat × Nat × Nat)
  sent : Nat
  tc : Option Nat
  left : Option Nat
  gov : Option Nat
deriving DecidableEq, Repr

/-- What a camera unit keeps beside its registers (10_inspection): the high-water mark of C in 2^-32 pu (R288); number and time of the most recent
trigger; the number of a trigger held by MINGAP; open slots, oldest first; frames not complete, in SEQ order; the block of the most recent trigger; the last sheet that
opened a block; lines that entered the ISP queue and lines the ISP has taken; whether a trigger or frame came since EN (R287); per area trigger 1 + the repeat or sheet
it last triggered in; area triggers whose frame has not started, as (repeat, C, exposure start as stamp, in SEQ cycles) (R290); whether a stream packet of the line being received failed CRC; whether
an uncorrectable header was met since the last line (R295); the settings set, SET of the last frame that entered the ISP, whether SET_UNSURE holds (R311); the command word
of the mailbox transaction. -/
structure Cam where
  hwm : Option Int
  last : Option (Int × Nat)
  delayed : Option Int
  slots : List CamSlot
  frames : List CamFrame
  lastBlk : Option Nat
  sheet : Option Nat
  got : Nat
  isp : Nat
  active : Bool
  atDone : SMap Nat
  atrig : List (Nat × Int × Nat × Int)
  bad : Bool
  ecc : Bool
  cset : Option CamSet
  num : Nat
  unsure : Bool
  ctrl : Option Word
deriving DecidableEq, Repr

/-- A camera unit after reset. -/
def Cam.empty : Cam := ⟨none, none, none, [], [], none, none, 0, 0, false, [], [], false, false, none, 0, false, none⟩

/-- A camera record of the calibration store (R455). -/
structure CamCal where
  flags : Nat
  nflat : Nat
  time : Nat
  tile : Nat
  mean : Nat
  max : Nat
  regs : List Nat
  tone : List Nat
  flat : List Nat
deriving DecidableEq, Repr

/-- A camera record that does not exist (SIZE 0). -/
def CamCal.empty : CamCal := ⟨0, 0, 0, 0, 0, 0, [], [], []⟩

/-- The calibration store record (R455): SEQ, COUNT, TIME, the 64 BOARD bytes, the eight camera records. -/
structure CalRec where
  seq : Nat
  count : Nat
  time : Nat
  board : List Nat
  cams : List CamCal
deriving DecidableEq, Repr

/-- A write of SPI NOR by the firmware that is not complete (R440, R454): a training record, a calibration record with the request it answers, or
bytes of an image slot with theirs; a request as (reply queue, TAG). -/
inductive NorJob where
  | train (bytes : List Nat)
  | cal (r : CalRec) (reply : Option (Nat × Nat))
  | image (addr : Nat) (bytes : List Nat) (reply : Nat × Nat)
deriving DecidableEq, Repr

/-- What the Chameleon loop keeps per channel beside its registers (R319 to R327): the job it works under, sums and blocks gathered for NAVG, sums, blocks and
still VALID entries of a capture, consecutive blocks without data, whether it holds for SHEAF. -/
structure Chan where
  job : Option Nat
  avg : List Int
  avgN : Nat
  cap : List Int
  capN : Nat
  capOk : List Bool
  nodata : Nat
  sheafHold : Bool
deriving DecidableEq, Repr

/-- A channel after reset. -/
def Chan.empty : Chan := ⟨none, [], 0, [], 0, [], 0, false⟩

/-- A calibration in progress (R336): COLOUR, camera unit, the unit's parameter registers before it. -/
structure CalRun where
  colour : Bool
  unit : Nat
  saved : List Word
deriving DecidableEq, Repr

/-- What an encode context holds (R362, R365, R368): whether its next picture is an IDR, pictures since the last IRAP, the next POC, the fullness of
the hypothetical decoder buffer in bits once a picture has been coded. -/
structure EncCtx where
  idr : Bool
  since : Nat
  poc : Nat
  full : Option Nat
deriving DecidableEq, Repr

/-- An encode context that has coded nothing. -/
def EncCtx.empty : EncCtx := ⟨true, 0, 0, none⟩

/-- A picture the encoder works on (R363, R364): TAG, context, FLAGS, TIME, STATUS, type, POC, the coded bytes, QP, RC. -/
structure EncPic where
  tag : Nat
  ctx : Nat
  flags : Nat
  time : Nat
  status : Nat
  type : Nat
  poc : Nat
  bytes : List Byte
  qp : Nat
  rc : Nat
deriving DecidableEq, Repr

/-- A decoded picture with its TAG and flags of R364, concealed CTUs filled. -/
structure DecOut where
  tag : Nat
  flags : Nat
  nconc : Nat
  pic : DecPic
deriving DecidableEq, Repr

/-- What a decode context holds (R362, R373 to R376): pictures held for reordering, pictures to be written in output order, pictures written, whether concealment
marking runs, the last correctly decoded picture, whether it waits for an IRAP, TAG and FLAGS of a CLOSE to be carried out once all is written. -/
structure DecCtx where
  held : List DecOut
  out : List DecOut
  n : Nat
  mark : Bool
  good : Option DecPic
  wait : Bool
  close : Bool
deriving DecidableEq, Repr

/-- A decode context that has decoded nothing. -/
def DecCtx.empty : DecCtx := ⟨[], [], 0, false, none, false, false⟩

/-- The chosen master (R388): sender of its messages, the port it is heard on, the grandmaster's identity and its rank in the best-master comparison. -/
structure PtpMaster where
  src : Nat
  port : Nat
  gm : Nat
  rank : Nat
deriving DecidableEq, Repr

/-- A time-pulse output (R392): the next scheduled edge and the end of the pulse in progress, in ns of PTP time; its logical level. -/
structure Tpo where
  next : Option Int
  fall : Option Int
  high : Bool
deriving DecidableEq, Repr

/-- A time-pulse output with nothing scheduled. -/
def Tpo.empty : Tpo := ⟨none, none, false⟩

/-- What the last applied copy image says of the press (R400, R405): mode, the sixteen entries, staged transition (target, repeat), time of the snapshot. -/
structure PressImg where
  mode : Nat
  bars : Nat
  staged : Option (Nat × Nat)
  time : Nat
deriving DecidableEq, Repr

/-- A start in progress (R446 to R450): 1 cold, 2 warm, 3 forced cold; cause; whether the firmware has reported ready; slots that did not. -/
structure StartSt where
  kind : Nat
  cause : Nat
  ready : Bool
  tried : List Nat
deriving DecidableEq, Repr

/-- What a remote temperature input keeps between rounds (R458, R459): consecutive good rounds while SUSPECT, rounds without a value while FAULTED, whether it has a
control value. -/
structure TsSt where
  clear : Nat
  blind : Nat
  have_ : Bool
deriving DecidableEq, Repr

/-- A temperature input after reset. -/
def TsSt.empty : TsSt := ⟨0, 0, false⟩

/-- A log record (R463): its number, kind (0 start, 1 FATAL event, 2 management restart, 3 image commit, 4 calibration, 5 NOR write failure, 6 boot fall-back) and what
it tells. -/
structure LogRec where
  num : Nat
  kind : Nat
  info : List Int
deriving DecidableEq, Repr

/-- What network time keeps beside its registers (14_time). -/
structure TimSt where
  /-- The switch's learnt addresses, as 1 + port (R382). -/
  macTab : SMap Nat
  /-- The last frame the switch put out at N0, N1 (0, 1) and NI (2) (R382, R385). -/
  netOut : SMap (List Byte)
  /-- The chosen master (R388); none: none, or this unit. -/
  ptpMaster : Option PtpMaster
  /-- Offsets gathered in ACQUIRE (R388). -/
  ptpGot : Nat
  /-- The next lock may step the clock (R388). -/
  ptpStepOk : Bool
  /-- TIME_OFFSET_LARGE has been raised in this episode (R388). -/
  ptpLarge : Bool
  /-- The last 64 values of ADJ while LOCKED, newest first (R388). -/
  ptpAdjs : List Int
  /-- The mean path delay of end-to-end mode, in 2^-16 ns (R388). -/
  ptpDelay : Int
  /-- Origin time, ingress stamp and correction of the last Sync, in 2^-16 ns (R388). -/
  ptpSync : Option (Int × Int × Int)
  /-- Egress stamp of the last message sent, by 4 x port + kind, in 2^-16 ns (R383, R384). -/
  ptpTx : SMap Int
  /-- Time-pulse outputs (R392). -/
  tpo : SMap Tpo
deriving DecidableEq, Repr

/-- What network time keeps beside its registers (14_time), after power-on reset. -/
def TimSt.empty : TimSt where
  macTab := []
  netOut := []
  ptpMaster := none
  ptpGot := 0
  ptpStepOk := true
  ptpLarge := false
  ptpAdjs := []
  ptpDelay := 0
  ptpSync := none
  ptpTx := []
  tpo := []

/-- What twin operation keeps beside its registers (15_twin). -/
structure TwnSt where
  /-- The press as the last applied copy image has it (R405). -/
  twnPress : Option PressImg
  /-- The unwrapped values of ABS inputs are aligned to the partner's (R401). -/
  twnUnw : Bool
  /-- A good heartbeat came in this slot (R403). -/
  hbSeen : Bool
  /-- FIRED of each bar in the last good heartbeat (R403). -/
  hbFired : Option (List (BitVec 32))
  /-- The last heartbeat sent: SEQ, mode, SB_READY, FIRED of each bar (R403). -/
  hbOut : Option (Nat × Nat × Bool × List Nat)
  /-- TWIN_ALIVE_O (R403). -/
  alivePin : Bool
  /-- TWIN_ALIVE_I toggled in the previous slot (R413). -/
  alivePrev : Bool
  /-- TWIN_STANDBY_LOST has been raised in this episode (R405). -/
  twnLost : Bool
  /-- TWIN_COPY_STALE has been raised in this episode (R402). -/
  twnStale : Bool
  /-- How far joining has come: 0 not joining, 1 joined, 2 the JOIN image is applied, 3 a copy image after it (R410). -/
  twnJoin : Nat
  /-- SHEAF skew is outstanding (R410). -/
  twnShSkew : Bool
  /-- A planned switch-over is pending (R409). -/
  twnSwitch : Bool
  /-- The half of TWN_IMG that the previous image used (R400). -/
  copyHalf : Bool
  /-- The last image sent (R400). -/
  copyOut : Option CopyImg
  /-- Images not acknowledged: CYCLE, changes of ZONE, zone sheaves and NZT they carry, SEQ_REJ_WR they reach (R402). -/
  copyWait : List (Nat × Nat × Nat × Nat × Nat)
  /-- SEQ_REJ_WR that the last acknowledged image reached (R400, R402). -/
  copyRej : Nat
  /-- Zone buffers written since the last acknowledged image, as (address, bytes) (R400). -/
  zoneChg : List (Nat × Nat)
  /-- Zone sheaves submitted since the last acknowledged image (R400). -/
  zoneShf : List Sheaf
  /-- The sixteen mode entries that a take-over in progress gives the bars (R405). -/
  tkBars : Option Nat
  /-- The staged transition to go on with after a take-over, as (target, repeat) (R405). -/
  tkNext : Option (Nat × Nat)
  /-- The take-over in progress is STALE (R405). -/
  tkStale : Bool
  /-- Bars whose TAKEOVER_GAP range goes on over lines sent blank (R406). -/
  tkGap : SMap Bool
  /-- When this unit was last active, in SEQ cycles (R409). -/
  twnActClk : Nat
deriving DecidableEq, Repr

/-- What twin operation keeps beside its registers (15_twin), after power-on reset. -/
def TwnSt.empty : TwnSt where
  twnPress := none
  twnUnw := false
  hbSeen := false
  hbFired := none
  hbOut := none
  alivePin := false
  alivePrev := false
  twnLost := false
  twnStale := false
  twnJoin := 0
  twnShSkew := false
  twnSwitch := false
  copyHalf := false
  copyOut := none
  copyWait := []
  copyRej := 0
  zoneChg := []
  zoneShf := []
  tkBars := none
  tkNext := none
  tkStale := false
  tkGap := []
  twnActClk := 0

/-- What the host interface keeps beside its registers and queues (16_host). -/
structure HstSt where
  /-- Messages received, by queue (R429). -/
  msgCnt : SMap Nat
  /-- The last message sent, by queue (R429). -/
  msgOut : SMap (List Byte)
  /-- What the last BAR2 read returned; none: Unsupported Request (R416, R417). -/
  bar2Out : Option (List Byte)
  /-- The last COPY_OUT into host memory: bus address, bytes (R422). -/
  hostWr : Option (Nat × List Byte)
  /-- Per host submission queue, doorbell writes not yet passed: the PI written, PI of all sixteen then (R174). -/
  doorbells : SMap (List (Nat × List Nat))
deriving DecidableEq, Repr

/-- What the host interface keeps beside its registers and queues (16_host), after power-on reset. -/
def HstSt.empty : HstSt where
  msgCnt := []
  msgOut := []
  bar2Out := none
  hostWr := none
  doorbells := []

/-- What start and management keep beside their registers (17_management). -/
structure MgtSt where
  /-- The start in progress (R446); after power-on reset a cold start. -/
  start : Option StartSt
  /-- The fused minimum SVN (R443, R444). -/
  fuseSvn : Nat
  /-- The fuses' SHA-384 of Gorlor public key 0 to 3, as bytes; empty: none fused (R443). -/
  fuseKey : SMap (List Nat)
  /-- The fuses' revocation bits (R443). -/
  fuseRev : SMap Bool
  /-- Temperature inputs between rounds (R458, R459). -/
  hkTs : SMap TsSt
  /-- Consecutive rounds of a supply monitor in TRIP (R460). -/
  smTrip : SMap Nat
  /-- An episode of DIE_HOT runs (R461). -/
  dieHot : Bool
  /-- THERM_TRIP_N is asserted (R461). -/
  thermTrip : Bool
  /-- When the first expiry of the management watchdog came (R462). -/
  wdogAt : Option Nat
  /-- Log records gathered and not written, oldest first (R463). -/
  logBuf : List LogRec
  /-- Log records in SPI NOR, by number modulo 129,024 (R463). -/
  logRing : SMap (Option LogRec)
  /-- The next log record's number (R463). -/
  logNum : Nat
  /-- The GLB_NOR program or erase in progress: OP, address, data (R465). -/
  norOp : Option (Nat × Nat × Nat)
deriving DecidableEq, Repr

/-- What start and management keep beside their registers (17_management), after power-on reset. -/
def MgtSt.empty : MgtSt where
  start := some ⟨1, 0, false, []⟩
  fuseSvn := 0
  fuseKey := []
  fuseRev := []
  hkTs := []
  smTrip := []
  dieHot := false
  thermTrip := false
  wdogAt := none
  logBuf := []
  logRing := []
  logNum := 0
  norOp := none

/-- The state of the device. Registers are in `regs`; every other field is named with the rule it comes from. -/
structure State where
  /-- The BAR0 register file, by byte address; an unlisted register holds its reset value (R9, R10). A shadowed (RWS) field reads here what was last written. -/
  regs : SMap Word
  /-- The applied value of registers with RWS fields, by byte address; unlisted: the reset value (R9, R10, R196). -/
  applied : SMap Word
  /-- The words latched by the last read that latches (R81, R96, R394): by reader, 0 the host, 1 + e engine e; as (address, value). -/
  latched : SMap (List (Nat × Word))
  /-- SEQ cycles (1.25 ns) passed since reset (R47 samples every second one). -/
  clk : Nat
  /-- Time since the last NET tick, in 0.01 ns (R387). -/
  netAcc : Nat
  /-- The fraction of NS, in 2^-48 / 25 ns (R387). -/
  nsFrac : Nat
  /-- The model's own counter of free values taken (log 2). -/
  fresh : Nat
  /-- For each rate-limited event (by code and unit) 1 + the time it was last raised; unlisted: never (R49, R63, R73). -/
  evLast : SMap Nat
  /-- Per unit-state entry, the causes that now hold it in STALL, oldest first (R37). -/
  causes : SMap (List Nat)
  /-- The hardware queues Q00 to Q63 (R418). -/
  queues : SMap Queue
  /-- MSI-X messages sent, by vector (R433). -/
  irqSent : SMap Nat
  /-- ABS0 to ABS3 (R53). -/
  absIn : SMap AbsIn
  /-- For MK0 to MK7, the position up to which further edges are ignored (R55). -/
  mkHold : SMap (Option Int)
  /-- Trackers GK0 to GK3 (R56). -/
  trk : SMap Trk
  /-- Line clocks LC0 to LC15 (R71). -/
  lc : SMap Lc
  /-- Per engine, the latches whose source occurred again while set, as a bit mask (R100). -/
  latchMore : SMap Nat
  /-- Runs of rejected lines being gathered, by 16 x cause + bar: web range start and end, the line after the last, lines so far (R137). -/
  gather : SMap (Option (Int × Int × Int × Nat))
  /-- Port engines HP000 to HP127 (R255 to R279). -/
  hport : SMap HPort
  /-- Per bar, release mark and fire record (R105, R106). -/
  hbar : SMap HBar
  /-- The transition the mode controller is in (R27, R30). -/
  tr : Option ModeTr
  /-- The start trigger has been emitted and the mode controller has not taken it yet (R33). -/
  startTrig : Bool
  /-- The central store by byte address (R151); an unlisted byte reads 0 (log 1). -/
  store : SMap Byte
  /-- Bursts (address / 64) that hold the poison code (R154). -/
  poison : SMap Bool
  /-- Corrected errors in the current scrub pass, by 32 x sub-channel + 16 x rank + device (R153, R157). -/
  memDev : SMap Nat
  /-- Failed replays of a buffered command, by 2^16 x sub-channel + command (R159, R160). -/
  memFails : SMap Nat
  /-- Reads at or below 85 C in succession of a rank in doubled refresh, by 2 x sub-channel + rank (R167). -/
  memCool : SMap Nat
  /-- Ranks in doubled refresh, by 2 x sub-channel + rank (R167). -/
  memHot : SMap Bool
  /-- Sub-channels in self-refresh (R160, R164, R176). -/
  memSleep : SMap Bool
  /-- Ports whose present panic episode has raised MEM_PANIC_LONG (R172). -/
  memPanicLong : SMap Bool
  /-- Requests promoted since reset, by class (R170). -/
  memPromoted : SMap Nat
  /-- Refreshes postponed under panic, by sub-channel (R171). -/
  memRefPost : SMap Nat
  /-- The die is more than 25 C from the training temperature (R166). -/
  memDrift : Bool
  /-- Pending press sheaves in order of acceptance (R195, R196). -/
  sheaves : List Sheaf
  /-- Pending display sheaves (R208). -/
  dsheaves : List Sheaf
  /-- Composition points CP00 to CP15 (R179). -/
  point : SMap Point
  /-- The variable-data feed (R189 to R191). -/
  feed : Feed
  /-- The printed width of each plane in columns (R2); unlisted: Config.printedWidth. No register names it (log 9). -/
  pwidth : SMap Nat
  /-- Tables held by TL00 to TL11 (R248). -/
  tilTab : SMap TilTab
  /-- Tiller state per point (R243). -/
  tilPt : SMap TPoint
  /-- Copied nozzle changes a standby holds until its tiller reaches EFF, oldest first, as (entry index, entry, EFF) (R404). -/
  nzHeld : List (Nat × Nat × Int)
  /-- Update-path changes since the last acknowledged image, as (entry index, entry, EFF) (R400). -/
  nzChg : List (Nat × Nat × Int)
  /-- NZT entries known to be uncorrectable (R237). -/
  nzUnc : SMap Bool
  /-- Per port, lines whose ring writes are not acknowledged, as (line, LINE when composed), oldest first (R250, R254). -/
  tilOut : SMap (List (Int × Int))
  /-- Engines 0 to 27 (R83, R119). -/
  eng : SMap EngX
  /-- Code memories, by 16384 x engine + word (R85); unlisted: 0 (log 1). -/
  engCode : SMap Word
  /-- Data memories, by 2^18 x engine + byte (R84, R85); unlisted: 0 (log 1). -/
  engData : SMap Byte
  /-- The loader copy in progress, as (SRC, SEQ_LD_DST, OFF, LEN) taken at GO (R120). -/
  loading : Option (Nat × Nat × Nat × Nat)
  /-- The web coordinate at which the most upstream bar left PRINT for HOLD (R27, R136). -/
  holdAt : Option Int
  /-- Bars that have fired the last line of the job (R432). -/
  jobEnded : List Nat
  /-- GIO pins with a pulse in progress (R142). -/
  gioPulse : SMap Bool
  /-- Filtered levels at the GIO pins (R144). -/
  gioRaw : Nat
  /-- TPO outputs with a sequencer pulse in progress (R104). -/
  tpPulse : SMap Bool
  /-- This unit pulls the TWIN_ACTIVE net low (R396). -/
  twinPull : Bool
  /-- Channels whose update the pending zone sheaf carries (R322). -/
  chlPend : List Nat
  /-- Latest head-board entry of a nozzle kept in a frozen mode, by entry index, as 1 + KIND (R333). -/
  nhKept : SMap Nat
  /-- Run of strips of a nozzle, by entry index, as (class, strips) (R332). -/
  nhRuns : SMap (Nat × Nat)
  /-- For nozzles that the last judged strip did not judge below WEAK_TH, the end of the last strip that did as (1, end), or (2, 0) when none did (R335); unlisted (0, 0): judged below. -/
  nhOld : SMap (Nat × Int)
  /-- Per bar, the end of the last judged strip on the web (R335). -/
  nhEnd : SMap (Option Int)
  /-- Ports in an episode of NH_PORT_LIMIT (R334). -/
  nhLimit : SMap Bool
  /-- Power domains switched off: 0 to 3 HPA to HPD, 4 CAM (R471). -/
  domOff : SMap Bool
  /-- The Husk engine's command in progress, as it stood at GO (R226). -/
  husk : Option HuskJob
  /-- Camera units 0 to 7 (R282 to R311). -/
  cam : SMap Cam
  /-- CAM_TRIG pins that are high (R289). -/
  camPin : SMap Bool
  /-- Per tracker, the last 64 sheet edges queued, as (number, E), oldest first: a camera stands downstream of the bars that retire them (R77, R290). -/
  camEdges : SMap (List (Nat × Int))
  /-- The current 1 ms of ISP load: its number and the cycles used in it (R297, R313). -/
  ispWin : Nat × Nat
  /-- The ISP's last unit, as 1 + unit, and the lines of its current slice (R297). -/
  ispTurn : Nat × Nat
  /-- SPI NOR by byte address (R442); an unlisted byte reads 0xFF (log 3). -/
  nor : SMap Byte
  /-- The calibration record in force, as the firmware holds it (R454, R455); none: no valid copy. -/
  cal : Option CalRec
  /-- Writes of SPI NOR by the firmware in progress, oldest first (R441, R454). -/
  norJobs : List NorJob
  /-- Channels of the Chameleon loop (R319 to R327). -/
  chan : SMap Chan
  /-- Zone records the loop firmware has taken (R317). -/
  chlRd : Nat
  /-- First repeat printed after the press last entered PRINT (R323). -/
  printRep : Option Nat
  /-- Nozzle records the nozzle-health firmware has taken (R330). -/
  nhRd : Nat
  /-- Per bar, nozzle records of the strip being read, as (entry index, d x 256) (R330). -/
  nhGot : SMap (List (Nat × Nat))
  /-- Bars whose strip being read has lost records (R330). -/
  nhBad : List Nat
  /-- The calibration in progress (R336). -/
  calRun : Option CalRun
  /-- Per lit string, 1 + the time it lit (R350). -/
  lampLit : SMap Nat
  /-- Groups of which a string lit in the last 100 ms (R344). -/
  lampRun : SMap Bool
  /-- The SWC's target in 10 mV; none: it has not started (R350). -/
  swcTarget : Option Nat
  /-- Since when Vmin exceeds HEADROOM + 0.3 V (R350). -/
  swcHigh : Option Nat
  /-- Switching has stopped after an overvoltage (R351). -/
  swcOvp : Bool
  /-- Times of the last overvoltages (R351). -/
  swcOvps : List Nat
  /-- Chains whose banks swap at the next frame start (R353). -/
  chainSwap : SMap Bool
  /-- The words of the last frame a chain sent (R352). -/
  chainOut : SMap (List Nat)
  /-- The level each lamp-bus node was last written (R354). -/
  lbSent : SMap (Option Nat)
  /-- Consecutive NAKs of a lamp-bus node (R354). -/
  lbNak : SMap Nat
  /-- Nodes that entry to SAFE still has to write (R355). -/
  lbSafe : List Nat
  /-- Per running pattern engine, 1 + the time it started (R356). -/
  patAt : SMap Nat
  /-- Encode contexts E0 to E7 (R362). -/
  encCtx : SMap EncCtx
  /-- The picture the encoder works on (R363). -/
  encRun : Option EncPic
  /-- The encode queue stalls for output ring space (R371). -/
  encStall : Bool
  /-- TAG and context of the last encoded picture reported (R365). -/
  encLast : Option (Nat × Nat)
  /-- Decode contexts D0 to D7 (R362). -/
  decCtx : SMap DecCtx
  /-- TAG and context of the last decoded picture reported (R365). -/
  decLast : Option (Nat × Nat)
  /-- DP_CFG, DP_PCLK and the timing registers as EN last applied them (R380). -/
  dpRegs : List Word
  /-- The DisplayPort AUX transaction in progress, as its command word (R377). -/
  auxCmd : Option Word
  /-- What network time keeps beside its registers (14_time). -/
  tim : TimSt
  /-- What twin operation keeps beside its registers (15_twin). -/
  twn : TwnSt
  /-- What the host interface keeps beside its registers and queues (16_host). -/
  hst : HstSt
  /-- What start and management keep beside their registers (17_management). -/
  mgt : MgtSt
  /-- The commands that wait, first in, first out. -/
  pending : List Instr
deriving DecidableEq, Repr

/-- The device right after power-on reset, before any start has run: every register at its cold reset value (nothing listed),
the press in BOOT, every memory with nothing listed, no command waiting; TWN_STAT.ROLE shows the strap of unit A (DESIGN CHOICE, log 34), no key is fused (DESIGN CHOICE, log 35). -/
def State.reset : State where
  regs := []
  applied := []
  latched := []
  clk := 0
  netAcc := 0
  nsFrac := 0
  fresh := 0
  evLast := []
  causes := []
  queues := []
  irqSent := []
  absIn := []
  mkHold := []
  trk := []
  lc := []
  latchMore := []
  gather := []
  hport := []
  hbar := []
  tr := none
  startTrig := false
  store := []
  poison := []
  memDev := []
  memFails := []
  memCool := []
  memHot := []
  memSleep := []
  memPanicLong := []
  memPromoted := []
  memRefPost := []
  memDrift := false
  sheaves := []
  dsheaves := []
  point := []
  feed := Feed.empty
  pwidth := []
  tilTab := []
  tilPt := []
  nzHeld := []
  nzChg := []
  nzUnc := []
  tilOut := []
  eng := []
  engCode := []
  engData := []
  loading := none
  holdAt := none
  jobEnded := []
  gioPulse := []
  gioRaw := 0
  tpPulse := []
  twinPull := false
  chlPend := []
  nhKept := []
  nhRuns := []
  nhOld := []
  nhEnd := []
  nhLimit := []
  domOff := []
  husk := none
  cam := []
  camPin := []
  camEdges := []
  ispWin := (0, 0)
  ispTurn := (0, 0)
  nor := []
  cal := none
  norJobs := []
  chan := []
  chlRd := 0
  printRep := none
  nhRd := 0
  nhGot := []
  nhBad := []
  calRun := none
  lampLit := []
  lampRun := []
  swcTarget := none
  swcHigh := none
  swcOvp := false
  swcOvps := []
  chainSwap := []
  chainOut := []
  lbSent := []
  lbNak := []
  lbSafe := []
  patAt := []
  encCtx := []
  encRun := none
  encStall := false
  encLast := none
  decCtx := []
  decLast := none
  dpRegs := []
  auxCmd := none
  tim := TimSt.empty
  twn := TwnSt.empty
  hst := HstSt.empty
  mgt := MgtSt.empty
  pending := []

end Sys2Proof.Machine
end

