-- ==== Sys2Proof/Machine/Ops.lean ====
section
/-! DEFINITION. The named operations over the state: registers and fields, queues, interrupts and events, unit states, time,
engine latches, the reject list. Every meaning is written over these. -/

namespace Sys2Proof.Machine

/-- What every command of this block answers: it has an effect, and a next state. -/
abbrev Res := Host.Outcome State Fault Refusal

/-! ### Registers (R9, R11) -/

/-- The register at a byte address. -/
def State.rd (s : State) (a : Nat) : Word := smGet resetAt s.regs a

/-- The state with the register at a byte address written by the device. -/
def State.wr (s : State) (a : Nat) (v : Word) : State := { s with regs := smPut resetAt s.regs a v }

/-- The applied value of the register at a byte address (R9, RWS). -/
def State.ap (s : State) (a : Nat) : Word := smGet resetAt s.applied a

/-- The state with the applied value of the register at a byte address. -/
def State.putAp (s : State) (a : Nat) (v : Word) : State := { s with applied := smPut resetAt s.applied a v }

/-- A word with `w` bits from bit `lo` replaced. -/
def putBits (x : Word) (lo w v : Nat) : Word :=
  let m := BitVec.ofNat 32 ((2 ^ w - 1) * 2 ^ lo)
  (x &&& ~~~m) ||| (BitVec.ofNat 32 (v % 2 ^ w * 2 ^ lo) &&& m)

/-- `w` bits of a word from bit `lo`. -/
def getBits (x : Word) (lo w : Nat) : Nat := x.toNat / 2 ^ lo % 2 ^ w

/-- The value of a field of instance (i, j, k). -/
def State.get (s : State) (f : Fld) (i j k : Nat := 0) : Nat := getBits (s.rd (f.addr i j k)) f.lo f.width

/-- The state with a field of instance (i, j, k) made `v`. -/
def State.set (s : State) (f : Fld) (v : Nat) (i j k : Nat := 0) : State :=
  s.wr (f.addr i j k) (putBits (s.rd (f.addr i j k)) f.lo f.width v)

/-- The applied value of a field (R9, RWS). -/
def State.getA (s : State) (f : Fld) (i j k : Nat := 0) : Nat := getBits (s.ap (f.addr i j k)) f.lo f.width

/-- The state with the applied value of a field. -/
def State.setA (s : State) (f : Fld) (v : Nat) (i j k : Nat := 0) : State :=
  s.putAp (f.addr i j k) (putBits (s.ap (f.addr i j k)) f.lo f.width v)

/-- A field that is a bit. -/
def State.on (s : State) (f : Fld) (i j k : Nat := 0) : Bool := s.get f i j k == 1

/-- A bit field made `b`. -/
def State.put (s : State) (f : Fld) (b : Bool) (i j k : Nat := 0) : State := s.set f (b2n b) i j k

/-- A field read as two's complement. -/
def State.geti (s : State) (f : Fld) (i j k : Nat := 0) : Int := sx f.width (s.get f i j k)

/-- A field made the low bits of an integer. -/
def State.seti (s : State) (f : Fld) (z : Int) (i j k : Nat := 0) : State := s.set f (ux f.width z) i j k

/-- A field of a register read from sub-field `n` of an array of fields `w` bits apart. -/
def Fld.sh (f : Fld) (n : Nat) : Fld := { f with lo := f.lo + n }

/-- A 64-bit value held in a register and the one after it. -/
def State.get64 (s : State) (f : Fld) (i j k : Nat := 0) : Nat :=
  (s.rd (f.addr i j k)).toNat + 2 ^ 32 * (s.rd (f.addr i j k + 4)).toNat

/-- That value as two's complement (R4). -/
def State.geti64 (s : State) (f : Fld) (i j k : Nat := 0) : Int := sx 64 (s.get64 f i j k)

/-- Both registers of a 64-bit value written. -/
def State.set64 (s : State) (f : Fld) (z : Int) (i j k : Nat := 0) : State :=
  let n := ux 64 z
  (s.wr (f.addr i j k) (BitVec.ofNat 32 n)).wr (f.addr i j k + 4) (BitVec.ofNat 32 (n / 2 ^ 32))

/-- The applied 64-bit value of a register pair. -/
def State.getA64 (s : State) (f : Fld) (i j k : Nat := 0) : Nat :=
  (s.ap (f.addr i j k)).toNat + 2 ^ 32 * (s.ap (f.addr i j k + 4)).toNat

/-- The applied value of both registers of a pair written. -/
def State.setA64 (s : State) (f : Fld) (z : Int) (i j k : Nat := 0) : State :=
  let n := ux 64 z
  (s.putAp (f.addr i j k) (BitVec.ofNat 32 n)).putAp (f.addr i j k + 4) (BitVec.ofNat 32 (n / 2 ^ 32))

/-- A count that saturates at its field's maximum, raised by `n`. -/
def State.addSat (s : State) (f : Fld) (n : Nat) (i j k : Nat := 0) : State :=
  s.set f (min (s.get f i j k + n) (2 ^ f.width - 1)) i j k

/-- A count that wraps, raised by `n`. -/
def State.addWrap (s : State) (f : Fld) (n : Nat) (i j k : Nat := 0) : State := s.set f (s.get f i j k + n) i j k

/-- `f` applied where `c` holds. -/
def State.cond (s : State) (c : Bool) (f : State → State) : State := if c then f s else s

/-- `f` applied for every element of a list, in order. -/
def State.each {α : Type} (s : State) (l : List α) (f : α → State → State) : State :=
  match l with
  | [] => s
  | x :: r => (f x s).each r f

/-! ### A host write to a register of no row of its own (R9, R11) -/

/-- What a write of `v` leaves in a register that reads `old`: RW and RWS bits take `v`, W1C bits clear where `v` is 1, W1S bits set
where `v` is 1, RO, WO and reserved bits stay. -/
def writeBits (a : Nat) (old v : Word) : Word :=
  let rw := maskAt (fun f => f.ty == .RW || f.ty == .RWS) a
  let c := maskAt (fun f => f.ty == .W1C) a
  let st := maskAt (fun f => f.ty == .W1S) a
  (old &&& ~~~rw &&& ~~~(c &&& v)) ||| (v &&& rw) ||| (v &&& st)

/-- A host write acting on each field by its type; a reserved address ignores it (R11). -/
def State.hostWrite (s : State) (a : Nat) (v : Word) : State := s.wr a (writeBits a (s.rd a) v)

/-! ### Time (R47, R386, R387) -/

/-- The wrap of NS: the epoch advances by 4 s and 294,967,296 ns (R386). -/
def State.nsWrap (s : State) : State :=
  let ns := s.get TIM_EPOCH_NS + 294967296
  let sec := s.get TIM_EPOCH_SEC + 4 + ns / 1000000000
  (s.set TIM_EPOCH_NS (ns % 1000000000)).set TIM_EPOCH_SEC sec

/-- PTP seconds now, low 32 bits: the epoch plus NS (R386). -/
def State.ptpSec (s : State) : Nat :=
  (s.get TIM_EPOCH_SEC + (s.get TIM_EPOCH_NS + s.get TIM_NS) / 1000000000) % 2 ^ 32

/-- The firmware raises SEC_HI when the seconds, `old` before, have wrapped (R386). -/
def State.secHi (s : State) (old : Nat) : State := if s.ptpSec < old then s.addWrap TIM_SEC_HI_SEC_HI 1 else s

/-- The clock advanced by `t` NET ticks of 2.56 ns, each scaled by 1 + ADJ × 2^-48 (R387). -/
def State.netTicks (s : State) (t : Nat) : State :=
  let unit : Nat := 25 * 2 ^ 48
  let f := s.nsFrac + (t * (64 * ((2 : Int) ^ 48 + s.geti64 TIM_ADJ_LO))).toNat
  let n := s.get TIM_NS + f / unit
  let s' : State := ((List.range (n / 2 ^ 32)).foldl (fun (s : State) _ => s.nsWrap) ({ s with nsFrac := f % unit } : State)).set TIM_NS n
  s'.secHi s.ptpSec

/-- PTP nanoseconds of the second now (R386). -/
def State.ptpNs (s : State) : Nat := (s.get TIM_EPOCH_NS + s.get TIM_NS) % 1000000000

/-- PTP time as a stamp holds it: seconds in [63:32], nanoseconds in [31:0] (R427). -/
def State.stamp (s : State) : Nat := s.ptpSec * 2 ^ 32 + s.ptpNs

/-- PTP time in ns, low 32 bits of the seconds. -/
def State.nowNs (s : State) : Int := (s.ptpSec * 1000000000 + s.ptpNs : Nat)

/-- A stamp in ns. -/
def stampNs (t : Nat) : Int := (t / 2 ^ 32 * 1000000000 + t % 2 ^ 32 : Nat)

/-- ns since the snapshot of the last applied image (R413). -/
def State.copyAge (s : State) : Int :=
  match s.twn.twnPress with
  | some p => s.nowNs - stampNs p.time
  | none => 0

/-- Whole hours since this unit was last active (R409). -/
def State.standbyHours (s : State) : Nat := if s.on TWN_STAT_ACTIVE then 0 else (s.clk - s.twn.twnActClk) / (3600 * 800000000)

/-! ### Positions (R56, R71, R80) -/

/-- Position P of tracker `k`, pu. -/
def State.pos (s : State) (k : Nat) : Int := s.geti64 GEK_TRK_POS_LO k

/-- The position on the reference tracker that stamps events (R80). -/
def State.refPos (s : State) : Int := s.pos (s.get GEK_CTL_REF_TRK)

/-- OFFSET in force of line clock `b`, pu. -/
def State.lcOffset (s : State) (b : Nat) : Int := sx 64 (s.getA64 GEK_LC_OFFSET_LO b)

/-- PITCH in force of line clock `b`, unsigned 32.32 pu. -/
def State.lcPitch (s : State) (b : Nat) : Nat := s.getA64 GEK_LC_PITCH_FRAC b

/-- Bar position B = P − OFFSET (section "Line clocks"). -/
def State.barPos (s : State) (b : Nat) : Int := s.pos (s.get GEK_LC_CTL_TRK b) - s.lcOffset b

/-- LINE of line clock `b`. -/
def State.line (s : State) (b : Nat) : Int := s.geti64 GEK_LC_LINE_LO b

/-- COMPARE of line clock `b` in 2^-32 pu: 64.32 fixed point. -/
def State.compare (s : State) (b : Nat) : Int :=
  sx 96 (s.get GEK_LC_CMP_FRAC b + 2 ^ 32 * s.get GEK_LC_CMP_LO b + 2 ^ 64 * s.get GEK_LC_CMP_HI b)

/-- COMPARE of line clock `b` written. -/
def State.setCompare (s : State) (b : Nat) (z : Int) : State :=
  let n := ux 96 z
  ((s.set GEK_LC_CMP_FRAC n b).set GEK_LC_CMP_LO (n / 2 ^ 32) b).set GEK_LC_CMP_HI (n / 2 ^ 64) b

/-! ### Arrays of units -/

/-- Tracker `k`'s own state. -/
def State.tk (s : State) (k : Nat) : Trk := smGet (fun _ => Trk.empty) s.trk k
/-- Tracker `k`'s own state replaced. -/
def State.setTk (s : State) (k : Nat) (x : Trk) : State := { s with trk := smPut (fun _ => Trk.empty) s.trk k x }
/-- Line clock `b`'s own state. -/
def State.lk (s : State) (b : Nat) : Lc := smGet (fun _ => Lc.empty) s.lc b
/-- Line clock `b`'s own state replaced. -/
def State.setLk (s : State) (b : Nat) (x : Lc) : State := { s with lc := smPut (fun _ => Lc.empty) s.lc b x }
/-- Queue `q`'s own state. -/
def State.qu (s : State) (q : Nat) : Queue := smGet (fun _ => Queue.empty) s.queues q
/-- Queue `q`'s own state replaced. -/
def State.setQu (s : State) (q : Nat) (x : Queue) : State := { s with queues := smPut (fun _ => Queue.empty) s.queues q x }

/-! ### Queues and interrupts (R418, R428, R433) -/

/-- Entries of a queue between CI and PI, modulo 2^32 (R418). -/
def State.qUsed (s : State) (q : Nat) : Nat := ((s.get HIF_Q_PI q + 2 ^ 32) - s.get HIF_Q_CI q) % 2 ^ 32

/-- 2^SIZEL (R418). -/
def State.qSize (s : State) (q : Nat) : Nat := 2 ^ s.get HIF_Q_CFG_SIZEL q

/-- A device-to-host queue can be written now: it runs, the link is up and it is not full (R418, R428, R434). -/
def State.qRoom (s : State) (q : Nat) : Bool :=
  s.on HIF_Q_STAT_ACTIVE q && s.on HIF_STAT_LINK && decide (s.qUsed q < s.qSize q)

/-- Vector `v` signals: a masked vector sets its pending bit instead (R433). -/
def State.signal (s : State) (v : Nat) : State :=
  if s.on MSIX_CTRL_MASK v then
    s.set (MSIX_PBA.sh 0) (putBit (s.get MSIX_PBA (v / 32)) (v % 32) true) (v / 32)
  else { s with irqSent := smPut (fun _ => 0) s.irqSent v (smGet (fun _ => 0) s.irqSent v + 1) }

/-- The queue's unsignalled entries are signalled on its vector (R433). -/
def State.qSignal (s : State) (q : Nat) : State :=
  (s.setQu q { s.qu q with unsig := 0 }).signal (s.get HIF_Q_VEC_VEC q)

/-- One entry written into a queue with room: the entry with PHASE, then PI, then the interrupt when COUNT entries have gathered or
nothing gathers or `now` forces it (R418, R433). -/
def State.qWrite (s : State) (q : Nat) (e : Entry) (now : Bool) : State :=
  let pi := s.get HIF_Q_PI q
  let qu := s.qu q
  let e := { e with phase := pi / s.qSize q % 2 == 0 }
  let n := qu.unsig + 1
  let s := (s.setQu q { qu with ring := qu.ring ++ [e], unsig := n }).set HIF_Q_PI (pi + 1) q
  let cnt := s.get HIF_Q_MOD_COUNT q
  let tm := s.get HIF_Q_MOD_TIME q
  s.cond (now || (cnt == 0 && tm == 0) || (cnt != 0 && decide (cnt ≤ n))) (fun s => s.qSignal q)

/-- An entry for a queue whose entries wait when it has no room: it is written behind those that wait, or waits (R428). -/
def State.qSend (s : State) (q : Nat) (e : Entry) : State :=
  if s.qRoom q && (s.qu q).waiting.isEmpty then s.qWrite q e false
  else (s.setQu q { s.qu q with waiting := (s.qu q).waiting ++ [e] }).put HIF_Q_STAT_STALL true q

/-- Entries that wait are written while there is room (R428); `fuel` bounds them by their number. -/
def State.qDrain (s : State) (q : Nat) (fuel : Nat) : State :=
  match fuel with
  | 0 => s
  | n + 1 =>
    match (s.qu q).waiting with
    | [] => s.put HIF_Q_STAT_STALL false q
    | e :: r =>
      if s.qRoom q then ((s.setQu q { s.qu q with waiting := r }).qWrite q e false).qDrain q n else s

/-! ### Events (R12, R45, R46, R427) -/

/-- The queue an event goes to: EVT_ROUTE of its source for its class (R438). -/
def State.evQueue (s : State) (e : Ev) : Nat := 32 + s.get (EVT_ROUTE_QUEUE0.sh (4 * e.cls)) (e.code / 1024)

/-- The EVENT entry (R427): code, class and unit, PTP time, position on the reference tracker, arguments. -/
def State.evEntry (s : State) (e : Ev) (unit : Nat) (args : List Int) : Entry :=
  let p := ux 64 s.refPos
  ⟨2, e.code, e.cls + 256 * unit, 0, s.stamp, false,
    [BitVec.ofNat 32 p, BitVec.ofNat 32 (p / 2 ^ 32)] ++ args.map (BitVec.ofInt 32)⟩

/-- A 64-bit argument as two words, low first (log 10). -/
def w64 (z : Int) : List Int := [(ux 32 z : Int), (ux 32 (z / 2 ^ 32) : Int)]

/-- Arguments followed by a web range. -/
def rangeArgs (l : List Int) (a z : Int) : List Int := l ++ w64 a ++ w64 z

/-- An event written to its queue, or discarded and counted when the queue is full or disabled (R46). -/
def State.evWrite (s : State) (e : Ev) (unit : Nat) (args : List Int) : State :=
  let q := s.evQueue e
  if s.qRoom q then
    let s := s.qWrite q (s.evEntry e unit args) (e.cls == 3)
    s.set EVT_STAT_FULL (putBit (s.get EVT_STAT_FULL) (q - 32) (decide (s.qSize q ≤ s.qUsed q)))
  else
    let s := s.addWrap EVT_LOST_LOST 1 (q - 32)
    s.cond (s.on HIF_Q_CFG_EN q) fun s =>
      (s.setQu q { s.qu q with lost := (s.qu q).lost + 1 }).addSat HIF_Q_STAT_LOST 1 q

/-- An event of class NOTE, WARN or FAULT is raised; it changes no mode (R45). -/
def State.raise (s : State) (e : Ev) (unit : Nat := 255) (args : List Int := []) : State := s.evWrite e unit args

/-- An event raised at most once per `period` SEQ cycles for its unit. -/
def State.raiseLim (s : State) (e : Ev) (unit key period : Nat) (args : List Int := []) : State :=
  let k := e.code * 65536 + key
  let l := smGet (fun _ => 0) s.evLast k
  if l = 0 ∨ l - 1 + period ≤ s.clk then
    { s.evWrite e unit args with evLast := smPut (fun _ => 0) s.evLast k (s.clk + 1) }
  else s

/-- One second in SEQ cycles. -/
def sec1 : Nat := 800000000
/-- 100 ms in SEQ cycles. -/
def ms100 : Nat := 80000000

/-! ### Unit states (R35 to R39, R497) -/

/-- STATE from the two views, in the order of R36. -/
def combineState (run permit : Nat) : Nat :=
  if run == 5 || permit == 5 then 5
  else if permit == 4 then 4
  else if permit == 0 then 0
  else run

/-- The skew of the two views: PERMIT OFF or FENCED and RUNSTATE READY, RUN or STALL (R39). -/
def viewSkew (run permit : Nat) : Bool := (permit == 0 || permit == 4) && (run == 1 || run == 2 || run == 3)

/-- The two views of unit `n` made `run` and `permit`: STATE follows them (R36), a change of STATE counts (R35), a change to STALL,
FENCED or FAILED records its cause (R35, R497), and skew that begins or ends is shown and reported (R39). -/
def State.setViews (s : State) (n run permit cause : Nat) : State :=
  let old := s.get GLB_UST_STATE n
  let new := combineState run permit
  let sk0 := s.on GLB_UST_SKEW n
  let sk := viewSkew run permit
  let s := ((s.set GLB_UST_RUNSTATE run n).set GLB_UST_PERMIT permit n).set GLB_UST_STATE new n
  let s := s.cond (new != old) fun s =>
    (s.addWrap GLB_UST_CHANGES 1 n).cond (new == 3 || new == 4 || new == 5) fun s =>
      s.set GLB_UST_CAUSE (if new == 4 then 0xFE else cause) n
  let s := (s.put GLB_UST_SKEW sk n).set GLB_SKEW_MAP (putBit (s.get GLB_SKEW_MAP (n / 32)) (n % 32) sk) (n / 32)
  if sk && !sk0 then s.raise EV_STATE_SKEW n
  else if !sk && sk0 then s.raise EV_STATE_SKEW_CLEAR n
  else s

/-- Unit `n` is fenced and the data plane has stopped it (R40). -/
def State.stopped (s : State) (n : Nat) : Bool := s.get GLB_UST_PERMIT n == 4 && s.get GLB_UST_RUNSTATE n == 0

/-- The data plane sets the running view of unit `n`; FAILED stays until a start, and FAILED in either view makes both FAILED (R38); a unit
stopped by a fence stays OFF (R40). -/
def State.setRun (s : State) (n run : Nat) (cause : Nat := 0xFF) : State :=
  if s.get GLB_UST_RUNSTATE n = 5 then s
  else if s.stopped n && run != 5 then s
  else if run = 5 then s.setViews n 5 5 cause
  else s.setViews n run (s.get GLB_UST_PERMIT n) cause

/-- The management plane sets the permission view of unit `n` (R38). -/
def State.setPermit (s : State) (n permit : Nat) (cause : Nat := 0xFF) : State :=
  if s.get GLB_UST_PERMIT n = 5 then s
  else if permit = 5 then s.setViews n 5 5 cause
  else s.setViews n (s.get GLB_UST_RUNSTATE n) permit cause

/-- A unit is stopped by a fence or not permitted. -/
def State.permitted (s : State) (n : Nat) : Bool := s.get GLB_UST_PERMIT n == 1

/-! ### Modes as read by every block (R32, R130, R498) -/

/-- The press mode, GLB_MODE_STAT.MODE. -/
def State.mode (s : State) : Nat := s.get GLB_MODE_STAT_MODE

/-- The mode entry of bar `b` in SEQ_BAR_MODE0 or SEQ_BAR_MODE1 (R130). -/
def State.barMode (s : State) (b : Nat) : Nat :=
  if b < 8 then s.get (SEQ_BAR_MODE0_MODE0.sh (4 * b)) else s.get (SEQ_BAR_MODE1_MODE0.sh (4 * (b - 8)))

/-- The press is in PRINT while the entry of any bar shows PRINT (R498). -/
def State.printing (s : State) : Bool := (List.range 16).any fun b => s.barMode b == 3

/-! ### Bars in STALL (R37) -/

/-- The running view of bar `b` outside STALL: OFF with no enabled port, RUN while its mode entry is PRINT or SERVICE, else READY. -/
def State.barBase (s : State) (b : Nat) : Nat :=
  if s.get HPL_BAR_STAT_NPORTS b = 0 then 0
  else if s.barMode b = 3 ∨ s.barMode b = 6 then 2 else 1

/-- The causes that hold a unit in STALL. -/
def State.stallCauses (s : State) (n : Nat) : List Nat := smGet (fun _ => []) s.causes n

/-- A cause that holds unit `n` in STALL begins: the first makes the unit STALL with that CAUSE, a further one changes nothing (R37). -/
def State.stall (s : State) (n cause : Nat) : State :=
  let c := s.stallCauses n
  if c.contains cause then s
  else
    let s := { s with causes := smPut (fun _ => []) s.causes n (c ++ [cause]) }
    if s.get GLB_UST_RUNSTATE n = 3 then s else s.setRun n 3 cause

/-- A cause ends: with the last, the unit's running view becomes `base` (R37). -/
def State.unstall (s : State) (n cause base : Nat) : State :=
  let c := s.stallCauses n
  if c.contains cause then
    let r := c.filter (· != cause)
    let s := { s with causes := smPut (fun _ => []) s.causes n r }
    if r.isEmpty then s.setRun n base else s
  else s

/-- A STALL cause of a bar ends. -/
def State.barRun (s : State) (b cause : Nat) : State := s.unstall b cause (s.barBase b)

/-! ### Engine latches (R99, R100) -/

/-- Latch `n` of engine `e` is set; a second occurrence before it is cleared is remembered for F2 (R100). -/
def State.latch (s : State) (e n : Nat) : State :=
  let f : Fld := if n < 32 then ENG_EVLATCH0 else if n < 64 then ENG_EVLATCH1 else ENG_EVLATCH2
  let w := s.get f e
  if bitN w (n % 32) then
    let m := smGet (fun _ => 0) s.latchMore e
    { s with latchMore := smPut (fun _ => 0) s.latchMore e (putBit m n true) }
  else s.set f (putBit w (n % 32) true) e

/-- A latch is set in every engine (R99). -/
def State.latchAll (s : State) (n : Nat) : State := s.each (List.range 28) fun e s => s.latch e n

/-! ### The reject list (R136, R137) -/

/-- One entry of the reject list: slot k mod 64, then SEQ_REJ_WR = k + 1 (R137). -/
def State.rejWrite (s : State) (cause bar trk : Nat) (start : Int) (len : Nat) : State :=
  let k := s.get SEQ_REJ_WR
  let i := k % 64
  let s := (s.set64 SEQ_REJ_START_LO start i).set SEQ_REJ_LEN len i
  let s := s.set SEQ_REJ_INFO (cause + 256 * bar + 4096 * trk + 65536 * (k % 65536)) i
  s.set SEQ_REJ_WR (k + 1)

/-- A range of any length entered, split into entries of at most 2^32 − 1 pu (R137). -/
def State.rejSplit (s : State) (cause bar trk : Nat) (start : Int) (len fuel : Nat) : State :=
  match fuel with
  | 0 => s
  | n + 1 =>
    if len = 0 then s
    else if len ≤ 2 ^ 32 - 1 then s.rejWrite cause bar trk start len
    else (s.rejWrite cause bar trk start (2 ^ 32 - 1)).rejSplit cause bar trk (start + (2 ^ 32 - 1)) (len - (2 ^ 32 - 1)) n

/-- A range `[start, stop)` entered when the cause's bit of SEQ_REJ_CTL.MASK is set (R136). -/
def State.reject (s : State) (cause bar trk : Nat) (start stop : Int) : State :=
  if bitN (s.get SEQ_REJ_CTL_MASK) cause then
    s.rejSplit cause bar trk start (stop - start).toNat ((stop - start).toNat / (2 ^ 32 - 1) + 1)
  else s

/-- The web coordinate of line `x` of bar `b`: the bar position at which it hits, from COMPARE and PITCH in force (R71, R136, R181). -/
def State.linePos (s : State) (b : Nat) (x : Int) : Int :=
  (s.compare b + (x - s.line b) * (s.lcPitch b : Int)) / 2 ^ 32

/-- Lines `[x, y)` of bar `b` gathered for the reject list under a cause; the run before them is written when they do not continue it,
and the gathered run when it reaches 256 lines (R137). -/
def State.rejLines (s : State) (cause b : Nat) (x y : Int) : State :=
  if bitN (s.get SEQ_REJ_CTL_MASK) cause && decide (x < y) then
    match smGet (fun _ => none) s.gather (16 * cause + b) with
    | none => { s with gather := smPut (fun _ => none) s.gather (16 * cause + b) (some (s.linePos b x, s.linePos b y, y, (y - x).toNat)) }
    | some (a, z, y0, n) =>
      if x = y0 then
        { s with gather := smPut (fun _ => none) s.gather (16 * cause + b) (some (a, s.linePos b y, y, n + (y - x).toNat)) }
      else
        let s := s.rejSplit cause b (s.get GEK_LC_CTL_TRK b) a (z - a).toNat ((z - a).toNat / (2 ^ 32 - 1) + 1)
        { s with gather := smPut (fun _ => none) s.gather (16 * cause + b) (some (s.linePos b x, s.linePos b y, y, (y - x).toNat)) }
  else s

/-! ### Submissions (R420, R425) -/

/-- The 32-bit field of an entry at byte offset `o`, from 0x10 on (R420). -/
def subF32 (x : Sub) (o : Nat) : Nat := (x.body.getD ((o - 16) / 4) 0).toNat

/-- The 64-bit field at byte offset `o`. -/
def subF64 (x : Sub) (o : Nat) : Nat := subF32 x o + 2 ^ 32 * subF32 x (o + 4)

/-- The oldest submission fetched from queue `q`, and the state without it. -/
def State.takeSub (s : State) (q : Nat) : Option (Sub × State) :=
  match (s.qu q).fetched with
  | [] => none
  | x :: r => some (x, s.setQu q { s.qu q with fetched := r })

/-! ### What the host may reach (R451, R452) -/

/-- Outside GLB the device hears nothing: in BOOT, and in SAFE after a start that failed with CLOCK, NO_IMAGE or POWER (R451, R452). -/
def State.deaf (s : State) : Bool :=
  s.mgt.start.isSome || s.mgt.thermTrip || s.mode == 0 ||
    (s.mode == 7 && !(s.on GLB_START_STAT_DONE) && [1, 2, 3].contains (s.get GLB_START_STAT_RESULT))

/-- A host access outside GLB acts only while the device hears it (R451). -/
def State.heard (s : State) (r : Res) : Res := if s.deaf then .next s else r

end Sys2Proof.Machine
end

