-- ==== Sys2Proof/Machine/HplOps.lean ====
section
/-! DEFINITION. Shared operations of the head ports: the words of the Wengil link (R257 to R260), unit states of ports and bars
(R256), and lines retired unsent (R262). -/

namespace Sys2Proof.Machine

/-- Port engine `p`'s own state. -/
def State.hp (s : State) (p : Nat) : HPort := smGet (fun _ => HPort.empty) s.hport p
/-- Port engine `p`'s own state replaced. -/
def State.setHp (s : State) (p : Nat) (x : HPort) : State := { s with hport := smPut (fun _ => HPort.empty) s.hport p x }
/-- Bar `b`'s fire record. -/
def State.hb (s : State) (b : Nat) : HBar := smGet (fun _ => HBar.empty) s.hbar b
/-- Bar `b`'s fire record replaced. -/
def State.setHb (s : State) (b : Nat) (x : HBar) : State := { s with hbar := smPut (fun _ => HBar.empty) s.hbar b x }

/-- The unit-state entry of port `p` (R35). -/
def portUnit (p : Nat) : Nat := 16 + p

/-- One bit through a CRC register of width `w`, polynomial `poly`, most significant bit first. -/
def crcBitMsb (w poly reg : Nat) (b : Bool) : Nat :=
  let top := bitN reg (w - 1) != b
  let r := reg * 2 % 2 ^ w
  if top then r ^^^ poly else r

/-- CRC-8 of R258: x^8 + x^2 + x + 1, start 0, bytes in order, each most significant bit first. -/
def crc8 (bytes : List Nat) : Nat :=
  bytes.foldl (fun r b => (List.range 8).foldl (fun r i => crcBitMsb 8 7 r (bitN b (7 - i))) r) 0

/-- One byte through the reflected CRC-32 of IEEE 802.3. -/
def crc32Byte (reg b : Nat) : Nat :=
  (List.range 8).foldl (fun r _ => if r % 2 = 1 then (r / 2) ^^^ 0xEDB88320 else r / 2) (reg ^^^ (b % 256))

/-- CRC-32 with the IEEE 802.3 polynomial (R126, R259, R430). -/
def crc32 (bytes : List Nat) : Nat := (bytes.foldl crc32Byte 0xFFFFFFFF) ^^^ 0xFFFFFFFF

/-- The `n` low bytes of a number, least significant first. -/
def bytesOf (n w : Nat) : List Nat := (List.range n).map fun i => w / 256 ^ i % 256

/-- A control word with CRC-8 in [63:56] over bytes 0 to 6 (R258). -/
def crcWord (body : Nat) : TxWord :=
  ⟨true, BitVec.ofNat 64 (body % 2 ^ 56 + crc8 (bytesOf 7 body) * 2 ^ 56)⟩

/-- The STROBE word (R258): LINE[15:0], DELAY, FLAGS [0] DISCARD [1] COPY. -/
def strobeWord (line : Int) (delay : Nat) (discard copy : Bool) : TxWord :=
  crcWord (0x55 + ux 16 line * 2 ^ 8 + delay % 2 ^ 16 * 2 ^ 24 + (b2n discard + 2 * b2n copy) * 2 ^ 40)

/-- The TICKLE word (R258). -/
def tickleWord (code : Nat) : TxWord := crcWord (0x66 + code % 256 * 2 ^ 8)

/-- A frame: SOF, the data words, EOF with NWORDS and CRC-32 over SOF bits [63:8] and the data words (R259). -/
def frameWords (kind flags spec : Nat) (data : List Dword) : List TxWord :=
  let sof := 0x33 + kind % 256 * 2 ^ 8 + flags % 256 * 2 ^ 16 + spec % 2 ^ 40 * 2 ^ 24
  let crc := crc32 (bytesOf 7 (sof / 256) ++ data.flatMap fun d => bytesOf 8 d.toNat)
  [⟨true, BitVec.ofNat 64 sof⟩] ++ data.map (fun d => ⟨false, d⟩) ++
    [⟨true, BitVec.ofNat 64 (0x87 + data.length % 2 ^ 16 * 2 ^ 16 + crc * 2 ^ 32)⟩]

/-- Words put on port `p`'s link. -/
def State.tx (s : State) (p : Nat) (w : List TxWord) : State := s.setHp p { s.hp p with out := w }

/-- The link of port `p` is UP (R267). -/
def State.linkUp (s : State) (p : Nat) : Bool := s.get HPL_PORT_STAT_LINK p == 4

/-- Port `p` is enabled for bar `b` (R255). -/
def State.portOf (s : State) (p b : Nat) : Bool := s.on HPL_PORT_CFG_EN p && s.get HPL_PORT_CFG_BAR p == b

/-- The enabled ports of bar `b`, as a search of every port finds them. -/
def State.portsFound (s : State) (b : Nat) : List Nat := (List.range 128).filter fun p => s.portOf p b

/-- The enabled ports of bar `b`: none while HPL_BAR_STAT.NPORTS is 0, which PORT_CFG_WRITE keeps at their number. -/
def State.portsOf (s : State) (b : Nat) : List Nat :=
  if s.get HPL_BAR_STAT_NPORTS b = 0 then [] else s.portsFound b

/-- The running view of port `p` outside STALL (R256). -/
def State.portBase (s : State) (p : Nat) : Nat :=
  if !(s.on HPL_PORT_CFG_EN p && s.on TIL_PORT_CFG_EN p) then 0
  else
    let m := s.barMode (s.get HPL_PORT_CFG_BAR p)
    if m = 3 ∨ m = 6 then 2 else 1

/-- Bar `b` is STALL with CAUSE 0x20 while an enabled port of it is STALL (R256); outside STALL its running view follows its mode. -/
def State.refreshBar (s : State) (b : Nat) : State :=
  let ps := s.portsOf b
  let st := ps.any fun p => s.get GLB_UST_RUNSTATE (portUnit p) == 3
  let s := s.put HPL_BAR_STAT_STALL st b
  let s := if st then s.stall b 0x20 else s.barRun b 0x20
  if (s.stallCauses b).isEmpty then s.setRun b (s.barBase b) else s

/-- The running view of port `p` brought up to date with its link, job and mode (R256), and its bar's with it. -/
def State.refreshPort (s : State) (p : Nat) : State :=
  let n := portUnit p
  let base := s.portBase p
  let s :=
    if base = 0 then ({ s with causes := smPut (fun _ => []) s.causes n [] } : State).setRun n 0
    else
      let s := if s.linkUp p then s.unstall n 1 base else s.stall n 1
      if (s.stallCauses n).isEmpty then s.setRun n base else s
  s.refreshBar (s.get HPL_PORT_CFG_BAR p)

/-- Every port and bar brought up to date after a change of mode. -/
def State.refreshBars (s : State) : State :=
  let s := s.each (List.range 128) fun p s => s.cond (s.on HPL_PORT_CFG_EN p) fun s => s.refreshPort p
  s.each (List.range 16) fun b s => s.refreshBar b

/-- Line `x` retires unsent at port `p`: a line already sent is dropped with a DISCARD STROBE, for another nothing is sent (R262). -/
def State.retireAt (s : State) (p : Nat) (x : Int) : State :=
  let h := s.hp p
  if h.sent.any (fun l => l.line == x) then
    s.setHp p { h with sent := h.sent.filter (fun l => l.line != x), disc := x :: h.disc.take 255, out := [strobeWord x 0 true false] }
  else s

/-- Line `x` of bar `b` retires unsent at every port of the bar (R21, R262). -/
def State.retire (s : State) (b : Nat) (x : Int) : State := s.each (s.portsOf b) fun p s => s.retireAt p x

/-- Lines `[x, x + n)` of bar `b` retire unsent. -/
def State.retireLines (s : State) (b : Nat) (x : Int) (n : Nat) : State :=
  s.each (List.range n) fun i s => s.retire b (x + i)

end Sys2Proof.Machine
end

