-- ==== Sys2Proof/Machine/StoreOps.lean ====
section
/-! DEFINITION. Reads and writes of the central store as units see them: the address map (R151), poison (R154, R155) and fenced or
failed sub-channels (R160, R176). -/

namespace Sys2Proof.Machine

/-- Populated sub-channels: 24 or 12 (R148, MEM_CFG.POP). -/
def State.memN (s : State) : Nat := if s.get MEM_CFG_POP = 0 then 24 else 12

/-- The sub-channel of a store address (R151). -/
def State.scOf (s : State) (a : Nat) : Nat := a / 256 % s.memN

/-- The usable capacity in bytes, MEM_CAP (R150). -/
def State.memCap (s : State) : Nat := s.get64 MEM_CAP_LO

/-- A sub-channel that answers requests without access: fenced or failed (R160, R176). -/
def State.scBad (s : State) (n : Nat) : Bool := s.on MEM_SC_STAT_FENCED n || s.on MEM_SC_STAT_FAILED n

/-- A burst that a read returns poisoned: the store is not ready (R452), its sub-channel answers without access (R160, R176), or
it holds the poison code (R154). -/
def State.poisoned (s : State) (burst : Nat) : Bool :=
  !(s.on MEM_STAT_READY) || s.scBad (s.scOf (64 * burst)) || smGet (fun _ => false) s.poison burst

/-- One byte as a unit reads it: 0 in a poisoned burst (R154), a free value beyond the capacity (R496). -/
def State.ldByte (s : State) (a : Nat) : Byte :=
  if s.memCap ≤ a && s.on MEM_STAT_READY then Config.beyondByte a s.fresh
  else if s.poisoned (a / 64) then 0
  else smGet (fun _ => 0) s.store a

/-- `n` bytes from an address, as numbers. -/
def State.ld (s : State) (a n : Nat) : List Nat := (List.range n).map fun i => (s.ldByte (a + i)).toNat

/-- The little-endian number of a list of bytes (R5). -/
def leNum (l : List Nat) : Nat := l.foldr (fun b r => b % 256 + 256 * r) 0

/-- A little-endian number of `n` bytes in the store. -/
def State.ldN (s : State) (a n : Nat) : Nat := leNum (s.ld a n)

/-- The bursts that `n` bytes from an address touch. -/
def bursts (a n : Nat) : List Nat := if n = 0 then [] else (List.range ((a + n - 1) / 64 - a / 64 + 1)).map (· + a / 64)

/-- The poisoned bursts among those that a read of `n` bytes touches. -/
def State.badBursts (s : State) (a n : Nat) : List Nat := (bursts a n).filter fun b => s.poisoned b

/-- A read of `n` bytes meets a poisoned burst. -/
def State.bad (s : State) (a n : Nat) : Bool := !(s.badBursts a n).isEmpty

/-- One request for a burst counted where it is answered poisoned: MEM_SC_FENCED_REQ at a fenced sub-channel (R176), nothing at a
failed one (R160), MEM_SC_UE.POISON_RD for a poison code (R154). -/
def State.sawBurst (s : State) (b : Nat) : State :=
  let n := s.scOf (64 * b)
  if !(s.on MEM_STAT_READY) then s
  else if s.on MEM_SC_STAT_FAILED n then s
  else if s.on MEM_SC_STAT_FENCED n then s.addSat MEM_SC_FENCED_REQ 1 n
  else if smGet (fun _ => false) s.poison b then s.addSat MEM_SC_UE_POISON_RD 1 n
  else s

/-- The counts of a read of `n` bytes. -/
def State.saw (s : State) (a n : Nat) : State := s.each (s.badBursts a n) fun b s => s.sawBurst b

/-- One byte written, where its sub-channel takes requests (R160, R176, R452); beyond the capacity it is discarded (R496). -/
def State.stByte (s : State) (a : Nat) (v : Nat) : State :=
  if s.memCap ≤ a || !(s.on MEM_STAT_READY) || s.scBad (s.scOf a) then s
  else { s with store := smPut (fun _ => 0) s.store a (BitVec.ofNat 8 v) }

/-- Bytes written one after another. -/
def State.stRun (s : State) (a : Nat) (l : List Nat) : State :=
  match l with
  | [] => s
  | v :: r => (s.stByte a v).stRun (a + 1) r

/-- A poison code cleared by a write of all 64 bytes of its burst (R154). -/
def State.unpoison (s : State) (b : Nat) : State :=
  if s.scBad (s.scOf (64 * b)) || !(s.on MEM_STAT_READY) then s
  else { s with poison := smPut (fun _ => false) s.poison b false }

/-- The bursts wholly inside `n` bytes from an address. -/
def fullBursts (a n : Nat) : List Nat := (bursts a n).filter fun b => a ≤ 64 * b && 64 * b + 64 ≤ a + n

/-- A write of bytes: those of a partly written poisoned burst join the zeroed burst and keep the code; a burst written whole loses
it (R154); requests to a fenced sub-channel are counted (R176). -/
def State.st (s : State) (a : Nat) (l : List Nat) : State :=
  let s := s.each ((bursts a l.length).filter fun b => s.on MEM_SC_STAT_FENCED (s.scOf (64 * b))) fun b s => s.sawBurst b
  (s.stRun a l).each (fullBursts a l.length) fun b s => s.unpoison b

/-- A little-endian number of `n` bytes written. -/
def State.stN (s : State) (a n v : Nat) : State := s.st a (bytesOf n v)

/-- The highest value the store address space allows. -/
def State.beyond (s : State) (a n : Nat) : Bool := decide (s.memCap < a + n)

/-- A number of fewer than 2^`w` read as two's complement. -/
def sgn (w n : Nat) : Int := sx w n

end Sys2Proof.Machine
end

