-- ==== Sys2Proof/Machine/HuskCodec.lean ====
section
/-! DEFINITION. The Husk bitstream (07_husk): header, line index, segments, decoding (R212 to R222) and the engine's coding (R224). -/

namespace Sys2Proof.Machine

/-- A surface header (R212). -/
structure HuskHdr where
  good : Bool
  ril : Nat
  w : Nat
  h : Nat
  indexOff : Nat
  dataLen : Nat
  maxLine : Nat
deriving DecidableEq, Repr

/-- The header at a store address, good by its own fields (R220; the caller compares W and H). -/
def State.huskHdr (s : State) (a : Nat) : HuskHdr :=
  let b := s.ld a 64
  let f := fun o n => leNum ((b.drop o).take n)
  let good := f 0 4 == 0x4B535548 && f 4 2 == 1 && f 0x3C 4 == crc32 (b.take 0x3C) && decide (f 6 1 ≤ 8) &&
    f 0x10 8 % 8 == 0 && decide (64 ≤ f 0x10 8) && f 0x20 4 != 0
  ⟨good, f 6 1, f 8 4, f 0x0C 4, f 0x10 8, f 0x18 8, f 0x20 4⟩

/-- The predictor of R217 from left, above and above-left. -/
def huskPred (pred a b c : Nat) : Nat :=
  if pred = 0 then a else if pred = 1 then b else if pred = 2 then (a + b + 1) / 2
  else (clampI 0 255 ((a : Int) + b - c)).toNat

/-- The neighbours of a pixel (R217): `left` and `up` are the pixel at c − 1 (none at the segment's first column) and the pixels
above at c and c − 1. -/
def huskNeighbours (restart : Bool) (left : Option Nat) (upB upC : Nat) : Nat × Nat × Nat :=
  if restart then
    let a := left.getD 128
    (a, a, a)
  else
    match left with
    | some l => (l, upB, upC)
    | none => (upB, upB, upB)

/-- The code number of a pixel (R218). -/
def huskM (x p : Nat) : Nat :=
  let e := (x + 256 - p % 256) % 256
  if e < 128 then 2 * e else 2 * (256 - e) - 1

/-- The pixel of a code number (R218). -/
def huskX (m p : Nat) : Nat :=
  if m % 2 = 0 then (p + m / 2) % 256 else (p + 512 - (m + 1) / 2) % 256

/-- Leading one-bits of a bit string, at most `fuel`. -/
def onesOf (v : Nat) (fuel : Nat) : Nat :=
  match fuel with
  | 0 => 0
  | n + 1 => if v % 2 = 1 then 1 + onesOf (v / 2) n else 0

/-- One coded pixel: code number, bits used (R219). -/
def huskTake (k v : Nat) : Nat × Nat :=
  let q := onesOf v 15
  if q = 15 then (v / 2 ^ 15 % 256, 23)
  else (q * 2 ^ k + v / 2 ^ (q + 1) % 2 ^ k, q + 1 + k)

/-- The code numbers of `n` pixels, `i` done: a 3-bit k before every 16th pixel (R219); the bits used with them. -/
def huskCodes (v k i used n : Nat) : List Nat × Nat :=
  match n with
  | 0 => ([], used)
  | n + 1 =>
    let (v, k, used) := if i % 16 = 0 then (v / 8, v % 8, used + 3) else (v, k, used)
    let (m, u) := huskTake k v
    let (l, t) := huskCodes (v / 2 ^ u) k (i + 1) (used + u) n
    (m :: l, t)

/-- Pixels rebuilt from code numbers (R217, R218); `up` the segment's pixels on the line above. -/
def huskPixels (pred : Nat) (restart : Bool) (ms up : List Nat) (left : Option Nat) (upC : Nat) : List Nat :=
  match ms with
  | [] => []
  | m :: r =>
    let upB := up.headD 0
    let (a, b, c) := huskNeighbours restart left upB upC
    let x := huskX m (huskPred pred a b c)
    x :: huskPixels pred restart r up.tail (some x) upB

/-- One segment from a line's remaining bytes: its `n` pixels, none when it is corrupt (R222), and the bytes it takes. -/
def huskSegment (bytes : List Nat) (n : Nat) (restart : Bool) (up : List Nat) : Option (List Nat) × Nat :=
  let hd := leNum (bytes.take 4)
  let len := hd % 2 ^ 16
  let pred := hd / 2 ^ 16 % 4
  let raw := hd / 2 ^ 18 % 2 == 1
  let size := 4 + (len + 31) / 32 * 4
  let body := (bytes.drop 4).take (size - 4)
  let px := if raw then body.take n else huskPixels pred restart (huskCodes (leNum body) 0 0 0 n).1 up none 0
  let good := decide (hd / 2 ^ 19 % 32 = 0) && decide (size ≤ bytes.length) &&
    (if raw then pred == 0 && len == 8 * n else (huskCodes (leNum body) 0 0 0 n).2 == len) &&
    decide (px.foldl (· + ·) 0 % 256 = hd / 2 ^ 24)
  (if good then some px else none, size)

/-- Pixels of segment `j` of a line of `w` columns (R214). -/
def huskSegW (w j : Nat) : Nat := min w (1024 * (j + 1)) - 1024 * j

/-- The segments of a line from its bytes; `up` the line above per segment, none where that segment is lost (R222, R223). -/
def huskSegs (w : Nat) (restart : Bool) (bad : Nat → Nat → Bool) (bytes : List Nat) (off j : Nat) (up : List (Option (List Nat)))
    (n : Nat) : List (Option (List Nat)) :=
  match n with
  | 0 => []
  | n + 1 =>
    let u := up.headD none
    let (px, size) := huskSegment bytes (huskSegW w j) restart (u.getD [])
    let px := if bad off size || (!restart && u.isNone) then none else px
    px :: huskSegs w restart bad (bytes.drop size) (off + size) (j + 1) up.tail n

/-- The entry of line `y` in the line index (R213): OFFSET and LENGTH. -/
def State.huskEntry (s : State) (base : Nat) (h : HuskHdr) (y : Nat) : Nat × Nat :=
  let e := s.ldN (base + h.indexOff + 8 * y) 8
  (e % 2 ^ 40, e / 2 ^ 40)

/-- Line `y` decoded over the line above (R222). -/
def State.huskLine (s : State) (base : Nat) (h : HuskHdr) (y : Nat) (up : List (Option (List Nat))) : List (Option (List Nat)) :=
  let nseg := (h.w + 1023) / 1024
  let (off, len) := s.huskEntry base h y
  if off % 8 ≠ 0 ∨ h.dataLen < off + len ∨ h.maxLine < len ∨ s.bad (base + h.indexOff + 8 * y) 8 then
    List.replicate nseg none
  else
    huskSegs h.w (y % 2 ^ h.ril == 0) (fun o n => s.bad (base + off + o) n) (s.ld (base + off) len) 0 0 up nseg

/-- Lines from a restart line on: `n` more lines after line `y`. -/
def State.huskFrom (s : State) (base : Nat) (h : HuskHdr) (y : Nat) (up : List (Option (List Nat))) (n : Nat) : List (Option (List Nat)) :=
  match n with
  | 0 => up
  | n + 1 => s.huskFrom base h (y + 1) (s.huskLine base h (y + 1) up) n

/-- The segments of source line `y`, decoded from its restart line (R214, R221). -/
def State.huskRow (s : State) (base : Nat) (h : HuskHdr) (y : Nat) : List (Option (List Nat)) :=
  let y0 := y - y % 2 ^ h.ril
  s.huskFrom base h y0 (s.huskLine base h y0 []) (y - y0)

/-- The pixels of a decoded line; a corrupt segment gives zeros (R223). -/
def huskRowPixels (w : Nat) (segs : List (Option (List Nat))) : List Nat :=
  (List.range segs.length).flatMap fun j => (segs.getD j none).getD (List.replicate (huskSegW w j) 0)

/-! ### Coding (R224) -/

/-- The bits of one pixel under k (R219). -/
def huskCost (k m : Nat) : Nat := if m / 2 ^ k < 15 then m / 2 ^ k + 1 + k else 23

/-- The first of the candidates 0 … n − 1 whose cost is least. -/
def leastOf (cost : Nat → Nat) (n : Nat) : Nat :=
  match n with
  | 0 => 0
  | n + 1 => let b := leastOf cost n; if n ≠ 0 ∧ cost n < cost b then n else b

/-- The coded bits of one pixel: value and length. -/
def huskPut (k m : Nat) : Nat × Nat :=
  let q := m / 2 ^ k
  if q < 15 then ((2 ^ q - 1) + m % 2 ^ k * 2 ^ (q + 1), q + 1 + k) else ((2 ^ 15 - 1) + m * 2 ^ 15, 23)

/-- One group of at most 16 code numbers with the least k (R224): value and length. -/
def huskGroup (ms : List Nat) : Nat × Nat :=
  let k := leastOf (fun k => (ms.map (huskCost k)).foldl (· + ·) 0) 8
  ms.foldl (fun (v, n) m => let (x, l) := huskPut k m; (v + x * 2 ^ n, n + l)) (k, 3)

/-- All groups of a segment; `n` bounds their number. -/
def huskGroups (ms : List Nat) (n : Nat) : Nat × Nat :=
  match n with
  | 0 => (0, 0)
  | n + 1 =>
    if ms.isEmpty then (0, 0)
    else
      let (v, l) := huskGroup (ms.take 16)
      let (v2, l2) := huskGroups (ms.drop 16) n
      (v + v2 * 2 ^ l, l + l2)

/-- The code numbers of a segment under a predictor. -/
def huskMs (pred : Nat) (restart : Bool) (px up : List Nat) (left : Option Nat) (upC : Nat) : List Nat :=
  match px with
  | [] => []
  | x :: r =>
    let upB := up.headD 0
    let (a, b, c) := huskNeighbours restart left upB upC
    huskM x (huskPred pred a b c) :: huskMs pred restart r up.tail (some x) upB

/-- One coded segment: header, payload, pad (R215, R216, R224). -/
def huskSegBytes (restart : Bool) (px up : List Nat) : List Nat :=
  let coded := fun p => huskGroups (huskMs p restart px up none 0) (px.length / 16 + 1)
  let p := leastOf (fun p => (coded p).2) 4
  let (v, l) := coded p
  let chk := px.foldl (· + ·) 0 % 256
  if 8 * px.length ≤ l then
    bytesOf 4 (8 * px.length + 2 ^ 18 + chk * 2 ^ 24) ++ px ++ List.replicate ((4 - px.length % 4) % 4) 0
  else bytesOf 4 (l + p * 2 ^ 16 + chk * 2 ^ 24) ++ bytesOf ((l + 31) / 32 * 4) v

/-- One coded line, its pad to a multiple of 8 with it (R214, R224). -/
def huskLineBytes (restart : Bool) (px up : List Nat) (w j n : Nat) : List Nat :=
  match n with
  | 0 => []
  | n + 1 =>
    let k := huskSegW w j
    huskSegBytes restart (px.take k) (up.take k) ++ huskLineBytes restart (px.drop k) (up.drop k) w (j + 1) n

/-- The line with its pad. -/
def huskLinePadded (restart : Bool) (px up : List Nat) : List Nat :=
  let l := huskLineBytes restart px up px.length 0 ((px.length + 1023) / 1024)
  l ++ List.replicate ((8 - l.length % 8) % 8) 0

end Sys2Proof.Machine
end

