-- ==== Sys2Proof/Machine/JobOps.lean ====
section
/-! DEFINITION. Descriptors in the store: layers (R183), sheaves (R194) and jobs (R430), the checks of R183, R220 and R431, and the
line-rate bounds of R175 and R182. -/

namespace Sys2Proof.Machine

/-- A little-endian field of a byte list. -/
def fieldAt (b : List Nat) (o n : Nat) : Nat := leNum ((b.drop o).take n)

/-- A signed field. -/
def fieldInt (b : List Nat) (o n : Nat) : Int := sx (8 * n) (fieldAt b o n)

/-- Nibble `p` of CHMAP (R183). -/
def chNib (m p : Nat) : Nat := m / 16 ^ p % 16

/-- A layer descriptor from its 96 bytes; none when FORMAT or BLEND makes it bad (R183, R185). -/
def parseLayer (addr : Nat) (b : List Nat) : Option LayerD :=
  let f := fieldAt b 0 4
  let fmt := fieldAt b 4 1
  if 1 < fmt ∨ 3 < bitsN f 5 3 then none
  else some {
    addr, elastic := bitN f 0, coding := bitN f 1, knock := bitN f 2, feed := bitN f 3, tile := bitN f 4,
    blend := bitsN f 5 3, kplanes := bitsN f 8 12, husk := fmt == 1,
    base := fieldAt b 8 8, chStride := fieldAt b 0x10 8, stride := fieldAt b 0x18 4, w := fieldAt b 0x1C 4, h := fieldAt b 0x20 4,
    chmap := fieldAt b 0x24 8, lsx := fieldAt b 0x2C 4, lsy := fieldAt b 0x30 4, x0 := fieldInt b 0x34 4, y0 := fieldInt b 0x38 4,
    nx := fieldAt b 0x40 2, ny := fieldAt b 0x42 2, dx := fieldAt b 0x44 4, dy := fieldAt b 0x48 4,
    ew := fieldAt b 0x4C 4, eh := fieldAt b 0x50 4, inst0 := fieldAt b 0x54 2 }

/-- The channel a layer has for a plane, none for 0xF (R185). -/
def LayerD.chan (d : LayerD) (plane : Nat) : Option Nat := let n := chNib d.chmap plane; if n = 15 then none else some n

/-- The MASK channel where a point of that plane reads it (R186). -/
def LayerD.maskChan (d : LayerD) (plane : Nat) : Option Nat :=
  let n := chNib d.chmap 12
  if d.knock && bitN d.kplanes plane && n != 15 then some n else none

/-- The channels a layer uses at a point of a plane, MASK with them (R186, R203). -/
def LayerD.chans (d : LayerD) (plane : Nat) : List Nat :=
  (match d.chan plane with | some c => [c] | none => []) ++
    (match d.maskChan plane with | some c => [c] | none => [])

/-- The Husk headers of a layer's channels that are bad, by number (R220): by their own fields, or W or H other than the layer's. -/
def State.badHdrs (s : State) (d : LayerD) (chans : List Nat) : Nat :=
  if d.husk && !d.feed then
    (chans.filter fun c =>
      let h := s.huskHdr (d.base + c * d.chStride)
      !h.good || h.w != d.w || h.h != d.h).length
  else 0

/-- Whether the read of a layer descriptor or of a Husk header it names meets a poisoned burst (R197, R424). -/
def State.layerPoison (s : State) (a : Nat) (chans : LayerD → List Nat) : Bool :=
  s.bad a 96 ||
  match parseLayer a (s.ld a 96) with
  | some d => d.husk && !d.feed && (chans d).any fun c => s.bad (d.base + c * d.chStride) 64
  | none => false

/-- A sheaf item from its 16 bytes (R194). -/
def parseItem (b : List Nat) : Item := ⟨fieldAt b 0 1, fieldAt b 1 1, fieldAt b 2 1, fieldAt b 4 4, fieldAt b 8 8⟩

/-- `n` items from an address. -/
def State.items (s : State) (a n : Nat) : List Item := (List.range n).map fun i => parseItem (s.ld (a + 16 * i) 16)

/-- A point's POINTS entry (R430). -/
structure PointSec where
  point : Nat
  tone : Nat
  zone : Nat
  nz : Nat
  ox : Nat
  oy : Nat
  sx : Nat
  sy : Nat
  k : Nat
deriving DecidableEq, Repr

/-- A job descriptor as read (R430): bars as (BAR, PLANE, POINT, SEQ), ports as (PORT, BAR, DEPTH, RING), strips as
(BAR, LEN, S, D, OFF). -/
structure JobD where
  desc : Nat
  trk : Nat
  sheet : Bool
  lead : Nat
  nrep : Nat
  rep : Nat
  org : Int
  r0 : Nat
  rate : Nat
  bars : List (Nat × Nat × Nat × Nat)
  ports : List (Nat × Nat × Nat × Nat)
  layers : List Nat
  points : List PointSec
  feed : Option (Nat × Nat × Nat)
  params : List Nat
  strips : List (Nat × Nat × Nat × Nat × Int)
  regs : List Item
deriving DecidableEq, Repr

/-- The sections of a descriptor's bytes as (TYPE, zero field, contents), none when they do not fill it exactly. -/
def sections (b : List Nat) (n : Nat) : Option (List (Nat × Nat × List Nat)) :=
  match n with
  | 0 => if b.isEmpty then some [] else none
  | n + 1 =>
    let len := fieldAt b 4 4
    let size := 8 + (len + 7) / 8 * 8
    if b.length < size then none
    else
      match sections (b.drop size) n with
      | some r => some ((fieldAt b 0 2, fieldAt b 2 2, (b.drop 8).take len) :: r)
      | none => none

/-- A list of bytes cut into entries of `k` bytes. -/
def entries (k : Nat) (b : List Nat) : List (List Nat) := (List.range (b.length / k)).map fun i => (b.drop (k * i)).take k

/-- The contents of the section of a type, empty when absent. -/
def sect (l : List (Nat × Nat × List Nat)) (t : Nat) : List Nat :=
  match l.find? (fun x => x.1 == t) with
  | some x => x.2.2
  | none => []

/-- A job descriptor from its bytes and sections (R430). -/
def parseJob (desc : Nat) (b : List Nat) (l : List (Nat × Nat × List Nat)) : JobD :=
  { desc, trk := fieldAt b 0x0C 1, sheet := bitN (fieldAt b 0x0D 1) 0, lead := fieldAt b 0x10 4, nrep := fieldAt b 0x14 4,
    rep := fieldAt b 0x18 8, org := fieldInt b 0x20 8, r0 := fieldAt b 0x28 4, rate := fieldAt b 0x2C 4,
    bars := (entries 8 (sect l 1)).map fun e => (fieldAt e 0 1, fieldAt e 1 1, fieldAt e 2 1, fieldAt e 3 1),
    ports := (entries 16 (sect l 2)).map fun e => (fieldAt e 0 1, fieldAt e 1 1, fieldAt e 4 4, fieldAt e 8 8),
    layers := (entries 8 (sect l 3)).map fun e => fieldAt e 0 8,
    points := (entries 64 (sect l 4)).map fun e =>
      ⟨fieldAt e 0 1, fieldAt e 8 8, fieldAt e 0x10 8, fieldAt e 0x18 1, fieldAt e 0x20 4, fieldAt e 0x24 4, fieldAt e 0x28 4,
        fieldAt e 0x2C 4, fieldAt e 0x30 4⟩,
    feed := if (sect l 5).isEmpty then none
      else some (fieldAt (sect l 5) 0 8, fieldAt (sect l 5) 8 2, fieldAt (sect l 5) 10 1),
    params := (entries 4 (sect l 6)).map fun e => fieldAt e 0 4,
    strips := (entries 8 (sect l 7)).map fun e => (fieldAt e 0 1, fieldAt e 1 1, fieldAt e 2 1, fieldAt e 3 1, fieldInt e 4 4),
    regs := (entries 16 (sect l 8)).map parseItem }

/-- No value stands twice in a list. -/
def distinct (l : List Nat) : Bool := decide l.Nodup

/-- Bytes that a layout marks 0 are 0. -/
def zeroAt (b : List Nat) (l : List (Nat × Nat)) : Bool := l.all fun (o, n) => fieldAt b o n == 0

/-- The entry size and greatest number of entries of a section type; LAYERS has exactly 32 and FEED exactly 1 (R431). -/
def sectShape (t : Nat) : Nat × Nat :=
  if t = 1 then (8, 16) else if t = 2 then (16, 128) else if t = 3 then (8, 32) else if t = 4 then (64, 16)
  else if t = 5 then (16, 1) else if t = 6 then (4, 256) else if t = 7 then (8, 16) else (16, 256)

/-- A section has a lawful length (R431). -/
def sectOk (x : Nat × Nat × List Nat) : Bool :=
  let (k, n) := sectShape x.1
  let len := x.2.2.length
  x.2.1 == 0 && decide (1 ≤ x.1) && decide (x.1 ≤ 8) && len % k == 0 && decide (len / k ≤ n) &&
    (x.1 != 3 || len == 256) && (x.1 != 5 || len == 16)

/-- Every byte marked 0 in the entries of a section is 0 (R431). -/
def sectZeros (x : Nat × Nat × List Nat) : Bool :=
  let e := entries (sectShape x.1).1 x.2.2
  if x.1 = 1 then e.all (zeroAt · [(4, 4)])
  else if x.1 = 2 then e.all (zeroAt · [(2, 2)])
  else if x.1 = 4 then e.all (zeroAt · [(1, 7), (0x19, 7), (0x34, 12)])
  else if x.1 = 5 then e.all (zeroAt · [(11, 5)])
  else if x.1 = 8 then e.all (zeroAt · [(3, 1)])
  else true

/-- Check 1 of R431 on the bytes of a descriptor; answers the job when it holds. -/
def checkJob (desc : Nat) (b : List Nat) : Option JobD :=
  let hdr := b.take 64
  match sections (b.drop 64) (fieldAt hdr 6 2) with
  | none => none
  | some l =>
    let j := parseJob desc b l
    let ok :=
      fieldAt hdr 0 4 == 0x31424F4A && fieldAt hdr 4 2 == 1 && fieldAt hdr 8 4 == b.length &&
      fieldAt hdr 0x3C 4 == crc32 (b.take 0x3C ++ [0, 0, 0, 0] ++ b.drop 64) &&
      zeroAt hdr [(0x0E, 2), (0x30, 12)] && decide (fieldAt hdr 0x0D 1 < 2) &&
      l.all sectOk && l.all sectZeros && distinct (l.map (·.1)) &&
      decide (256 ≤ j.lead) && decide (j.lead ≤ 16128) && !(j.nrep == 0 && j.sheet && j.ports.isEmpty) &&
      (!j.sheet || j.rep == 0) && decide (j.trk ≤ 3) &&
      j.bars.all (fun (b, p, c, q) => decide (b ≤ 15) && decide (p ≤ 11) && decide (c ≤ 15) && decide (q ≤ 15)) &&
      distinct (j.bars.map (·.1)) && distinct (j.bars.map (·.2.2.1)) && distinct (j.ports.map (·.1)) &&
      distinct (j.points.map (·.point)) && distinct (j.strips.map (·.1)) &&
      j.ports.all (fun p => (j.bars.map (·.1)).contains p.2.1) && j.strips.all (fun p => (j.bars.map (·.1)).contains p.1) &&
      j.points.all (fun p => (j.bars.map (·.2.2.1)).contains p.point) && j.ports.all (fun p => decide (p.1 ≤ 127))
    if ok then some j else none

/-- The bytes of the descriptor at an address: as many as its SIZE says, at least the header. -/
def State.jobBytes (s : State) (desc : Nat) : List Nat := s.ld desc (max 64 (s.ldN (desc + 8) 4))

/-- The job whose descriptor stands at an address (R430), none where the checks of R431 fail. -/
def State.jobAt (s : State) (desc : Nat) : Option JobD := checkJob desc (s.jobBytes desc)

/-- The slots of HIF_JOB that hold a job. -/
def State.jobSlots (s : State) : List Nat := (List.range 8).filter fun j => s.on HIF_JOB_STAT_VALID j

/-- The slot of the job loaded from an address (R431). -/
def State.jobSlot (s : State) (desc : Nat) : Option Nat := s.jobSlots.find? fun j => s.get64 HIF_JOB_DESC_LO j == desc

/-- The start job: the queued job of R27, R431. -/
def State.startJob (s : State) : Option JobD :=
  match s.jobSlots.find? fun j => s.on HIF_JOB_STAT_START j with
  | some j => s.jobAt (s.get64 HIF_JOB_DESC_LO j)
  | none => none

/-- The plane of a point in a job, and the bar it serves (R430). -/
def JobD.planeOf (j : JobD) (c : Nat) : Option Nat := (j.bars.find? fun b => b.2.2.1 == c).map (·.2.1)

/-- The points a job names. -/
def JobD.cps (j : JobD) : List Nat := j.bars.map (·.2.2.1)

/-- Most columns of a point: every column of the plane, or every second one from CPHASE (R179). -/
def State.width (s : State) (plane : Nat) : Nat := smGet Config.printedWidth s.pwidth plane

/-- The columns a point composes, in order (R179). -/
def State.columns (s : State) (b plane : Nat) : List Nat :=
  let w := s.width plane
  if s.on CMP_CP_CTL_CSTEP b then
    let ph := s.get CMP_CP_CTL_CPHASE b
    (List.range ((w + 1 - ph) / 2)).map fun i => 2 * i + ph
  else List.range w

/-- The layers a job makes active, read from the store. -/
def State.jobLayers (s : State) (j : JobD) : List LayerD :=
  j.layers.filterMap fun a => if a = 0 then none else parseLayer a (s.ld a 96)

/-- Ceiling of a quotient; 0 for a divisor of 0. -/
def cdiv (a b : Nat) : Nat := if b = 0 then 0 else (a + b - 1) / b

/-- The bytes of the largest source line of a channel, whole bursts (R175). -/
def State.srcLine (s : State) (d : LayerD) (ch : Nat) : Nat :=
  cdiv (if d.husk && !d.feed then (s.huskHdr (d.base + ch * d.chStride)).maxLine else d.w) 64 * 64

/-- The along-web factor ceil(LSY × SY) of a layer at a point (R175). -/
def alongFactor (j : JobD) (d : LayerD) (c : Nat) : Nat :=
  let sy := match j.points.find? (fun p => p.point == c) with | some p => p.sy | none => 2 ^ 30
  if d.elastic then cdiv (d.lsy * sy) (2 ^ 60) else cdiv d.lsy (2 ^ 30)

/-- The greatest along-web factor of a layer over the points where it has a channel (R175). -/
def layerFactor (j : JobD) (d : LayerD) : Nat :=
  ((j.bars.filter fun b => (d.chan b.2.1).isSome).map fun b => alongFactor j d b.2.2.1).foldl max 0

/-- A of R175, bytes per line. -/
def State.jobA (s : State) (j : JobD) : Nat :=
  ((s.jobLayers j).map fun d =>
    ((List.range 12).filterMap fun p => if j.bars.any (fun b => b.2.1 == p) then d.chan p else none).foldl
      (fun t ch => t + s.srcLine d ch * layerFactor j d) 0).foldl (· + ·) 0

/-- Slot bytes of a port of `n` nozzles (R249). -/
def slotBytes (n : Nat) : Nat := cdiv (cdiv n 21) 8 * 64

/-- G of R175, bytes per line. -/
def State.jobG (s : State) (j : JobD) : Nat :=
  (j.ports.map fun p => slotBytes (s.get TIL_PORT_CFG_NNOZ p.1) * 2).foldl (· + ·) 0

/-- f_max of R175 in Hz. -/
def State.fMax (s : State) (j : JobD) : Nat :=
  let ag := s.jobA j + s.jobG j
  if ag = 0 then 120000 else min 120000 ((s.get MEM_PLAN_BW_W - s.get MEM_FIXED_BW_F) * 100000000 / ag)

/-- C_b of R182. -/
def State.cmpC (s : State) (j : JobD) (c plane : Nat) : Nat :=
  64 + cdiv (s.columns c plane).length 16 + 32 * ((s.jobLayers j).filter fun d => !(d.chans plane).isEmpty).length

/-- H_b of R182. -/
def State.cmpH (s : State) (j : JobD) (c plane : Nat) : Nat :=
  ((s.jobLayers j).map fun d =>
    if d.husk && !d.feed then (d.chans plane).length * (cdiv d.w 16 * alongFactor j d c) else 0).foldl (· + ·) 0

/-- The cycles a stream needs per line: the sum over an interleaved pair's points, the larger of a spare pair's (R182). -/
def State.streamNeed (s : State) (j : JobD) (ps : Nat) : Nat :=
  let cs := j.bars.filter fun b => s.get CMP_CP_CTL_PS b.2.2.1 == ps
  let need := fun (b : Nat × Nat × Nat × Nat) => max (s.cmpC j b.2.2.1 b.2.1) (s.cmpH j b.2.2.1 b.2.1)
  if cs.any fun b => s.on CMP_CP_CTL_CSTEP b.2.2.1 then (cs.map need).foldl (· + ·) 0 else (cs.map need).foldl max 0

/-- f_cmp of R182 in Hz. -/
def State.fCmp (s : State) (j : JobD) : Nat :=
  let n := ((List.range 12).map (s.streamNeed j)).foldl max 0
  if n = 0 then 2 ^ 32 - 1 else 1000000000 / n

end Sys2Proof.Machine
end

