-- ==== Sys2Proof/Machine/EngOps.lean ====
section
/-! DEFINITION. Shared operations of the engines (03_ulran): registers (R83), states (R118), traps (R115, R116, R499), issue and
completion of an instruction, waits, halting. -/

namespace Sys2Proof.Machine

/-- Engine `e`'s own state. -/
def State.ex (s : State) (e : Nat) : EngX := smGet (fun _ => EngX.empty) s.eng e
/-- Engine `e`'s own state replaced. -/
def State.setEx (s : State) (e : Nat) (x : EngX) : State := { s with eng := smPut (fun _ => EngX.empty) s.eng e x }

/-- The engine runs the ULRAN-V profile (R82). -/
def isV (e : Nat) : Bool := decide (16 ≤ e)

/-- Bytes of data memory (R82). -/
def dataSize (e : Nat) : Nat := if isV e then 262144 else 32768

/-- The unit-state entry of an engine (R35). -/
def engUnit (e : Nat) : Nat := 0xB8 + e

/-- General register `n`; G0 reads 0 (R83). -/
def State.g (s : State) (e n : Nat) : Word := if n = 0 then 0 else s.rd (ENG_G.addr e n)

/-- General register `n` written; a write to G0 is discarded (R83). -/
def State.setG (s : State) (e n : Nat) (v : Word) : State := if n = 0 then s else s.wr (ENG_G.addr e n) v

/-- Position register `n`, of which a field's low 3 bits count (R86). -/
def State.pr (s : State) (e n : Nat) : Dword :=
  s.rd (ENG_P_LO.addr e (n % 8) + 4) ++ s.rd (ENG_P_LO.addr e (n % 8))

/-- Position register `n` written. -/
def State.setP (s : State) (e n : Nat) (v : Dword) : State :=
  (s.wr (ENG_P_LO.addr e (n % 8)) (v.setWidth 32)).wr (ENG_P_LO.addr e (n % 8) + 4) ((v >>> 32).setWidth 32)

/-- Flag Fn. -/
def State.flag (s : State) (e n : Nat) : Bool := bitN (s.get ENG_FLAGS e) n

/-- Flag Fn written. -/
def State.setFlag (s : State) (e n : Nat) (b : Bool) : State := s.set ENG_FLAGS (putBit (s.get ENG_FLAGS e) n b) e

/-- Vector register `v`: lanes 0 to 15, lane 2w and 2w + 1 in word w (R83). -/
def State.vr (s : State) (e v : Nat) : List (BitVec 16) :=
  (List.range 16).map fun i => ((s.rd (ENG_V.addr e v (i / 2))) >>> (16 * (i % 2))).setWidth 16

/-- Vector register `v` written. -/
def State.setV (s : State) (e v : Nat) (l : List (BitVec 16)) : State :=
  s.each (List.range 8) fun w s => s.wr (ENG_V.addr e v w) (l.getD (2 * w + 1) 0 ++ l.getD (2 * w) 0)

/-- The engine's state (R118). -/
def State.engState (s : State) (e : Nat) : Nat := s.get ENG_STAT_STATE e

/-- A sequencer bound to a bar (R123). -/
def State.boundTo (s : State) (b : Nat) : Option Nat :=
  if s.on (SEQ_BIND_VALID0.sh (8 * (b % 4))) (b / 4) then some (s.get (SEQ_BIND_SQ0.sh (8 * (b % 4))) (b / 4)) else none

/-- The bars bound to an engine (R23). -/
def State.barsOf (s : State) (e : Nat) : List Nat := (List.range 16).filter fun b => s.boundTo b == some e

/-- The engine's state made `st`, its running view with it (R118); TRAP is STALL with the trap code (R116). -/
def State.setEng (s : State) (e st : Nat) (cause : Nat := 0) : State :=
  let s := s.set ENG_STAT_STATE st e
  s.setRun (engUnit e) (if st = 0 then 0 else if st = 1 then 1 else if st = 4 then 3 else 2) cause

/-- The wait of an engine ends: WAIT_KIND and WAIT_UNIT read 0. -/
def State.clearWait (s : State) (e : Nat) : State :=
  ((s.setEx e { s.ex e with wait := none }).set ENG_STAT_WAIT_KIND 0 e).set ENG_STAT_WAIT_UNIT 0 e

/-- A bar whose sequencer is trapped: STALL with CAUSE 0x09 (R116); the first unfired line is kept for SEQ_RESUMED. -/
def State.trapBar (s : State) (b : Nat) : State :=
  let h := s.hb b
  let l := s.line b
  let first := if h.fired = some (l - 1) then l else l - 1
  (s.setHb b { h with trapAt := some (h.trapAt.getD first) }).stall b 9

/-- The engine traps with a cause at address `pc` on instruction word `w` (R116); a sequencer's bars go to STALL. -/
def State.trap (s : State) (e cause pc : Nat) (w : Word) : State :=
  let s := ((s.set ENG_TRAP_CAUSE cause e).set ENG_TRAP_TPC pc e).set ENG_TRAP_INSN w.toNat e
  let s := s.clearWait e
  let s := s.setEx e { s.ex e with haltNext := false, dmaErr := false }
  let s := s.raise EV_SEQ_TRAP (engUnit e) [e, cause, pc]
  let s := s.setEng e 4 cause
  if isV e then s else s.each (s.barsOf e) fun b s => s.trapBar b

/-- The engine stops in HALTED. -/
def State.haltEng (s : State) (e : Nat) : State :=
  (s.setEx e { s.ex e with haltNext := false }).setEng e 1

/-- The breakpoint acts when PC reaches ADDR from another instruction (R119). -/
def State.breakAt (s : State) (e frm : Nat) : State :=
  let pc := s.get ENG_PC e
  if s.on ENG_BREAK_EN e && s.get ENG_BREAK_ADDR e == pc / 4 && frm != pc then
    ((s.haltEng e).put ENG_STAT_BREAK true e).raise EV_SEQ_HALT (engUnit e)
  else s

/-- An instruction completes: PC moves on, a step or a halt that waited for the boundary stops the engine, the breakpoint acts. -/
def State.complete (s : State) (e npc : Nat) : State :=
  let pc := s.get ENG_PC e
  let s := s.set ENG_PC npc e
  if (s.ex e).haltNext then s.haltEng e
  else
    let s := if s.engState e = 2 then s else s.setEng e 2
    s.breakAt e pc

/-- What an instruction answers. -/
inductive UOut where
  /-- It completes and the next instruction follows. -/
  | next (s : State)
  /-- It passes control to an address. -/
  | jump (target : Int) (s : State)
  /-- It traps with a cause; nothing it did stands. -/
  | trap (cause : Nat)
  /-- It stops issue. -/
  | wait (w : UWait) (s : State)
  /-- It stops the engine in HALTED. -/
  | stop (s : State)
  /-- It cannot issue yet, and issues again later. -/
  | stall

/-- Control leaves an instruction at `pc` for the next one: past 0xFFFC it traps with CODE_RANGE at issue (R94). -/
def State.follow (s0 s : State) (e pc : Nat) (w : Word) : State :=
  if pc = 0xFFFC then s0.trap e 5 pc w else s.complete e (pc + 4)

/-- The outcome of an instruction at `pc` put into effect (R94, R98, R499). -/
def State.settle (s0 : State) (e pc : Nat) (w : Word) (o : UOut) : State :=
  match o with
  | .next s => s0.follow s e pc w
  | .jump t s => if t < 0 ∨ 0x10000 ≤ t then s0.trap e 5 pc w else s.complete e t.toNat
  | .trap c => s0.trap e (if pc = 0xFFFC ∧ c = 8 then 5 else c) pc w
  | .wait u s =>
    if pc = 0xFFFC then s0.trap e 5 pc w
    else ((s.setEx e { s.ex e with wait := some u }).set ENG_STAT_WAIT_KIND u.kind e).set ENG_STAT_WAIT_UNIT u.unit e |>.setEng e 3
  | .stall => s0
  | .stop s =>
    if pc = 0xFFFC then s0.trap e 5 pc w
    else ((s.set ENG_PC (pc + 4) e).haltEng e).raise EV_SEQ_HALT (engUnit e)

/-- An engine issues the instruction word `w`, whose meaning is `op`, at its PC; only an engine in RUN issues (R118). A DMA error that
waits traps here instead (R113). -/
def State.issue (s : State) (e : Nat) (w : Word) (op : State → UOut) : State :=
  if s.engState e = 2 then
    let pc := s.get ENG_PC e
    if (s.ex e).dmaErr then s.trap e 9 pc w else s.settle e pc w (op s)
  else s

/-- A wait ends and control passes to the next instruction (R103). -/
def State.endWait (s : State) (e : Nat) : State := (s.clearWait e).complete e (s.get ENG_PC e + 4)

/-- HALT from the host or entry to SAFE (R117, R119): a wait is abandoned with PC at the waiting instruction; a stalled SEND or SHEAF
finishes first. -/
def State.stopEng (s : State) (e : Nat) : State :=
  if s.engState e = 3 then
    match (s.ex e).wait with
    | some w => if w.kind = 5 ∨ w.kind = 6 then s.setEx e { s.ex e with haltNext := true } else (s.clearWait e).haltEng e
    | none => s.haltEng e
  else s.haltEng e

/-- Entry to SAFE: every engine in RUN or WAIT halts with SAFE_HALT set (R117). -/
def State.safeEngines (s : State) : State :=
  s.each (List.range 28) fun e s =>
    if s.engState e = 2 ∨ s.engState e = 3 then (s.stopEng e).put ENG_STAT_SAFE_HALT true e else s

/-- The code word at a byte address of an engine. -/
def State.code (s : State) (e a : Nat) : Word := smGet (fun _ => 0) s.engCode (16384 * e + a / 4)

/-- A code word written. -/
def State.setCode (s : State) (e a : Nat) (v : Word) : State :=
  { s with engCode := smPut (fun _ => 0) s.engCode (16384 * e + a / 4) v }

/-- A byte of data memory. -/
def State.dmem (s : State) (e a : Nat) : Byte := smGet (fun _ => 0) s.engData (262144 * e + a)

/-- A byte of data memory written. -/
def State.setDmem (s : State) (e a : Nat) (v : Byte) : State :=
  { s with engData := smPut (fun _ => 0) s.engData (262144 * e + a) v }

/-- A little-endian number of `n` bytes of data memory (R84). -/
def State.dld (s : State) (e a n : Nat) : Nat := leNum ((List.range n).map fun i => (s.dmem e (a + i)).toNat)

/-- A little-endian number of `n` bytes of data memory written. -/
def State.dst (s : State) (e a n v : Nat) : State :=
  s.each (List.range n) fun i s => s.setDmem e (a + i) (BitVec.ofNat 8 (v / 256 ^ i))

/-- Code memory takes a write: the engine stands, or the address lies in the open window (R121). -/
def State.codeOpen (s : State) (e a : Nat) : Bool :=
  let st := s.engState e
  st == 0 || st == 1 || st == 4 ||
    (let b := s.get ENG_CODE_OPEN_BASE e * 32
     decide (b ≤ a) && decide (a < b + s.get ENG_CODE_OPEN_SIZE e * 32))

end Sys2Proof.Machine
end

