-- ==== Sys2Proof/Machine/Operands.lean ====
section
/-! DEFINITION. The four instruction formats of the engines (R86): words from their fields, and fields from a word. -/

namespace Sys2Proof.Machine

/-- A word of format A: OP, RD, RA, RB, SUB (R86). -/
def encA (op rd ra rb sub : Nat) : Word := BitVec.ofNat 32 (op * 2 ^ 26 + rd * 2 ^ 21 + ra * 2 ^ 16 + rb * 2 ^ 11 + sub)

/-- A word of format B: OP, RD, RA, IMM16 (R86). -/
def encB (op rd ra imm : Nat) : Word := BitVec.ofNat 32 (op * 2 ^ 26 + rd * 2 ^ 21 + ra * 2 ^ 16 + imm)

/-- A word of format C: OP, COND, FLAG, OFF21 (R86). -/
def encC (op c f off : Nat) : Word := BitVec.ofNat 32 (op * 2 ^ 26 + c * 2 ^ 23 + f * 2 ^ 21 + off)

/-- A word of format D: OP, UNIT, RA, MODE, IMM12 (R86). -/
def encD (op unit ra mode imm : Nat) : Word := BitVec.ofNat 32 (op * 2 ^ 26 + unit * 2 ^ 21 + ra * 2 ^ 16 + mode * 2 ^ 12 + imm)

/-- OP, bits [31:26]. -/
def fOp (w : Word) : Nat := bitsN w.toNat 26 6
/-- RD or UNIT, bits [25:21]. -/
def fRd (w : Word) : Nat := bitsN w.toNat 21 5
/-- RA, bits [20:16]. -/
def fRa (w : Word) : Nat := bitsN w.toNat 16 5
/-- RB, bits [15:11]. -/
def fRb (w : Word) : Nat := bitsN w.toNat 11 5
/-- SUB, bits [10:0]. -/
def fSub (w : Word) : Nat := bitsN w.toNat 0 11
/-- IMM16, bits [15:0]. -/
def fImm (w : Word) : Nat := bitsN w.toNat 0 16
/-- COND, bits [25:23]. -/
def fCond (w : Word) : Nat := bitsN w.toNat 23 3
/-- FLAG, bits [22:21]. -/
def fFlag (w : Word) : Nat := bitsN w.toNat 21 2
/-- OFF21, bits [20:0]. -/
def fOff (w : Word) : Nat := bitsN w.toNat 0 21
/-- MODE, bits [15:12]. -/
def fMode (w : Word) : Nat := bitsN w.toNat 12 4
/-- IMM12, bits [11:0]. -/
def fImm12 (w : Word) : Nat := bitsN w.toNat 0 12

/-- COND and FLAG as an RD field holds them (R92). -/
def condRd (c f : Nat) : Nat := 4 * c + f

/-- Halves of a 32-bit immediate: sign-extended (R86). -/
def simm (imm : Nat) : Word := BitVec.ofInt 32 (sx 16 imm)
/-- Zero-extended (R91). -/
def zimm (imm : Nat) : Word := BitVec.ofNat 32 (imm % 2 ^ 16)

end Sys2Proof.Machine
end

