-- ==== Sys2Proof/Machine/Flags.lean ====
section
/-! DEFINITION. The conditions that CMP, CMPI, PCMP and VCMP write to flags and masks (R92, R95, R111), and the flags F0 to F3 as a nibble. -/

namespace Sys2Proof.Machine

/-- Condition `c` on two values of one width; none: COND 6 and 7, which trap (R92). -/
def holds {n : Nat} (c : Nat) (a b : BitVec n) : Option Bool :=
  match c with
  | 0 => some (a == b)
  | 1 => some (a != b)
  | 2 => some (a.slt b)
  | 3 => some (!(a.slt b))
  | 4 => some (a.ult b)
  | 5 => some (!(a.ult b))
  | _ => none

/-- A compare writes its target flag, and no other; COND 6 and 7 trap with ILLEGAL (R92). -/
def cmpOut {n : Nat} (e c f : Nat) (a b : BitVec n) (s : State) : UOut :=
  match holds c a b with
  | some h => .next (s.setFlag e f h)
  | none => .trap 1

/-- F3 to F0 in bits [3:0] (R90, GETF). -/
def flagsWord (s : State) (e : Nat) : Word := BitVec.ofNat 32 (s.get ENG_FLAGS e % 16)

/-- F3 to F0 taken from bits [3:0] (R90, SETF). -/
def State.setFlags (s : State) (e : Nat) (v : Word) : State := s.set ENG_FLAGS (v.toNat % 16) e

end Sys2Proof.Machine
end

