-- ==== Sys2Proof/Machine/TilOps.lean ====
section
/-! DEFINITION. Shared operations of the tillers (08_screening): the head map and coverage (R231, R232), the nozzle table and its
update path (R233 to R237), stitching (R238). -/

namespace Sys2Proof.Machine

/-! ### Head map (R231, R232) -/

/-- A nozzle on a column: port, head, nozzle of the port, lowest and highest column of its head. -/
structure OnCol where
  port : Nat
  head : Nat
  noz : Nat
  lo : Int
  hi : Int

/-- Columns from nozzle to nozzle at a point: CSTEP + 1 (R231). -/
def State.colStep (s : State) (b : Nat) : Nat := s.get CMP_CP_CTL_CSTEP b + 1

/-- FIRST_h of a port (R231). -/
def State.headFirst (s : State) (p h : Nat) : Nat := ((List.range h).map fun i => s.get TIL_HEAD_CFG_NNOZ p i).foldl (· + ·) 0

/-- The plane column of nozzle `i` of head `h` (R231). -/
def State.nozCol (s : State) (b p h i : Nat) : Int :=
  let d : Int := i * s.colStep b
  if s.on TIL_HEAD_CFG_REV p h then s.geti TIL_HEAD_COL p h - d else s.geti TIL_HEAD_COL p h + d

/-- A column lies in the printed width and on the point's phase (R231). -/
def State.colUsed (s : State) (b plane : Nat) (c : Int) : Bool :=
  decide (0 ≤ c) && decide (c < s.width plane) && (s.colStep b == 1 || decide (c % 2 = s.get CMP_CP_CTL_CPHASE b))

/-- The nozzle of head `h` on column `c`, when it is in use there (R231). -/
def State.onHead (s : State) (b p h : Nat) (c : Int) : Option OnCol :=
  let n := s.get TIL_HEAD_CFG_NNOZ p h
  let st := s.colStep b
  let off := if s.on TIL_HEAD_CFG_REV p h then s.geti TIL_HEAD_COL p h - c else c - s.geti TIL_HEAD_COL p h
  let i := off.toNat / st
  if n = 0 ∨ off < 0 ∨ off % (st : Int) ≠ 0 ∨ n ≤ i ∨ 12288 ≤ s.headFirst p h + i then none
  else
    let z := s.nozCol b p h (n - 1)
    let a := s.geti TIL_HEAD_COL p h
    some ⟨p, h, s.headFirst p h + i, min a z, max a z⟩

/-- The ports of bar `b` that belong to the start job (R249, R254). -/
def State.jobPorts (s : State) (b : Nat) : List Nat := (s.portsOf b).filter fun p => s.on TIL_PORT_CFG_EN p

/-- The in-use nozzles of ports `ps` on column `c` of bar `b`'s point, lower head first (R231, R238). -/
def State.nozzlesOn (s : State) (ps : List Nat) (b plane : Nat) (c : Int) : List OnCol :=
  if s.colUsed b plane c then
    let l := ps.flatMap fun p => (List.range 8).filterMap fun h => s.onHead b p h c
    match l with
    | [x, y] => if y.lo < x.lo then [y, x] else [x, y]
    | _ => l
  else []

/-- Coverage checked for the bars and ports of a job (R232). -/
def State.coverage (s : State) (bars : List (Nat × Nat)) (ports : List Nat) : State :=
  let n := (bars.map fun (b, plane) =>
    let ps := (s.portsOf b).filter fun p => ports.contains p
    ((s.columns b plane).filter fun (c : Nat) => (s.nozzlesOn ps b plane c).isEmpty).length).foldl (· + ·) 0
  let s := (s.put TIL_STAT_MAP_GAP (n != 0)).set TIL_MAP_GAPS (min n (2 ^ 32 - 1))
  s.cond (n != 0) fun s => s.raise EV_MAP_GAP 255

/-- The bars of a job that fire, with their planes: those with ports. -/
def JobD.portBars (j : JobD) : List (Nat × Nat) :=
  (j.bars.filter fun b => j.ports.any fun p => p.2.1 == b.1).map fun b => (b.2.2.1, b.2.1)

/-! ### The nozzle table (R233 to R237) -/

/-- The index of a nozzle's entry. -/
def nzIndex (p n : Nat) : Nat := 12288 * p + n

/-- A nozzle entry as a read returns it: 0 where it is uncorrectable (R237). -/
def State.nzRead (s : State) (j : Nat) : Word := if smGet (fun _ => false) s.nzUnc j then 0 else s.rd (NZT.addr j)

/-- STATE of an entry. -/
def nzState (w : Word) : Nat := getBits w 18 2

/-- The point a port's nozzles print for, that of its bar (R179). -/
def State.portPoint (s : State) (p : Nat) : Nat := s.get HPL_PORT_CFG_BAR p

/-- EFF of a write that completes now, for a point (R235). -/
def State.eff (s : State) (b : Nat) : Int := (smGet (fun _ => TPoint.empty) s.tilPt b).begun

/-- An entry written: the port's WEAK and DEAD counts follow (R234), an uncorrectable entry is good again (R237). -/
def State.nzPut (s : State) (j : Nat) (w : Word) : State :=
  let p := j / 12288
  let old := nzState (s.rd (NZT.addr j))
  let new := nzState w
  let weak := s.get TIL_PORT_NZ_WEAK p + b2n (new == 1) - b2n (old == 1)
  let dead := s.get TIL_PORT_NZ_DEAD p + b2n (decide (2 ≤ new)) - b2n (decide (2 ≤ old))
  let s := ((s.wr (NZT.addr j) w).set TIL_PORT_NZ_WEAK weak p).set TIL_PORT_NZ_DEAD dead p
  { s with nzUnc := smPut (fun _ => false) s.nzUnc j false }

/-- A command of the update path and its result (R236): DONE writes STATE, and GAIN where given, and is reported; a unit that sends images
keeps the change for the next (R400). -/
def State.nzu (s : State) (p n expect new : Nat) (gain : Option Nat) : State × Nat :=
  let j := nzIndex p n
  let old := s.nzRead j
  let st := nzState old
  let r := if 128 ≤ p ∨ 12288 ≤ n ∨ new = 3 then 3 else if st = 3 then 2 else if st ≠ expect then 1 else 0
  let s := s.set TIL_NZU_STAT_RESULT r
  if r = 0 then
    let w := putBits old 18 2 new
    let w := match gain with | some g => putBits w 0 10 g | none => w
    let e := s.eff (s.portPoint p)
    let s := (((s.nzPut j w).set64 TIL_NZU_EFF_LO e).addWrap TIL_NZU_CNT_DONE 1).raise EV_NOZZLE_STATE 255 ([(p : Int), n, st, new] ++ w64 e)
    (s.cond (s.on TWN_STAT_ACTIVE && s.on TWN_CFG_EN) fun s => { s with nzChg := s.nzChg ++ [(j, w.toNat, e)] }, r)
  else (s.addWrap TIL_NZU_CNT_REFUSED 1, r)

/-- Entries that a read of the tiller corrects or finds uncorrectable (R237). -/
def State.nzFaults (s : State) (ce ue : List Nat) : State :=
  let s := s.each ce fun _ s => (s.addSat TIL_NZT_ECC_CE 1).raiseLim EV_NZT_CE 255 0 sec1
  s.each ue fun j s =>
    if smGet (fun _ => false) s.nzUnc j then s
    else
      let s := ({ s with nzUnc := smPut (fun _ => false) s.nzUnc j true } : State).addSat TIL_NZT_ECC_UE 1
      (s.set TIL_NZT_UE_ADDR_INDEX j).raise EV_NZT_UE 255 [j]

/-! ### What a tiller does with one column -/

/-- A selected nozzle: where it is, whether it screens as DEAD, its entry (none: uncorrectable or no nozzle, R232, R237). -/
structure Sel where
  port : Nat
  noz : Nat
  dead : Bool
  entry : Option Word
  nwsel : Nat
  rescued : Bool

/-- A nozzle is DEAD for the tiller: DEAD, HELD or uncorrectable (R234, R237). -/
def State.nzDead (s : State) (j : Nat) : Bool :=
  smGet (fun _ => false) s.nzUnc j || decide (2 ≤ nzState (s.rd (NZT.addr j)))

/-- The bit of the stitch pattern for offset `j` of an overlap of `ow` columns at line `y`: false selects the lower head (R238). -/
def stitchBit (t : List Nat) (j ow : Nat) (y : Int) : Bool :=
  if t.isEmpty then decide (ow / 2 ≤ j)
  else
    let k := j * 256 / ow
    bitN (t.getD (32 * (y % 64).toNat + k / 8) 0) (k % 8)

/-- The place of column `c` in the overlap of two heads, and the overlap's columns, counted in the point's columns (R238). -/
def State.overlap (s : State) (b plane : Nat) (x y : OnCol) (c : Int) : Nat × Nat :=
  let st : Int := s.colStep b
  let ph : Int := if st = 1 then 0 else s.get CMP_CP_CTL_CPHASE b
  let lo := max (max x.lo y.lo) 0
  let lo := lo + (ph - lo) % st
  let hi := min (min x.hi y.hi) (s.width plane - 1)
  (((c - lo) / st).toNat, ((hi - lo) / st + 1).toNat)

/-- The nozzle as selected. -/
def State.selOf (s : State) (x : OnCol) (rescued : Bool) : Sel :=
  let j := nzIndex x.port x.noz
  let u := smGet (fun _ => false) s.nzUnc j
  let w := s.rd (NZT.addr j)
  ⟨x.port, x.noz, s.nzDead j, if u then none else some w, if u then 0 else getBits w 20 4, rescued⟩

/-- The nozzle of ports `ps` that prints column `c` of line `y` (R232, R237, R238). -/
def State.selAt (s : State) (ps : List Nat) (b plane : Nat) (stitch : List Nat) (y c : Int) : Sel :=
  match s.nozzlesOn ps b plane c with
  | [] => ⟨128, 0, true, none, 0, false⟩
  | [x] => s.selOf x false
  | x :: z :: _ =>
    let (j, ow) := s.overlap b plane x z c
    let up := stitchBit stitch j ow y
    let (a, o) := if up then (z, x) else (x, z)
    let da := s.nzDead (nzIndex a.port a.noz)
    let do_ := s.nzDead (nzIndex o.port o.noz)
    if da && !do_ then s.selOf o true
    else if da && do_ then { s.selOf a false with nwsel := (s.selOf x false).nwsel } else s.selOf a false

end Sys2Proof.Machine
end

