-- ==== Sys2Proof/Machine/NhOps.lean ====
section
/-! DEFINITION. Nozzle health (11_colour_hold R326, R332 to R335): the changes that the firmware makes through the update path. -/

namespace Sys2Proof.Machine

/-- The bar position of a line as an event shows it. -/
def State.streakFrom (s : State) (b j : Nat) : Int :=
  let (k, z) := smGet (fun _ => (0, 0)) s.nhOld j
  match k, smGet (fun _ => none) s.nhEnd b with
  | 1, _ => z
  | 0, some e => e
  | _, _ => sx 64 (Config.free 3 s.fresh)

/-- A change of a nozzle by the firmware: none that would take the port's DEAD count over MAXDEAD (R334); a command to WEAK or DEAD counts as
MARKED and raises NH_STREAK (R335), one to OK counts as RESTORED (R332). The result is that of the command, 4 where none is given. -/
def State.nhChange (s : State) (p n expect new : Nat) : State × Nat :=
  let j := nzIndex p n
  let b := s.get HPL_PORT_CFG_BAR p
  let grows := new == 2 && decide (nzState (s.nzRead j) < 2)
  if grows && decide (s.get CHL_NH_CFG_MAXDEAD < s.get TIL_PORT_NZ_DEAD p + 1) then
    if smGet (fun _ => false) s.nhLimit p then (s, 4)
    else (({ s with nhLimit := smPut (fun _ => false) s.nhLimit p true } : State).raise EV_NH_PORT_LIMIT 255, 4)
  else
    let s := s.cond grows fun s => { s with nhLimit := smPut (fun _ => false) s.nhLimit p false }
    let frm := s.streakFrom b j
    let (s, r) := s.nzu p n expect new none
    if r ≠ 0 then (s, r)
    else if new = 0 then (s.addWrap CHL_NH_CNT_RESTORED 1, 0)
    else
      let s : State := { s with fresh := s.fresh + 1 }
      ((s.addWrap CHL_NH_CNT_MARKED 1).raise EV_NH_STREAK b (rangeArgs [b, p, n] frm (s.linePos b (s.eff b))), 0)

/-- A head-board nozzle-fault entry acts at once: KIND 2 on an OK or WEAK nozzle gives DEAD, KIND 1 on an OK nozzle gives WEAK (R333). -/
def State.nhFast (s : State) (p n kind : Nat) : State :=
  let st := nzState (s.nzRead (nzIndex p n))
  if kind = 2 ∧ st < 2 then (s.nhChange p n st 2).1
  else if kind = 1 ∧ st = 0 then (s.nhChange p n 0 1).1
  else s

/-- An entry of port `p` reaches the firmware: with EN and FAST it acts in PRINT, is kept in the frozen modes, and has no effect in the others
(R326, R328, R333). -/
def State.nhEntry (s : State) (p n kind : Nat) : State :=
  if s.on CHL_NH_CFG_EN && s.on CHL_NH_CFG_FAST then
    if s.printing then s.nhFast p n kind
    else if s.mode = 2 ∨ s.mode = 4 ∨ s.mode = 7 then { s with nhKept := smPut (fun _ => 0) s.nhKept (nzIndex p n) (kind + 1) }
    else s
  else s

/-- The press enters PRINT: the entries kept while frozen act (R333). -/
def State.nhEnter (s : State) : State :=
  let l := s.nhKept
  ({ s with nhKept := [] } : State).each l fun x s =>
    if s.on CHL_NH_CFG_EN && s.on CHL_NH_CFG_FAST then s.nhFast (x.1 / 12288) (x.1 % 12288) (x.2 - 1) else s

/-- Entry to IDLE: confirmation counts and each channel's JUDGED clear (R326), entries kept go with them. -/
def State.nhIdle (s : State) : State :=
  ({ s with nhRuns := [], nhKept := [] } : State).each (List.range 12) fun n s => s.set CHL_CH_JUDGED 0 n

end Sys2Proof.Machine
end

