-- ==== Sys2Proof/Machine/ModeOps.lean ====
section
/-! DEFINITION. Shared operations of the mode controller (01_architecture): the press mode and the modes of the bars (R26, R27, R130),
staged transitions (R28, R498), entry to SAFE (R31), FATAL events (R45, R46), sheaves discarded (R199), the fire latency (R274). -/

namespace Sys2Proof.Machine

/-- The mode entry of bar `b` made `m` (R130). -/
def State.setBarMode (s : State) (b m : Nat) : State :=
  if b < 8 then s.set (SEQ_BAR_MODE0_MODE0.sh (4 * b)) m else s.set (SEQ_BAR_MODE1_MODE0.sh (4 * (b - 8))) m

/-- A SHEAF_REPORT entry (R426). -/
def reportEntry (sh : Sheaf) (status applied skipped : Nat) : Entry :=
  ⟨7, status, 0, 0, sh.tag, false, [BitVec.ofNat 32 sh.rep, BitVec.ofNat 32 (applied + 65536 * skipped), BitVec.ofNat 32 (b2n sh.fit)]⟩

/-- CMP_STAT.PENDING and the CHAINED bits follow the pending sheaves (R211, R437). -/
def State.refreshSheaves (s : State) : State :=
  let s := s.set CMP_STAT_PENDING s.sheaves.length
  s.each (List.range 8) fun j s =>
    s.put HIF_JOB_STAT_CHAINED (s.on HIF_JOB_STAT_VALID j && s.sheaves.any fun h => h.job == some (s.get64 HIF_JOB_DESC_LO j)) j

/-- Every pending press sheaf is discarded, each with SHEAF_DISCARDED and a report with empty masks (R199). -/
def State.discardSheaves (s : State) : State :=
  let l := s.sheaves
  let s := ({ s with sheaves := [] } : State).each l fun sh s =>
    (s.raise EV_SHEAF_DISCARDED 255).qSend 54 (reportEntry sh 1 0 0)
  let s := s.cond (l.any fun h => h.origin == 2) fun s => ({ s with chlPend := [] } : State).put CHL_SHEAF_PENDING false
  s.refreshSheaves

/-- The fire latency of a bar's enabled ports in 1.25 ns (R274). -/
def State.barLat (s : State) (b : Nat) : Nat :=
  let worst := ((s.portsOf b).map fun p => (s.hp p).lat2 + 2 * (s.get HPL_PORT_HBINFO_HBLAT p : Int)).foldl max 0
  max (s.get HPL_BAR_LATMIN b) (cdiv ((196 + worst) * 4).toNat 25)

/-- On entry to READY, SERVICE or SHADOW the fire latency of each bar is fixed, unless it is held since then (R274); a port out under
LAT_FIT comes back (R279). -/
def State.fixBarLat (s : State) : State :=
  s.each (List.range 16) fun b s =>
    if (s.portsOf b).isEmpty || (s.hb b).held then s
    else
      let s := (s.set HPL_BAR_LAT (s.barLat b) b).setHb b { s.hb b with held := true }
      s.each (s.portsOf b) fun p s =>
        if s.on HPL_PORT_STAT_LAT_FIT p then (s.put HPL_PORT_STAT_LAT_FIT false p).unstall (portUnit p) 4 (s.portBase p) else s

/-- The press returns to IDLE: no bar holds its fire latency any more (R274). -/
def State.dropBarLat (s : State) : State := s.each (List.range 16) fun b s => s.setHb b { s.hb b with held := false }

/-- In IDLE no port holds lines of a job: the next job's lines begin anew (R27, R269). -/
def State.clearPorts (s : State) : State :=
  { s with hport := smMap (fun _ => HPort.empty) (fun _ h => { h with sent := [], bad := [], gap := none, low := -(2 ^ 63), next := -(2 ^ 63) }) s.hport }

/-- Every point is without a job: composed lines are discarded (R27) and no job runs. -/
def State.clearPoints (s : State) : State :=
  let s := s.each (List.range 16) fun b s =>
    (({ s with point := smPut (fun _ => Point.empty) s.point b Point.empty } : State).set CMP_CP_STAT_STATE 0 b).set CMP_CP_POOL_HELD 0 b
  (s.set CMP_POOL_FREE 16384).each (List.range 8) fun j s => s.put HIF_JOB_STAT_RUNNING false j

/-- Bars stalled by INDEX_HOLD return to RUN when the press leaves HOLD (R68). -/
def State.leaveHold (s : State) : State := s.each (List.range 16) fun b s => s.barRun b 6

/-- A pattern engine runs: EN, or the press mode's bit in AUTO (R356). -/
def State.patOn (s : State) (e : Nat) : Bool := s.on PAT_CTL_EN e || bitN (s.get PAT_CTL_AUTO e) s.mode

/-- Pattern engines that start or stop (R356). -/
def State.refreshPats (s : State) : State :=
  s.each (List.range 8) fun e s =>
    let at_ := smGet (fun _ => 0) s.patAt e
    { s with patAt := smPut (fun _ => 0) s.patAt e (if s.patOn e then (if at_ = 0 then s.clk + 1 else at_) else 0) }

/-- This unit is active or not: TWIN_ACTIVE follows (R396), a planned switch-over that is pending when activeness goes ends PREEMPTED (R405). -/
def State.setActive (s : State) (a : Bool) : State :=
  let was := s.on TWN_STAT_ACTIVE
  let s := s.cond (s.twn.twnSwitch && !a) fun s => ({ s with twn.twnSwitch := false } : State).set TWN_SWITCH_STAT_RESULT 3
  let s := s.put TWN_STAT_ACTIVE a
  { s with
    twinPull := s.on TWN_CFG_EN && (if s.get TWN_STAT_ROLE = 0 then !a else a),
    twn.twnActClk := if was || a then s.clk else s.twn.twnActClk }

/-- A unit of a pair is active in READY, PRINT, HOLD and SERVICE (log 24); one that leaves SHADOW is no standby any more (R410). -/
def State.twinMode (s : State) (old m : Nat) : State :=
  let s := s.cond (old == 5 && m != 5) fun s => ({ s with twn.twnJoin := 0, twn.twnShSkew := false } : State).put TWN_STAT_SB_READY false
  s.setActive (s.on TWN_CFG_EN && (m == 2 || m == 3 || m == 4 || m == 6))

/-- What the change of the press mode from `old` to `m` brings with it, beside the mode itself. -/
def State.modeEffects (s : State) (old m : Nat) : State :=
  let s := s.cond (m == 1 || m == 7 || (m == 2 && (old == 3 || old == 4))) State.discardSheaves
  let s := s.cond (m == 1) fun s => s.dropBarLat.clearPoints.clearPorts
  let s := s.cond (m == 2 || m == 5 || m == 6) State.fixBarLat
  let s := s.cond (old == 4 && m != 4) State.leaveHold
  let s := s.cond (old == 4 && m == 2) fun s => s.put GLB_HOLD_CAUSE_PENDING false
  let s := s.cond (m != 1 && m != 6) fun s => { s with domOff := [] }
  let s := s.cond (old == 7 && m != 7) fun s => s.put GLB_FATAL_FIRST_VALID false
  ((s.twinMode old m).refreshPats).refreshBars

/-- The result of a host request shown (R30). -/
def State.showResult (s : State) (tag result : Nat) : State := (s.set GLB_MODE_STAT_TAG tag).set GLB_MODE_STAT_RESULT result

/-- The transition in progress ends without effect: a host request that it served completes PREEMPTED (R29, R30, R498). -/
def State.preempt (s : State) : State :=
  match s.tr with
  | none => s
  | some t =>
    let s := ({ s with tr := none, twn.tkBars := none, twn.tkNext := none } : State).set GLB_MODE_STAT_PENDING 0xF
    match t.tag with
    | some g => s.showResult g 4
    | none => s

/-- MODE, CAUSE and every bar entry take the mode in one SEQ cycle (R27, R130), latch 61 is set in every engine (R131) and MODE_CHANGE is raised;
`rep`: the first printed repeat that the event carries (R28). -/
def State.setMode (s : State) (m cause : Nat) (rep : Nat := 0) : State :=
  let old := s.mode
  let s := s.cond (m == 3 && !s.printing) State.nhEnter
  let s := s.cond (m == 1) State.nhIdle
  let s := (s.set GLB_MODE_STAT_MODE m).set GLB_MODE_STAT_CAUSE cause
  let s := s.each (List.range 16) fun b s => s.setBarMode b m
  let s := (s.latchAll 61).raise EV_MODE_CHANGE 255 [rep]
  s.modeEffects old m

/-- Entry to SAFE turns strings off (R345); the lamp bus has the enabled nodes to write that SAFE selects a level for (R355). -/
def State.safeLamps (s : State) : State :=
  let s := s.each (List.range 12) fun n s => s.cond (s.get LS_STAT_STATE n == 1) fun s => s.set LS_STAT_STATE 0 n
  let l := (List.range 16).filter fun m => s.on LB_NODE_CFG_EN m && (s.get LB_NODE_CFG_SAFE m == 0 || s.get LB_NODE_CFG_SAFE m == 2)
  { s with lampLit := [], lbSafe := l, swcTarget := none, swcHigh := none }

/-- A running Husk command ends with ABORTED (R227, R228). -/
def State.huskAbort (s : State) : State :=
  if s.on HSK_STAT_BUSY then
    ((({ s with husk := none } : State).put HSK_STAT_BUSY false).set HSK_STAT_RESULT 4).raise EV_HSK_FAIL 255
  else s

/-- The press enters SAFE (R26, R27, R31, R117, R199, R227, R345). -/
def State.enterSafe (s : State) (cause : Nat := 2) : State :=
  (s.preempt.safeEngines.huskAbort.safeLamps).setMode 7 cause

/-- A log record gathered (R463). -/
def State.logRec (s : State) (kind : Nat) (info : List Int) : State :=
  { s with mgt.logBuf := s.mgt.logBuf ++ [⟨s.mgt.logNum % 2 ^ 32, kind, info⟩], mgt.logNum := s.mgt.logNum + 1 }

/-- A FATAL event: kept in GLB_FATAL_FIRST unless an earlier one is (R46), written to its queue, and the press moves to SAFE unless it is in
BOOT or SAFE (R27, R45). -/
def State.fatal (s : State) (e : Ev) (unit : Nat := 255) (args : List Int := []) : State :=
  let s := s.cond (!(s.on GLB_FATAL_FIRST_VALID)) fun s =>
    ((s.set GLB_FATAL_FIRST_CODE e.code).set GLB_FATAL_FIRST_UNIT unit).put GLB_FATAL_FIRST_VALID true
  let s := (s.evWrite e unit args).logRec 1 [e.code, unit]
  s.cond (s.mode != 0 && s.mode != 7) State.enterSafe

/-! ### Staged transitions (R27, R28, R498) -/

/-- The bars that take a staged transition at their own hit: those of the start job whose line clock runs. -/
def State.stagedBars (s : State) : List Nat :=
  match s.startJob with
  | some j => (j.bars.map (·.1)).filter fun b => s.on GEK_LC_CTL_EN b
  | none => []

/-- The most upstream bar: the one with the least OFFSET. -/
def State.upstream (s : State) (l : List Nat) : Option Nat :=
  l.foldl (fun r b => match r with
    | none => some b
    | some c => if s.lcOffset b < s.lcOffset c then some b else some c) none

/-- The mode that bar `b` moves to: the transition's target, or its own entry of the copy image at a take-over (R405). -/
def State.barTarget (s : State) (t : ModeTr) (b : Nat) : Nat :=
  match s.twn.tkBars with
  | some w => w / 16 ^ b % 16
  | none => t.target

/-- The transition in progress is complete: the mode takes the target with every bar entry, and the host's request completes DONE (R30). -/
def State.finishTr (s : State) (t : ModeTr) : State :=
  let s := ({ s with tr := none } : State).set GLB_MODE_STAT_PENDING 0xF
  let s := match t.tag with
    | some g => s.showResult g 0
    | none => s
  let old := s.mode
  let s := s.cond (t.target == 3 && !s.printing) State.nhEnter
  let s := (s.set GLB_MODE_STAT_MODE t.target).set GLB_MODE_STAT_CAUSE t.cause
  let s := s.each (List.range 16) fun b s => s.setBarMode b (s.barTarget t b)
  let s := s.cond (t.target == 3) fun s => { s with printRep := t.rep }
  let s := (s.raise EV_MODE_CHANGE 255 [t.rep.getD 0]).modeEffects old t.target
  let next := s.twn.tkNext
  let s : State := { s with twn.tkBars := none, twn.tkNext := none }
  match next with
  | none => s
  | some (m, r) =>
    let moved := s.stagedBars.filter fun b => s.barMode b == m
    ({ s with tr := some ⟨m, t.cause, none, false, some r, moved⟩ } : State).set GLB_MODE_STAT_PENDING m

/-- Bar `b` takes the staged transition at this hit: its entry changes, latch 61 is set (R130, R131); with the last bar the press mode changes. -/
def State.moveBar (s : State) (t : ModeTr) (b : Nat) : State :=
  let s := s.cond (t.target == 3 && !s.printing) State.nhEnter
  let s := (s.setBarMode b (s.barTarget t b)).latchAll 61
  let t := { t with moved := b :: t.moved }
  if s.stagedBars.all fun c => t.moved.contains c then s.finishTr t
  else
    let s : State := { s with tr := some t }
    (s.each (s.portsOf b) fun p s => s.refreshPort p).refreshBar b

/-- A staged transition begins; with no bar to wait for it is complete at once. -/
def State.startTr (s : State) (t : ModeTr) : State :=
  let s := ({ s with tr := some t } : State).set GLB_MODE_STAT_PENDING t.target
  let s := match t.tag with
    | some g => s.showResult g 1
    | none => s
  if s.stagedBars.isEmpty then (s.latchAll 61).finishTr t else s

/-- Every bar moves at its next line (R27 with IMMEDIATE, R41, R68, R498). -/
def immTr (target cause : Nat) (tag : Option Nat) : ModeTr := ⟨target, cause, tag, true, none, []⟩

/-- A fault-driven HOLD while the press is in PRINT: the cause awaits acknowledgement (R34), and every bar moves at its next line; a
transition in progress is replaced (R498). -/
def State.faultHold (s : State) (kind cause trk sc : Nat) : State :=
  if s.printing then
    let s := ((s.put GLB_HOLD_CAUSE_PENDING true).set GLB_HOLD_CAUSE_KIND kind)
    let s := if kind = 1 then s.set GLB_HOLD_CAUSE_TRK trk else s.set GLB_HOLD_CAUSE_SC sc
    s.preempt.startTr (immTr 4 cause none)
  else s

end Sys2Proof.Machine
end

