-- ==== Sys2Proof/Machine/ComposeOps.lean ====
section
/-! DEFINITION. What a composed line holds: placement (R184), blending (R185, R186), elastic mapping (R187), tone and zone curves
(R188), feed instances (R189), the line-buffer need (R203), the display picture (R207). -/

namespace Sys2Proof.Machine

/-- Composition point `b`'s own state. -/
def State.cp (s : State) (b : Nat) : Point := smGet (fun _ => Point.empty) s.point b
/-- Composition point `b`'s own state replaced. -/
def State.setCp (s : State) (b : Nat) (x : Point) : State := { s with point := smPut (fun _ => Point.empty) s.point b x }

/-- Layer `n` of a point. -/
def Point.layer (p : Point) (n : Nat) : Option LayerD := smGet (fun _ => none) p.layers n
/-- Layer `n` of a point replaced. -/
def Point.setLayer (p : Point) (n : Nat) (d : Option LayerD) : Point := { p with layers := smPut (fun _ => none) p.layers n d }

/-- The five elastic parameters of a point as applied, OX and OY in 2^-8 pixels, the others in 2^-30 (R187). -/
structure Geo where
  ox : Int
  oy : Int
  sx : Int
  sy : Int
  k : Int

/-- The elastic parameters in force at a point. -/
def State.geo (s : State) (b : Nat) : Geo :=
  ⟨sx 32 (s.getA CMP_CP_OX b), sx 32 (s.getA CMP_CP_OY b), s.getA CMP_CP_SX b, s.getA CMP_CP_SY b, sx 32 (s.getA CMP_CP_K b)⟩

/-- The place (u, v) of output pixel (c, l) for a layer, in 2^-30 pixels (R184, R187). -/
def placeOf (d : LayerD) (g : Geo) (c l : Int) : Int × Int :=
  if d.elastic then (g.ox * 2 ^ 22 + g.sx * c, g.oy * 2 ^ 22 + g.sy * l + g.k * c) else (c * 2 ^ 30, l * 2 ^ 30)

/-- Where a layer's pixels come from: store address of channel 0, bytes from channel to channel and line to line, Husk, width, height. -/
structure Src where
  base : Nat
  chStride : Nat
  stride : Nat
  husk : Bool
  w : Nat
  h : Nat

/-- The bytes of feed record `n`, of a feed (BASE, DEPTH, NINST) (R189); a DEPTH of 0 has none (R191). -/
def State.feedRec (s : State) (fc : Nat × Nat × Nat) (n : Nat) : List Nat :=
  if fc.2.1 = 0 then [] else s.ld (fc.1 + 64 * (n % fc.2.1)) 64

/-- The record number of instance `i` of repeat `r` (R189). -/
def recNo (fc : Nat × Nat × Nat) (r i : Nat) : Nat := (r * fc.2.2 + i) % 2 ^ 32

/-- The source of instance `i` of a layer in repeat `r`; none for a feed instance whose record is marked missing (R190). -/
def State.srcOf (s : State) (fc : Nat × Nat × Nat) (d : LayerD) (r i : Nat) : Option Src :=
  if d.feed then
    let n := recNo fc r (d.inst0 + i)
    if s.feed.missing.contains n then none
    else
      let b := s.feedRec fc n
      some ⟨fieldAt b 8 8, fieldAt b 0x10 8, fieldAt b 0x18 4, bitN (fieldAt b 6 2) 1, fieldAt b 0x1C 2, fieldAt b 0x1E 2⟩
  else some ⟨d.base, d.chStride, d.stride, d.husk, d.w, d.h⟩

/-- An 8-bit source sample; a Husk channel is decoded, corrupt segments giving zeros (R222, R223). -/
def State.srcPix (s : State) (f : Src) (ch x y : Nat) : Nat :=
  let a := f.base + ch * f.chStride
  if f.husk then (huskRowPixels f.w (s.huskRow a (s.huskHdr a) y)).getD x 0
  else (s.ldByte (a + y * f.stride + x)).toNat

/-- The lowest-numbered instance of a layer that covers (u, v), as (number, source, du, dv) in 2^-30 pixels (R184). -/
def State.instAt (s : State) (fc : Nat × Nat × Nat) (d : LayerD) (r : Nat) (u v : Int) : Option (Src × Int × Int) :=
  (List.range (d.ny * d.nx)).findSome? fun i =>
    let du : Int := u - (d.x0 + ((i % d.nx : Nat) : Int) * (d.dx : Int)) * 1073741824
    let dv : Int := v - (d.y0 + ((i / d.nx : Nat) : Int) * (d.dy : Int)) * 1073741824
    if 0 ≤ du ∧ du < (d.ew : Int) * 1073741824 ∧ 0 ≤ dv ∧ dv < (d.eh : Int) * 1073741824 then (s.srcOf fc d r i).map fun f => (f, du, dv) else none

/-- The source place (x, y) of a covered pixel in 2^-60 source pixels, wrapped with TILE; none outside the surface without it (R184). -/
def srcPlace (d : LayerD) (f : Src) (du dv : Int) : Option (Int × Int) :=
  let x := du * d.lsx
  let y := dv * d.lsy
  if d.tile then some (x % (f.w * 2 ^ 60), y % (f.h * 2 ^ 60))
  else if x ≤ (f.w - 1 : Int) * 2 ^ 60 ∧ y ≤ (f.h - 1 : Int) * 2 ^ 60 then some (x, y) else none

/-- A source sample expanded to 12 bits (R185). -/
def expand12 (v : Nat) : Nat := v * 16 + v / 16

/-- The 12-bit sample of channel `ch` at a source place: the pixel itself, or for ELASTIC the four around it weighted by the top 8 bits of
each fraction, rounded to nearest (R184, R187). -/
def State.sample (s : State) (d : LayerD) (f : Src) (ch : Nat) (x y : Int) : Nat :=
  if d.elastic then
    let x16 := x / 2 ^ 44
    let y16 := y / 2 ^ 44
    let wx := (x16 % 65536 / 256).toNat
    let wy := (y16 % 65536 / 256).toNat
    let x0 := (x16 / 65536).toNat
    let y0 := (y16 / 65536).toNat
    let x1 := if d.tile then (x0 + 1) % f.w else min (x0 + 1) (f.w - 1)
    let y1 := if d.tile then (y0 + 1) % f.h else min (y0 + 1) (f.h - 1)
    let q := fun a b => expand12 (s.srcPix f ch a b)
    ((q x0 y0 * (256 - wx) + q x1 y0 * wx) * (256 - wy) + (q x0 y1 * (256 - wx) + q x1 y1 * wx) * wy + 32768) / 65536
  else expand12 (s.srcPix f ch (x / 2 ^ 60).toNat (y / 2 ^ 60).toNat)

/-- BLEND of sample `v` onto `d` (R185). -/
def blend (b v d : Nat) : Nat :=
  if b = 0 then v else if b = 1 then max v d else if b = 2 then min 4095 (v + d) else if v = 0 then d else v

/-- One layer over the value composed so far, at pixel (c, l) of repeat `r` (R184 to R187). -/
def State.layerPix (s : State) (fc : Nat × Nat × Nat) (plane : Nat) (g : Geo) (r : Nat) (c l : Int) (d : LayerD) (v : Nat) : Nat :=
  let (pu, pv) := placeOf d g c l
  match s.instAt fc d r pu pv with
  | none => v
  | some (f, du, dv) =>
    match srcPlace d f du dv with
    | none => v
    | some (x, y) =>
      let v := match d.maskChan plane with
        | some m => if s.sample d f m x y ≠ 0 then 0 else v
        | none => v
      match d.chan plane with
      | some ch => blend d.blend (s.sample d f ch x y) v
      | none => v

/-- The layers a point composes, from L00 up: those of its table that are not dropped (R185, R204). -/
def State.liveLayers (s : State) (b : Nat) : List LayerD :=
  (List.range 32).filterMap fun n => if bitN (s.get CMP_CP_DROPPED b) n then none else (s.cp b).layer n

/-- The composed value of column `c`, line `l` of repeat `r`, before the curves (R185). -/
def State.artPix (s : State) (b r : Nat) (c l : Int) : Nat :=
  (s.liveLayers b).foldl (fun v d => s.layerPix (s.cp b).fcfg (s.cp b).plane (s.geo b) r c l d v) 0

/-- The tone curve (R188); an empty table is the identity. -/
def toneOf (t : List Nat) (v : Nat) : Nat :=
  if t.isEmpty then v
  else (t.getD (v / 4) 0 % 4096 * (4 - v % 4) + t.getD (v / 4 + 1) 0 % 4096 * (v % 4) + 2) / 4

/-- A zone's offset at input `t`, in 1/256 (R188). -/
def zoneAt (z : List Int) (t : Nat) : Int := z.getD (t / 256) 0 * (256 - t % 256 : Nat) + z.getD (t / 256 + 1) 0 * (t % 256 : Nat)

/-- The zone offset at column `c` of a plane `w` wide: the blend of the two zones whose centres enclose it, rounded, halves upward (R188). -/
def zoneOf (zs : List (List Int)) (w : Nat) (c : Int) (t : Nat) : Int :=
  let nz := zs.length
  if nz = 0 ∨ w = 0 then 0
  else
    let p := 2 * nz * c - w
    let z := p / (2 * w)
    let r := p % (2 * w)
    let a := zoneAt (zs.getD (clampI 0 (nz - 1) z).toNat []) t
    let b := zoneAt (zs.getD (clampI 0 (nz - 1) (z + 1)).toNat []) t
    (2 * (a * (2 * w - r) + b * r) + 512 * w) / (1024 * w)

/-- The value handed to the tiller: tone, zone offset, clamp (R188). -/
def State.shade (s : State) (b : Nat) (c : Int) (v : Nat) : Nat :=
  let p := s.cp b
  let t := toneOf p.tone v
  (clampI 0 4095 (t + zoneOf p.zone (s.width p.plane) c t)).toNat

/-- A composed line: the values of a point's columns in order. -/
def State.linePix (s : State) (b r : Nat) (l : Int) : List Nat :=
  (s.columns b (s.cp b).plane).map fun (c : Nat) => s.shade b c (s.artPix b r c l)

/-! ### Source lines read, for the counts of R206 and R223 -/

/-- The source lines of a layer's instance sources that line `l` draws on, as (source, line). -/
def State.rowsOf (s : State) (b r : Nat) (l : Int) (d : LayerD) : List (Nat × Nat × Nat × Bool × Nat) :=
  let p := s.cp b
  let rows := (s.columns b p.plane).flatMap fun (c : Nat) =>
    let (pu, pv) := placeOf d (s.geo b) c l
    match s.instAt p.fcfg d r pu pv with
    | none => []
    | some (f, du, dv) =>
      match srcPlace d f du dv with
      | none => []
      | some (_, y) =>
        let y0 := (y / 2 ^ 60).toNat
        let ys := if d.elastic ∧ y0 + 1 < f.h then [y0, y0 + 1] else [y0]
        (d.chans p.plane).flatMap fun ch => ys.map fun y => (f.base + ch * f.chStride, y, f.stride, f.husk, f.w)
  rows.eraseDups

/-- The source lines that line `l` draws on and the line before it of the same repeat did not. -/
def State.newRows (s : State) (b r : Nat) (l : Int) (d : LayerD) : List (Nat × Nat × Nat × Bool × Nat) :=
  let old := if l = 0 then [] else s.rowsOf b r (l - 1) d
  (s.rowsOf b r l d).filter fun x => !old.contains x

/-- Poisoned bursts and corrupt segments met in one source line. -/
def State.rowFaults (s : State) (x : Nat × Nat × Nat × Bool × Nat) : Nat × Nat :=
  let (a, y, stride, husk, w) := x
  if husk then
    let h := s.huskHdr a
    let e := s.huskEntry a h y
    ((s.badBursts (a + e.1) e.2).length, ((s.huskRow a h y).filter Option.isNone).length)
  else ((s.badBursts (a + y * stride) w).length, 0)

/-! ### Line-buffer pool (R203) -/

/-- The need of a layer at a point of a plane, KiB (R203). -/
def layerNeed (g : Geo) (plane : Nat) (d : LayerD) : Nat :=
  let sx := if d.elastic then g.sx.toNat else 2 ^ 30
  let sy := if d.elastic then g.sy.toNat else 2 ^ 30
  let k := if d.elastic then g.k.natAbs else 0
  let ws := min d.w (cdiv (d.ew * sx * d.lsx) (2 ^ 60))
  let t := d.nx * cdiv ws 1024
  let n := 2 + 2 * cdiv (sy * d.lsy) (2 ^ 60) + cdiv (k * d.lsy * 1024) (sx * d.lsx)
  (d.chans plane).length * t * n

/-! ### The display picture (R207) -/

/-- Colour channel `ch` (0 red, 1 green, 2 blue) and alpha numerator over 255² of pixel (x, y) of a display layer, none where the layer shows
nothing. -/
def State.dspLayer (s : State) (d ch x y : Nat) : Option (Nat × Nat) :=
  let z := 2 ^ s.getA CMP_DSP_CTL_ZOOM d
  let px := s.getA CMP_DSP_POS_X d
  let py := s.getA CMP_DSP_POS_Y d
  let w := s.getA CMP_DSP_SIZE_W d
  let h := s.getA CMP_DSP_SIZE_H d
  let ga := s.getA CMP_DSP_CTL_GALPHA d
  let fmt := s.getA CMP_DSP_CTL_FMT d
  if s.getA CMP_DSP_CTL_EN d = 1 ∧ px ≤ x ∧ x < px + w * z ∧ py ≤ y ∧ y < py + h * z then
    let row := s.getA64 CMP_DSP_BASE_LO d + (y - py) / z * s.getA CMP_DSP_STRIDE d
    if fmt = 2 then some (s.ldN (row + (x - px) / z) 1, ga * 255)
    else
      let v := s.ldN (row + (x - px) / z * 4) 4
      if fmt = 0 then some (v / 256 ^ (2 - ch) % 256, v / 2 ^ 24 * ga)
      else some (v / 2 ^ (10 * (2 - ch)) % 1024 / 4, ga * 255)
  else none

/-- The picture at output pixel (x, y): D0 to D7 blended over the background, a + (s − a) × α (R207). -/
def State.displayPixel (s : State) (ch x y : Nat) : Int :=
  (List.range 8).foldl (fun (a : Int) d => match s.dspLayer d ch x y with
    | some (v, al) => a + ((v : Int) - a) * al / 65025
    | none => a) ((s.getA CMP_DSP_BG / 256 ^ (2 - ch) % 256 : Nat) : Int)

end Sys2Proof.Machine
end

