-- ==== Sys2Proof/Machine/Composer.lean ====
section
/-! DEFINITION. The composer (06_composer): the start of a job at its points (R28), sheaves (R194 to R202), the composition of a line
(R180 to R193), the line-buffer pool (R203 to R205) and the display composer (R207 to R209). -/

namespace Sys2Proof.Machine

/-- The difference of two repeat indices, modulo 2^32, signed. -/
def repDiff (a b : Nat) : Int := sx 32 ((a + 2 ^ 32 - b % 2 ^ 32) % 2 ^ 32)

/-! ### First lines (R28, R77, R181) -/

/-- The sheet a bar's line clock is in, or takes next, and its first line (R77, R78). -/
def State.sheetBase (s : State) (b : Nat) : Nat × Int :=
  let c := s.get GEK_LC_SHEET b
  if s.on GEK_LC_STAT_WAIT_SHEET b || c == 0 then
    let k := s.get GEK_LC_CTL_TRK b
    match (s.tk k).edges.find? (fun e => decide (0 < repDiff e.1 c)) with
    | some e => (e.1, s.line b)
    | none => ((s.get GEK_TRK_SHEET_NUM k + 1) % 2 ^ 32, s.line b)
  else (c, (s.lk b).first)

/-- The first line of the sheet of edge number `n` at a bar: every sheet keeps SHEET_LINES line numbers (R78). -/
def State.sheetFirst (s : State) (b n : Nat) : Int :=
  let (c, l) := s.sheetBase b
  l + repDiff n c * s.get GEK_LC_SHEET_LINES b

/-- The first line, not below LINE, whose bar position is at or beyond `pos` (R181). -/
def State.firstAt (s : State) (b : Nat) (pos : Int) : Int :=
  let gap := pos * 2 ^ 32 - s.compare b
  let pitch := s.lcPitch b
  if gap ≤ 0 ∨ pitch = 0 then s.line b else s.line b + (gap + pitch - 1) / pitch

/-- The first repeat of a job at or after `R0` whose first line a bar has not hit yet (R28). -/
def State.nextRep (s : State) (b : Nat) (org : Int) (r0 rep : Nat) : Nat :=
  let last := (s.compare b - s.lcPitch b) / 2 ^ 32
  if rep = 0 then r0 else (r0 + ((last - org) / rep + 1).toNat) % 2 ^ 32

/-! ### Status of a point (R19, R20, R180, R211) -/

/-- NEXT of a point. -/
def State.nextLine (s : State) (b : Nat) : Int := s.geti64 CMP_CP_NEXT_LO b

/-- The point is enabled as applied (R198). -/
def State.cpOn (s : State) (b : Nat) : Bool := s.getA CMP_CP_CTL_EN b == 1

/-- The edge of the sheet of repeat `r` of a point is queued (R181). -/
def State.edgeOf (s : State) (b r : Nat) : Option Int :=
  let p := s.cp b
  let n := (r + 2 ^ 32 - p.soff % 2 ^ 32) % 2 ^ 32
  ((s.tk p.trk).edges.find? fun e => e.1 == n).map (·.2)

/-- The repeat whose first line the point's next line is, when it is one: the job's first boundary, the next sheet, the next repeat (R181). -/
def State.boundary (s : State) (b : Nat) : Option Nat :=
  let p := s.cp b
  match p.start with
  | some r => some r
  | none =>
    let r := s.get CMP_CP_REPEAT b
    if p.sheet then
      if p.first + s.get GEK_LC_SHEET_LINES b ≤ s.nextLine b then some ((r + 1) % 2 ^ 32) else none
    else if p.rep = 0 then none
    else
      let k := ((p.cpos / 2 ^ 32 - p.org) / p.rep).toNat
      let n := (p.r0 + k) % 2 ^ 32
      if 0 < repDiff n r then some n else none

/-- A pending JOB sheaf that the point applies at repeat `r`. -/
def State.jobSheafAt (s : State) (b r : Nat) : Bool :=
  s.sheaves.any fun h => h.job.isSome && h.rep == r && bitN h.mask b

/-- The point has composed its job's last line (R432). -/
def State.pointEnds (s : State) (b : Nat) : Bool :=
  let p := s.cp b
  match s.boundary b with
  | some r => p.start.isNone && p.nrep != 0 && decide ((p.nrep : Int) ≤ repDiff r p.r0) && !(s.jobSheafAt b r)
  | none => false

/-- A point may compose now: it has a job that goes on, its line clock runs forward, its next line lies within the lead, and the edge of a
sheet it begins is queued (R22, R180, R181). -/
def State.canCompose (s : State) (b : Nat) : Bool :=
  let p := s.cp b
  p.job.isSome && p.endLine.isNone && s.on GEK_LC_CTL_EN b && !(s.on GEK_LC_STAT_BACK b) &&
    decide (s.nextLine b < s.line b + p.lead) &&
    (!p.sheet || match s.boundary b with | some r => s.pointEnds b || (s.edgeOf b r).isSome | none => true)

/-- CMP_CP_STAT brought up to date; LEAD_LOW rising is counted and reported (R20), a line the point may
compose at once counting as begun (log 31), CATCHUP shows a point behind its lead after it has reached it. -/
def State.refreshPoint (s : State) (b : Nat) : State :=
  let p := s.cp b
  if p.job.isNone ∨ !(s.cpOn b) ∨ p.endLine.isSome then s.set CMP_CP_STAT_STATE 0 b
  else
    let lead := s.nextLine b - s.line b
    let behind := decide (lead < p.lead)
    let st := s.get CMP_CP_STAT_STATE b
    let low := decide (lead + b2n (s.canCompose b) < 256)
    let s := s.cond (low && !(s.on CMP_CP_STAT_LEAD_LOW b)) fun s => (s.addSat CMP_CP_CNT_LEADLOW 1 b).raise EV_LEAD_LOW b
    let s := s.put CMP_CP_STAT_LEAD_LOW low b
    let s := s.put CMP_CP_STAT_CATCHUP ((st == 2 || s.on CMP_CP_STAT_CATCHUP b) && decide (lead + 1 < p.lead)) b
    let s := s.set CMP_CP_STAT_LEAD (clampI 0 65535 lead).toNat b
    s.set CMP_CP_STAT_STATE (if !behind then 2 else if s.canCompose b then 1 else 3) b

/-! ### Start of a job (R28, R199) -/

/-- A point takes the start job: it composes from the first boundary at or after the start position that its bar has not hit (R28). -/
def State.startPoint (s : State) (j : JobD) (b plane : Nat) : State :=
  let n := (s.get GEK_TRK_SHEET_NUM j.trk + 1) % 2 ^ 32
  let r := if j.sheet then j.r0 else s.nextRep b j.org j.r0 j.rep
  let p : Point := { Point.empty with
    job := some j.desc, r0 := j.r0, nrep := j.nrep, rep := j.rep, org := j.org, lead := j.lead, trk := j.trk, sheet := j.sheet,
    plane, soff := (j.r0 + 2 ^ 32 - n) % 2 ^ 32, start := some r }
  let s := s.setCp b p
  let x := if j.sheet then s.sheetFirst b n
    else s.firstAt b (j.org + repDiff r j.r0 * j.rep)
  let s := s.setCp b { p with cpos := s.compare b + (x - s.line b) * s.lcPitch b, cpitch := s.lcPitch b }
  let s := ((s.set64 CMP_CP_NEXT_LO x b).put CMP_CP_STAT_LEAD_LOW true b).put CMP_CP_STAT_CATCHUP false b
  let s := ((s.set CMP_CP_DROPPED 0 b).set CMP_CP_STAT_STATE 3 b).setLk b { s.lk b with bounds := [] }
  let s := s.each ((j.ports.filter fun q => q.2.1 == b).map (·.1))  fun q s =>
    let h := s.hp q
    let gap := match s.linkUp q, h.gap with | true, g => g | false, some (a, none) => some (a, none) | false, _ => some (x, none)
    let s := (s.setHp q { h with from_ := x, gap }).set64 TIL_PORT_DONE_LO x q
    { s with tilOut := smPut (fun _ => []) s.tilOut q [] }
  { s with tilPt := smPut (fun _ => TPoint.empty) s.tilPt b { TPoint.empty with begun := x } }

/-- HIF_JOB_STAT.RUNNING follows the points: a job that some point composes runs (R437). -/
def State.refreshRunning (s : State) : State :=
  s.each (List.range 8) fun j s =>
    s.put HIF_JOB_STAT_RUNNING (s.on HIF_JOB_STAT_VALID j &&
      (List.range 16).any fun b => (s.cp b).job == some (s.get64 HIF_JOB_DESC_LO j)) j

/-- The start job's points begin their first lead; bars are counted again for the job's end (R28, R432). -/
def State.startJobPoints (s : State) (j : JobD) : State :=
  let s : State := { s with feed := Feed.empty, jobEnded := [] }
  let r := match j.bars with
    | x :: _ => if j.sheet then j.r0 else s.nextRep x.2.2.1 j.org j.r0 j.rep
    | [] => j.r0
  let nin := match j.feed with | some f => f.2.2 | none => s.get CMP_FEED_CFG_NINST
  let s := s.set CMP_FEED_DONE (r * nin) 
  (s.each j.bars fun x s => (s.startPoint j x.2.2.1 x.2.1).refreshPoint x.2.2.1).refreshRunning

/-! ### Sheaves: submission (R194, R195, R201, R202) -/

/-- Items that write GEK line-clock fields act fire-side (R75, R197). -/
def isLcField (a : Nat) : Bool :=
  decide (0x42000 ≤ a) && decide (a < 0x42000 + 16 * 128) && decide (8 ≤ (a - 0x42000) % 128) && decide ((a - 0x42000) % 128 ≤ 20)

/-- An item that writes a PITCH (R195). -/
def writesPitch (i : Item) : Bool := i.kind == 1 && isLcField i.a && decide (16 ≤ (i.a - 0x42000) % 128)

/-- The job whose followers R201 judges: the last JOB sheaf pending, else the job the points compose, else the start job. -/
def State.lastJob (s : State) : Option JobD :=
  match (s.sheaves.reverse.filterMap (·.job)) with
  | d :: _ => s.jobAt d
  | [] =>
    match ((List.range 16).filterMap fun b => (s.cp b).job) with
    | d :: _ => s.jobAt d
    | [] => s.startJob

/-- Lists with the same elements. -/
def sameSet {α : Type} [DecidableEq α] (a b : List α) : Bool := a.all b.contains && b.all a.contains

/-- The shortest repeat or sheet of a job in lines, over its bars (R201). -/
def State.shortest (s : State) (j : JobD) : Nat :=
  let l := j.bars.map fun x =>
    if j.sheet then s.get GEK_LC_SHEET_LINES x.1
    else if s.lcPitch x.1 = 0 then 0 else j.rep * 2 ^ 32 / s.lcPitch x.1
  l.foldl min (l.headD 0)

/-- A following job obeys R201 after the job `o`. -/
def State.chains (s : State) (o j : JobD) : Bool :=
  o.lead == j.lead && o.trk == j.trk && o.sheet == j.sheet &&
    sameSet (o.bars.map fun x => (x.1, x.2.1, x.2.2.1)) (j.bars.map fun x => (x.1, x.2.1, x.2.2.1)) &&
    sameSet (o.ports.map fun x => (x.1, x.2.1, x.2.2.1)) (j.ports.map fun x => (x.1, x.2.1, x.2.2.1)) &&
    decide (j.lead < s.shortest j)

/-- A sheaf at a store address as the composer reads it (R194); none where R195 makes it bad. -/
def State.readSheaf (s : State) (a origin : Nat) (rep : Option Nat := none) : Option Sheaf :=
  let n := s.ldN (a + 4) 2
  let fl := s.ldN (a + 6) 2
  let desc := s.ldN (a + 0x10) 8
  let job := if bitN fl 0 then some desc else none
  let mask := s.ldN (a + 0x0C) 2
  let inJob := match (match job with | some d => if (s.jobSlot d).isSome then s.jobAt d else none | none => s.lastJob) with
    | some j => (List.range 16).all fun b => !(bitN mask b) || j.cps.contains b
    | none => false
  if a = 0 ∨ s.ldN a 4 ≠ 0x31464853 ∨ 256 < n ∨ mask = 0 ∨ inJob = false then none
  else some ⟨rep.getD (s.ldN (a + 8) 4), mask, job, s.items (a + 32) n, s.ldN (a + 0x18) 8, origin, 0, 0, false⟩

/-- A named point has already started the first line of the sheaf's repeat (R195, R198). -/
def State.sheafLate (s : State) (h : Sheaf) : Bool :=
  (List.range 16).any fun b =>
    bitN h.mask b && (s.cp b).job.isSome && (s.cp b).start.isNone && decide (0 ≤ repDiff (s.get CMP_CP_REPEAT b) h.rep)

/-- The status of a submission (R195, R201). -/
def State.sheafStatus (s : State) (h : Option Sheaf) (origin : Nat) : Nat :=
  match h with
  | none => 3
  | some h =>
    let chain := match h.job with
      | some d => (match s.lastJob, s.jobAt d with | some o, some j => s.chains o j | _, _ => false)
      | none => true
    if !chain then 5
    else if h.items.any writesPitch && s.sheaves.any fun g => decide (0 < repDiff g.rep h.rep) then 4
    else if s.sheafLate h then 2
    else if 4 ≤ s.sheaves.length ∨ (origin ≠ 2 ∧ 3 ≤ (s.sheaves.filter fun g => g.origin != 2).length) then 1
    else 0

/-- A sheaf placed by REPEAT, equal ones by acceptance (R196). -/
def placeSheaf (h : Sheaf) (l : List Sheaf) : List Sheaf :=
  match l with
  | [] => [h]
  | g :: r => if 0 < repDiff g.rep h.rep then h :: g :: r else g :: placeSheaf h r

/-- The first line of repeat `r` at the most upstream point, in repeat mode from the job composed, in sheet mode from the sheet before (R202). -/
def State.jobFirst (s : State) (r : Nat) : Option Int :=
  match s.lastJob with
  | none => none
  | some j =>
    match s.upstream ((j.bars.map (·.1)).filter fun b => s.on GEK_LC_CTL_EN b) with
    | none => none
    | some b =>
      let p := s.cp b
      if p.sheet then
        let n := (r + 2 ^ 32 - 1 + 2 ^ 32 - p.soff % 2 ^ 32) % 2 ^ 32
        if s.get GEK_LC_SHEET b ≠ 0 ∧ repDiff n (s.get GEK_LC_SHEET b) ≤ 0 then some (s.sheetFirst b n + s.get GEK_LC_SHEET_LINES b)
        else none
      else some (s.firstAt b (p.org + repDiff r p.r0 * p.rep))

/-- CMP_JOB_START filled once the first line is known (R202). -/
def State.jobStart (s : State) : State :=
  if s.on CMP_JOB_START_STAT_VALID then s
  else
    match s.sheaves.find? (fun h => h.job.isSome) with
    | none => s
    | some h =>
      match s.jobFirst h.rep with
      | some x => (s.set64 CMP_JOB_START_LO x).put CMP_JOB_START_STAT_VALID true
      | none => s

/-- A sheaf judged and, when accepted, pending (R195, R202); the status answered. -/
def State.submitH (s : State) (h : Option Sheaf) (origin : Nat) : State × Nat :=
  let st := s.sheafStatus h origin
  let s := s.set CMP_STAT_LAST st
  if st ≠ 0 then (s.addWrap CMP_SHEAF_CNT_REFUSED 1, st)
  else
    let s := s.addWrap CMP_SHEAF_CNT_ACCEPTED 1
    match h with
    | none => (s, st)
    | some h =>
      let first := if h.job.isSome then s.jobFirst h.rep else none
      let s := ({ s with sheaves := placeSheaf h s.sheaves } : State).refreshSheaves
      let s := s.cond h.job.isSome fun s =>
        let s := (s.set CMP_JOB_START_REP h.rep).put CMP_JOB_START_STAT_VALID first.isSome
        match first with
        | some x => s.set64 CMP_JOB_START_LO x
        | none => s
      (s, st)

/-- The submission of a sheaf that stands in the store. -/
def State.submit (s : State) (a origin : Nat) (rep : Option Nat := none) : State × Nat :=
  (s.saw a 32).submitH (s.readSheaf a origin rep) origin

/-- The host submits a sheaf on Q52: the oldest submission fetched from it is judged, and the status goes to Q54 before any report (R195, R426). -/
def execSheafSubmit (s : State) : Res :=
  match s.takeSub 52 with
  | none => .next s
  | some (x, s) =>
    let a := subF64 x 0x18
    let (s, st) := s.submit a 0
    .next (s.qSend 54 ⟨6, st, 0, 0, s.ldN (a + 0x18) 8, false, [BitVec.ofNat 32 (s.ldN (a + 8) 4)]⟩)

/-! ### Sheaves: application (R196 to R200) -/

/-- The point registers with RWS fields (R211). -/
def pointRegs (b : Nat) : List Nat := CMP_CP_CTL.addr b :: (List.range 15).map fun i => CMP_CP_OX.addr b + 4 * i

/-- The tiller registers with RWS fields (R254). -/
def tilRegs (t : Nat) : List Nat := if t < 12 then (List.range 20).map fun i => TIL_TL_CTL.addr t + 4 * i else []

/-- The global registers with RWS fields (R199, R211, R327). -/
def globalRegs : List Nat := [CMP_FEED_BASE_LO.addr, CMP_FEED_BASE_HI.addr, CMP_FEED_CFG.addr]

/-- The line-clock registers with RWS fields (R75). -/
def lcRegs (b : Nat) : List Nat := (List.range 4).map fun i => GEK_LC_OFFSET_LO.addr b + 4 * i

/-- The bits of a register that hold RWS fields. -/
def rwsMask (a : Nat) : Word := maskAt (fun f => f.ty == .RWS) a

/-- A REG item as an item acts: shadow and, but for a fire-side field, the applied value take the RWS bits that the mask covers (R197, R199);
a fire-side write of another bar's line clock joins the point's fire-side shadow. None: it cannot act. -/
def State.regItem (s : State) (c : Nat) (i : Item) : Option State :=
  let m := rwsMask i.a &&& BitVec.ofNat 32 (i.b / 2 ^ 32)
  if rwsMask i.a = 0 then none
  else
    let v := BitVec.ofNat 32 i.b
    let s := s.wr i.a ((s.rd i.a &&& ~~~m) ||| (v &&& m))
    if isLcField i.a then
      if (lcRegs c).contains i.a then some s
      else
        let p := s.cp c
        some (s.setCp c { p with fire := p.fire ++ [(s.nextLine c, i.a, v.toNat, m.toNat)] })
    else some (s.putAp i.a ((s.ap i.a &&& ~~~m) ||| (v &&& m)))

/-- A layer slot of a point filled from a descriptor address, 0 emptying it; none: the descriptor is bad (R183, R197, R220). -/
def State.layerItem (s : State) (c n a : Nat) : Option State :=
  let p := s.cp c
  if a = 0 then some (s.setCp c (p.setLayer n none))
  else
    match parseLayer a (s.ld a 96) with
    | none => none
    | some d =>
      if s.layerPoison a (fun d => d.chans p.plane) || s.badHdrs d (d.chans p.plane) != 0 then none
      else some (s.setCp c (p.setLayer n (some d)))

/-- What the read of a layer descriptor counts: bad Husk headers (R220), poisoned bursts (R206). -/
def State.layerSeen (s : State) (c a : Nat) : State :=
  let s := s.saw a 96
  if s.layerPoison a (fun d => d.chans (s.cp c).plane) then
    s.raiseLim EV_CMP_POISON c c ms100 (rangeArgs [c] (s.linePos c (s.nextLine c)) (s.linePos c (s.nextLine c + 1)))
  else
    match parseLayer a (s.ld a 96) with
    | some d => s.addSat HSK_HDR_BAD (s.badHdrs d (d.chans (s.cp c).plane))
    | none => s

/-- One item at its moment (R197); `n` is its position. -/
def State.applyItem (s : State) (c n : Nat) (i : Item) : State :=
  let r := if i.kind = 1 then s.regItem c i else if i.kind = 2 ∧ i.slot < 32 then (s.layerSeen c i.b).layerItem c i.slot i.b else none
  let s := if i.kind = 2 ∧ i.b ≠ 0 then s.layerSeen c i.b else s
  match r with
  | some t => t
  | none => s.raise EV_SHEAF_ITEM_BAD c [n]

/-- Whether an item acts at point `c`; `lead`: `c` is the first named point to apply (R194). -/
def itemAt (c : Nat) (lead : Bool) (i : Item) : Bool := i.point == c || (i.point == 0xFF && (i.kind != 1 || lead))

/-- Items in order, from position `n`. -/
def State.applyItems (s : State) (c n : Nat) (lead : Bool) (l : List Item) : State :=
  match l with
  | [] => s
  | i :: r => (if itemAt c lead i then s.applyItem c n i else s).applyItems c (n + 1) lead r

/-- Registers of a job's composer section at a point, as (address, value) (R430); an absent section leaves its registers. -/
def jobRegs (j : JobD) (c : Nat) : List (Nat × Nat) :=
  (match j.points.find? (fun p => p.point == c) with
    | some p => [(CMP_CP_OX.addr c, p.ox), (CMP_CP_OY.addr c, p.oy), (CMP_CP_SX.addr c, p.sx), (CMP_CP_SY.addr c, p.sy), (CMP_CP_K.addr c, p.k),
        (CMP_CP_TONE_LO.addr c, p.tone), (CMP_CP_TONE_HI.addr c, p.tone / 2 ^ 32), (CMP_CP_ZONE_LO.addr c, p.zone),
        (CMP_CP_ZONE_HI.addr c, p.zone / 2 ^ 32), (CMP_CP_NZONE.addr c, p.nz % 128)]
    | none => []) ++
  (match j.feed with
    | some (a, d, n) => [(CMP_FEED_BASE_LO.addr, a), (CMP_FEED_BASE_HI.addr, a / 2 ^ 32), (CMP_FEED_CFG.addr, d + 65536 * n)]
    | none => [])

/-- The composer section of a job taken at a point: registers, REGS items that name RWS registers, layer table; a layer that cannot be read
leaves its slot empty (R197, R200, R430). -/
def State.applyJob (s : State) (j : JobD) (c : Nat) (lead : Bool) : State :=
  let s := s.each (jobRegs j c) fun (a, v) s => (s.wr a (BitVec.ofNat 32 v)).putAp a (BitVec.ofNat 32 v)
  let s := s.setCp c { s.cp c with layers := [] }
  let s := s.each (List.range 32) fun n s =>
    let a := j.layers.getD n 0
    if a = 0 then s
    else
      let s := s.layerSeen c a
      match s.layerItem c n a with
      | some t => t
      | none => s.raise EV_SHEAF_ITEM_BAD c [n]
  s.applyItems c 0 lead (j.regs.filter fun i => rwsMask i.a != 0 && !(decide (0x6C0000 ≤ i.a)))

/-- The point's state replaced by a JOB sheaf's job from repeat `r` (R200). -/
def State.changeJob (s : State) (c desc r : Nat) (lead : Bool) : State :=
  match s.jobAt desc with
  | none => s.raise EV_SHEAF_ITEM_BAD c [0]
  | some j =>
    let p := s.cp c
    let org := p.org + repDiff r p.r0 * p.rep
    let s := s.setCp c { p with job := some desc, r0 := r, nrep := j.nrep, rep := j.rep, org }
    let s := s.set CMP_CP_DROPPED 0 c
    (s.applyJob j c lead).raise EV_JOB_CHANGE c (c :: w64 (s.nextLine c))

/-- One pending sheaf applied at point `c` (R196, R197). -/
def State.applySheaf (s : State) (c : Nat) (h : Sheaf) : State :=
  let lead := h.applied == 0
  let s := match h.job with | some d => s.changeJob c d h.rep lead | none => s
  (s.applyItems c 0 lead h.items).set CMP_CP_APPLIED h.rep c

/-- A tiller table read from the store; poison keeps the table held and is reported (R248). -/
def State.readTable (s : State) (t which addr n : Nat) (old : List Nat) : State × List Nat :=
  if addr = 0 then (s, [])
  else if s.bad addr n then
    (((s.saw addr n).addSat TIL_TL_STAT_TBL_BAD 1 t).raise EV_TIL_TABLE_BAD t [t, which], old)
  else (s, s.ld addr n)

/-- The tiller's tables read again: those whose address or size registers are in `names` (R248). -/
def State.readTables (s : State) (t : Nat) (names : List Nat) : State :=
  let hit := fun (l : List Nat) => l.any names.contains
  let tb := smGet (fun _ => TilTab.empty) s.tilTab t
  let nz := TIL_TL_NOISE_LO.addr t
  let mx := TIL_TL_MATRIX_LO.addr t
  let st := TIL_TL_STITCH_LO.addr t
  let (s, a) := if hit [nz, nz + 4] then s.readTable t 1 (s.getA64 TIL_TL_NOISE_LO t) 4096 tb.noise else (s, tb.noise)
  let (s, b) := if hit [mx, mx + 4, mx + 8] then
      s.readTable t 2 (s.getA64 TIL_TL_MATRIX_LO t) (2 ^ (s.getA TIL_TL_MATRIX_CFG_TWL t + s.getA TIL_TL_MATRIX_CFG_THL t)) tb.matrix
    else (s, tb.matrix)
  let (s, c) := if hit [st, st + 4] then s.readTable t 0 (s.getA64 TIL_TL_STITCH_LO t) 2048 tb.stitch else (s, tb.stitch)
  { s with tilTab := smPut (fun _ => TilTab.empty) s.tilTab t ⟨a, b, c⟩ }

/-- The settings of tiller `t` as applied (R230). -/
def State.tilSet (s : State) (t : Nat) : TSet :=
  { matrixMode := s.getA TIL_TL_CTL_MODE t == 1, weakMax := s.getA TIL_TL_CTL_WEAKMAX t, maxRun := s.getA TIL_TL_CTL_MAXRUN t,
    nlev := s.getA TIL_TL_NLEV_NLEV t,
    levels := 0 :: (List.range 7).map fun i => s.getA TIL_TL_LEVEL_LEVEL t i,
    codes := 0 :: (List.range 7).map fun i => s.getA TIL_TL_LEVEL_CODE t i,
    kernel := (List.range 7).map fun k =>
      if k < 4 then s.getA (TIL_TL_KERNEL0_W0.sh (8 * k)) t else s.getA (TIL_TL_KERNEL1_W0.sh (8 * (k - 4))) t,
    errMax := s.getA TIL_TL_ERRMAX t, amp := s.getA TIL_TL_NOISE_CFG_AMP t, phx := s.getA TIL_TL_NOISE_CFG_PHX t,
    phy := s.getA TIL_TL_NOISE_CFG_PHY t, twl := s.getA TIL_TL_MATRIX_CFG_TWL t, thl := s.getA TIL_TL_MATRIX_CFG_THL t,
    tab := smGet (fun _ => TilTab.empty) s.tilTab t }

/-- The tone curve and zone table of a point read again where named (R188, R196). -/
def State.readCurves (s : State) (c : Nat) (names : List Nat) : State :=
  let hit := fun (l : List Nat) => l.any names.contains
  let t := CMP_CP_TONE_LO.addr c
  let s := if hit [t, t + 4] then
      let a := s.getA64 CMP_CP_TONE_LO c
      let l := if a = 0 then [] else (entries 2 (s.ld a 2050)).map leNum
      (if a = 0 then s else s.saw a 2050).setCp c { s.cp c with tone := l }
    else s
  if hit [t + 8, t + 12, t + 16] then
    let a := s.getA64 CMP_CP_ZONE_LO c
    let n := s.getA CMP_CP_NZONE c
    let l := if a = 0 then [] else (entries 64 (s.ld a (64 * n))).map fun z => ((entries 2 z).take 17).map fun e => sx 16 (leNum e)
    (if a = 0 then s else s.saw a (64 * n)).setCp c { s.cp c with zone := l }
  else s

/-- Every shadow the point takes goes in force (R199), and with it the point's own feed, tables, curves, pitch and fire-side shadow; `names`:
registers that items named, `all`: every table is read. -/
def State.takeShadows (s : State) (c : Nat) (names : List Nat) (all : Bool) : State :=
  let t := s.get CMP_CP_CTL_PS c
  let l := pointRegs c ++ tilRegs t ++ globalRegs
  let diff := l.filter fun a => s.ap a != s.rd a
  let wasOn := s.cpOn c
  let ry := s.getA CMP_CP_PROOF_CFG c
  let s := s.each l fun a s => s.putAp a (s.rd a)
  let names := if all then l else names ++ diff
  let s := (s.readTables t names).readCurves c names
  let p := s.cp c
  let pitch := s.get64 GEK_LC_PITCH_FRAC c
  let x := s.nextLine c
  let s := s.setCp c { p with
    tset := s.tilSet t, fcfg := (s.getA64 CMP_FEED_BASE_LO, s.getA CMP_FEED_CFG_DEPTH, s.getA CMP_FEED_CFG_NINST), cpitch := pitch,
    proof := if s.getA CMP_CP_PROOF_CFG c = ry then p.proof else none,
    fire := p.fire ++ (lcRegs c).map fun a => (x, a, (s.rd a).toNat, 2 ^ 32 - 1) }
  if !wasOn && s.cpOn c then { s with tilPt := smPut (fun _ => TPoint.empty) s.tilPt c { TPoint.empty with begun := x } } else s

/-! ### Line-buffer pool (R203 to R205) -/

/-- CMP_POOL follows the points' holdings. -/
def State.refreshPool (s : State) : State :=
  let held := ((List.range 16).map fun b => s.get CMP_CP_POOL_HELD b).foldl (· + ·) 0
  (s.set CMP_POOL_FREE (16384 - held)).set CMP_POOL_PEAK (max (s.get CMP_POOL_PEAK) held)

/-- Grants to the listed layer slots of a point out of `free` KiB: what stays free, and the slots that do not fit (R204). -/
def State.grant (s : State) (c : Nat) (l : List Nat) (free : Nat) : Nat × List Nat :=
  match l with
  | [] => (free, [])
  | n :: r =>
    match (s.cp c).layer n with
    | none => s.grant c r free
    | some d =>
      let k := layerNeed (s.geo c) (s.cp c).plane d
      if k ≤ free then s.grant c r (free - k)
      else
        let (f, x) := s.grant c r free
        (f, n :: x)

/-- The layer slots of a point in the order of R204. -/
def State.grantOrder (s : State) (c : Nat) : List Nat :=
  let cod := fun n => match (s.cp c).layer n with | some d => d.coding | none => false
  (List.range 32).filter cod ++ (List.range 32).filter fun n => !(cod n)

/-- The web range of a CODING layer in the repeat that begins at the point's next line (R205). -/
def State.codeRange (s : State) (c : Nat) (d : LayerD) (r : Nat) : Int × Int :=
  let p := s.cp c
  let x := s.nextLine c
  let at_ := fun (n : Int) => (p.cpos + n * p.cpitch) / 2 ^ 32
  let stop := if p.sheet then at_ (s.get GEK_LC_SHEET_LINES c)
    else if p.rep = 0 ∨ p.cpitch = 0 then 2 ^ 63 - 1
    else
      let gap := (p.org + (repDiff r p.r0 + 1) * p.rep) * 2 ^ 32 - p.cpos
      at_ ((gap + p.cpitch - 1) / p.cpitch)
  let _ := x
  (min (at_ (max 0 d.y0)) stop, min (at_ (max 0 (d.y0 + (d.ny - 1 : Int) * d.dy + d.eh))) stop)

/-- The point releases what it holds and grants afresh (R204); newly dropped layers are reported, and dropped CODING layers each repeat
(R205); dropped layers that fit come back. Answers whether a layer was newly dropped. -/
def State.regrant (s : State) (c r : Nat) : State × Bool :=
  let old := s.get CMP_CP_DROPPED c
  let s := (s.set CMP_CP_POOL_HELD 0 c).refreshPool
  let free := s.get CMP_POOL_FREE
  let (left, drop) := s.grant c (s.grantOrder c) free
  let s := (s.set CMP_CP_POOL_HELD (free - left) c).refreshPool
  let mask := drop.foldl (fun m n => m + 2 ^ n) 0
  let s := s.set CMP_CP_DROPPED mask c
  let s := s.each ((List.range 32).filter fun n => bitN old n && !(bitN mask n) && ((s.cp c).layer n).isSome) fun _ s =>
    s.raise EV_LAYER_FIT_CLEAR c
  let fresh := (List.range 32).filter fun n => bitN mask n && !(bitN old n)
  let s := s.each fresh fun n s => (s.addSat CMP_CP_CNT_FIT 1 c).raise EV_LAYER_FIT c [c, n, r]
  let s := s.each ((List.range 32).filter fun n => bitN mask n) fun n s =>
    match (s.cp c).layer n with
    | some d => s.cond d.coding fun s =>
        let (a, z) := s.codeRange c d r
        (s.raise EV_CODE_MISSING c (rangeArgs [c] a z)).reject 7 c (s.get GEK_LC_CTL_TRK c) a z
    | none => s
  (s, !fresh.isEmpty)

/-! ### Retirement (R198) -/

/-- A zone sheaf of the loop has retired: each channel in it names the new buffer in CUR and the REPEAT in APPLIED (R322). -/
def State.loopRetired (s : State) (rep : Nat) : State :=
  let s := s.each s.chlPend fun ch s =>
    let buf := s.get64 CHL_CH_BUF_LO ch
    let s := (s.set64 CHL_CH_CUR_LO (if s.get64 CHL_CH_CUR_LO ch = buf then buf + 4096 else buf) ch).set CHL_CH_APPLIED rep ch
    s.cond (s.get CHL_CH_STAT_STATE ch == 2) fun s => s.set CHL_CH_STAT_STATE 3 ch
  ({ s with chlPend := [] } : State).put CHL_SHEAF_PENDING false

/-- Sheaves whose named points have all applied them or are skipped retire, each with a report on Q54 (R198, R426). -/
def State.retireSheaves (s : State) : State :=
  let off := (List.range 16).foldl (fun m b => if s.on GEK_LC_CTL_EN b then m else m + 2 ^ b) 0
  let l := s.sheaves.map fun h => { h with skipped := h.mask &&& off &&& (0xFFFF - h.applied) }
  let gone := l.filter fun h => (h.applied ||| h.skipped) == h.mask
  let s := ({ s with sheaves := l.filter fun h => (h.applied ||| h.skipped) != h.mask } : State).each gone fun h s =>
    (s.cond (h.origin == 2) fun s => s.loopRetired h.rep).qSend 54 (reportEntry h 0 h.applied h.skipped)
  s.refreshSheaves

/-! ### The feed (R189 to R191) -/

/-- A point reads a FEED layer: it has a channel there, or its plane is in KNOCK_PLANES (R190). -/
def isReader (plane : Nat) (d : LayerD) : Bool := d.feed && ((d.chan plane).isSome || (d.knock && bitN d.kplanes plane))

/-- Instance row `iy` of a layer lies on line `l` of the repeat at a point. -/
def State.rowOn (s : State) (c : Nat) (d : LayerD) (l : Int) (iy : Nat) : Bool :=
  let w := s.width (s.cp c).plane
  let g := s.geo c
  let v0 := (placeOf d g 0 l).2
  let v1 := (placeOf d g (w - 1 : Int) l).2
  let y := (d.y0 + (iy : Int) * d.dy) * 2 ^ 30
  decide (0 ≤ l) && decide (y ≤ max v0 v1) && decide (min v0 v1 < y + d.eh * 2 ^ 30)

/-- A record is missing for instance `i` of repeat `r` (R190, R220). -/
def State.recBad (s : State) (c : Nat) (d : LayerD) (r i : Nat) : Bool :=
  let p := s.cp c
  let b := s.feedRec p.fcfg (recNo p.fcfg r i)
  let w := fieldAt b 0x1C 2
  let h := fieldAt b 0x1E 2
  let hdr := fun ch => s.huskHdr (fieldAt b 8 8 + ch * fieldAt b 0x10 8)
  b.isEmpty || fieldAt b 0 4 != r || fieldAt b 4 2 != i || !(bitN (fieldAt b 6 2) 0) || fieldAt b 0x3C 4 != crc32 (b.take 0x3C) ||
    decide (d.w < w) || decide (d.h < h) ||
    (bitN (fieldAt b 6 2) 1 && (d.chans p.plane).any fun ch => !(hdr ch).good || (hdr ch).w != w || (hdr ch).h != h)

/-- The web range of instance row `iy` from the line being composed: its first line's position to the last's plus PITCH (R190). -/
def State.instRange (s : State) (c : Nat) (d : LayerD) : Int × Int :=
  let p := s.cp c
  let n := if d.elastic then cdiv (d.eh * 2 ^ 30) (max 1 (s.getA CMP_CP_SY c)) else d.eh
  (p.cpos / 2 ^ 32, (p.cpos + n * p.cpitch) / 2 ^ 32)

/-- A span of lines composed without a layer or an instance, for the bar's STALL as it fires them (R190, R205). -/
def addSpan (l : List (Nat × Int × Int)) (cause : Nat) (x y : Int) : List (Nat × Int × Int) :=
  match l with
  | (k, a, z) :: r => if k = cause ∧ x ≤ z then (k, a, max z y) :: r else (k, a, z) :: addSpan r cause x y
  | [] => [(cause, x, y)]

/-- The check of record of instance `i` at its first line (R190). -/
def State.feedCheck (s : State) (c : Nat) (d : LayerD) (r i : Nat) : State :=
  let p := s.cp c
  let n := recNo p.fcfg r i
  let marked := s.feed.missing.contains n
  let bad := s.recBad c d r i
  let (a, z) := s.instRange c d
  let s := s.cond (!marked && bad) fun s =>
    let s : State := { s with feed := { s.feed with missing := n :: s.feed.missing } }
    (s.addSat CMP_FEED_MISS 1).raise EV_CODE_MISSING c (rangeArgs [c] a z)
  if marked || bad then
    let x := s.nextLine c
    let s := s.reject 7 c (s.get GEK_LC_CTL_TRK c) a z
    s.setCp c { s.cp c with spans := addSpan (s.cp c).spans 2 x (x + if d.elastic then cdiv (d.eh * 2 ^ 30) (max 1 (s.getA CMP_CP_SY c)) else d.eh) }
  else s

/-- The checks due at line `l` of repeat `r` at a point. -/
def State.feedChecks (s : State) (c r : Nat) (l : Int) : State :=
  s.each ((s.liveLayers c).filter (isReader (s.cp c).plane)) fun d s =>
    s.each ((List.range d.ny).filter fun iy => s.rowOn c d l iy && !(s.rowOn c d (l - 1) iy)) fun iy s =>
      s.each (List.range d.nx) fun ix s => s.feedCheck c d r (d.inst0 + iy * d.nx + ix)

/-- Records whose instance a point has passed. -/
def passRec (l : List (Nat × Nat)) (n c : Nat) : List (Nat × Nat) :=
  match l with
  | [] => [(n, 2 ^ c)]
  | (m, k) :: r => if m = n then (m, if bitN k c then k else k + 2 ^ c) :: r else (m, k) :: passRec r n c

/-- Every reader of record `n` has passed it, and its repeat has begun somewhere (R191). -/
def State.recDone (s : State) (n : Nat) : Bool :=
  let pts := (List.range 16).filter fun c => (s.cp c).job.isSome && s.cpOn c && s.on GEK_LC_CTL_EN c
  let nin := s.getA CMP_FEED_CFG_NINST
  let r := if nin = 0 then 0 else n / nin
  let i := if nin = 0 then 0 else n % nin
  let reads := fun c => (List.range 32).any fun k => match (s.cp c).layer k with
    | some d => isReader (s.cp c).plane d && decide (d.inst0 ≤ i) && decide (i < d.inst0 + d.nx * d.ny)
    | none => false
  let passed := match s.feed.passed.find? (fun x => x.1 == n) with | some x => x.2 | none => 0
  nin != 0 && pts.any (fun c => (s.cp c).start.isNone && decide (0 ≤ repDiff (s.get CMP_CP_REPEAT c) r)) &&
    pts.all fun c => !(reads c) || bitN passed c

/-- CMP_FEED_DONE moves over released records, whose marks go (R191); `fuel` bounds the records. -/
def State.feedRelease (s : State) (fuel : Nat) : State :=
  match fuel with
  | 0 => s
  | k + 1 =>
    let n := s.get CMP_FEED_DONE
    if s.recDone n then
      let f := s.feed
      let s : State := { s with feed := ⟨f.missing.filter (· != n), f.passed.filter fun x => x.1 != n⟩ }
      (s.addWrap CMP_FEED_DONE 1).feedRelease k
    else s

/-- Instances whose last line was line `l` of repeat `r` are passed by the point; a dropped layer's count too (R191). `ends`: every instance
of the repeat is passed. -/
def State.feedPass (s : State) (c r : Nat) (l : Int) (ends : Bool) : State :=
  let p := s.cp c
  let ds := (List.range 32).filterMap fun n => match p.layer n with | some d => if isReader p.plane d then some d else none | none => none
  let recs := ds.flatMap fun d => ((List.range d.ny).filter fun iy => ends || (s.rowOn c d l iy && !(s.rowOn c d (l + 1) iy))).flatMap fun iy =>
    (List.range d.nx).map fun ix => recNo p.fcfg r (d.inst0 + iy * d.nx + ix)
  let s : State := { s with feed := { s.feed with passed := recs.foldl (fun l n =>
    if 0 ≤ repDiff n (s.get CMP_FEED_DONE) then passRec l n c else l) s.feed.passed } }
  if ds.isEmpty then s else s.feedRelease 1024

/-! ### The proof tap (R192, R193) -/

/-- Sums of blocks of `rx` values. -/
def blockSums (rx : Nat) (px : List Nat) : List Nat :=
  (List.range (cdiv px.length rx)).map fun i => ((px.drop (rx * i)).take rx).foldl (· + ·) 0

/-- A proof pixel of a block's sum over `n` values (R192); a mean whose reduction passes 8 bits is a free value. -/
def proofPix (fresh sum n : Nat) : Nat :=
  let m := if n = 0 then 0 else (2 * sum + n) / (2 * n)
  if (m + 8) / 16 < 256 then (m + 8) / 16 else Config.free 1 fresh % 256

/-- A composed line joins the proof line, which is written with its tag when its last line is composed (R192, R193). -/
def State.proofLine (s : State) (c : Nat) (x : Int) (px : List Nat) (flags : Nat) : State :=
  let depth := s.getA CMP_CP_PROOF_CFG_PDEPTH c
  let rx := 2 ^ s.getA CMP_CP_PROOF_CFG_RXL c
  let ry := 2 ^ s.getA CMP_CP_PROOF_CFG_RYL c
  let k := x / (ry : Int)
  let p := s.cp c
  let (sums, n, first, rep, fl) := match p.proof with
    | some (a, n, f, r, g) => if f / (ry : Int) = k then (List.zipWith (· + ·) a (blockSums rx px), n + 1, f, r, g ||| flags)
        else (blockSums rx px, 1, x, s.get CMP_CP_REPEAT c, flags)
    | none => (blockSums rx px, 1, x, s.get CMP_CP_REPEAT c, flags)
  if x % (ry : Int) ≠ (ry : Int) - 1 then s.setCp c { p with proof := some (sums, n, first, rep, fl) }
  else
    let s := s.setCp c { p with proof := none }
    if depth = 0 then s
    else
      let slot := (k % (depth : Int)).toNat
      let bytes := (List.range sums.length).map fun i => proofPix s.fresh (sums.getD i 0) (n * (min px.length (rx * (i + 1)) - rx * i))
      let s : State := { s with fresh := s.fresh + 1 }
      let s := s.st (s.getA64 CMP_CP_PROOF_LO c + slot * (cdiv sums.length 64 * 64)) bytes
      let s := s.st (s.getA64 CMP_CP_PTAG_LO c + 16 * slot) (bytesOf 8 (ux 64 first) ++ bytesOf 4 rep ++ bytesOf 4 fl)
      s.addWrap CMP_CP_PROOF_WR 1 c

/-! ### One line (R180 to R193, R206, R223) -/

/-- The point's position reaches the first line of repeat `r`: sheaves that name it, shadows, pool, and the boundary given to the line
clock (R181, R196 to R199, R204). -/
def State.atBoundary (s : State) (c r : Nat) : State :=
  let p := s.cp c
  let x := if p.sheet && p.start.isSome then s.sheetFirst c ((r + 2 ^ 32 - p.soff % 2 ^ 32) % 2 ^ 32) else s.nextLine c
  let prev := s.get CMP_CP_REPEAT c
  let lead := p.start.isSome
  let s := s.cond (!lead && s.cpOn c) fun s => s.feedPass c prev 0 true
  let s := s.set64 CMP_CP_NEXT_LO x c
  let cpos := match p.sheet, s.edgeOf c r with
    | true, some e => (e + s.get GEK_LC_SHEET_TOP c) * 2 ^ 32
    | _, _ => p.cpos
  let s := (s.setCp c { p with start := none, first := x, cpos }).set CMP_CP_REPEAT r c
  let s := s.setLk c { s.lk c with bounds := (s.lk c).bounds ++ [(x, r)] }
  let hs := s.sheaves.filter fun h => bitN h.mask c && !(bitN h.applied c) && (h.rep == r ||
    (!lead && decide (0 < repDiff h.rep prev) && decide (repDiff h.rep r ≤ 0)))
  let s := match lead, p.job with
    | true, some d => (match s.jobAt d with | some j => s.applyJob j c (j.cps.head? == some c) | none => s)
    | _, _ => s
  let s := s.each hs fun h s => s.applySheaf c h
  let names := hs.flatMap fun h => (h.items.filter fun i => i.kind == 1 && itemAt c (h.applied == 0) i).map (·.a)
  let s := if lead || !hs.isEmpty || !(s.cpOn c) then s.takeShadows c names (lead || hs.any fun h => h.job.isSome) else s
  let regrant := lead || !hs.isEmpty || s.get CMP_CP_DROPPED c != 0
  let (s, fit) := if regrant && s.cpOn c then s.regrant c r else (s, false)
  let took := hs.map fun h => (h.rep, h.tag)
  let mark := fun (h : Sheaf) =>
    if took.contains (h.rep, h.tag) && bitN h.mask c && !(bitN h.applied c) then { h with applied := h.applied + 2 ^ c, fit := h.fit || fit } else h
  let s : State := { s with sheaves := s.sheaves.map mark }
  s.retireSheaves.refreshRunning

/-- The spans that the line being composed belongs to: layers dropped (cause 1). -/
def State.dropSpan (s : State) (c : Nat) (x : Int) : State :=
  if s.get CMP_CP_DROPPED c = 0 then s else s.setCp c { s.cp c with spans := addSpan (s.cp c).spans 1 x (x + 1) }

/-- The source errors met by line `l` of repeat `r` (R206, R223); answers whether the line used poisoned or corrupt samples. -/
def State.sourceErrors (s : State) (c r : Nat) (l x : Int) : State × Bool :=
  let res := (List.range 32).filterMap fun k =>
    if bitN (s.get CMP_CP_DROPPED c) k then none
    else ((s.cp c).layer k).map fun d => (k, ((s.newRows c r l d).map s.rowFaults).foldl (fun a b => (a.1 + b.1, a.2 + b.2)) (0, 0))
  let use := (s.liveLayers c).any fun d => (s.rowsOf c r l d).any fun row => s.rowFaults row != (0, 0)
  let a := s.linePos c x
  let z := s.linePos c (x + 1)
  let s := s.each res fun (k, n, m) s =>
    let s := s.cond (n != 0) fun s => (s.addSat CMP_POISON_CNT n).raiseLim EV_CMP_POISON c c ms100 (rangeArgs [c] a z)
    s.cond (m != 0) fun s => (s.addSat HSK_SEG_BAD_CNT m).raiseLim EV_HSK_SEG_BAD c c ms100 (rangeArgs [c, k] a z)
  let code := (s.liveLayers c).any fun d => d.coding && (s.rowsOf c r l d).any fun row => s.rowFaults row != (0, 0)
  (s.cond code fun s => (s.raise EV_CODE_MISSING c (rangeArgs [c] a z)).rejLines 7 c x (x + 1), use)

/-- One line composed at an enabled point: feed checks, pixels, proof, and the line handed to the tiller. -/
def State.composeAt (s : State) (c : Nat) : State :=
  let x := s.nextLine c
  let r := s.get CMP_CP_REPEAT c
  let l := x - (s.cp c).first
  let s := (s.feedChecks c r l).dropSpan c x
  let (s, bad) := s.sourceErrors c r l x
  let miss := (s.cp c).spans.any fun (k, a, z) => k == 2 && decide (a ≤ x) && decide (x < z)
  let px := s.linePix c r l
  let fl := b2n (s.get CMP_CP_DROPPED c != 0 || miss) + 2 * b2n bad + 4 * b2n (!(s.cp c).zone.isEmpty)
  let s := s.proofLine c x px fl
  let p := s.cp c
  (s.setCp c { p with lines := p.lines ++ [⟨x, r, s.line c, px, p.tset⟩] }).feedPass c r l false

/-- The press enters READY from IDLE when every point of the job has composed its first lead (R27, R28): no line below LINE + LEAD remains (log 32). -/
def State.leadDone (s : State) : State :=
  match s.tr with
  | some t =>
    let js := (List.range 16).filter fun b => (s.cp b).job.isSome
    if t.target = 2 ∧ s.mode = 1 ∧ js.all (fun b => (s.cp b).endLine.isSome || decide (s.line b + (s.cp b).lead ≤ s.nextLine b)) then
      (s.latchAll 61).finishTr t
    else s
  | none => s

/-- The composer works: in READY, PRINT, HOLD and SHADOW, in the course of IDLE to READY, and in SERVICE (R26, R27). -/
def State.composing (s : State) : Bool :=
  s.mode == 2 || s.mode == 3 || s.mode == 4 || s.mode == 5 || s.mode == 6 ||
    (s.mode == 1 && match s.tr with | some t => t.target == 2 | none => false)

/-- A composition point composes its next line, or, disabled, moves its position over it (R180, R198); at the job's end it stops (R432). -/
def execComposeLine (b : Bar) (s : State) : Res :=
  if s.composing && s.canCompose b then
    if s.pointEnds b then
      .next ((s.setCp b { s.cp b with endLine := some (s.nextLine b) }).refreshPoint b).leadDone
    else
      let s := match s.boundary b with | some r => s.atBoundary b r | none => s
      let s := if s.cpOn b then s.composeAt b else s
      let p := s.cp b
      let s := (s.setCp b { p with cpos := p.cpos + p.cpitch }).set64 CMP_CP_NEXT_LO (s.nextLine b + 1) b
      .next (s.refreshPoint b).leadDone
  else .next s

/-! ### Host writes and reads (R199, R211) -/

/-- A host write to a register of RWS fields goes to the shadow (R199); a line clock that stands takes its own at once (R75). -/
def execRwsWrite (a : Nat) (v : Word) (s : State) : Res := s.heard <|
  let s := if rwsMask a = 0 then s else s.hostWrite a v
  if isLcField a && !(s.on GEK_LC_CTL_EN ((a - 0x42000) / 128)) then .next (s.putAp a (s.rd a)) else .next s

/-- CMP_CP_CTL written: PS, CSTEP and CPHASE only in IDLE and SERVICE, and under level 1 not for a PS above 7, EN to its shadow (R211, R491). -/
def execCpCtlWrite (b : Bar) (v : Word) (s : State) : Res := s.heard <|
  let old := s.rd (CMP_CP_CTL.addr b)
  let free := (s.mode == 1 || s.mode == 6) && !(s.get GLB_COMPAT_LEVEL == 1 && decide (7 < getBits v 1 4))
  let x := if free then v else putBits old 0 1 (getBits v 0 1)
  .next (s.hostWrite (CMP_CP_CTL.addr b) x)

/-- A host read of CMP_POOL clears PEAK (R211). -/
def execPoolPeakRead (s : State) : Res := s.heard <| .next (s.set CMP_POOL_PEAK 0)

/-! ### Display (R207 to R209) -/

/-- A display sheaf submitted on Q53: at most four wait, none is late; the status goes to Q55 (R208, R426). -/
def execDisplaySheafSubmit (s : State) : Res :=
  match s.takeSub 53 with
  | none => .next s
  | some (x, s) =>
    let a := subF64 x 0x18
    let n := s.ldN (a + 4) 2
    let rep := s.ldN (a + 8) 4
    let tag := s.ldN (a + 0x18) 8
    let bad := s.ldN a 4 != 0x31464853 || decide (256 < n) || !(bitN (s.ldN (a + 6) 2) 1)
    let st := if bad then 3 else if 4 ≤ s.dsheaves.length then 1 else 0
    let s := if st = 0 then { s with dsheaves := placeSheaf ⟨rep, 0, none, s.items (a + 32) n, tag, 0, 0, 0, false⟩ s.dsheaves } else s
    .next ((s.set CMP_STAT_DSP_PENDING s.dsheaves.length).qSend 55 ⟨6, st, 0, 0, tag, false, [BitVec.ofNat 32 rep]⟩)

/-- The display registers with RWS fields (R211). -/
def displayRegs : List Nat := CMP_DSP_BG.addr :: (List.range 8).flatMap fun d => (List.range 6).map fun i => CMP_DSP_CTL.addr d + 4 * i

/-- The vertical blank before the next frame: due display sheaves apply in order, then every display shadow goes in force; each is reported
on Q55, and the frame counts (R199, R208). -/
def execVerticalBlank (s : State) : Res :=
  let k := (s.get CMP_DSP_FRAME + 1) % 2 ^ 32
  let due := s.dsheaves.filter fun h => decide (repDiff h.rep k ≤ 0)
  let s : State := { s with dsheaves := s.dsheaves.filter fun h => !(decide (repDiff h.rep k ≤ 0)) }
  let s := s.each due fun h s =>
    let s := s.each (List.range h.items.length) fun n s =>
      match h.items[n]? with
      | some i => if i.kind = 1 ∧ displayRegs.contains i.a ∧ rwsMask i.a ≠ 0 then
            let m := rwsMask i.a &&& BitVec.ofNat 32 (i.b / 2 ^ 32)
            s.wr i.a ((s.rd i.a &&& ~~~m) ||| (BitVec.ofNat 32 i.b &&& m))
          else s.raise EV_SHEAF_ITEM_BAD 255 [n]
      | none => s
    s.qSend 55 (reportEntry h 0 0 0)
  let s := s.cond (!due.isEmpty) fun s => s.each displayRegs fun a s => s.putAp a (s.rd a)
  .next ((s.set CMP_STAT_DSP_PENDING s.dsheaves.length).set CMP_DSP_FRAME k)

/-- The display's reads miss a pixel: the rest of the line shows the background, and the line counts (R209). -/
def execDspUnderrun (s : State) : Res := .next ((s.addSat CMP_DSP_UNDERRUN 1).raiseLim EV_DSP_UNDERRUN 255 0 sec1)

end Sys2Proof.Machine
end

