-- ==== Sys2Proof/Machine/Modes.lean ====
section
/-! DEFINITION. The mode controller's commands (01_architecture): host requests (R27 to R32), the start trigger (R33), acknowledgements
(R34, R46), stop points of fenced units (R40, R42), EVENT_LOST (R46). -/

namespace Sys2Proof.Machine

/-- A request refused: the mode does not change, TAG and RESULT show the request; REFUSED raises MODE_REFUSED (R30). -/
def State.refuseReq (s : State) (tag result : Nat) : State :=
  (s.showResult tag result).cond (result == 5) fun s => s.raise EV_MODE_REFUSED

/-- READY to PRINT on the start trigger: refused with MODE_REFUSED while a transition is pending (R33). -/
def State.takeTrigger (s : State) : State :=
  let s : State := { s with startTrig := false }
  if s.mode != 2 then s
  else if s.tr.isSome then s.raise EV_MODE_REFUSED 255 [8]
  else s.startTr ⟨3, 8, none, false, none, []⟩

/-- A host request judged (R29, R30): preempted by a start trigger that waits, BUSY while a transition is pending, BAD_MODE without a row,
REFUSED when the row's condition is not met, else accepted. -/
def State.hostReq (s : State) (tag : Nat) (row ok : Bool) (act : State → State) : State :=
  if s.startTrig then s.takeTrigger.showResult tag 4
  else if s.tr.isSome then s.refuseReq tag 3
  else if !row then s.refuseReq tag 2
  else if !ok then s.refuseReq tag 5
  else act s

/-- A transition that takes effect at once (R27, R30). -/
def State.atOnce (s : State) (target tag : Nat) : State := (s.showResult tag 0).setMode target 0

/-- The condition of SAFE to IDLE (R27). -/
def State.safeLeave (s : State) : Bool :=
  !(s.on GLB_FATAL_FIRST_VALID) && s.on MEM_STAT_READY && (List.range 24).all fun n => !(s.on MEM_SC_STAT_FAILED n)

/-- The condition of IDLE to READY: a queued job whose bars and ports, and every populated sub-channel, are permitted, with its links UP (R27). -/
def State.readyOk (s : State) : Bool :=
  match s.startJob with
  | none => false
  | some j =>
    j.bars.all (fun x => s.permitted x.1) && j.ports.all (fun x => s.permitted (portUnit x.1) && s.linkUp x.1) &&
      (List.range s.memN).all fun n => s.permitted (0xA0 + n)

/-- IDLE: from READY, SHADOW and SERVICE at once, from SAFE on its condition (R27). -/
def execModeReqIdle (tag : BitVec 8) (s : State) : Res :=
  let m := s.mode
  .next (s.hostReq tag.toNat (m == 2 || m == 5 || m == 6 || m == 7) (m != 7 || s.safeLeave) fun s => s.atOnce 1 tag.toNat)

/-- READY: from IDLE when the first lead is composed, from PRINT at a repeat boundary, from HOLD at once (R27, R28). -/
def execModeReqReady (tag : BitVec 8) (s : State) : Res :=
  let m := s.mode
  .next (s.hostReq tag.toNat (m == 1 || m == 3 || m == 4) (m != 1 || s.readyOk) fun s =>
    if m = 4 then s.atOnce 2 tag.toNat
    else if m = 3 then s.startTr ⟨2, 0, some tag.toNat, false, none, []⟩
    else
      let s := ({ s with tr := some ⟨2, 0, some tag.toNat, false, none, []⟩ } : State).set GLB_MODE_STAT_PENDING 2
      let s := s.showResult tag.toNat 1
      match s.startJob with
      | some j => (s.startJobPoints j).leadDone
      | none => s)

/-- PRINT: staged from READY, and from HOLD once the cause of a fault-driven HOLD is acknowledged (R27, R28, R34). -/
def execModeReqPrint (tag : BitVec 8) (s : State) : Res :=
  let m := s.mode
  .next (s.hostReq tag.toNat (m == 2 || m == 4) (m != 4 || !(s.on GLB_HOLD_CAUSE_PENDING)) fun s =>
    s.startTr ⟨3, 0, some tag.toNat, false, none, []⟩)

/-- HOLD: from PRINT, every bar at the boundary of the same repeat (R27). -/
def execModeReqHold (tag : BitVec 8) (s : State) : Res :=
  .next (s.hostReq tag.toNat (s.mode == 3) true fun s => s.startTr ⟨4, 0, some tag.toNat, false, none, []⟩)

/-- HOLD with IMMEDIATE: from PRINT, every bar at its next line (R27, R32). -/
def execModeReqHoldImmediate (tag : BitVec 8) (s : State) : Res :=
  .next (s.hostReq tag.toNat (s.mode == 3) true fun s => s.startTr (immTr 4 0 (some tag.toNat)))

/-- SERVICE: from IDLE with no job queued, at once (R27). -/
def execModeReqService (tag : BitVec 8) (s : State) : Res :=
  .next (s.hostReq tag.toNat (s.mode == 1) s.startJob.isNone fun s => s.atOnce 6 tag.toNat)

/-- SAFE: the table has no row for a host request (R27, R30). -/
def execModeReqSafe (tag : BitVec 8) (s : State) : Res := .next (s.hostReq tag.toNat false false id)

/-- The mode controller takes the start trigger in the SEQ cycle after its EMIT (R33). -/
def execStartTrigger (s : State) : Res := .next (if s.startTrig then s.takeTrigger else s)

/-- GLB_HOLD_CAUSE.ACK: index faults clear at once with the tracker's CONSEC; a fenced sub-channel only once it is fenced no longer (R34). -/
def execHoldCauseAck (s : State) : Res :=
  if !(s.on GLB_HOLD_CAUSE_PENDING) then .next s
  else if s.get GLB_HOLD_CAUSE_KIND = 1 then
    .next ((s.put GLB_HOLD_CAUSE_PENDING false).set GEK_TRK_STAT_CONSEC 0 (s.get GLB_HOLD_CAUSE_TRK))
  else if s.on MEM_SC_STAT_FENCED (s.get GLB_HOLD_CAUSE_SC) then .next s
  else .next (s.put GLB_HOLD_CAUSE_PENDING false)

/-- GLB_FATAL_FIRST.VALID written 1: the first FATAL cause is acknowledged (R46). -/
def execFatalAck (s : State) : Res := .next (s.put GLB_FATAL_FIRST_VALID false)

/-- What the stop of unit `n` brings with it in its block (R40): a sequencer or pixel engine halts, a port's unstrobed lines go, a lamp
group goes dark (R345). -/
def State.stopEffects (s : State) (n : Nat) : State :=
  if 0x10 ≤ n ∧ n < 0x90 then s.setHp (n - 0x10) { s.hp (n - 0x10) with out := [] }
  else if 0x98 ≤ n ∧ n < 0xA0 then
    s.each ((List.range 12).filter fun i => s.get LS_CFG_GRP i == n - 0x98 && s.get LS_STAT_STATE i == 1) fun i s =>
      ({ s with lampLit := smPut (fun _ => 0) s.lampLit i 0 } : State).set LS_STAT_STATE 0 i
  else if 0xB8 ≤ n ∧ n < 0xD4 then
    if s.engState (n - 0xB8) = 2 ∨ s.engState (n - 0xB8) = 3 then s.stopEng (n - 0xB8) else s
  else s

/-- The data plane stops a fenced unit that runs: its running view becomes OFF (R40). -/
def State.stopUnit (s : State) (n : Nat) : State :=
  let r := s.get GLB_UST_RUNSTATE n
  if s.get GLB_UST_PERMIT n = 4 ∧ (r = 1 ∨ r = 2 ∨ r = 3) then
    let s := s.stopEffects n
    let s := ({ s with causes := smPut (fun _ => []) s.causes n [] } : State).setViews n 0 (s.get GLB_UST_PERMIT n) 0xFF
    if n < 16 then s.refreshBar n
    else if n < 0x90 then s.refreshBar (s.get HPL_PORT_CFG_BAR (n - 16)) else s
  else s

/-- The stop point of fenced unit `n` is reached (R40); a sub-channel stops when its requests drain (R41, SUBCHANNEL_DRAINED). -/
def execUnitStopPoint (n : Fin 0xD8) (s : State) : Res :=
  .next (if 0xA0 ≤ n.val ∧ n.val < 0xB8 then s else s.stopUnit n)

/-- A unit still in skew 500 ms after its stop point (R42). -/
def execSkewTimeout (n : Fin 0xD8) (s : State) : Res :=
  .next (if s.on GLB_UST_SKEW n then s.fatal EV_SKEW_TIMEOUT n else s)

/-- A full event queue has space again: one EVENT_LOST record carries the count of events discarded since the last (R46). -/
def execEventLost (q : Fin 8) (s : State) : Res :=
  let n := (s.qu (32 + q)).lost
  if n ≠ 0 ∧ s.qRoom (32 + q) then
    .next ((s.setQu (32 + q) { s.qu (32 + q) with lost := 0 }).qWrite (32 + q) (s.evEntry EV_EVENT_LOST 255 [n]) false)
  else .next s

end Sys2Proof.Machine
end

