-- ==== Sys2Proof/Machine/Gecko.lean ====
section
/-! DEFINITION. Inputs, trackers, speed and index (02_web_position R47 to R70, R76, R78, R79), and the passing of time. -/

namespace Sys2Proof.Machine

/-! ### Position (R56, R58, R59) -/

/-- P with its fraction, in 2^-32 pu. -/
def State.posFine (s : State) (k : Nat) : Int := s.pos k * 2 ^ 32 + (s.tk k).frac

/-- P and its fraction written; `ahead` of the counted position. -/
def State.setPos (s : State) (k : Nat) (z ahead : Int) : State :=
  (s.set64 GEK_TRK_POS_LO (z / 2 ^ 32) k).setTk k { s.tk k with frac := (z % 2 ^ 32).toNat, ahead }

/-- Bar position B with its fraction, in 2^-32 pu. -/
def State.barFine (s : State) (b : Nat) : Int := s.posFine (s.get GEK_LC_CTL_TRK b) - s.lcOffset b * 2 ^ 32

/-- The bars whose line clocks run on tracker `k`. -/
def State.trkBars (s : State) (k : Nat) : List Nat :=
  (List.range 16).filter fun b => s.on GEK_LC_CTL_EN b && s.get GEK_LC_CTL_TRK b == k

/-- BACK of every line clock on tracker `k`: B lies below the high-water mark (R22). -/
def State.refreshBack (s : State) (k : Nat) : State :=
  s.each (s.trkBars k) fun b s => s.put GEK_LC_STAT_BACK (decide (s.barPos b < s.geti64 GEK_LC_HWM_LO b)) b

/-- The step of the source in use, 2^-32 pu (R56, R57). -/
def State.trkStep (s : State) (k : Nat) : Int :=
  if s.on GEK_TRK_STAT_FALLBACK k then s.geti64 GEK_TRK_SSTEP_FRAC k else s.geti64 GEK_TRK_STEP_FRAC k

/-! ### Speed (R60 to R63) -/

/-- A speed of `num` 2^-32 pu in `den` SEQ cycles as signed 16.16 mm/s, truncated. -/
def speedOf (num : Int) (den : Nat) : Int := if den = 0 then 0 else (num * 3125).tdiv (65536 * den)

/-- The last measured speed becomes `num` in `den` cycles and is reported (R60). -/
def State.measured (s : State) (k : Nat) (num : Int) (den period : Nat) : State :=
  let t := s.tk k
  let s := s.setTk k { t with spNum := num, spDen := den, period }
  ((s.seti GEK_TRK_SPEED (speedOf num den) k).put GEK_TRK_STAT_SPEED_VALID true k).put GEK_TRK_STAT_REVERSAL false k

/-- SPEED reads 0 and is not valid. -/
def State.noSpeed (s : State) (k : Nat) : State :=
  (s.set GEK_TRK_SPEED 0 k).put GEK_TRK_STAT_SPEED_VALID false k

/-- The speed part of a count of `delta` 2^-32 pu now (R60, R62, R63). -/
def State.speedCount (s : State) (k : Nat) (delta : Int) : State :=
  let t := s.tk k
  let back := decide (delta < 0)
  let turned := t.have_ && s.on GEK_TRK_STAT_DIR k != back
  let still := s.on GEK_TRK_STAT_STILL k
  let gap := s.clk - t.lastT
  let s := (s.put GEK_TRK_STAT_DIR back k).put GEK_TRK_STAT_STILL false k
  let t' : Trk := { t with have_ := true, lastT := s.clk, back := t.back || back }
  if turned then
    let s := s.setTk k { t' with gN := 1, gFirst := s.clk, gLast := s.clk, period := 0 }
    let s := ((s.noSpeed k).put GEK_TRK_STAT_REVERSAL true k).put GEK_TRK_STAT_GATE_MODE false k
    (s.addWrap GEK_TRK_REV_CNT 1 k).raiseLim EV_SPEED_REVERSAL 255 k ms100
  else if still || !t.have_ then (s.setTk k { t' with gN := 1, gFirst := s.clk, gLast := s.clk, period := 0 }).noSpeed k
  else
    let s := s.setTk k { t' with gN := t.gN + 1, gFirst := if t.gN = 0 then s.clk else t.gFirst, gLast := s.clk }
    if s.on GEK_TRK_STAT_GATE_MODE k then s
    else
      let s := s.measured k delta gap gap
      if s.get GEK_TRK_GATE k ≠ 0 ∧ s.get GEK_TRK_SPD_HIGH k * gap < sec1 then
        (s.put GEK_TRK_STAT_GATE_MODE true k).setTk k { s.tk k with gN := 1, gFirst := s.clk, gLast := s.clk }
      else s

/-! ### Index (R64 to R70, R76, R78, R79) -/

/-- The remaining correction and its steps: SPREADING follows (R70). -/
def State.setCorr (s : State) (k : Nat) (c : Int) (n : Nat) : State :=
  ((s.seti GEK_TRK_CORR_REM c k).put GEK_TRK_STAT_SPREADING (n != 0) k).setTk k { s.tk k with kLeft := n }

/-- A deviation joins the correction: SPREAD.N steps, or at once with N = 0 (R66, R70). -/
def State.correct (s : State) (k : Nat) (d : Int) : State :=
  let c := s.geti GEK_TRK_CORR_REM k + d
  let n := s.get GEK_TRK_SPREAD_N k
  if n = 0 then ((s.setPos k (s.posFine k + c * 2 ^ 32) (s.tk k).ahead).setCorr k 0 0).refreshBack k else s.setCorr k c n

/-- One step of the correction, in the sample after a hit of the spread line clock (R70). -/
def State.corrStep (s : State) (k : Nat) : State :=
  let n := (s.tk k).kLeft
  if n = 0 then s
  else
    let c := s.geti GEK_TRK_CORR_REM k
    let q := c.tdiv n
    ((s.setPos k (s.posFine k + q * 2 ^ 32) (s.tk k).ahead).setCorr k (c - q) (n - 1)).refreshBack k

/-- A faulted or missed index is counted; the third in succession with HOLD3 in PRINT stalls the bars and moves the press to HOLD (R67, R68). -/
def State.indexBad (s : State) (k : Nat) : State :=
  let s := (s.addWrap GEK_TRK_IDX_CNT_FAULTS 1 k).set GEK_TRK_STAT_CONSEC (min 3 (s.get GEK_TRK_STAT_CONSEC k + 1)) k
  if s.get GEK_TRK_STAT_CONSEC k = 3 ∧ s.on GEK_TRK_CTL_HOLD3 k ∧ s.printing then
    let s := s.raise EV_INDEX_HOLD 255
    (s.each (s.trkBars k) fun b s => s.stall b 6).faultHold 1 3 k 0
  else s

/-- IDX_DEV: the last judged d, saturating. -/
def State.setDev (s : State) (k : Nat) (d : Int) : State := s.seti GEK_TRK_IDX_DEV (clampI (-(2 ^ 31)) (2 ^ 31 - 1) d) k

/-- P set so that the latched position `p` becomes IDX_LOAD; NEXT follows (R65). -/
def State.armedIndex (s : State) (k : Nat) (p : Int) : State :=
  let l := s.geti64 GEK_TRK_IDX_LOAD_LO k
  let s := s.setPos k (s.posFine k + (l - p) * 2 ^ 32) (s.tk k).ahead
  let s := s.set64 GEK_TRK_NEXT_LO (l + s.geti64 GEK_TRK_IDX_PITCH_LO k) k
  let s := (s.put GEK_TRK_STAT_ARMED false k).put GEK_TRK_CTL_ARM false k
  let s := s.setTk k { s.tk k with est := true, lastJ := some l, back := false }
  (s.raise EV_POS_LOAD 255).refreshBack k

/-- A forward index at `p`, judged against NEXT (R66, R67, R69). -/
def State.judgeIndex (s : State) (k : Nat) (p : Int) : State :=
  let t := s.tk k
  let w := s.get GEK_TRK_WINDOW k
  let again := t.back && (match t.lastJ with | some j => decide (p ≤ j + w) | none => false)
  if !t.est || again then s
  else
    let d := s.geti64 GEK_TRK_NEXT_LO k - p
    let s := (s.setTk k { t with lastJ := some p, back := false }).setDev k d
    if !(s.on GEK_TRK_CTL_WIN_EN k) || decide (d.natAbs ≤ w) then
      let s := ((s.addWrap GEK_TRK_IDX_CNT_ACCEPTED 1 k).set GEK_TRK_STAT_CONSEC 0 k).raise EV_INDEX_CORR 255 [d]
      let s := s.set64 GEK_TRK_NEXT_LO (s.geti64 GEK_TRK_NEXT_LO k + s.geti64 GEK_TRK_IDX_PITCH_LO k) k
      if s.get GEK_TRK_CTL_IDX_MODE k = 1 then s.correct k d else s
    else (s.raise EV_INDEX_FAULT 255 (w64 p ++ w64 d)).indexBad k

/-- A bar is STALL with SHEET_OVF while a discarded range is at it (R79). -/
def State.checkOvf (s : State) (b : Nat) : State :=
  let l := (s.lk b).ovf.filter fun r => decide (s.barPos b < r.2)
  let s := s.setLk b { s.lk b with ovf := l }
  if l.any fun r => decide (r.1 ≤ s.barPos b) then s.stall b 8 else s.barRun b 8

/-- A line clock takes the sheet of edge `e` (R77). -/
def State.takeEdge (s : State) (b : Nat) (e : Nat × Int) : State :=
  let s := (s.set GEK_LC_SHEET e.1 b).setCompare b ((e.2 + s.get GEK_LC_SHEET_TOP b) * 2 ^ 32)
  (s.put GEK_LC_STAT_WAIT_SHEET false b).setLk b { s.lk b with done := 0, first := s.line b }

/-- An edge that cuts the sheet a bar is printing: the rest of the sheet goes, and the clock takes the edge at once (R78). -/
def State.sheetCut (s : State) (b : Nat) (e : Nat × Int) : State :=
  let c := s.get GEK_LC_SHEET b
  let left := s.get GEK_LC_SHEET_LINES b - (s.lk b).done
  let top := (e.2 + s.get GEK_LC_SHEET_TOP b) * 2 ^ 32
  if s.on GEK_LC_CTL_SHEET b ∧ !(s.on GEK_LC_STAT_WAIT_SHEET b) ∧ c ≠ 0 ∧ e.1 = (c + 1) % 2 ^ 32 ∧ left ≠ 0 ∧
      top ≤ s.compare b + (left - 1 : Int) * s.lcPitch b then
    let x := s.line b
    let s := s.raise EV_SHEET_SHORT b (rangeArgs [] (s.linePos b x) (s.linePos b (x + left)))
    let s := (s.rejLines 3 b x (x + left)).addSat GEK_LC_SKIP left b
    let s := (s.retireLines b x left).stall b 7
    let s := s.set64 GEK_LC_LINE_LO ((s.lk b).first + s.get GEK_LC_SHEET_LINES b) b
    s.takeEdge b e
  else s

/-- A line clock in sheet mode has finished sheet `n` (R77). -/
def State.sheetDone (s : State) (b n : Nat) : Bool :=
  let c := s.get GEK_LC_SHEET b
  c != 0 && (decide (0 < repDiff c n) || (c == n && s.on GEK_LC_STAT_WAIT_SHEET b))

/-- Edges that every sheet-mode line clock on tracker `k` has finished retire (R77). -/
def State.retireEdges (s : State) (k : Nat) : State :=
  let bars := (s.trkBars k).filter fun b => s.on GEK_LC_CTL_SHEET b
  let l := (s.tk k).edges.filter fun e => bars.isEmpty || !(bars.all fun b => s.sheetDone b e.1)
  (s.setTk k { s.tk k with edges := l }).set GEK_TRK_SHEET_Q_LEVEL l.length k

/-- A sheet edge at `p`: too early, discarded at a full queue, or queued (R76, R78, R79). -/
def State.sheetEdge (s : State) (k : Nat) (p : Int) : State :=
  let t := s.tk k
  let early := match t.lastE with | some e => decide (p - e < s.get GEK_TRK_SHEET_MIN k) | none => false
  if early then (s.raise EV_INDEX_FAULT).addWrap GEK_TRK_IDX_CNT_FAULTS 1 k
  else if 16 ≤ t.edges.length then s.setTk k { t with ovf := some (t.ovf.getD p), lastE := some p, gap := false }
  else
    let n := (s.get GEK_TRK_SHEET_NUM k + 1) % 2 ^ 32
    let s := s.setTk k { t with edges := t.edges ++ [(n, p)], lastE := some p, gap := false, ovf := none }
    let h := smGet (fun _ => []) s.camEdges k ++ [(n, p)]
    let s : State := { s with camEdges := smPut (fun _ => []) s.camEdges k (h.drop (h.length - 64)) }
    let s := (s.set GEK_TRK_SHEET_NUM n k).set GEK_TRK_SHEET_Q_LEVEL (t.edges.length + 1) k
    let s := s.latchAll (56 + k)
    let bars := (s.trkBars k).filter fun b => s.on GEK_LC_CTL_SHEET b
    let s := match t.ovf with
      | some a =>
        (s.raise EV_SHEET_OVF 255 (rangeArgs [] a p)).each bars fun b s =>
          ((s.reject 4 b k a p).setLk b { s.lk b with ovf := (s.lk b).ovf ++ [(a, p)] }).checkOvf b
      | none => s
    (s.each bars fun b s => s.sheetCut b (n, p)).retireEdges k

/-- The index of tracker `k` at position `p` (R64 to R69, R76); it is ignored during backward travel. -/
def State.index (s : State) (k : Nat) (p : Int) : State :=
  let m := s.get GEK_TRK_CTL_IDX_MODE k
  if !(s.on GEK_TRK_CTL_EN k) || (m != 1 && m != 2) || s.on GEK_TRK_STAT_DIR k then s
  else
    let armed := s.on GEK_TRK_STAT_ARMED k
    let e := if armed then s.geti64 GEK_TRK_IDX_LOAD_LO k else p
    let s := if armed then s.armedIndex k p else s
    if s.on GEK_TRK_CTL_SHEET k then s.sheetEdge k e
    else if armed then s else s.judgeIndex k p

/-- What P passing a place brings: a discarded range that comes to a bar or has passed it (R79), an index missed (R67), a sheet gap (R76). -/
def State.passChecks (s : State) (k : Nat) : State :=
  let s := s.each (s.trkBars k) fun b s => if (s.lk b).ovf.isEmpty then s else s.checkOvf b
  let m := s.get GEK_TRK_CTL_IDX_MODE k
  let p := s.pos k
  if s.on GEK_TRK_CTL_SHEET k then
    let x := s.get GEK_TRK_SHEET_MAX k
    let t := s.tk k
    match t.lastE with
    | some e => if x ≠ 0 ∧ !t.gap ∧ e + x < p then (s.setTk k { t with gap := true }).raise EV_SHEET_GAP 255 else s
    | none => s
  else if s.on GEK_TRK_CTL_WIN_EN k && (m == 1 || m == 2) && (s.tk k).est && !(s.on GEK_TRK_STAT_ARMED k) &&
      decide (s.geti64 GEK_TRK_NEXT_LO k + s.get GEK_TRK_WINDOW k < p) then
    let n := s.geti64 GEK_TRK_NEXT_LO k
    ((s.raise EV_INDEX_MISSED 255).set64 GEK_TRK_NEXT_LO (n + s.geti64 GEK_TRK_IDX_PITCH_LO k) k).indexBad k
  else s

/-! ### Time (R47, R58, R61) -/

/-- Interpolation over `n` samples: the last measured speed truncated per sample, never to a whole step beyond the counted position (R58). -/
def State.interpolate (s : State) (k n : Nat) : State :=
  let t := s.tk k
  if s.on GEK_TRK_CTL_INTERP k && s.on GEK_TRK_STAT_SPEED_VALID k && !(s.on GEK_TRK_STAT_REVERSAL k) && !(s.on GEK_TRK_STAT_LOSS k) &&
      t.spDen != 0 then
    let adv := (t.spNum * 2).tdiv t.spDen
    let lim := max 0 ((s.trkStep k).natAbs - 2 ^ 32 : Int)
    let a := clampI (-lim) lim (t.ahead + n * adv)
    (s.setPos k (s.posFine k - t.ahead + a) a).refreshBack k
  else s

/-- The reported speed of period mode once the last period has passed (R61). -/
def State.decay (s : State) (k : Nat) : State :=
  let t := s.tk k
  let gap := s.clk - t.lastT
  if s.on GEK_TRK_STAT_SPEED_VALID k && !(s.on GEK_TRK_STAT_GATE_MODE k) && decide (t.period < gap) then
    let m := speedOf t.spNum t.spDen
    let q := speedOf (if t.spNum < 0 then -((s.trkStep k).natAbs : Int) else (s.trkStep k).natAbs) gap
    s.seti GEK_TRK_SPEED (if m.natAbs ≤ q.natAbs then m else q) k
  else s

/-- `dt` SEQ cycles pass: the clock, the NET ticks of PTP time (R387), and every enabled tracker's samples (R58, R61, R67, R76). -/
def State.elapse (s : State) (dt : Nat) : State :=
  if dt = 0 then s
  else
    let c := s.clk
    let acc := s.netAcc + 125 * dt
    let s := ({ s with clk := c + dt, netAcc := acc % 256 } : State).netTicks (acc / 256)
    s.each (List.range 4) fun k s =>
      if s.on GEK_TRK_CTL_EN k then ((s.interpolate k ((c + dt) / 2 - c / 2)).decay k).passChecks k else s

/-! ### Counts (R48 to R57) -/

/-- The tracker counts `n` steps of its source in use (R56, R58, R59). -/
def State.trkCount (s : State) (k : Nat) (n : Int) : State :=
  if s.on GEK_TRK_STAT_LOSS k then s
  else
    let d := n * s.trkStep k
    let s := s.setPos k (s.posFine k - (s.tk k).ahead + d) 0
    ((if n = 0 then s else s.speedCount k d).refreshBack k).passChecks k

/-- Tracker `k` is fed by an input now: its primary outside fall-back, its secondary in fall-back (R56). -/
def State.fedBy (s : State) (k : Nat) (abs : Bool) (n : Nat) : Bool :=
  s.on GEK_TRK_CTL_EN k &&
    if s.on GEK_TRK_STAT_FALLBACK k then s.on GEK_TRK_CTL_SEC_ABS k == abs && s.get GEK_TRK_CTL_SEC k == n
    else s.on GEK_TRK_CTL_SRC_ABS k == abs && s.get GEK_TRK_CTL_SRC k == n

/-- LOSS of an input. -/
def State.inputLoss (s : State) (abs : Bool) (n : Nat) : Bool :=
  if abs then s.on GEK_ABS_ERR_LOSS n else s.on GEK_ENC_STAT_LOSS n

/-- A tracker with no usable source: LOSS, P held, speed 0, its bars STALL (R57). -/
def State.trkLoss (s : State) (k : Nat) : State :=
  if s.on GEK_TRK_STAT_LOSS k then s
  else
    let s := ((s.put GEK_TRK_STAT_LOSS true k).noSpeed k).raise EV_ENC_LOSS 255
    s.each (s.trkBars k) fun b s => s.stall b 5

/-- The source of tracker `k` judged again: fall-back, LOSS, recovery (R57). -/
def State.trkSource (s : State) (k : Nat) : State :=
  if !(s.on GEK_TRK_CTL_EN k) then s
  else
    let pri := s.inputLoss (s.on GEK_TRK_CTL_SRC_ABS k) (s.get GEK_TRK_CTL_SRC k)
    let sec := s.inputLoss (s.on GEK_TRK_CTL_SEC_ABS k) (s.get GEK_TRK_CTL_SEC k)
    if s.on GEK_TRK_STAT_FALLBACK k then if sec then s.trkLoss k else s.put GEK_TRK_STAT_LOSS false k
    else if !pri then s.put GEK_TRK_STAT_LOSS false k
    else if s.on GEK_TRK_CTL_SEC_EN k && !sec then
      let s := (s.put GEK_TRK_STAT_LOSS false k).put GEK_TRK_STAT_FALLBACK true k
      (s.set GEK_STAT_FALLBACK (putBit (s.get GEK_STAT_FALLBACK) k true)).raise EV_ENC_FALLBACK 255
    else s.trkLoss k

/-- Every tracker's source judged again. -/
def State.trkSources (s : State) : State := s.each (List.range 4) fun k s => s.trkSource k

/-- An accepted change at encoder input `n` to the levels `a`, `b`, `z`, `dt` SEQ cycles on: counting, quadrature errors, Z (R47 to R50), and
the trackers that use the input (R56 to R70). -/
def execEncEdge (n : Fin 8) (a b z : Bool) (dt : Nat) (s : State) : Res :=
  let s := s.elapse dt
  if !(s.on GEK_ENC_CTL_EN n) then .next s
  else
    let old := s.get GEK_ENC_STAT_LEVEL n
    let sw := s.on GEK_ENC_CTL_SWAP n
    let (a, b) := if sw then (b, a) else (a, b)
    let da := bitN old 0 != a
    let db := bitN old 1 != b
    let dz := z && !(bitN old 2) && (!(s.on GEK_ENC_CTL_ZGATE n) || (a && b))
    let s := s.set GEK_ENC_STAT_LEVEL (b2n a + 2 * b2n b + 4 * b2n z) n
    let s :=
      if da && db then (s.addSat GEK_ENC_ERR_QERR 1 n).raiseLim EV_ENC_QERR 255 n sec1
      else if da || db then
        let c : Int := if (if da then a != b else a == b) then 1 else -1
        let s := s.seti GEK_ENC_COUNT (s.geti GEK_ENC_COUNT n + c) n
        s.each (List.range 4) fun k s => if s.fedBy k false n then s.trkCount k c else s
      else s
    .next (if dz then
        (s.addWrap GEK_ENC_ERR_ZCNT 1 n).each (List.range 4) fun k s =>
          if s.on GEK_TRK_CTL_IDX_Z k && !(s.on GEK_TRK_CTL_SRC_ABS k) && s.get GEK_TRK_CTL_SRC k == n.val then s.index k (s.pos k) else s
      else s)

/-- An open or shorted pair of encoder input `n` has lasted 1 µs: LOSS (R51, R57). -/
def execEncLossDetect (n : Fin 8) (s : State) : Res :=
  if s.on GEK_ENC_CTL_EN n && !(s.on GEK_ENC_STAT_LOSS n) then
    let s := (s.put GEK_ENC_STAT_LOSS true n).put GEK_ENC_STAT_LOSS_SEEN true n
    .next (s.set GEK_STAT_ENC_LOSS (putBit (s.get GEK_STAT_ENC_LOSS) n true)).trkSources
  else .next s

/-- The pair has been good for 1 ms: LOSS clears (R51). -/
def execEncLossClear (n : Fin 8) (s : State) : Res :=
  let s := s.put GEK_ENC_STAT_LOSS false n
  .next (s.set GEK_STAT_ENC_LOSS (putBit (s.get GEK_STAT_ENC_LOSS) n false)).trkSources

/-- Absolute input `n`'s own state. -/
def State.ai (s : State) (n : Nat) : AbsIn := smGet (fun _ => AbsIn.empty) s.absIn n
/-- Absolute input `n`'s own state replaced. -/
def State.setAi (s : State) (n : Nat) (x : AbsIn) : State := { s with absIn := smPut (fun _ => AbsIn.empty) s.absIn n x }

/-- The frame period of absolute input `n` expires and a frame starts (R52). -/
def execAbsFrameStart (n : Tn) (s : State) : Res :=
  if s.on GEK_ABS_CTL_EN n && s.get GEK_ABS_TIMING_PERIOD n != 0 then .next (s.setAi n { s.ai n with busy := true }) else .next s

/-- A Gray code word read, `i` bits left. -/
def grayOf (v acc : Nat) (i : Nat) : Nat :=
  match i with
  | 0 => acc
  | n + 1 =>
    let b := bitN v n != bitN acc 0
    grayOf v (2 * acc + b2n b) n

/-- The number of one-bits of a word. -/
def ones (v w : Nat) : Nat := ((List.range w).filter fun i => bitN v i).length

/-- A failed frame: counted, discarded; the eighth in succession declares LOSS (R53). -/
def State.absFail (s : State) (n : Nat) : State :=
  let f := (s.ai n).fails + 1
  let s := ((s.setAi n { s.ai n with fails := f, busy := false }).addSat GEK_ABS_ERR_ERRS 1 n).raise EV_ABS_ERR 255
  if f = 8 then
    let s := s.put GEK_ABS_ERR_LOSS true n
    (s.set GEK_STAT_ABS_LOSS (putBit (s.get GEK_STAT_ABS_LOSS) n true)).trkSources
  else s

/-- An SSI frame of input `n` completes with data bits `d`, parity bit `par` and error bit `err`: checked, and the trackers add the signed
difference of good values (R52 to R54). -/
def execAbsFrameDone (n : Tn) (d : BitVec 32) (par err : Bool) (dt : Nat) (s : State) : Res :=
  let s := s.elapse dt
  if !(s.on GEK_ABS_CTL_EN n && (s.ai n).busy) then .next s
  else
    let w := s.get GEK_ABS_CTL_BITS n + 1
    let raw := d.toNat % 2 ^ w
    let v := if s.on GEK_ABS_CTL_GRAY n then grayOf raw 0 w else raw
    let delta := sx w ((v + 2 ^ w - s.get GEK_ABS_VALUE n % 2 ^ w) % 2 ^ w)
    let good := (s.ai n).good
    let max_ := s.get GEK_ABS_MAXDELTA n
    if (s.on GEK_ABS_CTL_PARITY n && (ones raw w + b2n par) % 2 == 1) || (s.on GEK_ABS_CTL_ERRBIT n && err) ||
        (good && max_ != 0 && decide (max_ < delta.natAbs)) then .next (s.absFail n)
    else
      let s := (s.setAi n ⟨0, true, false, if good then (s.ai n).unw + delta else (v : Int)⟩).set GEK_ABS_VALUE v n
      let s := s.put GEK_ABS_ERR_LOSS false n
      let s := (s.set GEK_STAT_ABS_LOSS (putBit (s.get GEK_STAT_ABS_LOSS) n false)).trkSources
      .next (if good then s.each (List.range 4) fun k s => if s.fedBy k true n then s.trkCount k delta else s else s)

/-- The filtered level of mark input `n` changes: an accepted edge outside the hold-off latches its tracker's position, counts, sets its latch in
every engine and is the index of the trackers that name it (R55, R59, R64, R99). -/
def execMkEdge (n : Fin 8) (level : Bool) (dt : Nat) (s : State) : Res :=
  let s := s.elapse dt
  let e := s.get GEK_MK_CTL_EDGE n
  let p := s.pos (s.get GEK_MK_CTL_TRK n)
  let was := s.on GEK_MK_STAT_LEVEL n
  let held := match smGet (fun _ => none) s.mkHold n with | some h => decide (p < h) | none => false
  let s' := s.put GEK_MK_STAT_LEVEL level n
  if !(s.on GEK_MK_CTL_EN n) then .next s
  else if was == level || held || !(e == 2 || (e == 0 && level) || (e == 1 && !level)) then .next s'
  else
    let h := s.get GEK_MK_HOLDOFF n
    let s := (s'.set64 GEK_MK_LATCH_LO p n).addWrap GEK_MK_STAT_EDGES 1 n
    let s : State := { s with mkHold := smPut (fun _ => none) s.mkHold n (if h = 0 then none else some (p + h)) }
    .next ((s.latchAll n).each (List.range 4) fun k s =>
      if !(s.on GEK_TRK_CTL_IDX_Z k) && s.get GEK_TRK_CTL_IDX_MK k == n.val then s.index k (s.pos k) else s)

/-- The gate of tracker `k` expires: the speed over the gate, or period mode again (R60). -/
def execSpeedGate (k : Tn) (dt : Nat) (s : State) : Res :=
  let s := s.elapse dt
  let t := s.tk k
  if !(s.on GEK_TRK_CTL_EN k && s.on GEK_TRK_STAT_GATE_MODE k) then .next s
  else
    let s := s.setTk k { t with gN := 0 }
    if t.gN < 2 then .next (s.put GEK_TRK_STAT_GATE_MODE false k)
    else
      let den := t.gLast - t.gFirst
      let step := ((s.trkStep k).natAbs : Int) * (t.gN - 1 : Int)
      let s := s.measured k (if s.on GEK_TRK_STAT_DIR k then -step else step) den (den / (t.gN - 1))
      .next (if (t.gN - 1) * sec1 < s.get GEK_TRK_SPD_LOW k * den then s.put GEK_TRK_STAT_GATE_MODE false k else s)

/-- No count for STILL µs: standstill (R62). -/
def execStandstill (k : Tn) (s : State) : Res :=
  if s.on GEK_TRK_CTL_EN k && s.get GEK_TRK_STILL k != 0 && !(s.on GEK_TRK_STAT_STILL k) then
    .next ((((s.noSpeed k).put GEK_TRK_STAT_STILL true k).put GEK_TRK_STAT_GATE_MODE false k).raise EV_STANDSTILL 255)
  else .next s

/-! ### Host commands (R57, R59, R64, R81) -/

/-- A host load of P: in IDLE, READY and SERVICE, else LOAD_ERR (R59). -/
def State.trkLoad (s : State) (k : Nat) : State :=
  let m := s.mode
  if m = 1 ∨ m = 2 ∨ m = 6 then
    let p := s.geti64 GEK_TRK_LOAD_LO k
    ((s.setPos k (p * 2 ^ 32) 0).raise EV_POS_LOAD 255).refreshBack k
  else s.put GEK_TRK_STAT_LOAD_ERR true k

/-- The next index is armed (R64). -/
def State.trkArm (s : State) (k : Nat) : State := (s.put GEK_TRK_CTL_ARM true k).put GEK_TRK_STAT_ARMED true k

/-- The host writes GEK_TRK_CTL with LOAD = 1, its other fields as they are (R59). -/
def execTrackerLoad (k : Tn) (s : State) : Res := s.heard <| .next (s.trkLoad k)

/-- The host writes GEK_TRK_CTL with ARM = 1, its other fields as they are (R64). -/
def execTrackerArm (k : Tn) (s : State) : Res := s.heard <| .next (s.trkArm k)

/-- The host writes GEK_TRK_CTL: clearing SEC_EN or changing EN ends fall-back, and the source is judged again (R57); EN going to 1 leaves NEXT not
established (R67); ARM and LOAD act as they do alone. -/
def execTrackerCtlWrite (k : Tn) (v : BitVec 32) (s : State) : Res := s.heard <|
  let en := s.on GEK_TRK_CTL_EN k
  let sec := s.on GEK_TRK_CTL_SEC_EN k
  let s := s.hostWrite (GEK_TRK_CTL.addr k) (putBits v 20 1 0)
  let en' := s.on GEK_TRK_CTL_EN k
  let s := if en != en' || (sec && !(s.on GEK_TRK_CTL_SEC_EN k)) then
      (s.put GEK_TRK_STAT_FALLBACK false k).set GEK_STAT_FALLBACK (putBit (s.get GEK_STAT_FALLBACK) k false)
    else s
  let s := if !en && en' then s.setTk k { s.tk k with est := false } else s
  let s := s.trkSource k
  let s := if getBits v 20 1 = 1 then s.trkArm k else s
  .next (if getBits v 21 1 = 1 then s.trkLoad k else s)

/-- The host writes CLR of an encoder input: QERR and ZCNT clear (R81). -/
def execEncClr (n : Fin 8) (s : State) : Res := s.heard <| .next ((s.set GEK_ENC_ERR_QERR 0 n).set GEK_ENC_ERR_ZCNT 0 n)

end Sys2Proof.Machine
end

