-- ==== Sys2Proof/Machine/Tiller.lean ====
section
/-! DEFINITION. The tillers' commands (08_screening): screening a line (R239 to R247), drop rings (R249, R250), nozzle-table and head-map
writes (R233 to R236, R254). -/

namespace Sys2Proof.Machine

/-- TIL_TL_NZLINE follows the stream's first enabled point (R235, R254). -/
def State.refreshNzLine (s : State) (t : Nat) : State :=
  match (List.range 16).find? fun b => s.cpOn b && s.get CMP_CP_CTL_PS b == t with
  | some b => s.set64 TIL_TL_NZLINE_LO (s.eff b) t
  | none => s

/-! ### The path of one pixel (R239 to R247) -/

/-- Density correction (R239). -/
def density (v : Nat) (w : Word) : Int :=
  clampI 0 4095 (((v * getBits w 0 10 + 256) / 512 : Nat) + 2 * sx 8 (getBits w 10 8))

/-- Level `i` of a table. -/
def TSet.lev (t : TSet) (i : Nat) : Int := t.levels.getD i 0

/-- The noise byte of pixel (x, y), signed (R240). -/
def TSet.noise (t : TSet) (x y : Int) : Int :=
  if t.tab.noise.isEmpty then 0
  else sx 8 (t.tab.noise.getD (64 * ((y + t.phy) % 64).toNat + ((x + t.phx) % 64).toNat) 0)

/-- Threshold T_i (R240). -/
def TSet.thresh (t : TSet) (m : Int) (i : Nat) : Int :=
  (t.lev (i - 1) + t.lev i) / 2 + (m * (t.lev i - t.lev (i - 1)) * t.amp) / 2 ^ 24

/-- The matrix byte of pixel (x, y); 128 without a matrix (R247). -/
def TSet.mat (t : TSet) (x y : Int) : Nat :=
  if t.tab.matrix.isEmpty then 128
  else t.tab.matrix.getD (2 ^ t.twl * ((y + t.phy) % (2 ^ t.thl : Nat)).toNat + ((x + t.phx) % (2 ^ t.twl : Nat)).toNat) 0

/-- The level index of a value (R240, R247). -/
def TSet.quant (t : TSet) (x y v : Int) : Nat :=
  let n := t.nlev
  if t.matrixMode then
    if t.lev (n - 1) ≤ v then n - 1
    else
      let i := ((List.range n).filter fun i => decide (t.lev i ≤ v)).length - 1
      if (t.mat x y : Int) * (t.lev (i + 1) - t.lev i) < (v - t.lev i) * 256 then i + 1 else i
  else
    let m := t.noise x y
    ((List.range (n - 1)).filter fun i => decide (t.thresh m (i + 1) ≤ v)).length

/-- The shares of an error over taps of the given weights; the tap of greatest weight, lowest first, takes the remainder (R242). -/
def shares (ws : List Nat) (e : Int) : List Int :=
  let l := ws.map fun (w : Nat) => e * (w : Int) / 64
  let rest := e - l.foldl (· + ·) 0
  let k := leastOf (fun i => 64 - ws.getD i 0) ws.length
  l.zipIdx.map fun (x, i) => if i = k then x + rest else x

/-- The weights of neighbour set `n` of a tiller, tap 4 with weight 0 (R245). -/
def State.nwSet (s : State) (t n : Nat) : List Nat :=
  (List.range 4).map (fun k => s.get (TIL_TL_NW0_W0.sh (8 * k)) t n) ++ [0] ++ (List.range 2).map fun k => s.get (TIL_TL_NW1_W5.sh (8 * k)) t n

/-- One column screened: code, seven shares, whether the error was clamped (R239 to R247). -/
def State.pixel (s : State) (t : Nat) (ts : TSet) (sel : Sel) (x y : Int) (v : Nat) (err : Int) (open_ : Int) : Nat × List Int × Bool :=
  let e := clampI (-(ts.errMax : Int)) ts.errMax err
  let v1 := match sel.entry with | some w => density v w | none => open_
  let v2 := v1 + e
  let none7 := List.replicate 7 (0 : Int)
  if sel.dead then (0, shares (s.nwSet t sel.nwsel) v2, e != err)
  else
    let q := ts.quant x y v2
    let q := if (match sel.entry with | some w => nzState w | none => 0) = 1 then min q ts.weakMax else q
    (ts.codes.getD q 0, if ts.matrixMode then none7 else shares ts.kernel (v2 - ts.lev q), e != err)

/-- What screening a line gives: codes in column order, the error of the next line, clamps, rescues, runs of DEAD columns as (first column,
length). -/
structure Screened where
  codes : List Nat
  err : List Int
  clamps : Nat
  rescues : Nat
  runs : List (Int × Nat)

/-- Error waiting in the window of five columns of the next line, and for the next two columns of this one. -/
structure Spread where
  e1 : Int
  e2 : Int
  n0 : Int
  n1 : Int
  n2 : Int
  n3 : Int

/-- The columns of a line one after another; `i` columns are done, `run` is the run of DEAD columns in progress. -/
def State.screenCols (s : State) (t : Nat) (ts : TSet) (y : Int) (cols : List (Nat × Nat × Sel)) (cur : List Int) (w : Spread) (i : Nat)
    (run : Option (Int × Nat)) : Screened :=
  match cols with
  | [] => ⟨[], if i = 0 then [] else if i = 1 then [w.n1] else [w.n0, w.n1], 0, 0, run.toList⟩
  | (c, v, sel) :: r =>
    let (code, tap, cl) := s.pixel t ts sel c y v (cur.headD 0 + w.e1) (Config.free 2 (s.fresh + i) % 4096 : Nat)
    let k := fun j => tap.getD j 0
    let run' := if sel.dead then some (match run with | some (a, n) => (a, n + 1) | none => ((c : Int), 1)) else none
    let z := s.screenCols t ts y r cur.tail
      ⟨w.e2 + k 0, k 1, w.n1 + k 3, w.n2 + k 4, w.n3 + k 5, k 6⟩ (i + 1) run'
    let first := if 2 ≤ i then [w.n0 + k 2] else []
    ⟨code :: z.codes, first ++ z.err, z.clamps + b2n cl, z.rescues + b2n sel.rescued,
      (if sel.dead then [] else run.toList) ++ z.runs⟩

/-! ### Drop rings (R249) -/

/-- A ring word from its cells: bit 63 makes the parity even (R249). -/
def ringWord (cells : List Nat) : Nat :=
  let v := cells.foldr (fun c r => c % 8 + 8 * r) 0
  v + (((List.range 63).filter fun i => bitN v i).length % 2) * 2 ^ 63

/-- The bytes of a slot from the codes of a port's nozzles. -/
def slotOf (codes : List Nat) : List Nat :=
  let n := slotBytes codes.length / 8
  (List.range n).flatMap fun i => bytesOf 8 (ringWord ((codes.drop (21 * i)).take 21))

/-- The codes of a port's nozzles from the screened columns (R231, R238). -/
def State.portCodes (s : State) (b p : Nat) (cols : List (Nat × Sel × Nat)) : List Nat :=
  let n := s.get TIL_PORT_CFG_NNOZ p
  ((List.range 8).flatMap fun h => (List.range (s.get TIL_HEAD_CFG_NNOZ p h)).map fun i =>
    let c := s.nozCol b p h i
    match cols.find? fun x => (x.1 : Int) == c && x.2.1.port == p && x.2.1.noz == s.headFirst p h + i with
    | some x => x.2.2
    | none => 0).take n

/-- Copied nozzle changes that line `y` of point `b` has reached are applied; one that comes late is reported (R404). -/
def State.takeCopied (s : State) (b : Nat) (y : Int) : State :=
  let mine := fun (x : Nat × Nat × Int) => s.portPoint (x.1 / 12288) == b
  let l := s.nzHeld.filter fun x => mine x && decide (x.2.2 ≤ y)
  let s : State := { s with nzHeld := s.nzHeld.filter fun x => !(mine x && decide (x.2.2 ≤ y)) }
  s.each l fun x s =>
    (s.nzPut x.1 (BitVec.ofNat 32 x.2.1)).cond (decide (x.2.2 < y)) fun s =>
      (s.raise EV_TWIN_NZT_LATE 255).addSat TWN_CNT_COPY_BAD (y - x.2.2).toNat

/-- The oldest composed line of a point is screened and written to the drop rings of its bar (R230 to R250). -/
def State.screen (s : State) (b : Nat) (l : CLine) (rest : List CLine) : State :=
  let p := s.cp b
  let t := s.get CMP_CP_CTL_PS b
  let s := s.takeCopied b l.line
  let cols := s.columns b p.plane
  let ps := s.portsOf b
  let sels := cols.map fun (c : Nat) => s.selAt ps b p.plane l.tset.tab.stitch l.line c
  let z := s.screenCols t l.tset l.line ((cols.zip (l.px.zip sels)).map fun (c, v, e) => (c, v, e))
    (smGet (fun _ => TPoint.empty) s.tilPt b).err ⟨0, 0, 0, 0, 0, 0⟩ 0 none
  let out := (cols.zip (sels.zip z.codes)).map fun (c, e, k) => (c, e, k)
  let s : State := { s with fresh := s.fresh + cols.length }
  let s := s.each (s.jobPorts b) fun q s =>
    let a := s.get64 TIL_PORT_RING_LO q + (l.line % (s.get TIL_PORT_DEPTH q : Int)).toNat * s.get TIL_PORT_SLOT q
    let s := s.st a (slotOf (s.portCodes b q out))
    { s with tilOut := smPut (fun _ => []) s.tilOut q (smGet (fun _ => []) s.tilOut q ++ [(l.line, l.cAt)]) }
  let s := s.cond (z.clamps != 0) fun s => (s.addWrap TIL_TL_CNT_CLAMP z.clamps t).raiseLim EV_ERR_CLAMP 255 t sec1
  let s := s.addWrap TIL_TL_RESCUE z.rescues t
  let s := s.each (z.runs.filter fun r => decide (l.tset.maxRun < r.2)) fun r s =>
    (s.addWrap TIL_TL_CNT_DEADRUN 1 t).raiseLim EV_DEAD_RUN b t ms100 [b, r.1, r.2]
  let s := s.setCp b { s.cp b with lines := rest }
  let s : State := { s with tilPt := smPut (fun _ => TPoint.empty) s.tilPt b ⟨z.err, l.line + 1, false⟩ }
  s.refreshNzLine t

/-- Ports of bar `b` whose slot for line `y` still holds a line that has not retired (R250). -/
def State.slotBusy (s : State) (b : Nat) (y : Int) : List Nat :=
  (s.jobPorts b).filter fun q => decide (s.line b ≤ y - s.get TIL_PORT_DEPTH q)

/-- A tiller screens the oldest composed line of point `b`; entries `ce` are read corrected and `ue` uncorrectable. A line whose slot is not free
waits (R250). -/
def execScreenLine (b : Bar) (ce ue : List Nat) (s : State) : Res :=
  match (s.cp b).lines with
  | [] => .next s
  | l :: rest =>
    if s.mode = 0 ∨ s.mode = 7 then .next s
    else
      let busy := s.slotBusy b l.line
      let tp := smGet (fun _ => TPoint.empty) s.tilPt b
      if busy.isEmpty then .next ((s.nzFaults ce ue).screen b l rest)
      else if tp.wait then .next s
      else
        let s : State := { s with tilPt := smPut (fun _ => TPoint.empty) s.tilPt b { tp with wait := true } }
        let t := s.get CMP_CP_CTL_PS b
        .next ((s.each busy fun q s => s.addSat TIL_PORT_WAIT 1 q).raiseLim EV_RING_WAIT 255 t ms100)

/-- Every store write of the oldest line outstanding at port `p` is acknowledged: TIL_PORT_DONE advances (R250), and LAT keeps the greatest
lines from composition (R254). -/
def execLineComplete (p : Port) (s : State) : Res :=
  match smGet (fun _ => []) s.tilOut p with
  | [] => .next s
  | (x, at_) :: r =>
    let b := s.get HPL_PORT_CFG_BAR p
    let t := s.get CMP_CP_CTL_PS b
    let s : State := { s with tilOut := smPut (fun _ => []) s.tilOut p r }
    let s := s.set64 TIL_PORT_DONE_LO (x + 1) p
    .next (s.set TIL_TL_STAT_LAT (max (s.get TIL_TL_STAT_LAT t) (min 65535 (s.line b - at_).toNat)) t)

/-! ### Host commands -/

/-- A plain write of nozzle entry `j` (R233, R234). -/
def execNztWrite (j : Fin 1572864) (v : BitVec 32) (s : State) : Res := s.heard <| .next (s.nzPut j v)

/-- TIL_NZU_CMD written: GO runs the command on the nozzle of TIL_NZU_ADDR (R236). -/
def execNzuGo (v : BitVec 32) (s : State) : Res := s.heard <|
  if getBits v 31 1 = 1 ∧ !(s.on TIL_NZU_STAT_BUSY) then
    .next (s.nzu (s.get TIL_NZU_ADDR_PORT) (s.get TIL_NZU_ADDR_NOZZLE) (getBits v 0 2) (getBits v 2 2)
      (if getBits v 4 1 = 1 then some (getBits v 16 10) else none)).1
  else .next s

/-- TIL_HEAD_COL or, with `cfg`, TIL_HEAD_CFG of head `h` of port `p` written: in IDLE and SERVICE only (R254); nozzles, slot and coverage
follow (R231, R232, R249). -/
def execHeadMapWrite (p : Port) (h : Fin 8) (cfg : Bool) (v : BitVec 32) (s : State) : Res := s.heard <|
  if s.mode = 1 ∨ s.mode = 6 then
    let s := s.hostWrite ((if cfg then TIL_HEAD_CFG else TIL_HEAD_COL).addr p h) v
    let n := min 12288 (s.headFirst p 8)
    let s := (s.set TIL_PORT_CFG_NNOZ n p).set TIL_PORT_SLOT (slotBytes n) p
    .next (match s.startJob with
      | some j => s.coverage j.portBars (j.ports.map (·.1))
      | none => s.coverage [] [])
  else .next (s.put TIL_STAT_CFG_ERR true)

/-- A neighbour-weight set written: it takes effect from EFF (R235, R245, R254). -/
def execNwSetWrite (t : Tl) (n : Fin 16) (hi : Bool) (v : BitVec 32) (s : State) : Res := s.heard <|
  .next (s.hostWrite ((if hi then TIL_TL_NW1 else TIL_TL_NW0).addr t n) v)

/-- A read of TIL_TL_STAT clears LAT (R254). -/
def execTilStatRead (t : Tl) (s : State) : Res := s.heard <| .next (s.set TIL_TL_STAT_LAT 0 t)

end Sys2Proof.Machine
end

