-- ==== Sys2Proof/Machine/HeadPort.lean ====
section
/-! DEFINITION. Head ports (09_head_links): assignment (R255), training (R267, R268), lines and control frames (R261, R264, R269, R270), NAKs
(R271, R272), STATUS (R265, R273), faults (R279). -/

namespace Sys2Proof.Machine

/-! ### Assignment and training (R255, R267) -/

/-- The power domain of port `p` (R281). -/
def portDomain (p : Nat) : Nat := p / 32

/-- The link of port `p` takes a state; HPL_UP_MAP and the port's running view follow (R256, R267). -/
def State.setLink (s : State) (p l : Nat) : State :=
  let s := s.set HPL_PORT_STAT_LINK l p
  let s := s.set HPL_UP_MAP (putBit (s.get HPL_UP_MAP (p / 32)) (p % 32) (l == 4)) (p / 32)
  s.refreshPort p

/-- Training begins, from DOWN and FAULT (R267). -/
def State.train (s : State) (p : Nat) : State :=
  let l := s.get HPL_PORT_STAT_LINK p
  if l = 0 ∨ l = 5 then
    (s.setHp p { s.hp p with rounds := 0, ests := [], ping := none, lost := false, seenStatus := false }).setLink p 1
  else s

/-- A training state fails: LINK_TRAIN_FAIL with the state (R267). -/
def State.trainFail (s : State) (p : Nat) : State :=
  let l := s.get HPL_PORT_STAT_LINK p
  ((s.addSat HPL_PORT_STAT_ATTEMPTS 1 p).raise EV_LINK_TRAIN_FAIL (portUnit p) [l]).setLink p 5

/-- A frame goes out on port `p`'s link. -/
def State.sendFrame (s : State) (p kind flags spec : Nat) (data : List Dword) : State := s.tx p (frameWords kind flags spec data)

/-- A PING leaves with the next SYNC SEQ (R264, R268). -/
def State.sendPing (s : State) (p : Nat) : State :=
  let h := s.hp p
  (s.setHp p { h with ping := some h.syncSeq, syncSeq := (h.syncSeq + 1) % 65536 }).sendFrame p 3 0 h.syncSeq [1]

/-- The lines a port leaves out begin: every line sent and not strobed is retired unsent for it and rejected (R279). -/
def State.openGap (s : State) (p : Nat) : State :=
  let h := s.hp p
  let b := s.get HPL_PORT_CFG_BAR p
  let printing := s.barMode b == 3 || s.barMode b == 6
  let s := s.cond printing fun s => s.each h.sent fun l s => s.rejLines 6 b l.line (l.line + 1)
  let frm := match h.gap with
    | some (a, none) => a
    | _ => h.next
  s.setHp p { h with sent := [], bad := [], gap := some (frm, none) }

/-- An UP link is lost: LINK_DOWN, its lines go, the port stalls (R279). -/
def State.linkLost (s : State) (p : Nat) (count : Bool) : State :=
  let s := s.raise EV_LINK_DOWN (portUnit p)
  let s := s.cond count fun s => s.addSat HPL_PORT_CNT_DOWN_LOSS 1 p
  let s := s.openGap p
  (s.setHp p { s.hp p with lost := count, ping := none }).setLink p 0

/-- The latency of port `p`'s link and head board exceeds what its bar's held latency allows (R279). -/
def State.latMisfit (s : State) (p : Nat) : Bool :=
  let b := s.get HPL_PORT_CFG_BAR p
  (s.hb b).held && decide ((s.get HPL_BAR_LAT_LAT b : Int) * 25 < ((s.hp p).lat2 + 2 * (s.get HPL_PORT_HBINFO_HBLAT p : Int) + 196) * 4)

/-- The link enters UP with LINKLAT and SPREAD (R260, R267, R268), or is out under LAT_FIT (R279). -/
def State.linkIsUp (s : State) (p : Nat) (spread : Int) : State :=
  let h := s.hp p
  let n := h.ests.length
  let lat := rdiv (h.ests.foldl (· + ·) 0) n
  let low := match h.gap with | some (_, none) => s.line (s.get HPL_PORT_CFG_BAR p) + 16 | _ => h.low
  let s := s.setHp p { h with lat2 := lat, ests := [], rounds := 0, ping := none, cfgSeq := 0, syncSeq := 0, cfgs := [], lost := false, strobed := [], low }
  let s := (s.seti HPL_PORT_LINKLAT_LAT (rdiv lat 2) p).seti HPL_PORT_LINKLAT_SPREAD (rdiv spread 2) p
  let s := (s.raise EV_LINK_UP (portUnit p) [rdiv lat 2, rdiv spread 2]).setLink p 4
  if s.latMisfit p then
    (((s.put HPL_PORT_STAT_LAT_FIT true p).raise EV_LAT_FIT (portUnit p)).openGap p).stall (portUnit p) 4 |>.refreshPort p
  else s

/-- One round of MEASURE that does not pass: the fourth ends in FAULT, else the state repeats (R267). -/
def State.measureFail (s : State) (p : Nat) : State :=
  let h := s.hp p
  if h.rounds = 3 then s.trainFail p else (s.setHp p { h with rounds := h.rounds + 1, ests := [] }).sendPing p

/-- The one-way estimate in 0.2 ns (R268). -/
def State.estimate (s : State) (p turn rtt : Nat) : Int := (rtt : Int) - turn + 2 * s.geti HPL_PORT_ASYM p

/-- The greatest and least of a list of integers, apart. -/
def spanOf (l : List Int) : Int :=
  match l with
  | [] => 0
  | x :: r => r.foldl max x - r.foldl min x

/-- An echo in MEASURE (R267, R268). -/
def State.measured' (s : State) (p : Nat) (est : Int) : State :=
  let h := s.hp p
  let l := h.ests ++ [est]
  let s := s.setHp p { h with ests := l, ping := none }
  if l.length < 64 then s.sendPing p
  else if spanOf l ≤ 10 then s.linkIsUp p (spanOf l) else s.measureFail p

/-- An echo in UP: LINKLAT moves towards the estimate by at most 0.4 ns; more than 5.0 ns apart raises LAT_DRIFT (R268). -/
def State.drifted (s : State) (p : Nat) (est : Int) : State :=
  let h := s.hp p
  let s := s.cond (decide (25 < (est - h.lat2).natAbs)) fun s => s.raise EV_LAT_DRIFT (portUnit p)
  let lat := h.lat2 + clampI (-2) 2 (est - h.lat2)
  (s.setHp p { h with lat2 := lat, ping := none }).seti HPL_PORT_LINKLAT_LAT (rdiv lat 2) p

/-- HPL_PORT_CFG written: EN and BAR change only in IDLE and SERVICE and never give a bar a seventeenth port (R255); EN = 1 and TRAIN start
training, DOWN takes the link down (R267); a newly enabled port's power domain comes on (R471). -/
def execPortCfgWrite (p : Port) (v : BitVec 32) (s : State) : Res := s.heard <|
  let en := getBits v 0 1 == 1
  let bar := getBits v 1 4
  let oldBar := s.get HPL_PORT_CFG_BAR p
  let changes := en != s.on HPL_PORT_CFG_EN p || bar != oldBar
  let seventeenth := en && !(s.portOf p bar) && decide (16 ≤ s.get HPL_BAR_STAT_NPORTS bar)
  if changes && (!(s.mode == 1 || s.mode == 6) || seventeenth) then .next (s.put HPL_PORT_STAT_CFG_ERR true p)
  else
    let s := s.hostWrite (HPL_PORT_CFG.addr p) v
    let s := s.cond en fun s => { s with domOff := smPut (fun _ => false) s.domOff (portDomain p) false }
    let s := s.set HPL_BAR_STAT_NPORTS (s.portsFound oldBar).length oldBar
    let s := s.set HPL_BAR_STAT_NPORTS (s.portsFound bar).length bar
    let s := (s.refreshPort p).refreshBar oldBar
    let s := if getBits v 7 1 = 1 then (if s.linkUp p then s.linkLost p false else s.setLink p 0) else s
    .next (if getBits v 6 1 = 1 || en then s.train p else s)

/-- HPL_PORT_CFG.TRAIN written (R267). -/
def execLinkTrain (p : Port) (s : State) : Res := s.heard <| .next (s.train p)

/-- HPL_PORT_CFG.DOWN written (R267). -/
def execLinkDownCmd (p : Port) (s : State) : Res := s.heard <| .next (if s.linkUp p then s.linkLost p false else s.setLink p 0)

/-- Upstream block lock in LOCK (R267). -/
def execLinkBlockLock (p : Port) (s : State) : Res :=
  .next (if s.get HPL_PORT_STAT_LINK p = 1 then s.setLink p 2 else s)

/-- The time of a training state is over: LOCK and IDENT fail, MEASURE repeats or fails (R267). -/
def execLinkTrainTimeout (p : Port) (s : State) : Res :=
  let l := s.get HPL_PORT_STAT_LINK p
  .next (if l = 1 ∨ l = 2 then s.trainFail p else if l = 3 then s.measureFail p else s)

/-- 1 s after FAULT or a loss, with AUTO (R267). -/
def execLinkAutoRetrain (p : Port) (s : State) : Res :=
  .next (if s.on HPL_PORT_CFG_AUTO p && s.on HPL_PORT_CFG_EN p && (s.get HPL_PORT_STAT_LINK p == 5 || (s.hp p).lost) then s.train p else s)

/-! ### STATUS (R265, R273, R279) -/

/-- BLANKS is held against the port's own count of NAKs (R273). -/
def State.checkBlanks (s : State) (p : Nat) (st : StatusIn) : State :=
  let h := s.hp p
  let b := s.get HPL_PORT_CFG_BAR p
  let n := (st.blanks.toNat + 65536 - h.naks) % 65536
  let s := if n ≠ 0 ∧ n < 32768 then
      let s := (s.raise EV_BLANK_UNREPORTED (portUnit p)).addSat HPL_PORT_CNT_DOWN_UNREP n p
      s.each h.strobed.reverse fun x s => s.rejLines 6 b x (x + 1)
    else s
  s.setHp p { s.hp p with naks := st.blanks.toNat, strobed := [] }

/-- Fault bits 0 to 2 and 6 judged (R279). -/
def State.checkFault (s : State) (p : Nat) (st : StatusIn) : State :=
  let m := s.barMode (s.get HPL_PORT_CFG_BAR p)
  let bad := st.fault.toNat &&& 0x47
  let out := s.on HPL_PORT_STAT_HB_FAULT p
  if bad ≠ 0 ∧ !out ∧ (m = 3 ∨ m = 6) then
    (((s.put HPL_PORT_STAT_HB_FAULT true p).raise EV_HB_FAULT (portUnit p)).stall (portUnit p) 3).refreshPort p
  else if bad = 0 ∧ out then
    (((s.put HPL_PORT_STAT_HB_FAULT false p).raise EV_HB_FAULT_CLEAR (portUnit p)).unstall (portUnit p) 3 (s.portBase p)).refreshPort p
  else s

/-- Nozzle-fault entries go to the port's ring, and reach the nozzle-health firmware (R279, R333). -/
def State.nozzleFaults (s : State) (p : Nat) (st : StatusIn) : State :=
  let s := s.each st.nf fun (n, k) s =>
    let w := s.get HPL_PORT_NF_WR p
    let s := ((s.set HPL_PORT_NF_NOZZLE n.toNat p (w % 32)).set HPL_PORT_NF_KIND k.toNat p (w % 32)).set HPL_PORT_NF_SEQ w p (w % 32)
    (s.set HPL_PORT_NF_WR (w + 1) p).nhEntry p n.toNat k.toNat
  s.cond (!st.nf.isEmpty) fun s => s.raiseLim EV_HB_NOZZLE (portUnit p) p sec1

/-- The registers that follow a STATUS (R281). -/
def State.statusRegs (s : State) (p : Nat) (st : StatusIn) : State :=
  let s := (s.set HPL_PORT_HBINFO_HBLAT st.hblat.toNat p).set HPL_PORT_HBINFO_BUFLINES st.buflines.toNat p
  let s := (s.set HPL_PORT_HBINFO_NHEADS st.nheads.toNat p).put HPL_PORT_HBINFO_SEL st.sel p
  let s := (s.set HPL_PORT_VENDOR st.vendor.toNat p).set HPL_PORT_SERIAL st.serial.toNat p
  let s := (s.set HPL_PORT_FAULT_FAULT st.fault.toNat p).set HPL_PORT_FAULT_CFG_SEQ st.cfgSeq.toNat p
  let s := s.each (List.range 8) fun i s =>
    s.set ((if i < 4 then HPL_PORT_TEMP0_TEMP0 else HPL_PORT_TEMP1_TEMP0).sh (8 * (i % 4))) (st.temps.getD i 0x80).toNat p
  s.each (List.range 4) fun i s =>
    s.set ((if i < 2 then HPL_PORT_RAIL01_RAIL0 else HPL_PORT_RAIL23_RAIL2).sh (16 * (i % 2))) (st.rails.getD i 0).toNat p

/-- The head board's identity or buffer differs from the last STATUS (R279). -/
def State.identChanged (s : State) (p : Nat) (st : StatusIn) : Bool :=
  s.get HPL_PORT_HBINFO_BUFLINES p != st.buflines.toNat || s.get HPL_PORT_HBINFO_HBLAT p != st.hblat.toNat ||
    s.get HPL_PORT_HBINFO_NHEADS p != st.nheads.toNat || s.rd (HPL_PORT_VENDOR.addr p) != st.vendor || s.rd (HPL_PORT_SERIAL.addr p) != st.serial

/-- A STATUS on an UP link. -/
def State.statusUp (s : State) (p : Nat) (st : StatusIn) : State :=
  let s := s.cond ((s.hp p).seenStatus && s.on HPL_PORT_HBINFO_SEL p != st.sel) fun s => s.raise EV_HB_SELECT (portUnit p)
  let s := (s.setHp p { s.hp p with seenStatus := true }).statusRegs p st
  let s := ((s.checkBlanks p st).checkFault p st).nozzleFaults p st
  match st.echo with
  | some (q, turn, rtt) => if (s.hp p).ping = some q then s.drifted p (s.estimate p turn rtt) else s
  | none => s

/-- A STATUS frame at port `p` (R259, R265, R267, R268, R273, R279). -/
def execStatusRx (p : Port) (st : StatusIn) (s : State) : Res :=
  let l := s.get HPL_PORT_STAT_LINK p
  if l ≠ 2 ∧ l ≠ 3 ∧ l ≠ 4 then .next s
  else if !st.good then .next (s.addSat HPL_PORT_CNT_ERR_UP_CRC 1 p)
  else if l = 4 then
    if s.identChanged p st then .next ((s.statusRegs p st).linkLost p true) else .next (s.statusUp p st)
  else
    let s := (s.statusRegs p st).setHp p { s.hp p with seenStatus := true, naks := st.blanks.toNat }
    if l = 2 then
      let ok := st.version == 1 && decide (1 ≤ st.nheads.toNat) && decide (st.nheads.toNat ≤ 8) && decide (32 ≤ st.buflines.toNat) &&
        decide (st.buflines.toNat ≤ 256)
      .next (if ok then (s.setLink p 3).sendPing p else s)
    else
      match st.echo with
      | some (q, turn, rtt) => .next (if (s.hp p).ping = some q then s.measured' p (s.estimate p turn rtt) else s)
      | none => .next s

/-- No STATUS for STAT_TMO µs while UP (R267, R279). -/
def execStatusTimeout (p : Port) (s : State) : Res :=
  .next (if s.linkUp p && s.get HPL_PORT_STAT_TMO p != 0 then s.linkLost p true else s)

/-- Upstream lock is lost while UP (R279). -/
def execLinkLockLoss (p : Port) (s : State) : Res := .next (if s.linkUp p then s.linkLost p true else s)

/-! ### NAKs (R258, R264, R266, R271, R272) -/

/-- The line of port `p` whose number has these low 32 bits, nearest to LINE. -/
def State.fullLine (s : State) (p : Nat) (x : Word) : Int :=
  let l := s.line (s.get HPL_PORT_CFG_BAR p)
  l + sx 32 (ux 32 ((x.toNat : Int) - l))

/-- NAK CORRUPT: the line is resent where R271 allows it, else the NAK is counted. -/
def execNakCorruptRx (p : Port) (x : BitVec 32) (s : State) : Res :=
  let h := s.hp p
  let b := s.get HPL_PORT_CFG_BAR p
  match h.sent.find? fun l => ux 32 l.line == x.toNat with
  | some l =>
    if decide (s.line b ≤ l.line - 1) && decide (l.resent < s.get HPL_PORT_RSCFG_RS_MAX p) && s.linkUp p then
      let s := s.setHp p { h with sent := h.sent.map fun y => if y.line = l.line then { y with resent := y.resent + 1 } else y }
      let s := (s.addSat HPL_PORT_CNT_RESEND 1 p).raiseLim EV_RESEND (portUnit p) p sec1
      .next (s.sendFrame p 1 (l.flags + 4) (ux 32 l.line) l.words)
    else .next (s.addSat HPL_PORT_CNT_NAK_NAKS 1 p)
  | none => .next (s.addSat HPL_PORT_CNT_NAK_NAKS 1 p)

/-- A line not fired as screened (R272). -/
def State.blankLine (s : State) (p : Nat) (x : Int) : State :=
  let s := s.raiseLim EV_BLANK_LINE (portUnit p) p ms100 (p :: w64 x)
  (s.addSat HPL_PORT_CNT_BLANK 1 p).rejLines 6 (s.get HPL_PORT_CFG_BAR p) x (x + 1)

/-- One NAK BLANKED or STROBE_LOST in the port's own count (R273). -/
def State.countNak (s : State) (p : Nat) : State := s.setHp p { s.hp p with naks := ((s.hp p).naks + 1) % 65536 }

/-- NAK BLANKED (R272). -/
def execNakBlankedRx (p : Port) (x : BitVec 32) (s : State) : Res := .next ((s.countNak p).blankLine p (s.fullLine p x))

/-- NAK STROBE_LOST: nothing for a line that the engine discarded (R272). -/
def execNakStrobeLostRx (p : Port) (x : BitVec 32) (s : State) : Res :=
  let y := s.fullLine p x
  let s := s.countNak p
  .next (if (s.hp p).disc.contains y then s else s.blankLine p y)

/-- NAK CFG_CORRUPT: the frame waits to be resent; the third failed resend raises HB_CFG_FAIL (R264). -/
def execNakCfgCorruptRx (p : Port) (seq : BitVec 16) (s : State) : Res :=
  let s := s.addSat HPL_PORT_CNT_NAK_CFG 1 p
  let h := s.hp p
  match h.cfgs.find? fun f => f.seq == seq.toNat with
  | some f =>
    if f.resends < 3 then
      .next (s.setHp p { h with cfgs := h.cfgs.map fun y => if y.seq = f.seq then { y with wait := true } else y })
    else .next (s.raise EV_HB_CFG_FAIL (portUnit p) [f.seq])
  | none => .next s

/-- A control word whose TYPE is not in the table or whose CRC-8 fails (R258). -/
def execUnknownWordRx (p : Port) (s : State) : Res := .next (s.addSat HPL_PORT_CNT_ERR_UNKNOWN 1 p)

/-! ### Sending (R261, R264, R269, R270) -/

/-- The substitution of line `x` of bar `b`: (S, D), S = 0 for BLANK (R106, R133). -/
def State.subOf (s : State) (b : Nat) (x : Int) : Option (Nat × Nat) :=
  ((s.hb b).subs.find? fun y => decide (y.1 ≤ x) && decide (x ≤ y.2.1)).map fun y => (y.2.2.1, y.2.2.2)

/-- Line `x` can be sent as it stands: substituted, or complete in the ring (R269). -/
def State.lineReady (s : State) (p : Nat) (x : Int) : Bool :=
  (s.subOf (s.get HPL_PORT_CFG_BAR p) x).isSome ||
    (decide ((s.hp p).from_ ≤ x) && decide (x < s.geti64 TIL_PORT_DONE_LO p) && !((s.hp p).bad.contains x))

/-- The next line port `p` sends: the lowest not sent and not retired; lines past their deadline that are not complete are left out, and below
the ring's first line only substituted ones are sent. -/
def State.nextSend (s : State) (p : Nat) : Int :=
  let b := s.get HPL_PORT_CFG_BAR p
  let l := s.line b
  let a := max (max (s.hp p).next l) (s.hp p).low
  match (List.range 16).find? fun (i : Nat) => decide (a + i < l + 16) && s.lineReady p (a + i) with
  | some i => a + i
  | none =>
    let c := max a (l + 16)
    if (s.subOf b c).isSome then c else max c (s.hp p).from_

/-- The code nozzle `n` of port `p` at column `c` carries in ladder line `l`, `ps` the ports of the bar (R261). -/
def State.ladderCode (s : State) (ps : List Nat) (b plane st d : Nat) (l c : Int) (p n : Nat) : Nat :=
  if c % st ≠ l % st then 0
  else
    match s.nozzlesOn ps b plane c with
    | [x] => if x.port = p ∧ x.noz = n then d else 0
    | x :: y :: _ =>
      let z := if l / st % 2 = 0 then x else y
      if z.port = p ∧ z.noz = n then d else 0
    | [] => 0

/-- The words of a line from its nozzle codes: W = ceil(NNOZ / 21) (R249, R255). -/
def lineWords (codes : List Nat) : List Dword :=
  (List.range (cdiv codes.length 21)).map fun i => BitVec.ofNat 64 (ringWord ((codes.drop (21 * i)).take 21))

/-- The words of ladder line `l` (R261). -/
def State.ladderWords (s : State) (p st d : Nat) (l : Int) : List Dword :=
  let b := s.get HPL_PORT_CFG_BAR p
  let plane := (s.cp b).plane
  let ps := s.portsOf b
  lineWords (((List.range 8).flatMap fun h => (List.range (s.get TIL_HEAD_CFG_NNOZ p h)).map fun i =>
    s.ladderCode ps b plane st d l (s.nozCol b p h i) p (s.headFirst p h + i)).take (s.get TIL_PORT_CFG_NNOZ p))

/-- The slot address of line `x` in port `p`'s ring (R249). -/
def State.slotAt (s : State) (p : Nat) (x : Int) : Nat :=
  s.get64 TIL_PORT_RING_LO p + (x % (s.get TIL_PORT_DEPTH p : Int)).toNat * s.get TIL_PORT_SLOT p

/-- The words of line `x` read from the ring. -/
def State.ringWords (s : State) (p : Nat) (x : Int) : List Dword :=
  (List.range (cdiv (s.get TIL_PORT_CFG_NNOZ p) 21)).map fun i => BitVec.ofNat 64 (s.ldN (s.slotAt p x + 8 * i) 8)

/-- A word of odd parity over its 64 bits (R249). -/
def oddWord (w : Dword) : Bool := ((List.range 64).filter fun i => bitN w.toNat i).length % 2 == 1

/-- A LINE frame goes out, and the line is sent: SENT follows, and sending has resumed after a gap (R269, R279). -/
def State.sendLine (s : State) (p : Nat) (x : Int) (flags : Nat) (words : List Dword) : State :=
  let h := s.hp p
  let gap := match h.gap with | some (a, none) => some (a, some x) | g => g
  ((s.setHp p { h with sent := h.sent ++ [⟨x, flags, words, 0⟩], gap, next := x + 1 }).set64 HPL_PORT_SENT_LO (x + 1) p).sendFrame p 1 flags (ux 32 x) words

/-- The modes in which R26 lets a bar's links carry LINE frames. -/
def lineMode (m : Nat) : Bool := m == 2 || m == 3 || m == 6

/-- Line `x` goes out with its content: a substitution, or the words of the ring, which a word that fails parity or a poisoned burst makes
incomplete (R261, R269). -/
def State.sendContent (s : State) (p : Nat) (x : Int) : State :=
  match s.subOf (s.get HPL_PORT_CFG_BAR p) x with
  | some (st, d) => if st = 0 then s.sendLine p x 1 [] else s.sendLine p x 2 (s.ladderWords p st d x)
  | none =>
    let h := s.hp p
    let a := s.slotAt p x
    let ws := s.ringWords p x
    let odd := (ws.filter oddWord).length
    if s.bad a (8 * ws.length) then (s.saw a (8 * ws.length)).setHp p { h with bad := x :: h.bad }
    else if odd = 0 then s.sendLine p x 0 ws
    else ((s.addSat HPL_PORT_CNT_PARITY odd p).raiseLim EV_RING_PARITY (portUnit p) p sec1).setHp p { h with bad := x :: h.bad }

/-- The engine of port `p` may send LINE frames at all: enabled, its link UP and fitting, its bar's mode allowing them, the port not fenced. -/
def State.canLine (s : State) (p : Nat) : Bool :=
  s.on HPL_PORT_CFG_EN p && s.linkUp p && lineMode (s.barMode (s.get HPL_PORT_CFG_BAR p)) && !(s.on HPL_PORT_STAT_LAT_FIT p) &&
    !(s.stopped (portUnit p))

/-- Line `x` is released and within the head board's buffer (R269). -/
def State.released (s : State) (p : Nat) (x : Int) : Bool :=
  let b := s.get HPL_PORT_CFG_BAR p
  decide (x ≤ (s.hb b).mark) && decide (x < s.line b + s.get HPL_PORT_HBINFO_BUFLINES p)

/-- A port engine sends its next line once R269 allows it. -/
def execLineFrameSend (p : Port) (s : State) : Res :=
  let x := s.nextSend p
  .next (if s.canLine p && s.released p x && s.lineReady p x then s.sendContent p x else s)

/-- The modes in which R26 lets a bar's links carry SYNC and CONFIG frames. -/
def ctlMode (m : Nat) : Bool := m == 1 || m == 2 || m == 3 || m == 4 || m == 6

/-- The link of port `p` is UP and its bar's mode allows SYNC and CONFIG. -/
def State.canCtl (s : State) (p : Nat) : Bool := s.linkUp p && ctlMode (s.barMode (s.get HPL_PORT_CFG_BAR p))

/-- The PING period is over (R264). -/
def execPingPeriod (p : Port) (s : State) : Res :=
  .next (if s.canCtl p && s.get HPL_CTL_PING_PER != 0 then s.sendPing p else s)

/-- The TIME period is over: PTP time and the bar position go out (R264). -/
def execTimeSyncPeriod (p : Port) (s : State) : Res :=
  if s.canCtl p && s.get HPL_CTL_TIME_PER != 0 then
    let h := s.hp p
    let b := s.get HPL_PORT_CFG_BAR p
    .next ((s.setHp p { h with syncSeq := (h.syncSeq + 1) % 65536 }).sendFrame p 3 0 h.syncSeq
      [2, BitVec.ofNat 64 s.stamp, BitVec.ofInt 64 (s.barPos b)])
  else .next s

/-- A control frame leaves port `p`: a CONFIG resend that waits, else the head of the control queue (R107, R264, R270). -/
def State.sendControl (s : State) (p : Nat) : State :=
  let h := s.hp p
  if !(s.canCtl p) then s
  else
    match h.cfgs.find? (·.wait) with
    | some f =>
      (s.setHp p { h with cfgs := h.cfgs.map fun y => if y.seq = f.seq then { y with wait := false, resends := y.resends + 1 } else y }).sendFrame p 2 0
        f.seq f.payload
    | none =>
      match h.ctl with
      | [] => s
      | (2, d) :: r =>
        let cfgs := (h.cfgs ++ [⟨h.cfgSeq, d, 0, false⟩])
        (s.setHp p { h with ctl := r, cfgs := cfgs.drop (cfgs.length - 4), cfgSeq := (h.cfgSeq + 1) % 65536 }).sendFrame p 2 0 h.cfgSeq d
      | (_, d) :: r => (s.setHp p { h with ctl := r, syncSeq := (h.syncSeq + 1) % 65536 }).sendFrame p 3 0 h.syncSeq d

end Sys2Proof.Machine
end

