-- ==== Sys2Proof/Machine/LineClock.lean ====
section
/-! DEFINITION. Line clocks (02_web_position R71 to R79) and what a hit brings: repeat latches, fire-side fields (R197), staged transitions
(R27, R28, R130), lines late or retired (R21), STALL causes of bars (R37), the end of a job (R432). -/

namespace Sys2Proof.Machine

/-! ### Advance of LINE and COMPARE (R71, R72, R75) -/

/-- OFFSET in force of line clock `b` moved. -/
def State.moveOffset (s : State) (b : Nat) (q : Int) : State :=
  (s.setA64 GEK_LC_OFFSET_LO (s.lcOffset b + q) b).refreshBack (s.get GEK_LC_CTL_TRK b)

/-- The OFFSET correction of line clock `b` (R75). -/
def State.setOffCorr (s : State) (b : Nat) (c : Int) (n : Nat) : State :=
  (s.setLk b { s.lk b with offC := c, offK := n }).put GEK_LC_STAT_SPREADING (n != 0) b

/-- Fire-side fields due at line `x` or before are taken: PITCH at once, a change of OFFSET as a correction (R75, R197). -/
def State.fireTake (s : State) (b : Nat) (x : Int) : State :=
  let p := s.cp b
  let due := p.fire.filter fun f => decide (f.1 ≤ x)
  if due.isEmpty then s
  else
    let s := s.setCp b { p with fire := p.fire.filter fun f => !decide (f.1 ≤ x) }
    let lo := GEK_LC_OFFSET_LO.addr b
    let old := ux 64 (s.lcOffset b + (s.lk b).offC)
    let word := fun (a w : Nat) => due.foldl (fun w f => if f.2.1 = a then (w &&& (2 ^ 32 - 1 - f.2.2.2)) ||| (f.2.2.1 &&& f.2.2.2) else w) w
    let new := sx 64 (word lo (old % 2 ^ 32) + 2 ^ 32 * word (lo + 4) (old / 2 ^ 32))
    let s := s.each (due.filter fun f => f.2.1 != lo && f.2.1 != lo + 4) fun f s =>
      s.putAp f.2.1 (BitVec.ofNat 32 (((s.ap f.2.1).toNat &&& (2 ^ 32 - 1 - f.2.2.2)) ||| (f.2.2.1 &&& f.2.2.2)))
    let c := new - s.lcOffset b
    if new = sx 64 old then s
    else
      let n := s.get GEK_TRK_SPREAD_N (s.get GEK_LC_CTL_TRK b)
      if n = 0 then (s.moveOffset b c).setOffCorr b 0 0 else s.setOffCorr b c n

/-- One step of the OFFSET correction, in the sample after an own hit (R75). -/
def State.offStep (s : State) (b : Nat) : State :=
  let l := s.lk b
  if l.offK = 0 then s
  else
    let q := l.offC.tdiv l.offK
    (s.setOffCorr b (l.offC - q) (l.offK - 1)).moveOffset b q

/-- LINE and COMPARE advanced over every compare that B has reached, at most `cap` lines; each stretch between boundaries under its own PITCH. -/
def State.advance (s : State) (b : Nat) (bp : Int) (cap fuel : Nat) : State :=
  match fuel with
  | 0 => s
  | n + 1 =>
    let x := s.line b
    if bp < s.compare b ∨ cap = 0 then s
    else
      let s := s.fireTake b x
      let p := s.lcPitch b
      let k := if p = 0 then 1 else ((bp - s.compare b) / p).toNat + 1
      let k := ((s.cp b).fire.map fun f => (f.1 - x).toNat).foldl (fun k d => if 0 < d then min k d else k) (min k cap)
      let s := (s.set64 GEK_LC_LINE_LO (x + k) b).setCompare b (s.compare b + k * p)
      if p = 0 then s else s.advance b bp (cap - k) n

/-! ### Lines at a hit (R21, R72, R262, R279) -/

/-- The substitution or ring content of every line before `y` that waits is sent, in order. -/
def State.sendWaiting (s : State) (p : Nat) (y : Int) (fuel : Nat) : State :=
  match fuel with
  | 0 => s
  | n + 1 =>
    let x := s.nextSend p
    if x < y && s.released p x && s.lineReady p x then (s.sendContent p x).sendWaiting p y n else s

/-- Line `y` is at its send deadline at port `p`: late when it is not released and complete; a line after the last line of the ended job is none of
a job's and is never late (R21, R106, R133, R269, R432). -/
def State.lateAt (s : State) (p : Nat) (y : Int) : Bool :=
  let h := s.hp p
  s.on TIL_PORT_CFG_EN p && s.canLine p && decide (h.next ≤ y) && decide (h.low ≤ y) &&
    (match (s.cp (s.get HPL_PORT_CFG_BAR p)).endLine with | some e => decide (y < e) | none => true) &&
    (decide (h.from_ ≤ y) || (s.subOf (s.get HPL_PORT_CFG_BAR p) y).isSome) && !(s.released p y && s.lineReady p y)

/-- A late line: counted, and a FILL frame goes in its place (R21, R269). -/
def State.fillLine (s : State) (p : Nat) (y : Int) : State :=
  ((s.sendWaiting p y 16).addSat HPL_PORT_CNT_LATE 1 p).sendLine p y 1 []

/-- The deadline of line `y` of bar `b`: what is late is reported, counted, filled and rejected, and the bar is STALL; the first line in time ends
that (R21). -/
def State.deadline (s : State) (b : Nat) (y : Int) : State :=
  let m := s.barMode b
  if m ≠ 3 ∧ m ≠ 6 then s
  else
    let ps := s.portsOf b
    let late := ps.filter fun p => s.lateAt p y
    let s := if late.isEmpty then ({ s with twn.tkGap := smPut (fun _ => false) s.twn.tkGap b false } : State).barRun b 3
      else
        let s := s.each late fun p s => s.fillLine p y
        if smGet (fun _ => false) s.twn.tkGap b then ((s.addSat TWN_GAP_N_LINES 1 b).rejLines 9 b y (y + 1)).stall b 3
        else ((s.raise EV_LINE_LATE b (rangeArgs [b] (s.linePos b y) (s.linePos b (y + 1)))).rejLines 1 b y (y + 1)).stall b 3
    (s.each ps fun p s => if late.contains p then s.stall (portUnit p) 2 else s.unstall (portUnit p) 2 (s.portBase p)).refreshBar b

/-- Line `x` is due at bar `b` and a port of it does not send it after a loss: its range is rejected, once for the bar (R279). -/
def State.gapLine (s : State) (b : Nat) (x : Int) : State :=
  let ps := s.portsOf b
  let out := ps.any fun p => match (s.hp p).gap with
    | some (a, z) => decide (a ≤ x) && (match z with | some z => decide (x < z) | none => true)
    | none => false
  let s := s.cond (out && (s.barMode b == 3 || s.barMode b == 6)) fun s => s.rejLines 6 b x (x + 1)
  s.each ps fun p s => match (s.hp p).gap with
    | some (_, some z) => if z ≤ x + 1 then s.setHp p { s.hp p with gap := none } else s
    | _ => s

/-- The sequencer of a bar that trapped does not run again yet (R116). -/
def State.seqDead (s : State) (b : Nat) : Bool :=
  (s.hb b).trapAt.isSome && (match s.boundTo b with | some e => s.engState e != 2 && s.engState e != 3 | none => true)

/-- A bar's lines retire unsent at their due position: its mode fires none, or its sequencer is trapped (R21, R109, R116). -/
def State.barDumb (s : State) (b : Nat) : Bool :=
  let m := s.barMode b
  (m != 3 && m != 6) || s.seqDead b || s.stopped b

/-- The bar fires lines composed without a layer or instance: STALL with that cause (R37, R190, R205). -/
def State.spanCheck (s : State) (b : Nat) (x : Int) : State :=
  let p := s.cp b
  let s := s.setCp b { p with spans := p.spans.filter fun z => decide (x < z.2.2) }
  let fires := s.barMode b == 3 || s.barMode b == 6
  s.each [1, 2] fun c s =>
    if fires && p.spans.any fun z => z.1 == c && decide (z.2.1 ≤ x) && decide (x < z.2.2) then s.stall b c else s.barRun b c

/-! ### Boundaries, staged transitions, end of a job -/

/-- Bar `b` takes over at this hit, with LINE = L (R405, R406): its ports send from line L + 16, and the range from the line after FIRED of the last heartbeat is
entered with cause TAKEOVER_GAP. -/
def State.takeOverBar (s : State) (b : Nat) : State :=
  let x := s.line b + 16
  let s := s.each (s.portsOf b) fun p s => s.setHp p { s.hp p with low := x }
  match s.twn.hbFired with
  | none => (s.set TWN_GAP_FIRST_LINE 0 b).set TWN_GAP_N_LINES 0 b
  | some l =>
    let f := x - 1 - ux 32 (x - 1 - (l.getD b 0).toNat)
    let s := (s.set TWN_GAP_FIRST_LINE (ux 32 (f + 1)) b).set TWN_GAP_N_LINES (x - 1 - f).toNat b
    let s : State := { s with twn.tkGap := smPut (fun _ => false) s.twn.tkGap b s.twn.tkStale }
    s.rejLines 9 b (f + 1) x

/-- Bar `b` moves: the most upstream bar's gap of a HOLD begins or is reported (R27, R136). -/
def State.moveBarAt (s : State) (t : ModeTr) (b : Nat) (p : Int) : State :=
  let up := s.upstream s.stagedBars == some b
  let old := s.barMode b
  let s := if up && old == 3 && t.target == 4 then { s with holdAt := some p } else s
  let s := if up && old == 4 && t.target == 3 then
      match s.holdAt with
      | some a => ({ s with holdAt := none } : State).reject 8 b (s.get GEK_LC_CTL_TRK b) a p
      | none => s
    else s
  (s.cond (old == 5 && t.target != 5) fun s => s.takeOverBar b).moveBar t b

/-- The staged transition at bar `b`'s hit of lines `[x, y)`, whose boundaries are `bs` as (line, repeat) (R27, R28, R130). -/
def State.stage (s : State) (b : Nat) (x : Int) (bs : List (Int × Nat)) : State :=
  match s.tr with
  | none => s
  | some t =>
    if s.mode = 1 ∨ !(s.stagedBars.contains b) ∨ t.moved.contains b then s
    else if t.imm then s.moveBarAt t b (s.linePos b x)
    else
      let t := if t.rep.isNone && s.upstream s.stagedBars == some b then { t with rep := (bs.head?).map (·.2) } else t
      let s : State := { s with tr := some t }
      match t.rep with
      | some r => match bs.find? fun z => decide (0 ≤ repDiff z.2 r) with
        | some z => s.moveBarAt t b (s.linePos b z.1)
        | none => s
      | none => s

/-- The bars of the job that runs. -/
def State.runBars (s : State) : List Nat := (List.range 16).filter fun b => (s.cp b).job.isSome

/-- Bar `b` has fired the last line of the job; with the last bar the press moves from PRINT to READY (R27, R432). -/
def State.barEnds (s : State) (b : Nat) : State :=
  if s.jobEnded.contains b then s
  else
    let s : State := { s with jobEnded := b :: s.jobEnded }
    if s.printing && s.runBars.all fun c => s.jobEnded.contains c then s.preempt.setMode 2 6 else s

/-! ### The hit -/

/-- A line clock hits with B at `bp` (2^-32 pu): R71 to R73, R75, R77 and all that follows from a hit. -/
def State.hit (s : State) (b : Nat) (bp : Int) : State :=
  let x := s.line b
  let sheet := s.on GEK_LC_CTL_SHEET b
  let left := s.get GEK_LC_SHEET_LINES b - (s.lk b).done
  let s := s.advance b bp (if sheet then left else 2 ^ 64) ((s.cp b).fire.length + 1)
  let y := s.line b
  let k := (y - x).toNat
  if k = 0 then s
  else
    let s := s.set64 GEK_LC_HWM_LO (bp / 2 ^ 32) b
    let l := s.lk b
    let bs := l.bounds.filter fun z => decide (x ≤ z.1) && decide (z.1 < y)
    let first := sheet && l.done == 0
    let s := s.setLk b { l with lastHit := some s.clk, done := if sheet then l.done + k else 0, bounds := l.bounds.filter fun z => decide (y ≤ z.1) }
    let s := if 1 < k then
        let s := s.raise EV_LINE_SKIP b (rangeArgs [] (s.linePos b x) (s.linePos b (y - 1)))
        (((s.addSat GEK_LC_SKIP (k - 1) b).retireLines b x (k - 1)).rejLines 2 b x (y - 1)).stall b 4
      else s.barRun b 4
    let s := s.cond first fun s => s.barRun b 7
    let s := if s.on GEK_TRK_STAT_LOSS (s.get GEK_LC_CTL_TRK b) then s else s.barRun b 5
    let s := s.latchAll (8 + b)
    let s := s.cond (first || !bs.isEmpty) fun s => s.latchAll (24 + b)
    let s := (s.stage b (y - 1) bs).refreshBack (s.get GEK_LC_CTL_TRK b)
    let s := s.cond (s.barDumb b) fun s => s.retireLines b (y - 1) 1
    let s := s.each (List.range k) fun (i : Nat) s => s.gapLine b (x + i)
    let s := s.each (List.range k) fun (i : Nat) s => s.deadline b (x + 16 + i)
    let s := s.spanCheck b (y - 1)
    let s := s.cond (sheet && decide (s.get GEK_LC_SHEET_LINES b ≤ (s.lk b).done)) fun s =>
      (s.put GEK_LC_STAT_WAIT_SHEET true b).retireEdges (s.get GEK_LC_CTL_TRK b)
    let s := s.each ((List.range 4).filter fun k => s.get GEK_TRK_SPREAD_LC k == b) fun k s => s.corrStep k
    let s := ((s.offStep b).checkOvf b).refreshPoint b
    let s := s.retireSheaves
    match (s.cp b).endLine with
    | some z => if z < y then s.barEnds b else s
    | none => s

/-- A hit now or, within MINGAP of the previous one, delayed with OVERSPEED (R73). -/
def State.tryHit (s : State) (b : Nat) : State :=
  if !(s.on GEK_LC_CTL_EN b) || s.on GEK_LC_STAT_WAIT_SHEET b || s.on GEK_LC_STAT_DELAYED b || s.mode == 0 then s
  else if s.barFine b < s.compare b then s
  else
    let soon := match (s.lk b).lastHit with | some t => decide ((s.clk - t) * 5 < s.get GEK_LC_MINGAP b * 4) | none => false
    if soon then (s.put GEK_LC_STAT_DELAYED true b).raiseLim EV_OVERSPEED b b ms100 else s.hit b (s.barFine b)

/-- The bar position of line clock `b` reaches COMPARE, `dt` SEQ cycles on (R71 to R73). -/
def execLineClockHit (b : Bar) (dt : Nat) (s : State) : Res := .next ((s.elapse dt).tryHit b)

/-- A delayed hit takes place at the first 400 MHz sample at or after the previous hit plus MINGAP (R73). -/
def execLineClockDelayedHit (b : Bar) (s : State) : Res :=
  if s.on GEK_LC_CTL_EN b && s.on GEK_LC_STAT_DELAYED b then
    let due := (match (s.lk b).lastHit with | some t => t | none => s.clk) + cdiv (s.get GEK_LC_MINGAP b * 4) 5
    let due := due + due % 2
    let s := (s.elapse (due - s.clk)).put GEK_LC_STAT_DELAYED false b
    .next (if s.compare b ≤ s.barFine b then s.hit b (s.barFine b) else s)
  else .next s

/-- A line clock that waits takes the next queued edge (R77); the first line of a chained job may become known (R202). -/
def execSheetEdgeTake (b : Bar) (s : State) : Res :=
  if s.on GEK_LC_CTL_EN b && s.on GEK_LC_CTL_SHEET b && s.on GEK_LC_STAT_WAIT_SHEET b then
    match (s.tk (s.get GEK_LC_CTL_TRK b)).edges.find? fun e => !(s.sheetDone b e.1) with
    | some e => .next (s.takeEdge b e).jobStart
    | none => .next s
  else .next s

/-- GEK_LC_CTL written; EN going to 1 sets the high-water mark to −2^63 and takes PITCH and OFFSET as last written (R74, R75), and a sheet-mode
clock waits for an edge (R77). -/
def State.lcCtl (s : State) (b : Nat) (v : Word) : State :=
  let was := s.on GEK_LC_CTL_EN b
  let s := s.hostWrite (GEK_LC_CTL.addr b) v
  let on := s.on GEK_LC_CTL_EN b
  if on && !was then
    let s := (s.set64 GEK_LC_HWM_LO (-(2 ^ 63)) b).setLk b Lc.empty
    let s := (s.put GEK_LC_STAT_DELAYED false b).put GEK_LC_STAT_WAIT_SHEET (s.on GEK_LC_CTL_SHEET b) b
    (s.setOffCorr b 0 0).refreshBack (s.get GEK_LC_CTL_TRK b)
  else if was && !on then ((s.put GEK_LC_STAT_DELAYED false b).put GEK_LC_STAT_WAIT_SHEET false b).setOffCorr b 0 0
  else s

/-- The host writes GEK_LC_CTL with EN = 1, on a tracker, in sheet mode or not (R74). -/
def execLcEnable (b : Bar) (k : Tn) (sheet : Bool) (s : State) : Res := s.heard <|
  .next (s.lcCtl b (BitVec.ofNat 32 (1 + 2 * k.val + 8 * b2n sheet)))

/-- The host writes a word of PITCH or OFFSET: at once while EN is 0, else in the shadow (R75). -/
def execLcPitchOffsetWrite (b : Bar) (which : Fin 4) (v : BitVec 32) (s : State) : Res := s.heard <|
  let a := GEK_LC_OFFSET_LO.addr b + 4 * which
  let s := s.wr a v
  .next (if s.on GEK_LC_CTL_EN b then s else s.putAp a v)

end Sys2Proof.Machine
end

