-- ==== Sys2Proof/Machine/ReadOps.lean ====
section
/-! DEFINITION. Reads of BAR0 as the host and the engines make them: registers whose value is computed, the windows of the sequencer
memories (R85), the latch of 64-bit pairs (R81, R96, R394), registers that a read clears (R180, R254, R313, R466). -/

namespace Sys2Proof.Machine

/-- The low words of 64-bit register pairs: address of the first instance, strides and counts. -/
def pairLows : List (Nat × List (Nat × Nat)) :=
  [(0x4030c, [(32, 8)]), (0x41008, [(256, 4)]), (0x41010, [(256, 4)]), (0x41018, [(256, 4)]), (0x41020, [(256, 4)]), (0x41040, [(256, 4)])] ++
  [(0x41048, [(256, 4)]), (0x41050, [(256, 4)]), (0x42008, [(128, 16)]), (0x42010, [(128, 16)]), (0x4201c, [(128, 16)]), (0x42024, [(128, 16)])] ++
  [(0x4202c, [(128, 16)]), (0x80100, []), (0x81020, [(256, 28)]), (0x81030, [(256, 28)]), (0x90080, [(4096, 28), (8, 8)]), (0x80310, [])] ++
  [(0x80400, [(16, 64)]), (0xb00008, []), (0xb00048, []), (0xb00060, []), (0x300010, []), (0x300020, [])] ++
  [(0x301008, [(256, 16)]), (0x301034, [(256, 16)]), (0x30103c, [(256, 16)]), (0x301048, [(256, 16)]), (0x301054, [(256, 16)]), (0x304104, [(32, 8)])] ++
  [(0x340000, []), (0x340018, []), (0x340020, []), (0x340034, []), (0x38001c, []), (0x381030, [(512, 12)])] ++
  [(0x38103c, [(512, 12)]), (0x381048, [(512, 12)]), (0x381054, [(512, 12)]), (0x388008, [(128, 128)]), (0x388018, [(128, 128)]), (0xa00030, [(4096, 128)])] ++
  [(0xc01010, [(1024, 8)]), (0xc01018, [(1024, 8)]), (0xc01024, [(1024, 8)]), (0xc0102c, [(1024, 8)]), (0xc01090, [(1024, 8)]), (0xc010a0, [(1024, 8)])] ++
  [(0xc010d0, [(1024, 8)]), (0xc01148, [(1024, 8)]), (0xc01158, [(1024, 8)]), (0xc0118c, [(1024, 8)]), (0xc01210, [(1024, 8), (64, 6)]), (0xd00010, [])] ++
  [(0xd00020, []), (0xe00114, [(64, 12)]), (0xe0011c, [(64, 12)]), (0xe00124, [(64, 12)]), (0xe01008, []), (0xf01024, [(128, 8)])] ++
  [(0xf02004, [(128, 8)]), (0xf80018, []), (0xf80020, []), (0xf80028, []), (0xfc0010, []), (0xfc0018, [])] ++
  [(0x20018, []), (0x20100, [(16, 8)]), (0x21000, [(64, 64)]), (0x14, [])]

/-- A read of the word at this address latches the next one (R81). -/
def pairLow (a : Nat) : Bool := pairLows.any fun p => decide (p.1 ≤ a) && (dimIndex p.2 (a - p.1) 0).isSome

/-- Cycles of engine `e`'s clock since its START (R82, R124); 0 before the first. -/
def State.engCycles (s : State) (e : Nat) : Nat :=
  match (s.ex e).startClk with
  | some c => (if isV e then (s.clk - c) * 5 / 4 else s.clk - c) % 2 ^ 64
  | none => 0

/-- The word of a sequencer memory at a BAR0 address (R85). -/
def State.seqWord (s : State) (a : Nat) : Word :=
  let n := (a - 0x100000) / 0x18000
  let o := (a - 0x100000) % 0x18000
  if o < 0x10000 then s.code n o else BitVec.ofNat 32 (s.dld n (o - 0x10000) 4)

/-- The registers whose EN reads 0 and ignores writes at LEVEL 1: CHL_CTL and every CHL_CH_CTL (R491). -/
def chlEnable (a : Nat) : Bool := a == CHL_CTL.addr || (List.range 12).any fun n => a == CHL_CH_CTL.addr n

/-- What a read of the BAR0 word at `a` returns, without what the read itself does. -/
def State.peek (s : State) (a : Nat) : Word :=
  if 0x100000 ≤ a ∧ a < 0x280000 then s.seqWord a
  else if a = TIM_NOW_NS.addr then BitVec.ofNat 32 s.ptpNs
  else if a = TIM_NOW_SEC.addr then BitVec.ofNat 32 s.ptpSec
  else if a = TWN_STANDBY_H.addr then BitVec.ofNat 32 s.standbyHours
  else if a = TWN_COPY_AGE.addr then putBits (s.rd a) 0 16 (clampI 0 65535 (s.copyAge / 1000)).toNat
  else if ENG_CMD.addr ≤ a ∧ a < ENG_CMD.addr 28 ∧ (a % 256 = 0x30 ∨ a % 256 = 0x34) then
    BitVec.ofNat 32 (s.engCycles ((a - ENG_CMD.addr) / 256) / (if a % 256 = 0x30 then 1 else 2 ^ 32))
  else if (a = GLB_NOR_ADDR.addr ∨ a = GLB_NOR_DATA.addr ∨ a = GLB_NOR_STAT.addr) ∧ !(s.on GLB_START_STAT_RECOVERY) then 0
  else if s.get GLB_COMPAT_LEVEL = 1 ∧ chlEnable a then putBits (s.rd a) 0 1 0
  else s.rd a

/-- The words that a read of `a` latches, with their values (R81, R394). -/
def State.latches (s : State) (a : Nat) : List (Nat × Word) :=
  if a = TIM_NOW_NS.addr then [(TIM_NOW_SEC.addr, s.peek TIM_NOW_SEC.addr), (TIM_NS.addr, s.peek TIM_NS.addr)]
  else if a = TIM_EPOCH_NS.addr then [(TIM_EPOCH_SEC.addr, s.peek TIM_EPOCH_SEC.addr)]
  else if pairLow a then [(a + 4, s.peek (a + 4))]
  else []

/-- The fields that a read of `a` clears. -/
def State.readClears (s : State) (a : Nat) : State :=
  if a = CMP_POOL_PEAK.addr then s.set CMP_POOL_PEAK 0
  else if a = CAM_ISP_LOAD.addr then s.set CAM_ISP_LOAD_PEAK 0
  else if a = MGT_TDIE.addr then s.set MGT_TDIE_PEAK 0
  else
    let s := s.each (List.range 8) fun u s => s.cond (a == CAM_U_LAT.addr u) fun s => s.wr a (resetAt a)
    s.each (List.range 12) fun t s => s.cond (a == TIL_TL_STAT.addr t) fun s => s.set TIL_TL_STAT_LAT 0 t

/-- A read of the BAR0 word at `a` by reader `k` (0 the host, 1 + e engine e): the value, and the state after it. A latched word is
returned once (R81). -/
def State.readReg (s : State) (k a : Nat) : Word × State :=
  let l := smGet (fun _ => []) s.latched k
  match l.find? fun x => x.1 == a with
  | some x => (x.2, { s with latched := smPut (fun _ => []) s.latched k (l.filter fun y => y.1 != a) })
  | none =>
    let n := s.latches a
    let v := s.peek a
    let s := s.readClears a
    (v, if n.isEmpty then s else { s with latched := smPut (fun _ => []) s.latched k n })

/-- The host reads the low word of a register pair, or another word whose read latches (R81); outside GLB only while the device hears it (R451). -/
def execRegPairReadLatch (a : Nat) (s : State) : Res :=
  if a < 0x10000 then .next (s.readReg 0 a).2 else s.heard <| .next (s.readReg 0 a).2

end Sys2Proof.Machine
end

