-- ==== Sys2Proof/Machine/UlranOps.lean ====
section
/-! DEFINITION. What each engine instruction does at issue (03_ulran R90 to R109), as a function of the fields of its word and the state before:
integer, memory, control, position and wait instructions, and the press instructions of the sequencers. Profile checks follow R82, the order
of traps R499. -/

namespace Sys2Proof.Machine

/-! ### Integer instructions (R90 to R92) -/

/-- A result of two G registers. -/
def opG2 (f : Word → Word → Word) (e rd ra rb : Nat) (s : State) : UOut := .next (s.setG e rd (f (s.g e ra) (s.g e rb)))

/-- A result of one G register. -/
def opG1 (f : Word → Word) (e rd ra : Nat) (s : State) : UOut := .next (s.setG e rd (f (s.g e ra)))

/-- The high 32 bits of a signed product. -/
def mulhs (a b : Word) : Word := BitVec.ofInt 32 (a.toInt * b.toInt / 2 ^ 32)
/-- The high 32 bits of an unsigned product. -/
def mulhu (a b : Word) : Word := BitVec.ofNat 32 (a.toNat * b.toNat / 2 ^ 32)
/-- Signed minimum. -/
def mins {n : Nat} (a b : BitVec n) : BitVec n := if a.slt b then a else b
/-- Signed maximum. -/
def maxs {n : Nat} (a b : BitVec n) : BitVec n := if a.slt b then b else a
/-- Unsigned minimum. -/
def minu {n : Nat} (a b : BitVec n) : BitVec n := if a.ult b then a else b
/-- Unsigned maximum. -/
def maxu {n : Nat} (a b : BitVec n) : BitVec n := if a.ult b then b else a
/-- Leading zeros, 0 to 32. -/
def clz (a : Word) : Word := BitVec.ofNat 32 ((List.range 32).takeWhile fun i => !(bitN a.toNat (31 - i))).length
/-- Set bits. -/
def popc (a : Word) : Word := BitVec.ofNat 32 ((List.range 32).filter fun i => bitN a.toNat i).length
/-- The shift count of a register shift: bits [4:0]. -/
def sh5 (b : Word) : Nat := b.toNat % 32

/-- ADD (R90). -/
def opAdd (e rd ra rb : Nat) : State → UOut := opG2 (fun a b => a + b) e rd ra rb
/-- SUB (R90). -/
def opSub (e rd ra rb : Nat) : State → UOut := opG2 (fun a b => a - b) e rd ra rb
/-- AND (R90). -/
def opAnd (e rd ra rb : Nat) : State → UOut := opG2 (fun a b => a &&& b) e rd ra rb
/-- OR (R90). -/
def opOr (e rd ra rb : Nat) : State → UOut := opG2 (fun a b => a ||| b) e rd ra rb
/-- XOR (R90). -/
def opXor (e rd ra rb : Nat) : State → UOut := opG2 (fun a b => a ^^^ b) e rd ra rb
/-- SLL (R90). -/
def opSll (e rd ra rb : Nat) : State → UOut := opG2 (fun a b => a <<< sh5 b) e rd ra rb
/-- SRL (R90). -/
def opSrl (e rd ra rb : Nat) : State → UOut := opG2 (fun a b => a >>> sh5 b) e rd ra rb
/-- SRA (R90). -/
def opSra (e rd ra rb : Nat) : State → UOut := opG2 (fun a b => a.sshiftRight (sh5 b)) e rd ra rb
/-- MUL (R90). -/
def opMul (e rd ra rb : Nat) : State → UOut := opG2 (fun a b => a * b) e rd ra rb
/-- MULHS (R90). -/
def opMulhs (e rd ra rb : Nat) : State → UOut := opG2 mulhs e rd ra rb
/-- MULHU (R90). -/
def opMulhu (e rd ra rb : Nat) : State → UOut := opG2 mulhu e rd ra rb
/-- MIN (R90). -/
def opMin (e rd ra rb : Nat) : State → UOut := opG2 mins e rd ra rb
/-- MAX (R90). -/
def opMax (e rd ra rb : Nat) : State → UOut := opG2 maxs e rd ra rb
/-- MINU (R90). -/
def opMinu (e rd ra rb : Nat) : State → UOut := opG2 minu e rd ra rb
/-- MAXU (R90). -/
def opMaxu (e rd ra rb : Nat) : State → UOut := opG2 maxu e rd ra rb
/-- SEL: flag `f` chooses Ga or Gb (R90). -/
def opSel (e f rd ra rb : Nat) (s : State) : UOut := opG2 (fun a b => if s.flag e f then a else b) e rd ra rb s
/-- CLZ (R90). -/
def opClz (e rd ra : Nat) : State → UOut := opG1 clz e rd ra
/-- POPC (R90). -/
def opPopc (e rd ra : Nat) : State → UOut := opG1 popc e rd ra
/-- SLLI: the RB field is the count (R90). -/
def opSlli (e rd ra n : Nat) : State → UOut := opG1 (fun a => a <<< n) e rd ra
/-- SRLI (R90). -/
def opSrli (e rd ra n : Nat) : State → UOut := opG1 (fun a => a >>> n) e rd ra
/-- SRAI (R90). -/
def opSrai (e rd ra n : Nat) : State → UOut := opG1 (fun a => a.sshiftRight n) e rd ra
/-- GETF (R90). -/
def opGetf (e rd : Nat) (s : State) : UOut := .next (s.setG e rd (flagsWord s e))
/-- SETF (R90). -/
def opSetf (e ra : Nat) (s : State) : UOut := .next (s.setFlags e (s.g e ra))
/-- ADDI (R91). -/
def opAddi (e rd ra imm : Nat) : State → UOut := opG1 (fun a => a + simm imm) e rd ra
/-- ANDI (R91). -/
def opAndi (e rd ra imm : Nat) : State → UOut := opG1 (fun a => a &&& zimm imm) e rd ra
/-- ORI (R91). -/
def opOri (e rd ra imm : Nat) : State → UOut := opG1 (fun a => a ||| zimm imm) e rd ra
/-- XORI (R91). -/
def opXori (e rd ra imm : Nat) : State → UOut := opG1 (fun a => a ^^^ zimm imm) e rd ra
/-- LUI (R91). -/
def opLui (e rd imm : Nat) (s : State) : UOut := .next (s.setG e rd (zimm imm <<< 16))
/-- CMP (R92). -/
def opCmp (e c f ra rb : Nat) (s : State) : UOut := cmpOut e c f (s.g e ra) (s.g e rb) s
/-- CMPI: the sign-extended immediate, taken as unsigned by unsigned conditions (R92). -/
def opCmpi (e c f ra imm : Nat) (s : State) : UOut := cmpOut e c f (s.g e ra) (simm imm) s

/-! ### Loads and stores (R84, R93) -/

/-- The data address Ga + IMM16, modulo 2^32. -/
def memAddr (s : State) (e ra imm : Nat) : Nat := (s.g e ra + simm imm).toNat

/-- The trap of an access of `n` bytes at `a` (R93, R499). -/
def memTrap (e a n : Nat) : Option Nat := if dataSize e ≤ a then some 3 else if a % n ≠ 0 then some 4 else none

/-- A load of `n` bytes, zero-extended. -/
def opLoad (n e rd ra imm : Nat) (s : State) : UOut :=
  match memTrap e (memAddr s e ra imm) n with
  | some c => .trap c
  | none => .next (s.setG e rd (BitVec.ofNat 32 (s.dld e (memAddr s e ra imm) n)))

/-- A store of the low `n` bytes of Gd. -/
def opStore (n e rd ra imm : Nat) (s : State) : UOut :=
  match memTrap e (memAddr s e ra imm) n with
  | some c => .trap c
  | none => .next (s.dst e (memAddr s e ra imm) n (s.g e rd).toNat)

/-- LD (R93). -/
def opLd (e rd ra imm : Nat) : State → UOut := opLoad 4 e rd ra imm
/-- LDH (R93). -/
def opLdh (e rd ra imm : Nat) : State → UOut := opLoad 2 e rd ra imm
/-- LDB (R93). -/
def opLdb (e rd ra imm : Nat) : State → UOut := opLoad 1 e rd ra imm
/-- ST (R93). -/
def opSt (e rd ra imm : Nat) : State → UOut := opStore 4 e rd ra imm
/-- STH (R93). -/
def opSth (e rd ra imm : Nat) : State → UOut := opStore 2 e rd ra imm
/-- STB (R93). -/
def opStb (e rd ra imm : Nat) : State → UOut := opStore 1 e rd ra imm

/-- PLD (R93). -/
def opPld (e pd ra imm : Nat) (s : State) : UOut :=
  match memTrap e (memAddr s e ra imm) 8 with
  | some c => .trap c
  | none => .next (s.setP e pd (BitVec.ofNat 64 (s.dld e (memAddr s e ra imm) 8)))

/-- PST (R93). -/
def opPst (e pd ra imm : Nat) (s : State) : UOut :=
  match memTrap e (memAddr s e ra imm) 8 with
  | some c => .trap c
  | none => .next (s.dst e (memAddr s e ra imm) 8 (s.pr e pd).toNat)

/-! ### Control transfers (R94) -/

/-- The target PC + 4 × offset, a signed number that does not wrap (R94). -/
def target (s : State) (e w off : Nat) : Int := (s.get ENG_PC e : Int) + 4 * sx w off

/-- BR (R94). -/
def opBr (e c f off : Nat) (s : State) : UOut :=
  match c with
  | 0 => .jump (target s e 21 off) s
  | 1 => if s.flag e f then .jump (target s e 21 off) s else .next s
  | 2 => if s.flag e f then .next s else .jump (target s e 21 off) s
  | _ => .trap 1

/-- CALL (R94). -/
def opCall (e off : Nat) (s : State) : UOut := .jump (target s e 21 off) (s.setG e 31 (BitVec.ofNat 32 (s.get ENG_PC e + 4)))

/-- JR: a target out of code memory traps before a misaligned one does (R94, R499). -/
def opJr (e ra : Nat) (s : State) : UOut :=
  let t := (s.g e ra).toNat
  if 0x10000 ≤ t then .trap 5 else if t % 4 ≠ 0 then .trap 6 else .jump t s

/-- DBNZ: the value written decides; G0 reads 0, so DBNZ G0 never branches (R94). -/
def opDbnz (e rd imm : Nat) (s : State) : UOut :=
  let s' := s.setG e rd (s.g e rd - 1)
  if s'.g e rd = 0 then .next s' else .jump (target s e 16 imm) s'

/-- HALT (R94). -/
def opHalt (_e : Nat) (s : State) : UOut := .stop s

/-! ### Position arithmetic (R95) -/

/-- A result in a P register. -/
def outP (e pd : Nat) (v : Dword) (s : State) : UOut := .next (s.setP e pd v)

/-- PADD (R95). -/
def opPadd (e pd pa pb : Nat) (s : State) : UOut := outP e pd (s.pr e pa + s.pr e pb) s
/-- PSUB (R95). -/
def opPsub (e pd pa pb : Nat) (s : State) : UOut := outP e pd (s.pr e pa - s.pr e pb) s
/-- PADDG (R95). -/
def opPaddg (e pd pa rb : Nat) (s : State) : UOut := outP e pd (s.pr e pa + (s.g e rb).signExtend 64) s
/-- PMAC (R95). -/
def opPmac (e pd ra rb : Nat) (s : State) : UOut :=
  outP e pd (s.pr e pd + (s.g e ra).signExtend 64 * (s.g e rb).signExtend 64) s
/-- PSETG (R95). -/
def opPsetg (e pd ra : Nat) (s : State) : UOut := outP e pd ((s.g e ra).signExtend 64) s
/-- PSETGU (R95). -/
def opPsetgu (e pd ra : Nat) (s : State) : UOut := outP e pd ((s.g e ra).setWidth 64) s
/-- PGETL (R95). -/
def opPgetl (e rd pa : Nat) (s : State) : UOut := .next (s.setG e rd ((s.pr e pa).setWidth 32))
/-- PGETH (R95). -/
def opPgeth (e rd pa : Nat) (s : State) : UOut := .next (s.setG e rd ((s.pr e pa >>> 32).setWidth 32))
/-- PMOV (R95). -/
def opPmov (e pd pa : Nat) (s : State) : UOut := outP e pd (s.pr e pa) s
/-- PSETH: the low half is kept (R95). -/
def opPseth (e pd ra : Nat) (s : State) : UOut := outP e pd (s.g e ra ++ (s.pr e pd).setWidth 32) s
/-- PSLLI (R95). -/
def opPslli (e pd pa n : Nat) (s : State) : UOut := outP e pd (s.pr e pa <<< n) s
/-- PSRAI (R95). -/
def opPsrai (e pd pa n : Nat) (s : State) : UOut := outP e pd ((s.pr e pa).sshiftRight n) s
/-- PCMP (R95). -/
def opPcmp (e c f pa pb : Nat) (s : State) : UOut := cmpOut e c f (s.pr e pa) (s.pr e pb) s

/-! ### Reads of press state (R96, R97) -/

/-- IORD through the engine's own latch (R96). -/
def opIord (e rd ra imm : Nat) (s : State) : UOut :=
  let a := memAddr s e ra imm
  if 0x4000000 ≤ a ∨ a % 4 ≠ 0 then .trap 8
  else .next ((s.readReg (1 + e) a).2.setG e rd (s.readReg (1 + e) a).1)

/-- The source that a UNIT names in pu or, for a line clock, in lines (R97 mode 0, R98). -/
def posSrc (s : State) (unit : Nat) (line : Bool) : Option Int :=
  if unit < 4 then (if line then none else some (s.pos unit))
  else if 16 ≤ unit ∧ unit < 32 then some (if line then s.line (unit - 16) else s.barPos (unit - 16))
  else none

/-- The live value of PRD (R97); none: no such MODE and UNIT. -/
def prdVal (s : State) (e mode unit : Nat) : Option Int :=
  match mode with
  | 0 => posSrc s unit false
  | 1 => if unit < 16 then none else posSrc s unit true
  | 2 => if unit < 8 then some (s.geti64 GEK_MK_LATCH_LO unit) else none
  | 3 => if unit < 4 then some (s.geti GEK_TRK_SPEED unit) else none
  | 4 => if unit < 4 then some (match (s.tk unit).edges with | x :: _ => x.2 | [] => -(2 ^ 63)) else none
  | 5 => if unit = 0 then some (s.get TIM_NS) else if unit = 1 then some (s.engCycles e) else none
  | 6 => if 16 ≤ unit ∧ unit < 32 then some (s.geti64 GEK_LC_HWM_LO (unit - 16)) else none
  | _ => none

/-- PRD (R97). -/
def opPrd (e pd unit mode : Nat) (s : State) : UOut :=
  match prdVal s e mode unit with
  | some z => outP e pd (BitVec.ofInt 64 z) s
  | none => .trap 1

/-! ### Waits (R98 to R102) -/

/-- The condition of a WAITPOS (R98). -/
def posMet (s : State) (w : UWait) : Bool :=
  match posSrc s w.unit w.line with
  | some z => if w.le then decide (z ≤ w.tgt) else decide (w.tgt ≤ z)
  | none => false

/-- WAITPOS: a condition that holds at issue ends the wait at once (R98, R102). -/
def opWaitpos (e pa unit : Nat) (line tmo le : Bool) (s : State) : UOut :=
  let u : UWait := ⟨1, unit, 0, (s.pr e pa).toInt, line, le, tmo, 0⟩
  match posSrc s unit line with
  | none => .trap 1
  | some _ => if posMet s u then .next (s.setFlag e 3 false) else .wait u s

/-- The latch that UNIT and IMM12 of a WAITEVT name (R99). -/
def evtLatch (unit imm : Nat) : Option Nat :=
  match unit with
  | 0 => if imm < 8 then some imm else none
  | 1 => if imm < 16 then some (8 + imm) else none
  | 2 => if imm < 16 then some (24 + imm) else none
  | 3 => if imm < 16 then some (40 + imm) else none
  | 4 => if imm < 4 then some (56 + imm) else none
  | 5 => if imm = 0 then some 60 else none
  | 6 => if imm = 0 then some 61 else none
  | 7 => if imm < 8 then some (64 + imm) else none
  | _ => none

/-- The register word of a latch (R124). -/
def latchFld (n : Nat) : Fld := if n < 32 then ENG_EVLATCH0 else if n < 64 then ENG_EVLATCH1 else ENG_EVLATCH2

/-- Latch `n` of engine `e` is set. -/
def State.latched? (s : State) (e n : Nat) : Bool := bitN (s.get (latchFld n) e) (n % 32)

/-- Latch `n` of engine `e` cleared, with what it remembers for F2. -/
def State.clearLatch (s : State) (e n : Nat) : State :=
  let m := smGet (fun _ => 0) s.latchMore e
  let s : State := { s with latchMore := smPut (fun _ => 0) s.latchMore e (putBit m n false) }
  s.set (latchFld n) (putBit (s.get (latchFld n) e) (n % 32) false) e

/-- A latch found set: F2 tells whether its source occurred more than once, F3 = 0, the latch clears (R100, R102). -/
def State.takeLatch (s : State) (e n : Nat) : State :=
  let more := bitN (smGet (fun _ => 0) s.latchMore e) n
  ((s.clearLatch e n).setFlag e 2 more).setFlag e 3 false

/-- WAITEVT: MODE[0] clears the latch first (R99, R100). -/
def opWaitevt (e unit imm : Nat) (clear tmo : Bool) (s : State) : UOut :=
  match evtLatch unit imm with
  | none => .trap 1
  | some n =>
    let s := if clear then s.clearLatch e n else s
    if s.latched? e n then .next (s.takeLatch e n) else .wait ⟨2, unit, n, 0, false, false, tmo, 0⟩ s

/-- WAITT: Ga + IMM16 µs, saturating; a sum of 0 waits no time (R101). -/
def opWaitt (e ra imm : Nat) (s : State) : UOut :=
  let t := min ((s.g e ra).toNat + imm) (2 ^ 32 - 1)
  if t = 0 then .next s else .wait ⟨3, 0, 0, t, false, false, false, 0⟩ s

/-! ### Press instructions (R104 to R109) -/

/-- An instruction that R109 suppresses is counted. -/
def State.suppressed (s : State) (e : Nat) : State := s.addSat ENG_CNT_SUPPRESSED 1 e

/-- The logical level of GIO `n` (R140, R143). -/
def State.gioLevel (s : State) (n : Nat) : Bool := bitN (s.get SEQ_GIO_OUT) n

/-- The logical level of GIO `n` made `v`, with a pulse in progress or not (R142). -/
def State.setGio (s : State) (n : Nat) (v pulse : Bool) : State :=
  ({ s with gioPulse := smPut (fun _ => false) s.gioPulse n pulse } : State).set SEQ_GIO_OUT (putBit (s.get SEQ_GIO_OUT) n v)

/-- An EMIT of a GIO kind: in SHADOW suppressed, where it still sets the level (R109, R401); on an input pin DIR_ERR (R141). -/
def State.gioEmit (s : State) (e n : Nat) (v pulse : Bool) : State :=
  let s := s.setGio n v pulse
  if s.mode = 5 then s.suppressed e
  else if bitN (s.get SEQ_GIO_DIR) n then s
  else (s.put SEQ_GIO_STAT_DIR_ERR true).raiseLim EV_GIO_DIR_ERR (engUnit e) 0 ms100

/-- The checks of an EMIT that only sequencers execute: the target's range, then the profile (R82, R104, R499). -/
def seqEmit (e n lim : Nat) (k : UOut) : UOut := if lim ≤ n then .trap 1 else if isV e then .trap 2 else k

/-- EMIT GIO_LOW (R104). -/
def opGioLow (e n : Nat) (s : State) : UOut := seqEmit e n 32 (.next (s.gioEmit e n false false))
/-- EMIT GIO_HIGH (R104). -/
def opGioHigh (e n : Nat) (s : State) : UOut := seqEmit e n 32 (.next (s.gioEmit e n true false))
/-- EMIT GIO_TOGGLE (R104). -/
def opGioToggle (e n : Nat) (s : State) : UOut := seqEmit e n 32 (.next (s.gioEmit e n (!(s.gioLevel n)) false))
/-- EMIT GIO_PULSE: width 0 gives no pulse and leaves one in progress (R104, R142). -/
def opGioPulse (e ra n : Nat) (s : State) : UOut :=
  seqEmit e n 32 (.next (if s.g e ra = 0 then (if s.mode = 5 then s.suppressed e else s) else s.gioEmit e n true true))

/-- EMIT TRIG: every engine's latch, and the start trigger where a sequencer emits the trigger named in READY (R33, R104). -/
def opTrig (e n : Nat) (s : State) : UOut :=
  if 16 ≤ n then .trap 1
  else
    let s := s.latchAll (40 + n)
    .next (if s.on GLB_PRINT_TRIG_EN && s.get GLB_PRINT_TRIG_TRIG == n && s.mode == 2 && !(isV e) then { s with startTrig := true } else s)

/-- EMIT TPULSE: acts on a TPO whose source is the sequencers (R104, R392). -/
def opTpulse (e ra n : Nat) (s : State) : UOut :=
  seqEmit e n 8 (.next (
    if s.mode = 5 then s.suppressed e
    else if s.get TPO_CFG_SRC n = 2 ∧ s.g e ra ≠ 0 then ({ s with tpPulse := smPut (fun _ => false) s.tpPulse n true } : State).addWrap TPO_STAT_PULSES 1 n else s))

/-- EMIT HOSTEVT (R104, R125). -/
def opHostevt (e ra code : Nat) (s : State) : UOut := .next (s.raise EV_SEQ_USER (engUnit e) [code, (s.g e ra).toNat])

/-- The checks of an instruction on bar `b`: UNIT, profile, binding (R82, R105, R106, R499). -/
def onBar (s : State) (e b : Nat) (k : UOut) : UOut :=
  if 16 ≤ b then .trap 1 else if isV e then .trap 2 else if s.boundTo b = some e then k else .trap 7

/-- The bar returns to RUN at its first STROBE after a trap, with the range that passed unfired (R116). -/
def State.resumeBar (s : State) (b : Nat) (acts : Bool) : State :=
  let h := s.hb b
  match h.trapAt with
  | none => s
  | some x =>
    let a := s.linePos b x
    let z := s.linePos b (max x (s.line b - 1))
    let s := (s.setHb b { h with trapAt := none }).raise EV_SEQ_RESUMED b (rangeArgs [] a z)
    (s.cond acts fun s => s.reject 5 b (s.get GEK_LC_CTL_TRK b) a z).barRun b 9

/-- When the first STROBE copy leaves, in ps after issue: ready at 20.0 ns, then one word in progress of at most 6.4 ns (R274; Config.free 4). -/
def copyEnd (s : State) (p : Nat) : Int := 26400 + ((Config.free 4 (s.fresh + p) % 6401 : Nat) : Int)

/-- DELAY of the first copy, in 0.4 ns (R274). -/
def strobeDelay (s : State) (b p : Nat) : Int :=
  rdiv ((s.get HPL_BAR_LAT_LAT b : Int) * 1250 - copyEnd s p - (s.hp p).lat2 * 200 - (s.get HPL_PORT_HBINFO_HBLAT p : Int) * 400) 400

/-- The STROBE of line `x` at port `p`: both copies, for a line that the port has sent (R262, R274). -/
def State.strobeAt (s : State) (b p : Nat) (x : Int) : State :=
  let h := s.hp p
  if h.sent.any (fun l => l.line == x) && !(s.stopped (portUnit p)) then
    let d := strobeDelay s b p
    s.setHp p { h with
      sent := h.sent.filter (fun l => l.line != x)
      strobed := x :: h.strobed
      out := [strobeWord x (ux 16 d) false false, strobeWord x (ux 16 (d - 16)) false true] }
  else s

/-- The bar fires in its mode (R109) and is not stopped by a fence (R40). -/
def State.barFires (s : State) (b : Nat) : Bool := (s.barMode b == 3 || s.barMode b == 6) && !(s.stopped b)

/-- FIRE STROBE for line LINE − 1 (R105, R109, R116, R274). -/
def State.strobe (s : State) (e b : Nat) : State :=
  let x := s.line b - 1
  let acts := s.barFires b
  let s := s.resumeBar b acts
  let s := s.setHb b { s.hb b with strobes := (s.hb b).strobes + 1 }
  let s := s.cond (s.barMode b != 3 && s.barMode b != 6) fun s => s.suppressed e
  if (s.hb b).fired = some x then
    (s.addSat ENG_CNT_FIRE_DUP 1 e).raiseLim EV_FIRE_DUP b b ms100
  else
    let s := s.setHb b { s.hb b with fired := some x }
    if acts then
      let s := s.each (s.portsOf b) fun p s => s.strobeAt b p x
      let s : State := { s with fresh := s.fresh + 128 }
      if (s.cp b).endLine = some (x + 1) then s.barEnds b else s
    else s

/-- FIRE STROBE (R105). -/
def opStrobe (e b : Nat) (s : State) : UOut := onBar s e b (.next (s.strobe e b))

/-- FIRE TICKLE: every port of the bar sends the pattern code (R105, R262, R263). -/
def opTickle (e ra b : Nat) (s : State) : UOut :=
  onBar s e b (.next (
    let m := s.barMode b
    if m = 2 ∨ m = 3 ∨ m = 4 ∨ m = 6 then
      (s.each (s.portsOf b) fun p s => s.cond (s.linkUp p && !(s.stopped (portUnit p))) fun s => s.tx p [tickleWord (s.g e ra).toNat])
    else s.suppressed e))

/-- Ga taken as bits [31:0] of a line number within 2^31 of LINE (R132). -/
def absLine (s : State) (b : Nat) (v : Word) : Int := s.line b + sx 32 (ux 32 ((v.toNat : Int) - s.line b))

/-- The release mark raised to `x`; a substitution noted, for the lines whose send deadline has not passed (R133); suppressed outside READY, PRINT and SERVICE (R106, R109). -/
def State.release (s : State) (e b : Nat) (x : Int) (sub : Option (Nat × Nat)) : State :=
  let h := s.hb b
  let subs := h.subs.filter fun y => decide (s.line b ≤ y.2.1)
  let s := s.setHb b { h with mark := max h.mark x, subs := match sub with | some (st, d) => (s.line b + 16, x, st, d) :: subs | none => subs }
  let m := s.barMode b
  if m = 2 ∨ m = 3 ∨ m = 6 then s else s.suppressed e

/-- LINE RELEASE (R106). -/
def opRelease (e ra b : Nat) (s : State) : UOut := onBar s e b (.next (s.release e b (absLine s b (s.g e ra)) none))
/-- LINE RELEASE_REL (R106). -/
def opReleaseRel (e ra b : Nat) (s : State) : UOut := onBar s e b (.next (s.release e b (s.line b + (s.g e ra).toInt) none))
/-- LINE LADDER: IMM12[7:0] the step S, IMM12[10:8] the code D; S = 0 substitutes nothing (R106). -/
def opLadder (e ra b imm : Nat) (s : State) : UOut :=
  onBar s e b (.next (s.release e b (absLine s b (s.g e ra)) (if imm % 256 = 0 then none else some (imm % 256, imm / 256 % 8))))
/-- LINE BLANK (R106). -/
def opBlank (e ra b : Nat) (s : State) : UOut := onBar s e b (.next (s.release e b (absLine s b (s.g e ra)) (some (0, 0))))

/-- The bar and the ports that a SEND's IMM12 names; none where the issuing sequencer is not bound to them (R107). -/
def sendTo (s : State) (e imm : Nat) : Option (Nat × List Nat) :=
  if imm / 2048 % 2 = 1 then
    if s.boundTo (imm % 16) = some e then some (imm % 16, s.portsOf (imm % 16)) else none
  else
    let p := imm % 128
    let b := s.get HPL_PORT_CFG_BAR p
    if s.on HPL_PORT_CFG_EN p && s.boundTo b == some e then some (b, [p]) else none

/-- SEND: the payload's address and length checked, then one block queued on every port named, or a stall while a queue is full (R107, R109,
R499). -/
def opSend (kind e ra imm : Nat) (s : State) : UOut :=
  if isV e then .trap 2
  else
    match sendTo s e imm with
    | none => .trap 7
    | some (b, ps) =>
      let a := (s.g e ra).toNat
      if dataSize e ≤ a then .trap 3
      else if a % 8 ≠ 0 then .trap 4
      else
        let n := s.dld e a 4
        if 64 < n ∨ dataSize e < a + 8 + 8 * n then .trap 3
        else if n = 0 then .next s
        else if s.barMode b = 5 then .next (s.suppressed e)
        else if ps.any fun p => decide (8 ≤ (s.hp p).ctl.length) then
          .wait ⟨5, 0, imm, 0, false, false, false, encD 0x25 0 ra kind imm⟩ s
        else
          let d := (List.range n).map fun i => BitVec.ofNat 64 (s.dld e (a + 8 + 8 * i) 8)
          .next (s.each ps fun p s => s.setHp p { s.hp p with ctl := (s.hp p).ctl ++ [(2 + kind, d)] })

/-- SEND CONFIG (R107). -/
def opSendConfig (e ra imm : Nat) : State → UOut := opSend 0 e ra imm
/-- SEND SYNC (R107). -/
def opSendSync (e ra imm : Nat) : State → UOut := opSend 1 e ra imm

/-- SHEAF stalls issue until the composer answers; the repeat index is kept as the wait's target (R108). -/
def opSheaf (e ra imm : Nat) (s : State) : UOut :=
  if isV e then .trap 2 else .wait ⟨6, 0, imm, (s.g e ra).toNat, false, false, false, 0⟩ s

end Sys2Proof.Machine
end

