-- ==== Sys2Proof/Machine/UlranVec.lean ====
section
/-! DEFINITION. Vector and DMA instructions of the pixel engines (03_ulran R110 to R113) and the meaning of a whole instruction word (R86 to R88). -/

namespace Sys2Proof.Machine

/-- A lane of a vector register. -/
abbrev Lane := BitVec 16

/-- An instruction of the ULRAN-V profile (R82). -/
def onV (e : Nat) (k : UOut) : UOut := if isV e then k else .trap 2

/-- A lane-by-lane result (R110). -/
def opV2 (f : Lane → Lane → Lane) (e vd va vb : Nat) (s : State) : UOut :=
  onV e (.next (s.setV e vd (List.zipWith f (s.vr e va) (s.vr e vb))))

/-- A number held to the signed 16-bit range. -/
def satS (z : Int) : Lane := BitVec.ofInt 16 (clampI (-32768) 32767 z)
/-- A number held to the unsigned 16-bit range. -/
def satU (z : Int) : Lane := BitVec.ofInt 16 (clampI 0 65535 z)
/-- (a × b + 0x4000) >> 15 (R110, R111). -/
def qmul (a b : Lane) : Int := (a.toInt * b.toInt + 0x4000) / 2 ^ 15
/-- The shift count b[3:0]. -/
def sh4 (b : Lane) : Nat := b.toNat % 16

/-- VADD (R110). -/
def opVadd (e vd va vb : Nat) : State → UOut := opV2 (fun a b => a + b) e vd va vb
/-- VSUB (R110). -/
def opVsub (e vd va vb : Nat) : State → UOut := opV2 (fun a b => a - b) e vd va vb
/-- VADDS (R110). -/
def opVadds (e vd va vb : Nat) : State → UOut := opV2 (fun a b => satS (a.toInt + b.toInt)) e vd va vb
/-- VSUBS (R110). -/
def opVsubs (e vd va vb : Nat) : State → UOut := opV2 (fun a b => satS (a.toInt - b.toInt)) e vd va vb
/-- VADDUS (R110). -/
def opVaddus (e vd va vb : Nat) : State → UOut := opV2 (fun a b => satU ((a.toNat : Int) + b.toNat)) e vd va vb
/-- VSUBUS (R110). -/
def opVsubus (e vd va vb : Nat) : State → UOut := opV2 (fun a b => satU ((a.toNat : Int) - b.toNat)) e vd va vb
/-- VMIN (R110). -/
def opVmin (e vd va vb : Nat) : State → UOut := opV2 mins e vd va vb
/-- VMAX (R110). -/
def opVmax (e vd va vb : Nat) : State → UOut := opV2 maxs e vd va vb
/-- VMINU (R110). -/
def opVminu (e vd va vb : Nat) : State → UOut := opV2 minu e vd va vb
/-- VMAXU (R110). -/
def opVmaxu (e vd va vb : Nat) : State → UOut := opV2 maxu e vd va vb
/-- VABSD: the distance of the lanes as unsigned numbers (R110). -/
def opVabsd (e vd va vb : Nat) : State → UOut := opV2 (fun a b => if a.ult b then b - a else a - b) e vd va vb
/-- VAND (R110). -/
def opVand (e vd va vb : Nat) : State → UOut := opV2 (fun a b => a &&& b) e vd va vb
/-- VOR (R110). -/
def opVor (e vd va vb : Nat) : State → UOut := opV2 (fun a b => a ||| b) e vd va vb
/-- VXOR (R110). -/
def opVxor (e vd va vb : Nat) : State → UOut := opV2 (fun a b => a ^^^ b) e vd va vb
/-- VMULL (R110). -/
def opVmull (e vd va vb : Nat) : State → UOut := opV2 (fun a b => a * b) e vd va vb
/-- VMULHS (R110). -/
def opVmulhs (e vd va vb : Nat) : State → UOut := opV2 (fun a b => BitVec.ofInt 16 (a.toInt * b.toInt / 2 ^ 16)) e vd va vb
/-- VMULQ (R110). -/
def opVmulq (e vd va vb : Nat) : State → UOut := opV2 (fun a b => satS (qmul a b)) e vd va vb
/-- VSHL (R110). -/
def opVshl (e vd va vb : Nat) : State → UOut := opV2 (fun a b => a <<< sh4 b) e vd va vb
/-- VSHR (R110). -/
def opVshr (e vd va vb : Nat) : State → UOut := opV2 (fun a b => a >>> sh4 b) e vd va vb
/-- VSRA (R110). -/
def opVsra (e vd va vb : Nat) : State → UOut := opV2 (fun a b => a.sshiftRight (sh4 b)) e vd va vb
/-- VAVGU: a 17-bit intermediate (R110). -/
def opVavgu (e vd va vb : Nat) : State → UOut := opV2 (fun a b => BitVec.ofNat 16 ((a.toNat + b.toNat + 1) / 2)) e vd va vb
/-- VSLIDE: lane i + k of the 32 lanes Va, Vb (R110). -/
def opVslide (e vd va vb k : Nat) (s : State) : UOut := onV e (.next (s.setV e vd (((s.vr e va ++ s.vr e vb).drop k).take 16)))
/-- VPERM (R110). -/
def opVperm (e vd va vb : Nat) (s : State) : UOut :=
  onV e (.next (s.setV e vd ((s.vr e vb).map fun i => (s.vr e va).getD (i.toNat % 16) 0)))
/-- VMAC (R111). -/
def opVmac (e vd va vb : Nat) (s : State) : UOut :=
  onV e (.next (s.setV e vd (List.zipWith (fun d p => d + p) (s.vr e vd) (List.zipWith (fun a b => a * b) (s.vr e va) (s.vr e vb)))))
/-- VMACQ (R111). -/
def opVmacq (e vd va vb : Nat) (s : State) : UOut :=
  onV e (.next (s.setV e vd (List.zipWith (fun d q => satS (d.toInt + q)) (s.vr e vd) (List.zipWith qmul (s.vr e va) (s.vr e vb)))))

/-- The number whose bit i is element i. -/
def maskOf (l : List Bool) : Nat := l.foldr (fun b r => b2n b + 2 * r) 0

/-- VCMP: the mask of the lanes that meet COND; other values of SUB trap (R111). -/
def opVcmp (e c rd va vb : Nat) (s : State) : UOut :=
  if 6 ≤ c then .trap 1
  else onV e (.next (s.setG e rd (BitVec.ofNat 32 (maskOf (List.zipWith (fun a b => (holds c a b).getD false) (s.vr e va) (s.vr e vb))))))

/-- VSEL: bit i of Gm chooses lane i (R111). -/
def opVsel (e vd va vb m : Nat) (s : State) : UOut :=
  let g := (s.g e m).toNat
  onV e (.next (s.setV e vd ((List.range 16).map fun i => if bitN g i then (s.vr e va).getD i 0 else (s.vr e vb).getD i 0)))

/-- The greatest of a list by an order. -/
def bestOf (f : Lane → Lane → Lane) (l : List Lane) : Lane :=
  match l with
  | [] => 0
  | x :: r => r.foldl f x

/-- The reduction that SUB names (R111); none: not assigned. -/
def reduce (k : Nat) (l : List Lane) : Option Word :=
  match k with
  | 0 => some (BitVec.ofInt 32 (l.foldl (fun t a => t + a.toInt) 0))
  | 1 => some (BitVec.ofNat 32 (l.foldl (fun t a => t + a.toNat) 0))
  | 2 => some (BitVec.ofNat 32 (min (2 ^ 32 - 1) (l.foldl (fun t a => t + (a.toInt * a.toInt).toNat) 0)))
  | 3 => some ((bestOf maxs l).signExtend 32)
  | 4 => some ((bestOf mins l).signExtend 32)
  | 5 => some ((bestOf maxu l).setWidth 32)
  | 6 => some ((bestOf minu l).setWidth 32)
  | _ => none

/-- VRED (R111). -/
def opVred (e k rd va : Nat) (s : State) : UOut :=
  match reduce k (s.vr e va) with
  | some v => onV e (.next (s.setG e rd v))
  | none => .trap 1

/-- VBCAST (R111). -/
def opVbcast (e vd ra : Nat) (s : State) : UOut := onV e (.next (s.setV e vd (List.replicate 16 ((s.g e ra).setWidth 16))))
/-- VINS: lane RB[3:0] (R111). -/
def opVins (e vd ra rb : Nat) (s : State) : UOut := onV e (.next (s.setV e vd ((s.vr e vd).set (rb % 16) ((s.g e ra).setWidth 16))))
/-- VEXT (R111). -/
def opVext (e rd va rb : Nat) (s : State) : UOut := onV e (.next (s.setG e rd (((s.vr e va).getD (rb % 16) 0).signExtend 32)))
/-- VEXTU (R111). -/
def opVextu (e rd va rb : Nat) (s : State) : UOut := onV e (.next (s.setG e rd (((s.vr e va).getD (rb % 16) 0).setWidth 32)))
/-- VMOVV (R111). -/
def opVmovv (e vd va : Nat) (s : State) : UOut := onV e (.next (s.setV e vd (s.vr e va)))

/-- A vector access of `n` bytes at Ga + IMM16 (R84, R111). -/
def onVmem (n e ra imm : Nat) (s : State) (k : Nat → UOut) : UOut :=
  onV e (match memTrap e (memAddr s e ra imm) n with
    | some c => .trap c
    | none => k (memAddr s e ra imm))

/-- VLD (R111). -/
def opVld (e vd ra imm : Nat) (s : State) : UOut :=
  onVmem 32 e ra imm s fun a => .next (s.setV e vd ((List.range 16).map fun i => BitVec.ofNat 16 (s.dld e (a + 2 * i) 2)))
/-- VST (R111). -/
def opVst (e vd ra imm : Nat) (s : State) : UOut :=
  onVmem 32 e ra imm s fun a => .next (s.each (List.range 16) fun i s => s.dst e (a + 2 * i) 2 ((s.vr e vd).getD i 0).toNat)
/-- VLDB (R111). -/
def opVldb (e vd ra imm : Nat) (s : State) : UOut :=
  onVmem 16 e ra imm s fun a => .next (s.setV e vd ((List.range 16).map fun i => (s.dmem e (a + i)).setWidth 16))
/-- VSTB: lanes, taken as signed, saturated to 0…255 (R111). -/
def opVstb (e vd ra imm : Nat) (s : State) : UOut :=
  onVmem 16 e ra imm s fun a =>
    .next (s.each (List.range 16) fun i s => s.setDmem e (a + i) (BitVec.ofInt 8 (clampI 0 255 ((s.vr e vd).getD i 0).toInt)))

/-- DMA: the checks at issue, then one more outstanding; a fifth stalls issue (R112, R113). -/
def opDma (out : Bool) (e pd ra rb : Nat) (s : State) : UOut :=
  let a := (s.pr e pd).toNat
  let m := (s.g e ra).toNat
  let n := (s.g e rb).toNat
  onV e (
    if 262144 < n ∨ 262144 < m + n then .trap 3
    else if a % 32 ≠ 0 ∨ m % 32 ≠ 0 ∨ n % 32 ≠ 0 then .trap 4
    else if n = 0 then .next s
    else if 4 ≤ (s.ex e).dmas.length then .stall
    else .next (s.setEx e { s.ex e with dmas := (s.ex e).dmas ++ [⟨a, m, n, out⟩] }))

/-- DMA from the store into data memory (R112). -/
def opDmaRead (e pd ra rb : Nat) : State → UOut := opDma false e pd ra rb
/-- DMA from data memory into the store (R112). -/
def opDmaWrite (e pd ra rb : Nat) : State → UOut := opDma true e pd ra rb

/-- DMAWAIT: stalls until at most IMM16[2:0] DMAs remain (R112). -/
def opDmawait (e imm : Nat) (s : State) : UOut :=
  onV e (if (s.ex e).dmas.length ≤ imm % 8 then .next s else .wait ⟨4, 0, imm % 8, 0, false, false, false, 0⟩ s)

/-! ### The instruction word (R86 to R88) -/

/-- OP 0x00 by SUB[5:0] (R90). -/
def ulranAlu (e : Nat) (w : Word) (s : State) : UOut :=
  let d := fRd w
  let a := fRa w
  let b := fRb w
  match fSub w % 64 with
  | 0x00 => opAdd e d a b s
  | 0x01 => opSub e d a b s
  | 0x02 => opAnd e d a b s
  | 0x03 => opOr e d a b s
  | 0x04 => opXor e d a b s
  | 0x05 => opSll e d a b s
  | 0x06 => opSrl e d a b s
  | 0x07 => opSra e d a b s
  | 0x08 => opMul e d a b s
  | 0x09 => opMulhs e d a b s
  | 0x0A => opMulhu e d a b s
  | 0x0B => opMin e d a b s
  | 0x0C => opMax e d a b s
  | 0x0D => opMinu e d a b s
  | 0x0E => opMaxu e d a b s
  | 0x0F => opSel e (fSub w / 64 % 4) d a b s
  | 0x10 => opClz e d a s
  | 0x11 => opPopc e d a s
  | 0x12 => opSlli e d a b s
  | 0x13 => opSrli e d a b s
  | 0x14 => opSrai e d a b s
  | 0x15 => opGetf e d s
  | 0x16 => opSetf e a s
  | _ => .trap 1

/-- OP 0x1C by SUB (R95). -/
def ulranPalu (e : Nat) (w : Word) (s : State) : UOut :=
  let d := fRd w
  let a := fRa w
  let b := fRb w
  match fSub w with
  | 0x00 => opPadd e d a b s
  | 0x01 => opPsub e d a b s
  | 0x02 => opPaddg e d a b s
  | 0x03 => opPmac e d a b s
  | 0x04 => opPsetg e d a s
  | 0x05 => opPsetgu e d a s
  | 0x06 => opPgetl e d a s
  | 0x07 => opPgeth e d a s
  | 0x08 => opPmov e d a s
  | 0x09 => opPseth e d a s
  | 0x0A => opPslli e d a b s
  | 0x0B => opPsrai e d a b s
  | 0x0C => opPcmp e (fCond w) (fFlag w) a b s
  | _ => .trap 1

/-- OP 0x22 by MODE (R104). -/
def ulranEmit (e : Nat) (w : Word) (s : State) : UOut :=
  match fMode w with
  | 0 => opGioLow e (fImm12 w) s
  | 1 => opGioHigh e (fImm12 w) s
  | 2 => opGioToggle e (fImm12 w) s
  | 3 => opGioPulse e (fRa w) (fImm12 w) s
  | 4 => opTrig e (fImm12 w) s
  | 5 => opTpulse e (fRa w) (fImm12 w) s
  | 7 => opHostevt e (fRa w) (fImm12 w) s
  | _ => .trap 1

/-- OP 0x23 by MODE (R105). -/
def ulranFire (e : Nat) (w : Word) (s : State) : UOut :=
  match fMode w with
  | 0 => opStrobe e (fRd w) s
  | 1 => opTickle e (fRa w) (fRd w) s
  | _ => .trap 1

/-- OP 0x24 by MODE (R106). -/
def ulranLine (e : Nat) (w : Word) (s : State) : UOut :=
  match fMode w with
  | 0 => opRelease e (fRa w) (fRd w) s
  | 1 => opReleaseRel e (fRa w) (fRd w) s
  | 2 => opLadder e (fRa w) (fRd w) (fImm12 w) s
  | 3 => opBlank e (fRa w) (fRd w) s
  | _ => .trap 1

/-- OP 0x25 by MODE (R107). -/
def ulranSend (e : Nat) (w : Word) (s : State) : UOut :=
  match fMode w with
  | 0 => opSendConfig e (fRa w) (fImm12 w) s
  | 1 => opSendSync e (fRa w) (fImm12 w) s
  | _ => .trap 1

/-- OP 0x30 by SUB[5:0] (R110). -/
def ulranValu (e : Nat) (w : Word) (s : State) : UOut :=
  let d := fRd w
  let a := fRa w
  let b := fRb w
  match fSub w % 64 with
  | 0x00 => opVadd e d a b s
  | 0x01 => opVsub e d a b s
  | 0x02 => opVadds e d a b s
  | 0x03 => opVsubs e d a b s
  | 0x04 => opVaddus e d a b s
  | 0x05 => opVsubus e d a b s
  | 0x06 => opVmin e d a b s
  | 0x07 => opVmax e d a b s
  | 0x08 => opVminu e d a b s
  | 0x09 => opVmaxu e d a b s
  | 0x0A => opVabsd e d a b s
  | 0x0B => opVand e d a b s
  | 0x0C => opVor e d a b s
  | 0x0D => opVxor e d a b s
  | 0x0E => opVmull e d a b s
  | 0x0F => opVmulhs e d a b s
  | 0x10 => opVmulq e d a b s
  | 0x11 => opVshl e d a b s
  | 0x12 => opVshr e d a b s
  | 0x13 => opVsra e d a b s
  | 0x14 => opVavgu e d a b s
  | 0x15 => opVslide e d a b (fSub w / 64 % 16) s
  | 0x16 => opVperm e d a b s
  | _ => .trap 1

/-- OP 0x31 by SUB (R111). -/
def ulranVmac (e : Nat) (w : Word) (s : State) : UOut :=
  match fSub w with
  | 0 => opVmac e (fRd w) (fRa w) (fRb w) s
  | 1 => opVmacq e (fRd w) (fRa w) (fRb w) s
  | _ => .trap 1

/-- OP 0x35 by SUB (R111). -/
def ulranVmov (e : Nat) (w : Word) (s : State) : UOut :=
  match fSub w with
  | 0 => opVbcast e (fRd w) (fRa w) s
  | 1 => opVins e (fRd w) (fRa w) (fRb w) s
  | 2 => opVext e (fRd w) (fRa w) (fRb w) s
  | 3 => opVextu e (fRd w) (fRa w) (fRb w) s
  | 4 => opVmovv e (fRd w) (fRa w) s
  | _ => .trap 1

/-- What the instruction word `w` does on engine `e` (R88); reserved words trap with ILLEGAL (R87). -/
def ulran (e : Nat) (w : Word) (s : State) : UOut :=
  let d := fRd w
  let a := fRa w
  let i := fImm w
  match fOp w with
  | 0x00 => ulranAlu e w s
  | 0x01 => opAddi e d a i s
  | 0x02 => opAndi e d a i s
  | 0x03 => opOri e d a i s
  | 0x04 => opXori e d a i s
  | 0x05 => opLui e d i s
  | 0x06 => opCmp e (fCond w) (fFlag w) a (fRb w) s
  | 0x07 => opCmpi e (fCond w) (fFlag w) a i s
  | 0x08 => opLd e d a i s
  | 0x09 => opLdh e d a i s
  | 0x0A => opLdb e d a i s
  | 0x0B => opSt e d a i s
  | 0x0C => opSth e d a i s
  | 0x0D => opStb e d a i s
  | 0x0E => opPld e d a i s
  | 0x0F => opPst e d a i s
  | 0x10 => opBr e (fCond w) (fFlag w) (fOff w) s
  | 0x11 => opCall e (fOff w) s
  | 0x12 => opJr e a s
  | 0x13 => opDbnz e d i s
  | 0x14 => opWaitt e a i s
  | 0x15 => opHalt e s
  | 0x17 => opIord e d a i s
  | 0x1C => ulranPalu e w s
  | 0x1D => opPrd e a d (fMode w) s
  | 0x20 => opWaitpos e a d (bitN (fMode w) 0) (bitN (fMode w) 1) (bitN (fMode w) 2) s
  | 0x21 => opWaitevt e d (fImm12 w) (bitN (fMode w) 0) (bitN (fMode w) 1) s
  | 0x22 => ulranEmit e w s
  | 0x23 => ulranFire e w s
  | 0x24 => ulranLine e w s
  | 0x25 => ulranSend e w s
  | 0x26 => opSheaf e a (fImm12 w) s
  | 0x30 => ulranValu e w s
  | 0x31 => ulranVmac e w s
  | 0x32 => opVcmp e (fSub w) d a (fRb w) s
  | 0x33 => opVsel e d a (fRb w) (fSub w / 64) s
  | 0x34 => opVred e (fSub w) d a s
  | 0x35 => ulranVmov e w s
  | 0x36 => opVld e d a i s
  | 0x37 => opVst e d a i s
  | 0x38 => opVldb e d a i s
  | 0x39 => opVstb e d a i s
  | 0x3A => if fSub w % 2 = 0 then opDmaRead e d a (fRb w) s else opDmaWrite e d a (fRb w) s
  | 0x3B => opDmawait e i s
  | _ => .trap 1

end Sys2Proof.Machine
end

