-- ==== Sys2Proof/Machine/Ulran.lean ====
section
/-! DEFINITION. The meanings of the Ulran instructions of both profiles (03_ulran R89 to R103): integer, memory, control, position, waits. Each issues its word (R86) with its effect. -/

namespace Sys2Proof.Machine

/-- ADD (R90). -/
def execAdd (e : Eng) (rd ra rb : Fin 32) (s : State) : Res := .next (s.issue e (encA 0x00 rd ra rb 0) (opAdd e rd ra rb))

/-- SUB (R90). -/
def execSub (e : Eng) (rd ra rb : Fin 32) (s : State) : Res := .next (s.issue e (encA 0x00 rd ra rb 1) (opSub e rd ra rb))

/-- AND (R90). -/
def execAnd (e : Eng) (rd ra rb : Fin 32) (s : State) : Res := .next (s.issue e (encA 0x00 rd ra rb 2) (opAnd e rd ra rb))

/-- OR (R90). -/
def execOr (e : Eng) (rd ra rb : Fin 32) (s : State) : Res := .next (s.issue e (encA 0x00 rd ra rb 3) (opOr e rd ra rb))

/-- XOR (R90). -/
def execXor (e : Eng) (rd ra rb : Fin 32) (s : State) : Res := .next (s.issue e (encA 0x00 rd ra rb 4) (opXor e rd ra rb))

/-- SLL (R90). -/
def execSll (e : Eng) (rd ra rb : Fin 32) (s : State) : Res := .next (s.issue e (encA 0x00 rd ra rb 5) (opSll e rd ra rb))

/-- SRL (R90). -/
def execSrl (e : Eng) (rd ra rb : Fin 32) (s : State) : Res := .next (s.issue e (encA 0x00 rd ra rb 6) (opSrl e rd ra rb))

/-- SRA (R90). -/
def execSra (e : Eng) (rd ra rb : Fin 32) (s : State) : Res := .next (s.issue e (encA 0x00 rd ra rb 7) (opSra e rd ra rb))

/-- MUL (R90). -/
def execMul (e : Eng) (rd ra rb : Fin 32) (s : State) : Res := .next (s.issue e (encA 0x00 rd ra rb 8) (opMul e rd ra rb))

/-- MULHS (R90). -/
def execMulhs (e : Eng) (rd ra rb : Fin 32) (s : State) : Res := .next (s.issue e (encA 0x00 rd ra rb 9) (opMulhs e rd ra rb))

/-- MULHU (R90). -/
def execMulhu (e : Eng) (rd ra rb : Fin 32) (s : State) : Res := .next (s.issue e (encA 0x00 rd ra rb 10) (opMulhu e rd ra rb))

/-- MIN (R90). -/
def execMin (e : Eng) (rd ra rb : Fin 32) (s : State) : Res := .next (s.issue e (encA 0x00 rd ra rb 11) (opMin e rd ra rb))

/-- MAX (R90). -/
def execMax (e : Eng) (rd ra rb : Fin 32) (s : State) : Res := .next (s.issue e (encA 0x00 rd ra rb 12) (opMax e rd ra rb))

/-- MINU (R90). -/
def execMinu (e : Eng) (rd ra rb : Fin 32) (s : State) : Res := .next (s.issue e (encA 0x00 rd ra rb 13) (opMinu e rd ra rb))

/-- MAXU (R90). -/
def execMaxu (e : Eng) (rd ra rb : Fin 32) (s : State) : Res := .next (s.issue e (encA 0x00 rd ra rb 14) (opMaxu e rd ra rb))

/-- SEL (R90). -/
def execSel (e : Eng) (f : Fin 4) (rd ra rb : Fin 32) (s : State) : Res := .next (s.issue e (encA 0x00 rd ra rb (64 * f + 0x0F)) (opSel e f rd ra rb))

/-- CLZ (R90). -/
def execClz (e : Eng) (rd ra : Fin 32) (s : State) : Res := .next (s.issue e (encA 0x00 rd ra 0 0x10) (opClz e rd ra))

/-- POPC (R90). -/
def execPopc (e : Eng) (rd ra : Fin 32) (s : State) : Res := .next (s.issue e (encA 0x00 rd ra 0 0x11) (opPopc e rd ra))

/-- SLLI (R90). -/
def execSlli (e : Eng) (rd ra n : Fin 32) (s : State) : Res := .next (s.issue e (encA 0x00 rd ra n 0x12) (opSlli e rd ra n))

/-- SRLI (R90). -/
def execSrli (e : Eng) (rd ra n : Fin 32) (s : State) : Res := .next (s.issue e (encA 0x00 rd ra n 0x13) (opSrli e rd ra n))

/-- SRAI (R90). -/
def execSrai (e : Eng) (rd ra n : Fin 32) (s : State) : Res := .next (s.issue e (encA 0x00 rd ra n 0x14) (opSrai e rd ra n))

/-- GETF (R90). -/
def execGetf (e : Eng) (rd : Fin 32) (s : State) : Res := .next (s.issue e (encA 0x00 rd 0 0 0x15) (opGetf e rd))

/-- SETF (R90). -/
def execSetf (e : Eng) (ra : Fin 32) (s : State) : Res := .next (s.issue e (encA 0x00 0 ra 0 0x16) (opSetf e ra))

/-- ADDI (R91). -/
def execAddi (e : Eng) (rd ra : Fin 32) (imm : BitVec 16) (s : State) : Res := .next (s.issue e (encB 1 rd ra imm.toNat) (opAddi e rd ra imm.toNat))

/-- ANDI (R91). -/
def execAndi (e : Eng) (rd ra : Fin 32) (imm : BitVec 16) (s : State) : Res := .next (s.issue e (encB 2 rd ra imm.toNat) (opAndi e rd ra imm.toNat))

/-- ORI (R91). -/
def execOri (e : Eng) (rd ra : Fin 32) (imm : BitVec 16) (s : State) : Res := .next (s.issue e (encB 3 rd ra imm.toNat) (opOri e rd ra imm.toNat))

/-- XORI (R91). -/
def execXori (e : Eng) (rd ra : Fin 32) (imm : BitVec 16) (s : State) : Res := .next (s.issue e (encB 4 rd ra imm.toNat) (opXori e rd ra imm.toNat))

/-- LUI (R91). -/
def execLui (e : Eng) (rd : Fin 32) (imm : BitVec 16) (s : State) : Res := .next (s.issue e (encB 5 rd 0 imm.toNat) (opLui e rd imm.toNat))

/-- CMP (R92). -/
def execCmp (e : Eng) (c : Fin 8) (f : Fin 4) (ra rb : Fin 32) (s : State) : Res := .next (s.issue e (encA 6 (condRd c f) ra rb 0) (opCmp e c f ra rb))

/-- CMPI (R92). -/
def execCmpi (e : Eng) (c : Fin 8) (f : Fin 4) (ra : Fin 32) (imm : BitVec 16) (s : State) : Res := .next (s.issue e (encB 7 (condRd c f) ra imm.toNat) (opCmpi e c f ra imm.toNat))

/-- LD (R93). -/
def execLd (e : Eng) (rd ra : Fin 32) (imm : BitVec 16) (s : State) : Res := .next (s.issue e (encB 0x8 rd ra imm.toNat) (opLd e rd ra imm.toNat))

/-- LDH (R93). -/
def execLdh (e : Eng) (rd ra : Fin 32) (imm : BitVec 16) (s : State) : Res := .next (s.issue e (encB 0x9 rd ra imm.toNat) (opLdh e rd ra imm.toNat))

/-- LDB (R93). -/
def execLdb (e : Eng) (rd ra : Fin 32) (imm : BitVec 16) (s : State) : Res := .next (s.issue e (encB 0xa rd ra imm.toNat) (opLdb e rd ra imm.toNat))

/-- ST (R93). -/
def execSt (e : Eng) (rd ra : Fin 32) (imm : BitVec 16) (s : State) : Res := .next (s.issue e (encB 0xb rd ra imm.toNat) (opSt e rd ra imm.toNat))

/-- STH (R93). -/
def execSth (e : Eng) (rd ra : Fin 32) (imm : BitVec 16) (s : State) : Res := .next (s.issue e (encB 0xc rd ra imm.toNat) (opSth e rd ra imm.toNat))

/-- STB (R93). -/
def execStb (e : Eng) (rd ra : Fin 32) (imm : BitVec 16) (s : State) : Res := .next (s.issue e (encB 0xd rd ra imm.toNat) (opStb e rd ra imm.toNat))

/-- PLD (R93). -/
def execPld (e : Eng) (pd : Fin 8) (ra : Fin 32) (imm : BitVec 16) (s : State) : Res := .next (s.issue e (encB 0xe pd ra imm.toNat) (opPld e pd ra imm.toNat))

/-- PST (R93). -/
def execPst (e : Eng) (pd : Fin 8) (ra : Fin 32) (imm : BitVec 16) (s : State) : Res := .next (s.issue e (encB 0xf pd ra imm.toNat) (opPst e pd ra imm.toNat))

/-- BR (R94). -/
def execBr (e : Eng) (c : Fin 8) (f : Fin 4) (off : BitVec 21) (s : State) : Res := .next (s.issue e (encC 0x10 c f off.toNat) (opBr e c f off.toNat))

/-- CALL (R94). -/
def execCall (e : Eng) (off : BitVec 21) (s : State) : Res := .next (s.issue e (encC 0x11 0 0 off.toNat) (opCall e off.toNat))

/-- JR (R94). -/
def execJr (e : Eng) (ra : Fin 32) (s : State) : Res := .next (s.issue e (encA 0x12 0 ra 0 0) (opJr e ra))

/-- DBNZ (R94). -/
def execDbnz (e : Eng) (rd : Fin 32) (imm : BitVec 16) (s : State) : Res := .next (s.issue e (encB 0x13 rd 0 imm.toNat) (opDbnz e rd imm.toNat))

/-- HALT (R94). -/
def execHalt (e : Eng) (s : State) : Res := .next (s.issue e (encA 0x15 0 0 0 0) (opHalt e))

/-- PADD (R95). -/
def execPadd (e : Eng) (pd pa pb : Fin 8) (s : State) : Res := .next (s.issue e (encA 0x1C pd pa pb 0) (opPadd e pd pa pb))

/-- PSUB (R95). -/
def execPsub (e : Eng) (pd pa pb : Fin 8) (s : State) : Res := .next (s.issue e (encA 0x1C pd pa pb 1) (opPsub e pd pa pb))

/-- PADDG (R95). -/
def execPaddg (e : Eng) (pd pa : Fin 8) (rb : Fin 32) (s : State) : Res := .next (s.issue e (encA 0x1C pd pa rb 2) (opPaddg e pd pa rb))

/-- PMAC (R95). -/
def execPmac (e : Eng) (pd : Fin 8) (ra rb : Fin 32) (s : State) : Res := .next (s.issue e (encA 0x1C pd ra rb 3) (opPmac e pd ra rb))

/-- PSETG (R95). -/
def execPsetg (e : Eng) (pd : Fin 8) (ra : Fin 32) (s : State) : Res := .next (s.issue e (encA 0x1C pd ra 0 4) (opPsetg e pd ra))

/-- PSETGU (R95). -/
def execPsetgu (e : Eng) (pd : Fin 8) (ra : Fin 32) (s : State) : Res := .next (s.issue e (encA 0x1C pd ra 0 5) (opPsetgu e pd ra))

/-- PGETL (R95). -/
def execPgetl (e : Eng) (rd : Fin 32) (pa : Fin 8) (s : State) : Res := .next (s.issue e (encA 0x1C rd pa 0 6) (opPgetl e rd pa))

/-- PGETH (R95). -/
def execPgeth (e : Eng) (rd : Fin 32) (pa : Fin 8) (s : State) : Res := .next (s.issue e (encA 0x1C rd pa 0 7) (opPgeth e rd pa))

/-- PMOV (R95). -/
def execPmov (e : Eng) (pd pa : Fin 8) (s : State) : Res := .next (s.issue e (encA 0x1C pd pa 0 8) (opPmov e pd pa))

/-- PSETH (R95). -/
def execPseth (e : Eng) (pd : Fin 8) (ra : Fin 32) (s : State) : Res := .next (s.issue e (encA 0x1C pd ra 0 9) (opPseth e pd ra))

/-- PSLLI (R95). -/
def execPslli (e : Eng) (pd pa : Fin 8) (n : Fin 32) (s : State) : Res := .next (s.issue e (encA 0x1C pd pa n 10) (opPslli e pd pa n))

/-- PSRAI (R95). -/
def execPsrai (e : Eng) (pd pa : Fin 8) (n : Fin 32) (s : State) : Res := .next (s.issue e (encA 0x1C pd pa n 11) (opPsrai e pd pa n))

/-- PCMP (R95). -/
def execPcmp (e : Eng) (c : Fin 8) (f : Fin 4) (pa pb : Fin 8) (s : State) : Res := .next (s.issue e (encA 0x1C (condRd c f) pa pb 0x0C) (opPcmp e c f pa pb))

/-- IORD (R96). -/
def execIord (e : Eng) (rd ra : Fin 32) (imm : BitVec 16) (s : State) : Res := .next (s.issue e (encB 0x17 rd ra imm.toNat) (opIord e rd ra imm.toNat))

/-- PRD (R97). -/
def execPrd (e : Eng) (pd : Fin 8) (unit : Fin 32) (mode : Fin 16) (s : State) : Res := .next (s.issue e (encD 0x1D unit pd mode 0) (opPrd e pd unit mode))

/-- WAITPOS (R98). -/
def execWaitpos (e : Eng) (pa : Fin 8) (unit : Fin 32) (line tmo le : Bool) (s : State) : Res := .next (s.issue e (encD 0x20 unit pa (b2n line + 2 * b2n tmo + 4 * b2n le) 0) (opWaitpos e pa unit line tmo le))

/-- WAITEVT (R99). -/
def execWaitevt (e : Eng) (unit : Fin 32) (imm : BitVec 12) (clear tmo : Bool) (s : State) : Res := .next (s.issue e (encD 0x21 unit 0 (b2n clear + 2 * b2n tmo) imm.toNat) (opWaitevt e unit imm.toNat clear tmo))

/-- WAITT (R101). -/
def execWaitt (e : Eng) (ra : Fin 32) (imm : BitVec 16) (s : State) : Res := .next (s.issue e (encB 0x14 0 ra imm.toNat) (opWaitt e ra imm.toNat))

/-- The condition of a WAITPOS or WAITEVT is true (R98 to R100, R102): F3 = 0, and the next instruction follows. -/
def execWaitConditionMet (e : Eng) (s : State) : Res :=
  match (s.ex e).wait with
  | some w =>
    .next (if w.kind = 1 && posMet s w then (s.setFlag e 3 false).endWait e
      else if w.kind = 2 && s.latched? e w.imm then (s.takeLatch e w.imm).endWait e
      else s)
  | none => .next s

/-- ENG_WAIT_TMO µs have passed in a wait with MODE[1] = 1 (R102): F3 = 1; a WAITEVT writes F2 = 0 and leaves its latch. The condition
prevails. -/
def execWaitTimeout (e : Eng) (s : State) : Res :=
  match (s.ex e).wait with
  | some w =>
    .next (if w.tmo && s.get ENG_WAIT_TMO e != 0 then
        if w.kind = 1 && !(posMet s w) then (s.setFlag e 3 true).endWait e
        else if w.kind = 2 && !(s.latched? e w.imm) then ((s.setFlag e 2 false).setFlag e 3 true).endWait e
        else s
      else s)
  | none => .next s

/-- The time of a WAITT is over (R101). -/
def execWaittExpiry (e : Eng) (s : State) : Res :=
  match (s.ex e).wait with
  | some w => .next (if w.kind = 3 then s.endWait e else s)
  | none => .next s

/-- An engine meets an instruction word: a reserved one traps with ILLEGAL (R87, R88). -/
def execReservedOpcode (e : Eng) (w : BitVec 32) (s : State) : Res := .next (s.issue e w (ulran e w))

end Sys2Proof.Machine
end

