-- ==== Sys2Proof/Machine/Press.lean ====
section
/-! DEFINITION. The meanings of the press instructions of the sequencers (03_ulran R104 to R109), pulses that end, answers to SHEAF, control frames that leave. Each issues its word (R86) with its effect. -/

namespace Sys2Proof.Machine

/-- EMIT_GIO_LOW (R104). -/
def execEmitGioLow (e : Eng) (n : BitVec 12) (s : State) : Res := .next (s.issue e (encD 0x22 0 0 0 n.toNat) (opGioLow e n.toNat))

/-- EMIT_GIO_HIGH (R104). -/
def execEmitGioHigh (e : Eng) (n : BitVec 12) (s : State) : Res := .next (s.issue e (encD 0x22 0 0 1 n.toNat) (opGioHigh e n.toNat))

/-- EMIT_GIO_TOGGLE (R104). -/
def execEmitGioToggle (e : Eng) (n : BitVec 12) (s : State) : Res := .next (s.issue e (encD 0x22 0 0 2 n.toNat) (opGioToggle e n.toNat))

/-- EMIT_GIO_PULSE (R142). -/
def execEmitGioPulse (e : Eng) (ra : Fin 32) (n : BitVec 12) (s : State) : Res := .next (s.issue e (encD 0x22 0 ra 3 n.toNat) (opGioPulse e ra n.toNat))

/-- EMIT_TRIG (R104). -/
def execEmitTrig (e : Eng) (n : BitVec 12) (s : State) : Res := .next (s.issue e (encD 0x22 0 0 4 n.toNat) (opTrig e n.toNat))

/-- EMIT_TPULSE (R104). -/
def execEmitTpulse (e : Eng) (ra : Fin 32) (n : BitVec 12) (s : State) : Res := .next (s.issue e (encD 0x22 0 ra 5 n.toNat) (opTpulse e ra n.toNat))

/-- EMIT_HOSTEVT (R104). -/
def execEmitHostevt (e : Eng) (ra : Fin 32) (n : BitVec 12) (s : State) : Res := .next (s.issue e (encD 0x22 0 ra 7 n.toNat) (opHostevt e ra n.toNat))

/-- FIRE_STROBE (R105). -/
def execFireStrobe (e : Eng) (unit : Fin 32) (s : State) : Res := .next (s.issue e (encD 0x23 unit 0 0 0) (opStrobe e unit))

/-- FIRE_TICKLE (R105). -/
def execFireTickle (e : Eng) (ra unit : Fin 32) (s : State) : Res := .next (s.issue e (encD 0x23 unit ra 1 0) (opTickle e ra unit))

/-- LINE_RELEASE (R106). -/
def execLineRelease (e : Eng) (ra unit : Fin 32) (s : State) : Res := .next (s.issue e (encD 0x24 unit ra 0 0) (opRelease e ra unit))

/-- LINE_RELEASE_REL (R106). -/
def execLineReleaseRel (e : Eng) (ra unit : Fin 32) (s : State) : Res := .next (s.issue e (encD 0x24 unit ra 1 0) (opReleaseRel e ra unit))

/-- LINE_LADDER (R106). -/
def execLineLadder (e : Eng) (ra unit : Fin 32) (imm : BitVec 12) (s : State) : Res := .next (s.issue e (encD 0x24 unit ra 2 imm.toNat) (opLadder e ra unit imm.toNat))

/-- LINE_BLANK (R106). -/
def execLineBlank (e : Eng) (ra unit : Fin 32) (s : State) : Res := .next (s.issue e (encD 0x24 unit ra 3 0) (opBlank e ra unit))

/-- SEND_CONFIG (R107). -/
def execSendConfig (e : Eng) (ra : Fin 32) (imm : BitVec 12) (s : State) : Res := .next (s.issue e (encD 0x25 0 ra 0 imm.toNat) (opSendConfig e ra imm.toNat))

/-- SEND_SYNC (R107). -/
def execSendSync (e : Eng) (ra : Fin 32) (imm : BitVec 12) (s : State) : Res := .next (s.issue e (encD 0x25 0 ra 1 imm.toNat) (opSendSync e ra imm.toNat))

/-- SHEAF (R108). -/
def execSheaf (e : Eng) (ra : Fin 32) (imm : BitVec 12) (s : State) : Res := .next (s.issue e (encD 0x26 0 ra 0 imm.toNat) (opSheaf e ra imm.toNat))

/-- The width of a GIO_PULSE is over: the level falls (R142). -/
def execGioPulseEnd (n : Fin 32) (s : State) : Res :=
  .next (if smGet (fun _ => false) s.gioPulse n then s.setGio n false false else s)

/-- The width of a TPULSE is over (R104, R392). -/
def execTpulseEnd (n : Fin 8) (s : State) : Res := .next { s with tpPulse := smPut (fun _ => false) s.tpPulse n false }

/-- The composer answers a SHEAF that waits (R108, R195): F3, the counts, SHEAF_REFUSED with the status; the next instruction follows. -/
def execSheafAnswer (e : Eng) (s : State) : Res :=
  match (s.ex e).wait with
  | some w =>
    if w.kind = 6 then
      let a := s.get64 ENG_SHEAF_TBL_LO e + 8 * w.imm
      let (s, st) := (s.saw a 8).submit (s.ldN a 8) 1 (some w.tgt.toNat)
      let s := if st = 0 then s.addSat ENG_SHEAF_CNT_ACCEPTED 1 e
        else (s.addSat ENG_SHEAF_CNT_REFUSED 1 e).raise EV_SHEAF_REFUSED (engUnit e) [st]
      .next ((s.setFlag e 3 (st != 0)).endWait e)
    else .next s
  | none => .next s

/-- A SEND that stalls issues again (R107): it ends when every queue it names has room. -/
def State.retrySend (s : State) (e : Nat) : State :=
  match (s.ex e).wait with
  | some w =>
    if w.kind = 5 then
      match ulranSend e w.word s with
      | .next s => s.endWait e
      | _ => s
    else s
  | none => s

/-- A control frame leaves port `p` (R107, R264, R270); a SEND that waited for the queue goes on. -/
def execControlFrameSend (p : Port) (s : State) : Res :=
  .next ((s.sendControl p).each (List.range 16) fun e s => s.retrySend e)

end Sys2Proof.Machine
end

