-- ==== Sys2Proof/Machine/Vector.lean ====
section
/-! DEFINITION. The meanings of the vector and DMA instructions of the pixel engines (03_ulran R110 to R113). Each issues its word (R86) with its effect. -/

namespace Sys2Proof.Machine

/-- VADD (R110). -/
def execVadd (e : Eng) (vd va vb : Fin 32) (s : State) : Res := .next (s.issue e (encA 0x30 vd va vb 0) (opVadd e vd va vb))

/-- VSUB (R110). -/
def execVsub (e : Eng) (vd va vb : Fin 32) (s : State) : Res := .next (s.issue e (encA 0x30 vd va vb 1) (opVsub e vd va vb))

/-- VADDS (R110). -/
def execVadds (e : Eng) (vd va vb : Fin 32) (s : State) : Res := .next (s.issue e (encA 0x30 vd va vb 2) (opVadds e vd va vb))

/-- VSUBS (R110). -/
def execVsubs (e : Eng) (vd va vb : Fin 32) (s : State) : Res := .next (s.issue e (encA 0x30 vd va vb 3) (opVsubs e vd va vb))

/-- VADDUS (R110). -/
def execVaddus (e : Eng) (vd va vb : Fin 32) (s : State) : Res := .next (s.issue e (encA 0x30 vd va vb 4) (opVaddus e vd va vb))

/-- VSUBUS (R110). -/
def execVsubus (e : Eng) (vd va vb : Fin 32) (s : State) : Res := .next (s.issue e (encA 0x30 vd va vb 5) (opVsubus e vd va vb))

/-- VMIN (R110). -/
def execVmin (e : Eng) (vd va vb : Fin 32) (s : State) : Res := .next (s.issue e (encA 0x30 vd va vb 6) (opVmin e vd va vb))

/-- VMAX (R110). -/
def execVmax (e : Eng) (vd va vb : Fin 32) (s : State) : Res := .next (s.issue e (encA 0x30 vd va vb 7) (opVmax e vd va vb))

/-- VMINU (R110). -/
def execVminu (e : Eng) (vd va vb : Fin 32) (s : State) : Res := .next (s.issue e (encA 0x30 vd va vb 8) (opVminu e vd va vb))

/-- VMAXU (R110). -/
def execVmaxu (e : Eng) (vd va vb : Fin 32) (s : State) : Res := .next (s.issue e (encA 0x30 vd va vb 9) (opVmaxu e vd va vb))

/-- VABSD (R110). -/
def execVabsd (e : Eng) (vd va vb : Fin 32) (s : State) : Res := .next (s.issue e (encA 0x30 vd va vb 10) (opVabsd e vd va vb))

/-- VAND (R110). -/
def execVand (e : Eng) (vd va vb : Fin 32) (s : State) : Res := .next (s.issue e (encA 0x30 vd va vb 11) (opVand e vd va vb))

/-- VOR (R110). -/
def execVor (e : Eng) (vd va vb : Fin 32) (s : State) : Res := .next (s.issue e (encA 0x30 vd va vb 12) (opVor e vd va vb))

/-- VXOR (R110). -/
def execVxor (e : Eng) (vd va vb : Fin 32) (s : State) : Res := .next (s.issue e (encA 0x30 vd va vb 13) (opVxor e vd va vb))

/-- VMULL (R110). -/
def execVmull (e : Eng) (vd va vb : Fin 32) (s : State) : Res := .next (s.issue e (encA 0x30 vd va vb 14) (opVmull e vd va vb))

/-- VMULHS (R110). -/
def execVmulhs (e : Eng) (vd va vb : Fin 32) (s : State) : Res := .next (s.issue e (encA 0x30 vd va vb 15) (opVmulhs e vd va vb))

/-- VMULQ (R110). -/
def execVmulq (e : Eng) (vd va vb : Fin 32) (s : State) : Res := .next (s.issue e (encA 0x30 vd va vb 16) (opVmulq e vd va vb))

/-- VSHL (R110). -/
def execVshl (e : Eng) (vd va vb : Fin 32) (s : State) : Res := .next (s.issue e (encA 0x30 vd va vb 17) (opVshl e vd va vb))

/-- VSHR (R110). -/
def execVshr (e : Eng) (vd va vb : Fin 32) (s : State) : Res := .next (s.issue e (encA 0x30 vd va vb 18) (opVshr e vd va vb))

/-- VSRA (R110). -/
def execVsra (e : Eng) (vd va vb : Fin 32) (s : State) : Res := .next (s.issue e (encA 0x30 vd va vb 19) (opVsra e vd va vb))

/-- VAVGU (R110). -/
def execVavgu (e : Eng) (vd va vb : Fin 32) (s : State) : Res := .next (s.issue e (encA 0x30 vd va vb 20) (opVavgu e vd va vb))

/-- VSLIDE (R110). -/
def execVslide (e : Eng) (vd va vb : Fin 32) (k : Fin 16) (s : State) : Res := .next (s.issue e (encA 0x30 vd va vb (64 * k + 0x15)) (opVslide e vd va vb k))

/-- VPERM (R110). -/
def execVperm (e : Eng) (vd va vb : Fin 32) (s : State) : Res := .next (s.issue e (encA 0x30 vd va vb 0x16) (opVperm e vd va vb))

/-- VMAC (R111). -/
def execVmac (e : Eng) (vd va vb : Fin 32) (s : State) : Res := .next (s.issue e (encA 0x31 vd va vb 0) (opVmac e vd va vb))

/-- VMACQ (R111). -/
def execVmacq (e : Eng) (vd va vb : Fin 32) (s : State) : Res := .next (s.issue e (encA 0x31 vd va vb 1) (opVmacq e vd va vb))

/-- VCMP (R111). -/
def execVcmp (e : Eng) (c : Fin 8) (rd va vb : Fin 32) (s : State) : Res := .next (s.issue e (encA 0x32 rd va vb c) (opVcmp e c rd va vb))

/-- VSEL (R111). -/
def execVsel (e : Eng) (vd va vb m : Fin 32) (s : State) : Res := .next (s.issue e (encA 0x33 vd va vb (64 * m)) (opVsel e vd va vb m))

/-- VRED (R111). -/
def execVred (e : Eng) (k : Fin 8) (rd va : Fin 32) (s : State) : Res := .next (s.issue e (encA 0x34 rd va 0 k) (opVred e k rd va))

/-- VBCAST (R111). -/
def execVbcast (e : Eng) (vd ra : Fin 32) (s : State) : Res := .next (s.issue e (encA 0x35 vd ra 0 0) (opVbcast e vd ra))

/-- VINS (R111). -/
def execVins (e : Eng) (vd ra rb : Fin 32) (s : State) : Res := .next (s.issue e (encA 0x35 vd ra rb 1) (opVins e vd ra rb))

/-- VEXT (R111). -/
def execVext (e : Eng) (rd va rb : Fin 32) (s : State) : Res := .next (s.issue e (encA 0x35 rd va rb 2) (opVext e rd va rb))

/-- VEXTU (R111). -/
def execVextu (e : Eng) (rd va rb : Fin 32) (s : State) : Res := .next (s.issue e (encA 0x35 rd va rb 3) (opVextu e rd va rb))

/-- VMOVV (R111). -/
def execVmovv (e : Eng) (vd va : Fin 32) (s : State) : Res := .next (s.issue e (encA 0x35 vd va 0 4) (opVmovv e vd va))

/-- VLD (R111). -/
def execVld (e : Eng) (vd ra : Fin 32) (imm : BitVec 16) (s : State) : Res := .next (s.issue e (encB 0x36 vd ra imm.toNat) (opVld e vd ra imm.toNat))

/-- VST (R111). -/
def execVst (e : Eng) (vd ra : Fin 32) (imm : BitVec 16) (s : State) : Res := .next (s.issue e (encB 0x37 vd ra imm.toNat) (opVst e vd ra imm.toNat))

/-- VLDB (R111). -/
def execVldb (e : Eng) (vd ra : Fin 32) (imm : BitVec 16) (s : State) : Res := .next (s.issue e (encB 0x38 vd ra imm.toNat) (opVldb e vd ra imm.toNat))

/-- VSTB (R111). -/
def execVstb (e : Eng) (vd ra : Fin 32) (imm : BitVec 16) (s : State) : Res := .next (s.issue e (encB 0x39 vd ra imm.toNat) (opVstb e vd ra imm.toNat))

/-- DMA_READ (R112). -/
def execDmaRead (e : Eng) (pd : Fin 8) (ra rb : Fin 32) (s : State) : Res := .next (s.issue e (encA 0x3A pd ra rb 0) (opDmaRead e pd ra rb))

/-- DMA_WRITE (R112). -/
def execDmaWrite (e : Eng) (pd : Fin 8) (ra rb : Fin 32) (s : State) : Res := .next (s.issue e (encA 0x3A pd ra rb 1) (opDmaWrite e pd ra rb))

/-- DMAWAIT (R112). -/
def execDmawait (e : Eng) (imm : BitVec 16) (s : State) : Res := .next (s.issue e (encB 0x3B 0 0 imm.toNat) (opDmawait e imm.toNat))

/-- The bytes of a DMA, in parts of 32, until one meets a store error (R113); answers whether one did. -/
def dmaParts (e : Nat) (d : Dma) (i : Nat) (s : State) : State × Bool :=
  match i with
  | 0 => (s, false)
  | n + 1 =>
    let o := d.len - 32 * (n + 1)
    let a := d.addr + o
    if d.out then
      if s.on MEM_SC_STAT_FAILED (s.scOf a) then (s, true)
      else dmaParts e d n (s.st a ((List.range 32).map fun k => (s.dmem e (d.mem + o + k)).toNat))
    else if s.bad a 32 then (s.saw a 32, true)
    else
      let l := s.ld a 32
      dmaParts e d n (s.each (List.range 32) fun k s => s.setDmem e (d.mem + o + k) (BitVec.ofNat 8 (l.getD k 0)))

/-- The oldest DMA of an engine completes (R112); a store error waits for the next instruction boundary (R113); a DMAWAIT that it
satisfies ends. -/
def execDmaDone (e : Eng) (s : State) : Res :=
  match (s.ex e).dmas with
  | [] => .next s
  | d :: r =>
    let (s, bad) := dmaParts e d (d.len / 32) s
    let x := s.ex e
    let s := s.setEx e { x with dmas := r, dmaErr := x.dmaErr || bad }
    match x.wait with
    | some w => .next (if w.kind = 4 && decide (r.length ≤ w.imm) then s.endWait e else s)
    | none => .next s

end Sys2Proof.Machine
end

