-- ==== Sys2Proof/Machine/Sequencer.lean ====
section
/-! DEFINITION. Control of the engines by the host (03_ulran R117 to R123), the loader (R120, R121), the reject list (R136 to R138) and the
general I/O pins (04_timing_programs R139 to R144). -/

namespace Sys2Proof.Machine

/-! ### Engines (R119, R122, R123) -/

/-- A command or code write that is refused sets CMD_ERR (R119, R121). -/
def State.cmdErr (s : State) (e : Nat) : State := s.put ENG_STAT_CMD_ERR true e

/-- Every latch of an engine cleared (R100). -/
def State.clearLatches (s : State) (e : Nat) : State :=
  let s : State := { s with latchMore := smPut (fun _ => 0) s.latchMore e 0 }
  ((s.set ENG_EVLATCH0 0 e).set ENG_EVLATCH1 0 e).set ENG_EVLATCH2 0 e

/-- G1 to G31, P, F and V cleared (R119). -/
def State.clearRegs (s : State) (e : Nat) : State :=
  let s := s.each (List.range 32) fun n s => s.wr (ENG_G.addr e n) 0
  let s := s.each (List.range 8) fun n s => s.setP e n 0
  let s := s.each (List.range 32) fun v s => s.each (List.range 8) fun w s => s.wr (ENG_V.addr e v w) 0
  s.set ENG_FLAGS 0 e

/-- START, RESUME and STEP are refused in BOOT and SAFE (R119). -/
def State.engBarred (s : State) : Bool := s.mode == 0 || s.mode == 7

/-- An engine leaves a halt or trap: the marks of the halt clear (R117, R119). -/
def State.engGo (s : State) (e : Nat) : State := ((s.put ENG_STAT_BREAK false e).put ENG_STAT_SAFE_HALT false e).setEng e 2

/-- START: PC at ENTRY, registers and latches cleared (R119); a breakpoint there acts at once. -/
def State.engStart (s : State) (e : Nat) : State :=
  let st := s.engState e
  if s.engBarred || st == 2 || st == 3 then s.cmdErr e
  else
    let s := ((s.clearRegs e).clearLatches e).set ENG_PC (s.get ENG_ENTRY_ENTRY e) e
    let s := s.setEx e { s.ex e with wait := none, haltNext := false, dmaErr := false, startClk := some s.clk }
    (s.engGo e).breakAt e 0x10000

/-- RESUME (R119). -/
def State.engResume (s : State) (e : Nat) : State :=
  let st := s.engState e
  if s.engBarred || (st != 1 && st != 4) then s.cmdErr e else s.engGo e

/-- HALT (R119). -/
def State.engHalt (s : State) (e : Nat) : State :=
  let st := s.engState e
  if st != 2 && st != 3 then s.cmdErr e else s.stopEng e

/-- STEP: the instruction at PC issues, and the engine halts after it (R119). -/
def State.engStep (s : State) (e : Nat) : State :=
  if s.engBarred || s.engState e != 1 then s.cmdErr e
  else
    let s := s.engGo e
    let s := s.setEx e { s.ex e with haltNext := true }
    let w := s.code e (s.get ENG_PC e)
    s.issue e w (ulran e w)

/-- RESET: OFF from any state; memories keep their contents, latches clear (R100, R119). -/
def State.engReset (s : State) (e : Nat) : State :=
  let s := (s.clearWait e).clearLatches e
  let s := s.setEx e { s.ex e with haltNext := false, dmaErr := false }
  ((s.put ENG_STAT_BREAK false e).put ENG_STAT_SAFE_HALT false e).setEng e 0

/-- A write of ENG_CMD (R119). -/
def State.engCmd (s : State) (e c : Nat) : State :=
  match c with
  | 0 => s
  | 1 => s.engStart e
  | 2 => s.engResume e
  | 3 => s.engHalt e
  | 4 => s.engStep e
  | 5 => s.engReset e
  | _ => s.cmdErr e

/-- ENG_CMD.CMD = 1 (R119). -/
def execEngStart (e : Eng) (s : State) : Res := s.heard <| .next (s.engStart e)
/-- ENG_CMD.CMD = 2 (R119). -/
def execEngResume (e : Eng) (s : State) : Res := s.heard <| .next (s.engResume e)
/-- ENG_CMD.CMD = 3 (R119). -/
def execEngHalt (e : Eng) (s : State) : Res := s.heard <| .next (s.engHalt e)
/-- ENG_CMD.CMD = 4 (R119). -/
def execEngStep (e : Eng) (s : State) : Res := s.heard <| .next (s.engStep e)
/-- ENG_CMD.CMD = 5 (R119). -/
def execEngReset (e : Eng) (s : State) : Res := s.heard <| .next (s.engReset e)

/-- ENG_DOORBELL.RING sets latch 60 (R99). -/
def execEngDoorbell (e : Eng) (s : State) : Res := s.heard <| .next (s.latch e 60)

/-- SEQ_TRIG: each bit sets an internal trigger in every engine; it is never the start trigger (R33, R99, R124). -/
def execHostTrig (m : BitVec 16) (s : State) : Res := s.heard <|
  .next (s.each ((List.range 16).filter fun t => bitN m.toNat t) fun t s => s.latchAll (40 + t))

/-- SEQ_BIND written: only in IDLE and SERVICE (R123). -/
def execSeqBindWrite (k : Tn) (v : BitVec 32) (s : State) : Res := s.heard <|
  .next (if s.mode = 1 ∨ s.mode = 6 then s.hostWrite (SEQ_BIND.addr k) v else s.put SEQ_STAT_BIND_ERR true)

/-- The host writes a word of a sequencer's code memory (R85, R121). -/
def State.codeWrite (s : State) (e i : Nat) (v : Word) : State :=
  if s.codeOpen e (4 * i) then s.setCode e (4 * i) v else s.cmdErr e

/-- A host write to code memory (R121). -/
def execCodeWrite (e : Fin 16) (i : Fin 16384) (v : BitVec 32) (s : State) : Res := s.heard <| .next (s.codeWrite e i v)

/-- A host write to word `i` of an engine's register window: only in OFF, HALTED and TRAP; G0 discards it, and sequencers have no V (R83,
R122, R124). -/
def State.engRegWrite (s : State) (e i : Nat) (v : Word) : State :=
  let st := s.engState e
  if (st = 0 ∨ st = 1 ∨ st = 4) ∧ i ≠ 0 ∧ (isV e ∨ i < 256) then s.hostWrite (ENG_G.addr e 0 + 4 * i) v else s

/-- A host write to the register window (R122). -/
def execEngRegWrite (e : Eng) (i : Fin 1024) (v : BitVec 32) (s : State) : Res := s.heard <| .next (s.engRegWrite e i v)

/-! ### The loader (R8, R120, R121) -/

/-- The copy ends with a RESULT. -/
def State.loadEnds (s : State) (r : Nat) : State :=
  let s := (({ s with loading := none } : State).put SEQ_LD_STAT_BUSY false).set SEQ_LD_STAT_RESULT r
  s.raise (if r = 0 then EV_LOAD_DONE else EV_LOAD_FAIL) 255 [r]

/-- GO: a length of 0 completes at once; a GO while BUSY has no effect (R120). -/
def State.loadGo (s : State) : State :=
  if s.on SEQ_LD_STAT_BUSY then s
  else if s.get SEQ_LD_LEN_LEN = 0 then s.loadEnds 0
  else ({ s with loading := some (s.get64 SEQ_LD_SRC_LO, s.get SEQ_LD_DST, s.get SEQ_LD_OFF_OFF, s.get SEQ_LD_LEN_LEN) } : State).put SEQ_LD_STAT_BUSY true

/-- What the copy is refused with before it copies: RANGE, ALIGN, GUARD (R121, R124); none: it copies. -/
def State.loadBad (s : State) (src dst off len : Nat) : Option Nat :=
  let e := dst % 32
  let data := bitN dst 5
  let toStore := bitN dst 6
  if 28 ≤ e ∨ (if data then dataSize e else 0x10000) < off + len then some 1
  else if src % 32 ≠ 0 ∨ off % 32 ≠ 0 ∨ len % 32 ≠ 0 then some 2
  else if !data && !toStore && !((List.range (len / 32)).all fun i => s.codeOpen e (off + 32 * i)) then some 3
  else none

/-- `n` parts of 32 bytes copied from part `i` on; answers whether a store error ended the copy. -/
def loadParts (src dst off i n : Nat) (s : State) : State × Bool :=
  match n with
  | 0 => (s, false)
  | m + 1 =>
    let e := dst % 32
    let data := bitN dst 5
    let a := src + 32 * i
    let o := off + 32 * i
    if bitN dst 6 then
      if s.on MEM_SC_STAT_FAILED (s.scOf a) || !(s.on MEM_STAT_READY) then (s, true)
      else
        let l := if data then (List.range 32).map fun k => (s.dmem e (o + k)).toNat
          else (List.range 8).flatMap fun k => bytesOf 4 (s.code e (o + 4 * k)).toNat
        loadParts src dst off (i + 1) m (s.st a l)
    else if s.bad a 32 then (s.saw a 32, true)
    else
      let l := s.ld a 32
      let s := if data then s.each (List.range 32) fun k s => s.setDmem e (o + k) (BitVec.ofNat 8 (l.getD k 0))
        else s.each (List.range 8) fun k s => s.setCode e (o + 4 * k) (BitVec.ofNat 32 (leNum ((l.drop (4 * k)).take 4)))
      loadParts src dst off (i + 1) m s

/-- `n` parts of the copy in progress made, and its RESULT `r` unless it is refused or meets a store error. -/
def State.loadRun (s : State) (n r : Nat) : State :=
  match s.loading with
  | none => s
  | some (src, dst, off, len) =>
    match s.loadBad src dst off len with
    | some c => s.loadEnds c
    | none =>
      let (s, bad) := loadParts src dst off 0 (min n (len / 32)) s
      s.loadEnds (if bad then 4 else if r = 5 ∧ len / 32 < n then 6 else r)

/-- SEQ_LD_CMD.GO (R120). -/
def execLoaderGo (s : State) : Res := s.heard <| .next s.loadGo

/-- ABORT with `n` parts copied; past the last part the completion has committed, and the abort returns ALREADY_DONE (R8, R120). -/
def State.loadAbort (s : State) (n : Nat) : State := s.loadRun n 5

/-- SEQ_LD_CMD.ABORT (R120). -/
def execLoaderAbort (n : Nat) (s : State) : Res := s.heard <| .next (s.loadAbort n)

/-- The loader completes (R120). -/
def execLoaderComplete (s : State) : Res := .next (s.loadRun 32768 0)

/-! ### The reject list (R136 to R138) -/

/-- A gathered run is written (R137). -/
def execRejectEntryWrite (cause : Fin 16) (b : Bar) (s : State) : Res :=
  match smGet (fun _ => none) s.gather (16 * cause + b) with
  | none => .next s
  | some (a, z, _, _) =>
    let s := s.rejSplit cause b (s.get GEK_LC_CTL_TRK b) a (z - a).toNat ((z - a).toNat / (2 ^ 32 - 1) + 1)
    .next { s with gather := smPut (fun _ => none) s.gather (16 * cause + b) none }

/-- A range of cause HOST (R138). -/
def State.rejAdd (s : State) : State :=
  if s.mode = 0 then s
  else
    let a := s.geti64 SEQ_REJ_ADD_START_LO
    s.reject 10 15 (s.get GEK_CTL_REF_TRK) a (a + s.get SEQ_REJ_ADD_LEN)

/-- SEQ_REJ_ADD_CMD.GO (R138). -/
def execRejectAdd (s : State) : Res := s.heard <| .next s.rejAdd

/-- The list emptied, in IDLE and SERVICE only (R138). -/
def State.rejClear (s : State) : State :=
  if s.mode = 1 ∨ s.mode = 6 then
    (s.each (List.range 64) fun i s => ((s.set64 SEQ_REJ_START_LO 0 i).set SEQ_REJ_LEN 0 i).set SEQ_REJ_INFO 0 i).set SEQ_REJ_WR 0
  else s.put SEQ_GIO_STAT_CFG_ERR true

/-- SEQ_REJ_CTL.CLR (R138). -/
def execRejectClear (s : State) : Res := s.heard <| .next s.rejClear

/-! ### General I/O (R139 to R144) -/

/-- SEQ_GIO_IN follows the pins and INV (R144). -/
def State.gioIn (s : State) : State := s.set SEQ_GIO_IN (s.gioRaw ^^^ s.get SEQ_GIO_INV)

/-- The direction, inversion or safe codes written: only in IDLE and SERVICE (R139). -/
def State.gioConfig (s : State) (k : Nat) (v : Word) : State :=
  if s.mode = 1 ∨ s.mode = 6 then (s.hostWrite (SEQ_GIO_DIR.addr + 4 * k) v).gioIn else s.put SEQ_GIO_STAT_CFG_ERR true

/-- SEQ_GIO_DIR, SEQ_GIO_INV, SEQ_GIO_SAFE0 or SEQ_GIO_SAFE1 written (R139). -/
def execGioConfigWrite (k : Tn) (v : BitVec 32) (s : State) : Res := s.heard <| .next (s.gioConfig k v)

/-- SEQ_GIO_SET: not in BOOT and SAFE (R143). -/
def execGioSet (m : BitVec 32) (s : State) : Res := s.heard <|
  .next (if s.engBarred then s else s.wr SEQ_GIO_OUT.addr (s.rd SEQ_GIO_OUT.addr ||| m))

/-- SEQ_GIO_CLR: not in BOOT and SAFE (R143). -/
def execGioClr (m : BitVec 32) (s : State) : Res := s.heard <|
  .next (if s.engBarred then s else s.wr SEQ_GIO_OUT.addr (s.rd SEQ_GIO_OUT.addr &&& ~~~m))

/-- The filtered level of an input pin changes (R144). -/
def execGioInputChange (n : Fin 32) (level : Bool) (s : State) : Res :=
  .next (if bitN (s.get SEQ_GIO_DIR) n then s else ({ s with gioRaw := putBit s.gioRaw n level } : State).gioIn)

/-- What GIO pin `n` does (R26, R31, R140): driven to a level, or high-impedance (none). -/
def State.gioPin (s : State) (n : Nat) : Option Bool :=
  if !(bitN (s.get SEQ_GIO_DIR) n) ∨ s.mode = 0 ∨ s.mode = 5 then none
  else if s.mode = 7 then
    match (if n < 16 then s.get (SEQ_GIO_SAFE0_SAFE0.sh (2 * n)) else s.get (SEQ_GIO_SAFE1_SAFE0.sh (2 * (n - 16)))) with
    | 0 => some false
    | 1 => some true
    | _ => none
  else some (s.gioLevel n != bitN (s.get SEQ_GIO_INV) n)

end Sys2Proof.Machine
end

