-- ==== Sys2Proof/Machine/Store.lean ====
section
/-! DEFINITION. The store controller (05_central_store): ECC, poison and scrubbing (R152 to R157), command replay (R158 to R160), refresh and
calibration (R166, R167), panic and promotion (R169 to R172), fenced sub-channels (R176). -/

namespace Sys2Proof.Machine

/-- The unit-state entry of a sub-channel (R35). -/
def scUnit (n : Nat) : Nat := 0xA0 + n

/-- The unit-state entry of the requester at a port, 255 for one without (R35, R168). -/
def portReq (p : Nat) : Nat :=
  if p < 128 then 16 + p
  else if 164 ≤ p ∧ p < 172 then 0x90 + (p - 164)
  else if 179 ≤ p ∧ p < 191 then 0xC8 + (p - 179)
  else 255

/-- The erased device of a rank (R157). -/
def State.erased (s : State) (n rank : Nat) : Option Nat :=
  if rank = 0 then (if s.on MEM_SC_STAT_ERASED0 n then some (s.get MEM_SC_STAT_DEV0 n) else none)
  else (if s.on MEM_SC_STAT_ERASED1 n then some (s.get MEM_SC_STAT_DEV1 n) else none)

/-- A device marked erased: at most one of each rank (R157). -/
def State.erase (s : State) (n rank d : Nat) : State :=
  let s := s.raise EV_MEM_DEV_ERASED (scUnit n) [n, rank, d]
  if rank = 0 then (s.put MEM_SC_STAT_ERASED0 true n).set MEM_SC_STAT_DEV0 d n
  else (s.put MEM_SC_STAT_ERASED1 true n).set MEM_SC_STAT_DEV1 d n

/-- A correctable error (R153), with the device's count and its erasure (R157). -/
def State.memCE (s : State) (n rank d : Nat) : State :=
  let s := (s.raiseLim EV_MEM_CE (scUnit n) n sec1).addSat MEM_SC_CE 1 n
  let k := 32 * n + 16 * rank + d
  let c := smGet (fun _ => 0) s.memDev k + 1
  let s : State := { s with memDev := smPut (fun _ => 0) s.memDev k c }
  let s := if s.get MEM_SC_WORST_COUNT n < c then
      ((s.set MEM_SC_WORST_COUNT (min c 65535) n).set MEM_SC_WORST_DEV d n).set MEM_SC_WORST_RANK rank n
    else s
  let th := s.get MEM_SCRUB_CTL_DEV_THRESH
  s.cond (th != 0 && decide (th < c) && (s.erased n rank).isNone) fun s => s.erase n rank d

/-- An uncorrectable error (R154): reported and recorded, the burst zero under the poison code. -/
def State.memUE (s : State) (p a n : Nat) (scrub write : Bool) : State :=
  let b := a / 64
  let s := s.raise EV_MEM_UE (portReq p) (w64 (64 * b) ++ [(n : Int), (p : Int)])
  let s := (s.set64 MEM_UE_ADDR_LO (64 * b)).set MEM_UE_INFO_PORT p
  let s := ((s.set MEM_UE_INFO_SC n).put MEM_UE_INFO_SCRUB scrub).put MEM_UE_INFO_WRITE write
  let s := (s.addSat MEM_UE_INFO_COUNT 1).addSat MEM_SC_UE_UE 1 n
  { s.stRun (64 * b) (List.replicate 64 0) with poison := smPut (fun _ => false) s.poison b true }

/-- The errors that a burst's read meets, judged by the ECC (R152); beyond two devices detection is free (Config.free 6). -/
def State.memJudge (s : State) (p a rank : Nat) (err : List Nat) (scrub write : Bool) : State :=
  let n := s.scOf a
  let er := s.erased n rank
  let l := (err.filter fun d => some d != er).eraseDups
  match l with
  | [] => s
  | [d] => if er.isSome then s.memUE p a n scrub write else s.memCE n rank d
  | _ =>
    if er.isNone ∧ l.length = 2 then s.memUE p a n scrub write
    else
      let s : State := { s with fresh := s.fresh + 1 }
      if Config.free 6 s.fresh % 2 = 0 then s.memUE p a n scrub write else s

/-- A request reads the burst at `a` (R153, R154, R160, R176). -/
def State.memRead (s : State) (p a rank : Nat) (err : List Nat) (scrub write : Bool) : State :=
  if s.memCap ≤ a then s
  else if s.poisoned (a / 64) then s.sawBurst (a / 64)
  else s.memJudge p a rank err scrub write

/-- MEM_PANIC_STAT counts the ports in panic (R178). -/
def State.panicStat (s : State) : State :=
  let n := ((List.range 174).filter fun p => s.on MEM_PORT_STAT_PANIC p).length
  (s.put MEM_PANIC_STAT_ANY (n != 0)).set MEM_PANIC_STAT_PORTS n

/-- A port in panic now or not (R169, R172). -/
def State.setPanic (s : State) (p : Nat) (v : Bool) : State :=
  let s := (s.put MEM_PORT_STAT_PANIC v p).panicStat
  if v then (s.addWrap MEM_PORT_STAT_PANIC_CNT 1 p).raiseLim EV_MEM_PANIC (portReq p) p ms100
  else { s with memPanicLong := smPut (fun _ => false) s.memPanicLong p false }

/-- The FIFO level of a CRIT or RT port: it enters and leaves panic (R169). -/
def State.fifo (s : State) (p : Nat) (level : Option (Fin 65)) : State :=
  match level with
  | none => s
  | some v =>
    if 174 ≤ p then s
    else
      let v := v.val
      let s := s.set MEM_PORT_STAT_LEVEL v p
      let th := s.get MEM_PORT_CFG_THRESH p
      let hy := s.get MEM_PORT_CFG_HYST p
      let inP := s.on MEM_PORT_STAT_PANIC p
      let write := s.on MEM_PORT_CFG_SIDE p
      if th = 0 then (if inP then s.setPanic p false else s)
      else if !inP && (if write then decide (th < v) else decide (v < th)) then s.setPanic p true
      else if inP && (if write then decide (v + hy ≤ th) else decide (th + hy ≤ v)) then s.setPanic p false
      else s

/-- The controller serves a read (R153, R154, R169, R173). -/
def execStoreReadRequest (p : Fin 195) (a : Nat) (rank : Fin 2) (err : List (Fin 10)) (level : Option (Fin 65)) (s : State) : Res :=
  .next ((s.memRead p a rank (err.map (·.val)) (p == 192) false).fifo p level)

/-- The controller serves a write of bytes of one burst (R154, R173): a part of a burst is merged after a read. -/
def execStoreWriteRequest (p : Fin 195) (a : Nat) (d : List Byte) (rank : Fin 2) (err : List (Fin 10)) (level : Option (Fin 65)) (s : State) : Res :=
  let l := (d.take (64 - a % 64)).map (·.toNat)
  let s := if l.length < 64 && !(s.poisoned (a / 64)) then s.memRead p a rank (err.map (·.val)) false true else s
  .next ((s.st a l).fifo p level)

/-- A port has been in panic for longer than PANIC_LIMIT (R172): once for the episode. -/
def execMemPanicLong (p : Fin 195) (s : State) : Res :=
  .next (if s.on MEM_PORT_STAT_PANIC p && s.get MEM_PANIC_LIMIT != 0 && !(smGet (fun _ => false) s.memPanicLong p) then
      ({ s with memPanicLong := smPut (fun _ => false) s.memPanicLong p true } : State).raise EV_MEM_PANIC_LONG (portReq p)
    else s)

/-- A request is older than its class's age limit: it is promoted (R170, R171). -/
def execRequestPromotion (c : Tn) (s : State) : Res :=
  let f : Fld := match c.val with
    | 0 => MEM_AGE_CRIT
    | 1 => MEM_AGE_RT
    | 2 => MEM_AGE_BULK
    | _ => MEM_AGE_BACK
  .next (if s.get f = 0 then s else { s with memPromoted := smPut (fun _ => 0) s.memPromoted c (smGet (fun _ => 0) s.memPromoted c + 1) })

/-- A sub-channel works: populated, not in self-refresh. -/
def State.scAwake (s : State) (n : Nat) : Bool := decide (n < s.memN) && !(smGet (fun _ => false) s.memSleep n)

/-- A refresh falls due: ahead of all requests; under panic postponed as far as DDR5 allows (R171; the bound is Config.free 5). -/
def execRefreshDue (n : Fin 24) (s : State) : Res :=
  let c := smGet (fun _ => 0) s.memRefPost n
  .next (if !(s.scAwake n) then s
    else if s.on MEM_PANIC_STAT_ANY && decide (c < Config.free 5 0) then { s with memRefPost := smPut (fun _ => 0) s.memRefPost n (c + 1) }
    else { s with memRefPost := smPut (fun _ => 0) s.memRefPost n 0 })

/-- A scrub pass ends: the counts of the pass start again (R156, R157). -/
def State.scrubPass (s : State) : State :=
  let s := ((s.set64 MEM_SCRUB_POS_LO 0).addWrap MEM_SCRUB_PASSES 1).raise EV_MEM_SCRUB_PASS
  ({ s with memDev := [] } : State).each (List.range 24) fun n s => s.wr (MEM_SC_WORST.addr n) 0

/-- The patrol scrubber does one burst (R155, R156). -/
def execScrubStep (rank : Fin 2) (err : List (Fin 10)) (s : State) : Res :=
  if s.on MEM_SCRUB_CTL_EN && s.get MEM_SCRUB_CTL_PERIOD != 0 && s.on MEM_STAT_READY then
    let a := s.get64 MEM_SCRUB_POS_LO
    let s := s.memRead 192 a rank (err.map (·.val)) true false
    .next (if s.memCap ≤ a + 64 then s.scrubPass else s.set64 MEM_SCRUB_POS_LO (a + 64))
  else .next s

/-- The third failed replay of one command: the sub-channel is FAILED (R160). -/
def State.scFail (s : State) (n : Nat) : State :=
  let s := (s.put MEM_SC_STAT_FAILED true n).set MEM_FAILED_MAP (putBit (s.get MEM_FAILED_MAP) n true)
  let s : State := { s with memSleep := smPut (fun _ => false) s.memSleep n true }
  (s.setRun (scUnit n) 5).fatal EV_MEM_SC_FAILED (scUnit n)

/-- The DRAM raises ALERT_N: one replay sequence (R158 to R160). -/
def execDramAlert (n : Fin 24) (capar wcrc : Bool) (again : Option (Fin 64)) (s : State) : Res :=
  if !(s.scAwake n) then .next s
  else
    let s := s.cond capar fun s => (s.raiseLim EV_MEM_CA_REPLAY (scUnit n) n sec1).addSat MEM_SC_REPLAY_CAPAR 1 n
    let s := s.cond wcrc fun s => (s.raiseLim EV_MEM_WCRC_RETRY (scUnit n) n sec1).addSat MEM_SC_REPLAY_WCRC 1 n
    match again with
    | none => .next { s with memFails := s.memFails.filter fun x => x.1 / 65536 != n.val }
    | some c =>
      let k := 65536 * n.val + c.val
      let f := smGet (fun _ => 0) s.memFails k + 1
      let s : State := { s with memFails := smPut (fun _ => 0) s.memFails k f }
      .next (if 3 ≤ f then s.scFail n else s)

/-- The die is more than 25 °C from the training temperature: once for each departure (R166). -/
def State.checkDrift (s : State) : State :=
  let far := decide (200 < (s.geti MGT_TDIE_TDIE - s.geti MEM_TRAIN_TEMP_TEMP).natAbs)
  let new := far && !s.memDrift && s.on MEM_STAT_READY
  let s : State := { s with memDrift := far }
  s.cond new fun s => s.raise EV_MEM_TEMP_DRIFT

/-- ZQ calibration of a sub-channel (R166). -/
def execZqCalibration (n : Fin 24) (s : State) : Res := .next (if s.scAwake n then s.checkDrift else s)

/-- A rank's DQS interval oscillator is followed (R166). -/
def execDqsTrack (n : Fin 24) (_rank : Fin 2) (s : State) : Res := .next (if s.scAwake n then s.checkDrift else s)

/-- A rank's MR4 is read: above 85 °C its refresh rate doubles, and it is normal again after two reads at or below (R167). -/
def execMr4Read (n : Fin 24) (rank : Fin 2) (hot : Bool) (s : State) : Res :=
  if !(s.scAwake n) then .next s
  else
    let k := 2 * n.val + rank.val
    let was := smGet (fun _ => false) s.memHot k
    let cool := if hot then 0 else smGet (fun _ => 0) s.memCool k + 1
    let now := hot || (was && decide (cool < 2))
    let s : State := { s with memCool := smPut (fun _ => 0) s.memCool k (min cool 2), memHot := smPut (fun _ => false) s.memHot k now }
    let s := s.put MEM_SC_STAT_REFRESH_2X (smGet (fun _ => false) s.memHot (2 * n.val) || smGet (fun _ => false) s.memHot (2 * n.val + 1)) n
    .next (s.cond (now && !was) fun s => s.raise EV_MEM_REFRESH_2X (scUnit n))

/-- No accepted request remains on a fenced sub-channel: its running view is OFF, and it goes to self-refresh (R176). -/
def execSubchannelDrained (n : Fin 24) (s : State) : Res :=
  .next (if s.on MEM_SC_STAT_FENCED n then
      ({ s with memSleep := smPut (fun _ => false) s.memSleep n true } : State).setRun (scUnit n) 0
    else s)

end Sys2Proof.Machine
end

