-- ==== Sys2Proof/Machine/Husk.lean ====
section
/-! DEFINITION. The Husk engine (07_husk R224 to R228). -/

namespace Sys2Proof.Machine

/-- A command ends with a RESULT (R228, R229). -/
def State.huskEnds (s : State) (r out : Nat) : State :=
  let s := (({ s with husk := none } : State).put HSK_STAT_BUSY false).set HSK_STAT_RESULT r
  let s := s.set64 HSK_OUT_LO out
  let s := if r = 0 ∨ r = 5 then s.addWrap HSK_CMD_CNT_DONE 1 else if r = 1 then s.addWrap HSK_CMD_CNT_NO_GAIN 1 else s
  s.raise (if r = 0 ∨ r = 1 ∨ r = 5 then EV_HSK_DONE else EV_HSK_FAIL) 255 [r, s.get HSK_OUT_LO, s.get HSK_OUT_HI]

/-- The limit of the destination: below W × H bytes, and within CAP (R225). -/
def HuskJob.crosses (j : HuskJob) (z : Nat) : Bool := decide (j.w * j.h ≤ z) || (j.cap != 0 && decide (j.cap < z))

/-- The first byte of the coded lines (R224). -/
def HuskJob.start (j : HuskJob) : Nat := 64 + cdiv (8 * j.h) 64 * 64

/-- The checks of GO (R226). -/
def State.huskRange (s : State) (j : HuskJob) : Bool :=
  j.src % 64 != 0 || j.dst % 64 != 0 || j.stride % 64 != 0 || decide (j.stride < j.w) || decide (8 < j.ril) ||
    decide (s.memCap < j.src + (j.h - 1) * j.stride + j.w) ||
    decide (s.memCap < j.dst + (if j.cap = 0 then j.w * j.h else min j.cap (j.w * j.h)))

/-- GO (R226, R227): ignored in BOOT, in SAFE and while BUSY; a W or H of 0 is done at once. -/
def State.huskGo (s : State) : State :=
  if s.mode = 0 ∨ s.mode = 7 ∨ s.on HSK_STAT_BUSY then s
  else
    let j : HuskJob := ⟨s.get64 HSK_SRC_LO, s.get HSK_STRIDE, s.get HSK_CFG_W, s.get HSK_CFG_RIL, s.get HSK_H, s.get64 HSK_DST_LO, s.get64 HSK_CAP_LO⟩
    let s := s.set HSK_LINE 0
    if j.w = 0 ∨ j.h = 0 then s.huskEnds 0 0
    else if s.huskRange j then s.huskEnds 2 0
    else ({ s with husk := some j } : State).put HSK_STAT_BUSY true

/-- How the coding of lines ended. -/
inductive HuskEnd where
  /-- Every line asked for is coded: the end of the last and the largest LENGTH. -/
  | lines (off maxLine : Nat)
  /-- A line's end would cross a limit (R225), after `off` bytes. -/
  | noGain (off : Nat)
  /-- A source read returned poison (R226). -/
  | storeErr (off : Nat)

/-- Lines `y` to `y + n − 1` coded and written from offset `off`, each with its index entry (R213, R224); `up` the line above. -/
def huskCode (j : HuskJob) (y off mx : Nat) (up : List Nat) (n : Nat) (s : State) : State × HuskEnd :=
  match n with
  | 0 => (s, .lines off mx)
  | m + 1 =>
    let a := j.src + y * j.stride
    if s.bad a j.w then (s.saw a j.w, .storeErr off)
    else
      let px := s.ld a j.w
      let l := huskLinePadded (y % 2 ^ j.ril == 0) px up
      if j.crosses (off + l.length) then (s, .noGain off)
      else
        let s := (s.st (j.dst + off) l).stN (j.dst + 64 + 8 * y) 8 (off + l.length * 2 ^ 40)
        huskCode j (y + 1) (off + l.length) (max mx l.length) px m (s.set HSK_LINE (y + 1))

/-- The header (R212), with its CRC. -/
def HuskJob.header (j : HuskJob) (dataLen maxLine : Nat) : List Nat :=
  let b := bytesOf 4 0x4B535548 ++ bytesOf 2 1 ++ bytesOf 1 j.ril ++ bytesOf 1 0 ++ bytesOf 4 j.w ++ bytesOf 4 j.h ++ bytesOf 8 64 ++
    bytesOf 8 dataLen ++ bytesOf 4 maxLine ++ List.replicate 24 0
  b ++ bytesOf 4 (crc32 b)

/-- The surface of the command in progress coded, its header written last; it ends with `r` when every line is coded (R224, R225). -/
def State.huskRun (s : State) (j : HuskJob) (r : Nat) : State :=
  match huskCode j 0 j.start 0 [] j.h s with
  | (s, .lines off mx) => ((s.st j.dst (j.header off mx)).set HSK_MAXLINE mx).huskEnds r off
  | (s, .noGain off) => s.huskEnds 1 off
  | (s, .storeErr off) => s.huskEnds 3 off

/-- ABORT with `n` lines coded: ABORTED with no header, or ALREADY_DONE once the header is committed (R8, R227). -/
def State.huskStop (s : State) (n : Nat) : State :=
  match s.husk with
  | none => s
  | some j =>
    if j.h < n then s.huskRun j 5
    else
      match huskCode j 0 j.start 0 [] n s with
      | (s, .lines off _) => s.huskEnds 4 off
      | (s, .noGain off) => s.huskEnds 4 off
      | (s, .storeErr off) => s.huskEnds 4 off

/-- HSK_CMD.GO (R226). -/
def execHskGo (s : State) : Res := s.heard <| .next s.huskGo

/-- HSK_CMD.ABORT (R227). -/
def execHskAbort (n : Nat) (s : State) : Res := s.heard <| .next (s.huskStop n)

/-- The engine finishes the command (R224, R225). -/
def execHskComplete (s : State) : Res := .next (match s.husk with | some j => s.huskRun j 0 | none => s)

end Sys2Proof.Machine
end

