-- ==== Sys2Proof/Machine/IspOps.lean ====
section
/-! DEFINITION. The arithmetic of the image signal processor (10_inspection R297 to R304): stages 2 to 11 on the lines of one frame or block. -/

namespace Sys2Proof.Machine

/-- Bits of a sample in a camera format (R283, R285, R313). -/
def camBits (fmt : Nat) : Nat :=
  if fmt = 0 ∨ fmt = 4 ∨ fmt = 7 ∨ fmt = 11 then 8 else if fmt = 1 ∨ fmt = 5 ∨ fmt = 8 then 10
  else if fmt = 2 ∨ fmt = 6 ∨ fmt = 9 then 12 else if fmt = 10 then 14 else 16

/-- Channels of a pixel in a camera format. -/
def camChans (fmt : Nat) : Nat := if fmt = 4 ∨ fmt = 5 ∨ fmt = 6 ∨ fmt = 11 then 3 else 1

/-- The format is Bayer; RAW14 may be mono or Bayer and no register says which (R285), so it is free (log 12). -/
def camBayer (fmt : Nat) : Bool := fmt == 7 || fmt == 8 || fmt == 9 || (fmt == 10 && Config.free 7 0 % 2 == 1)

/-- A field of a unit's parameters as the frame took them (R298): the unit page from 0x140 on. -/
def CamPar.get (p : CamPar) (f : Fld) (k : Nat := 0) : Nat := getBits (p.words.getD ((f.addr 0 k - CAM_U_BLACK0.addr) / 4) 0) f.lo f.width

/-- That field as two's complement. -/
def CamPar.geti (p : CamPar) (f : Fld) (k : Nat := 0) : Int := sx f.width (p.get f k)

/-- A register pair of the parameters. -/
def CamPar.get64 (p : CamPar) (f : Fld) (k : Nat := 0) : Nat := p.get f k + 2 ^ 32 * (p.words.getD ((f.addr 0 k - CAM_U_BLACK0.addr) / 4 + 1) 0).toNat

/-- DLY of channel `c` (R299). -/
def CamPar.dly (p : CamPar) (c : Nat) : Nat := p.get (if c = 0 then CAM_U_DLY_DLY_R else if c = 1 then CAM_U_DLY_DLY_G else CAM_U_DLY_DLY_B)

/-- What stays the same over a frame's lines in the ISP: its parameters, width, number of lines, format, BAYER, AREA mode with H, and the
counter that its free values take. -/
structure IspCtx where
  p : CamPar
  w : Nat
  n : Nat
  h : Nat
  area : Bool
  fmt : Nat
  bayer : Nat
  fresh : Nat
deriving DecidableEq, Repr

/-- The frame's stage 3 and 4 run on Bayer data: AREA mode only (R299). -/
def IspCtx.cfa (x : IspCtx) : Bool := camBayer x.fmt && x.area

/-- The colour of pixel (column, line) of a Bayer frame: 0 R, 1 G, 2 B (R299). -/
def cfaColour (bayer i j : Nat) : Nat :=
  let q := (i + bayer % 2) % 2 + 2 * ((j + bayer / 2) % 2)
  if q = 0 then 0 else if q = 3 then 2 else 1

/-- A value held to 16 bits. -/
def clamp16 (z : Int) : Nat := (clampI 0 65535 z).toNat

/-- The names of the three channels in order. -/
def chanIdx (l : List (List Nat)) : List (Nat × List Nat) := (List.range l.length).zip l

/-- Stage 2: black level (R298). -/
def IspCtx.stage2 (x : IspCtx) (j : Nat) (rows : List (List Nat)) : List (List Nat) :=
  let black := fun (c : Nat) => x.p.get (if c = 0 then CAM_U_BLACK0_BLACK_R else if c = 1 then CAM_U_BLACK0_BLACK_G else CAM_U_BLACK1_BLACK_B)
  (chanIdx rows).map fun (c, r) =>
    ((List.range r.length).zip r).map fun (i, v) => v - black (if camBayer x.fmt then cfaColour x.bayer i j else c)

/-- Pixel (column, line) stands in the defect map, alone or by its column (R299). -/
def IspCtx.mapped (x : IspCtx) (i j : Nat) : Bool := x.p.defects.any fun d => d % 65536 == i && (d / 65536 == j || d / 65536 == 65535)

/-- Stage 3 of one pixel from its neighbours (R299). Beside an edge, where one neighbour does not exist, the spec states no result: a free value
(log 13). -/
def IspCtx.defect (x : IspCtx) (j c i v : Nat) (l r : Option Nat) : Nat :=
  let t := x.p.get CAM_U_DEFECT_CFG_DP_THRESH
  match l, r with
  | some a, some b =>
    let hot := decide (a + t < v) && decide (b + t < v)
    let cold := decide (v + t < a) && decide (v + t < b)
    if x.mapped i j || (t != 0 && (hot || cold)) then (a + b + 1) / 2 else v
  | _, _ =>
    let far := match l, r with
      | some a, none => decide (a + t < v) || decide (v + t < a)
      | none, some b => decide (b + t < v) || decide (v + t < b)
      | _, _ => true
    if x.mapped i j || (t != 0 && far) then Config.free 9 (((x.fresh * 65536 + j) * 65536 + i) * 4 + c) % 65536 else v

/-- Stage 3: defective pixels replaced by the rounded mean of the nearest same-colour neighbours in the line (R299). -/
def IspCtx.stage3 (x : IspCtx) (j : Nat) (rows : List (List Nat)) : List (List Nat) :=
  let d := if camBayer x.fmt then 2 else 1
  if x.p.defects.isEmpty && x.p.get CAM_U_DEFECT_CFG_DP_THRESH == 0 then rows
  else
    (chanIdx rows).map fun (c, r) =>
      ((List.range r.length).zip r).map fun (i, v) => x.defect j c i v (if d ≤ i then r[i - d]? else none) r[i + d]?

/-- A place mirrored at the edges of `n` places (R299). -/
def mirror (n : Nat) (z : Int) : Nat :=
  let z := z.natAbs
  if z < n then z else (2 * (n - 1) - z)

/-- Bayer interpolation of pixel (i, j): its own colour as it is; the others from the 5 x 5 neighbourhood, by coefficients that the spec does not
give (log 14). -/
def IspCtx.demosaic (x : IspCtx) (m : List (List Nat)) (i j : Nat) : List Nat :=
  let at_ := fun (a b : Int) => ((m.getD (mirror m.length (j + b)) []).getD (mirror x.w (i + a)) 0)
  let win := ([-2, -1, 0, 1, 2] : List Int).flatMap fun b => ([-2, -1, 0, 1, 2] : List Int).map fun a => at_ a b
  let own := cfaColour x.bayer i j
  (List.range 3).map fun c => if c = own then at_ 0 0 else Config.bayer (cfaColour x.bayer i j) (cfaColour x.bayer (i + 1) j) c win % 65536

/-- Stage 4: line `j` aligned (line-scan), interpolated (Bayer area), or copied to three channels (mono) (R299). `m`: the frame's lines after stage 3. -/
def IspCtx.stage4 (x : IspCtx) (m : List (List (List Nat))) (j : Nat) : List (List Nat) :=
  if x.area then
    if x.cfa then
      let mono := m.map fun r => r.headD []
      let px := (List.range x.w).map fun i => x.demosaic mono i j
      (List.range 3).map fun c => px.map fun p => p.getD c 0
    else
      let r := m.getD j []
      if r.length = 1 then [r.headD [], r.headD [], r.headD []] else r
  else
    (List.range 3).map fun c =>
      let r := m.getD (j + x.p.dly c) []
      if r.length = 1 then r.headD [] else r.getD c []

/-- GAIN and OFFS of a flat-field word (R299). -/
def flatWord (w : Nat) : Int × Int := ((w % 65536 : Nat), sx 16 (w / 65536))

/-- An exact quotient, or one of the two whole numbers beside it: the spec gives no rounding (log 15). -/
def freeRound (num : Int) (den key : Nat) : Int :=
  let q := num / den
  if num % den = 0 then q else q + (Config.free 8 key % 2 : Nat)

/-- Gain and offset for channel `c` of pixel (i, j): per column in LINE mode, by bilinear interpolation of the 33 x 33 grid in AREA mode (R299). -/
def IspCtx.flat (x : IspCtx) (c i j : Nat) : Int × Int :=
  if x.p.flat.isEmpty then (16384, 0)
  else if !x.area then flatWord (x.p.flat.getD (3 * i + c) 0)
  else
    let dx := max 1 (x.w - 1)
    let dy := max 1 (x.h - 1)
    let (gi, fx) := (min 31 (32 * i / dx), 32 * i - min 31 (32 * i / dx) * dx)
    let (gj, fy) := (min 31 (32 * j / dy), 32 * j - min 31 (32 * j / dy) * dy)
    let e := fun (a b : Nat) => flatWord (x.p.flat.getD (3 * (33 * b + a) + c) 0)
    let mix := fun (f : Int × Int → Int) =>
      (f (e gi gj) * ((dx : Int) - fx) + f (e (gi + 1) gj) * fx) * ((dy : Int) - fy) +
        (f (e gi (gj + 1)) * ((dx : Int) - fx) + f (e (gi + 1) (gj + 1)) * fx) * fy
    let key := ((x.fresh * 65536 + j) * 65536 + i) * 8 + 2 * c
    (freeRound (mix Prod.fst) (dx * dy) key, freeRound (mix Prod.snd) (dx * dy) (key + 1))

/-- Stage 5: flat field, then illumination (R299). -/
def IspCtx.stage5 (x : IspCtx) (j : Nat) (rows : List (List Nat)) : List (List Nat) :=
  let illum := fun (c : Nat) => x.p.get (if c = 0 then CAM_U_ILLUM0_ILLUM_R else if c = 1 then CAM_U_ILLUM0_ILLUM_G else CAM_U_ILLUM1_ILLUM_B)
  (chanIdx rows).map fun (c, r) =>
    ((List.range r.length).zip r).map fun (i, v) =>
      let (g, o) := x.flat c i j
      let v : Nat := clamp16 (((v + o) * g + 8192) / 16384)
      clamp16 (((v : Int) * illum c + 8192) / 16384)

/-- Stage 6: white balance (R300). -/
def IspCtx.stage6 (x : IspCtx) (rows : List (List Nat)) : List (List Nat) :=
  let wb := fun (c : Nat) => x.p.get (if c = 0 then CAM_U_WB0_WB_R else if c = 1 then CAM_U_WB0_WB_G else CAM_U_WB1_WB_B)
  (chanIdx rows).map fun (c, r) => r.map fun (v : Nat) => clamp16 (((v : Int) * wb c + 2048) / 4096)

/-- Entry M_ij of the colour matrix (R300, R313). -/
def CamPar.m (p : CamPar) (i j : Nat) : Int :=
  let k := 3 * i + j
  p.geti { CAM_U_M0_M00 with base := CAM_U_M0_M00.base + 4 * (k / 2), lo := 16 * (k % 2) }

/-- Stage 7: the colour matrix on one pixel (R300). -/
def IspCtx.matrix (x : IspCtx) (px : List Nat) : List Nat :=
  (List.range 3).map fun i =>
    let off := x.p.geti (if i = 0 then CAM_U_OFF0_OFF_0 else if i = 1 then CAM_U_OFF0_OFF_1 else CAM_U_OFF1_OFF_2)
    let z : Int := ((List.range 3).map fun j => x.p.m i j * (px.getD j 0 : Int)).foldl (· + ·) 0
    clamp16 ((z + 2048) / 4096 + off)

/-- Stage 8: the tone curve of channel `c` (R300). -/
def IspCtx.toneOf (x : IspCtx) (c v : Nat) : Nat :=
  if x.p.tone.isEmpty then v
  else
    let i := v / 64
    let t := fun (n : Nat) => (x.p.tone.getD (1024 * c + n) 0 : Int)
    clamp16 (t i + ((t (min (i + 1) 1023) - t i) * ((v % 64 : Nat) : Int) + 32) / 64)

/-- Three rows as a list of pixels. -/
def pixels (rows : List (List Nat)) : List (List Nat) :=
  (List.range (rows.headD []).length).map fun i => rows.map fun r => r.getD i 0

/-- A list of pixels as three rows. -/
def toRows (px : List (List Nat)) : List (List Nat) := (List.range 3).map fun c => px.map fun p => p.getD c 0

/-- The largest number of `k` bits or fewer whose cube is at most `n`. -/
def icbrt (n : Nat) (k : Nat) (r : Nat := 0) : Nat :=
  match k with
  | 0 => r
  | k + 1 => let t := r + 2 ^ k; if t ^ 3 ≤ n then icbrt n k t else icbrt n k r

/-- g(t) of R301 for t = num / den, in 2^-24. -/
def labG (num den : Nat) : Int :=
  if 216 * den < num * 24389 then icbrt (num * 2 ^ 72 / den) 40 else (num * 841 * 2 ^ 24 / (den * 108) : Nat) + 4 * 2 ^ 24 / 29

/-- Stage 9 on one pixel, as encoded (R301): the exact value with an error of at most 0.02 that the spec leaves open (log 16); L* unsigned in 1/512, a* and b* in
1/256 as 16-bit two's complement. With WHITE = 0 every component is free. -/
def IspCtx.lab (x : IspCtx) (j i : Nat) (px : List Nat) : List Nat :=
  let wh := x.p.get CAM_U_WHITE_WHITE
  let key := ((x.fresh * 65536 + j) * 65536 + i) * 4
  if wh = 0 then (List.range 3).map fun c => Config.free 10 (key + c) % 65536
  else
    let gx := labG (px.getD 0 0 * 100000) (96422 * wh)
    let gy := labG (px.getD 1 0) wh
    let gz := labG (px.getD 2 0 * 100000) (82521 * wh)
    let err := fun (c lim : Nat) => (Config.free 11 (key + c) % (2 * lim + 1) : Nat) - (lim : Int)
    let l := rdiv ((116 * gy - 16 * 2 ^ 24) * 512) (2 ^ 24) + err 0 11
    let a := rdiv (500 * (gx - gy) * 256) (2 ^ 24) + err 1 6
    let b := rdiv (200 * (gy - gz) * 256) (2 ^ 24) + err 2 6
    [(clampI 0 65535 l).toNat, ux 16 (clampI (-32767) 32767 a), ux 16 (clampI (-32767) 32767 b)]

/-- What the ISP makes of one output line: the taps T0 to T3, stages 6, 8 and 9, its line flags, and the leading pixels without chaff. -/
structure IspLine where
  taps : List (List (List Nat))
  bal : List (List Nat)
  raw3 : List (List Nat)
  toned : List (List Nat)
  lab : List (List Nat)
  flags : Nat
  good : Nat
deriving DecidableEq, Repr

/-- The input lines that output line `j` is made from: those the channels are delayed to (line-scan), else itself (R299). -/
def IspCtx.sources (x : IspCtx) (j : Nat) : List Nat := if x.area then [j] else (List.range 3).map fun c => j + x.p.dly c

/-- Every output line of a frame or block from its lines and those that follow it (R298 to R301). -/
def IspCtx.run (x : IspCtx) (l : List CamLn) : List IspLine :=
  let idx := (List.range l.length).zip l
  let t1 := idx.map fun (j, c) => x.stage2 j c.rows
  let t2 := ((List.range l.length).zip t1).map fun (j, r) => x.stage3 j r
  (List.range x.n).map fun j =>
    let t3 := x.stage4 t2 j
    let bal := x.stage6 (x.stage5 j t3)
    let tone := (chanIdx (toRows ((pixels bal).map x.matrix))).map fun (c, r) => r.map (x.toneOf c)
    let px := pixels tone
    let src := (x.sources j).map fun i => l.getD i ⟨0, [], 1, 0, none⟩
    let raw3 := if x.area then (l.getD j ⟨0, [], 0, 0, none⟩).rows
      else (List.range 3).map fun c => let r := (l.getD (j + x.p.dly c) ⟨0, [], 0, 0, none⟩).rows; if r.length = 1 then r.headD [] else r.getD c []
    { taps := [(l.getD j ⟨0, [], 0, 0, none⟩).rows, t1.getD j [], t2.getD j [], t3], bal, raw3, toned := tone,
      lab := toRows (((List.range px.length).zip px).map fun (i, p) => x.lab j i p),
      flags := src.foldl (fun f c => f ||| c.flags) 0, good := src.foldl (fun g c => min g c.good) x.w }

/-! ### Statistics (R302) -/

/-- The pixels of stage 10, as (column, line, R, G, B, clipped): inside the window, no chaff, no line flagged CORRUPT, CRC or ECC (R302). -/
def IspCtx.statPx (x : IspCtx) (l : List IspLine) : List (Nat × Nat × Nat × Nat × Nat × Bool) :=
  let x0 := x.p.get CAM_U_STATS_WIN_X0
  let sw := x.p.get CAM_U_STATS_WIN_SW
  let sat := x.p.get CAM_U_STATS_CFG_SAT
  ((List.range l.length).zip l).flatMap fun (j, o) =>
    if bitsN o.flags 3 3 ≠ 0 then []
    else
      ((List.range (min (x0 + sw) o.good)).drop x0).map fun i =>
        let v := fun (c : Nat) => (o.bal.getD c []).getD i 0
        (i, j, v 0, v 1, v 2, o.raw3.any fun r => decide (sat ≤ r.getD i 0))

/-- The zone of a pixel (R302). -/
def IspCtx.zone (x : IspCtx) (i j : Nat) : Nat :=
  let nzx := x.p.get CAM_U_STATS_CFG_NZX
  (i - x.p.get CAM_U_STATS_WIN_X0) * nzx / x.p.get CAM_U_STATS_WIN_SW + nzx * (j * x.p.get CAM_U_STATS_CFG_NZY / x.n)

/-- ZONE and HIST of the record, as bytes (R302, R306). -/
def IspCtx.stats (x : IspCtx) (l : List IspLine) : List Nat :=
  let off := x.p.get CAM_U_STATS_WIN_SW == 0 || x.p.get CAM_U_STATS_CFG_NZX == 0 || x.p.get CAM_U_STATS_CFG_NZY == 0
  let px := if off then [] else x.statPx l
  let zones := (List.range 64).flatMap fun z =>
    let q := px.filter fun (i, j, _) => x.zone i j == z
    let sum := fun (f : Nat × Nat × Nat × Nat × Nat × Bool → Nat) => (q.map f).foldl (· + ·) 0
    bytesOf 8 (sum fun p => p.2.2.1) ++ bytesOf 8 (sum fun p => p.2.2.2.1) ++ bytesOf 8 (sum fun p => p.2.2.2.2.1) ++
      bytesOf 4 q.length ++ bytesOf 4 (sum fun p => b2n p.2.2.2.2.2)
  let hist := (List.range 256).flatMap fun v => bytesOf 4 (px.filter fun p => p.2.2.2.1 / 256 == v).length
  zones ++ hist

/-! ### Output streams (R303, R304, R492) -/

/-- The part of the footprint `[k * f, (k + 1) * f)` that covers input place `i`, in 1/256. -/
def covers (f k i : Nat) : Nat := min ((k + 1) * f) (256 * (i + 1)) - max (k * f) (256 * i)

/-- The input places that a footprint covers, with their weights. -/
def footprint (f k : Nat) : List (Nat × Nat) :=
  ((List.range (cdiv ((k + 1) * f) 256)).drop (k * f / 256)).map fun i => (i, covers f k i)

/-- The rows of a line that a stream takes (R303). -/
def IspLine.src (o : IspLine) (n : Nat) : List (List Nat) := if n < 4 then o.taps.getD n [] else if n = 5 then o.lab else o.toned

/-- One output line of stream `k` that covers the cropped lines `ls` (with weights along), as bytes (R303). -/
def IspCtx.streamLine (x : IspCtx) (k : Nat) (ls : List (List (List Nat) × Nat)) : List Nat :=
  let src := x.p.get CAM_K_CTL_SRC k
  let form := let f := x.p.get CAM_K_CTL_FMT k; if src = 5 ∧ f = 0 then 1 else f
  let x0 := x.p.get CAM_K_CROPX_X0 k
  let cw := min (x.p.get CAM_K_CROPX_CW k) (x.w - x0)
  let fx := x.p.get CAM_K_SCALE_SXF k
  let tot := fx * x.p.get CAM_K_SCALE_SYF k
  let val := fun (c v : Nat) => if src = 5 ∧ c ≠ 0 then sx 16 v else (v : Int)
  (List.range (if fx = 0 then 0 else cw * 256 / fx)).flatMap fun i =>
    let comp := fun (c : Nat) =>
      let z : Int := (ls.map fun (r, wy) =>
        ((footprint fx i).map fun (a, wx) => val c ((r.getD c []).getD (x0 + a) 0) * ((wx * wy : Nat) : Int)).foldl (· + ·) 0).foldl (· + ·) 0
      ux 16 (rdiv z tot)
    if form = 0 then (List.range 3).map fun c => comp c / 256
    else if form = 1 then (List.range 3).flatMap fun c => bytesOf 2 (comp c)
    else [comp (if src = 5 then 0 else 1) / 256]

/-- The lines that stream `k` writes, as bytes each, in order (R303, R304). -/
def IspCtx.streamOut (x : IspCtx) (k : Nat) (l : List IspLine) : List (List Nat) :=
  let src := x.p.get CAM_K_CTL_SRC k
  let ch := x.p.get CAM_K_CROPY_CH k
  let x0 := x.p.get CAM_K_CROPX_X0 k
  let cw := min (x.p.get CAM_K_CROPX_CW k) (x.w - x0)
  let rest := l.drop (x.p.get CAM_K_CROPY_Y0 k)
  let crop := (if ch = 0 then rest else rest.take ch).map fun o => o.src src
  if cw = 0 then []
  else if src < 4 then crop.map fun r => (List.range cw).flatMap fun i => r.flatMap fun c => bytesOf 2 (c.getD (x0 + i) 0)
  else
    let fy := x.p.get CAM_K_SCALE_SYF k
    (List.range (if fy = 0 then 0 else crop.length * 256 / fy)).map fun j =>
      x.streamLine k ((footprint fy j).map fun (b, wy) => (crop.getD b [], wy))

end Sys2Proof.Machine
end

