-- ==== Sys2Proof/Machine/CamOps.lean ====
section
/-! DEFINITION. Shared operations of the camera units (10_inspection): running state (R287), blocks (R291), slots and lines (R292 to R296), the entry of a
frame into the ISP (R298), settings sets (R310) and records (R305, R306). -/

namespace Sys2Proof.Machine

/-- Camera unit `u`'s own state. -/
def State.cm (s : State) (u : Nat) : Cam := smGet (fun _ => Cam.empty) s.cam u
/-- Camera unit `u`'s own state replaced. -/
def State.setCm (s : State) (u : Nat) (x : Cam) : State := { s with cam := smPut (fun _ => Cam.empty) s.cam u x }

/-- The unit-state entry of camera unit `u` (R282). -/
def camUnit (u : Nat) : Nat := 0x90 + u

/-- The unit takes area frames: CSI units always (R282). -/
def State.camArea (s : State) (u : Nat) : Bool := decide (4 ≤ u) || s.on CAM_U_CFG_MODE u

/-- The unit works: enabled, not stopped by a fence, out of BOOT, in SHADOW only when attached (R287, R408). -/
def State.camOn (s : State) (u : Nat) : Bool :=
  s.on CAM_U_CFG_EN u && !(s.stopped (camUnit u)) && s.mode != 0 && (s.mode != 5 || bitN (s.get TWN_ATTACH_CAM) u)

/-- The trigger clock of the unit runs (R288). -/
def State.camTrig (s : State) (u : Nat) : Bool := s.camOn u && !(s.camArea u) && s.on CAM_U_CFG_TEN u

/-- The unit is the in-line unit (R296). -/
def State.camInline (s : State) (u : Nat) : Bool := s.on CAM_ISP_CFG_INLINE_EN && s.get CAM_ISP_CFG_INLINE == u

/-- The CX links of unit `u` (R282). -/
def State.camLinks (s : State) (u : Nat) : List Nat :=
  (List.range (2 ^ s.get CAM_U_CFG_NLINK u)).map (· + s.get CAM_U_CFG_LINK0 u)

/-- The source of unit `u` is UP: all of its links (R284), or the lanes of its port (R287). -/
def State.camSource (s : State) (u : Nat) : Bool :=
  if u < 4 then (s.camLinks u).all fun l => decide (l < 8) && s.on CAM_CX_CFG_EN l && s.get CAM_CX_STAT_LINK l == 2
  else s.on CAM_CS_CFG_EN (u - 4) && s.on CAM_CS_STAT_SYNC (u - 4)

/-- UP, INLINE and the running view of unit `u` (R287). -/
def State.refreshCam (s : State) (u : Nat) : State :=
  let up := s.camSource u
  let n := camUnit u
  let s := (s.put CAM_U_STAT_UP up u).put CAM_U_STAT_INLINE (s.camInline u) u
  if !(s.on CAM_U_CFG_EN u) then
    ({ s with causes := smPut (fun _ => []) s.causes n [] } : State).setRun n 0
  else
    let base := if (s.cm u).active then 2 else 1
    let s := if up then s.unstall n 1 base else s.stall n 1
    if (s.stallCauses n).isEmpty then s.setRun n base else s

/-- The state of every camera unit's source judged again. -/
def State.refreshCams (s : State) : State := s.each (List.range 8) fun u s => s.refreshCam u

/-- The camera position C of unit `u` in 2^-32 pu: P − OFFSET (R288). -/
def State.camFine (s : State) (u : Nat) : Int := s.posFine (s.get CAM_U_BLK_TRK u) - s.geti64 CAM_U_OFFSET_LO u * 2 ^ 32

/-- C in pu. -/
def State.camPos (s : State) (u : Nat) : Int := s.camFine u / 2 ^ 32

/-- PITCH of unit `u`, unsigned 32.32 pu. -/
def State.camPitch (s : State) (u : Nat) : Nat := s.get64 CAM_U_PITCH_FRAC u

/-- COMPARE of unit `u`, 64.32. -/
def State.camCmp (s : State) (u : Nat) : Int :=
  sx 96 (s.get CAM_U_CMP_FRAC u + 2 ^ 32 * s.get CAM_U_CMP_LO u + 2 ^ 64 * s.get CAM_U_CMP_HI u)

/-- COMPARE of unit `u` written. -/
def State.setCamCmp (s : State) (u : Nat) (z : Int) : State :=
  let n := ux 96 z
  ((s.set CAM_U_CMP_FRAC n u).set CAM_U_CMP_LO (n / 2 ^ 32) u).set CAM_U_CMP_HI (n / 2 ^ 64) u

/-- PTP time `d` nanoseconds from now, as a stamp (R289, R427). -/
def State.stampAt (s : State) (d : Int) : Nat :=
  let t := (s.ptpSec : Int) * 1000000000 + s.ptpNs + d
  ux 32 (t / 1000000000) * 2 ^ 32 + (t % 1000000000).toNat

/-- TRIG_LAT in force: at least 4,000 ns at a CoaXPress unit (R289). -/
def State.trigLat (s : State) (u : Nat) : Nat :=
  let t := s.get CAM_U_TRIG_LAT_TRIG_LAT u
  if u < 4 then max 4000 t else t

/-- Nanoseconds from now as a time in SEQ cycles. -/
def State.clkAt (s : State) (d : Int) : Int := s.clk + d * 4 / 5

/-! ### The repeat or sheet at the camera (R290, R291) -/

/-- R0, REPEAT, ORG and sheet mode of the job that gives them: the one composed, else the start job, else the first loaded (log 17). -/
def State.camJob (s : State) : Option (Nat × Nat × Int × Bool) :=
  match ((List.range 16).map s.cp).find? fun p => p.job.isSome with
  | some p => some (p.r0, p.rep, p.org, p.sheet)
  | none =>
    match (match s.startJob with | some j => some j | none => s.jobSlots.head?.bind fun j => s.jobAt (s.get64 HIF_JOB_DESC_LO j)) with
    | some j => some (j.r0, j.rep, j.org, j.sheet)
    | none => none

/-- The newest sheet of unit `u`'s tracker that starts at or before position `c` (R290). -/
def State.camSheet (s : State) (u : Nat) (c : Int) : Option Nat :=
  ((smGet (fun _ => []) s.camEdges (s.get CAM_U_BLK_TRK u)).foldl
    (fun r e => if e.2 + s.get CAM_U_SHEET_TOP u ≤ c then some e else r) none).map (·.1)

/-- The repeat of the loaded job at position `c`, none without a job in repeat mode. -/
def State.camRepeat (s : State) (c : Int) : Option Nat :=
  match s.camJob with
  | some (r0, rep, org, sheet) => if sheet || rep == 0 then none else some (ux 32 (r0 + (c - org) / rep))
  | none => none

/-- The repeat or sheet index at position `c` (R290, R291). -/
def State.camIndex (s : State) (u : Nat) (c : Int) : Option Nat :=
  match s.camJob with
  | some (_, _, _, true) => s.camSheet u c
  | some _ => s.camRepeat c
  | none => none

/-! ### Frames (R291, R296, R306) -/

/-- The frame with a SEQ changed. -/
def State.mapFrame (s : State) (u seq : Nat) (f : CamFrame → CamFrame) : State :=
  s.setCm u { s.cm u with frames := (s.cm u).frames.map fun x => if x.seq = seq then f x else x }

/-- The newest frame that lines can still join. -/
def State.openFrame (s : State) (u : Nat) : Option CamFrame := (s.cm u).frames.getLast?.bind fun f => if f.ended then none else some f

/-- A frame takes no more triggers or lines. -/
def State.endFrame (s : State) (u : Nat) : State :=
  match s.openFrame u with
  | some f => s.mapFrame u f.seq fun f => { f with ended := true }
  | none => s

/-- A frame or block begins: it takes a SEQ, and at a through-store unit a raw slot, without one it is DROPPED (R296). -/
def State.newFrame (s : State) (u : Nat) (block : Bool) (rep : Option Nat) (pos : Int) (time : Nat) (c0 trig0 : Int) (flags : Nat) : State :=
  let seq := s.get CAM_U_SEQ u
  let d := s.get CAM_U_RAW_CFG_RDEPTH u
  let thru := !(s.camInline u)
  let held := (s.cm u).frames.any fun f => f.thru && !f.dropped && f.seq % d == seq % d
  let dropped := thru && (d == 0 || held)
  let s := s.set CAM_U_SEQ (seq + 1) u
  let s := s.cond dropped fun s => (s.addSat CAM_U_CNT3_DROP 1 u).raise EV_CAM_FRAME_DROP (camUnit u)
  s.setCm u { s.cm u with frames := (s.cm u).frames ++
    [⟨seq, block, rep.getD (2 ^ 32 - 1), pos, time, trig0, c0, c0, 0, false, thru, dropped, [], [], flags ||| (if dropped then 2048 else 0), 0, 0, 0, 0,
      none, 0⟩] }

/-- The block that a trigger at position `c` belongs to is open afterwards, or there is none (R291). -/
def State.blockFor (s : State) (u : Nat) (c n : Int) : Bool × State :=
  let bl := s.get CAM_U_BLK_BLINES u
  let mode := s.get CAM_U_BLK_BMODE u
  let start := fun (s : State) (rep : Option Nat) =>
    let s := s.endFrame u
    s.newFrame u true rep c (s.stampAt (s.trigLat u)) (s.clkAt (s.trigLat u)) n 0
  let cur := s.openFrame u
  if mode = 2 then
    match s.camSheet u c with
    | none => (false, s)
    | some e =>
      if cur.isSome && (s.cm u).sheet == some e then (true, s)
      else if bl = 0 ∨ (s.cm u).sheet = some e then (false, s)
      else
        let s := start s (some e)
        (true, s.setCm u { s.cm u with sheet := some e })
  else if mode = 3 then (false, s)
  else
    match (if mode = 1 then s.camRepeat c else none) with
    | some r =>
      match cur with
      | some f => if f.rep = r then (true, s) else (true, start s (some r))
      | none => (true, start s (some r))
    | none =>
      if bl = 0 then (false, s)
      else if cur.isSome then (true, s) else (true, start s (s.camIndex u c))

/-- DLY_MAX of a frame: of its own parameters once it has entered the ISP (R294, R298). -/
def State.dlyMax (s : State) (u : Nat) (f : CamFrame) : Nat :=
  match f.par with
  | some p => max (p.dly 0) (max (p.dly 1) (p.dly 2))
  | none => max (s.get CAM_U_DLY_DLY_R u) (max (s.get CAM_U_DLY_DLY_G u) (s.get CAM_U_DLY_DLY_B u))

/-! ### Lines (R292, R293, R295, R296) -/

/-- The channel rows of interleaved samples in a format, `w` pixels, chaff beyond those received, and how many were received (R293, R297). -/
def State.camRows (s : State) (u : Nat) (px : List Nat) (w : Nat) : List (List Nat) × Nat :=
  let fmt := s.get CAM_U_CFG_FMT u
  let ch := camChans fmt
  let b := camBits fmt
  let got := min w (px.length / ch)
  ((List.range ch).map fun c =>
    (List.range w).map fun i => if i < got then px.getD (ch * i + c) 0 % 2 ^ b * 2 ^ (16 - b) else s.get CAM_U_CHAFF_CHAFF u, got)

/-- A line of chaff (R293). -/
def State.chaffLine (s : State) (u : Nat) (n : Int) (flags : Nat) : CamLn :=
  let w := s.get CAM_U_SIZE_W u
  ⟨n, (List.range (camChans (s.get CAM_U_CFG_FMT u))).map (fun _ => List.replicate w (s.get CAM_U_CHAFF_CHAFF u)), flags, 0, none⟩

/-- A line flagged under R292 or R293 is reported (R293). -/
def State.lineBad (s : State) (u : Nat) : State :=
  s.raiseLim EV_CAM_LINE_BAD (camUnit u) u sec1

/-- The unit's counts of flagged lines (R293, R295). -/
def State.countLine (s : State) (u flags : Nat) : State :=
  let s := s.cond (bitN flags 0) fun s => s.addSat CAM_U_CNT1_MISSING 1 u
  let s := s.cond (bitN flags 1) fun s => s.addSat CAM_U_CNT2_SHORT 1 u
  let s := s.cond (bitN flags 2) fun s => s.addSat CAM_U_CNT2_LONG 1 u
  s.cond (bitN flags 3) fun s => s.addSat CAM_U_CNT3_CORRUPT 1 u

/-- The samples of a raw line packed in the format's bits, from bit 0 up (log 18). -/
def packLine (b : Nat) (rows : List (List Nat)) (n : Nat) : List Nat :=
  let px := (List.range n).flatMap fun i => rows.map fun r => r.getD i 0 / 2 ^ (16 - b)
  bytesOf (cdiv (px.length * b) 8) (px.foldr (fun v acc => v + 2 ^ b * acc) 0)

/-- The bytes of a whole raw line of unit `u`. -/
def State.rawBytes (s : State) (u : Nat) : Nat :=
  cdiv (s.get CAM_U_SIZE_W u * camChans (s.get CAM_U_CFG_FMT u) * camBits (s.get CAM_U_CFG_FMT u)) 8

/-- The store address of raw line `j` of frame `seq` (R296). -/
def State.rawAddr (s : State) (u seq j : Nat) : Nat :=
  s.get64 CAM_U_RAW_LO u + seq % s.get CAM_U_RAW_CFG_RDEPTH u * (s.get CAM_U_RAW_CFG_RSLOT u * 64) + j * s.rawBytes u

/-- A line joins frame `f` as its next: at a through-store unit it goes into the raw slot, cut at RSLOT (R296); the line as kept, and the state. -/
def State.rawWrite (s : State) (u : Nat) (f : CamFrame) (l : CamLn) : CamLn × State :=
  if !f.thru || f.dropped || l.k.isNone then (l, s)
  else
    let b := camBits (s.get CAM_U_CFG_FMT u)
    let j := f.lines.length
    let room := s.get CAM_U_RAW_CFG_RSLOT u * 64 - j * s.rawBytes u
    let fits := decide (s.rawBytes u ≤ room)
    let good := if fits then l.good else min l.good (room * 8 / (b * camChans (s.get CAM_U_CFG_FMT u)))
    let l : CamLn := { l with good, flags := if fits then l.flags else l.flags ||| 4 }
    (l, s.st (s.rawAddr u f.seq j) ((packLine b l.rows l.good).take room))

/-- A frame with a line added to its own. -/
def CamFrame.add (f : CamFrame) (l : CamLn) : CamFrame := { f with lines := f.lines ++ [l] }

/-- A slot closes with its line: the line goes to the slot's block, and to older blocks whose DLY_MAX lines it completes (R292, R294); lines of no
block are discarded (R291). -/
def State.closeSlot (s : State) (u : Nat) (sl : CamSlot) (l : CamLn) : State :=
  let l : CamLn := { l with flags := l.flags ||| sl.flags }
  let need := (s.cm u).frames.filter fun f => f.block && f.ended && sl.blk != some f.seq &&
    !((s.cm u).slots.any fun x => x.blk == some f.seq) && decide (f.tail.length < s.dlyMax u f)
  let used := !need.isEmpty || (match (s.cm u).frames.find? fun f => sl.blk == some f.seq with | some f => !f.dropped | none => false)
  let l : CamLn := if l.k.isSome && used then { l with k := some ((s.cm u).got + 1) } else { l with k := none }
  let s := s.cond l.k.isSome fun s => s.setCm u { s.cm u with got := (s.cm u).got + 1 }
  let (l, s) := match (s.cm u).frames.find? fun f => sl.blk == some f.seq with
    | some f =>
      let (l, s) := s.rawWrite u f l
      (l, (s.mapFrame u f.seq fun f => f.add l).countLine u l.flags)
    | none => (l, s)
  let s := s.each need fun f s => s.mapFrame u f.seq fun f => { f with tail := f.tail ++ [l] }
  let s := s.setCm u { s.cm u with slots := (s.cm u).slots.drop 1 }
  s.cond (sl.blk.isSome && l.flags % 16 != 0) fun s => s.lineBad u

/-- LONG set in the slot or line of the most recent trigger, which an extra line gives (R292). -/
def State.extraLine (s : State) (u : Nat) : State :=
  let c := s.cm u
  match c.last, c.lastBlk with
  | some (n, _), some q =>
    let s := (s.addSat CAM_U_CNT1_EXTRA 1 u).mapFrame u q fun f => { f with extra := f.extra + 1 }
    let s :=
      if c.slots.any fun x => x.n == n then
        s.setCm u { s.cm u with slots := (s.cm u).slots.map fun x => if x.n = n then { x with flags := x.flags ||| 4 } else x }
      else
        let mark := fun (l : CamLn) => if l.n = n then { l with flags := l.flags ||| 4 } else l
        s.setCm u { s.cm u with frames := (s.cm u).frames.map fun f =>
          if f.block then { f with lines := f.lines.map mark, tail := f.tail.map mark } else f }
    s.lineBad u
  | _, _ => s

/-- The in-line FIFO of 8 lines is full (R297). -/
def State.fifoFull (s : State) (u : Nat) : Bool := s.camInline u && decide ((s.cm u).isp + 8 ≤ (s.cm u).got)

/-- An in-line line is lost to overload (R287, R297). -/
def State.ispOverload (s : State) (u : Nat) : State :=
  ((s.addSat CAM_ISP_CNT_OVERLOAD 1).raiseLim EV_CAM_ISP_OVERLOAD (camUnit u) 0 sec1).stall (camUnit u) 2

/-! ### Settings sets (R309 to R311) -/

/-- The frame that the pending set governs is found as frames pass in SEQ order (R310); its ISP items act from that frame on. -/
def State.judgeSet (s : State) (u : Nat) (f : CamFrame) : State :=
  match (s.cm u).cset with
  | some x =>
    match x.tc, x.gov with
    | some tc, none =>
      let due := match x.left with
        | some n => some n
        | none => if (tc : Int) + s.get CAM_U_SET_LAT_LAT_US u * 800 ≤ f.c0 then some (s.get CAM_U_SET_LAT_LAT_FRAMES u) else none
      match due with
      | none => s
      | some 0 =>
        let s := s.setCm u { s.cm u with cset := some { x with gov := some f.seq, left := some 0 }, num := x.num }
        s.each x.items fun (k, _, _, a, v) s =>
          if k = 3 ∧ 0x140 ≤ a ∧ a ≤ 0x19C then s.hostWrite (CAM_U_CFG.addr u + a) (BitVec.ofNat 32 v) else s
      | some (n + 1) => s.setCm u { s.cm u with cset := some { x with left := some n } }
    | _, _ => s
  | none => s

/-- Words of a table in the store; an address of 0 gives none (R299, R300). -/
def State.table (s : State) (a n k : Nat) : List Nat := if a = 0 then [] else (List.range n).map fun i => s.ldN (a + k * i) k

/-- The ISP parameters of unit `u` as they stand now, with the tables from the store (R298). -/
def State.camPar (s : State) (u : Nat) : CamPar :=
  let words := (List.range 144).map fun i => s.rd (CAM_U_BLACK0.addr u + 4 * i)
  let w := s.get CAM_U_SIZE_W u
  ⟨words, s.table (s.get64 CAM_U_TONE_LO u) 3072 2, s.table (s.get64 CAM_U_FLAT_LO u) (if s.camArea u then 3267 else 3 * w) 4,
    s.table (s.get64 CAM_U_DEFECT_LO u) (s.get CAM_U_DEFECT_CFG_NDEF u) 4⟩

/-- Frames up to `seq` enter the ISP, in SEQ order: the set is judged, then parameters and SET are fixed (R298, R310). -/
def State.enterIsp (s : State) (u seq : Nat) : State :=
  let upto := (s.cm u).frames.takeWhile fun f => f.seq != seq
  let l := (upto ++ (s.cm u).frames.filter fun f => f.seq == seq).filter fun f => f.par.isNone
  s.each l fun f s =>
    let s := s.judgeSet u f
    s.mapFrame u f.seq fun f => { f with par := some (s.camPar u), set := (s.cm u).num }

/-! ### Completion (R294, R305, R306, R307) -/

/-- The frame is finished: every slot of it and of the DLY_MAX triggers beyond is closed, or no more will come (R294), and the ISP has taken its lines. -/
def State.frameReady (s : State) (u : Nat) (f : CamFrame) : Bool :=
  let c := s.cm u
  let live := if f.block then s.camTrig u else s.camOn u
  let own := !(c.slots.any fun x => x.blk == some f.seq)
  let tail := !f.block || decide (s.dlyMax u f ≤ f.tail.length) || (!live && c.slots.isEmpty)
  (f.ended || !live) && own && tail && (f.lines ++ f.tail).all fun l => match l.k with | some k => decide (k ≤ c.isp) | none => true

/-- The lines of a frame that carry a flag. -/
def flagged (l : List CamLn) (i : Nat) : Nat := (l.filter fun x => bitN x.flags i).length

/-- FLAGS of a finished frame before its streams (R294, R295, R306, R310, R311). -/
def State.frameFlags (s : State) (u : Nat) (f : CamFrame) : Nat :=
  let any := f.lines.any fun l => if f.block then l.flags != 0 else l.flags % 16 != 0
  let t := match (s.cm u).cset with
    | some x => x.tc.map fun tc => (tc : Int) + s.get CAM_U_SET_LAT_LAT_US u * 800
    | none => none
  let mixed := f.block && (match t with | some t => decide (f.c0 < t) && decide (t ≤ f.c1) | none => false)
  let governed := match (s.cm u).cset with | some x => x.gov == some f.seq | none => false
  let short := !f.block && decide (f.lines.length < s.get CAM_U_SIZE_H u)
  f.flags ||| b2n any ||| (if short then 8 else 0) ||| (if (s.cm u).unsure && !governed then 128 else 0) ||| (if mixed then 256 else 0)

/-- One stream's write of a finished frame; answers its STREAM_SKIP bit (R305). -/
def State.streamWrite (s : State) (u : Nat) (f : CamFrame) (x : IspCtx) (out : List IspLine) (k : Nat) : Nat × State :=
  let d := x.p.get CAM_K_DEPTH_DEPTH k
  if x.p.get CAM_K_CTL_EN k = 0 ∨ d = 0 then (0, s)
  else if d ≤ (f.seq + 2 ^ 32 - s.get CAM_K_RD_RD u k) % 2 ^ 32 then
    (2 ^ (12 + k), (s.addSat CAM_U_CNT3_SKIP 1 u).raiseLim EV_CAM_STREAM_SKIP (camUnit u) u sec1)
  else
    let slot := x.p.get CAM_K_SLOT_SLOT k
    let stride := x.p.get CAM_K_STRIDE_STRIDE k
    let base := x.p.get64 CAM_K_BASE_LO k + f.seq % d * slot
    let lines := x.streamOut k out
    (0, s.each ((List.range lines.length).zip lines) fun (j, b) s =>
      if j * stride + b.length ≤ slot then s.st (base + j * stride) b else s)

/-- Every stream of a finished frame, with the STREAM_SKIP bits. -/
def State.streams (s : State) (u : Nat) (f : CamFrame) (x : IspCtx) (out : List IspLine) (ks : List Nat) (acc : Nat) : Nat × State :=
  match ks with
  | [] => (acc, s)
  | k :: r =>
    let (b, s) := s.streamWrite u f x out k
    s.streams u f x out r (acc ||| b)

/-- The bytes of a frame record before ZONE (R306). -/
def State.recordHead (s : State) (u : Nat) (f : CamFrame) (flags : Nat) : List Nat :=
  let cnt := fun (n : Nat) => bytesOf 2 (min n 65535)
  bytesOf 4 f.seq ++ bytesOf 2 f.set ++ [u, b2n !f.block] ++ bytesOf 4 flags ++ bytesOf 4 f.rep ++ bytesOf 8 (ux 64 f.pos) ++
    bytesOf 8 f.time ++ bytesOf 8 (ux 64 f.trig0) ++ bytesOf 4 f.lines.length ++ bytesOf 4 (s.get CAM_U_SIZE_W u) ++
    cnt (flagged f.lines 0) ++ cnt f.extra ++ cnt (flagged f.lines 1) ++ cnt (flagged f.lines 2) ++
    cnt (flagged f.lines 3) ++ cnt f.skip ++ cnt f.ecc ++ cnt f.crc

/-- Frame `f`'s streams, record, queue entry and latch (R307); the events of its completion (R294, R310). -/
def State.finishFrame (s : State) (u : Nat) (f : CamFrame) : State :=
  let w := s.get CAM_U_SIZE_W u
  let par := f.par.getD (s.camPar u)
  let x : IspCtx := ⟨par, w, f.lines.length, s.get CAM_U_SIZE_H u, !f.block, s.get CAM_U_CFG_FMT u, s.get CAM_U_CFG_BAYER u, s.fresh⟩
  let pad := s.chaffLine u 0 1
  let tail := f.tail ++ List.replicate (s.dlyMax u f - f.tail.length) pad
  let out := if f.dropped then [] else x.run (f.lines ++ (if f.block then tail else []))
  let s : State := { s with fresh := s.fresh + 1 }
  let (skips, s) := if f.dropped then (0, s) else s.streams u f x out (List.range 6) 0
  let flags := s.frameFlags u f ||| skips
  let size := s.get CAM_U_REC_CFG_RECSIZE u * 64
  let depth := s.get CAM_U_REC_CFG_RDEPTH u
  let addr := s.get64 CAM_U_REC_LO u + (if depth = 0 then 0 else f.seq % depth * size)
  let lflag := if f.dropped then f.lines.map fun l => l.flags else out.map fun o => o.flags
  let rec_ := s.recordHead u f flags ++ x.stats out ++ lflag
  let s := s.cond (depth != 0) fun s => s.st addr (rec_.take size)
  let s := s.cond (f.block && bitN flags 0) fun s => s.raise EV_CAM_BLOCK_BAD (camUnit u)
    [flagged f.lines 0, f.extra, flagged f.lines 1, flagged f.lines 2, flagged f.lines 3, f.skip, f.seq]
  let s := match (s.cm u).cset with
    | some y =>
      if y.gov = some f.seq then
        let s := ((s.put CAM_U_SET_STAT_PENDING false u).set CAM_U_SET_STAT_NUM y.num u).setCm u { s.cm u with cset := none, unsure := false }
        s.raise EV_CAM_SET_APPLIED (camUnit u) [y.num, f.seq]
      else s
    | none => s
  let s := s.setCm u { s.cm u with frames := (s.cm u).frames.filter fun g => g.seq != f.seq }
  let ra := if depth = 0 then 0 else addr
  let s := s.qSend (40 + u) ⟨3, 0, u, 0, 0, false, [BitVec.ofNat 32 f.seq, BitVec.ofNat 32 flags, BitVec.ofNat 32 ra, BitVec.ofNat 32 (ra / 2 ^ 32)]⟩
  s.latchAll (64 + u)

end Sys2Proof.Machine
end

