-- ==== Sys2Proof/Machine/Camera.lean ====
section
/-! DEFINITION. Inspection capture and image pipeline (10_inspection): configuration, links and ports, triggers, lines, the ISP, records, the control
mailbox and settings sets. -/

namespace Sys2Proof.Machine

/-! ### Configuration (R282, R288, R313) -/

/-- The open block and frame end, with the later slots missing (R294): the trigger clock or the unit was disabled. -/
def State.camHalt (s : State) (u : Nat) : State :=
  let s := s.endFrame u
  s.setCm u { s.cm u with delayed := none, atrig := [] }

/-- The bits of a unit register that the host may change only in IDLE and SERVICE, by offset (R282). -/
def camGuard (off : Nat) : Word :=
  if off = 0 then 0x7FFE else if off = 8 then 0xFFFFFFFF else if off = 0xC then 3
  else if off = 0x10 ∨ off = 0x14 ∨ (0x50 ≤ off ∧ off < 0x90) then 0xFFFFFFFF else 0

/-- A host write to register `off` of camera unit `u` (R282, R286, R288, R310). -/
def State.camUnitWrite (s : State) (u off : Nat) (v : Word) : State :=
  let a := CAM_U_CFG.addr u + off
  let old := s.rd a
  let conf := s.mode == 1 || s.mode == 6
  let g := camGuard off
  let csc : Word := if 4 ≤ u ∧ off = 0 ∧ getBits v 1 1 = 0 then 2 else 0
  let refused := (if conf then 0 else g) ||| csc
  let s := s.cond ((old ^^^ v) &&& refused &&& writeBits a 0 0xFFFFFFFF != 0) fun s => s.put CAM_U_STAT_CFG_ERR true u
  let v := (v &&& ~~~refused) ||| (old &&& refused)
  if 0x20 ≤ off ∧ off ≤ 0x30 ∧ s.on CAM_U_CFG_TEN u then s
  else
    let s := s.hostWrite a v
    if off = 0 then
      let was := getBits old 0 1 == 1 && getBits old 16 1 == 1
      let is := s.on CAM_U_CFG_EN u && s.on CAM_U_CFG_TEN u
      let s := s.cond (getBits old 0 1 == 0 && s.on CAM_U_CFG_EN u) fun s => s.setCm u { s.cm u with active := false }
      let s := s.cond (is && !was) fun s => s.setCm u { s.cm u with hwm := none }
      let s := s.cond ((getBits old 0 1 == 1 && !(s.on CAM_U_CFG_EN u)) || (was && !is)) fun s => s.camHalt u
      s.refreshCam u
    else s

/-- A host write to the CAM block (R282, R284, R313). -/
def State.camWrite (s : State) (a : Nat) (v : Word) : State :=
  if a = CAM_ISP_CFG.addr then
    if s.mode = 1 ∨ s.mode = 6 then (s.hostWrite a v).refreshCams else s.put CAM_U_STAT_CFG_ERR true (getBits v 0 3)
  else if CAM_U_CFG.addr ≤ a then s.camUnitWrite ((a - CAM_U_CFG.addr) / 1024) ((a - CAM_U_CFG.addr) % 1024) v
  else
    let s0 := s
    let s := s.hostWrite a v
    let s := s.each (List.range 8) fun l s =>
      if a ≠ CAM_CX_CFG.addr l then s
      else if s.on CAM_CX_CFG_EN l then if s0.on CAM_CX_CFG_EN l then s else s.set CAM_CX_STAT_LINK 1 l
      else s.set CAM_CX_STAT_LINK 0 l
    let s := s.each (List.range 4) fun p s =>
      if a = CAM_CS_CFG.addr p && !(s.on CAM_CS_CFG_EN p) then (s.put CAM_CS_STAT_SYNC false p).put CAM_CS_STAT_IN_FRAME false p else s
    s.refreshCams

/-- The host writes a register of the CAM block, `off` from its base: camera unit, link, port or ISP configuration (R282). -/
def execCamConfigWrite (off : BitVec 14) (v : BitVec 32) (s : State) : Res := s.heard <| .next (s.camWrite (CAM_ISP_CFG.addr + off.toNat) v)

/-! ### Links and ports (R283 to R285, R287) -/

/-- Link discovery has run on CX link `l`: the camera answered and the link is at RATE, or it did not (R284). -/
def execCxDiscovery (l : Fin 8) (up : Bool) (s : State) : Res :=
  if !(s.on CAM_CX_CFG_EN l) || s.get CAM_CX_STAT_LINK l == 2 || smGet (fun _ => false) s.domOff 4 then .next s
  else if up then .next ((s.set CAM_CX_STAT_LINK 2 l).raise EV_CAM_LINK_UP 255).refreshCams
  else .next (s.set CAM_CX_STAT_LINK 0 l)

/-- CX link `l` has been without 8b/10b synchronisation for more than 1 ms (R284). -/
def execCxSyncLoss (l : Fin 8) (s : State) : Res :=
  .next (match s.get CAM_CX_STAT_LINK l with
    | 2 => (((s.set CAM_CX_STAT_LINK 0 l).addSat CAM_CX_ERR_LOSS 1 l).raise EV_CAM_LINK_DOWN 255).refreshCams
    | 1 => s.set CAM_CX_STAT_LINK 0 l
    | _ => s)

/-- A packet arrives on CX link `l`: an event or heartbeat packet is counted and otherwise ignored (R283); a stream packet that fails CRC is counted and
spoils the unit's line (R293, R295). -/
def execCxPacketRx (l : Fin 8) (stream crc : Bool) (s : State) : Res :=
  if s.get CAM_CX_STAT_LINK l ≠ 2 then .next s
  else if !stream then .next (if crc then s.addWrap CAM_CX_OTHER_PKTS 1 l else s.addSat CAM_CX_ERR_CRC 1 l)
  else if crc then .next s
  else
    let s := s.addSat CAM_CX_ERR_CRC 1 l
    .next (s.each ((List.range 4).filter fun u => s.camOn u && (s.camLinks u).contains l) fun u s =>
      let s := s.setCm u { s.cm u with bad := true }
      s.cond (s.camArea u) fun s => s.raiseLim EV_CAM_CSI_ERR 255 l sec1)

/-- The lanes of CSI port `p` gain or lose sync (R287). -/
def execCsiLaneSync (p : Fin 4) (sync : Bool) (s : State) : Res :=
  if s.on CAM_CS_CFG_EN p then .next ((s.put CAM_CS_STAT_SYNC sync p).refreshCam (4 + p)) else .next s

/-! ### Triggers (R288 to R291) -/

/-- Unit `u` has had a trigger or frame since EN: RUN (R287). -/
def State.camActive (s : State) (u : Nat) : State := (s.setCm u { s.cm u with active := true }).refreshCam u

/-- Pin CAM_TRIG of unit `u` driven high (R289). -/
def State.trigPin (s : State) (u : Nat) : State :=
  s.cond (s.on CAM_U_CFG_TRIG_PIN u) fun s => { s with camPin := smPut (fun _ => false) s.camPin u true }

/-- `k` skipped lines counted in the open block, which carries TRIG_SKIP (R288). -/
def State.camSkip (s : State) (u k : Nat) : State :=
  match s.openFrame u with
  | some f => if k = 0 then s else s.mapFrame u f.seq fun f => { f with skip := f.skip + k, flags := f.flags ||| 512 }
  | none => s

/-- Trigger number `n` of unit `u` is issued now, with `k` lines skipped: its block, its slot (R288, R289, R291, R292). -/
def State.fireTrigger (s : State) (u : Nat) (n : Int) (k : Nat) : State :=
  let (inBlock, s) := s.blockFor u (s.camPos u) n
  let blk := if inBlock then (s.openFrame u).map fun f => f.seq else none
  let s := s.cond inBlock fun s => s.camSkip u k
  let link := if s.on CAM_U_STAT_UP u then 0 else 32
  let s := match blk with
    | some q =>
      let last := s.clkAt (s.trigLat u)
      let full := decide (s.get CAM_U_BLK_BMODE u ≠ 1 ∨ (s.camRepeat (s.camPos u)).isNone)
      let bl := s.get CAM_U_BLK_BLINES u
      s.mapFrame u q fun f => { f with n := f.n + 1, c1 := last, flags := f.flags ||| link, ended := full && decide (bl ≤ f.n + 1) }
    | none => s
  let c := s.cm u
  let s := s.setCm u { c with last := some (n, s.clk), lastBlk := blk, delayed := none, slots := c.slots ++ [⟨n, s.clk, blk, 0⟩] }
  (s.trigPin u).camActive u

/-- C of unit `u` reaches COMPARE, `dt` SEQ cycles on (R288). -/
def execCameraTrigger (u : Cu) (dt : Nat) (s : State) : Res :=
  let s := s.elapse dt
  let c := s.camFine u
  let p := s.camPitch u
  let cmp := s.camCmp u
  let passed := match (s.cm u).hwm with | some h => decide (h < c) | none => true
  if !(s.camTrig u) || p == 0 || !passed || decide (c < cmp) then .next s
  else
    let k := ((c - cmp) / p).toNat + 1
    let n := s.geti64 CAM_U_TCOUNT_LO u + k - 1
    let s := (s.set64 CAM_U_TCOUNT_LO (n + 1) u).setCamCmp u (cmp + k * p)
    let s := s.setCm u { s.cm u with hwm := some c }
    let gap := s.get CAM_U_MINGAP u
    let early := match (s.cm u).last with | some (_, t) => decide ((s.clk - t) * 5 < gap * 4) | none => false
    if (s.cm u).delayed.isSome then .next (s.camSkip u k)
    else if early then
      let s := (s.camSkip u (k - 1)).raiseLim EV_CAM_TRIG_OVERRUN (camUnit u) u ms100
      .next (s.setCm u { s.cm u with delayed := some n })
    else .next (s.fireTrigger u n (k - 1))

/-- MINGAP has passed since the last trigger: the delayed one is issued (R288). -/
def execCameraDelayedTrigger (u : Cu) (s : State) : Res :=
  match (s.cm u).delayed, (s.cm u).last with
  | some n, some (_, t) =>
    if s.camTrig u then
      let s := s.elapse (t + cdiv (s.get CAM_U_MINGAP u * 4) 5 - s.clk)
      .next (s.fireTrigger u n 0)
    else .next s
  | _, _ => .next s

/-- The 1 µs pulse at CAM_TRIG of unit `u` ends (R289). -/
def execCamTrigPinEnd (u : Cu) (s : State) : Res := .next { s with camPin := smPut (fun _ => false) s.camPin u false }

/-- C of unit `u` reaches S + AT_POS`i`, `dt` SEQ cycles on (R290). -/
def execAreaTrigger (u : Cu) (i : Fin 16) (dt : Nat) (s : State) : Res :=
  let s := s.elapse dt
  let c := s.camPos u
  let done_ := smGet (fun _ => 0) (s.cm u).atDone i
  if !(s.camOn u) || !(s.camArea u) || s.get CAM_U_NAT_NAT u ≤ i.val then .next s
  else
    match s.camIndex u (c - s.get CAM_U_AT_POS u i) with
    | none => .next s
    | some r =>
      if done_ ≠ 0 ∧ repDiff r (done_ - 1) ≤ 0 then .next s
      else
        let lat := s.trigLat u
        let s := s.setCm u { s.cm u with
          atDone := smPut (fun _ => 0) (s.cm u).atDone i (r + 1),
          atrig := (s.cm u).atrig ++ [(r, c, s.stampAt lat, s.clkAt lat)] }
        .next ((s.trigPin u).camActive u)

/-! ### Lines (R292, R293, R295) -/

/-- An area frame begins (R290, R295): with NAT > 0 it belongs to the oldest area trigger without a frame, else it runs free. -/
def State.areaStart (s : State) (u : Nat) : State :=
  let s := match (s.cm u).atrig with
    | (r, c, t, e) :: rest =>
      (s.setCm u { s.cm u with atrig := rest }).newFrame u false (some r) c t e 0 0
    | [] =>
      let d : Int := -(s.get CAM_U_TRIG_LAT_FRAME_LAT u * 1000 : Nat)
      s.newFrame u false none (s.camPos u) (s.stampAt d) (s.clkAt d) 0 1024
  s.camActive u

/-- A line of an area frame: cut beyond H, padded or cut to W, flagged, into the frame (R295). -/
def State.areaLine (s : State) (u : Nat) (px : List Nat) (crc : Bool) : State :=
  match s.openFrame u with
  | none => s
  | some f =>
    let w := s.get CAM_U_SIZE_W u
    if s.get CAM_U_SIZE_H u ≤ f.lines.length then s.mapFrame u f.seq fun f => { f with flags := f.flags ||| 16 }
    else
      let n := px.length / camChans (s.get CAM_U_CFG_FMT u)
      let flags := (if n < w then 2 else 0) ||| (if w < n then 4 else 0) ||| (if crc then 16 else 0) ||| (if (s.cm u).ecc then 32 else 0)
      let (rows, good) := s.camRows u px w
      let full := s.fifoFull u
      let l : CamLn := if full then s.chaffLine u f.lines.length (flags ||| 8)
        else ⟨f.lines.length, rows, flags, good, if f.dropped then none else some ((s.cm u).got + 1)⟩
      let s := s.cond full fun s => s.ispOverload u
      let s := s.setCm u { s.cm u with ecc := false, got := (s.cm u).got + b2n l.k.isSome }
      let (l, s) := s.rawWrite u f l
      let s := s.mapFrame u f.seq fun f => { f.add l with crc := f.crc + b2n crc, flags := f.flags ||| (if crc then 4 else 0) }
      s.countLine u l.flags

/-- A complete line of CoaXPress unit `u` with the samples `px`, `dt` SEQ cycles on (R292, R293, R295). -/
def execCameraLineRx (u : Tn) (px : List (BitVec 16)) (dt : Nat) (s : State) : Res :=
  let s := s.elapse dt
  let px := px.map fun v => v.toNat
  let bad := (s.cm u).bad
  let s := s.setCm u { s.cm u with bad := false }
  if !(s.camOn u) || !(s.on CAM_U_STAT_UP u) then .next s
  else if s.camArea u then
    if s.get CAM_U_SIZE_H u = 0 then .next s
    else
      let s := if (s.openFrame u).isNone then s.areaStart u else s
      let s := s.areaLine u px bad
      .next (match s.openFrame u with
        | some f => if s.get CAM_U_SIZE_H u ≤ f.lines.length then s.endFrame u else s
        | none => s)
  else
    match (s.cm u).slots with
    | sl :: _ =>
      if s.clk < sl.clk + 800 * s.get CAM_U_LINEWIN_LINE_MIN u then .next (s.extraLine u)
      else
        let lat := (s.clk - sl.clk) / 800
        let s := (s.set CAM_U_LAT_LEAST (min (s.get CAM_U_LAT_LEAST u) (min lat 65535)) u).set CAM_U_LAT_MOST
          (max (s.get CAM_U_LAT_MOST u) (min lat 65535)) u
        let w := s.get CAM_U_SIZE_W u
        let n := px.length / camChans (s.get CAM_U_CFG_FMT u)
        let (rows, good) := s.camRows u px w
        let full := s.fifoFull u && sl.blk.isSome
        let flags := (if n < w then 2 else 0) ||| (if w < n then 4 else 0)
        let l : CamLn :=
          if full then s.chaffLine u sl.n 8
          else if bad then { s.chaffLine u sl.n 8 with k := some 0 }
          else ⟨sl.n, rows, flags, good, some 0⟩
        .next ((s.cond full fun s => s.ispOverload u).closeSlot u sl l)
    | [] => .next (s.extraLine u)

/-- LINE_TMO has passed since the trigger of unit `u`'s oldest slot, `dt` SEQ cycles on: the line is missing (R292). -/
def execCameraLineTimeout (u : Tn) (dt : Nat) (s : State) : Res :=
  let s := s.elapse dt
  match (s.cm u).slots with
  | sl :: _ =>
    if sl.clk + 800 * s.get CAM_U_LINEWIN_LINE_TMO u ≤ s.clk then .next (s.closeSlot u sl (s.chaffLine u sl.n 1)) else .next s
  | [] => .next s

/-! ### CSI-2 (R285, R295) -/

/-- A packet header at CSI port `p`: its ECC counted and reported; whether the packet is kept (R295). `ecc`: 0 good, 1 corrected, 2 uncorrectable. -/
def State.csiHeader (s : State) (p ecc : Nat) : Bool × State :=
  let u := 4 + p
  let mark := fun (s : State) (k : Nat) => match s.openFrame u with
    | some f => s.mapFrame u f.seq fun f => { f with flags := f.flags ||| 2, ecc := f.ecc + k }
    | none => s
  if ecc = 0 then (true, s)
  else if ecc = 1 then (true, mark ((s.addSat CAM_CS_ECC_CORR 1 p).raiseLim EV_CAM_CSI_ERR 255 (16 + p) sec1) 0)
  else
    let s := mark ((s.addSat CAM_CS_ECC_UE 1 p).raiseLim EV_CAM_CSI_ERR 255 (16 + p) sec1) 1
    (false, s.cond (s.openFrame u).isSome fun s => s.setCm u { s.cm u with ecc := true })

/-- A CSI-2 packet other than a frame start or end at port `p`, `dt` SEQ cycles on: header ECC, virtual channel, data type, payload CRC, whether its
transmission started in error, samples (R285, R295). -/
def execCsiPacketRx (p : Fin 4) (ecc : Fin 3) (vc : BitVec 4) (ty : BitVec 6) (crc sot : Bool) (px : List (BitVec 16)) (dt : Nat) (s : State) : Res :=
  let s := s.elapse dt
  if !(s.on CAM_CS_CFG_EN p) then .next s
  else
    let s := s.cond sot fun s => s.addSat CAM_CS_CRC_SOT 1 p
    let (kept, s) := s.csiHeader p ecc
    if !kept then .next s
    else if vc.toNat ≠ s.get CAM_CS_CFG_VC p then .next (s.addWrap CAM_CS_OTHER_PKTS 1 p)
    else if ty.toNat = 2 ∨ ty.toNat = 3 then .next s
    else if ty.toNat ≠ s.get CAM_CS_CFG_DT p then .next (s.addWrap CAM_CS_OTHER_PKTS 1 p)
    else
      let s := s.cond (!crc) fun s => (s.addSat CAM_CS_CRC_CRC 1 p).raiseLim EV_CAM_CSI_ERR 255 (16 + p) sec1
      if s.camOn (4 + p) && s.on CAM_CS_STAT_IN_FRAME p then .next (s.areaLine (4 + p) (px.map fun v => v.toNat) (!crc)) else .next s

/-- A frame start at CSI port `p`, `dt` SEQ cycles on: it closes a frame that has not ended as SHORT_FRAME (R295). -/
def execCsiFrameStart (p : Fin 4) (ecc : Fin 3) (vc : BitVec 4) (dt : Nat) (s : State) : Res :=
  let s := s.elapse dt
  if !(s.on CAM_CS_CFG_EN p) then .next s
  else
    let (kept, s) := s.csiHeader p ecc
    if !kept then .next s
    else if vc.toNat ≠ s.get CAM_CS_CFG_VC p then .next (s.addWrap CAM_CS_OTHER_PKTS 1 p)
    else
      let u := 4 + p.val
      let s := match s.openFrame u with
        | some f => s.mapFrame u f.seq fun f => { f with ended := true, flags := f.flags ||| 8 }
        | none => s
      let s := s.put CAM_CS_STAT_IN_FRAME true p
      if s.camOn u && s.on CAM_U_STAT_UP u then
        let s := s.areaStart u
        .next (match s.openFrame u with
          | some f => if ecc.val = 1 then s.mapFrame u f.seq fun f => { f with flags := f.flags ||| 2 } else s
          | none => s)
      else .next s

/-- A frame end at CSI port `p`, `dt` SEQ cycles on (R295). -/
def execCsiFrameEnd (p : Fin 4) (ecc : Fin 3) (vc : BitVec 4) (dt : Nat) (s : State) : Res :=
  let s := s.elapse dt
  if !(s.on CAM_CS_CFG_EN p) then .next s
  else
    let (kept, s) := s.csiHeader p ecc
    if !kept then .next s
    else if vc.toNat ≠ s.get CAM_CS_CFG_VC p then .next (s.addWrap CAM_CS_OTHER_PKTS 1 p)
    else .next ((s.put CAM_CS_STAT_IN_FRAME false p).endFrame (4 + p))

/-! ### The ISP (R297, R308) and completion (R307) -/

/-- Units whose lines wait for the ISP. -/
def State.ispWork (s : State) (u : Nat) : Bool := decide ((s.cm u).isp < (s.cm u).got)

/-- The unit whose line the ISP takes: the in-line unit first; else the unit of the slice until 16 lines; else the next with work (R297). -/
def State.ispPick (s : State) : Option Nat :=
  let (t, n) := s.ispTurn
  match (List.range 8).find? fun u => s.camInline u && s.ispWork u with
  | some u => some u
  | none =>
    if t ≠ 0 ∧ n < 16 ∧ s.ispWork (t - 1) then some (t - 1)
    else ((List.range 8).map fun i => (t + i) % 8).find? fun u => s.ispWork u

/-- CAM_ISP_LOAD brought up to now: the last whole 1 ms and its peak (R313). -/
def State.ispLoad (s : State) : State :=
  let ms := s.clk / 800000
  let (w, c) := s.ispWin
  if ms = w then s
  else
    let load := if ms = w + 1 then min 1023 (c * 1024 / 1000000) else 0
    let top := max (min 1023 (c * 1024 / 1000000)) (s.get CAM_ISP_LOAD_PEAK)
    ((({ s with ispWin := (ms, 0) } : State).set CAM_ISP_LOAD_LOAD load).set CAM_ISP_LOAD_PEAK top)

/-- A raw line read back from the store (R296, R308): zeros where a burst is poisoned. -/
def State.rawRead (s : State) (u : Nat) (f : CamFrame) (j : Nat) (l : CamLn) : List (List Nat) :=
  let fmt := s.get CAM_U_CFG_FMT u
  let b := camBits fmt
  let ch := camChans fmt
  let word := s.ldN (s.rawAddr u f.seq j) (cdiv (l.good * ch * b) 8)
  (chanIdx l.rows).map fun (c, r) =>
    ((List.range l.good).map fun i => word / 2 ^ (b * (ch * i + c)) % 2 ^ b * 2 ^ (16 - b)) ++ r.drop l.good

/-- The ISP takes line number `k` of unit `u`: its frame enters the ISP with its first line (R298); a through-store line is read back (R308). -/
def State.ispTake (s : State) (u k : Nat) : State :=
  match (s.cm u).frames.find? fun f => f.lines.any fun l => l.k == some k with
  | none => s
  | some f =>
    let s := s.enterIsp u f.seq
    match ((List.range f.lines.length).zip f.lines).find? fun x => x.2.k == some k with
    | some (j, l) =>
      if !f.thru then s
      else
        let n := s.rawBytes u
        let a := s.rawAddr u f.seq j
        let bad := s.bad a n
        let rows := s.rawRead u f j l
        let fix := fun (x : CamLn) => if x.k = some k then { x with rows, flags := if bad then x.flags ||| 8 else x.flags } else x
        let s := s.setCm u { s.cm u with frames := (s.cm u).frames.map fun g => { g with lines := g.lines.map fix, tail := g.tail.map fix } }
        s.cond bad fun s =>
          let s := (s.saw a n).mapFrame u f.seq fun f => { f with flags := f.flags ||| 64 }
          let s := s.cond (!(bitN l.flags 3)) fun s => s.addSat CAM_U_CNT3_CORRUPT 1 u
          s.raiseLim EV_CAM_POISON (camUnit u) u ms100
    | none => s

/-- The ISP processes one line, `dt` SEQ cycles on (R297). -/
def execIspLine (dt : Nat) (s : State) : Res :=
  let s := (s.elapse dt).ispLoad
  match s.ispPick with
  | none => .next s
  | some u =>
    let (t, n) := s.ispTurn
    let same := t == u + 1
    let cyc := cdiv (s.get CAM_U_SIZE_W u) 4 + 32 + (if same then 0 else 64)
    let s : State := { s with ispWin := (s.ispWin.1, s.ispWin.2 + cyc), ispTurn := (u + 1, if same then n + 1 else 1) }
    let k := (s.cm u).isp + 1
    .next ((s.setCm u { s.cm u with isp := k }).ispTake u k)

/-- 100 ms have passed since the last in-line line lost to overload (R287, R297). -/
def execCamOverloadEnd (u : Cu) (s : State) : Res :=
  .next (s.unstall (camUnit u) 2 (if (s.cm u).active then 2 else 1))

/-- The oldest frame or block of unit `u` is finished: streams, record, queue entry, latch (R307); each unit completes in SEQ order. -/
def execFrameComplete (u : Cu) (s : State) : Res :=
  match (s.cm u).frames with
  | f :: _ =>
    if s.frameReady u f then
      let s := s.enterIsp u f.seq
      match (s.cm u).frames with
      | f :: _ => .next (s.finishFrame u f)
      | [] => .next s
    else .next s
  | [] => .next s

/-! ### Control mailbox (R286) -/

/-- A mailbox transaction of unit `u` ends (R286). -/
def State.ctrlEnd (s : State) (u r : Nat) : State :=
  let s := ((s.put CAM_U_CTRL_STAT_BUSY false u).set CAM_U_CTRL_STAT_RESULT r u).setCm u { s.cm u with ctrl := none }
  s.cond (r != 0) fun s => s.raise EV_CAM_CTRL_ERR (camUnit u)

/-- A KIND of R309 that a unit's control path serves (R286, R310). -/
def camKind (u kind : Nat) : Bool := if u < 4 then kind == 0 else kind == 1 || kind == 2

/-- The host writes CAM_U_CTRL_CMD of unit `u` (R286). -/
def execCamCtrlGo (u : Cu) (v : BitVec 32) (s : State) : Res := s.heard <|
  if getBits v 0 1 = 0 ∨ s.on CAM_U_CTRL_STAT_BUSY u then .next s
  else if camKind u (getBits v 2 2) then .next ((s.put CAM_U_CTRL_STAT_BUSY true u).setCm u { s.cm u with ctrl := some v })
  else .next (s.ctrlEnd u 3)

/-- The transaction of unit `u` ends: DONE, with the data of a read, or NAK (R286). -/
def execCamCtrlDone (u : Cu) (nak : Bool) (d : BitVec 32) (s : State) : Res :=
  match (s.cm u).ctrl with
  | none => .next s
  | some v =>
    let s := s.cond (!nak && getBits v 1 1 == 0) fun s => s.set CAM_U_CTRL_DATA_DATA d.toNat u
    .next (s.ctrlEnd u (if nak then 1 else 0))

/-- CTRL_TMO ms have passed without an end of the transaction of unit `u` (R286). -/
def execCamCtrlTimeout (u : Cu) (s : State) : Res :=
  if (s.cm u).ctrl.isSome then .next (s.ctrlEnd u 2) else .next s

/-! ### Settings sets (R309 to R311) -/

/-- An item fits unit `u`: KIND by its interface, SIZE 1, 2 or 4 for two-wire and 4 otherwise (R309, R310). -/
def setItemFits (u : Nat) (x : Nat × Nat × Nat × Nat × Nat) : Bool :=
  (x.1 == 3 && x.2.1 == 4) || (camKind u x.1 && (x.2.1 == 4 || (x.1 != 0 && (x.2.1 == 1 || x.2.1 == 2))))

/-- The number of camera items of a set (R310). -/
def CamSet.cams (x : CamSet) : Nat := (x.items.filter fun i => i.1 != 3).length

/-- The host writes COMMIT of unit `u` (R310). -/
def execCamSetCommit (u : Cu) (s : State) : Res := s.heard <|
  if s.on CAM_U_SET_STAT_BUSY u ∨ s.on CAM_U_SET_STAT_PENDING u then .next (s.set CAM_U_SET_STAT_RESULT 1 u)
  else
    let a := s.get64 CAM_U_SET_LO u
    let num := s.ldN a 2
    let n := s.ldN (a + 2) 2
    let items := (List.range (min n 64)).map fun i =>
      let b := a + 16 + 16 * i
      (s.ldN b 1, s.ldN (b + 1) 1, s.ldN (b + 2) 1, s.ldN (b + 4) 4, s.ldN (b + 8) 4)
    let s := s.saw a (16 + 16 * min n 64)
    if num = 0 ∨ 64 < n ∨ !(items.all (setItemFits u)) then .next (s.set CAM_U_SET_STAT_RESULT 2 u)
    else
      let x : CamSet := ⟨num, items, 0, none, none, none⟩
      let x : CamSet := if x.cams = 0 then { x with tc := some s.clk } else x
      let s := s.setCm u { s.cm u with cset := some x }
      .next ((((s.put CAM_U_SET_STAT_READ true u).set CAM_U_SET_STAT_RESULT 0 u).put CAM_U_SET_STAT_BUSY (x.cams != 0) u).put
        CAM_U_SET_STAT_PENDING true u)

/-- A settings set fails at camera item `i`: its ISP items are discarded (R311). -/
def State.setFail (s : State) (u result : Nat) : State :=
  match (s.cm u).cset with
  | none => s
  | some x =>
    if x.tc.isSome then s
    else
      let item := (((List.range x.items.length).zip x.items).filter fun y => y.2.1 != 3).getD x.sent (0, (0, 0, 0, 0, 0))
      let s := ((s.put CAM_U_SET_STAT_BUSY false u).put CAM_U_SET_STAT_PENDING false u).set CAM_U_SET_STAT_RESULT result u
      let s := s.setCm u { s.cm u with cset := none, unsure := true }
      s.raise EV_CAM_SET_FAIL (camUnit u) [x.num, item.1]

/-- The camera of unit `u` answers the item sent last, `dt` SEQ cycles on: the next is sent, or t_c is now (R310); a NAK ends the set (R311). -/
def execCamSetItemAck (u : Cu) (nak : Bool) (dt : Nat) (s : State) : Res :=
  let s := s.elapse dt
  match (s.cm u).cset with
  | none => .next s
  | some x =>
    if x.tc.isSome then .next s
    else if nak then .next (s.setFail u 3)
    else
      let last := x.sent + 1 == x.cams
      let s := s.setCm u { s.cm u with cset := some { x with sent := x.sent + 1, tc := if last then some s.clk else none } }
      .next (s.cond last fun s => s.put CAM_U_SET_STAT_BUSY false u)

/-- The camera of unit `u` does not answer the item sent last in time (R311). -/
def execCamSetItemTimeout (u : Cu) (s : State) : Res := .next (s.setFail u 4)

/-! ### Reads that clear (R313) -/

/-- The host reads CAM_U_LAT of unit `u`: the latencies seen are cleared (R313). -/
def execCamLatRead (u : Cu) (s : State) : Res := s.heard <| .next (s.readReg 0 (CAM_U_LAT.addr u)).2

/-- The host reads CAM_ISP_LOAD: PEAK is cleared (R313). -/
def execIspLoadRead (s : State) : Res := s.heard <| .next (s.ispLoad.readReg 0 CAM_ISP_LOAD.addr).2

end Sys2Proof.Machine
end

