-- ==== Sys2Proof/Machine/PixOps.lean ====
section
/-! DEFINITION. What the pixel-engine tasks ZONE and LADDER compute (11_colour_hold R315 to R318, R329): camera to proof, lines left out, zone sums,
strips. -/

namespace Sys2Proof.Machine

/-! ### Camera to proof (R315) -/

/-- The first line of repeat `r` at bar `b`, from the proof tags (R193, R315). -/
def State.tagFirst (s : State) (b r : Nat) : Option Int :=
  let a := s.getA64 CMP_CP_PTAG_LO b
  ((List.range (s.getA CMP_CP_PROOF_CFG_PDEPTH b)).filterMap fun i =>
    let t := s.ld (a + 16 * i) 16
    if fieldAt t 8 4 = r then some (fieldInt t 0 8) else none).foldl
      (fun m x => match m with | some y => some (min x y) | none => some x) none

/-- The web coordinate of camera line `x` / 256 of a record at bar `b`, in 2^-40 pu (R315). -/
def State.webAt (s : State) (u b : Nat) (pos : Int) (x : Nat) : Int :=
  (pos + sx 32 (s.getA PIX_MAP_DY b)) * 2 ^ 40 + (x : Int) * s.camPitch u

/-- The line of bar `b` whose position is the greatest not above a web coordinate in 2^-40 pu. -/
def State.lineAt (s : State) (b : Nat) (w : Int) : Int :=
  let p := s.lcPitch b
  if p = 0 then s.line b else s.line b + (w - s.compare b * 256) / (p * 256 : Nat)

/-- The matching line at bar `b` of repeat `r` (R315). -/
def State.matchLine (s : State) (b r : Nat) (w : Int) : Option Int :=
  match s.tagFirst b r with
  | none => none
  | some f =>
    let x := s.lineAt b w
    if x < f then none
    else
      match s.tagFirst b ((r + 1) % 2 ^ 32) with
      | some g => some (if f < g then min x (g - 1) else x)
      | none => some x

/-- The proof line that holds line `x` of point `b`, when its ring slot still holds it: slot and FLAGS (R192, R193). -/
def State.proofOf (s : State) (b : Nat) (x : Int) : Option (Nat × Nat) :=
  let ry : Nat := 2 ^ s.getA CMP_CP_PROOF_CFG_RYL b
  let d := s.getA CMP_CP_PROOF_CFG_PDEPTH b
  if d = 0 then none
  else
    let slot := (x / (ry : Int) % (d : Int)).toNat
    let t := s.ld (s.getA64 CMP_CP_PTAG_LO b + 16 * slot) 16
    if fieldInt t 0 8 / (ry : Int) = x / (ry : Int) then some (slot, fieldAt t 0xC 4) else none

/-- A reject-list entry of bar `b` overlaps a web range in pu (R136, R318). -/
def State.rejected (s : State) (b : Nat) (a z : Int) : Bool :=
  (List.range (min 64 (s.get SEQ_REJ_WR))).any fun i =>
    let inf := s.get SEQ_REJ_INFO i
    let st := s.geti64 SEQ_REJ_START_LO i
    bitsN inf 8 4 == b && bitsN inf 0 8 != 10 && decide (st < z) && decide (a < st + s.get SEQ_REJ_LEN i)

/-! ### The block a task reads (R306, R307) -/

/-- What a task takes from the record of a completed block: unit, SEQ, stream, FLAGS, repeat, POS, camera lines and their flags. -/
structure Blk where
  u : Nat
  seq : Nat
  k : Nat
  flags : Nat
  rep : Nat
  pos : Int
  lines : Nat
  lflag : List Nat
deriving DecidableEq, Repr

/-- The record of block `seq` of unit `u`, when its slot still holds it. -/
def State.blkOf (s : State) (u seq k : Nat) : Option Blk :=
  let d := s.get CAM_U_REC_CFG_RDEPTH u
  let size := s.get CAM_U_REC_CFG_RECSIZE u * 64
  if d = 0 then none
  else
    let a := s.get64 CAM_U_REC_LO u + seq % d * size
    let h := s.ld a 0x40
    let n := min (fieldAt h 0x28 4) (size - 0xC40)
    if fieldAt h 0 4 ≠ seq ∨ fieldAt h 6 1 ≠ u ∨ fieldAt h 7 1 ≠ 0 ∨ bitN (fieldAt h 8 4) 11 ∨ bitN (fieldAt h 8 4) (12 + k) then none
    else some ⟨u, seq, k, fieldAt h 8 4, fieldAt h 0xC 4, fieldInt h 0x10 8, n, s.ld (a + 0xC40) n⟩

/-- R318: a camera line is left out: a line flag, a proof line DROPPED or POISON or no longer there, a rejected range. -/
def State.leftOut (s : State) (x : Blk) (bars : List Nat) (n : Nat) : Bool :=
  x.lflag.getD n 1 != 0 || bars.any fun b =>
    let w := s.webAt x.u b x.pos (256 * n)
    let z := s.webAt x.u b x.pos (256 * (n + 1))
    match (s.matchLine b x.rep w).bind (s.proofOf b) with
    | some (_, f) => f % 4 != 0 || s.rejected b (w / 2 ^ 40) (z / 2 ^ 40)
    | none => true

/-- The enabled points of plane stream `n`. -/
def State.psPoints (s : State) (n : Nat) : List Nat :=
  (List.range 16).filter fun b => s.on CMP_CP_CTL_EN b && s.get CMP_CP_CTL_PS b == n

/-- Every point bound to plane stream `n`. -/
def State.psAll (s : State) (n : Nat) : List Nat := (List.range 16).filter fun b => s.get CMP_CP_CTL_PS b == n

/-- Output lines and columns of a stream of a block (R303). -/
def State.streamSize (s : State) (x : Blk) : Nat × Nat :=
  let ch := s.get CAM_K_CROPY_CH x.u x.k
  let ln := x.lines - s.get CAM_K_CROPY_Y0 x.u x.k
  let cw := min (s.get CAM_K_CROPX_CW x.u x.k) (s.get CAM_U_SIZE_W x.u - s.get CAM_K_CROPX_X0 x.u x.k)
  let fx := s.get CAM_K_SCALE_SXF x.u x.k
  let fy := s.get CAM_K_SCALE_SYF x.u x.k
  (if fy = 0 then 0 else (if ch = 0 then ln else min ch ln) * 256 / fy, if fx = 0 then 0 else cw * 256 / fx)

/-- The store address of output line `j` of a block's stream (R305). -/
def State.streamAddr (s : State) (x : Blk) (j : Nat) : Nat :=
  s.get64 CAM_K_BASE_LO x.u x.k + x.seq % s.get CAM_K_DEPTH_DEPTH x.u x.k * s.get CAM_K_SLOT_SLOT x.u x.k + j * s.get CAM_K_STRIDE_STRIDE x.u x.k

/-- The camera lines that output line `j` covers. -/
def State.camLines (s : State) (x : Blk) (j : Nat) : List Nat :=
  (footprint (s.get CAM_K_SCALE_SYF x.u x.k) j).map fun p => p.1 + s.get CAM_K_CROPY_Y0 x.u x.k

/-- The place across the web of camera column `x` / 256 at bar `b`, in 2^-24 plane columns (R315). -/
def State.colAt (s : State) (b x : Nat) : Int := sx 32 (s.getA PIX_MAP_CX0 b) * 256 + (x : Int) * s.getA PIX_MAP_CXS b

/-- The proof pixels of point `b` whose centres lie in the footprint of stream pixel (i, j) (R315). -/
def State.proofPx (s : State) (x : Blk) (b i j : Nat) : List Nat :=
  let rx := 2 ^ s.getA CMP_CP_PROOF_CFG_RXL b
  let ry : Nat := 2 ^ s.getA CMP_CP_PROOF_CFG_RYL b
  let fx := s.get CAM_K_SCALE_SXF x.u x.k
  let fy := s.get CAM_K_SCALE_SYF x.u x.k
  let ca := 256 * s.get CAM_K_CROPX_X0 x.u x.k + i * fx
  let la := 256 * s.get CAM_K_CROPY_Y0 x.u x.k + j * fy
  let (cl, cr) := (s.colAt b ca, s.colAt b (ca + fx))
  let (wl, wr) := (s.webAt x.u b x.pos la, s.webAt x.u b x.pos (la + fy))
  let st := s.get CMP_CP_CTL_CSTEP b + 1
  let ph := if st = 2 then s.get CMP_CP_CTL_CPHASE b else 0
  let n := cdiv (s.columns b (s.cp b).plane).length rx
  let cols := (List.range n).filter fun (m : Nat) =>
    let c : Int := ((st * ((2 * m + 1) * rx - 1) + 2 * ph + 1) * 2 ^ 23 : Nat)
    decide (cl ≤ c) && decide (c < cr)
  let k0 := s.lineAt b wl / (ry : Int)
  let k1 := s.lineAt b wr / (ry : Int)
  let rows := ((List.range (k1 - k0 + 1).toNat).map fun (d : Nat) => k0 + d).filter fun k =>
    let c := s.compare b * 256 + ((2 * k + 1) * ry - 2 * s.line b) * (s.lcPitch b * 128 : Nat)
    decide (wl ≤ c) && decide (c < wr)
  rows.flatMap fun k =>
    match s.proofOf b (k * ry) with
    | some (slot, _) => cols.map fun m => (s.ldByte (s.getA64 CMP_CP_PROOF_LO b + slot * (cdiv n 64 * 64) + m)).toNat
    | none => []

/-- The proof value of plane stream `n` at stream pixel (i, j): the rounded mean (R315); with no proof pixel there the spec states none: free (log 19). -/
def State.proofVal (s : State) (x : Blk) (n i j : Nat) : Nat :=
  let px := (s.psPoints n).flatMap fun b => s.proofPx x b i j
  if px.isEmpty then Config.free 12 (((s.fresh * 16 + n) * 65536 + j) * 65536 + i) % 256
  else (2 * px.foldl (· + ·) 0 + px.length) / (2 * px.length)

/-! ### Zones (R316, R317) -/

/-- The bin in which stream pixel (i, j) counts for plane stream `n` (R316). -/
def State.zoneBin (s : State) (x : Blk) (n i j : Nat) : Option Nat :=
  let solo := s.get PIX_SOLO_SOLO_MAX
  let p := s.proofVal x n i j
  let others := ((List.range 12).filter fun m => m != n && !(s.psPoints m).isEmpty).all fun m => decide (s.proofVal x m i j ≤ solo)
  if others && decide (p ≤ solo) then some 0 else if others && decide (8 ≤ p) then some ((p + 8) / 16) else none

/-- Every pixel that counts for plane stream `n`, as (zone, bin, L, a, b) (R316, R318). -/
def State.zonePx (s : State) (x : Blk) (n : Nat) (out : Nat → Bool) : List (Nat × Nat × Int × Int × Int) :=
  let (h, w) := s.streamSize x
  let b := (s.psPoints n).headD 0
  let nz := s.getA CMP_CP_NZONE b
  let pw := s.width (s.cp b).plane
  let fx := s.get CAM_K_SCALE_SXF x.u x.k
  (List.range h).flatMap fun j =>
    if (s.camLines x j).any out then []
    else
      (List.range w).filterMap fun i =>
        let c := (s.colAt b (256 * s.get CAM_K_CROPX_X0 x.u x.k + i * fx) + s.colAt b (256 * s.get CAM_K_CROPX_X0 x.u x.k + (i + 1) * fx)) / 2 ^ 25
        if nz = 0 ∨ c < 0 ∨ (pw : Int) ≤ c then none
        else
          (s.zoneBin x n i j).map fun k =>
            let a := s.streamAddr x j + 6 * i
            (c.toNat * nz / pw, k, (s.ldN a 2 : Int), sx 16 (s.ldN (a + 2) 2), sx 16 (s.ldN (a + 4) 2))

/-- One zone record written, entries before header (R317). -/
def State.zoneRecord (s : State) (x : Blk) (n : Nat) (out : Nat → Bool) : State :=
  let d := s.get PIX_ZR_CFG_DEPTH
  if d = 0 then s
  else
    let px := s.zonePx x n out
    let m := s.get PIX_ZR_WR
    let a := s.get64 PIX_ZR_LO + m % d * 34848
    let nz := s.getA CMP_CP_NZONE ((s.psPoints n).headD 0)
    let (h, _) := s.streamSize x
    let lines := (List.range h).flatMap (s.camLines x)
    let used := (lines.eraseDups.filter fun l => !(out l)).length
    let ents := (List.range (64 * 17)).flatMap fun e =>
      let q := px.filter fun p => 17 * p.1 + p.2.1 == e
      let sum := fun (f : Nat × Nat × Int × Int × Int → Int) => bytesOf 8 (ux 64 ((q.map f).foldl (· + ·) 0))
      bytesOf 4 q.length ++ bytesOf 4 0 ++ sum (fun p => p.2.2.1) ++ sum (fun p => p.2.2.2.1) ++ sum (fun p => p.2.2.2.2)
    let part := lines.any out
    let bad := bitN x.flags 7 || bitN x.flags 8
    let s := s.st (a + 32) ents
    let s := s.st a (bytesOf 4 x.seq ++ [x.u, n, nz, b2n part + 2 * b2n bad] ++ bytesOf 4 x.rep ++ bytesOf 4 used ++ bytesOf 8 m ++ bytesOf 8 0)
    s.set PIX_ZR_WR (m + 1)

/-! ### Ladder strips (R329, R330) -/

/-- A value put into a rising list. -/
def insertNat (v : Nat) (l : List Nat) : List Nat :=
  match l with
  | [] => [v]
  | x :: r => if v ≤ x then v :: x :: r else x :: insertNat v r

/-- The median of a list; between the two middle values of an even number the spec picks none: free (log 20). -/
def median (key : Nat) (l : List Nat) : Nat :=
  let t := l.foldr insertNat []
  let n := t.length
  let a := t.getD ((n - 1) / 2) 0
  let b := t.getD (n / 2) 0
  a + (if b - a = 0 then 0 else Config.free 8 key % (b - a + 1))

/-- One nozzle record written (R330). -/
def State.nozRecord (s : State) (kind bar port flags noz d rep : Nat) : State :=
  let n := s.get PIX_NC_CFG_DEPTH
  if n = 0 then s
  else
    let m := s.get PIX_NC_WR
    (s.st (s.get64 PIX_NC_LO + 16 * (m % n))
      ([kind, bar, port, flags] ++ bytesOf 2 noz ++ bytesOf 2 d ++ bytesOf 4 rep ++ bytesOf 4 m)).set PIX_NC_WR (m + 1)

/-- The in-use nozzles of bar `b`: (port, nozzle, whether its column is covered twice), by column (R231, R329). -/
def State.barNozzles (s : State) (b : Nat) : List (Nat × Nat × Bool) :=
  let plane := (s.cp b).plane
  let ps := s.portsOf b
  (s.columns b plane).flatMap fun (c : Nat) =>
    let l := s.nozzlesOn ps b plane c
    l.map fun o => (o.port, o.noz, decide (1 < l.length))

/-- The strip of bar `b` in a block: the output lines whose matching line lies in it (R329). -/
def State.stripLines (s : State) (x : Blk) (b : Nat) : List Nat :=
  match s.tagFirst b x.rep with
  | none => []
  | some f =>
    let a := f + s.getA PIX_STRIP_OFF_OFF b
    let z := a + s.getA PIX_STRIP_CFG_LEN b
    (List.range (s.streamSize x).1).filter fun j =>
      match s.matchLine b x.rep (s.webAt x.u b x.pos (256 * (j + s.get CAM_K_CROPY_Y0 x.u x.k))) with
      | some l => decide (a ≤ l) && decide (l < z)
      | none => false

/-- L* bytes of output line `j`. -/
def State.lstar (s : State) (x : Blk) (j : Nat) : List Nat := s.ld (s.streamAddr x j) (s.streamSize x).2

/-- d x 256 of a nozzle as the least-squares estimate of R329 gives it. The spec gives no solver, so the estimate is free (log 21). -/
def State.lossOf (s : State) (b p n : Nat) : Nat := Config.free 13 (((s.fresh * 16 + b) * 128 + p) * 12288 + n) % 512

/-- The strip of bar `b` judged by a LADDER task: nozzle records and the strip end, or strip bad (R329). -/
def State.ladderBar (s : State) (x : Blk) (bars : List Nat) (b : Nat) : State :=
  if s.getA PIX_STRIP_CFG_LEN b = 0 then s
  else
    let strip := s.stripLines x b
    let all := bars.flatMap (s.stripLines x)
    let paper := median (4 * s.fresh) (((List.range (s.streamSize x).1).filter fun j => !(all.contains j)).flatMap (s.lstar x))
    let dark := median (4 * s.fresh + 1) ((strip.flatMap (s.lstar x)).map fun l => paper - l)
    let out := strip.any fun j => (s.camLines x j).any (s.leftOut x bars)
    let s : State := { s with fresh := s.fresh + 1 }
    if strip.isEmpty || out || decide (dark < s.get PIX_NH_TH_STRIP_MIN) then
      (s.nozRecord 2 b 0xFF 0 0 0 x.rep).raiseLim EV_NH_STRIP_BAD b b sec1 [b, x.rep]
    else
      let weak := s.get PIX_NH_TH_WEAK_TH
      let l := (s.barNozzles b).filterMap fun (p, n, ov) =>
        let st := nzState (s.nzRead (nzIndex p n))
        let d := s.lossOf b p n
        if (st = 0 ∧ weak ≤ d) ∨ st = 1 ∨ st = 2 then some (p, n, ov, d, st) else none
      let s := s.each l fun (p, n, ov, d, _) s => s.nozRecord 0 b p (b2n ov) n d x.rep
      s.nozRecord 1 b 0xFF 0 (l.filter fun y => y.2.2.2.2 == 0).length 0 x.rep

end Sys2Proof.Machine
end

