-- ==== Sys2Proof/Machine/Colour.lean ====
section
/-! DEFINITION. Colour hold and nozzle health (11_colour_hold): the pixel-engine tasks, the Chameleon loop, nozzle health, camera calibration. -/

namespace Sys2Proof.Machine

/-! ### Tasks (R314, R341) -/

/-- A task of pixel engine `e` takes block `seq`, or skips it while busy (R314); `us`: the time it spends. -/
def State.taskRun (s : State) (e : Fin 12) (kind : Nat) (seq : Nat) (busy : Bool) (us : Nat) (f : State → Blk → State) : State :=
  if s.get PIX_TASK_KIND e ≠ kind ∨ (s.engState (16 + e) ≠ 2 ∧ s.engState (16 + e) ≠ 3) then s
  else if busy then (s.addSat PIX_TASK_STAT_SKIP 1 e).raiseLim EV_PIX_BLOCK_SKIP (0xC8 + e) e sec1
  else
    let s := match s.blkOf (s.get PIX_TASK_UNIT e) seq (s.get PIX_TASK_STREAM e) with
      | some x => f s x
      | none => s
    ((s.set PIX_TASK_SEQ seq e).set PIX_TASK_STAT_TIME (min us 65535) e)

/-- The ZONE task of pixel engine `e` measures block `seq` of its camera unit (R316 to R318). -/
def execZoneTask (e : Fin 12) (seq : BitVec 32) (busy : Bool) (us : BitVec 16) (s : State) : Res :=
  .next (s.taskRun e 1 seq.toNat busy us.toNat fun s x =>
    let ps := (List.range 12).filter fun n => bitN (s.get PIX_TASK_MASK e) n
    let bars := ps.flatMap s.psPoints
    let outs := (List.range x.lines).map (s.leftOut x bars)
    let s := s.each ps fun n s => s.zoneRecord x n fun l => outs.getD l true
    { s with fresh := s.fresh + 1 })

/-- The LADDER task of pixel engine `e` estimates the loss of the nozzles of its bars from block `seq` (R329). -/
def execLadderTask (e : Fin 12) (seq : BitVec 32) (busy : Bool) (us : BitVec 16) (s : State) : Res :=
  .next (s.taskRun e 2 seq.toNat busy us.toNat fun s x =>
    let bars := (List.range 16).filter fun b => bitN (s.get PIX_TASK_MASK e) b
    s.each bars fun b s => s.ladderBar x bars b)

/-! ### Channels (R319 to R327) -/

/-- Channel `n`'s own state. -/
def State.chn (s : State) (n : Nat) : Chan := smGet (fun _ => Chan.empty) s.chan n
/-- Channel `n`'s own state replaced. -/
def State.setChn (s : State) (n : Nat) (x : Chan) : State := { s with chan := smPut (fun _ => Chan.empty) s.chan n x }

/-- Channel `n` is enabled; at level 1 the loop does not run (R491). -/
def State.chOn (s : State) (n : Nat) : Bool := s.on CHL_CTL_EN && s.on CHL_CH_CTL_EN n && s.get GLB_COMPAT_LEVEL == 0

/-- The camera record of unit `u` in the calibration record in force (R455). -/
def State.camCal (s : State) (u : Nat) : CamCal :=
  match s.cal with
  | some r => r.cams.getD u CamCal.empty
  | none => CamCal.empty

/-- A cause that holds channel `n` whatever its blocks say, by the order of R325. -/
def State.chCause (s : State) (n : Nat) : Nat :=
  let u := s.get CHL_CH_CTL_UNIT n
  if s.mode ≠ 3 then 1
  else if s.get GLB_UST_STATE (camUnit u) ≠ 2 ∨ !(bitN (s.get TWN_ATTACH_CAM) u) then 2
  else if s.on CHL_CTL_FREEZE then 3
  else if !(bitN (s.camCal u).flags 0) then 6
  else 0

/-- Channel `n` enters HOLD (R325). -/
def State.chHold (s : State) (n cause : Nat) : State :=
  if s.get CHL_CH_STAT_STATE n = 4 ∧ s.get CHL_CH_STAT_CAUSE n = cause then s
  else
    let was := s.get CHL_CH_STAT_STATE n == 4
    let s := (s.set CHL_CH_STAT_STATE 4 n).set CHL_CH_STAT_CAUSE cause n
    if was then s else s.raise EV_CHL_HOLD 255 [cause]

/-- Channel `n` in state `st`, no cause. -/
def State.chState (s : State) (n st : Nat) : State := (s.set CHL_CH_STAT_STATE st n).set CHL_CH_STAT_CAUSE 0 n

/-- The new job's settings are taken once the most downstream point of the channel composes it (R327): CUR is the job's zone table. -/
def State.chJob (s : State) (n : Nat) : State :=
  let last := (s.psPoints n).foldl (fun r b => match r with
    | none => some b
    | some c => if s.lcOffset c < s.lcOffset b then some b else some c) (none : Option Nat)
  match last with
  | none => s
  | some b =>
    match (s.cp b).job with
    | none => s
    | some d =>
      if (s.chn n).job = some d then s
      else
        let z := match s.jobAt d with
          | some j => (match j.points.find? fun p => p.point == b with | some p => p.zone | none => 0)
          | none => 0
        (s.setChn n { Chan.empty with job := some d }).set64 CHL_CH_CUR_LO z n

/-- A zone record as the firmware reads it (R317): SEQ, unit, plane stream, zones, FLAGS, repeat, and COUNT and sums of every entry. -/
structure ZoneRec where
  seq : Nat
  unit : Nat
  ps : Nat
  nz : Nat
  flags : Nat
  rep : Nat
  sums : List Int
deriving DecidableEq, Repr

/-- Zone record `m` of the ring. -/
def State.zoneRecAt (s : State) (m : Nat) : ZoneRec :=
  let a := s.get64 PIX_ZR_LO + m % s.get PIX_ZR_CFG_DEPTH * 34848
  let h := s.ld a 32
  let nz := min (fieldAt h 6 1) 64
  ⟨fieldAt h 0 4, fieldAt h 4 1, fieldAt h 5 1, nz, fieldAt h 7 1, fieldAt h 8 4,
    (List.range (nz * 17)).flatMap fun e =>
      let b := s.ld (a + 32 + 32 * e) 32
      [(fieldAt b 0 4 : Int), fieldInt b 8 8, fieldInt b 16 8, fieldInt b 24 8]⟩

/-- The block of a record is eligible for its channel (R323). -/
def State.eligible (s : State) (r : ZoneRec) : Bool :=
  let n := r.ps
  let r0 := match (s.psPoints n).head? with | some b => (s.cp b).r0 | none => 0
  decide (0 ≤ repDiff r.rep (s.get CHL_CH_APPLIED n)) && decide (0 ≤ repDiff r.rep r0) && !(bitN r.flags 1) &&
    (match s.printRep with | some p => decide (0 ≤ repDiff r.rep p) | none => true) && decide (0 < repDiff r.rep (s.get CHL_CH_JUDGED n))

/-- Lists of sums added. -/
def addSums (a b : List Int) : List Int := if a.isEmpty then b else List.zipWith (· + ·) a b

/-- COUNT and the three sums of entry (z, k). -/
def entryOf (l : List Int) (z k : Nat) : Int × List Int :=
  let e := 4 * (17 * z + k)
  (l.getD e 0, [l.getD (e + 1) 0, 2 * l.getD (e + 2) 0, 2 * l.getD (e + 3) 0])

/-- Target (z, k) in 1/512 of every component, none where not VALID (R319). -/
def State.target (s : State) (n z k : Nat) : Option (List Int) :=
  let b := s.ld (s.get64 CHL_CH_TGT_LO n + 8 * (17 * z + k)) 8
  if bitN (fieldAt b 6 2) 0 then some [(fieldAt b 0 2 : Int), 2 * fieldInt b 2 2, 2 * fieldInt b 4 2] else none

/-- Sum of products of components. -/
def dot (a b : List Int) : Int := (List.zipWith (· * ·) a b).foldl (· + ·) 0

/-- 512 times the slope per 256 steps, twice: T(k+1) − T(k−1), or twice a one-sided difference (R320). -/
def State.slope2 (s : State) (n z k : Nat) (t : List Int) : Option (List Int) :=
  let sub := fun (a b : List Int) => List.zipWith (· - ·) a b
  let dbl := fun (a : List Int) => a.map (2 * ·)
  match s.target n z (k - 1), (if k = 16 then none else s.target n z (k + 1)) with
  | some a, some b => some (sub b a)
  | some a, none => some (dbl (sub t a))
  | none, some b => some (dbl (sub b t))
  | none, none => none

/-- Entry (z, k) has the COUNT and the target that a judgement needs (R320, R325). -/
def State.hasData (s : State) (n z k : Nat) (l : List Int) : Bool :=
  decide ((s.get CHL_CH_LIM_MINCNT n : Int) ≤ (entryOf l z k).1) && decide (0 < (entryOf l z k).1) && (s.target n z k).isSome

/-- GAIN × e of entry (z, k) rounded: Δ before its clamp (R320, R321). -/
def State.deltaOf (s : State) (n z k : Nat) (l : List Int) : Int :=
  let (c, m) := entryOf l z k
  match s.target n z k with
  | none => 0
  | some t =>
    match s.slope2 n z k t with
    | none => 0
    | some d =>
      let dd := dot d d
      let diff := (List.zipWith (fun a b => a * c - b) t m)
      let lim := s.get CHL_CH_LIM_SLOPE_MIN n
      let db : Int := 2 * s.get CHL_CH_GAIN_DEADBAND n * c
      if !(s.hasData n z k l) || dd == 0 || decide (dd < 16 * lim * lim) || decide (dot diff diff ≤ db * db) then 0
      else rdiv (s.get CHL_CH_GAIN_GAIN n * 512 * dot diff d) (256 * (c * dd).toNat)

/-- The offset of zone `z`, point `k`, in the table in force (R188, R321). -/
def State.curOffset (s : State) (n z k : Nat) : Int :=
  let a := s.get64 CHL_CH_CUR_LO n
  if a = 0 then 0 else sx 16 (s.ldN (a + 64 * z + 2 * k) 2)

/-- The new offset of zone `z`, point `k`, and whether STEP_MAX and TOT_MAX acted (R321). -/
def State.newOffset (s : State) (n z k : Nat) (l : List Int) : Int × Bool × Bool :=
  let st : Int := s.get CHL_CH_CLAMP_STEP_MAX n
  let tot : Int := s.get CHL_CH_CLAMP_TOT_MAX n
  if k = 0 then (0, false, false)
  else
    let d := s.deltaOf n z k l
    let d2 := clampI (-st) st d
    let o := s.curOffset n z k + d2
    let o2 := clampI (-tot) tot o
    (o2, d != d2, o != o2)

/-- The largest number of `k` bits or fewer whose square is at most `n`. -/
def isqrt (n : Nat) (k : Nat) (r : Nat := 0) : Nat :=
  match k with
  | 0 => r
  | k + 1 => let t := r + 2 ^ k; if t * t ≤ n then isqrt n k t else isqrt n k r

/-- A square root in 1/256 of a number of 1/512 squared; between two whole numbers the spec picks none: free. -/
def deltaE (key : Nat) (q : Nat) : Nat :=
  let r := isqrt (q / 4) 64
  if r * r * 4 = q then r else r + Config.free 8 key % 2

/-- MEAN and MAX of ΔE*ab of a block over its VALID entries (R342). -/
def State.chlDe (s : State) (n : Nat) (l : List Int) (nz : Nat) : State :=
  let es := (List.range nz).flatMap fun z => (List.range 17).filterMap fun k =>
    let (c, m) := entryOf l z k
    match s.target n z k with
    | some t =>
      if c ≤ 0 then none
      else
        let d := List.zipWith (fun a b => a * c - b) t m
        some (deltaE (64 * s.fresh + k) ((dot d d) / (c * c)).toNat)
    | none => none
  let mean := if es.isEmpty then 0 else es.foldl (· + ·) 0 / es.length
  (({ s with fresh := s.fresh + 1 } : State).set CHL_CH_DE_MEAN (min mean 65535) n).set CHL_CH_DE_MAX (min (es.foldl max 0) 65535) n

/-- A block gathered for targets; the table is written when NCAP have come (R319). -/
def State.capture (s : State) (n : Nat) (r : ZoneRec) : State :=
  let c := s.chn n
  let minc := s.get CHL_CH_LIM_MINCNT n
  let idx := (List.range r.nz).flatMap fun z => (List.range 17).map fun k => (z, k)
  let good := idx.map fun (z, k) => decide ((minc : Int) ≤ (entryOf r.sums z k).1) && decide (0 < (entryOf r.sums z k).1)
  let ok := if c.capN = 0 then good else List.zipWith (· && ·) c.capOk good
  let cap := addSums c.cap r.sums
  if c.capN + 1 < s.get CHL_CH_CTL_NCAP n then s.setChn n { c with cap, capN := c.capN + 1, capOk := ok }
  else
    let s := s.setChn n { c with cap := [], capN := 0, capOk := [] }
    let s := s.each ((idx.zip ok)) fun ((z, k), v) s =>
      let e := 4 * (17 * z + k)
      let cnt := (cap.getD e 0).toNat
      let comp := fun (i : Nat) => if cnt = 0 then (0 : Int) else
        cap.getD (e + i) 0 / cnt + (if cap.getD (e + i) 0 % cnt = 0 then 0 else (Config.free 8 (s.fresh * 8192 + e + i) % 2 : Nat))
      let a := s.get64 CHL_CH_TGT_LO n + 8 * (17 * z + k)
      if v then s.st a (bytesOf 2 (ux 16 (comp 1)) ++ bytesOf 2 (ux 16 (comp 2)) ++ bytesOf 2 (ux 16 (comp 3)) ++ bytesOf 2 1)
      else s.st (a + 6) (bytesOf 2 0)
    (({ s with fresh := s.fresh + 1 } : State).put CHL_CH_CTL_CAPTURE false n).raise EV_CHL_TARGET 255

/-- One record judged; answers whether its channel has sums for an update (R319, R320, R323, R325, R326). -/
def State.judgeRec (s : State) (r : ZoneRec) : State × Option (Nat × List Int × Nat) :=
  let n := r.ps
  let live := s.mode == 3 || s.mode == 6
  if 12 ≤ n ∨ !(s.chOn n) ∨ !live ∨ s.on CHL_SHEAF_PENDING ∨ !(s.eligible r) ∨ r.unit ≠ s.get CHL_CH_CTL_UNIT n then (s, none)
  else
    let cause := s.chCause n
    if cause ≠ 0 ∧ s.mode = 3 then (s.chHold n cause, none)
    else
      let s := (s.set CHL_CH_JUDGED r.rep n).chlDe n r.sums r.nz
      if s.mode = 6 then (s, none)
      else if s.on CHL_CH_CTL_CAPTURE n then
        if s.get CHL_CH_CTL_NCAP n = 0 then (s.chHold n 4, none) else ((s.chState n 1).capture n r, none)
      else
        let data := (List.range r.nz).any fun z => (List.range 16).any fun k => s.hasData n z (k + 1) r.sums
        let c := s.chn n
        let c := { c with nodata := if data then 0 else c.nodata + 1, sheafHold := false }
        let s := s.setChn n c
        if 16 ≤ c.nodata then (s.chHold n 4, none)
        else
          let s := s.chState n 3
          let navg := s.get CHL_CTL_NAVG
          let sums := addSums c.avg r.sums
          if navg = 0 then (s, none)
          else if c.avgN + 1 < navg then (s.setChn n { c with avg := sums, avgN := c.avgN + 1 }, none)
          else (s.setChn n { c with avg := [], avgN := 0 }, some (n, sums, r.nz))

/-- The new zone table of channel `n` written into the buffer that CUR does not name (R321, R322). -/
def State.zoneTable (s : State) (n : Nat) (l : List Int) (nz : Nat) : State :=
  let buf := s.get64 CHL_CH_BUF_LO n
  let dst := if s.get64 CHL_CH_CUR_LO n = buf then buf + 4096 else buf
  let offs := (List.range nz).map fun z => (List.range 17).map fun k => s.newOffset n z k l
  let acts := (offs.map fun z => (z.filter fun o => o.2.1 || o.2.2).length).foldl (· + ·) 0
  let s := s.addSat CHL_CH_STAT_CLAMPS acts n
  let s := match ((List.range nz).zip offs).find? fun z => z.2.any fun o => o.2.2 with
    | some (z, _) => s.raise EV_CHL_CLAMP 255 [n, z]
    | none => s
  let s : State := { s with twn.zoneChg := if s.on TWN_STAT_ACTIVE then s.twn.zoneChg ++ [(dst, 64 * nz)] else s.twn.zoneChg }
  s.each ((List.range nz).zip offs) fun (z, o) s =>
    s.st (dst + 64 * z) (o.flatMap (fun v => bytesOf 2 (ux 16 v.1)) ++ List.replicate 30 0)

/-- The REG items of a zone sheaf for channel `n` (R322). -/
def State.zoneItems (s : State) (n : Nat) : List Item :=
  let buf := s.get64 CHL_CH_BUF_LO n
  let dst := if s.get64 CHL_CH_CUR_LO n = buf then buf + 4096 else buf
  let nz := s.getA CMP_CP_NZONE ((s.psPoints n).headD 0)
  let reg := fun (at_ a v w : Nat) => (⟨1, at_, 0, a, v % 2 ^ w + 2 ^ 32 * (2 ^ w - 1)⟩ : Item)
  (s.psAll n).flatMap fun b =>
    let p := if s.on CMP_CP_CTL_EN b then b else (s.psPoints n).headD b
    [reg p (CMP_CP_ZONE_LO.addr b) (dst % 2 ^ 32) 32, reg p (CMP_CP_ZONE_HI.addr b) (dst / 2 ^ 32) 32, reg p (CMP_CP_NZONE.addr b) nz 7]

/-- The repeat that R324 picks: the first whose first line the most upstream named point starts to compose MARGIN ms or more from now, at standstill
the one after the repeat being composed. -/
def State.marginRepeat (s : State) (pts : List Nat) : Nat :=
  match s.upstream pts with
  | none => 0
  | some c =>
    let p := s.cp c
    let cur := s.get CMP_CP_REPEAT c
    let v := s.geti GEK_TRK_SPEED (s.get GEK_CTL_REF_TRK)
    if v ≤ 0 ∨ p.sheet ∨ p.rep = 0 then (cur + 1) % 2 ^ 32
    else
      let reach := s.barPos c + v * s.get CHL_CTL_MARGIN / 256 + p.lead * s.lcPitch c / 2 ^ 32
      let r := p.r0 + max 0 (-((p.org - reach) / p.rep))
      if 0 < repDiff (ux 32 r) cur then ux 32 r else (cur + 1) % 2 ^ 32

/-- A zone sheaf offered up to `fuel` times, each refusal for lateness taking the next repeat (R324). -/
def State.offerZone (s : State) (h : Sheaf) (chans : List Nat) (fuel : Nat) : State :=
  match fuel with
  | 0 =>
    let s := s.raise EV_CHL_LATE 255
    s.each chans fun n s => (s.setChn n { s.chn n with sheafHold := true }).chHold n 5
  | f + 1 =>
    let (s, st) := s.submitH (some h) 2
    let s := s.set CHL_SHEAF_LAST st
    if st ≠ 0 then
      (s.addWrap CHL_SHEAF_REFUSED 1).offerZone { h with rep := if st = 2 then (h.rep + 1) % 2 ^ 32 else h.rep } chans f
    else
      let s := ({ s with chlPend := chans, twn.zoneShf := if s.on TWN_STAT_ACTIVE then s.twn.zoneShf ++ [h] else s.twn.zoneShf } : State).put CHL_SHEAF_PENDING true
      let s := (s.set CHL_SHEAF_REP h.rep).addWrap CHL_UPDATES 1
      (s.each chans fun n s => s.chState n 2).raise EV_CHL_UPDATE 255 [h.rep, (chans.map (2 ^ ·)).foldl (· + ·) 0]

/-- Records taken one after another; answers the updates computed. -/
def State.judgeAll (s : State) (l : List Nat) : State × List (Nat × List Int × Nat) :=
  match l with
  | [] => (s, [])
  | m :: r =>
    let (s, a) := s.judgeRec (s.zoneRecAt m)
    let (s, t) := s.judgeAll r
    (s, (match a with | some x => [x] | none => []) ++ t)

/-- Channel states that no block changes: OFF, holds, WAIT (R325). -/
def State.chlStates (s : State) : State :=
  s.each (List.range 12) fun n s =>
    let s := s.chJob n
    if !(s.chOn n) then s.chState n 0
    else
      let cause := s.chCause n
      if cause ≠ 0 then s.chHold n cause
      else if s.on CHL_SHEAF_PENDING then s.chState n 2
      else if s.get CHL_CH_STAT_STATE n = 0 then s.chState n (if s.on CHL_CH_CTL_CAPTURE n then 1 else 3)
      else s

/-- The loop firmware takes the zone records written since its last turn, judges them and submits one zone sheaf (R319 to R327). In SHADOW it does
nothing (R328); records overwritten before it reads them are lost. -/
def execChlJudge (s : State) : Res :=
  let wr := s.get PIX_ZR_WR
  let d := s.get PIX_ZR_CFG_DEPTH
  let n := min ((wr + 2 ^ 32 - s.chlRd % 2 ^ 32) % 2 ^ 32) d
  let recs := (List.range n).map fun i => wr - n + i
  let s : State := { s with chlRd := wr }
  if s.mode = 5 ∨ s.mode = 0 ∨ s.on MGT_STAT_RESTARTING then .next s
  else
    let s := s.chlStates
    let (s, ups) := s.judgeAll recs
    if ups.isEmpty then .next s
    else
      let s := s.each ups fun (n, l, nz) s => s.zoneTable n l nz
      let chans := ups.map (·.1)
      let pts := chans.flatMap s.psPoints
      let mask := (pts.map (2 ^ ·)).foldl (· + ·) 0
      let h : Sheaf := ⟨s.marginRepeat pts, mask, none, chans.flatMap s.zoneItems, 0, 2, 0, 0, false⟩
      .next (s.offerZone h chans 3)

/-! ### Nozzle health (R330 to R335) -/

/-- The class of d × 256 under a nozzle's state (R332): 0 recovered or sound, 1 between, 2 dead. -/
def State.nhClass (s : State) (st d : Nat) : Nat :=
  let lo := if st = 0 then s.get PIX_NH_TH_WEAK_TH else s.get PIX_NH_TH_OK_TH
  if d < lo then 0 else if d < s.get PIX_NH_TH_DEAD_TH then 1 else 2

/-- The command that a run of `n` strips of a class gives a nozzle in a state (R332). -/
def State.nhCommand (s : State) (st cls n : Nat) : Option Nat :=
  let conf := s.get CHL_NH_CFG_NCONF
  let rec_ := s.get CHL_NH_CFG_NREC
  if st = 0 then if 0 < conf ∧ conf ≤ n then (if cls = 2 then some 2 else if cls = 1 then some 1 else none) else none
  else if st = 1 then
    if cls = 2 then (if 0 < conf ∧ conf ≤ n then some 2 else none)
    else if cls = 0 then (if 0 < rec_ ∧ rec_ ≤ n then some 0 else none) else none
  else if st = 2 then
    if 0 < rec_ ∧ rec_ ≤ n then (if cls = 0 then some 0 else if cls = 1 then some 1 else none) else none
  else none

/-- One nozzle in a judged strip: its run, and the command the run gives; in SERVICE nothing is applied (R326, R332). -/
def State.nhNozzle (s : State) (j d : Nat) : State :=
  let st := nzState (s.nzRead j)
  let cls := s.nhClass st d
  let key := 1 + cls + 4 * st
  let (k, n) := smGet (fun _ => (0, 0)) s.nhRuns j
  let n := if k = key then n + 1 else 1
  let put := fun (s : State) (x : Nat × Nat) => { s with nhRuns := smPut (fun _ => (0, 0)) s.nhRuns j x }
  if 2 < st then put s (0, 0)
  else
    let s := put s (key, n)
    if s.mode ≠ 3 then s
    else
      match s.nhCommand st cls n with
      | none => s
      | some new =>
        let (s, r) := s.nhChange (j / 12288) (j % 12288) st new
        if r = 4 then s else put s (0, 0)

/-- The bar position at which the strip of bar `b` in repeat `r` ends (R335). -/
def State.stripEnd (s : State) (b r : Nat) : Option Int :=
  (s.tagFirst b r).map fun f => s.linePos b (f + s.getA PIX_STRIP_OFF_OFF b + s.getA PIX_STRIP_CFG_LEN b)

/-- A strip of bar `b` judged from its nozzle records (R332, R335). -/
def State.nhJudge (s : State) (b r : Nat) (l : List (Nat × Nat)) : State :=
  let weak := s.get PIX_NH_TH_WEAK_TH
  let known := (s.nhRuns.map (·.1)).filter fun j => s.get HPL_PORT_CFG_BAR (j / 12288) == b && !(l.any fun x => x.1 == j)
  let s := s.each (l ++ known.map fun j => (j, 0)) fun x s => s.nhNozzle x.1 x.2
  let old := smGet (fun _ => none) s.nhEnd b
  let bad := (l.filter fun x => decide (weak ≤ x.2)).map (·.1)
  let keep := s.nhOld.filter fun x => s.get HPL_PORT_CFG_BAR (x.1 / 12288) != b || bad.contains x.1
  let s : State := { s with nhOld := keep }
  let s := s.each bad fun j s =>
    if (smGet (fun _ => (0, 0)) s.nhOld j).1 = 0 then
      { s with nhOld := smPut (fun _ => (0, 0)) s.nhOld j (match old with | some z => (1, z) | none => (2, 0)) }
    else s
  { s with nhEnd := smPut (fun _ => none) s.nhEnd b (s.stripEnd b r) }

/-- A strip end or strip bad record of bar `b` (R330, R331). -/
def State.nhStrip (s : State) (kind b cnt r : Nat) : State :=
  let l := smGet (fun _ => []) s.nhGot b
  let lost := s.nhBad.contains b
  let s : State := { s with nhGot := smPut (fun _ => []) s.nhGot b [], nhBad := s.nhBad.filter (· != b) }
  if !(s.on CHL_NH_CFG_EN) || (s.mode != 3 && s.mode != 6) then s
  else if kind = 2 ∨ lost then s.addSat CHL_NH_STRIPS_BAD 1
  else if s.get CHL_NH_CFG_MAXCHG < cnt then (s.addSat CHL_NH_STRIPS_SUSPECT 1).raise EV_NH_SUSPECT 255
  else s.nhJudge b r l

/-- Nozzle records taken from the ring until one ends a strip (R330). -/
def State.nhRead (s : State) (fuel : Nat) : State :=
  match fuel with
  | 0 => s
  | f + 1 =>
    if s.nhRd = s.get PIX_NC_WR then s
    else
      let h := s.ld (s.get64 PIX_NC_LO + 16 * (s.nhRd % s.get PIX_NC_CFG_DEPTH)) 16
      let s : State := { s with nhRd := (s.nhRd + 1) % 2 ^ 32 }
      let b := fieldAt h 1 1
      if fieldAt h 0 1 = 0 then
        let x := (nzIndex (fieldAt h 2 1) (fieldAt h 4 2), fieldAt h 6 2)
        ({ s with nhGot := smPut (fun _ => []) s.nhGot b (smGet (fun _ => []) s.nhGot b ++ [x]) } : State).nhRead f
      else s.nhStrip (fieldAt h 0 1) b (fieldAt h 4 2) (fieldAt h 8 4)

/-- The nozzle-health firmware reads nozzle records to the end of the next strip and judges it (R330 to R335); records overwritten before they
were read make the strips they may belong to bad. -/
def execNhStripJudge (s : State) : Res :=
  let d := s.get PIX_NC_CFG_DEPTH
  let n := (s.get PIX_NC_WR + 2 ^ 32 - s.nhRd % 2 ^ 32) % 2 ^ 32
  if s.on MGT_STAT_RESTARTING then .next s
  else if d = 0 ∨ s.mode = 5 ∨ s.mode = 0 then .next { s with nhRd := s.get PIX_NC_WR }
  else
    let s : State := if d < n then { s with nhRd := (s.get PIX_NC_WR + 2 ^ 32 - d) % 2 ^ 32, nhBad := List.range 16 } else s
    .next (s.nhRead (min n d + 1))

/-! ### Camera calibration (R336 to R338, R455) -/

/-- The calibration in progress ends (R336); a result other than PASS restores the unit's parameters and raises CAL_FAIL. -/
def State.calEnd (s : State) (result : Nat) : State :=
  let s := (s.put CHL_CAL_STAT_BUSY false).set CHL_CAL_STAT_RESULT result
  let s := match s.calRun with
    | some c =>
      let s : State := { s with calRun := none }
      if result = 0 then s
      else s.each ((List.range 24).zip c.saved) fun (i, w) s => s.wr (CAM_U_BLACK0.addr c.unit + 4 * i) w
    | none => s
  s.cond (result != 0) fun s => s.raise EV_CAL_FAIL 255 [result]

/-- The host writes CHL_CAL_CMD with GO (R336). -/
def execCalGo (v : BitVec 32) (s : State) : Res := s.heard <|
  if getBits v 0 1 = 0 ∨ s.on CHL_CAL_STAT_BUSY then .next s
  else if s.mode ≠ 6 then .next (s.calEnd 4)
  else
    let u := getBits v 3 3
    let saved := (List.range 24).map fun i => s.rd (CAM_U_BLACK0.addr u + 4 * i)
    .next (({ s with calRun := some ⟨getBits v 2 1 == 1, u, saved⟩ } : State).put CHL_CAL_STAT_BUSY true)

/-- The host writes CHL_CAL_CMD with ABORT (R336, R8). -/
def execCalAbort (s : State) : Res := s.heard <|
  if s.on CHL_CAL_STAT_BUSY then .next (s.calEnd 5) else .next (s.set CHL_CAL_STAT_RESULT 6)

/-- The tile certificate at CHL_CAL_TILE as R337 judges it: 2 BAD_TILE, 3 EXPIRED, else 0. -/
def State.tileCheck (s : State) : Nat :=
  let a := s.get64 CHL_CAL_TILE_LO
  let n := s.ldN (a + 4) 2
  if s.ldN a 4 ≠ 0x454C4954 ∨ n < 8 ∨ 96 < n ∨ crc32 (s.ld a (0x20 + 16 * n)) ≠ s.ldN (a + 0x20 + 16 * n) 4 then 2
  else if s.ldN (a + 0x10) 8 < s.ptpSec then 3
  else 0

/-- The calibration record of a unit as the store keeps it now (R455): parameter registers, tone curves, flat field. -/
def State.camCalNow (s : State) (u : Nat) (old : CamCal) : CamCal :=
  let nflat := if s.camArea u then 1089 else s.get CAM_U_SIZE_W u
  { old with
    nflat,
    regs := (List.range 24).map fun i => (s.rd (CAM_U_BLACK0.addr u + 4 * i)).toNat,
    tone := if s.get64 CAM_U_TONE_LO u = 0 then old.tone else s.table (s.get64 CAM_U_TONE_LO u) 3072 2,
    flat := if s.get64 CAM_U_FLAT_LO u = 0 then old.flat else s.table (s.get64 CAM_U_FLAT_LO u) (3 * nflat) 4 }

/-- A passed calibration written to the calibration store (R336, R455): SEQ + 1, COUNT + 1, TIME, the unit's record; the copy in NOR follows (R454). -/
def State.calStore (s : State) (u : Nat) (f : CamCal → CamCal) : State :=
  let old := s.cal.getD ⟨0, 0, 0, List.replicate 64 0, List.replicate 8 CamCal.empty⟩
  let r : CalRec := { old with
    seq := (old.seq + 1) % 2 ^ 32, count := (old.count + 1) % 2 ^ 32, time := s.ptpSec,
    cams := (List.range 8).map fun i => if i = u then f (s.camCalNow u (old.cams.getD i CamCal.empty)) else old.cams.getD i CamCal.empty }
  let s : State := { s with cal := some r, norJobs := s.norJobs ++ [.cal r none] }
  (((s.set CHL_CAL_STAT_COUNT r.count).set CHL_CAL_TIME_SECONDS s.ptpSec).raise EV_CAL_DONE 255).logRec 4 [u]

/-- A gain that brings a column's mean to the mean of all: unsigned 2.14; the spec gives no rounding: free. -/
def flatGain (key all col : Nat) : Nat :=
  if col = 0 then 65535 else
    let g := all * 16384 / col
    min 65535 (if all * 16384 % col = 0 then g else g + Config.free 8 key % 2)

/-- FLAT ends: `cols` holds the mean of every column (AREA: grid point) in R, G and B as measured, 16-bit (R336). -/
def State.calFlat (s : State) (u : Nat) (cols : List (List Nat)) : State :=
  let n := cols.length
  let mean := fun (c : Nat) => if n = 0 then 0 else (cols.map fun p => p.getD c 0).foldl (· + ·) 0 / n
  if n = 0 ∨ s.get CHL_CAL_MAXAGE_FLATLINES = 0 ∨ (List.range 3).any (fun c => decide (mean c < 16384)) then s.calEnd 7
  else
    let a := s.get64 CAM_U_FLAT_LO u
    let words := ((List.range n).zip cols).flatMap fun (i, p) =>
      (List.range 3).map fun c => flatGain (s.fresh * 65536 * 4 + 4 * i + c) (mean c) (p.getD c 0)
    let s : State := { s with fresh := s.fresh + 1 }
    let s := s.cond (a != 0) fun s => s.st a (words.flatMap (bytesOf 4))
    ((s.calEnd 0).calStore u fun x => { x with flags := x.flags ||| 2, flat := words, nflat := n })

/-- COLOUR ends (R336, R337): whether the fiducial frame was found, the fitted WB, M and OFF words (CAM_U_WB0 to CAM_U_OFF1) and tone curves, the mean and
largest residual in 1/256. -/
def State.calColour (s : State) (u : Nat) (found : Bool) (words tone : List Nat) (mean top : Nat) : State :=
  let t := s.tileCheck
  let s := if t = 0 ∧ found then (s.set CHL_CAL_DE_MEAN mean).set CHL_CAL_DE_MAX top else s
  if t ≠ 0 then s.calEnd t
  else if !found then s.calEnd 7
  else if s.get CHL_CAL_LIMIT_MEAN_MAX < mean ∨ s.get CHL_CAL_LIMIT_MAX_MAX < top then s.calEnd 1
  else
    let s := s.calEnd 0
    let s := s.each ((List.range 9).zip words) fun (i, w) s => s.hostWrite (CAM_U_WB0.addr u + 4 * i) (BitVec.ofNat 32 w)
    let a := s.get64 CAM_U_TONE_LO u
    let s := s.cond (a != 0) fun s => s.st a ((tone.take 3072).flatMap (bytesOf 2))
    s.calStore u fun x => { x with
      flags := x.flags ||| 1, time := s.ptpSec, tile := s.ldN (s.get64 CHL_CAL_TILE_LO + 8) 8, mean, max := top, tone := tone.take 3072 }

/-- The calibration in progress has its measurements (R336): FLAT takes `cols`; COLOUR takes `found`, `words`, `tone`, `mean` and `top`. -/
def execCalComplete (cols : List Rgb) (found : Bool) (words : List (BitVec 32)) (tone : List (BitVec 16)) (mean top : BitVec 16)
    (s : State) : Res :=
  match s.calRun with
  | none => .next s
  | some c =>
    if c.colour then .next (s.calColour c.unit found (words.map (·.toNat)) (tone.map (·.toNat)) mean.toNat top.toNat)
    else .next (s.calFlat c.unit (cols.map fun p => p.map (·.toNat)))

/-- The daily check of the age of each camera unit's last passed COLOUR calibration (R338). -/
def execCalStale (s : State) : Res :=
  let days := s.get CHL_CAL_MAXAGE_DAYS
  .next (s.each (List.range 8) fun u s =>
    let named := (List.range 12).any fun n => s.on CHL_CH_CTL_EN n && s.get CHL_CH_CTL_UNIT n == u
    let c := s.camCal u
    if named && days != 0 && bitN c.flags 0 && decide (c.time + days * 86400 < s.ptpSec) then s.raise EV_CAL_STALE 255 else s)

end Sys2Proof.Machine
end

