-- ==== Sys2Proof/Machine/Lamps.lean ====
section
/-! DEFINITION. Illumination and status lights (12_lamps): strings and lamp groups, dimming, the switching stage, status chains, the lamp bus,
pattern engines. -/

namespace Sys2Proof.Machine

/-! ### Strings and groups (R343 to R345) -/

/-- The unit-state entry of lamp group `g` (R344). -/
def grpUnit (g : Nat) : Nat := 0x98 + g

/-- The strings of a group with EN = 1. -/
def State.grpStrings (s : State) (g : Nat) : List Nat := (List.range 12).filter fun n => s.on LS_CFG_EN n && s.get LS_CFG_GRP n == g

/-- The running view of group `g` and its causes of STALL (R344). -/
def State.refreshGroup (s : State) (g : Nat) : State :=
  let n := grpUnit g
  let l := s.grpStrings g
  if l.isEmpty then ({ s with causes := smPut (fun _ => []) s.causes n [] } : State).setRun n 0
  else
    let base := if smGet (fun _ => false) s.lampRun g then 2 else 1
    let has := fun (st : Nat) => l.any fun i => s.get LS_STAT_STATE i == st
    let s := s.each [(1, has 2), (2, has 3), (3, has 4), (4, s.swcOvp || s.on SWC_STAT_LATCHED)] fun (c, b) s =>
      if b then s.stall n c else s.unstall n c base
    if (s.stallCauses n).isEmpty then s.setRun n base else s

/-- Every group judged again. -/
def State.refreshGroups (s : State) : State := s.each (List.range 8) fun g s => s.refreshGroup g

/-- The compensation gain G(T) of a colour class at `t` in 0.125 °C, unsigned 2.14 with the fraction dropped (R348). -/
def State.lampGain (s : State) (c : Nat) (t : Int) : Nat :=
  let x := clampI 0 960 (t + 160)
  let i := min 7 (x.toNat / 120)
  let a : Int := s.get LMP_TC_GAIN c i
  let b : Int := s.get LMP_TC_GAIN c (i + 1)
  (a + (b - a) * (x - 120 * i) / 120).toNat

/-- The control temperature of string `n` in 0.125 °C: 25 °C without TS_EN (R348). -/
def State.lampTemp (s : State) (n : Nat) : Int := if s.on LS_CFG_TS_EN n then s.geti LS_MEAS_TEMP n else 200

/-- The regulated current of string `n` in mA, the fraction dropped, and whether a limit acts (R343). -/
def State.lampI (s : State) (n : Nat) : Nat × Bool :=
  let i := s.get LS_ISET_ISET n * s.lampGain (s.get LS_CFG_CLR n) (s.lampTemp n) / 16384
  let r := s.get LS_ISET_RSENSE n
  let lim := min 1500 (if r = 0 then 0 else 300000 / r)
  (min i lim, decide (lim < i))

/-- String `n` may light: enabled, sound, fed, and its mode and group let it (R343, R345, R350, R351). -/
def State.lampMay (s : State) (n : Nat) : Bool :=
  let g := s.get LS_CFG_GRP n
  s.on LS_CFG_EN n && decide (s.get LS_STAT_STATE n < 2) && s.mode != 0 && s.mode != 7 && (s.mode != 5 || s.on LMP_GRP_ATTACH g) &&
    !(s.stopped (grpUnit g)) && s.get SWC_CFG_VMAX != 0 && !s.swcOvp && !(s.on SWC_STAT_LATCHED) &&
    s.get LS_DUTY_DUTY n != 0 && s.get LS_ISET_ISET n != 0 && s.get LS_ISET_RSENSE n != 0

/-- String `n` lights: the current is that of the settings now (R345, R348); its group is RUN (R344). -/
def State.light (s : State) (n : Nat) : State :=
  let (i, lim) := s.lampI n
  let g := s.get LS_CFG_GRP n
  let s := ((s.set LS_STAT_STATE 1 n).put LS_STAT_CLAMP lim n).set LS_MEAS_I i n
  ({ s with lampLit := smPut (fun _ => 0) s.lampLit n (s.clk + 1), lampRun := smPut (fun _ => false) s.lampRun g true } : State).refreshGroup g

/-- String `n` goes dark, in STATE `st`. -/
def State.dark (s : State) (n st : Nat) : State :=
  (({ s with lampLit := smPut (fun _ => 0) s.lampLit n 0 } : State).set LS_STAT_STATE st n).refreshGroup (s.get LS_CFG_GRP n)

/-- The SWC starts with its first enabled string outside BOOT and SAFE; the spec gives no first target: free (R350, log 22). -/
def State.swcStart (s : State) : State :=
  if s.swcTarget.isNone && s.mode != 0 && s.mode != 7 && s.get SWC_CFG_VMAX != 0 && (List.range 12).any fun n => s.on LS_CFG_EN n then
    { s with swcTarget := some (Config.free 14 s.fresh % (25 * s.get SWC_CFG_VMAX + 1)), fresh := s.fresh + 1 }
  else s

/-- The host writes register `i` of string `n` (R345, R351). -/
def State.lsWrite (s : State) (n i : Nat) (v : Word) : State :=
  let a := LS_CFG.addr n + 4 * i
  if i ≠ 0 then s.hostWrite a v
  else
    let old := s.rd a
    let s :=
      if s.on LS_CFG_EN n then
        (s.cond (getBits old 1 20 != getBits v 1 20) fun s => s.put LMP_STAT_CFG_ERR true).put LS_CFG_EN (getBits v 0 1 == 1) n
      else s.hostWrite a v
    let g0 := getBits old 7 3
    let st := s.get LS_STAT_STATE n
    let s :=
      if getBits v 0 1 = 0 then s.dark n (if st = 4 then 4 else 0)
      else ((s.cond (st == 2 || st == 3) fun s => s.set LS_STAT_STATE 0 n).refreshGroup (s.get LS_CFG_GRP n)).swcStart
    s.refreshGroup g0

/-- The host writes LS_CFG of string `n`, EN with it (R345, R351). -/
def execLsEnable (n : Tl) (v : BitVec 32) (s : State) : Res := s.heard <| .next (s.lsWrite n 0 v)

/-- The host writes register `i` of string `n`, from LS_CFG on (R345). -/
def execLsConfigWrite (n : Tl) (i : Fin 8) (v : BitVec 32) (s : State) : Res := s.heard <| .next (s.lsWrite n i v)

/-! ### Dimming (R346, R347) -/

/-- The FREE period of string `n` starts, `dt` SEQ cycles on (R346). -/
def execLampPeriodStart (n : Tl) (dt : Nat) (s : State) : Res :=
  let s := s.elapse dt
  .next (if s.lampMay n && !(s.on LS_CFG_MODE n) then s.light n else s)

/-- PHASE ns after an exposure start of its unit, string `n` lights; a pulse that was still on is cut (R346, R347). -/
def execLockPulseStart (n : Tl) (dt : Nat) (s : State) : Res :=
  let s := s.elapse dt
  if s.lampMay n && s.on LS_CFG_MODE n && s.camOn (s.get LS_CFG_UNIT n) then
    let s := s.cond (s.get LS_STAT_STATE n == 1) fun s =>
      (s.raiseLim EV_LOCK_SHORT 255 n sec1).addSat LS_CNT_LOCK_SHORT 1 n
    .next (s.light n)
  else .next s

/-- The on-time of string `n` ends (R346). -/
def execLampPulseEnd (n : Tl) (s : State) : Res := .next (if s.get LS_STAT_STATE n = 1 then s.dark n 0 else s)

/-- No string of group `g` has lit for 100 ms (R344). -/
def execLampGroupDark (g : Fin 8) (s : State) : Res :=
  if (s.grpStrings g).any fun n => s.get LS_STAT_STATE n == 1 then .next s
  else .next (({ s with lampRun := smPut (fun _ => false) s.lampRun g false } : State).refreshGroup g)

/-! ### Temperature (R348, R349) -/

/-- The control temperature of string `n` from a housekeeping round, in 0.125 °C: its thermal shutdown and return (R348, R349). -/
def State.lampRound (s : State) (n : Nat) (t : Int) : State :=
  let s := s.seti LS_MEAS_TEMP (if s.on LS_CFG_TS_EN n then t else 200) n
  let off := 8 * s.geti LS_TSHUT_TSHUT n
  let st := s.get LS_STAT_STATE n
  if st = 4 then
    if !(s.on LS_CFG_TS_EN n) || decide (t ≤ off - 8 * s.get LS_TSHUT_HYS n) then
      ((s.set LS_STAT_STATE 0 n).raise EV_LS_THERMAL_CLEAR 255).refreshGroup (s.get LS_CFG_GRP n)
    else s
  else if s.on LS_CFG_EN n && s.on LS_CFG_TS_EN n && st < 2 && decide (off ≤ t) then
    ((s.raise EV_LS_THERMAL 255).addSat LS_CNT_THERMAL 1 n).dark n 4
  else s

/-! ### The switching stage (R350, R351) -/

/-- The 20 µs sample: Vds of every string in 10 mV and the output in 10 mV (R350). -/
def execHeadroomSample (vds : List (BitVec 16)) (vout : BitVec 14) (dt : Nat) (s : State) : Res :=
  let s := (s.elapse dt).swcStart
  let s := s.set SWC_STAT_VOUT vout.toNat
  match s.swcTarget with
  | none => .next s
  | some t =>
    let lit := (List.range 12).filter fun n =>
      let a := smGet (fun _ => 0) s.lampLit n
      s.get LS_STAT_STATE n == 1 && a != 0 && decide (a - 1 + 1600 ≤ s.clk)
    let v := fun (n : Nat) => (vds.getD n 0).toNat
    let s := s.each lit fun n s => s.set LS_STAT_VDS (v n) n
    match lit with
    | [] => .next s
    | n :: r =>
      let low := r.foldl (fun m n => min m (v n)) (v n)
      let h := s.get SWC_CFG_HEADROOM
      let top := 25 * s.get SWC_CFG_VMAX
      let high := decide (h + 30 < low)
      let since := s.swcHigh.getD s.clk
      let (t, mark) :=
        if low < h then (min top (t + 10), none)
        else if high then (if since + 800000 ≤ s.clk then (t - 1, some s.clk) else (t, some since))
        else (t, none)
      let s := ({ s with swcTarget := some t, swcHigh := mark } : State).put SWC_STAT_LIMIT (t == top)
      .next (s.cond (t != top) fun s => s.each (List.range 12) fun n s => s.put LS_STAT_DIM false n)

/-- The sense voltage of lit string `n` has stayed below 10 % of target for 20 µs (R351). -/
def execLsOpen (n : Tl) (s : State) : Res :=
  if s.get LS_STAT_STATE n = 1 then .next (((s.raise EV_LS_OPEN 255).addSat LS_CNT_OPEN 1 n).dark n 2) else .next s

/-- Vds of lit string `n` has stayed above HEADROOM + SHORT_V for 1 ms (R351). -/
def execLsShort (n : Tl) (s : State) : Res :=
  if s.get LS_STAT_STATE n = 1 then .next (((s.raise EV_LS_SHORT 255).addSat LS_CNT_SHORT 1 n).dark n 3) else .next s

/-- The target has been at VMAX with low current at string `n` for 1 ms (R351). -/
def execSwcLimit (n : Tl) (s : State) : Res :=
  if s.on SWC_STAT_LIMIT && s.get LS_STAT_STATE n == 1 then
    .next ((s.raiseLim EV_SWC_LIMIT 255 0 sec1).put LS_STAT_DIM true n)
  else .next s

/-- The output exceeds VMAX + 5 %, `dt` SEQ cycles on: switching stops and every string is off; the third within 1 s latches (R351). -/
def execSwcOvp (dt : Nat) (s : State) : Res :=
  let s := (s.elapse dt).swcStart
  if s.swcTarget.isNone || s.swcOvp || s.on SWC_STAT_LATCHED then .next s
  else
    let l := (s.swcOvps.filter fun t => decide (s.clk ≤ t + sec1)) ++ [s.clk]
    let s := (s.raise EV_SWC_OVP 255).addSat SWC_STAT_OVP_CNT 1
    let s : State := { s with swcOvp := true, swcOvps := l }
    let s := s.cond (decide (3 ≤ l.length)) fun s => s.put SWC_STAT_LATCHED true
    let s := s.each (List.range 12) fun n s => if s.get LS_STAT_STATE n = 1 then s.dark n 0 else s
    .next s.refreshGroups

/-- 100 ms after an overvoltage the SWC starts softly again, unless it is latched off (R351). -/
def execSwcSoftRestart (s : State) : Res :=
  if s.swcOvp && !(s.on SWC_STAT_LATCHED) then .next ({ s with swcOvp := false } : State).refreshGroups else .next s

/-- The host writes SWC_CFG, which releases a latched SWC (R351). -/
def execSwcCfgWrite (v : BitVec 32) (s : State) : Res := s.heard <|
  let was := s.on SWC_STAT_LATCHED
  let s := (s.hostWrite SWC_CFG.addr v).put SWC_STAT_LATCHED false
  let s : State := if was then { s with swcOvp := false, swcOvps := [] } else s
  let s : State := if s.get SWC_CFG_VMAX = 0 then { s with swcTarget := none } else s
  .next s.swcStart.refreshGroups

/-! ### Pattern engines (R356) -/

/-- One component of BREATHE at `t` ms (R356). -/
def breathe (a b p t : Nat) : Nat :=
  let x := t % p
  let num : Int := if 2 * x ≤ p then 2 * x else 2 * (p - x)
  ((a : Int) + rdiv (((b : Int) - a) * num) p).toNat

/-- The value engine `e` gives node `k` now (R356). -/
def State.patValue (s : State) (e k : Nat) (bus : Bool) : Nat :=
  let t := (s.clk - (smGet (fun _ => 0) s.patAt e - 1)) / 800000
  let p := s.get PAT_TIME_PERIOD e
  let a := s.get PAT_A_A e
  let b := s.get PAT_B_B e
  let v :=
    if p = 0 then a
    else if s.get PAT_CTL_KIND e = 0 then
      if bus then breathe (a % 65536) (b % 65536) p t
      else breathe (bitsN a 0 8) (bitsN b 0 8) p t + 256 * breathe (bitsN a 8 8) (bitsN b 8 8) p t + 65536 * breathe (bitsN a 16 8) (bitsN b 16 8) p t
    else if s.get PAT_CTL_KIND e = 1 then (if t % p * 256 < s.get PAT_TIME_DUTY e * p then a else b)
    else if s.get PAT_CTL_KIND e = 2 then
      let sp := s.get PAT_TIME_SPACING e
      if sp ≠ 0 ∧ ((k : Int) - s.get PAT_RANGE_FIRST e - (t / p : Nat)) % (sp : Int) = 0 then a else b
    else a
  if bus then v % 65536 else v

/-- The value of node `k` of a target: that of the highest-numbered running engine whose range holds it, else `d` (R356). -/
def State.nodeValue (s : State) (target k d : Nat) : Nat :=
  (List.range 8).foldl (fun v e =>
    if smGet (fun _ => 0) s.patAt e ≠ 0 ∧ s.get PAT_CTL_TARGET e = target ∧ s.get PAT_RANGE_FIRST e ≤ k ∧ k ≤ s.get PAT_RANGE_LAST e then
      s.patValue e k (target == 4)
    else v) d

/-! ### Status chains (R352, R353) -/

/-- The host writes UPDATE of chain `c`: the banks swap at the next frame start (R353). -/
def execSwUpdate (c : Tn) (s : State) : Res := s.heard <| .next { s with chainSwap := smPut (fun _ => false) s.chainSwap c true }

/-- Chain `c` sends a frame, `dt` SEQ cycles on: after UPDATE or when PER ms have passed (R352, R353). -/
def execChainFrameSend (c : Tn) (dt : Nat) (s : State) : Res :=
  let s := s.elapse dt
  let swap := smGet (fun _ => false) s.chainSwap c
  if !(s.on SW_CFG_EN c) || s.mode == 0 || s.get SW_CFG_NODES c == 0 || (!swap && s.get SW_CFG_PER c == 0) then .next s
  else
    let s := s.cond swap fun s =>
      ({ s with chainSwap := smPut (fun _ => false) s.chainSwap c false } : State).put SW_STAT_FRONT (!(s.on SW_STAT_FRONT c)) c
    let bank := s.get SW_STAT_FRONT c
    let words := (List.range (min 1024 (s.get SW_CFG_NODES c))).map fun k => s.nodeValue c k (s.get SW_NODE_VALUE c bank k)
    .next (({ s with chainOut := smPut (fun _ => []) s.chainOut c words } : State).addWrap SW_STAT_FRAMES 1 c)

/-! ### The lamp bus (R354, R355) -/

/-- The level node `m` is to have: in SAFE the one its SAFE field selects, else its pattern or LEVEL (R354 to R356). -/
def State.lbLevel (s : State) (m : Nat) : Nat :=
  if s.mode = 7 then (if s.get LB_NODE_CFG_SAFE m = 2 then s.get LB_LEVEL_SAFE_LEVEL m else 0)
  else s.nodeValue 4 m (s.get LB_LEVEL_LEVEL m)

/-- A node answers: a NAK counts, the third in succession makes it LOST; an ACK clears that (R354). -/
def State.lbAnswer (s : State) (m : Nat) (ack : Bool) : State :=
  if ack then ({ s with lbNak := smPut (fun _ => 0) s.lbNak m 0 } : State).put LB_NODE_STAT_LOST false m
  else
    let n := smGet (fun _ => 0) s.lbNak m + 1
    let s := ({ s with lbNak := smPut (fun _ => 0) s.lbNak m n } : State).addSat LB_NODE_STAT_NAKS 1 m
    s.cond (n == 3) fun s => (s.raise EV_LB_NODE_LOST 255).put LB_NODE_STAT_LOST true m

/-- The lamp bus serves node `m`. -/
def State.lbServes (s : State) (m : Nat) : Bool := s.on LB_CFG_EN && s.on LB_NODE_CFG_EN m && s.mode != 0

/-- The level of node `m` is written, `dt` SEQ cycles on: it has changed, or entry to SAFE selects one (R354, R355). -/
def execLbLevelWrite (m : Fin 16) (ack : Bool) (dt : Nat) (s : State) : Res :=
  let s := s.elapse dt
  let v := s.lbLevel m
  let due := if s.mode = 7 then s.lbSafe.contains m.val else smGet (fun _ => none) s.lbSent m != some v
  if !(s.lbServes m) || !due then .next s
  else
    let s := s.lbAnswer m ack
    .next (if ack then { s with lbSent := smPut (fun _ => none) s.lbSent m (some v), lbSafe := s.lbSafe.filter (· != m.val) } else s)

/-- The status byte of node `m` is read at its POLL (R354). -/
def execLbPoll (m : Fin 16) (ack : Bool) (st : BitVec 8) (s : State) : Res :=
  if !(s.lbServes m) || s.get LB_CFG_POLL == 0 then .next s
  else .next ((s.cond ack fun s => s.set LB_NODE_STAT_STATUS st.toNat m).lbAnswer m ack)

/-- SDA has been low for 10 ms: nine clocks and a stop are sent; `low`: the bus stays low (R354). -/
def execLbBusStuck (low : Bool) (s : State) : Res :=
  if low && s.on LB_CFG_EN && s.mode != 0 then .next (s.raise EV_LB_BUS_STUCK 255) else .next s

end Sys2Proof.Machine
end

