-- ==== Sys2Proof/Machine/Video.lean ====
section
/-! DEFINITION. Video coding and display output (13_video): contexts, encoding under a budget, decoding and concealment, the DisplayPort link. What H.265 leaves
to an encoder, and the samples that H.265 decoding gives, are operands (log 23). -/

namespace Sys2Proof.Machine

/-! ### Contexts (R362) -/

/-- Encode context `c`'s own state. -/
def State.ec (s : State) (c : Nat) : EncCtx := smGet (fun _ => EncCtx.empty) s.encCtx c
/-- Encode context `c`'s own state replaced. -/
def State.setEc (s : State) (c : Nat) (x : EncCtx) : State := { s with encCtx := smPut (fun _ => EncCtx.empty) s.encCtx c x }
/-- Decode context `c`'s own state. -/
def State.dc (s : State) (c : Nat) : DecCtx := smGet (fun _ => DecCtx.empty) s.decCtx c
/-- Decode context `c`'s own state replaced. -/
def State.setDc (s : State) (c : Nat) (x : DecCtx) : State := { s with decCtx := smPut (fun _ => DecCtx.empty) s.decCtx c x }

/-- The host writes a configuration register of a codec context, only while EN is 0 (R362): `dec` the decode contexts; `i` the register from CFG on. A context opens
with nothing of the stream before. -/
def State.vidWrite (s : State) (dec : Bool) (c i : Nat) (v : Word) : State :=
  let a := (if dec then VID_DEC_CFG.addr c else VID_ENC_CFG.addr c) + 4 * i
  let en := if dec then s.on VID_DEC_CFG_EN c else s.on VID_ENC_CFG_EN c
  if en then s.put VID_STAT_CFG_ERR true
  else
    let s := s.hostWrite a v
    if i ≠ 0 then s else if dec then s.setDc c DecCtx.empty else s.setEc c EncCtx.empty

/-- The host writes a configuration register of a codec context (R362). -/
def execVidCfgWrite (dec : Bool) (c : Fin 8) (i : Fin 12) (v : BitVec 32) (s : State) : Res := s.heard <|
  .next (if dec && decide (4 < i.val) then s else s.vidWrite dec c i v)

/-! ### Encoding (R363 to R371) -/

/-- An ENC_OUT entry on Q49 (R364, R426). -/
def State.encEntry (s : State) (p : EncPic) (status wr : Nat) : State :=
  s.qSend 49 ⟨4, status, p.ctx, 0, p.tag, false,
    [BitVec.ofNat 32 p.time, BitVec.ofNat 32 (p.time / 2 ^ 32), BitVec.ofNat 32 wr, BitVec.ofNat 32 p.bytes.length, BitVec.ofNat 32 p.poc,
      BitVec.ofNat 32 (p.type + 65536 * (p.qp % 65536)), BitVec.ofNat 32 p.rc]⟩

/-- HARD_CAP in bytes; 0 means the largest picture of Level 5.1, which no rule gives: free (R369, log 23). -/
def State.hardCap (s : State) (c : Nat) : Nat :=
  let v := s.get VID_ENC_CAP_HARD_CAP c
  if v = 0 then Config.free 16 0 else v

/-- R ÷ F in bits, whole bits (R368). -/
def State.encShare (s : State) (c : Nat) : Nat :=
  let n := s.get VID_ENC_FPS_NUM c
  if n = 0 then 0 else s.get VID_ENC_RATE_RATE c * 1000 * s.get VID_ENC_FPS_DEN c / n

/-- The fullness of the hypothetical decoder buffer; before the first picture the spec gives none: free (R368). -/
def State.encFull (s : State) (c : Nat) : Nat :=
  (s.ec c).full.getD (Config.free 15 s.fresh % (s.get VID_ENC_BUF_BUFSIZE c + 1))

/-- The budget B of a picture in bits, none in CQP (R368). -/
def State.encBudget (s : State) (c : Nat) : Option Int :=
  let m := s.get VID_ENC_RC_MODE c
  let share : Int := s.encShare c
  let b := clampI (share / 4) (8 * s.hardCap c) (share + ((s.get VID_ENC_BUFTGT_BUFTGT c : Int) - s.encFull c) / 8)
  if m = 1 then some b
  else if m = 2 then some (if s.encFull c < s.get VID_ENC_BUFTGT_BUFTGT c then min b share else b)
  else none

/-- RC of a picture from the bits of each CTU as the encoder would code it, CTU by CTU (R369, R370): `i` the next CTU, `n` CTUs in all, `w` per row, `spent` so far. -/
def rcOf (budget : Option Int) (cap w n : Nat) (ipic : Bool) (ctus : List Nat) (i spent rc : Nat) : Nat :=
  match ctus with
  | [] => rc
  | b :: r =>
    if n ≤ i then rc
    else
      let row := i / (max 1 w)
      let spentOut : Bool := match budget with | some x => decide (x ≤ spent) | none => false
      let rc := if i % (max 1 w) = 0 ∧ row ≠ 0 ∧ spentOut ∧ rc % 2 = 0 then rc + 1 + 256 * (row % 256) else rc
      let t := spent + b
      if 8 * cap < t + 8 * (n - i - 1) + 64 then rc + (if ipic then 4 else 2) + 65536 * (i % 65536)
      else rcOf budget cap w n ipic r (i + 1) t rc

/-- The rows of an input picture that the encoder reads meet a poisoned burst (R366). -/
def State.encPoison (s : State) (c y ch stride : Nat) : Bool :=
  let w := s.get VID_ENC_SIZE_W c * (if s.get VID_ENC_CFG_PROFILE c = 1 then 2 else 1)
  let h := s.get VID_ENC_SIZE_H c
  ((List.range h).any fun i => s.bad (y + i * stride) w) || (List.range (h / 2)).any fun i => s.bad (ch + i * stride) w

/-- Type of the next picture of a context: 0 IDR, 1 CRA, 2 P (R360, R364, R365, R380). -/
def State.encType (s : State) (c flags : Nat) : Nat :=
  let x := s.ec c
  let per := s.get VID_ENC_CFG_IPERIOD c
  if x.idr then 0
  else if bitN flags 0 ∨ s.get VID_ENC_CFG_PROFILE c = 2 ∨ (per ≠ 0 ∧ per ≤ x.since) then (if s.on VID_ENC_CFG_CRA c then 1 else 0)
  else 2

/-- The encoder takes the next submission from Q48 and codes its picture (R363, R366, R368 to R371): `ctus` the bits of each CTU as it would code it, `out` the coded
picture, `qp` the mean QP × 16. It waits while the ring has no room for HARD_CAP. -/
def execEncSubmit (ctus : List Nat) (out : List Byte) (qp : BitVec 16) (s : State) : Res :=
  if s.encRun.isSome || s.mode == 0 then .next s
  else
    match s.takeSub 48 with
    | none => .next s
    | some (x, t) =>
      let c := subF32 x 0x10 % 256
      let time := subF64 x 0x30
      let p : EncPic := ⟨x.tag, c, x.flags, time, 0, 0, 0, [], 0, 0⟩
      if 8 ≤ c ∨ !x.zeros then .next (t.encEntry p 5 0)
      else if !(s.on VID_ENC_CFG_EN c) then .next (t.encEntry p 1 0)
      else if bitN x.flags 2 then
        .next (({ t with encLast := some (x.tag, c) } : State).encEntry p 0 (s.get VID_ENC_OUT_WR_WR c) |>.put VID_ENC_CFG_EN false c)
      else
        let used := (s.get VID_ENC_OUT_WR_WR c + 2 ^ 32 - s.get VID_ENC_OUT_RD_RD c) % 2 ^ 32
        let cap := s.hardCap c
        if s.get VID_ENC_OUT_SIZE_SIZE c < used + cap then
          .next (if s.encStall then s else ({ s with encStall := true } : State).raise EV_ENC_OUT_FULL 255)
        else
          let y := subF64 x 0x18
          let ch := subF64 x 0x20
          let stride := subF32 x 0x28
          let type := s.encType c x.flags
          let poc := if type = 0 then 0 else (s.ec c).poc
          let cols := cdiv (s.get VID_ENC_SIZE_W c) 64
          let n := cols * cdiv (s.get VID_ENC_SIZE_H c) 64
          let rc := rcOf (s.encBudget c) cap cols n (type != 2) ctus 0 0 0
          let poison := s.encPoison c y ch stride
          let bytes := out.take cap
          let full := clampI 0 (s.get VID_ENC_BUF_BUFSIZE c) (s.encFull c + s.encShare c - 8 * bytes.length)
          let t : State := { t with encStall := false, fresh := t.fresh + 1,
                                    encRun := some { p with status := if poison then 2 else 0, type, poc, bytes, qp := qp.toNat, rc } }
          let t := t.setEc c ⟨false, if type = 2 then (s.ec c).since + 1 else 1, poc + 1, some full.toNat⟩
          let t := (t.put VID_STAT_ENC_BUSY true).set VID_STAT_ENC_CTX c
          let t := t.cond poison fun t => (t.raise EV_ENC_POISON 255).addSat VID_ENC_CNT_POISON 1 c
          .next (t.cond (rc % 8 != 0) fun t => (t.raiseLim EV_ENC_BUDGET 255 c sec1).addSat VID_ENC_CNT_BUDGET 1 c)

/-- Bytes written into an encode context's ring, wrapping (R371). -/
def State.encRing (s : State) (c wr : Nat) (l : List Byte) : State :=
  let size := s.get VID_ENC_OUT_SIZE_SIZE c
  let base := s.get64 VID_ENC_OUT_LO c
  let at_ := if size = 0 then 0 else wr % size
  let l := l.map fun b => b.toNat
  if size = 0 then s else (s.st (base + at_) (l.take (size - at_))).st base (l.drop (size - at_))

/-- The encoder's picture is complete: its bytes stand in the output ring, its entry goes to Q49 (R364, R371); with CLOSE the stream ends (R362). -/
def execEncPictureDone (s : State) : Res :=
  match s.encRun with
  | none => .next s
  | some p =>
    let wr := s.get VID_ENC_OUT_WR_WR p.ctx
    let s := (s.encRing p.ctx wr p.bytes).set VID_ENC_OUT_WR_WR (wr + p.bytes.length) p.ctx
    let s := (({ s with encRun := none, encLast := some (p.tag, p.ctx) } : State).put VID_STAT_ENC_BUSY false).addWrap VID_ENC_PICS_PICS 1
    .next ((s.encEntry p p.status wr).cond (bitN p.flags 1) fun s => s.put VID_ENC_CFG_EN false p.ctx)

/-- The host advances RD of encode context `c` (R371). -/
def execEncOutRdWrite (c : Fin 8) (v : BitVec 32) (s : State) : Res := s.heard <| .next (s.set VID_ENC_OUT_RD_RD v.toNat c)

/-- Submissions discarded from a queue. -/
def State.dropSubs (s : State) (q : Nat) : List Sub × State := ((s.qu q).fetched, s.setQu q { s.qu q with fetched := [] })

/-- The host aborts encoding (R365): the picture in progress and the queue complete ABORTED; past its completion, ALREADY_DONE. -/
def execEncAbort (s : State) : Res := s.heard <|
  let (l, s) := s.dropSubs 48
  let gone := fun (x : Sub) => (⟨x.tag, subF32 x 0x10 % 256, x.flags, subF64 x 0x30, 0, 0, 0, [], 0, 0⟩ : EncPic)
  let s := match s.encRun with
    | some p =>
      let s := ({ s with encRun := none } : State).put VID_STAT_ENC_BUSY false
      (s.setEc p.ctx { s.ec p.ctx with idr := true }).encEntry { p with bytes := [] } 3 0
    | none =>
      match s.encLast, l with
      | some (tag, c), [] => s.encEntry ⟨tag, c, 0, 0, 0, 0, 0, [], 0, 0⟩ 4 0
      | _, _ => s
  .next (({ s with encStall := false } : State).each l fun x s =>
    let p := gone x
    (s.setEc p.ctx { s.ec p.ctx with idr := true }).encEntry p 3 0)

/-! ### Decoding (R363, R372 to R376) -/

/-- A DEC_OUT entry on Q51 (R364, R426). -/
def State.decEntry (s : State) (tag c status slot flags nconc poc : Nat) : State :=
  s.qSend 51 ⟨5, status, c, 0, tag, false, [BitVec.ofNat 32 (slot % 256 + 256 * (flags % 256) + 65536 * (min nconc 65535)), BitVec.ofNat 32 poc]⟩

/-- A picture's lines with the samples of its lost CTUs concealed (R373): from the co-located samples of the last correctly decoded picture, else mid-grey. `n` is the CTU size
in samples of the plane down, `m` across (chroma lines hold two samples per place). -/
def concealPlane (mid : Nat) (n m perRow : Nat) (lost : List Nat) (l : List (List (BitVec 16))) (good : Option (List (List (BitVec 16)))) : List (List (BitVec 16)) :=
  ((List.range l.length).zip l).map fun (j, r) =>
    ((List.range r.length).zip r).map fun (i, v) =>
      if lost.contains (j / (max 1 n) * perRow + i / (max 1 m)) then
        match good with
        | some g => (g.getD j []).getD i (BitVec.ofNat 16 mid)
        | none => BitVec.ofNat 16 mid
      else v

/-- A picture concealed (R373). -/
def conceal (p : DecPic) (good : Option DecPic) : DecPic :=
  if p.lost.isEmpty then p
  else
    let k := p.ctb.toNat
    let mid := if p.deep then 512 else 128
    let perRow := cdiv (p.y.headD []).length k
    { p with y := concealPlane mid k k perRow p.lost p.y (good.map fun g => g.y), c := concealPlane mid (k / 2) k perRow p.lost p.c (good.map fun g => g.c) }

/-- A decoded picture taken into context `c` (R373 to R375). -/
def State.decPic (s : State) (c tag : Nat) (p : DecPic) : State :=
  let d := s.dc c
  if d.wait && !p.irap then s
  else
    let clean := p.errs == 0 && p.lost.isEmpty && !p.missing
    let s := s.cond (p.errs != 0) fun s => (s.raiseLim EV_DEC_ERROR 255 c sec1 [c, p.poc.toNat]).addSat VID_DEC_CNT_ERR p.errs c
    let s := s.cond p.missing fun s => s.raiseLim EV_DEC_MISSING_REF 255 c sec1
    let ends := d.mark && p.irap && clean
    let s := s.cond ends fun s => s.raise EV_DEC_CLEAR 255
    let mark := if p.irap && clean then false else d.mark || p.errs != 0 || p.missing
    let q := conceal p d.good
    let fl := b2n mark + 2 * b2n (p.errs != 0) + 4 * b2n p.missing + 8 * b2n p.hash + 16 * b2n p.rasl
    let good := if clean && !mark then some p else d.good
    (s.setDc c { d with mark, good, wait := false, held := d.held ++ [⟨tag, fl, p.lost.length, q⟩] }).addWrap VID_DEC_PICS_PICS 1

/-- A picture put by its POC among others. -/
def putPoc (x : DecOut) (l : List DecOut) : List DecOut :=
  match l with
  | [] => [x]
  | y :: r => if x.pic.poc.toInt < y.pic.poc.toInt then x :: y :: r else y :: putPoc x r

/-- The decoder takes the next submission from Q50 (R363): `pics` the pictures it decodes, in decode order; `outs` for each picture that the stream's SPS releases, in output order, its place
among those held. FLUSH and CLOSE release every held picture (R376). -/
def execDecSubmit (pics : List DecPic) (outs : List Nat) (s : State) : Res :=
  if s.mode = 0 ∨ (List.range 8).any (fun c => !(s.dc c).out.isEmpty) then .next s
  else
    match s.takeSub 50 with
    | none => .next s
    | some (x, s) =>
      let c := subF32 x 0x10 % 256
      let n := subF32 x 0x20
      if 8 ≤ c ∨ !(s.on VID_DEC_CFG_EN c) then .next (s.decEntry x.tag c 1 0 0 0 0)
      else
        let s := s.cond (n == 0) fun s => s.decEntry x.tag c 0 0 0 0 0
        let s := if n = 0 then s else (s.saw (subF64 x 0x18) n).each pics fun p s => s.decPic c x.tag p
        let s := if n = 0 then s else s.each outs fun i s =>
          let d := s.dc c
          match d.held[i]? with
          | some p => s.setDc c { d with held := d.held.eraseIdx i, out := d.out ++ [p] }
          | none => s
        let d := s.dc c
        let s := if x.flags % 4 = 0 then s else s.setDc c { d with held := [], out := d.out ++ d.held.foldr putPoc [] }
        let s := s.cond (bitN x.flags 1) fun s => s.setDc c { s.dc c with close := true }
        let s := s.cond (bitN x.flags 1 && (s.dc c).out.isEmpty) fun s => (s.put VID_DEC_CFG_EN false c).setDc c DecCtx.empty
        .next ((s.put VID_STAT_DEC_BUSY (!(s.dc c).out.isEmpty)).set VID_STAT_DEC_CTX c)

/-- A line of samples as bytes (R361, R380). -/
def decLine (p010 deep : Bool) (l : List (BitVec 16)) : List Nat :=
  l.flatMap fun v =>
    let v := v.toNat
    if p010 then bytesOf 2 ((if deep then v else v * 4) * 64) else [(if deep then v / 4 else v) % 256]

/-- The next picture of decode context `c` in output order is written to its slot and reported, when a slot is free (R376). -/
def execDecPictureOut (c : Fin 8) (s : State) : Res :=
  let d := s.dc c
  let nb := s.get VID_DEC_BUF_CFG_NBUF c
  match d.out with
  | [] => .next s
  | o :: r =>
    if nb ≤ (d.n + 2 ^ 32 - s.get VID_DEC_RD_RD c) % 2 ^ 32 then .next s
    else
      let slot := d.n % nb
      let a := s.get64 VID_DEC_BUF_LO c + slot * (s.get VID_DEC_BUF_CFG_SLOT c * 64)
      let stride := s.get VID_DEC_STRIDE_STRIDE c
      let f := decLine (s.on VID_DEC_CFG_FMT c) o.pic.deep
      let s := s.each ((List.range o.pic.y.length).zip o.pic.y) fun (j, l) s => s.st (a + j * stride) (f l)
      let s := s.each ((List.range o.pic.c.length).zip o.pic.c) fun (j, l) s => s.st (a + (o.pic.y.length + j) * stride) (f l)
      let s := s.cond (o.flags % 2 == 1) fun s => s.addSat VID_DEC_CNT_CONC 1 c
      let s := s.decEntry o.tag c 0 slot o.flags o.nconc o.pic.poc.toNat
      let s : State := { s with decLast := some (o.tag, c.val) }
      let s := s.setDc c { d with out := r, n := (d.n + 1) % 2 ^ 32 }
      let s := s.cond (r.isEmpty && d.close) fun s => (s.put VID_DEC_CFG_EN false c).setDc c DecCtx.empty
      .next (s.cond r.isEmpty fun s => s.put VID_STAT_DEC_BUSY false)

/-- The host advances RD of decode context `c` (R376). -/
def execDecRdWrite (c : Fin 8) (v : BitVec 32) (s : State) : Res := s.heard <| .next (s.set VID_DEC_RD_RD v.toNat c)

/-- The host aborts decoding (R365). -/
def execDecAbort (s : State) : Res := s.heard <|
  let (l, s) := s.dropSubs 50
  let busy := (List.range 8).filter fun c => !(s.dc c).out.isEmpty
  let s := if busy.isEmpty && l.isEmpty then
      match s.decLast with
      | some (tag, c) => s.decEntry tag c 4 0 0 0 0
      | none => s
    else s
  let s := s.each busy fun c s =>
    let d := s.dc c
    (s.each d.out fun o s => s.decEntry o.tag c 3 0 0 0 o.pic.poc.toNat).setDc c { d with out := [], wait := true }
  let s := s.each l fun x s =>
    let c := subF32 x 0x10 % 256
    (s.setDc c { s.dc c with wait := true }).decEntry x.tag c 3 0 0 0 0
  .next (s.put VID_STAT_DEC_BUSY false)

/-! ### DisplayPort (R377, R378) -/

/-- Lane rate in kb/s by RATE (R377). -/
def dpRate (r : Nat) : Nat := if r = 0 then 1620000 else if r = 1 then 2700000 else if r = 2 then 5400000 else 8100000

/-- A register as EN last applied it (R380): `i` from DP_CFG on. -/
def State.dpReg (s : State) (i : Nat) : Word := s.dpRegs.getD i 0

/-- The display link has trained to `got` lanes and rate, or not at all; the stream starts when it fits (R378). -/
def State.dpTrain (s : State) (got : DpGot) : State :=
  if getBits (s.dpReg 0) 0 1 = 0 ∨ !(s.on DP_STAT_HPD) then s.set DP_STAT_LINK 0
  else
    match got with
    | none => s.set DP_STAT_LINK 0
    | some (l, r) =>
      let s := (s.set DP_STAT_T_LANES l.val).set DP_STAT_T_RATE r.val
      let bpc := 6 + 2 * getBits (s.dpReg 0) 5 2
      if getBits (s.dpReg 2) 0 20 * 3 * bpc * 5 ≤ 4 * (2 ^ l.val * dpRate r.val) then
        (s.set DP_STAT_LINK 2).raise EV_DP_LINK_UP 255 [l.val, r.val]
      else (s.set DP_STAT_LINK 3).raise EV_DP_NO_FIT 255

/-- The host writes DP_CFG: EN from 0 to 1 applies the timing and trains the link, with the outcome `got` (R378, R380). -/
def execDpEnable (v : BitVec 32) (got : DpGot) (s : State) : Res := s.heard <|
  let was := s.on DP_CFG_EN
  let s := s.hostWrite DP_CFG.addr v
  if s.on DP_CFG_EN && !was then
    .next (({ s with dpRegs := (List.range 7).map fun i => s.rd (DP_CFG.addr + 4 * i) } : State).dpTrain got)
  else if was && !(s.on DP_CFG_EN) then .next (({ s with dpRegs := [] } : State).set DP_STAT_LINK 0)
  else .next s

/-- HPD goes high; the link trains with the outcome `got` (R378). -/
def execDpHpdRise (got : DpGot) (s : State) : Res := .next ((s.put DP_STAT_HPD true).dpTrain got)

/-- HPD has fallen for more than 2 ms, or by a pulse the sink reports loss of lock: the link retrains once HPD is high (R378). -/
def execDpLinkDown (pulse : Bool) (got : DpGot) (s : State) : Res :=
  let s := s.put DP_STAT_HPD (pulse && s.on DP_STAT_HPD)
  let up := s.get DP_STAT_LINK
  let s := s.cond (2 ≤ up) fun s => ((s.raise EV_DP_LINK_DOWN 255).addSat DP_STAT_DOWNS 1).set DP_STAT_LINK 0
  .next (if pulse then s.dpTrain got else s)

/-- The host writes DP_AUX_CMD: a transaction starts with GO unless one runs (R377). -/
def execDpAuxGo (v : BitVec 32) (s : State) : Res := s.heard <|
  if getBits v 0 1 = 0 ∨ s.on DP_AUX_STAT_BUSY ∨ getBits v 3 5 = 0 ∨ 16 < getBits v 3 5 then .next s
  else .next (({ s with auxCmd := some v } : State).put DP_AUX_STAT_BUSY true)

/-- The AUX transaction ends; an acknowledged read puts its bytes into DP_AUX_DATA (R377). -/
def execDpAuxDone (result : Fin 4) (d : List Byte) (s : State) : Res :=
  match s.auxCmd with
  | none => .next s
  | some v =>
    let n := getBits v 3 5
    let s := ((({ s with auxCmd := none } : State).put DP_AUX_STAT_BUSY false).set DP_AUX_STAT_RESULT result.val)
    .next (if result.val = 0 ∧ getBits v 1 1 = 0 then
        s.each (List.range n) fun i s => s.set { DP_AUX_DATA_DATA with lo := 8 * (i % 4), width := 8 } (d.getD i 0).toNat (i / 4)
      else s)

end Sys2Proof.Machine
end

