-- ==== Sys2Proof/Machine/Time.lean ====
section
/-! DEFINITION. Network time (14_time): the Ethernet switch and the transparent clock (R381 to R385), the clock, its servo and its steps (R386 to
R391), time-pulse outputs (R392). Times of PTP messages are in 2^-16 ns. -/

namespace Sys2Proof.Machine

/-! ### The switch (R381, R382) -/

/-- A big-endian number in a frame. -/
def beNum (l : List Byte) (o n : Nat) : Nat := ((l.drop o).take n).foldl (fun r b => 256 * r + b.toNat) 0

/-- Bytes of a frame replaced by a big-endian number. -/
def bePut (l : List Byte) (o n v : Nat) : List Byte :=
  l.take o ++ (List.range n).map (fun i => BitVec.ofNat 8 (v / 256 ^ (n - 1 - i))) ++ l.drop (o + n)

/-- A port carries frames: NI always, N0 and N1 while enabled and in block lock. -/
def State.portUp (s : State) (p : Nat) : Bool := p == 2 || (s.on TIM_NET_CFG_EN p && s.on TIM_NET_STAT_LOCK p)

/-- The MAC address of NI, from the board record (R381, R455). -/
def State.ownMac (s : State) : Nat :=
  match s.cal with
  | some r => beNum (r.board.map (BitVec.ofNat 8)) 2 6
  | none => 0

/-- Peer-delay messages go to this address and never cross the switch (R382). -/
def peerDelayMac : Nat := 0x0180C200000E

/-- The ports that a frame from port `p` to address `d` goes out of (R382). -/
def State.outPorts (s : State) (p d : Nat) : List Nat :=
  let l := if d = peerDelayMac then (if p = 2 then [] else [2])
    else if d / 2 ^ 40 % 2 = 0 ∧ d = s.ownMac then [2]
    else
      let k := smGet (fun _ => 0) s.tim.macTab d
      if d / 2 ^ 40 % 2 = 0 ∧ k ≠ 0 then [k - 1] else [0, 1, 2]
  l.filter fun q => q != p && s.portUp q

/-- A source address learnt: at most 1,024 entries, no group address (R382). -/
def State.learn (s : State) (a p : Nat) : State :=
  if a / 2 ^ 40 % 2 = 1 ∨ (smGet (fun _ => 0) s.tim.macTab a = 0 ∧ 1024 ≤ s.tim.macTab.length) then s
  else { s with tim.macTab := smPut (fun _ => 0) s.tim.macTab a (p + 1) }

/-- The offset of the PTP header of an event message in a frame, and of a UDP checksum before it; by TRANSPORT (R383, R385; IEEE 1588 Annexes C and E). -/
def State.ptpAt (s : State) (f : List Byte) : Option (Nat × Option Nat) :=
  let t := s.get TIM_CTL_TRANSPORT
  let ip := 14 + 4 * (beNum f 14 1 % 16)
  let r := if beNum f 12 2 = 0x88F7 ∧ (t = 0 ∨ t = 2) then some (14, none)
    else if beNum f 12 2 = 0x0800 ∧ beNum f 14 1 / 16 = 4 ∧ beNum f 23 1 = 17 ∧ beNum f (ip + 2) 2 = 319 ∧ (t = 1 ∨ t = 2) then some (ip + 8, some (ip + 6))
    else none
  match r with
  | some (o, c) => if beNum f o 1 % 16 < 4 ∧ o + 34 ≤ f.length then some (o, c) else none
  | none => none

/-- ING_LAT of a port; NI has none (R384). -/
def State.ingLat (s : State) (p : Nat) : Int := if p < 2 then s.geti TIM_ING_LAT_ING_LAT p else 0

/-- EGR_LAT of a port; NI has none (R384). -/
def State.egrLat (s : State) (p : Nat) : Int := if p < 2 then s.geti TIM_EGR_LAT_EGR_LAT p else 0

/-- The transparent clock's update of a frame from port `p` to port `q` with its raw stamps (R384, R385): residence, for a Sync in peer-to-peer mode the ingress
link's delay too, the UDP checksum made 0. -/
def State.tcUpdate (s : State) (f : List Byte) (p q : Nat) (tin tout : Int) : List Byte :=
  if s.on TIM_CTL_TC_EN then
    match s.ptpAt f with
    | some (o, c) =>
      let res := (tout + s.egrLat q) - (tin - s.ingLat p)
      let link : Int := if s.on TIM_CTL_P2P ∧ beNum f o 1 % 16 = 0 ∧ p < 2 then s.get TIM_PDELAY_PDELAY p + s.geti TIM_ASYM_ASYM p else 0
      let f := bePut f (o + 8) 8 (ux 64 (sx 64 (beNum f (o + 8) 8) + res + link))
      match c with
      | some c => bePut f c 2 0
      | none => f
    | none => f
  else f

/-- A frame put out at a port. -/
def State.netFrame (s : State) (q : Nat) (f : List Byte) : State :=
  let s : State := { s with tim.netOut := smPut (fun _ => []) s.tim.netOut q f }
  s.cond (decide (q < 2)) fun s => s.addWrap TIM_CNT_TX_FRAMES 1 q

/-- The switch receives a frame at port `p` (2: NI), its FCS good or not, buffer space found or not, with its raw ingress stamp and the raw stamps at which N0, N1
and NI put it out (R382, R384, R385). -/
def execNetFrameRx (p : Fin 3) (f : List Byte) (fcs room : Bool) (tin : Int) (tout : List Int) (s : State) : Res :=
  let p := p.val
  if !(s.portUp p) then .next s
  else
    let s := s.cond (decide (p < 2)) fun s => s.addWrap TIM_CNT_RX_FRAMES 1 p
    if !fcs then .next (s.cond (decide (p < 2)) fun s => s.addSat TIM_CNT_ERR_FCS 1 p)
    else if !room ∨ f.length < 60 ∨ 9212 < f.length then .next (s.cond (decide (p < 2)) fun s => s.addSat TIM_CNT_ERR_DROP 1 p)
    else
      let s := s.learn (beNum f 6 6) p
      .next (s.each (s.outPorts p (beNum f 0 6)) fun q s => s.netFrame q (s.tcUpdate f p q tin (tout.getD q 0)))

/-- A learnt address ages out after 300 s (R382). -/
def execMacAgeOut (a : BitVec 48) (s : State) : Res := .next { s with tim.macTab := smPut (fun _ => 0) s.tim.macTab a.toNat 0 }

/-- A port gains block lock (R381, R393). -/
def execNetLinkUp (n : Fin 2) (s : State) : Res :=
  .next (if s.on TIM_NET_CFG_EN n && !(s.on TIM_NET_STAT_LOCK n) then
      ((s.put TIM_NET_STAT_LOCK true n).set TIM_NET_STAT_PTP_STATE (if s.on TIM_CTL_OC_EN then 4 else 3) n).raise EV_NET_LINK_UP 255 [(n.val : Int)]
    else s)

/-- A port out of block lock. -/
def State.netDown (s : State) (n : Nat) : State :=
  if s.on TIM_NET_STAT_LOCK n then ((s.put TIM_NET_STAT_LOCK false n).set TIM_NET_STAT_PTP_STATE 2 n).raise EV_NET_LINK_DOWN 255 else s

/-- A port loses block lock (R393). -/
def execNetLinkDown (n : Fin 2) (s : State) : Res := .next (s.netDown n)

/-! ### The clock (R386, R387, R390) -/

/-- 2^-48 / 25 ns in one ns. -/
def nsUnit : Nat := 25 * 2 ^ 48

/-- PTP time in 2^-16 ns, the upper seconds with it (R386). -/
def State.now16 (s : State) : Int :=
  ((s.get TIM_SEC_HI_SEC_HI * 2 ^ 32 + s.ptpSec) * 1000000000 + s.ptpNs : Nat) * 65536 + (s.nsFrac * 65536 / nsUnit : Nat)

/-- The NET ticks until NS passes 0, and the SEQ cycles that they take (R386, R387). -/
def State.toWrap (s : State) : Nat :=
  let rate := (64 * ((2 : Int) ^ 48 + s.geti64 TIM_ADJ_LO)).toNat
  let left := (2 ^ 32 - s.get TIM_NS) * nsUnit - s.nsFrac
  let ticks := cdiv left rate
  cdiv (ticks * 256 - s.netAcc) 125

/-- NS passes 0, and the epoch advances by one wrap (R386). -/
def execNsWrap (s : State) : Res := .next (s.elapse s.toWrap)

/-! ### Time-pulse outputs (R390, R392) -/

/-- Time-pulse output `k`'s own state. -/
def State.tp (s : State) (k : Nat) : Tpo := smGet (fun _ => Tpo.empty) s.tim.tpo k
/-- Time-pulse output `k`'s own state replaced. -/
def State.setTp (s : State) (k : Nat) (x : Tpo) : State := { s with tim.tpo := smPut (fun _ => Tpo.empty) s.tim.tpo k x }

/-- START of an output in ns. -/
def State.tpoStart (s : State) (k : Nat) : Int := (s.get TPO_START_SEC k * 1000000000 + s.get TPO_START_NS_START k : Nat)

/-- The first edge of output `k` after `e`, by START and PERIOD as they are now; none with PERIOD 0 once START is past (R392). -/
def State.tpoNext (s : State) (k : Nat) (e : Int) : Option Int :=
  let a := s.tpoStart k
  let p := s.get TPO_PERIOD k
  if e < a then some a else if p = 0 then none else some (a + p * ((e - a) / p + 1))

/-- Output `k` goes active at `e` (R392): WIDTH 0 gives no pulse. -/
def State.tpoRise (s : State) (k : Nat) (e : Int) : State :=
  let w := s.get TPO_WIDTH k
  if w = 0 then s.setTp k { s.tp k with next := s.tpoNext k e }
  else (s.setTp k ⟨s.tpoNext k e, some (e + w), true⟩).addWrap TPO_STAT_PULSES 1 k

/-- A scheduled edge of output `k` falls due: the end of a pulse, or the start of the next, which holds an output of WIDTH ≥ PERIOD active (R392). -/
def execTpoEdge (k : Fin 8) (s : State) : Res :=
  let t := s.tp k
  if s.get TPO_CFG_SRC k ≠ 1 ∨ s.mode = 0 then .next s
  else
    match t.fall, t.next with
    | some f, some e => if f < e then .next (s.setTp k { t with fall := none, high := false }) else .next (s.tpoRise k e)
    | some _, none => .next (s.setTp k { t with fall := none, high := false })
    | none, some e => .next (s.tpoRise k e)
    | none, none => .next s

/-- TPO_CFG written: ARM schedules the first edge, clearing it ends the repetition; another source ends a scheduled pulse (R392). -/
def State.tpoCfg (s : State) (k : Nat) (v : Word) : State :=
  let was := s.on TPO_CFG_ARM k
  let s := s.hostWrite (TPO_CFG.addr k) v
  let arm := s.on TPO_CFG_ARM k
  let s := if arm && !was then
      let a := s.tpoStart k
      s.setTp k { s.tp k with next := some (if s.get TPO_PERIOD k = 0 ∨ s.nowNs ≤ a then a else (s.tpoNext k (s.nowNs - 1)).getD a) }
    else if !arm then s.setTp k { s.tp k with next := none }
    else s
  let s := s.cond (s.get TPO_CFG_SRC k != 1) fun s => s.setTp k { s.tp k with fall := none, high := false }
  if s.get TPO_CFG_SRC k = 2 then s else { s with tpPulse := smPut (fun _ => false) s.tpPulse k false }

/-- The host writes TPO_CFG of output `k` (R392). -/
def execTpoArm (k : Fin 8) (v : BitVec 32) (s : State) : Res := s.heard <| .next (s.tpoCfg k v)

/-- What a forward step to `new` does to the edges of output `k` that it passes (R390). -/
def State.tpoStep (s : State) (k : Nat) (new : Int) : State :=
  match (s.tp k).next with
  | none => s
  | some e =>
    if s.get TPO_CFG_SRC k ≠ 1 ∨ new < e then s
    else
      let p := s.get TPO_PERIOD k
      if p = 0 then s.tpoRise k new
      else
        let n := ((new - e) / p + 1).toNat
        ((s.setTp k { s.tp k with next := s.tpoNext k new }).addSat TPO_STAT_SKIP n k).raise EV_TPO_SKIP 255

/-- The clock stepped by `d` × 2^-16 ns at one tick: the epoch moves by whole wraps (R390). -/
def State.stepClock (s : State) (d : Int) : State :=
  let z := (s.get TIM_NS * nsUnit + s.nsFrac : Nat) + d * (25 * 2 ^ 32 : Nat)
  let n := z / (nsUnit : Int)
  let e := (s.get TIM_EPOCH_SEC * 1000000000 + s.get TIM_EPOCH_NS_NS : Nat) + n / 2 ^ 32 * 2 ^ 32
  let old := s.now16
  let s := (((({ s with nsFrac := (z % (nsUnit : Int)).toNat } : State).set TIM_NS (n % 2 ^ 32).toNat).set TIM_EPOCH_SEC (ux 32 (e / 1000000000))).set
    TIM_EPOCH_NS_NS (e % 1000000000).toNat).set TIM_SEC_HI_SEC_HI (ux 16 ((old + d) / 65536 / 1000000000 / 2 ^ 32))
  let s := (s.put TIM_STAT_STEPPED true).raise EV_TIME_STEP 255 (w64 d)
  if 0 < d then s.each (List.range 8) fun k s => s.tpoStep k s.nowNs else s

/-! ### Best master and servo (R388, R389) -/

/-- The rank of a clock in the best-master comparison: the lower is better (R383, IEEE 1588: priority1, class, accuracy, priority2, identity). -/
def bmcRank (p1 cls acc p2 gm : Nat) : Nat := (((p1 * 256 + cls) * 256 + acc) * 256 + p2) * 2 ^ 64 + gm

/-- This unit's own clockIdentity, from its MAC address as IEEE 1588 forms it. -/
def State.ownId (s : State) : Nat := s.ownMac / 2 ^ 24 * 2 ^ 40 + 0xFFFE000000 + s.ownMac % 2 ^ 24

/-- This unit's own rank (R388). -/
def State.ownRank (s : State) : Nat :=
  bmcRank (s.get TIM_PRIO_PRIORITY1) (s.get TIM_PRIO_CLASS) (s.get TIM_PRIO_ACCURACY) (s.get TIM_PRIO_PRIORITY2) s.ownId

/-- One ppm of ADJ, in 2^-48. -/
def ppm (n : Nat) : Int := n * 2 ^ 48 / 1000000

/-- A mean, rounded to nearest. -/
def meanI (l : List Int) : Int := if l.isEmpty then 0 else rdiv (l.foldl (· + ·) 0) l.length

/-- The servo leaves LOCKED: ADJ is frozen at the mean of its last 64 values there (R388, R389). -/
def State.holdover (s : State) : State :=
  let s := s.set TIM_STAT_SERVO 3
  let s := if s.tim.ptpAdjs.isEmpty then s else s.set64 TIM_ADJ_LO (meanI s.tim.ptpAdjs)
  (({ s with tim.ptpAdjs := [], tim.ptpLarge := false } : State).addSat TIM_STAT_HOLDOVERS 1).raise EV_PTP_HOLDOVER 255

/-- PTP_STATE of the ports: the port of the chosen master is SLAVE once locked, UNCALIBRATED before; the others LISTENING, or MASTER without one (log 25). -/
def State.ptpPorts (s : State) : State :=
  s.each (List.range 2) fun n s =>
    if !(s.portUp n) then s
    else s.set TIM_NET_STAT_PTP_STATE (match s.tim.ptpMaster with
      | some m => if m.port = n then (if s.get TIM_STAT_SERVO = 1 then 8 else 9) else 4
      | none => if s.on TIM_CTL_SLAVE_ONLY then 4 else 6) n

/-- No master any more: HOLDOVER from LOCKED (R388). -/
def State.loseMaster (s : State) : State :=
  let s : State := { s with tim.ptpMaster := none, tim.ptpGot := 0, tim.ptpSync := none }
  (s.cond (s.get TIM_STAT_SERVO == 2) State.holdover).ptpPorts

/-- A master is chosen: a different identity ends LOCKED; FREE and HOLDOVER gather offsets (R388, R389). -/
def State.chooseMaster (s : State) (m : PtpMaster) : State :=
  let changed := s.get64 TIM_GM_ID_LO != m.gm
  let known := s.get64 TIM_GM_ID_LO != 0
  let s := ({ s with tim.ptpMaster := some m } : State).set64 TIM_GM_ID_LO m.gm
  let go := fun (s : State) =>
    if s.get TIM_STAT_SERVO = 0 ∨ s.get TIM_STAT_SERVO = 3 then ({ s with tim.ptpGot := 0 } : State).set TIM_STAT_SERVO 1 else s
  let s := if changed && known then
      let s := (s.raise EV_PTP_MASTER_CHANGE 255 (w64 m.gm))
      let s : State := { s with tim.ptpGot := 0, tim.ptpSync := none }
      if s.get TIM_STAT_SERVO = 2 then s.holdover else go s
    else go s
  s.ptpPorts

/-- An Announce runs the best-master choice (R383, R388, R389). -/
def State.takeAnnounce (s : State) (port : Nat) (a : Announce) : State :=
  let m : PtpMaster := ⟨a.src.toNat, port, a.gm.toNat, bmcRank a.p1.toNat a.cls.toNat a.acc.toNat a.p2.toNat a.gm.toNat⟩
  let own := !(s.on TIM_CTL_SLAVE_ONLY) && decide (s.ownRank < m.rank)
  match s.tim.ptpMaster with
  | some c =>
    if c.src = m.src ∧ c.port = m.port then (if own then s.loseMaster else s.chooseMaster m)
    else if m.rank < c.rank ∧ !own then s.chooseMaster m
    else s
  | none => if own then s.ptpPorts else s.chooseMaster m

/-- TIME_OFFSET_LARGE once for each episode (R388). -/
def State.offsetLarge (s : State) (off : Int) : State :=
  let big := decide ((s.get TIM_STEP_TH : Int) * 65536 < off.natAbs)
  let new := big && !s.tim.ptpLarge
  ({ s with tim.ptpLarge := big } : State).cond new fun s => s.raise EV_TIME_OFFSET_LARGE 255

/-- An offset from the master in hand (R388): gathered in ACQUIRE, the sixteenth locks, with a step when one is permitted and |offset| exceeds STEP_TH; in LOCKED the rate
is steered to `adj`, within SLEW_MAX. -/
def State.servo (s : State) (off adj : Int) : State :=
  let s := (s.set64 TIM_OFFSET_LO off).put TIM_STAT_IN_TOL (decide ((off.natAbs : Int) < s.get TIM_SERVO_LOCK_TH * 65536))
  let lim := ppm (min (s.get TIM_SERVO_SLEW_MAX) 1000)
  let steer := fun (s : State) =>
    let a := clampI (-lim) lim adj
    ({ s with tim.ptpAdjs := (a :: s.tim.ptpAdjs).take 64 } : State).set64 TIM_ADJ_LO a
  match s.get TIM_STAT_SERVO with
  | 1 =>
    if s.tim.ptpGot + 1 < 16 then { s with tim.ptpGot := s.tim.ptpGot + 1 }
    else
      let big := decide ((s.get TIM_STEP_TH : Int) * 65536 < off.natAbs)
      let step := s.tim.ptpStepOk && big
      let s := ({ s with tim.ptpGot := 0, tim.ptpStepOk := false, tim.ptpLarge := false } : State).cond step fun s => s.stepClock (-off)
      let s := ((s.set TIM_STAT_SERVO 2).raise EV_PTP_LOCK 255).ptpPorts
      (s.cond (!step) fun s => s.offsetLarge off) |> steer
  | 2 => steer (s.offsetLarge off)
  | _ => s

/-- The firmware takes a PTP message at port `port` in domain `dom` (R383, R384, R388). -/
def execPtpMessageRx (port : Fin 2) (dom : Byte) (m : PtpMsg) (s : State) : Res :=
  let n := port.val
  if !(s.on TIM_CTL_OC_EN && s.portUp n && s.get TIM_CTL_DOMAIN == dom.toNat) || s.mode == 0 || s.on MGT_STAT_RESTARTING then .next s
  else
    match m with
    | .announce a => .next (s.takeAnnounce n a)
    | .sync src t1 corr raw adj =>
      match s.tim.ptpMaster with
      | none => .next s
      | some c =>
        if c.src ≠ src.toNat ∨ c.port ≠ n then .next s
        else
          let t2 := raw - s.ingLat n
          let delay := (if s.on TIM_CTL_P2P then (s.get TIM_PDELAY_PDELAY n : Int) else s.tim.ptpDelay) + s.geti TIM_ASYM_ASYM n
          .next (({ s with tim.ptpSync := some (t1, t2, corr) } : State).servo (t2 - t1 - corr - delay) adj)
    | .delayResp t4 corr =>
      match s.tim.ptpSync, smLook s.tim.ptpTx (4 * n + 1) with
      | some (t1, t2, c1), some t3 => if s.on TIM_CTL_P2P then .next s else .next { s with tim.ptpDelay := (t2 - t3 + (t4 - t1) - c1 - corr) / 2 }
      | _, _ => .next s
    | .pdelayResp t2 t3 corr raw =>
      match smLook s.tim.ptpTx (4 * n + 2) with
      | some t1 => if s.on TIM_CTL_P2P then .next (s.seti TIM_PDELAY_PDELAY (((raw - s.ingLat n) - t1 - (t3 - t2) - corr) / 2) n) else .next s
      | none => .next s

/-- An interval timer of the ordinary clock expires and it sends a message at port `port`: 0 Sync and 3 Announce as master, 1 Delay_Req, 2 Pdelay_Req (R383). -/
def execPtpMessageSend (port : Fin 2) (kind : Fin 4) (s : State) : Res :=
  let n := port.val
  let master := s.tim.ptpMaster.isNone && !(s.on TIM_CTL_SLAVE_ONLY)
  let due := if kind.val = 2 then s.on TIM_CTL_P2P else if kind.val = 1 then s.tim.ptpMaster.isSome && !(s.on TIM_CTL_P2P) else master
  if s.on TIM_CTL_OC_EN && s.portUp n && due && s.mode != 0 && !(s.on MGT_STAT_RESTARTING) then
    .next (({ s with tim.ptpTx := smInsert s.tim.ptpTx (4 * n + kind.val) (s.now16 + s.egrLat n) } : State).addWrap TIM_CNT_TX_FRAMES 1 n)
  else .next s

/-- No Announce of the chosen master for ANN_TMO intervals (R389). -/
def execAnnounceTimeout (s : State) : Res := .next (if s.tim.ptpMaster.isSome then s.loseMaster else s)

/-! ### Host commands (R388, R394) -/

/-- The host writes RELOCK: one further step is permitted (R388). -/
def execTimRelock (s : State) : Res := s.heard <| .next (({ s with tim.ptpStepOk := true } : State).put TIM_STAT_STEPPED false)

/-- The host writes a word of ADJ, which acts only in FREE (R387, R394). -/
def execTimAdjWrite (hi : Bool) (v : BitVec 32) (s : State) : Res := s.heard <|
  .next (if s.get TIM_STAT_SERVO = 0 then s.wr (TIM_ADJ_LO.addr + if hi then 4 else 0) v else s)

/-- A register whose fields are writable only in IDLE and SERVICE: another value elsewhere is ignored and sets `err` (R394, R413). -/
def State.guardedWrite (s : State) (a : Nat) (v : Word) (err : Fld) : State :=
  if s.mode = 1 ∨ s.mode = 6 then s.hostWrite a v
  else if writeBits a (s.rd a) v = s.rd a then s
  else s.put err true

/-- The host writes TIM_CTL (none) or TIM_NET_CFG of a port (R394); a port disabled loses its lock. -/
def execTimConfigWrite (n : Option (Fin 2)) (v : BitVec 32) (s : State) : Res := s.heard <|
  match n with
  | none =>
    let s := s.guardedWrite TIM_CTL.addr v TIM_STAT_CFG_ERR
    .next (s.cond (bitN v.toNat 6) fun s => ({ s with tim.ptpStepOk := true } : State).put TIM_STAT_STEPPED false)
  | some n =>
    let s := s.guardedWrite (TIM_NET_CFG.addr n) v TIM_STAT_CFG_ERR
    .next (s.cond (!(s.on TIM_NET_CFG_EN n)) fun s => s.netDown n)

/-- The host reads TIM_NOW_NS or TIM_EPOCH_NS, which latches the registers that go with it (R394). -/
def execTimeReadLatch (epoch : Bool) (s : State) : Res := s.heard <| .next (s.readReg 0 (if epoch then TIM_EPOCH_NS.addr else TIM_NOW_NS.addr)).2

end Sys2Proof.Machine
end

