-- ==== Sys2Proof/Machine/TwinOps.lean ====
section
/-! DEFINITION. Shared operations of twin operation (15_twin): copy images built and applied (R400 to R404), readiness (R410), take-over (R405,
R406), joining (R410). -/

namespace Sys2Proof.Machine

/-- T_CYCLE in ns (R400). -/
def State.tCycle (s : State) : Nat := 250000 * s.get TWN_CFG_CYCLE

/-- A difference between the units: counted and raised with its kind, 0 POS, 1 SEQ and BAR, 2 SHEAF, 3 GIO (R401, R412, R413). -/
def State.skew (s : State) (kind : Nat) : State :=
  (s.addSat { TWN_CNT_SKEW_POS with lo := 8 * kind } 1).raiseLim EV_TWIN_SKEW 255 kind sec1 [(kind : Int)]

/-! ### Snapshot (R400) -/

/-- The input a tracker counts from: an ABS input or not, its number (R56, R57). -/
def State.trkInput (s : State) (k : Nat) (sec : Bool) : Bool × Nat :=
  if sec then (s.on GEK_TRK_CTL_SEC_ABS k, s.get GEK_TRK_CTL_SEC k) else (s.on GEK_TRK_CTL_SRC_ABS k, s.get GEK_TRK_CTL_SRC k)

/-- The count of an input: COUNT, or the unwrapped value of an ABS input (R400). -/
def State.inCount (s : State) (i : Bool × Nat) : Int := if i.1 then (s.ai i.2).unw else s.geti GEK_ENC_COUNT i.2

/-- P as counted, without interpolation (R400). -/
def State.posCounted (s : State) (k : Nat) : Int := s.posFine k - (s.tk k).ahead

/-- A tracker in a copy image (R400). -/
def State.copyTrk (s : State) (k : Fin 4) : CopyTrk :=
  let sec := s.on GEK_TRK_STAT_FALLBACK k
  ⟨k, sec, s.inCount (s.trkInput k sec), s.posCounted k, s.geti64 GEK_TRK_NEXT_LO k, s.geti GEK_TRK_CORR_REM k, BitVec.ofNat 16 (s.tk k).kLeft,
    BitVec.ofNat 2 (s.get GEK_TRK_STAT_CONSEC k), s.on GEK_TRK_STAT_ARMED k, BitVec.ofNat 32 (s.get GEK_TRK_SHEET_NUM k)⟩

/-- The reject-list entries from number `a` to the last, at most 64 (R137, R400). -/
def State.copyRejs (s : State) (a : Nat) : List (BitVec 32 × Int × BitVec 32 × BitVec 32) :=
  let z := s.get SEQ_REJ_WR
  let n := min ((z + 2 ^ 32 - a) % 2 ^ 32) 64
  (List.range n).map fun i =>
    let k := (z + 2 ^ 32 - n + i) % 2 ^ 32
    (BitVec.ofNat 32 k, s.geti64 SEQ_REJ_START_LO (k % 64), BitVec.ofNat 32 (s.get SEQ_REJ_LEN (k % 64)), s.rd (SEQ_REJ_INFO.addr (k % 64)))

/-- A sheaf as a copy image carries it. -/
def copySheaf (h : Sheaf) : CopySheaf :=
  ⟨BitVec.ofNat 32 h.rep, BitVec.ofNat 16 h.mask, BitVec.ofNat 64 h.tag, h.items.map fun i =>
    (BitVec.ofNat 8 i.kind, BitVec.ofNat 8 i.point, BitVec.ofNat 8 i.slot, BitVec.ofNat 32 i.a, BitVec.ofNat 64 i.b)⟩

/-- The image of this unit's control-plane state now (R400); `fit`: changes that find room. -/
def State.snapshot (s : State) (fit : CopyFit) : CopyImg :=
  let zones := match fit with | some f => s.twn.zoneChg.take f.1 | none => s.twn.zoneChg
  let nzt := match fit with | some f => s.nzChg.take f.2 | none => s.nzChg
  { cycle := BitVec.ofNat 32 (s.get TWN_COPY_TX_CYCLE + 1), time := BitVec.ofNat 64 s.stamp, mode := BitVec.ofNat 4 s.mode, full := fit.isSome,
    bars := BitVec.ofNat 64 (s.get SEQ_BAR_MODE0 + 2 ^ 32 * s.get SEQ_BAR_MODE1),
    staged := match s.tr with
      | some t => some (BitVec.ofNat 4 t.target, BitVec.ofNat 32 (t.rep.getD 0))
      | none => none,
    trks := (List.finRange 4).filterMap fun (k : Fin 4) => if s.on GEK_TRK_CTL_EN k.val then some (s.copyTrk k) else none,
    lines := (List.finRange 16).map fun b => ⟨b, s.line b, (s.hb b).mark, (s.hb b).strobes⟩,
    gio := BitVec.ofNat 32 (s.get SEQ_GIO_OUT), rejWr := BitVec.ofNat 32 (s.get SEQ_REJ_WR), rejs := s.copyRejs s.twn.copyRej,
    pend := s.sheaves.map fun h => (BitVec.ofNat 64 h.tag, BitVec.ofNat 32 h.rep),
    applied := (List.range 16).map fun c => s.rd (CMP_CP_APPLIED.addr c),
    zsheaves := s.twn.zoneShf.map copySheaf,
    zones := zones.map fun z => (z.1, (s.ld z.1 z.2).map (BitVec.ofNat 8)),
    nzt := nzt.map fun c => (c.1, BitVec.ofNat 32 c.2.1, c.2.2),
    chans := (List.finRange 12).map fun n => ⟨n, BitVec.ofNat 3 (s.get CHL_CH_STAT_STATE n), s.rd (CHL_CH_APPLIED.addr n), s.rd (CHL_CH_JUDGED.addr n),
      BitVec.ofNat 64 (s.get64 CHL_CH_CUR_LO n)⟩,
    runs := s.nhRuns.map fun x => (x.1, x.2.1, x.2.2),
    seqs := (List.range 16).map fun e => BitVec.ofNat 3 (s.engState e) }

/-- The bytes of an image in the store (R400). -/
def imageBytes (cycle time mode : Nat) (sects : CopySects) : List Nat :=
  let body := sects.flatMap fun (t, d) => bytesOf 2 t.toNat ++ [0, 0] ++ bytesOf 4 d.length ++ d.map (·.toNat) ++ List.replicate ((8 - d.length % 8) % 8) 0
  let b := [0x54, 0x57, 0x43, 0x50] ++ bytesOf 2 1 ++ bytesOf 2 sects.length ++ bytesOf 4 cycle ++ bytesOf 4 (0x20 + body.length + 4) ++ bytesOf 8 time ++
    bytesOf 4 mode ++ [0, 0, 0, 0] ++ body
  b ++ bytesOf 4 (crc32 b)

/-- A snapshot taken, written to the half of TWN_IMG not used last, and sent (R400, R402). -/
def State.sendImage (s : State) (fit : CopyFit) (sects : CopySects) : State :=
  let img := s.snapshot fit
  let mode := s.mode + 16 * s.get GLB_MODE_STAT_PENDING + 256 * s.get GLB_MODE_STAT_CAUSE + 4096 * b2n img.full
  let b := imageBytes img.cycle.toNat img.time.toNat mode sects
  let half := !s.twn.copyHalf
  let s := s.st (s.get64 TWN_IMG_LO + if half then 262144 else 0) b
  let s := (s.set TWN_COPY_TX_CYCLE img.cycle.toNat).set TWN_COPY_AGE_SIZE (min 65535 (cdiv b.length 1024))
  let w := (img.cycle.toNat, img.zones.length, img.zsheaves.length, img.nzt.length, img.rejWr.toNat)
  ({ s with twn.copyHalf := half, twn.copyOut := some img, twn.copyWait := s.twn.copyWait ++ [w] } : State).cond img.full fun s => s.addSat TWN_CNT_COPY_OVER 1

/-! ### An image applied (R401, R404) -/

/-- The standby counts from the partner's source (R401, step 1). -/
def State.alignSource (s : State) (t : CopyTrk) : State :=
  let k := t.k.val
  if s.on GEK_TRK_STAT_FALLBACK k = t.sec then s
  else ((s.put GEK_TRK_STAT_FALLBACK t.sec k).set GEK_STAT_FALLBACK (putBit (s.get GEK_STAT_FALLBACK) k t.sec)).skew 0

/-- A tracker aligned to the partner's (R401). -/
def State.alignTrk (s : State) (t : CopyTrk) : State :=
  let k := t.k.val
  if !(s.on GEK_TRK_CTL_EN k) then s
  else
    let s := s.alignSource t
    let i := s.trkInput k t.sec
    let w := s.get GEK_ABS_CTL_BITS i.2 + 1
    let s := if i.1 && !s.twn.twnUnw then s.setAi i.2 { s.ai i.2 with unw := t.count + sx w (ux w ((s.ai i.2).unw - t.count)) } else s
    let d := t.count - s.inCount i
    let d := if i.1 then d else sx 32 (ux 32 d)
    let e := t.pos - (s.posCounted k + d * s.trkStep k)
    let s := if e = 0 then s else ((s.setPos k (s.posFine k + e) (s.tk k).ahead).refreshBack k).skew 0
    let s := (((s.set64 GEK_TRK_NEXT_LO t.next k).seti GEK_TRK_CORR_REM t.corr k).setTk k { s.tk k with kLeft := t.left.toNat }).put GEK_TRK_STAT_SPREADING (t.left != 0) k
    ((s.set GEK_TRK_STAT_CONSEC t.consec.toNat k).put GEK_TRK_STAT_ARMED t.armed k).set GEK_TRK_SHEET_NUM t.sheet.toNat k

/-- A copied nozzle change: held until the tiller reaches EFF, or applied from its next line, late (R404). -/
def State.takeNz (s : State) (j : Nat) (w : Word) (eff : Int) : State :=
  let e := s.eff (s.portPoint (j / 12288))
  if e ≤ eff then { s with nzHeld := s.nzHeld ++ [(j, w.toNat, eff)] }
  else ((s.nzPut j w).addSat TWN_CNT_COPY_BAD (e - eff).toNat).raise EV_TWIN_NZT_LATE 255

/-- A zone sheaf submitted locally; a refusal is SHEAF skew (R400, R404). -/
def State.takeZone (s : State) (h : CopySheaf) : State :=
  let items := h.items.map fun (k, p, l, a, b) => (⟨k.toNat, p.toNat, l.toNat, a.toNat, b.toNat⟩ : Item)
  let (s, st) := s.submitH (some ⟨h.rep.toNat, h.mask.toNat, none, items, h.tag.toNat, 2, 0, 0, false⟩) 2
  if st = 0 then s else s.skew 2

/-- The loop state taken over by the firmware (R400). -/
def State.takeChan (s : State) (c : CopyChan) : State :=
  ((s.set CHL_CH_STAT_STATE c.state.toNat c.ch).wr (CHL_CH_APPLIED.addr c.ch) c.applied |>.wr (CHL_CH_JUDGED.addr c.ch) c.judged).set64 CHL_CH_CUR_LO c.cur.toNat c.ch

/-- The parts of an image that the standby compares: BAR and SEQ, SHEAF, GIO, whose bits it takes (R400, R401). -/
def State.compareImage (s : State) (m : CopyImg) : State :=
  let bar := m.lines.any fun x => s.line x.bar != x.line || (s.hb x.bar).mark != x.mark || (s.hb x.bar).strobes != x.strobes
  let seq := (List.range 16).any fun e => s.engState e != (m.seqs.getD e 0).toNat
  let shf := m.pend != (s.sheaves.map fun h => (BitVec.ofNat 64 h.tag, BitVec.ofNat 32 h.rep)) ||
    (List.range 16).any fun c => s.rd (CMP_CP_APPLIED.addr c) != m.applied.getD c 0
  let s := s.cond bar fun s => s.skew 1
  let s := s.cond seq fun s => s.skew 1
  let s := ({ s with twn.twnShSkew := shf } : State).cond shf fun s => s.skew 2
  (s.cond (s.get SEQ_GIO_OUT != m.gio.toNat) fun s => s.skew 3).wr SEQ_GIO_OUT.addr m.gio

/-- This unit is a ready standby once joined, with nothing outstanding and every point composed through its lead (R410). -/
def State.judgeReady (s : State) : State :=
  let led := (List.range 16).all fun b => (s.cp b).job.isNone || (s.cp b).endLine.isSome || decide (s.line b + (s.cp b).lead ≤ s.nextLine b)
  if s.mode == 5 && s.twn.twnJoin == 3 && !s.twn.twnShSkew && led && !(s.on TWN_STAT_SB_READY) then
    (s.put TWN_STAT_SB_READY true).raise EV_TWIN_SB_READY 255
  else s

/-- An image applied as a whole (R401, R404, R410). -/
def State.applyImage (s : State) (m : CopyImg) : State :=
  let s := { s.each m.trks fun t s => s.alignTrk t with twn.twnUnw := true }
  let s := s.compareImage m
  let s := s.each m.rejs fun (k, a, l, i) s =>
    let n := k.toNat % 64
    ((s.set64 SEQ_REJ_START_LO a n).wr (SEQ_REJ_LEN.addr n) l).wr (SEQ_REJ_INFO.addr n) i
  let s := s.wr SEQ_REJ_WR.addr m.rejWr
  let s := s.each m.zones fun (a, d) s => s.st a (d.map (·.toNat))
  let s := s.each m.zsheaves fun h s => s.takeZone h
  let s := s.each m.nzt fun (j, w, e) s => s.takeNz j w e
  let s := s.each m.chans fun c s => s.takeChan c
  let runs := m.runs.foldl (fun r x => smPut (fun _ => (0, 0)) r x.1 (x.2.1, x.2.2)) []
  let staged := match m.staged with | some (t, r) => some (t.toNat, r.toNat) | none => none
  let s : State := { s with
    nhRuns := runs, twn.twnPress := some ⟨m.mode.toNat, m.bars.toNat, staged, m.time.toNat⟩, twn.twnStale := false,
    twn.twnJoin := if s.twn.twnJoin = 2 then 3 else s.twn.twnJoin }
  (s.set TWN_COPY_RX_CYCLE m.cycle.toNat).judgeReady

/-! ### Partner and take-over (R403 to R406) -/

/-- TWIN_STANDBY_LOST once for each episode in which the active unit's partner is in IDLE or SAFE or not ready (R405). -/
def State.standbyCheck (s : State) : State :=
  let lost := s.on TWN_STAT_ACTIVE && (s.get TWN_STAT_PMODE == 1 || s.get TWN_STAT_PMODE == 7 || !(s.on TWN_STAT_PARTNER_READY))
  let new := lost && !s.twn.twnLost
  ({ s with twn.twnLost := lost } : State).cond new fun s => s.raise EV_TWIN_STANDBY_LOST 255

/-- The standby takes over: 0 missed slots, 1 partner SAFE, 2 planned (R405). -/
def State.takeOver (s : State) (cause : Nat) : State :=
  let stale := !(s.on TWN_STAT_SB_READY) || decide (((4 * s.tCycle : Nat) : Int) < s.copyAge)
  let p := s.twn.twnPress
  let m := match p with
    | some p => p.mode
    | none => if s.get TWN_STAT_PMODE = 2 ∨ s.get TWN_STAT_PMODE = 3 then s.get TWN_STAT_PMODE else 4
  let s : State := s.preempt
  let s := ({ s with
    twn.tkBars := p.map (·.bars), twn.tkNext := p.bind (·.staged), twn.tkStale := stale } : State).setActive true
  let s := (s.addSat TWN_TAKEOVERS_TAKE 1).cond (cause == 2) fun s => s.addSat TWN_TAKEOVERS_SWITCH 1
  let s := ((s.set TWN_LAST_CAUSE cause).put TWN_LAST_STALE stale).set TWN_LAST_MODE m
  let s := (s.set TWN_LAST_SEC s.ptpSec).set TWN_LAST_NS_TIME s.ptpNs
  (s.startTr (immTr m (if cause = 2 then 5 else 4) none)).raise EV_TWIN_TAKEOVER 255 [(cause : Int), (m : Int), (b2n stale : Int)]

/-! ### Joining (R410) -/

/-- A composition point starts at line LINE + 16 within the repeat or sheet there (R410). -/
def State.joinPoint (s : State) (j : JobD) (b plane : Nat) : State :=
  let s := s.startPoint j b plane
  let p := s.cp b
  let x := s.line b + 16
  let pitch : Int := s.lcPitch b
  let c := s.compare b + 16 * pitch
  let n := s.get GEK_LC_SHEET b
  let k := ((c / 2 ^ 32 - p.org) / (p.rep : Int)).toNat
  let r := if p.sheet then (n + p.soff) % 2 ^ 32 else if p.rep = 0 then p.r0 else (p.r0 + k) % 2 ^ 32
  let first := if p.sheet then s.sheetFirst b n
    else if p.rep = 0 ∨ pitch = 0 then x
    else x - (c - (p.org + k * p.rep) * 2 ^ 32) / pitch
  let s := (s.setCp b { p with start := some r, cpos := c }).set64 CMP_CP_NEXT_LO x b
  let s := s.atBoundary b r
  let s := (s.setCp b { s.cp b with first, cpos := c }).set64 CMP_CP_NEXT_LO x b
  let s := s.setLk b { s.lk b with bounds := (s.lk b).bounds.filter fun z => decide (first = z.1) }
  let s := s.each (s.portsOf b) fun q s => s.setHp q { s.hp q with from_ := x }
  { s with tilPt := smPut (fun _ => TPoint.empty) s.tilPt b { TPoint.empty with begun := x } }

/-- The unit joins at the partner's line boundary (R410). -/
def State.join (s : State) (m : CopyImg) (lcs : List JoinLc) : State :=
  let s : State := { s with twn.twnUnw := false, twn.twnJoin := 1, twn.twnShSkew := false, twn.twnStale := false }
  let s := { s.each m.trks fun t s => s.alignTrk t with twn.twnUnw := true }
  let s := s.each lcs fun l s => ((s.set64 GEK_LC_LINE_LO l.line l.bar).setCompare l.bar l.compare).set64 GEK_LC_HWM_LO l.hwm l.bar
  let staged := match m.staged with | some (t, r) => some (t.toNat, r.toNat) | none => none
  let s : State := { s with twn.twnPress := some ⟨m.mode.toNat, m.bars.toNat, staged, m.time.toNat⟩, feed := Feed.empty, jobEnded := [] }
  match s.startJob with
  | some j => (s.each j.bars fun x s => s.joinPoint j x.2.2.1 x.2.1).refreshRunning
  | none => s

end Sys2Proof.Machine
end

