-- ==== Sys2Proof/Machine/Twin.lean ====
section
/-! DEFINITION. The commands of twin operation (15_twin). -/

namespace Sys2Proof.Machine

/-- The host requests SHADOW: the unit joins as standby at the partner's next line boundary, given by the partner's image `m` and its line clocks; `same`: the same
job is queued on both (R27, R410). -/
def execModeReqShadow (tag : BitVec 8) (same : Bool) (m : CopyImg) (lcs : List JoinLc) (s : State) : Res :=
  let pm := s.get TWN_STAT_PMODE
  .next (s.hostReq tag.toNat (s.mode == 1) (s.get TWN_STAT_LINK == 3 && (pm == 2 || pm == 3 || pm == 4) && same && s.startJob.isSome) fun s =>
    ((s.atOnce 5 tag.toNat).join m lcs).judgeReady)

/-! ### Heartbeat (R396, R397, R403, R405) -/

/-- The twin engine sends a heartbeat, toggles TWIN_ALIVE_O and, in an active unit B, refreshes its pull (R396, R403). -/
def execHbSend (s : State) : Res :=
  if !(s.on TWN_CFG_EN) || s.mode == 0 then .next s
  else
    let s := (s.addWrap TWN_HB_SEQ_TX 1)
    let fired := (List.range 16).map fun b => ux 32 ((s.hb b).fired.getD 0)
    let hb := (s.get TWN_HB_SEQ_TX, s.mode, s.on TWN_STAT_SB_READY, fired)
    .next { s with
      twn.alivePin := !s.twn.alivePin, twn.hbOut := if s.get TWN_STAT_LINK = 3 then some hb else s.twn.hbOut,
      twinPull := s.twinPull || (s.get TWN_STAT_ROLE == 1 && s.on TWN_STAT_ACTIVE) }

/-- A good heartbeat: SEQ, the partner's mode and SB_READY, FIRED of each bar (R403); a partner in SAFE is taken over from with SAFE_TAKE (R405). -/
def execHbRx (seq : BitVec 16) (mode : Fin 8) (ready : Bool) (fired : List (BitVec 32)) (s : State) : Res :=
  if !(s.on TWN_CFG_EN) || s.get TWN_STAT_LINK != 3 then .next s
  else
    let s := ((s.set TWN_HB_SEQ_RX seq.toNat).set TWN_STAT_PMODE mode.val).put TWN_STAT_PARTNER_READY ready
    let s := ({ s with twn.hbSeen := true, twn.hbFired := some fired } : State).set TWN_HB_MISS_RUN 0
    let s := s.standbyCheck
    .next (if mode.val = 7 ∧ s.mode = 5 ∧ s.on TWN_CFG_SAFE_TAKE ∧ !(s.on TWN_STAT_ACTIVE) then s.takeOver 1 else s)

/-- A judging slot ends, with or without a toggle of TWIN_ALIVE_I, the TWIN_ACTIVE net at a level (R403, R405). -/
def execHbSlotEnd (toggle net : Bool) (s : State) : Res :=
  if !(s.on TWN_CFG_EN) || s.mode == 0 then .next s
  else
    let s := (s.put TWN_STAT_NET net).put TWN_STAT_ALIVE_IN (toggle || s.twn.alivePrev)
    let missed := !(s.twn.hbSeen || toggle)
    let s : State := { s with twn.hbSeen := false, twn.alivePrev := toggle }
    if !missed then .next (s.set TWN_HB_MISS_RUN 0).standbyCheck
    else
      let s := (s.addSat TWN_HB_MISS_RUN 1).addSat TWN_HB_MISS_TOTAL 1
      let n := s.get TWN_HB_MISS_RUN
      let s := s.cond (n == 1) fun s => s.raise EV_TWIN_HB_MISS 255
      let s := s.standbyCheck
      .next (if n = 4 ∧ s.on TWN_STAT_ACTIVE then s.raise EV_TWIN_PARTNER_LOST 255
        else if n = 4 ∧ s.mode = 5 ∧ s.on TWN_CFG_AUTO_TAKE then s.takeOver 0
        else s)

/-- The net has been low for more than 100 µs while unit A is active: contention (R397). -/
def execTwinContention (s : State) : Res :=
  .next (if s.on TWN_CFG_EN && s.get TWN_STAT_ROLE == 0 && s.on TWN_STAT_ACTIVE then (s.put TWN_STAT_NET false).fatal EV_TWIN_CONTENTION else s)

/-- Unit B's pull has gone 150 µs without a refresh: the AON domain releases it (R396). -/
def execTwinPullRelease (s : State) : Res := .next (if s.get TWN_STAT_ROLE = 1 then { s with twinPull := false } else s)

/-! ### State copy (R400 to R404, R410) -/

/-- A control cycle ends on the active unit: an image is taken and sent, or the previous one is `late` (R400, R402). -/
def execCopySnapshot (late : Bool) (fit : CopyFit) (sects : CopySects) (s : State) : Res :=
  if !(s.on TWN_STAT_ACTIVE) || s.get TWN_CFG_CYCLE == 0 || !(s.mode == 2 || s.mode == 3 || s.mode == 4) then .next s
  else if late then .next ((s.addSat TWN_CNT_COPY_LATE 1).raiseLim EV_TWIN_COPY_LATE 255 0 sec1)
  else .next (s.sendImage fit sects)

/-- A copy image arrives at the standby; none: its CRC fails or a chunk is lost (R401, R402). -/
def execCopyImageRx (m : Option CopyImg) (kib : BitVec 16) (s : State) : Res :=
  if s.mode ≠ 5 ∨ s.on TWN_STAT_ACTIVE then .next s
  else
    match m with
    | none => .next ((s.addSat TWN_CNT_COPY_BAD 1).raiseLim EV_TWIN_COPY_BAD 255 0 sec1)
    | some m => .next ((s.applyImage m).set TWN_COPY_AGE_SIZE kib.toNat)

/-- The partner has applied the image of a CYCLE: its changes need not be sent again (R402). -/
def execCopyAckRx (cycle : BitVec 32) (s : State) : Res :=
  match s.twn.copyWait.find? fun w => w.1 == cycle.toNat with
  | none => .next s
  | some (_, z, h, n, r) =>
    let rest := ((s.twn.copyWait.dropWhile fun w => w.1 != cycle.toNat).drop 1).map fun (c, z', h', n', r') => (c, z' - z, h' - h, n' - n, r')
    .next { s with
      twn.copyWait := rest, twn.zoneChg := s.twn.zoneChg.drop z, twn.zoneShf := s.twn.zoneShf.drop h, nzChg := s.nzChg.drop n, twn.copyRej := r }

/-- No image has been applied for 4 × T_CYCLE: SB_READY clears until one is (R402). -/
def execTwinCopyStale (s : State) : Res :=
  if s.mode ≠ 5 ∨ s.twn.twnStale ∨ s.twn.twnJoin = 0 then .next s
  else .next (((({ s with twn.twnStale := true } : State).put TWN_STAT_SB_READY false).addSat TWN_CNT_COPY_STALE 1).raise EV_TWIN_COPY_STALE 255)

/-- A JOIN image is applied: the whole NZT, every channel's CUR and buffers (R410). -/
def execJoinImageRx (m : JoinImg) (s : State) : Res :=
  if s.mode ≠ 5 ∨ s.twn.twnJoin = 0 then .next s
  else
    let keep := s.regs.filter fun x => x.1 < NZT.addr 0 ∨ NZT.addr (128 * 12288) ≤ x.1
    let s : State := { s with regs := keep, nzUnc := [] }
    let s := s.each (List.range 128) fun p s => (s.set TIL_PORT_NZ_WEAK 0 p).set TIL_PORT_NZ_DEAD 0 p
    let s := s.each m.nzt fun (j, w) s => s.nzPut j w
    let s := s.each m.cur fun (n, a) s => s.set64 CHL_CH_CUR_LO a.toNat n
    let s := s.each m.zones fun (a, d) s => s.st a (d.map (·.toNat))
    .next ({ s with twn.twnJoin := 2 } : State).judgeReady

/-! ### The Twin Link (R398, R399) -/

/-- Training starts (R399). -/
def State.twinTrain (s : State) : State := if s.on TWN_CFG_EN && s.get TWN_STAT_LINK == 0 then s.set TWN_STAT_LINK 1 else s

/-- The Twin Link goes DOWN (R399). -/
def State.twinDown (s : State) : State :=
  let up := s.get TWN_STAT_LINK == 3
  (s.set TWN_STAT_LINK 0).cond up fun s => (s.addSat TWN_LINK_DOWNS 1).raise EV_TWIN_LINK_DOWN 255

/-- Training starts at enable and every 100 ms while DOWN (R399). -/
def execTwinLinkTrain (s : State) : Res := .next (if s.mode = 0 then s else s.twinTrain)

/-- All four lanes have held lock and alignment for 1 ms, with a largest lane skew in words (R399). -/
def execTwinLaneAlign (skew : Byte) (s : State) : Res :=
  .next (if s.get TWN_STAT_LINK = 1 then ((s.set TWN_LINK_LOCK 15).set TWN_LINK_SKEW skew.toNat).set TWN_STAT_LINK 2 else s)

/-- A HELLO is judged: VERSION, ROLE of the partner (R399). -/
def execTwinHelloRx (version : BitVec 16) (role : Bool) (s : State) : Res :=
  if s.get TWN_STAT_LINK ≠ 2 ∨ version ≠ 1 then .next s
  else if b2n role = s.get TWN_STAT_ROLE then .next (s.raise EV_TWIN_ROLE_CLASH 255)
  else .next ((s.set TWN_STAT_LINK 3).raise EV_TWIN_LINK_UP 255)

/-- A lane loses lock or alignment (R399). -/
def execTwinLaneLoss (lane : Fin 4) (s : State) : Res :=
  .next (if s.get TWN_STAT_LINK = 0 then s else (s.set TWN_LINK_LOCK (putBit (s.get TWN_LINK_LOCK) lane.val false)).twinDown)

/-- The host writes RETRAIN: the link goes DOWN and trains again (R413). -/
def execTwinRetrain (s : State) : Res := s.heard <| .next s.twinDown.twinTrain

/-! ### Switch-over and host commands (R409, R413) -/

/-- The host writes SWITCH: refused, or an image goes out at once with the request (R409). -/
def execTwinSwitch (fit : CopyFit) (sects : CopySects) (s : State) : Res := s.heard <|
  if s.twn.twnSwitch then .next s
  else if s.on TWN_STAT_ACTIVE && (s.mode == 2 || s.mode == 3 || s.mode == 4) && s.on TWN_STAT_PARTNER_READY && s.get TWN_STAT_LINK == 3 then
    .next (({ (s.sendImage fit sects) with twn.twnSwitch := true } : State).set TWN_SWITCH_STAT_RESULT 1)
  else .next (s.set TWN_SWITCH_STAT_RESULT 2)

/-- A switch-over request reaches the standby, which has applied its image and takes over; or its grant reaches the yielding unit (R409). -/
def execSwitchRx (grant : Bool) (s : State) : Res :=
  if grant then
    if s.twn.twnSwitch then
      .next ((({ s with twn.twnSwitch := false } : State).set TWN_SWITCH_STAT_RESULT 0).preempt.startTr (immTr 5 5 none))
    else .next s
  else if s.mode = 5 ∧ !(s.on TWN_STAT_ACTIVE) then .next (s.takeOver 2)
  else .next s

/-- The host writes TWN_CFG, TWN_IMG_LO, TWN_IMG_HI, TWN_JOIN_LO, TWN_JOIN_HI or TWN_ATTACH: accepted only in IDLE and SERVICE (R413). -/
def execTwnConfigWrite (i : Fin 6) (v : BitVec 32) (s : State) : Res := s.heard <|
  let a := [TWN_CFG.addr, TWN_IMG_LO.addr, TWN_IMG_LO.addr + 4, TWN_JOIN_LO.addr, TWN_JOIN_LO.addr + 4, TWN_ATTACH.addr].getD i.val TWN_CFG.addr
  let was := s.on TWN_CFG_EN
  let s := s.guardedWrite a v TWN_STAT_CFG_ERR
  let now := s.on TWN_CFG_EN
  .next (if now && !was then (s.setActive (s.mode == 6)).twinTrain
    else if was && !now then (s.setActive false).twinDown
    else s)

/-- The daily check of the hours in standby (R409). -/
def execTwinStandbyAge (s : State) : Res :=
  .next (if s.get TWN_CFG_AGE_H ≠ 0 ∧ s.get TWN_CFG_AGE_H < s.standbyHours then s.raise EV_TWIN_STANDBY_AGE 255 else s)

/-! ### Messages (R429) -/

/-- The oldest entry of Q60 or Q61 is taken: its bytes go to the partner, or it is dropped (R429). -/
def execTwinMsgSend (q : Fin 2) (s : State) : Res :=
  let n := 60 + q.val
  match s.takeSub n with
  | none => .next s
  | some (x, s) =>
    let len := subF32 x 0x20
    if len = 0 then .next s
    else if 4096 < len ∨ s.get TWN_STAT_LINK ≠ 3 then .next ((s.addSat HIF_Q_STAT_LOST 1 n).raise EV_MSG_DROP 255)
    else
      let a := subF64 x 0x18
      .next ({ s with hst.msgOut := smPut (fun _ => []) s.hst.msgOut n ((s.ld a len).map (BitVec.ofNat 8)) } : State)

/-- A message arrives for Q62 or Q63: it is written to its slot and reported, or waits on the link while the queue has no room or 16 entries are unconsumed (R428, R429). -/
def execTwinMsgRx (q : Fin 2) (d : List Byte) (s : State) : Res :=
  let n := 62 + q.val
  if d.isEmpty ∨ 4096 < d.length ∨ s.get TWN_STAT_LINK ≠ 3 then .next s
  else if !(s.qRoom n) ∨ 16 ≤ s.qUsed n then .next (s.put HIF_Q_STAT_STALL true n)
  else
    let k := smGet (fun _ => 0) s.hst.msgCnt n
    let a := s.get64 HIF_TWMSG_LO + 65536 * q.val + 4096 * (k % 16)
    let s := (s.put HIF_Q_STAT_STALL false n).st a (d.map (·.toNat))
    let s : State := { s with hst.msgCnt := smPut (fun _ => 0) s.hst.msgCnt n (k + 1) }
    .next (s.qWrite n ⟨9, 0, 0, 0, 0, false, [0, 0, BitVec.ofNat 32 a, BitVec.ofNat 32 (a / 2 ^ 32), BitVec.ofNat 32 d.length]⟩ false)

end Sys2Proof.Machine
end

