-- ==== Sys2Proof/Machine/HostIf.lean ====
section
/-! DEFINITION. The host interface (16_host): BAR accesses, queues, the operations of the host submission queues, interrupts, link and
resets, host watchdog, event routes. -/

namespace Sys2Proof.Machine

/-! ### BAR0 and the store window (R415 to R417) -/

/-- A BAR0 access that is not an aligned 4-byte access completes Unsupported Request and is counted (R415). -/
def execBar0BadAccess (s : State) : Res := .next (s.addSat HIF_ERR_BAD_ACCESS 1)

/-- A BAR2 access: beyond the capacity it is counted and discarded or refused, else it acts on the store at the window (R155, R416, R417). -/
def execBar2Access (x : BitVec 36) (n : BitVec 13) (d : Option (List Byte)) (s : State) : Res := s.heard <|
  let a := s.get HIF_WIN_BASE * 2 ^ 30 + x.toNat
  let len := match d with | some l => l.length | none => n.toNat
  if s.memCap < a + len ∨ s.memCap ≤ a then
    let s := (s.raiseLim EV_WIN_RANGE 255 0 sec1).addSat HIF_WIN_ERR_RANGE 1
    .next (if d.isSome then s else { s with hst.bar2Out := none })
  else
    match d with
    | some l => .next (s.st a (l.map (·.toNat)))
    | none =>
      let t : State := { s with hst.bar2Out := some ((s.ld a len).map (BitVec.ofNat 8)) }
      .next ((t.saw a len).cond (s.bad a len) fun t => t.addSat HIF_WIN_ERR_POISON 1)

/-- The host moves the window; later BAR2 accesses use it (R416). -/
def execHifWinWrite (v : BitVec 32) (s : State) : Res := s.heard <| .next (s.hostWrite HIF_WIN.addr v)

/-! ### Queues (R418, R419, R428) -/

/-- A host-to-device queue (R418). -/
def hostQueue (q : Nat) : Bool := decide (q < 16) || [48, 50, 52, 53, 56, 57, 60, 61].contains q

/-- An index has gone past another by the end of a span: `a` is not more than 2^31 behind `b`, modulo 2^32. -/
def idxReached (a b : Nat) : Bool := decide ((a + 2 ^ 32 - b % 2 ^ 32) % 2 ^ 32 < 2 ^ 31)

/-- Descriptors of a submission queue that are completed, as an index (R418). -/
def State.qDone (s : State) (q : Nat) : Nat :=
  (s.get HIF_Q_CI q + 2 * 2 ^ 32 - (s.qu q).fetched.length - b2n (s.qu q).run.isSome) % 2 ^ 32

/-- A queue error: ERR, the event, and the queue stops unless it is a doorbell out of range (R419). -/
def State.qErr (s : State) (q err : Nat) : State :=
  let s := s.cond (err != 1) fun s => (s.put HIF_Q_STAT_ACTIVE false q).addSat HIF_ERR_HOST 1
  (s.set HIF_Q_STAT_ERR err q).raise EV_HIF_Q_ERR 255 [(q : Int), (err : Int)]

/-- EVT_STAT.FULL of an event queue follows it (R438). -/
def State.refreshFull (s : State) (q : Nat) : State :=
  if 32 ≤ q ∧ q < 40 then
    s.set EVT_STAT_FULL (putBit (s.get EVT_STAT_FULL) (q - 32) (s.on HIF_Q_CFG_EN q && decide (s.qSize q ≤ s.qUsed q)))
  else s

/-- A queue begins anew: indices, ring, error and the doorbells recorded for it (R418, R46). -/
def State.qStart (s : State) (q : Nat) : State :=
  let s := ((s.set HIF_Q_PI 0 q).set HIF_Q_CI 0 q).set HIF_Q_STAT_ERR 0 q
  let s := (s.put HIF_Q_STAT_ACTIVE true q).setQu q { s.qu q with ring := [], unsig := 0, lost := 0 }
  let s : State := { s with hst.doorbells := smPut (fun _ => []) s.hst.doorbells q [] }
  let s : State := { s with hst.doorbells := smMap (fun _ => []) (fun _ l => l.map fun r => (r.1, r.2.set q 0)) s.hst.doorbells }
  (s.refreshFull q).qDrain q ((s.qu q).waiting.length + 1)

/-- A copy moves on to `n` bytes or, short of its end, to the 64-byte boundary of the store below (R422, R425). -/
def State.moveOn (s : State) (r : Running) (n : Nat) : Running × State :=
  let a := subF64 r.sub 0x18
  let m := if r.lim ≤ n then r.lim else max r.result (n - (a + n) % 64)
  let k := m - r.result
  if r.sub.op = 2 then
    let b := s.ld (a + r.result) k
    let d := r.data ++ b.map (BitVec.ofNat 8)
    let st := if s.bad (a + r.result) k then 1 else r.status
    let s := s.saw (a + r.result) k
    ({ r with result := m, status := st, data := d }, { s with hst.hostWr := some (subF64 r.sub 0x10, d) })
  else if r.sub.op = 1 ∨ r.sub.op = 3 then
    ({ r with result := m }, s.st (a + r.result) (((r.data.drop r.result).take k).map (·.toNat)))
  else (r, s)

/-- The completion entry of a descriptor goes to the paired queue (R421, R422); `head`: the CI after it. -/
def State.completes (s : State) (q : Nat) (x : Sub) (status result head : Nat) : State :=
  s.qSend (16 + q) ⟨1, status, q, head % 2 ^ 16, x.tag, false, [BitVec.ofNat 32 result, BitVec.ofNat 32 (result / 2 ^ 32)]⟩

/-- Every descriptor fetched and not started completes ABORTED (R425). -/
def State.dropFetched (s : State) (q : Nat) : State :=
  let l := (s.qu q).fetched
  let ci := s.get HIF_Q_CI q + 2 ^ 32
  let s := s.setQu q { s.qu q with fetched := [] }
  let s := s.each (List.range l.length) fun i s => s.completes q (l.getD i ⟨0, 0, true, 0, []⟩) 5 0 (ci - l.length + i + 1)
  s.cond (!l.isEmpty) fun s => s.setQu q { s.qu q with ended := some true }

/-- TIL_PORT_CFG.EN, RING and DEPTH of every port follow the start job (R249, R254), and the running views of ports and bars with them (R37, R256). -/
def State.mapPorts (s : State) : State :=
  let l := match s.startJob with | some j => j.ports | none => []
  (s.each (List.range 128) fun p s =>
    match l.find? fun e => e.1 == p with
    | some e => ((s.put TIL_PORT_CFG_EN true p).set64 TIL_PORT_RING_LO e.2.2.2 p).set TIL_PORT_DEPTH e.2.2.1 p
    | none => ((s.put TIL_PORT_CFG_EN false p).set64 TIL_PORT_RING_LO 0 p).set TIL_PORT_DEPTH 0 p).refreshBars

/-- What the abort of a descriptor in progress undoes: a job that is loaded is not (R425). -/
def State.unload (s : State) (r : Running) : State :=
  if r.sub.op = 5 ∧ r.status = 0 then
    let j := r.result % 8
    let s := (s.put HIF_JOB_STAT_VALID false j).put HIF_JOB_STAT_START false j
    (s.cond (r.lim != 0) fun s => s.put HIF_JOB_STAT_START true (r.lim - 1)).mapPorts
  else s

/-- ABORT of a host submission queue (R425). -/
def State.qAbort (s : State) (q : Nat) : State :=
  let s := match (s.qu q).run with
    | some r =>
      let head := s.get HIF_Q_CI q + 2 ^ 32 - (s.qu q).fetched.length
      let s := (s.setQu q { s.qu q with run := none, ended := some true }).unload r
      (s.completes q r.sub 5 (if r.sub.op = 5 then 0 else r.result) head).set HIF_Q_STAT_ABORT 1 q
    | none => s.set HIF_Q_STAT_ABORT (if (s.qu q).ended.isSome then 2 else 0) q
  s.dropFetched q

/-- A write of HIF_Q_CFG: EN from 0 to 1 begins the queue anew, EN 0 stops it, ABORT aborts a host submission queue (R418, R425). -/
def State.qCfgWrite (s : State) (q : Nat) (v : Word) : State :=
  let was := s.on HIF_Q_CFG_EN q
  let s := s.hostWrite (HIF_Q_CFG.addr q) v
  let s := if s.on HIF_Q_CFG_EN q then (if was then s else s.qStart q)
    else (s.put HIF_Q_STAT_ACTIVE false q).refreshFull q
  s.cond (getBits v 5 1 == 1 && decide (q < 16)) fun s => s.qAbort q

/-- The host writes HIF_Q_CFG (R418). -/
def execQueueEnable (q : Qn) (v : BitVec 32) (s : State) : Res := s.heard <| .next (s.qCfgWrite q v)

/-- The host writes PI: out of range it is ignored and reported; a device-to-host queue ignores it (R418, R419). -/
def execQueueDoorbell (q : Qn) (pi : BitVec 32) (s : State) : Res := s.heard <|
  if !(hostQueue q) then .next s
  else if s.qSize q < (pi.toNat + 2 ^ 32 - s.get HIF_Q_CI q) % 2 ^ 32 then .next (s.qErr q 1)
  else
    let s := s.set HIF_Q_PI pi.toNat q
    if q.val < 16 then
      let l := smGet (fun _ => []) s.hst.doorbells q ++ [(pi.toNat, (List.range 16).map fun i => s.get HIF_Q_PI i)]
      .next { s with hst.doorbells := smPut (fun _ => []) s.hst.doorbells q l }
    else .next s

/-- The host writes CI: past PI it is ignored and reported; else entries are consumed and those that wait are written (R418, R419, R428). -/
def execQueueCiWrite (q : Qn) (ci : BitVec 32) (s : State) : Res := s.heard <|
  if hostQueue q then .next s
  else
    let k := (ci.toNat + 2 ^ 32 - s.get HIF_Q_CI q) % 2 ^ 32
    if s.qUsed q < k then .next (s.qErr q 1)
    else
      let s := (s.set HIF_Q_CI ci.toNat q).setQu q { s.qu q with ring := (s.qu q).ring.drop k }
      .next ((s.qDrain q ((s.qu q).waiting.length + 1)).refreshFull q)

/-- The device fetches the next submission of a running queue, or a PCIe error stops the queue (R418, R419); sheaf submissions wait while 12 entries wait on
the paired queue (R428). -/
def execDescriptorFetch (q : Qn) (x : Option Sub) (s : State) : Res :=
  if !(s.on HIF_Q_STAT_ACTIVE q) then .next s
  else if !(hostQueue q) then .next (if x.isNone then s.qErr q 3 else s)
  else if !(s.on HIF_STAT_LINK) || s.qUsed q == 0 || ((q.val == 52 || q.val == 53) && decide (12 ≤ (s.qu (q + 2)).waiting.length)) then
    .next s
  else
    match x with
    | none => .next (s.qErr q 2)
    | some x => .next ((s.set HIF_Q_CI (s.get HIF_Q_CI q + 1) q).setQu q { s.qu q with fetched := (s.qu q).fetched ++ [x] })

/-! ### Operations of Q00 to Q15 (R422 to R424) -/

/-- The oldest fetched descriptor starts when none is in progress, no completion entry waits and its OP is one of this command's (R423, R428);
`flags`: the greatest FLAGS it may have. -/
def State.startDesc (s : State) (q : Nat) (ops : Nat → Bool) (flags : Nat) (f : Sub → State → Running × State) : State :=
  match (s.qu q).run, s.takeSub q with
  | none, some (x, t) =>
    if !(s.qu (16 + q)).waiting.isEmpty || !(ops x.op) then s
    else
      let (r, t) := if x.zeros && decide (x.flags ≤ flags) then f x t else (⟨x, 4, 0, [], 0⟩, t)
      t.setQu q { t.qu q with run := some r }
  | _, _ => s

/-- A descriptor ends with a status and moves nothing more. -/
def Running.ends (x : Sub) (status : Nat) (result : Nat := 0) : Running := ⟨x, status, result, [], 0⟩

/-- A transfer of LEN bytes starts: nothing for 0, RANGE beyond the capacity, else `data` and `lim` as given and `n` bytes at once (R422, R424). -/
def State.startCopy (s : State) (x : Sub) (data : List Byte) (lim n : Nat) : Running × State :=
  let len := subF32 x 0x20
  if len = 0 then (Running.ends x 0, s)
  else if s.memCap < subF64 x 0x18 + len then (Running.ends x 3, s)
  else s.moveOn ⟨x, 0, 0, data, min len lim⟩ n

/-- NOP, or an unknown OP, which completes BAD_OP (R422, R424). -/
def execNop (q : Fin 16) (s : State) : Res :=
  .next (s.startDesc q (fun op => op == 0 || decide (6 < op)) 0 fun x s => (Running.ends x (if x.op = 0 then 0 else 4), s))

/-- COPY_IN: host memory into the store (R422); with the link down the host memory gives nothing (R434). -/
def execCopyIn (q : Fin 16) (d : List Byte) (n : Nat) (s : State) : Res :=
  .next (s.startDesc q (· == 1) 0 fun x s =>
    let d := if s.on HIF_STAT_LINK then d else []
    s.startCopy x d d.length n)

/-- COPY_OUT: the store into host memory (R422, R424). -/
def execCopyOut (q : Fin 16) (fail : Option Nat) (n : Nat) (s : State) : Res :=
  .next (s.startDesc q (· == 2) 0 fun x s =>
    s.startCopy x [] (if s.on HIF_STAT_LINK then fail.getD (subF32 x 0x20) else 0) n)

/-- FILL: PATTERN repeated from STORE (R422). -/
def execFill (q : Fin 16) (n : Nat) (s : State) : Res :=
  .next (s.startDesc q (· == 3) 0 fun x s =>
    let len := subF32 x 0x20
    let p := bytesOf 8 (subF64 x 0x28)
    s.startCopy x ((List.range len).map fun i => BitVec.ofNat 8 (p.getD (i % 8) 0)) len n)

/-- FENCE: it starts; it completes when the writes that it waits for are done (R174, R422). -/
def execFence (q : Fin 16) (s : State) : Res :=
  .next (s.startDesc q (· == 4) 1 fun x s => (Running.ends x 0, s))

/-- Limits of behaviour level 1 on a job (R491). -/
def State.levelBad (s : State) (j : JobD) : Bool :=
  s.get GLB_COMPAT_LEVEL == 1 &&
    j.bars.any fun b => decide (75590 < s.width b.2.1) || decide (7 < s.get CMP_CP_CTL_PS b.2.2.1)

/-- A port of a job is enabled for its bar and its link is UP (R255). -/
def State.portOk (s : State) (p : Nat × Nat × Nat × Nat) : Bool :=
  s.on HPL_PORT_CFG_EN p.1 && s.get HPL_PORT_CFG_BAR p.1 == p.2.1 && s.linkUp p.1

/-- A ring depth that R18 allows. -/
def ringOk (lead depth : Nat) : Bool := [1024, 2048, 4096, 8192, 16384].contains depth && decide (lead + 256 ≤ depth)

/-- The channels of a layer that a job uses (R183, R186). -/
def jobChans (j : JobD) (d : LayerD) : List Nat := (j.bars.flatMap fun b => d.chans b.2.1).eraseDups

/-- The layer addresses a job names. -/
def JobD.layerAddrs (j : JobD) : List Nat := j.layers.filter (· != 0)

/-- The status of the checks of a descriptor in the order of R431, with the job where it parses. -/
def State.judgeJob (s : State) (x : Sub) : Nat × Option JobD :=
  let a := subF64 x 0x18
  if s.memCap < a + 64 ∨ s.memCap < a + s.ldN (a + 8) 4 then (3, none)
  else if s.bad a 64 || s.bad a (s.ldN (a + 8) 4) then (1, none)
  else
    match s.jobAt a with
    | none => (0x10, none)
    | some j =>
      if s.levelBad j then (0x10, none)
      else if 8 ≤ s.jobSlots.length then (0x14, none)
      else if (s.jobSlot a).isSome then (0x15, none)
      else if !(j.ports.all s.portOk) then (0x13, none)
      else if !(j.ports.all fun p => ringOk j.lead p.2.2.1) then (0x11, none)
      else if j.layerAddrs.any fun l => s.layerPoison l (jobChans j) then (1, none)
      else if j.layerAddrs.any fun l => match parseLayer l (s.ld l 96) with | none => true | some d => s.badHdrs d (jobChans j d) != 0 then
        (0x12, some j)
      else if x.flags = 1 ∧ s.mode ≠ 1 then (0x16, none)
      else (0, some j)

/-- The Husk headers of a job's layers that are bad (R220). -/
def State.jobBadHdrs (s : State) (j : JobD) : Nat := ((s.jobLayers j).map fun d => s.badHdrs d (jobChans j d)).foldl (· + ·) 0

/-- A job entered in a slot: bounds, warnings, coverage, start job (R175, R182, R232, R431); answers min(f_max, f_cmp). -/
def State.enterJob (s : State) (j : JobD) (slot : Nat) (start : Bool) : Nat × State :=
  let s := s.set64 HIF_JOB_DESC_LO j.desc slot
  let s := s.set HIF_JOB_STAT 1 slot
  let fm := s.fMax j
  let fc := s.fCmp j
  let s := (s.set MEM_FMAX fm).set CMP_FMAX fc
  let s := s.cond (decide (fm < j.rate)) fun s => s.raise EV_MEM_BUDGET 255
  let s := s.cond (decide (fc < j.rate)) fun s => s.raise EV_CMP_BUDGET 255
  let s := s.coverage j.portBars (j.ports.map (·.1))
  let s := s.cond start fun s => (s.each (List.range 8) fun i s => s.put HIF_JOB_STAT_START (i == slot) i).mapPorts
  (min fm fc, s)

/-- The first free slot of HIF_JOB. -/
def State.freeSlot (s : State) : Nat := ((List.range 8).find? fun j => !(s.on HIF_JOB_STAT_VALID j)).getD 0

/-- JOB_LOAD: the job is checked and entered (R431); its completion reports it. -/
def execJobLoad (q : Fin 16) (s : State) : Res :=
  .next (s.startDesc q (· == 5) 1 fun x s =>
    match s.judgeJob x with
    | (0, some j) =>
      let slot := s.freeSlot
      let was := match s.jobSlots.find? fun i => s.on HIF_JOB_STAT_START i with | some i => i + 1 | none => 0
      let (f, s) := s.enterJob j slot (x.flags == 1)
      (⟨x, 0, slot + 2 ^ 32 * f, [], if x.flags = 1 then was else 0⟩, s.saw (subF64 x 0x18) 64)
    | (st, some j) => (Running.ends x st, s.addSat HSK_HDR_BAD (s.jobBadHdrs j))
    | (st, none) => (Running.ends x st, if st = 1 then s.saw (subF64 x 0x18) (max 64 (s.ldN (subF64 x 0x18 + 8) 4)) else s))

/-- JOB_UNLOAD: the slot is freed unless the job is in use (R424, R432). -/
def execJobUnload (q : Fin 16) (s : State) : Res :=
  .next (s.startDesc q (· == 6) 0 fun x s =>
    match s.jobSlot (subF64 x 0x18) with
    | none => (Running.ends x 0x18, s)
    | some j =>
      if s.on HIF_JOB_STAT_START j || s.on HIF_JOB_STAT_RUNNING j || s.on HIF_JOB_STAT_CHAINED j then (Running.ends x 0x17, s)
      else (Running.ends x 0 j, s.put HIF_JOB_STAT_VALID false j))

/-- A FENCE's writes are done: those of its own queue before it are; with GLOBAL, those of the other queues submitted before its doorbell (R174). -/
def State.fenceOk (s : State) (q : Nat) (x : Sub) : Bool :=
  if bitN x.flags 0 then
    let i := (s.get HIF_Q_CI q + 2 ^ 32 - (s.qu q).fetched.length) % 2 ^ 32
    match (smGet (fun _ => []) s.hst.doorbells q).find? fun r => idxReached r.1 i with
    | some r => (List.range 16).all fun k => k == q || idxReached (s.qDone k) (r.2.getD k 0)
    | none => true
  else true

/-- The descriptor in progress finishes: what is left of a transfer moves, a host failure or a lost link ends it HOST_ERR, and the completion entry is
committed (R423, R424, R434). -/
def execDescriptorComplete (q : Fin 16) (s : State) : Res :=
  match (s.qu q).run with
  | none => .next s
  | some r =>
    if r.sub.op = 4 ∧ !(s.fenceOk q r.sub) then .next s
    else
      let copy := r.sub.op = 1 ∨ r.sub.op = 2
      let stop := copy ∧ r.status ≤ 1 ∧ r.result < r.lim ∧ !(s.on HIF_STAT_LINK)
      let (r, s) := if stop then (r, s) else s.moveOn r r.lim
      let fail := copy ∧ r.status ≤ 1 ∧ r.result < subF32 r.sub 0x20
      let s := if fail then s.addSat HIF_ERR_HOST 1 else s
      let st := if fail then 2 else r.status
      let head := s.get HIF_Q_CI q + 2 ^ 32 - (s.qu q).fetched.length
      let s := s.setQu q { s.qu q with run := none, ended := some true }
      let s := s.cond (r.sub.op == 5 && st == 0) fun s => s.raise EV_JOB_LOADED 255 (((r.result % 8 : Nat) : Int) :: w64 (subF64 r.sub 0x18))
      let s := s.completes q r.sub st r.result head
      let l := (smGet (fun _ => []) s.hst.doorbells q).filter fun d => !(idxReached (s.qDone q) d.1)
      .next { s with hst.doorbells := smPut (fun _ => []) s.hst.doorbells q l }

/-- The host writes ABORT on a submission queue (R425). -/
def execQueueAbort (q : Fin 16) (s : State) : Res := s.heard <| .next (s.qAbort q)

/-! ### Interrupts (R433) -/

/-- TIME µs have passed since the first unsignalled entry (R433). -/
def execInterruptTimer (q : Qn) (s : State) : Res :=
  .next (if !(hostQueue q) ∧ (s.qu q).unsig ≠ 0 ∧ s.get HIF_Q_MOD_TIME q ≠ 0 then s.qSignal q else s)

/-- The host unmasks a vector: its pending bit signals (R433). -/
def execMsixUnmask (v : Fin 64) (s : State) : Res := s.heard <|
  let s := s.put MSIX_CTRL_MASK false v
  let w := s.get MSIX_PBA (v / 32)
  .next (if bitN w (v % 32) then (s.set MSIX_PBA (putBit w (v % 32) false) (v / 32)).signal v else s)

/-! ### Link, resets, a silent host, event routes (R434, R435, R438) -/

/-- The PCIe link goes down (R434). -/
def execPcieLinkDown (s : State) : Res :=
  if !(s.on HIF_STAT_LINK) then .next s
  else
    let s := ((s.put HIF_STAT_LINK false).set HIF_STAT_GEN 0).set HIF_STAT_WIDTH 0
    .next ((s.addSat HIF_ERR_DOWNS 1).raise EV_HIF_LINK_DOWN)

/-- The PCIe link comes up, and entries that wait are written (R428, R434, R436). -/
def execPcieLinkUp (gen : Fin 5) (w : Fin 4) (s : State) : Res :=
  if s.on HIF_STAT_LINK then .next s
  else
    let s := ((s.put HIF_STAT_LINK true).set HIF_STAT_GEN (gen + 1)).set HIF_STAT_WIDTH (2 ^ w.val)
    let s := s.raise EV_HIF_LINK_UP 255 [((gen + 1 : Nat) : Int), ((2 ^ w.val : Nat) : Int)]
    .next (s.each (List.range 64) fun q s => s.cond (!(hostQueue q) && !(s.qu q).waiting.isEmpty) fun s => s.qDrain q ((s.qu q).waiting.length + 1))

/-- Queues and vectors after a hot or function-level reset (R434): also what a start does to them (R449). -/
def State.queuesOff (s : State) : State :=
  let s := s.each (List.range 64) fun q s =>
    let s := ((s.put HIF_Q_CFG_EN false q).set HIF_Q_PI 0 q).set HIF_Q_CI 0 q
    ((s.put HIF_Q_STAT_ACTIVE false q).setQu q { s.qu q with ring := [], fetched := [], run := none, unsig := 0 }).refreshFull q
  ({ s with hst.doorbells := [] } : State)

/-- Hot reset or function-level reset (R434). -/
def execPcieHotReset (s : State) : Res :=
  let s := s.queuesOff
  let s := s.each (List.range 64) fun q s => (s.set HIF_Q_VEC q q).set HIF_Q_MOD 0 q
  let s := s.each (List.range 64) fun v s => (((s.set MSIX_ADDR_LO 0 v).set MSIX_ADDR_HI 0 v).set MSIX_DATA 0 v).wr (MSIX_CTRL.addr v) (resetAt (MSIX_CTRL.addr v))
  .next ((s.set MSIX_PBA 0 0).set MSIX_PBA 0 1)

/-- The host writes HIF_WDOG, which restarts the count and clears HOST_LOST (R435). -/
def execHifWdogWrite (v : BitVec 32) (s : State) : Res := s.heard <| .next ((s.hostWrite HIF_WDOG.addr v).put HIF_STAT_HOST_LOST false)

/-- The host kicks the watchdog (R435). -/
def execHifWdogKick (s : State) : Res := s.heard <| .next (s.put HIF_STAT_HOST_LOST false)

/-- TMO ms have passed with no kick: HOST_LOST once (R435). -/
def execHostLost (s : State) : Res :=
  .next (if s.get HIF_WDOG_TMO ≠ 0 ∧ !(s.on HIF_STAT_HOST_LOST) then (s.put HIF_STAT_HOST_LOST true).raise EV_HOST_LOST else s)

/-- The host changes an event route for later events (R438). -/
def execEvtRouteWrite (n : Fin 18) (v : BitVec 32) (s : State) : Res := s.heard <| .next (s.hostWrite (EVT_ROUTE.addr n) v)

end Sys2Proof.Machine
end

