-- ==== Sys2Proof/Machine/Crypto.lean ====
section
/-! DEFINITION. The checks of a boot image by the standards that R443 names: SHA-384 (PRESUMED from FIPS 180-4, log 26) and ECDSA over P-384 (PRESUMED from
FIPS 186, log 26), over lists of bytes. -/

namespace Sys2Proof.Machine

/-! ### SHA-384 -/

/-- The round constants of SHA-384. -/
def shaK : List (BitVec 64) :=
  [0x428a2f98d728ae22, 0x7137449123ef65cd, 0xb5c0fbcfec4d3b2f, 0xe9b5dba58189dbbc, 0x3956c25bf348b538, 0x59f111f1b605d019, 0x923f82a4af194f9b, 0xab1c5ed5da6d8118, 0xd807aa98a3030242, 0x12835b0145706fbe, 0x243185be4ee4b28c, 0x550c7dc3d5ffb4e2, 0x72be5d74f27b896f, 0x80deb1fe3b1696b1, 0x9bdc06a725c71235, 0xc19bf174cf692694] ++
  [0xe49b69c19ef14ad2, 0xefbe4786384f25e3, 0xfc19dc68b8cd5b5, 0x240ca1cc77ac9c65, 0x2de92c6f592b0275, 0x4a7484aa6ea6e483, 0x5cb0a9dcbd41fbd4, 0x76f988da831153b5, 0x983e5152ee66dfab, 0xa831c66d2db43210, 0xb00327c898fb213f, 0xbf597fc7beef0ee4, 0xc6e00bf33da88fc2, 0xd5a79147930aa725, 0x6ca6351e003826f, 0x142929670a0e6e70] ++
  [0x27b70a8546d22ffc, 0x2e1b21385c26c926, 0x4d2c6dfc5ac42aed, 0x53380d139d95b3df, 0x650a73548baf63de, 0x766a0abb3c77b2a8, 0x81c2c92e47edaee6, 0x92722c851482353b, 0xa2bfe8a14cf10364, 0xa81a664bbc423001, 0xc24b8b70d0f89791, 0xc76c51a30654be30, 0xd192e819d6ef5218, 0xd69906245565a910, 0xf40e35855771202a, 0x106aa07032bbd1b8] ++
  [0x19a4c116b8d2d0c8, 0x1e376c085141ab53, 0x2748774cdf8eeb99, 0x34b0bcb5e19b48a8, 0x391c0cb3c5c95a63, 0x4ed8aa4ae3418acb, 0x5b9cca4f7763e373, 0x682e6ff3d6b2b8a3, 0x748f82ee5defb2fc, 0x78a5636f43172f60, 0x84c87814a1f0ab72, 0x8cc702081a6439ec, 0x90befffa23631e28, 0xa4506cebde82bde9, 0xbef9a3f7b2c67915, 0xc67178f2e372532b] ++
  [0xca273eceea26619c, 0xd186b8c721c0c207, 0xeada7dd6cde0eb1e, 0xf57d4f7fee6ed178, 0x6f067aa72176fba, 0xa637dc5a2c898a6, 0x113f9804bef90dae, 0x1b710b35131c471b, 0x28db77f523047d84, 0x32caab7b40c72493, 0x3c9ebe0a15c9bebc, 0x431d67c49c100d4c, 0x4cc5d4becb3e42b6, 0x597f299cfc657e2a, 0x5fcb6fab3ad6faec, 0x6c44198c4a475817]

/-- The initial hash value of SHA-384. -/
def shaIv : List (BitVec 64) := [0xcbbb9d5dc1059ed8, 0x629a292a367cd507, 0x9159015a3070dd17, 0x152fecd8f70e5939, 0x67332667ffc00b31, 0x8eb44a8768581511, 0xdb0c2e0d64f98fa7, 0x47b5481dbefa4fa4]

/-- A big-endian number of a list of bytes. -/
def bigNum (l : List Nat) : Nat := l.foldl (fun r b => 256 * r + b % 256) 0

/-- The big-endian bytes of a number. -/
def bigBytes (n x : Nat) : List Nat := (bytesOf n x).reverse

/-- A message padded to whole blocks of 128 bytes. -/
def shaPad (m : List Nat) : List Nat :=
  m ++ [0x80] ++ List.replicate ((111 + 128 - m.length % 128) % 128) 0 ++ bigBytes 16 (8 * m.length)

/-- The message schedule, newest word first: `n` more words. -/
def shaSchedule (n : Nat) (w : List (BitVec 64)) : List (BitVec 64) :=
  match n with
  | 0 => w
  | n + 1 =>
    let a := w.getD 14 0
    let b := w.getD 1 0
    let s0 := a.rotateRight 1 ^^^ a.rotateRight 8 ^^^ (a >>> 7)
    let s1 := b.rotateRight 19 ^^^ b.rotateRight 61 ^^^ (b >>> 6)
    shaSchedule n ((w.getD 15 0 + s0 + w.getD 6 0 + s1) :: w)

/-- One round on the eight working variables. -/
def shaRound (v : List (BitVec 64)) (kw : BitVec 64) : List (BitVec 64) :=
  match v with
  | [a, b, c, d, e, f, g, h] =>
    let t1 := h + (e.rotateRight 14 ^^^ e.rotateRight 18 ^^^ e.rotateRight 41) + ((e &&& f) ^^^ (~~~e &&& g)) + kw
    let t2 := (a.rotateRight 28 ^^^ a.rotateRight 34 ^^^ a.rotateRight 39) + ((a &&& b) ^^^ (a &&& c) ^^^ (b &&& c))
    [t1 + t2, a, b, c, d + t1, e, f, g]
  | _ => v

/-- One block compressed into the hash value. -/
def shaBlock (hv : List (BitVec 64)) (b : List Nat) : List (BitVec 64) :=
  let w := shaSchedule 64 ((List.range 16).map fun i => BitVec.ofNat 64 (bigNum ((b.drop (8 * i)).take 8))).reverse
  let v := (List.zipWith (· + ·) shaK w.reverse).foldl shaRound hv
  List.zipWith (· + ·) hv v

/-- SHA-384 of a list of bytes. -/
def sha384 (m : List Nat) : List Nat :=
  let p := shaPad m
  let hv := (List.range (p.length / 128)).foldl (fun h i => shaBlock h ((p.drop (128 * i)).take 128)) shaIv
  (hv.flatMap fun x => bigBytes 8 x.toNat).take 48

/-! ### ECDSA over P-384 -/

/-- The field prime. -/
def ecP : Nat := 2 ^ 384 - 2 ^ 128 - 2 ^ 96 + 2 ^ 32 - 1
/-- The group order. -/
def ecN : Nat := 0xffffffffffffffffffffffffffffffffffffffffffffffffc7634d81f4372ddf581a0db248b0a77aecec196accc52973
/-- The coefficient b of the curve y² = x³ − 3x + b. -/
def ecB : Nat := 0xb3312fa7e23ee7e4988e056be3f82d19181d9c6efe8141120314088f5013875ac656398d8a2ed19d2a85c8edd3ec2aef
/-- The generator. -/
def ecG : Nat × Nat := (0xaa87ca22be8b05378eb1c71ef320ad746e1d3b628ba79b9859f741e082542a385502f25dbf55296c3a545e3872760ab7, 0x3617de4a96262c6f5d9e98bf9292dc29f8f41dbd289a147ce9da3113b5f0b8c00a60b1ce1d7e819d7a431d7c90ea0e5f)

/-- A power modulo `m`, over the 384 bits of the exponent. -/
def powMod (m x e : Nat) : Nat :=
  ((List.range 384).foldl (fun (r : Nat × Nat) i => (if bitN e i then r.1 * r.2 % m else r.1, r.2 * r.2 % m)) (1 % m, x % m)).1

/-- The inverse modulo a prime. -/
def invMod (m x : Nat) : Nat := powMod m x (m - 2)

/-- The sum of two points; none is the point at infinity. -/
def ecAdd (a b : Option (Nat × Nat)) : Option (Nat × Nat) :=
  match a, b with
  | none, b => b
  | a, none => a
  | some (x1, y1), some (x2, y2) =>
    if x1 = x2 ∧ (y1 + y2) % ecP = 0 then none
    else
      let l := if x1 = x2 then (3 * x1 * x1 + ecP - 3) * invMod ecP (2 * y1) % ecP
        else (y2 + ecP - y1) * invMod ecP (x2 + ecP - x1) % ecP
      let x := (l * l + 2 * ecP - x1 - x2) % ecP
      some (x, (l * (x1 + ecP - x) + ecP - y1) % ecP)

/-- A point multiplied by a scalar of 384 bits. -/
def ecMul (k : Nat) (a : Option (Nat × Nat)) : Option (Nat × Nat) :=
  ((List.range 384).foldl (fun (r : Option (Nat × Nat) × Option (Nat × Nat)) i =>
    (if bitN k i then ecAdd r.1 r.2 else r.1, ecAdd r.2 r.2)) (none, a)).1

/-- A public key is a point of the curve. -/
def ecOn (x y : Nat) : Bool := decide (x < ecP) && decide (y < ecP) && (y * y) % ecP == (x * x * x + (ecP - 3) * x + ecB) % ecP

/-- Whether signature (r, s) of a hash verifies with a public key. -/
def ecVerify (hash : List Nat) (r s x y : Nat) : Bool :=
  decide (1 ≤ r) && decide (r < ecN) && decide (1 ≤ s) && decide (s < ecN) && ecOn x y &&
    (let w := invMod ecN s
     match ecAdd (ecMul (bigNum hash * w % ecN) (some ecG)) (ecMul (r * w % ecN) (some (x, y))) with
     | some p => p.1 % ecN == r
     | none => false)

end Sys2Proof.Machine
end

