-- ==== Sys2Proof/Machine/MgtOps.lean ====
section
/-! DEFINITION. Shared operations of management (17_management): SPI NOR, boot images, the calibration and training stores, a housekeeping round, what a
start resets and what it leaves. -/

namespace Sys2Proof.Machine

/-! ### SPI NOR (R442) -/

/-- Where the log lies in SPI NOR, and its records (R442, R463). -/
def norLog : Nat := 0x3820000
/-- Records of the log ring (R463). -/
def logSlots : Nat := 129024

/-- A byte of SPI NOR; those of a log record, whose format the spec does not give, are free (log 27). -/
def State.norByte (s : State) (a : Nat) : Nat :=
  let k := (a - norLog) / 64
  if norLog ≤ a ∧ k < logSlots then
    match smGet (fun _ => none) s.mgt.logRing k with
    | some r => Config.free 17 (64 * r.num + (a - norLog) % 64) % 256
    | none => (smGet (fun _ => 0xFF) s.nor a).toNat
  else (smGet (fun _ => 0xFF) s.nor a).toNat

/-- `n` bytes of SPI NOR. -/
def State.norLd (s : State) (a n : Nat) : List Nat := (List.range n).map fun i => s.norByte (a + i)

/-- Bytes of SPI NOR written, erased first where needed. -/
def State.norPut (s : State) (a : Nat) (l : List Nat) : State :=
  { s with nor := (List.range l.length).foldl (fun m i => smPut (fun _ => 0xFF) m (a + i) (BitVec.ofNat 8 (l.getD i 0xFF))) s.nor }

/-- `n` bytes of SPI NOR erased. -/
def State.norErase (s : State) (a n : Nat) : State :=
  { s with
    nor := s.nor.filter fun e => !(decide (a ≤ e.1) && decide (e.1 < a + n)),
    mgt.logRing := s.mgt.logRing.filter fun e => !(decide (a ≤ norLog + 64 * e.1) && decide (norLog + 64 * e.1 < a + n)) }

/-! ### Boot images (R443 to R445) -/

/-- Bytes of an image slot. -/
def slotSize : Nat := 0x1800000

/-- The header of an image slot. -/
def State.slotHdr (s : State) (k : Nat) : List Nat := s.norLd (slotSize * k) 512

/-- Whether the boot ROM finds a slot valid: the checks of R444 in their order. -/
def State.slotValid (s : State) (k : Nat) : Bool :=
  let h := s.slotHdr k
  let len := fieldAt h 0x10 4
  let key := fieldAt h 6 1
  let pub := (h.drop 0xA8).take 96
  if len = 0 ∨ slotSize - 512 < len then false
  else
  let body := s.norLd (slotSize * k + 512) len
  fieldAt h 0x1FC 4 == crc32 (h.take 0x1FC ++ body) &&
    fieldAt h 0 4 == 0x31574647 && fieldAt h 4 2 == 1 &&
    decide (key < 4) && !(smGet (fun _ => false) s.mgt.fuseRev key) && decide (sha384 pub = smGet (fun _ => []) s.mgt.fuseKey key) &&
    decide ((h.drop 0x18).take 48 = sha384 body) &&
    ecVerify (sha384 (h.take 0x48)) (bigNum ((h.drop 0x48).take 48)) (bigNum ((h.drop 0x78).take 48)) (bigNum (pub.take 48)) (bigNum (pub.drop 48)) &&
    decide (s.mgt.fuseSvn ≤ fieldAt h 0xC 2)

/-- SEQ of a slot's image. -/
def State.slotSeq (s : State) (k : Nat) : Nat := fieldAt (s.slotHdr k) 8 4

/-- The slot that the boot ROM starts among the valid ones not in `tried`: the higher SEQ, slot 0 where they are equal (R445). -/
def State.bootSlot (s : State) (tried : List Nat) : Option Nat :=
  let ok := fun (k : Nat) => !(tried.contains k) && s.slotValid k
  if ok 0 && ok 1 then some (if s.slotSeq 0 < s.slotSeq 1 then 1 else 0)
  else if ok 0 then some 0
  else if ok 1 then some 1
  else none

/-! ### The calibration store (R454, R455) -/

/-- A copy of the calibration store in SPI NOR. -/
def calAt (i : Nat) : Nat := 0x3000000 + 0x400000 * i

/-- A camera record's bytes. -/
def CamCal.bytes (c : CamCal) : List Nat :=
  bytesOf 4 c.flags ++ bytesOf 4 c.nflat ++ bytesOf 8 c.time ++ bytesOf 8 c.tile ++ bytesOf 2 c.mean ++ bytesOf 2 c.max ++ [0, 0, 0, 0] ++
    (List.range 24).flatMap (fun i => bytesOf 4 (c.regs.getD i 0)) ++ (List.range 3072).flatMap (fun i => bytesOf 2 (c.tone.getD i 0)) ++
    (List.range (3 * c.nflat)).flatMap fun i => bytesOf 4 (c.flat.getD i 0)

/-- Camera records packed in unit order from `o`: DIR entries as (OFFSET, SIZE), and the bytes (R455). -/
def packCams (l : List CamCal) (o : Nat) : List (Nat × Nat) × List Nat :=
  match l with
  | [] => ([], [])
  | c :: r =>
    if c = CamCal.empty then
      let (d, b) := packCams r o
      ((0, 0) :: d, b)
    else
      let x := c.bytes
      let pad := (64 - x.length % 64) % 64
      let (d, b) := packCams r (o + x.length + pad)
      ((o, x.length) :: d, x ++ List.replicate pad 0 ++ b)

/-- The 4 MiB of a copy of the calibration store (R455); bytes that no record takes stay erased (log 28). -/
def CalRec.bytes (r : CalRec) : List Nat :=
  let (d, b) := packCams r.cams 0x100
  let h := bytesOf 4 0x534C4143 ++ bytesOf 2 1 ++ [0, 0] ++ bytesOf 4 r.seq ++ bytesOf 4 r.count ++ bytesOf 8 r.time ++
    (List.range 64).map (fun i => r.board.getD i 0) ++ d.flatMap (fun e => bytesOf 4 e.1 ++ bytesOf 4 e.2) ++ List.replicate 104 0 ++ b
  let h := h ++ List.replicate (0x3FFFFC - h.length) 0xFF
  h ++ bytesOf 4 (crc32 h)

/-- A camera record from its bytes. -/
def parseCam (b : List Nat) : CamCal :=
  let n := fieldAt b 4 4
  { flags := fieldAt b 0 4, nflat := n, time := fieldAt b 8 8, tile := fieldAt b 0x10 8, mean := fieldAt b 0x18 2, max := fieldAt b 0x1A 2,
    regs := (List.range 24).map fun i => fieldAt b (0x20 + 4 * i) 4,
    tone := (List.range 3072).map fun i => fieldAt b (0x80 + 2 * i) 2,
    flat := (List.range (3 * n)).map fun i => fieldAt b (0x1880 + 4 * i) 4 }

/-- The record of a copy, none where MAGIC, VERSION or CRC fails (R454). -/
def State.calCopy (s : State) (i : Nat) : Option CalRec :=
  let h := s.norLd (calAt i) 8
  if fieldAt h 0 4 ≠ 0x534C4143 ∨ fieldAt h 4 2 ≠ 1 then none
  else
  let b := s.norLd (calAt i) 0x400000
  if fieldAt b 0x3FFFFC 4 = crc32 (b.take 0x3FFFFC) then
    some { seq := fieldAt b 8 4, count := fieldAt b 0xC 4, time := fieldAt b 0x10 8, board := (b.drop 0x18).take 64,
           cams := (List.range 8).map fun u =>
             let z := fieldAt b (0x58 + 8 * u + 4) 4
             if z = 0 then CamCal.empty else parseCam ((b.drop (fieldAt b (0x58 + 8 * u) 4)).take z) }
  else none

/-- A number is newer than another of `w` bits: it is 1 to 2^(w − 1) − 1 ahead (R454). -/
def newer (w a b : Nat) : Bool :=
  let d := (a + 2 ^ w - b % 2 ^ w) % 2 ^ w
  decide (1 ≤ d) && decide (d < 2 ^ (w - 1))

/-- The copy in force of two with their numbers: the valid one that is newer (R454). -/
def inForce (w : Nat) (a b : Option Nat) : Option Nat :=
  match a, b with
  | some x, some y => some (if newer w y x then 1 else 0)
  | some _, none => some 0
  | none, some _ => some 1
  | none, none => none

/-- The copy of the calibration store in force. -/
def State.calCur (s : State) : Option Nat := inForce 32 ((s.calCopy 0).map (·.seq)) ((s.calCopy 1).map (·.seq))

/-- The calibration record in force as a start reads it (R454). -/
def State.calRead (s : State) : Option CalRec :=
  match s.calCur with
  | some i => s.calCopy i
  | none => none

/-! ### The training store (R163, R454) -/

/-- A copy of the training store in SPI NOR. -/
def trainAt (i : Nat) : Nat := 0x3800000 + 0x10000 * i

/-- Bytes of a training record. -/
def trainLen : Nat := 0x6024

/-- The bytes of a valid copy of the training record. -/
def State.trainCopy (s : State) (i : Nat) : Option (List Nat) :=
  let b := s.norLd (trainAt i) trainLen
  if fieldAt b 0 4 = 0x474E5254 ∧ fieldAt b 4 2 = 1 ∧ fieldAt b 0x6020 4 = crc32 (b.take 0x6020) then some b else none

/-- COUNT of a training record. -/
def trainCount (b : List Nat) : Nat := fieldAt b 0x12 2

/-- The copy of the training store in force. -/
def State.trainCur (s : State) : Option Nat := inForce 16 ((s.trainCopy 0).map trainCount) ((s.trainCopy 1).map trainCount)

/-- The training record in force. -/
def State.trainRead (s : State) : Option (List Nat) :=
  match s.trainCur with
  | some i => s.trainCopy i
  | none => none

/-- A training record (R163). -/
def State.trainBytes (s : State) (recs : List (List Byte)) : List Nat :=
  let count := match s.trainRead with | some b => (trainCount b + 1) % 2 ^ 16 | none => 1
  let b := bytesOf 4 0x474E5254 ++ bytesOf 2 1 ++ [s.get MEM_CFG % 256, 0] ++ bytesOf 8 (s.get64 GLB_DIE_ID_LO) ++ bytesOf 2 (s.get MGT_TDIE_TDIE) ++
    bytesOf 2 count ++ [0, 0, 0, 0] ++ bytesOf 8 s.ptpSec ++
    (List.range 24).flatMap fun n =>
      if n < s.memN then (List.range 1024).map fun i => ((recs.getD n []).getD i 0).toNat else List.replicate 1024 0
  b ++ bytesOf 4 (crc32 b)

/-! ### The store's population (R148 to R150, R162) -/

/-- The data rate in MT/s. -/
def State.memRate (s : State) : Nat := ([4800, 5600, 6400] : List Nat).getD (s.get MEM_CFG_RATE) 6400

/-- The usable capacity of the population: the raw capacity less 64 KiB of every sub-channel (R150). -/
def State.popCap (s : State) : Nat :=
  let gib := ([8, 12, 16] : List Nat).getD (s.get MEM_CFG_DENSITY) 8
  s.memN * (gib * (s.get MEM_CFG_WIDTH + 1) * (s.get MEM_CFG_RANKS + 1) * 2 ^ 30 - 65536)

/-- MEM_CFG from a board record, and the planning figure (R149). -/
def State.setPop (s : State) (cfg : Nat) : State :=
  let s := s.set MEM_CFG (cfg % 128)
  s.set MEM_PLAN_BW_W (rdiv ((4300 * s.memN * s.memRate : Nat) : Int) (24 * 6400)).toNat

/-! ### A housekeeping round (R456 to R461) -/

/-- A remote input is enabled. -/
def State.tsOn (s : State) (n : Nat) : Bool := s.get MGT_TS_CFG_TYPE n == 1 || s.get MGT_TS_CFG_TYPE n == 2

/-- The raw measurement lies in its range: 20 to 100 mV, or a ratio of 0.02 to 0.98 (R457). -/
def State.tsValid (s : State) (n : Nat) (x : TsIn) : Bool :=
  if s.get MGT_TS_CFG_TYPE n = 1 then decide (2000 ≤ x.raw) && decide (x.raw ≤ 10000) else decide (200 ≤ x.raw) && decide (x.raw ≤ 9800)

/-- A reading within the span of R457. -/
def tsRead (x : TsIn) : Int := clampI (-320) 1200 x.read

/-- Twice the neighbours' mean when they agree: judged on this round's readings and the previous round's states in `old` (R458). -/
def tsAgree (old : State) (x : HkIn) (n : Nat) : Option Int :=
  let a := old.get MGT_TS_CFG_N1 n
  let b := old.get MGT_TS_CFG_N2 n
  let p := x.ts.getD a ⟨0, 0⟩
  let q := x.ts.getD b ⟨0, 0⟩
  let ok := fun (m : Nat) (y : TsIn) => old.tsOn m && old.tsValid m y && old.get MGT_TS_STAT_STATE m == 0
  if old.on MGT_TS_CFG_N1_EN n && old.on MGT_TS_CFG_N2_EN n && ok a p && ok b q &&
      decide ((tsRead p - tsRead q).natAbs ≤ old.get MGT_XCHK_AGREE) then
    some (tsRead p + tsRead q)
  else none

/-- One remote input judged (R457 to R459). -/
def State.tsJudge (s old : State) (x : HkIn) (n : Nat) : State :=
  let y := x.ts.getD n ⟨0, 0⟩
  let r := tsRead y
  let was := old.get MGT_TS_STAT_STATE n
  let k := smGet (fun _ => TsSt.empty) s.mgt.hkTs n
  let keep := fun (s : State) (k : TsSt) => ({ s with mgt.hkTs := smPut (fun _ => TsSt.empty) s.mgt.hkTs n k } : State)
  let s := s.seti MGT_TS_VAL_READ r n
  let agree := tsAgree old x n
  let s := s.put MGT_TS_STAT_NOJUDGE agree.isNone n
  if !(old.tsValid n y) then
    let s := s.cond (was != 2 && was != 3) fun s => s.raise EV_SENSOR_OPEN
    match agree with
    | some m => keep ((s.set MGT_TS_STAT_STATE 2 n).seti MGT_TS_VAL_CTRL (m / 2) n) { k with blind := 0, clear := 0 }
    | none =>
      if 16 ≤ k.blind + 1 then keep ((s.set MGT_TS_STAT_STATE 3 n).seti MGT_TS_VAL_CTRL 1200 n) { k with blind := 16, clear := 0 }
      else keep (s.set MGT_TS_STAT_STATE 2 n) { k with blind := k.blind + 1, clear := 0 }
  else
    let good := fun (s : State) => keep ((s.set MGT_TS_STAT_STATE 0 n).seti MGT_TS_VAL_CTRL r n) ⟨0, 0, true⟩
    match agree with
    | none => if was = 1 then keep s { k with clear := 0, blind := 0 } else good s
    | some m =>
      let dev := (2 * r - m).natAbs
      if was = 1 then
        let c := if dev ≤ old.get MGT_XCHK_DEV then k.clear + 1 else 0
        if old.get MGT_XCHK_CLEAR ≠ 0 ∧ old.get MGT_XCHK_CLEAR ≤ c then good (s.raise EV_SENSOR_CLEAR)
        else keep (s.seti MGT_TS_VAL_CTRL (m / 2) n) { k with clear := c, blind := 0 }
      else if 2 * old.get MGT_XCHK_DEV < dev then
        keep ((((s.raise EV_SENSOR_SUSPECT).addSat MGT_TS_STAT_SUSPECTS 1 n).set MGT_TS_STAT_STATE 1 n).seti MGT_TS_VAL_CTRL (m / 2) n) ⟨0, 0, true⟩
      else good s

/-- One supply monitor judged (R460); during a start a trip fails the start in place of the event. -/
def State.smJudge (s : State) (x : HkIn) (boot : Bool) (m : Nat) : State :=
  let mv := (rdiv ((x.sm.getD m 0 * s.get MGT_SM_CFG2_DIV m : Nat) : Int) 25600).toNat
  let s := s.set MGT_SM_VAL_MV mv m
  let nom := s.get MGT_SM_CFG_NOM m
  let off := ((mv : Int) - nom).natAbs * 1000
  let was := s.get MGT_SM_VAL_STATE m
  let st := if nom = 0 then 0 else if s.get MGT_SM_CFG_TRIP m * nom < off then 2 else if s.get MGT_SM_CFG_WARN m * nom < off then 1 else 0
  let s := s.set MGT_SM_VAL_STATE st m
  let s := s.cond (was == 0 && st != 0) fun s => s.raise EV_SUPPLY_WARN
  let n := if st = 2 then smGet (fun _ => 0) s.mgt.smTrip m + 1 else 0
  let s : State := { s with mgt.smTrip := smPut (fun _ => 0) s.mgt.smTrip m (min n 3) }
  let s := s.cond (st == 2) fun s => s.addSat MGT_SM_VAL_TRIPS 1 m
  s.cond (n == 2 && s.on MGT_SM_CFG2_ACT m && !boot) fun s => s.fatal EV_SUPPLY_TRIP

/-- A list of numbers in rising order. -/
def sortInts (l : List Int) : List Int := l.foldl (fun r x => (r.filter (· ≤ x)) ++ [x] ++ r.filter (fun y => decide (x < y))) []

/-- The on-die sensors judged: exclusion, TDIE and the thermal limits (R461). -/
def State.dieJudge (s : State) (x : HkIn) (boot : Bool) : State :=
  let l := (List.range 16).map fun k => x.od.getD k 0
  let o := sortInts l
  let med := o.getD 7 0 + o.getD 8 0
  let s := s.each (List.range 16) fun k s =>
    let t := l.getD k 0
    (s.seti MGT_OD_TEMP t k).put MGT_OD_EXCL (decide (240 < (2 * t - med).natAbs)) k
  let used := l.filter fun t => decide ((2 * t - med).natAbs ≤ 240)
  let t := used.foldl max (used.headD (s.geti MGT_TDIE_TDIE))
  let s := (s.seti MGT_TDIE_TDIE t).seti MGT_TDIE_PEAK (max t (s.geti MGT_TDIE_PEAK))
  let w : Int := 8 * s.get MGT_THERM_TJ_WARN
  let s := if w ≤ t then
      (if s.mgt.dieHot then s else ({ s with mgt.dieHot := true } : State).raise EV_DIE_HOT)
    else if t < w - 40 then { s with mgt.dieHot := false } else s
  s.cond (decide ((8 * s.get MGT_THERM_TJ_SAFE : Nat) ≤ t) && !boot) fun s => s.fatal EV_DIE_OVERTEMP

/-- Power domains of ports and cameras follow what is enabled in IDLE and SERVICE (R471). -/
def State.domains (s : State) : State :=
  if s.mode = 1 ∨ s.mode = 6 then
    let s := s.each (List.range 4) fun d s =>
      { s with domOff := smPut (fun _ => false) s.domOff d (!((List.range 32).any fun i => s.on HPL_PORT_CFG_EN (32 * d + i))) }
    let cam := (List.range 8).any (fun u => s.on CAM_U_CFG_EN u) || (List.range 8).any (fun l => s.on CAM_CX_CFG_EN l) ||
      (List.range 4).any fun p => s.on CAM_CS_CFG_EN p
    { s with domOff := smPut (fun _ => false) s.domOff 4 (!cam) }
  else s

/-- A housekeeping round: every sensor judged, values and actions published, the round counted (R456 to R461); lamp compensation and the drift check read
the round's values (R166, R348, R349). -/
def State.hkRound (s : State) (x : HkIn) (boot : Bool) : State :=
  let old := s
  let s := s.each ((List.range 32).filter fun n => old.tsOn n) fun n s => s.tsJudge old x n
  let s := s.each (List.range 24) fun m s => s.smJudge x boot m
  let s := (s.dieJudge x boot).addWrap MGT_HK_ROUND 1
  if boot then s
  else
    let s := s.each (List.range 12) fun n s => s.lampRound n (s.geti MGT_TS_VAL_CTRL (s.get LS_CFG_TS n))
    s.checkDrift.domains

/-! ### The management cores (R439, R462) -/

/-- The cores run, or not. -/
def State.coresRun (s : State) (run : Bool) : State :=
  let s := s.set MGT_STAT_CORES (if run then 15 else 0)
  s.each (List.range 4) fun c s =>
    if run then (s.unstall (0xD4 + c) 1 2).setRun (0xD4 + c) 2 else s.stall (0xD4 + c) 1

/-- The firmware runs and takes requests. -/
def State.fwRuns (s : State) : Bool :=
  s.mgt.start.isNone && !s.mgt.thermTrip && s.mode != 0 && !(s.on MGT_STAT_RESTARTING) && s.get MGT_STAT_CORES == 15

/-! ### What a start resets (R10, R446, R449, R470) -/

/-- A register after a warm reset: fields marked kept keep their value, a shadowed field takes its applied value, the others take the reset value (R10, R449). -/
def State.warmWord (s : State) (a : Nat) (w : Word) : Word :=
  let keep := maskAt (fun f => f.kept) a
  let rws := maskAt (fun f => f.ty == .RWS) a
  (((w &&& ~~~rws) ||| (s.ap a &&& rws)) &&& keep) ||| (resetAt a &&& ~~~keep)

/-- The register file after a warm reset. -/
def State.warmRegs (s : State) : SMap Word :=
  let m := s.regs.foldl (fun m e => smPut resetAt m e.1 (s.warmWord e.1 e.2)) []
  s.applied.foldl (fun m e => smPut resetAt m e.1 (s.warmWord e.1 (s.rd e.1))) m

/-- The applied values after a warm reset. -/
def State.warmApplied (s : State) : SMap Word :=
  s.applied.foldl (fun m e =>
    let keep := maskAt (fun f => f.kept) e.1
    smPut resetAt m e.1 ((e.2 &&& keep) ||| (resetAt e.1 &&& ~~~keep))) []

/-- Start and boot registers of the AON domain, which a start leaves as it ends them (R465). -/
def startRegs : List Nat := [GLB_START_STAT.addr, GLB_START_TIME.addr, GLB_BOOT.addr, GLB_FW_SEQ.addr]

/-- What any start keeps: the strap that ROLE shows (R396), SPI NOR, fuses, the log, the host's command queue, pins, model time. -/
def State.bare (s : State) (m : MgtSt) : State :=
  { State.reset.set TWN_STAT_ROLE (s.get TWN_STAT_ROLE) with
    clk := s.clk, netAcc := s.netAcc, fresh := s.fresh, irqSent := s.irqSent, nor := s.nor, gioRaw := s.gioRaw, pwidth := s.pwidth, pending := s.pending,
    mgt := { m with
      fuseSvn := s.mgt.fuseSvn, fuseKey := s.mgt.fuseKey, fuseRev := s.mgt.fuseRev, logRing := s.mgt.logRing, logNum := s.mgt.logNum, logBuf := s.mgt.logBuf } }

/-- The reset of a cold start: everything but the start registers (R446, R449, R465); the store stays until it is cleared (R447). -/
def State.coldReset (s : State) (kind cause : Nat) : State :=
  let t := s.bare { MgtSt.empty with start := some ⟨kind, cause, false, []⟩ }
  let t : State := { t with store := s.store, poison := s.poison }
  let t := t.each startRegs fun a t => t.wr a (s.rd a)
  ((((t.set GLB_START_STAT_KIND kind).put GLB_START_STAT_DONE false).set GLB_START_STAT_STEP 0).set GLB_START_STAT_RESULT 0).set GLB_START_STAT_CAUSE cause
    |>.put GLB_START_STAT_RECOVERY false

/-- The reset of a warm start: domains but AON and MEM (R164, R448, R449, R391). -/
def State.warmReset (s : State) (cause : Nat) : State :=
  let servo := s.get TIM_STAT_SERVO
  let t := s.bare { MgtSt.empty with start := some ⟨2, cause, false, []⟩ }
  let t : State := { t with
    regs := s.warmRegs, applied := s.warmApplied, nsFrac := s.nsFrac, store := s.store, poison := s.poison,
    memSleep := (List.range 24).foldl (fun m n => smPut (fun _ => false) m n true) [],
    tilTab := s.tilTab, nzUnc := s.nzUnc, engCode := s.engCode, engData := s.engData,
    trk := s.trk.foldl (fun m e => smPut (fun _ => Trk.empty) m e.1 { Trk.empty with frac := e.2.frac }) [] }
  let t := t.each startRegs fun a t => t.wr a (s.rd a)
  let t := (((t.set TIM_NS (s.get TIM_NS)).set TIM_EPOCH_NS (s.get TIM_EPOCH_NS)).set TIM_EPOCH_SEC (s.get TIM_EPOCH_SEC)).set64 TIM_ADJ_LO (s.geti64 TIM_ADJ_LO)
  let t := (t.set TIM_SEC_HI_SEC_HI (s.get TIM_SEC_HI_SEC_HI)).set TIM_STAT_SERVO (if servo = 2 then 3 else servo)
  let t := (t.set GLB_MODE_STAT_MODE 0).put MEM_STAT_READY false
  let t := t.each ((List.range 0xD8).filter fun n => n < 0xA0 || 0xB8 ≤ n) fun n t =>
    let p := s.get GLB_UST_PERMIT n
    ((t.set GLB_UST_RUNSTATE 0 n).set GLB_UST_PERMIT (if p = 5 then 1 else p) n).set GLB_UST_STATE (combineState 0 (if p = 5 then 1 else p)) n
  ((((t.set GLB_START_STAT_KIND 2).put GLB_START_STAT_DONE false).set GLB_START_STAT_STEP 0).set GLB_START_STAT_RESULT 0).set GLB_START_STAT_CAUSE cause
    |>.put GLB_START_STAT_RECOVERY false

/-- The press leaves its mode for BOOT (R27). -/
def State.leaveMode (s : State) : State := if s.mode = 0 then s else s.raise EV_MODE_CHANGE 255 [0]

/-- A start begins, unless one runs (R446). -/
def State.beginStart (s : State) (warm : Bool) (cause : Nat) : State :=
  if s.mgt.start.isSome || s.mgt.thermTrip then s
  else if warm then s.leaveMode.warmReset cause
  else s.leaveMode.coldReset 1 cause

/-- A power-on reset: everything but SPI NOR and the fuses is lost, and a cold start begins (R446, R450, R461, R474, R478). -/
def State.powerOn (s : State) : State :=
  let t := s.bare { MgtSt.empty with start := some ⟨1, 0, false, []⟩ }
  { t with mgt.logBuf := [], mgt.logNum := s.mgt.logNum - s.mgt.logBuf.length }

/-! ### How a start ends (R447 to R453) -/

/-- A start ends in SAFE with a result at a step (R447, R452); the firmware, where it runs, logs it (R453). -/
def State.failStart (s : State) (st : StartSt) (step result : Nat) : State :=
  let s : State := { s with mgt.start := none }
  let s := (s.set GLB_START_STAT_KIND st.kind).set GLB_START_STAT_CAUSE st.cause
  let s := ((s.set GLB_START_STAT_STEP step).set GLB_START_STAT_RESULT result).set GLB_START_STAT_WFAIL 0
  let s := s.cond (decide (4 ≤ result)) fun s => s.logRec 0 [(st.kind : Int), (st.cause : Int), (result : Int), (step : Int), s.geti MGT_TDIE_TDIE]
  s.setMode 7 1

/-- A start ends in IDLE (R447 to R450). -/
def State.passStart (s : State) (st : StartSt) (step ms : Nat) : State :=
  let s : State := { s with mgt.start := none }
  let s := (s.set GLB_START_STAT_KIND st.kind).set GLB_START_STAT_CAUSE st.cause
  let s := (((s.set GLB_START_STAT_STEP step).set GLB_START_STAT_RESULT 0).put GLB_START_STAT_DONE true).set GLB_START_STAT_WFAIL 0
  let s := (s.set GLB_START_TIME_MS ms).logRec 0 [(st.kind : Int), (st.cause : Int), 0, (step : Int), s.geti MGT_TDIE_TDIE]
  let s := s.setMode 1 1
  s.refreshBars.refreshCams.refreshGroups

/-- The image of a slot runs (R445, R465); the firmware restores the log's record number (R463). -/
def State.runImage (s : State) (k : Nat) (tried : List Nat) : State :=
  let h := s.slotHdr k
  let s := ((s.set GLB_BOOT_SLOT k).put GLB_BOOT_FALLBACK (!tried.isEmpty)).set GLB_BOOT_SVN (fieldAt h 0xC 2)
  (s.set GLB_FW_SEQ_SEQ (fieldAt h 8 4)).set MGT_LOG_WR_WR (s.mgt.logNum - s.mgt.logBuf.length)

/-- The cores come up: their units are permitted and run (R439). -/
def State.coresUp (s : State) : State :=
  (s.each (List.range 4) fun c s => s.setPermit (0xD4 + c) 1).coresRun true

/-- The first housekeeping round of a start: 0, or the RESULT of its failure (R447, R460). -/
def State.firstRound (s : State) : Nat :=
  if (List.range 24).any fun m => s.get MGT_SM_VAL_STATE m == 2 then 4
  else if (8 * s.get MGT_THERM_TJ_SAFE : Int) ≤ s.geti MGT_TDIE_TDIE then 5 else 0

/-- The board record and the camera records take effect (R447 step 5, R455). -/
def State.useCal (s : State) (c : CalRec) : State :=
  let s : State := { s with cal := some c }
  let s := (s.set CHL_CAL_STAT_COUNT c.count).set CHL_CAL_TIME_SECONDS c.time
  s.each (List.range 8) fun u s =>
    let x := c.cams.getD u CamCal.empty
    s.each ((List.range x.regs.length).filter (· < 24)) fun i s => s.wr (CAM_U_BLACK0.addr u + 4 * i) (BitVec.ofNat 32 (x.regs.getD i 0))

/-- An eye of `e` hundredths of a unit interval, in ps (R161, R178). -/
def State.eyePs (s : State) (e : Nat) : Nat := min 255 (rdiv ((e * 10000 : Nat) : Int) s.memRate).toNat

/-- Training of sub-channel `n`: its eyes recorded; narrower than 0.30 UI it is FAILED (R161). -/
def State.trainSc (s : State) (n : Nat) (x : ScTrain) : State :=
  let s := ((s.set MEM_SC_MARGIN_RD_EYE (s.eyePs x.rd.toNat) n).set MEM_SC_MARGIN_WR_EYE (s.eyePs x.wr.toNat) n).set MEM_SC_MARGIN_CA_EYE (s.eyePs x.ca.toNat) n
  if x.rd.toNat < 30 ∨ x.wr.toNat < 30 ∨ x.ca.toNat < 30 then
    ((s.put MEM_SC_STAT_FAILED true n).set MEM_FAILED_MAP (putBit (s.get MEM_FAILED_MAP) n true)).setRun (scUnit n) 5
  else s.put MEM_SC_STAT_TRAINED true n

/-- The units whose data plane reports them present: all but unpopulated sub-channels (R447 step 8). -/
def State.presentUnits (s : State) : List Nat := (List.range 0xD8).filter fun n => n < 0xA0 + s.memN || 0xB8 ≤ n

end Sys2Proof.Machine
end

