-- ==== Sys2Proof/Machine/Mgmt.lean ====
section
/-! DEFINITION. Management, start and health (17_management, R474, R478): mailbox requests, starts, boot, SPI NOR, housekeeping, watchdog, log. -/

namespace Sys2Proof.Machine

/-! ### The mailbox (R440, R441) -/

/-- CMD, ARG0 and ARG1 of a request. -/
def mbCmd (x : Sub) : Nat := subF32 x 0x10 % 65536
/-- ARG0 of a request. -/
def mbArg0 (x : Sub) : Nat := subF32 x 0x10 / 65536
/-- ARG1 of a request. -/
def mbArg1 (x : Sub) : Nat := subF32 x 0x14
/-- ADDR of a request. -/
def mbAddr (x : Sub) : Nat := subF64 x 0x18
/-- LEN of a request. -/
def mbLen (x : Sub) : Nat := subF32 x 0x20

/-- Reserved bytes of a request are 0; an INLINE board record has its identity in 0x24 to 0x2B (R440). -/
def mbZeros (x : Sub) (inline : Bool) : Bool :=
  x.op == 0 && x.flags == 0 && x.zeros &&
    (List.range 7).all fun i => (inline && decide (i < 2)) || subF32 x (0x24 + 4 * i) == 0

/-- A reply on Q58 or Q59 (R440). -/
def State.reply (s : State) (q tag status : Nat) (res0 res1 : Nat := 0) : State :=
  s.qSend (58 + q) ⟨8, status, 0, 0, tag, false,
    [BitVec.ofNat 32 res0, BitVec.ofNat 32 (res0 / 2 ^ 32), BitVec.ofNat 32 res1, BitVec.ofNat 32 (res1 / 2 ^ 32)]⟩

/-- The request queues whose requests wait for a NOR write in progress. -/
def State.norReplies (s : State) : List Nat :=
  s.norJobs.filterMap fun j => match j with
    | .train _ => none
    | .cal _ r => r.map (·.1)
    | .image _ _ r => some r.1

/-- The firmware takes the oldest request of a queue when its CMD is one of this command's: a request with non-zero reserved bytes ends BAD_CMD, a
request that writes SPI NOR waits behind a write in progress, one whose queue has such a write waits too, and none is taken while the reply queue has
entries that wait (R428, R440, R441). -/
def State.mbox (s : State) (q : Nat) (cmd : Nat → Bool) (nor : Bool) (f : Sub → State → State) : State :=
  match s.takeSub (56 + q) with
  | none => s
  | some (x, t) =>
    if !s.fwRuns || !(cmd (mbCmd x)) || !(s.qu (58 + q)).waiting.isEmpty || s.norReplies.contains q || (nor && !s.norJobs.isEmpty) then s
    else if !(mbZeros x (mbCmd x == 0x13 && bitN (mbArg1 x) 0)) then t.reply q x.tag 1
    else f x t

/-- The commands of R440. -/
def mbCmds : List Nat := [1, 2, 3, 0x10, 0x11, 0x12, 0x13, 0x20, 0x21, 0x30]

/-- PING, and every CMD that R440 does not name (R440). -/
def execMboxPing (q : Fin 2) (s : State) : Res :=
  .next (s.mbox q (fun c => c == 1 || !(mbCmds.contains c)) false fun x s =>
    if mbCmd x = 1 then s.reply q x.tag 0 (s.get GLB_FW_SEQ_SEQ) else s.reply q x.tag 1)

/-- The web stands still on the reference tracker (R40). -/
def State.webStill (s : State) : Bool := s.get GEK_TRK_SPEED_SPEED (s.get GEK_CTL_REF_TRK) == 0

/-- The permission view of unit `n` becomes FENCED: a sub-channel takes no more requests and, in PRINT, moves the press to HOLD (R41, R176); another unit
stops at once outside PRINT and SHADOW or on a web that stands still (R40). -/
def State.fenceUnit (s : State) (n : Nat) : State :=
  if s.get GLB_UST_PERMIT n = 4 ∨ s.get GLB_UST_PERMIT n = 5 then s
  else
    let s := s.setPermit n 4
    if 0xA0 ≤ n ∧ n < 0xB8 then
      let c := n - 0xA0
      ((s.put MEM_SC_STAT_FENCED true c).set MEM_FENCED_MAP (putBit (s.get MEM_FENCED_MAP) c true)).faultHold 2 7 0 c
    else if (s.printing || s.mode == 5) && !s.webStill then s
    else s.stopUnit n

/-- MBOX FENCE (R440, R441). -/
def execMboxFence (q : Fin 2) (s : State) : Res :=
  .next (s.mbox q (· == 2) false fun x s =>
    if 0xD4 ≤ mbArg0 x then s.reply q x.tag 3
    else (s.fenceUnit (mbArg0 x)).reply q x.tag 0)

/-- What a unit that is permitted again runs as (R40, R176). -/
def State.wakeUnit (s : State) (n : Nat) : State :=
  if n < 0x10 then s.refreshBar n
  else if n < 0x90 then s.refreshPort (n - 0x10)
  else if n < 0x98 then s.refreshCam (n - 0x90)
  else if n < 0xA0 then s.refreshGroup (n - 0x98)
  else if n < 0xB8 then
    let c := n - 0xA0
    let s : State := { s with memSleep := smPut (fun _ => false) s.memSleep c false }
    ((s.put MEM_SC_STAT_FENCED false c).set MEM_FENCED_MAP (putBit (s.get MEM_FENCED_MAP) c false)).setRun n (if c < s.memN then 2 else 0)
  else s

/-- MBOX PERMIT (R440, R441); sub-channels in IDLE and SERVICE only (R176). -/
def execMboxPermit (q : Fin 2) (s : State) : Res :=
  .next (s.mbox q (· == 3) false fun x s =>
    let n := mbArg0 x
    if 0xD4 ≤ n then s.reply q x.tag 3
    else if 0xA0 ≤ n ∧ n < 0xB8 ∧ s.mode ≠ 1 ∧ s.mode ≠ 6 then s.reply q x.tag 2
    else if s.get GLB_UST_STATE n = 5 then s.reply q x.tag 5
    else if s.get GLB_UST_PERMIT n = 1 then s.reply q x.tag 0
    else ((s.setPermit n 1).wakeUnit n).reply q x.tag 0)

/-- A request that names a store address ends RANGE while the store is not READY (R452). -/
def State.storeOr (s : State) (q : Nat) (x : Sub) (f : State → State) : State :=
  if s.on MEM_STAT_READY then f s else s.reply q x.tag 3

/-- TRAIN_READ (R163, R440); with no valid copy NOR_ERR (log 29). -/
def execTrainRead (q : Fin 2) (s : State) : Res :=
  .next (s.mbox q (· == 0x10) false fun x s => s.storeOr q x fun s =>
    match s.trainRead with
    | some b => (s.st (mbAddr x) b).reply q x.tag 0 trainLen
    | none => s.reply q x.tag 6)

/-- CAL_READ (R440, R455); with no valid copy NOR_ERR (log 29). -/
def execCalRead (q : Fin 2) (s : State) : Res :=
  .next (s.mbox q (· == 0x11) false fun x s => s.storeOr q x fun s =>
    match s.calCur with
    | some i => (s.st (mbAddr x) (s.norLd (calAt i) 0x400000)).reply q x.tag 0 0x400000
    | none => s.reply q x.tag 6)

/-- CAL_PLACE (R440); a unit without a record ends NOR_ERR (log 29). -/
def execCalPlace (q : Fin 2) (s : State) : Res :=
  .next (s.mbox q (· == 0x12) false fun x s =>
    let u := mbArg0 x
    if 7 < u then s.reply q x.tag 3
    else s.storeOr q x fun s =>
      let c := s.camCal u
      if c = CamCal.empty then s.reply q x.tag 6
      else
        let a := mbAddr x
        let s := s.st a ((List.range 3072).flatMap fun i => bytesOf 2 (c.tone.getD i 0))
        let s := s.st (a + 6144) ((List.range (3 * c.nflat)).flatMap fun i => bytesOf 4 (c.flat.getD i 0))
        ((s.set64 CAM_U_TONE_LO a u).set64 CAM_U_FLAT_LO (a + 6144) u).reply q x.tag 0)

/-- A calibration record with a board record replaced (R440, R454): SEQ + 1; with no valid copy an empty camera directory. -/
def State.boardRec (s : State) (board : List Nat) : CalRec :=
  match s.cal with
  | some c => { c with seq := (c.seq + 1) % 2 ^ 32, board }
  | none => ⟨1, 0, 0, board, List.replicate 8 CamCal.empty⟩

/-- BOARD_WRITE (R440): in SERVICE; inline also in SAFE after a start that failed with CAL or TRAIN. The reply follows the write (R441). -/
def execBoardWrite (q : Fin 2) (s : State) : Res :=
  .next (s.mbox q (· == 0x13) true fun x s =>
    let inline := bitN (mbArg1 x) 0
    let res := s.get GLB_START_STAT_RESULT
    let safe := s.mode == 7 && !(s.on GLB_START_STAT_DONE) && (res == 6 || res == 7)
    let go := fun (b : List Nat) (s : State) => ({ s with norJobs := s.norJobs ++ [.cal (s.boardRec b) (some (q.val, x.tag))] } : State)
    if !(s.mode == 6 || (inline && safe)) then s.reply q x.tag 2
    else if inline then
      go ([mbArg0 x % 256, 0] ++ bytesOf 6 (mbAddr x) ++ bytesOf 4 (subF32 x 0x24) ++ bytesOf 4 (subF32 x 0x28) ++ List.replicate 48 0) s
    else s.storeOr q x fun s =>
      if s.bad (mbAddr x) 64 then s.reply q x.tag 6 else go (s.ld (mbAddr x) 64) s)

/-- IMAGE_WRITE (R440, R441): bytes of the slot that does not run; the reply follows the write. -/
def execImageWrite (q : Fin 2) (s : State) : Res :=
  .next (s.mbox q (· == 0x20) true fun x s =>
    let k := mbArg0 x
    let n := mbLen x
    if 1 < k ∨ slotSize < mbArg1 x + n ∨ 2 ^ 20 < n then s.reply q x.tag 3
    else if k = s.get GLB_BOOT_SLOT then s.reply q x.tag 4
    else s.storeOr q x fun s =>
      if n = 0 then s.reply q x.tag 0
      else if s.bad (mbAddr x) n then s.reply q x.tag 6
      else { s with norJobs := s.norJobs ++ [.image (slotSize * k + mbArg1 x) (s.ld (mbAddr x) n) (q.val, x.tag)] })

/-- IMAGE_COMMIT (R440, R445): the slot is judged as the boot ROM would; RAISE_SVN raises the fused minimum, in SERVICE only. -/
def execImageCommit (q : Fin 2) (s : State) : Res :=
  .next (s.mbox q (· == 0x21) true fun x s =>
    let k := mbArg0 x
    let up := bitN (mbArg1 x) 0
    if 1 < k then s.reply q x.tag 3
    else if up && s.mode != 6 then s.reply q x.tag 2
    else if !(s.slotValid k) then s.reply q x.tag 7
    else
      let svn := fieldAt (s.slotHdr k) 0xC 2
      let s : State := if up then { s with mgt.fuseSvn := max s.mgt.fuseSvn svn } else s
      (s.logRec 3 [(k : Int)]).reply q x.tag 0)

/-- Log records from number `a` that the ring still holds, at most `n` (R463). -/
def State.logFrom (s : State) (a n : Nat) : List LogRec :=
  (List.range (min n logSlots)).filterMap fun i =>
    match smGet (fun _ => none) s.mgt.logRing ((a + i) % 2 ^ 32 % logSlots) with
    | some r => if r.num = (a + i) % 2 ^ 32 then some r else none
    | none => none

/-- LOG_READ (R440, R463): records of 64 bytes, whose format the spec does not give (log 27). -/
def execLogRead (q : Fin 2) (s : State) : Res :=
  .next (s.mbox q (· == 0x30) false fun x s => s.storeOr q x fun s =>
    let l := s.logFrom (mbArg1 x) (mbLen x)
    (s.st (mbAddr x) (l.flatMap fun r => (List.range 64).map fun i => Config.free 17 (64 * r.num + i) % 256)).reply q x.tag 0 l.length)

/-! ### Starts (R446 to R453, R474, R478) -/

/-- Power-on reset (R446). -/
def execPowerOnReset (s : State) : Res := .next s.powerOn

/-- VDD_AON or VDD_CORE fails: power-on reset, then a cold start (R474). -/
def execBrownout (s : State) : Res := .next s.powerOn

/-- REF_CLK stops: power-on reset until it runs again, then a cold start (R478). -/
def execRefClkLoss (s : State) : Res := .next s.powerOn

/-- RESET_N or PERST_N is asserted (R446). -/
def execResetPin (s : State) : Res := .next (s.beginStart (s.on GLB_START_CFG_WARM_RST) 1)

/-- GLB_START_CMD.COLD (R446). -/
def execStartColdCmd (s : State) : Res := .next (s.beginStart false 2)

/-- GLB_START_CMD.WARM (R446). -/
def execStartWarmCmd (s : State) : Res := .next (s.beginStart true 2)

/-- A host request for BOOT starts a warm start (R32, R446). -/
def execModeReqBoot (_tag : BitVec 8) (s : State) : Res := .next (s.beginStart true 2)

/-- The cold start sequence from a board record on: store population, training, clearing, permits, IDLE (R447, R161, R162). -/
def State.coldFrom5 (s : State) (st : StartSt) (x : StartIn) : State :=
  match s.calRead with
  | none => s.failStart st 5 6
  | some c =>
    let s := (s.useCal c).setPop (c.board.getD 0 0)
    let s := s.each (List.range s.memN) fun n s => s.trainSc n (x.train.getD n ⟨0, 0, 0, []⟩)
    if (List.range s.memN).any fun n => s.on MEM_SC_STAT_FAILED n then s.failStart st 6 7
    else
      let b := s.trainBytes (x.train.map (·.record))
      let s := (s.set64 MEM_CAP_LO s.popCap).put MEM_STAT_READY true
      let s := (s.set MEM_TRAIN_TEMP_TEMP (s.get MGT_TDIE_TDIE)).set MEM_TRAIN_TEMP_COUNT (trainCount b)
      let s : State := { s with store := [], poison := [], memSleep := [], norJobs := [.train b] }
      let s := s.each s.presentUnits fun n s => s.setPermit n 1
      let s := s.each (List.range s.memN) fun n s => s.setRun (scUnit n) 2
      s.passStart st 8 x.ms.toNat

/-- COLD_START: the sequence of R447 once the boot ROM has no image to wait for (R445). -/
def execColdStart (x : StartIn) (s : State) : Res :=
  match s.mgt.start with
  | none => .next s
  | some st =>
    if st.kind = 2 then .next s
    else if !x.clock then .next (s.failStart st 1 1)
    else
      match s.bootSlot st.tried with
      | none => .next ((s.failStart st 2 2).put GLB_START_STAT_RECOVERY true)
      | some k =>
        if !st.ready then .next s
        else
          let s := s.runImage k st.tried
          if !x.power then .next (s.failStart st 3 3)
          else
            let s := (s.coresUp).hkRound x.hk true
            if s.firstRound ≠ 0 then .next (s.failStart st 4 s.firstRound)
            else .next (s.coldFrom5 st x)

/-- A warm start fails at a step: it counts and resets the device into another; the third makes a cold start with CAUSE 4 (R450). -/
def State.failWarm (s : State) (st : StartSt) (step result : Nat) : State :=
  let s := s.logRec 0 [(st.kind : Int), (st.cause : Int), (result : Int), (step : Int), s.geti MGT_TDIE_TDIE]
  let n := s.get GLB_START_STAT_WFAIL + 1
  let s := (s.set GLB_START_STAT_WFAIL n).set GLB_START_STAT_STEP step
  let s := if 3 ≤ n then s.coldReset 3 4 else s.warmReset st.cause
  s.set GLB_START_STAT_RESULT result

/-- The first four checks of R165: a valid training record of this die and population, the die within 15 °C of it. -/
def State.trainFits (s : State) (board : List Nat) : Bool :=
  match s.trainRead with
  | some b =>
    fieldAt b 8 8 == s.get64 GLB_DIE_ID_LO && fieldAt b 6 1 == board.getD 0 0 &&
      decide ((s.geti MGT_TDIE_TDIE - fieldInt b 0x10 2).natAbs ≤ 120)
  | none => false

/-- The warm start sequence from step 5: records, the store restored, IDLE (R165, R448). -/
def State.warmFrom5 (s : State) (st : StartSt) (x : StartIn) : State :=
  match s.calRead with
  | none => s.failWarm st 5 8
  | some c =>
    let s : State := { s with cal := some c }
    if !(s.trainFits c.board) then s.failWarm st 5 8
    else if s.get GLB_START_STAT_WFAIL ≠ 0 ∨ !((List.range s.memN).all fun n => x.sentinel.getD n false) then s.failWarm st 6 8
    else
      let s := (s.put MEM_STAT_READY true).put MEM_STAT_WARM true
      let s : State := { s with memSleep := (List.range 24).foldl (fun m n => smPut (fun _ => false) m n (s.scBad n)) [] }
      let s := s.seti TIM_NS ((s.get TIM_NS : Int) + clampI (-10) 10 x.handover)
      s.passStart st 7 x.ms.toNat

/-- WARM_START: the sequence of R448; time runs on meanwhile (R391). -/
def execWarmStart (x : StartIn) (s : State) : Res :=
  match s.mgt.start with
  | none => .next s
  | some st =>
    if st.kind ≠ 2 then .next s
    else if !x.clock then .next (s.coldReset 1 st.cause)
    else
      match s.bootSlot st.tried with
      | none => .next (s.failWarm st 2 2)
      | some k =>
        if !st.ready then .next s
        else
          let s := (s.elapse (x.ms.toNat * 800000)).runImage k st.tried
          if !x.power then .next (s.failWarm st 3 3)
          else
            let s := (s.coresUp).hkRound x.hk true
            if s.firstRound ≠ 0 then .next (s.failWarm st 4 s.firstRound)
            else .next (s.warmFrom5 st x)

/-- The started firmware does not report ready within 2 s: the boot ROM starts the other valid slot (R445). -/
def execBootReadyTimeout (s : State) : Res :=
  match s.mgt.start with
  | none => .next s
  | some st =>
    if st.ready then .next s
    else
      match s.bootSlot st.tried with
      | none => .next s
      | some k =>
        let t : State := { s with mgt.start := some { st with tried := k :: st.tried } }
        .next (if (s.bootSlot (k :: st.tried)).isSome then (t.put GLB_BOOT_FALLBACK true).logRec 6 [(k : Int)] else t)

/-- The firmware reports ready: in a start the sequence goes on; in a management restart the cores run again (R445, R462). -/
def execFirmwareReady (s : State) : Res :=
  match s.mgt.start with
  | some st => .next (if (s.bootSlot st.tried).isSome then { s with mgt.start := some { st with ready := true } } else s)
  | none => .next (if s.on MGT_STAT_RESTARTING then (s.put MGT_STAT_RESTARTING false).coresRun true else s)

/-! ### GLB_NOR (R445, R465) -/

/-- GLB_NOR acts: in RECOVERY, with no operation in progress. -/
def State.norFree (s : State) : Bool := s.on GLB_START_STAT_RECOVERY && !(s.on GLB_NOR_STAT_BUSY)

/-- A word of SPI NOR is read. -/
def execNorReadWord (s : State) : Res :=
  .next (if s.norFree then s.set GLB_NOR_DATA (leNum (s.norLd (s.get GLB_NOR_ADDR_ADDR) 4)) else s)

/-- A program or erase begins. -/
def State.norBegin (s : State) (op : Nat) : State :=
  if s.norFree then ({ s with mgt.norOp := some (op, s.get GLB_NOR_ADDR_ADDR, s.get GLB_NOR_DATA) } : State).put GLB_NOR_STAT_BUSY true else s

/-- A word of SPI NOR is programmed. -/
def execNorProgramWord (s : State) : Res := .next (s.norBegin 2)

/-- A 64 KiB sector of SPI NOR is erased. -/
def execNorEraseSector (s : State) : Res := .next (s.norBegin 3)

/-- The program or erase ends: programming clears bits (PRESUMED of NOR flash, log 30); a failure sets ERR. -/
def execGlbNorDone (ok : Bool) (s : State) : Res :=
  match s.mgt.norOp with
  | none => .next s
  | some (op, a, v) =>
    let s := (({ s with mgt.norOp := none } : State).put GLB_NOR_STAT_BUSY false).put GLB_NOR_STAT_ERR (!ok)
    if !ok then .next s
    else if op = 3 then .next (s.norErase (a / 65536 * 65536) 65536)
    else .next (s.norPut a ((List.range 4).map fun i => s.norByte (a + i) &&& (v / 256 ^ i % 256)))

/-! ### Firmware writes of SPI NOR (R454) -/

/-- The copy that a new record goes into: the older or invalid one. -/
def otherCopy (cur : Option Nat) : Nat := match cur with | some 0 => 1 | _ => 0

/-- A firmware write of SPI NOR completes: read back right at once or after a second try, else the copy stays invalid (R454); a request is answered (R440). -/
def execNorWriteDone (first second : Bool) (s : State) : Res :=
  match s.norJobs with
  | [] => .next s
  | j :: r =>
    let s : State := { s with norJobs := r }
    let s := s.cond (!first) fun s => (s.raise EV_NOR_ERR).logRec 5 []
    let ok := first || second
    let answer := fun (rep : Option (Nat × Nat)) (s : State) => match rep with
      | some (q, tag) => s.reply q tag (if ok then 0 else 6)
      | none => s
    match j with
    | .train b =>
      let a := trainAt (otherCopy s.trainCur)
      let s := s.norErase a 0x10000
      .next (if ok then s.norPut a b else s)
    | .cal c rep =>
      let a := calAt (otherCopy s.calCur)
      let s := s.norErase a 0x400000
      .next (answer rep (if ok then { (s.norPut a c.bytes) with cal := some c } else s))
    | .image a b rep => .next (answer (some rep) (if ok then s.norPut a b else s))

/-! ### Housekeeping, thermal trip, watchdog, log (R456 to R463) -/

/-- A housekeeping round of the running firmware. -/
def execHousekeepingRound (x : HkIn) (s : State) : Res := .next (if s.fwRuns then s.hkRound x false else s)

/-- An on-die sensor at 125 °C: AON asserts THERM_TRIP_N and holds the device in reset until power-on reset (R461, R475). -/
def execThermTrip (s : State) : Res :=
  if s.mgt.thermTrip then .next s
  else
    let t := s.leaveMode.coldReset 1 0
    .next { t with mgt.start := none, mgt.thermTrip := true }

/-- The first expiry of the management watchdog (R462). -/
def State.mgmtRestart (s : State) : State :=
  let s := ((s.raise EV_MGMT_RESTART).put MGT_STAT_RESTARTING true).addSat MGT_STAT_RESTARTS 1
  { (s.coresRun false).logRec 2 [] with mgt.wdogAt := some s.clk }

/-- A management core misses its kick: the first expiry reloads the cores, a second within 60 s moves the press to SAFE and begins a warm start (R462). -/
def execMgmtWdogExpiry (_c : Fin 4) (s : State) : Res :=
  if s.get MGT_WDOG_TMO = 0 ∨ s.deaf ∨ (s.get MGT_STAT_CORES = 0 ∧ !(s.on MGT_STAT_RESTARTING)) then .next s
  else
    let again := match s.mgt.wdogAt with
      | some t => decide (s.clk ≤ t + 60 * sec1)
      | none => false
    .next (if again then (s.fatal EV_MGMT_HANG).beginStart true 3 else s.mgmtRestart)

/-- Gathered log records are written to SPI NOR, a page of 64 at most (R463). -/
def execLogPageWrite (s : State) : Res :=
  if !s.fwRuns then .next s
  else
    let l := s.mgt.logBuf.take 64
    let s : State := { s with
      mgt.logBuf := s.mgt.logBuf.drop 64,
      mgt.logRing := l.foldl (fun m r => smPut (fun _ => none) m (r.num % logSlots) (some r)) s.mgt.logRing }
    .next (s.addWrap MGT_LOG_WR_WR l.length)

/-- A read of MGT_TDIE returns PEAK and clears it (R466). -/
def execTdieRead (s : State) : Res := s.heard <| .next (s.readReg 0 MGT_TDIE.addr).2

/-! ### Behaviour level (R490) -/

/-- The host writes GLB_COMPAT: LEVEL in IDLE and SERVICE only, 2 and 3 taken as 0; elsewhere a changed LEVEL sets CFG_ERR (R490). -/
def execCompatWrite (v : BitVec 32) (s : State) : Res :=
  let l := if getBits v 0 2 = 1 then 1 else 0
  let s := s.cond (getBits v 2 1 == 1) fun s => s.put GLB_COMPAT_CFG_ERR false
  .next (if s.mode = 1 ∨ s.mode = 6 then s.set GLB_COMPAT_LEVEL l
    else if l = s.get GLB_COMPAT_LEVEL then s else s.put GLB_COMPAT_CFG_ERR true)

end Sys2Proof.Machine
end

