-- ==== Sys2Proof/Machine/RegWrite.lean ====
section
/-! DEFINITION. REGISTER_WRITE: a host write of one BAR0 word, acting on each field by its type (R9, R11). A write to a register whose
write has a row of its own does what that row does; a write whose effect needs what only that row's operands carry (MODE_REQ_SHADOW,
LOADER_ABORT, HSK_ABORT, TWIN_SWITCH, DP_ENABLE, the reads of GLB_NOR) is given by that row alone. -/

namespace Sys2Proof.Machine

/-- The state another meaning leaves. -/
def State.via (s : State) (r : Res) : Option State :=
  match r with
  | .next t => some t
  | _ => some s

/-- The instance of a field's register, of `n`, that stands at `a`. -/
def Fld.hit (f : Fld) (n a : Nat) : Option (Fin n) :=
  let i := (a - f.base) / f.s1
  if h : i < n then if f.addr i = a then some ⟨i, h⟩ else none else none

/-- The same for a register of two indices. -/
def Fld.hit2 (f : Fld) (n m a : Nat) : Option (Fin n × Fin m) :=
  let i := (a - f.base) / f.s1
  let j := (a - f.base) % f.s1 / f.s2
  if h : i < n ∧ j < m then if f.addr i j = a then some (⟨i, h.1⟩, ⟨j, h.2⟩) else none else none

/-- GLB_MODE_REQ: the request that TARGET names; a value above 7 completes with BAD_MODE (R32). SHADOW is its own row's alone. -/
def State.modeReq (s : State) (v : Word) : Option State :=
  let tag := BitVec.ofNat 8 (getBits v 8 8)
  match getBits v 0 4 with
  | 0 => s.via (execModeReqBoot tag s)
  | 1 => s.via (execModeReqIdle tag s)
  | 2 => s.via (execModeReqReady tag s)
  | 3 => s.via (execModeReqPrint tag s)
  | 4 => s.via (if getBits v 4 1 = 1 then execModeReqHoldImmediate tag s else execModeReqHold tag s)
  | 5 => some s
  | 6 => s.via (execModeReqService tag s)
  | 7 => s.via (execModeReqSafe tag s)
  | _ => some (s.hostReq tag.toNat false false id)

/-- GLB_NOR_CMD.OP (R465). -/
def State.norCmd (s : State) (op : Nat) : Option State :=
  match op with
  | 1 => s.via (execNorReadWord s)
  | 2 => s.via (execNorProgramWord s)
  | 3 => s.via (execNorEraseSector s)
  | _ => some s

/-- GLB and EVT. -/
def State.writeGlb (s : State) (a : Nat) (v : Word) : Option State :=
  if a = GLB_MODE_REQ.addr then s.modeReq v
  else if a = GLB_HOLD_CAUSE.addr then if getBits v 31 1 = 1 then s.via (execHoldCauseAck s) else some s
  else if a = GLB_FATAL_FIRST.addr then if getBits v 31 1 = 1 then s.via (execFatalAck s) else some s
  else if a = GLB_START_CMD.addr then
    if getBits v 0 1 = 1 then s.via (execStartColdCmd s) else if getBits v 1 1 = 1 then s.via (execStartWarmCmd s) else some s
  else if a = GLB_COMPAT.addr then s.via (execCompatWrite v s)
  else if a = GLB_NOR_CMD.addr then s.norCmd (getBits v 0 2)
  else if a = GLB_NOR_ADDR.addr ∨ a = GLB_NOR_DATA.addr then
    some (if s.on GLB_START_STAT_RECOVERY then s.hostWrite a v else s)
  else none

/-- GEK. -/
def State.writeGek (s : State) (a : Nat) (v : Word) : Option State :=
  if a < 0x40000 ∨ 0x50000 ≤ a then none
  else if let some n := GEK_ENC_CTL.hit 8 a then
    let t := s.hostWrite a v
    if getBits v 9 1 = 1 then t.via (execEncClr n t) else some t
  else if let some k := GEK_TRK_CTL.hit 4 a then s.via (execTrackerCtlWrite k v s)
  else if let some b := GEK_LC_CTL.hit 16 a then some (s.lcCtl b v)
  else if let some b := GEK_LC_OFFSET_LO.hit 16 a then s.via (execLcPitchOffsetWrite b 0 v s)
  else if let some b := GEK_LC_OFFSET_HI.hit 16 a then s.via (execLcPitchOffsetWrite b 1 v s)
  else if let some b := GEK_LC_PITCH_FRAC.hit 16 a then s.via (execLcPitchOffsetWrite b 2 v s)
  else if let some b := GEK_LC_PITCH_INT.hit 16 a then s.via (execLcPitchOffsetWrite b 3 v s)
  else if 0x42000 ≤ a ∧ 0x18 ≤ (a - 0x42000) % 128 ∧ (a - 0x42000) % 128 ≤ 0x28 then
    some (if s.on GEK_LC_CTL_EN ((a - 0x42000) / 128) then s else s.hostWrite a v)
  else none

/-- SEQ, the engines, their windows and the sequencer memories. -/
def State.writeSeq (s : State) (a : Nat) (v : Word) : Option State :=
  if 0x100000 ≤ a ∧ a < 0x280000 then
    let e := (a - 0x100000) / 0x18000
    let o := (a - 0x100000) % 0x18000
    some (if o < 0x10000 then s.codeWrite e (o / 4) v else s.dst e (o - 0x10000) 4 v.toNat)
  else if a < 0x80000 ∨ 0xB0000 ≤ a then none
  else if 0x90000 ≤ a ∧ a < 0x90000 + 28 * 4096 then some (s.engRegWrite ((a - 0x90000) / 4096) ((a - 0x90000) % 4096 / 4) v)
  else if let some k := SEQ_BIND.hit 4 a then s.via (execSeqBindWrite k v s)
  else if a = SEQ_TRIG.addr then s.via (execHostTrig (BitVec.ofNat 16 v.toNat) s)
  else if a = SEQ_LD_CMD.addr then some (if getBits v 0 1 = 1 then s.loadGo else s)
  else if let some e := ENG_CMD.hit 28 a then some (s.engCmd e (getBits v 0 3))
  else if let some e := ENG_DOORBELL.hit 28 a then some (if getBits v 0 1 = 1 then s.latch e 60 else s)
  else if a = SEQ_GIO_DIR.addr then s.via (execGioConfigWrite 0 v s)
  else if a = SEQ_GIO_INV.addr then s.via (execGioConfigWrite 1 v s)
  else if a = SEQ_GIO_SAFE0.addr then s.via (execGioConfigWrite 2 v s)
  else if a = SEQ_GIO_SAFE1.addr then s.via (execGioConfigWrite 3 v s)
  else if a = SEQ_GIO_SET.addr then s.via (execGioSet v s)
  else if a = SEQ_GIO_CLR.addr then s.via (execGioClr v s)
  else if a = SEQ_REJ_CTL.addr then
    let t := s.hostWrite a v
    some (if getBits v 16 1 = 1 then t.rejClear else t)
  else if a = SEQ_REJ_ADD_CMD.addr then if getBits v 0 1 = 1 then s.via (execRejectAdd s) else some s
  else none

/-- MEM, CMP, HSK and TIL. -/
def State.writeData (s : State) (a : Nat) (v : Word) : Option State :=
  if let some p := MEM_PORT_CFG.hit 195 a then some (if 2 ≤ s.get MEM_PORT_CFG_CLASS p then s else s.hostWrite a v)
  else if let some b := CMP_CP_CTL.hit 16 a then s.via (execCpCtlWrite b v s)
  else if a = HSK_CMD.addr then if getBits v 0 1 = 1 then s.via (execHskGo s) else some s
  else if a = TIL_NZU_CMD.addr then s.via (execNzuGo v s)
  else if let some x := TIL_TL_NW0.hit2 12 16 a then s.via (execNwSetWrite x.1 x.2 false v s)
  else if let some x := TIL_TL_NW1.hit2 12 16 a then s.via (execNwSetWrite x.1 x.2 true v s)
  else if let some x := TIL_HEAD_COL.hit2 128 8 a then s.via (execHeadMapWrite x.1 x.2 false v s)
  else if let some x := TIL_HEAD_CFG.hit2 128 8 a then s.via (execHeadMapWrite x.1 x.2 true v s)
  else if let some j := NZT.hit 1572864 a then s.via (execNztWrite j v s)
  else if rwsMask a ≠ 0 then s.via (execRwsWrite a v s)
  else none

/-- HPL, CAM, PIX and CHL. -/
def State.writeLook (s : State) (a : Nat) (v : Word) : Option State :=
  if let some p := HPL_PORT_CFG.hit 128 a then s.via (execPortCfgWrite p v s)
  else if let some u := CAM_U_SET_CMD.hit 8 a then if getBits v 0 1 = 1 then s.via (execCamSetCommit u s) else some s
  else if let some u := CAM_U_CTRL_CMD.hit 8 a then s.via (execCamCtrlGo u v s)
  else if 0xC00000 ≤ a ∧ a < 0xD00000 then some (s.camWrite a v)
  else if a = CHL_CAL_CMD.addr then
    if getBits v 1 1 = 1 then s.via (execCalAbort s) else s.via (execCalGo v s)
  else if chlEnable a ∧ s.get GLB_COMPAT_LEVEL = 1 then some (s.hostWrite a (putBits v 0 1 (getBits (s.rd a) 0 1)))
  else if (CHL_CH_TGT_LO.hit 12 a).isSome ∨ (CHL_CH_BUF_LO.hit 12 a).isSome ∨ a = CHL_CAL_TILE_LO.addr then
    some (s.hostWrite a (putBits v 0 6 0))
  else none

/-- LMP, VID and DP. -/
def State.writeLight (s : State) (a : Nat) (v : Word) : Option State :=
  if 0xE80100 ≤ a ∧ a < 0xE80100 + 12 * 32 then some (s.lsWrite ((a - 0xE80100) / 32) ((a - 0xE80100) % 32 / 4) v)
  else if a = SWC_CFG.addr then s.via (execSwcCfgWrite v s)
  else if let some c := SW_CMD.hit 4 a then if getBits v 0 1 = 1 then s.via (execSwUpdate c s) else some s
  else if let some _e := PAT_CTL.hit 8 a then some (s.hostWrite a v).refreshPats
  else if let some _g := LMP_GRP.hit 8 a then some (s.hostWrite a v).refreshGroups
  else if let some c := VID_ENC_OUT_RD.hit 8 a then s.via (execEncOutRdWrite c v s)
  else if let some c := VID_DEC_RD.hit 8 a then s.via (execDecRdWrite c v s)
  else if 0xF01000 ≤ a ∧ a < 0xF01400 ∧ (a - 0xF01000) % 128 < 0x30 then
    some (s.vidWrite false ((a - 0xF01000) / 128) ((a - 0xF01000) % 128 / 4) v)
  else if 0xF02000 ≤ a ∧ a < 0xF02400 ∧ (a - 0xF02000) % 128 < 0x14 then
    some (s.vidWrite true ((a - 0xF02000) / 128) ((a - 0xF02000) % 128 / 4) v)
  else if a = VID_CMD.addr then
    let s := if getBits v 0 1 = 1 then (s.via (execEncAbort s)).getD s else s
    if getBits v 1 1 = 1 then s.via (execDecAbort s) else some s
  else if a = DP_CFG.addr then some s
  else if a = DP_AUX_CMD.addr then s.via (execDpAuxGo v s)
  else none

/-- TIM, TWN, HIF, MSI-X and MGT. -/
def State.writeHost (s : State) (a : Nat) (v : Word) : Option State :=
  if a = TIM_CTL.addr then s.via (execTimConfigWrite none v s)
  else if let some n := TIM_NET_CFG.hit 2 a then s.via (execTimConfigWrite (some n) v s)
  else if a = TIM_ADJ_LO.addr then s.via (execTimAdjWrite false v s)
  else if a = TIM_ADJ_HI.addr then s.via (execTimAdjWrite true v s)
  else if let some k := TPO_CFG.hit 8 a then some (s.tpoCfg k v)
  else if a = TWN_CFG.addr then s.via (execTwnConfigWrite 0 v s)
  else if a = TWN_IMG_LO.addr then s.via (execTwnConfigWrite 1 v s)
  else if a = TWN_IMG_HI.addr then s.via (execTwnConfigWrite 2 v s)
  else if a = TWN_JOIN_LO.addr then s.via (execTwnConfigWrite 3 v s)
  else if a = TWN_JOIN_HI.addr then s.via (execTwnConfigWrite 4 v s)
  else if a = TWN_ATTACH.addr then s.via (execTwnConfigWrite 5 v s)
  else if a = TWN_CMD.addr then if getBits v 1 1 = 1 then s.via (execTwinRetrain s) else some s
  else if a = HIF_WDOG.addr then s.via (execHifWdogWrite v s)
  else if a = HIF_WDOG_KICK.addr then if getBits v 0 1 = 1 then s.via (execHifWdogKick s) else some s
  else if a = HIF_TWMSG_LO.addr ∨ (HIF_Q_BASE_LO.hit 64 a).isSome then some (s.hostWrite a (putBits v 0 12 0))
  else if let some q := HIF_Q_CFG.hit 64 a then some (s.qCfgWrite q v)
  else if let some q := HIF_Q_PI.hit 64 a then s.via (execQueueDoorbell q v s)
  else if let some q := HIF_Q_CI.hit 64 a then s.via (execQueueCiWrite q v s)
  else if let some n := MSIX_CTRL.hit 64 a then
    if getBits v 0 1 = 0 then s.via (execMsixUnmask n s) else some (s.hostWrite a v)
  else if a = MGT_THERM.addr then
    some (s.hostWrite a (putBits (putBits v 0 8 (min 110 (getBits v 0 8))) 8 8 (min 110 (getBits v 8 8))))
  else none

/-- A host write of the BAR0 word at `a`: by its row's meaning where the register has one, else on each field by its type (R9). -/
def State.write32 (s : State) (a : Nat) (v : Word) : State :=
  ((s.writeGlb a v <|> s.writeGek a v <|> s.writeSeq a v <|> s.writeData a v <|> s.writeLook a v <|> s.writeLight a v <|>
    s.writeHost a v).getD (s.hostWrite a v))

/-- REGISTER_WRITE: the low two bits of the address are 0 (R415); outside GLB the write acts only while the device hears it (R451). -/
def execRegisterWrite (a : BitVec 26) (v : BitVec 32) (s : State) : Res :=
  let w := a.toNat / 4 * 4
  if w < 0x10000 then .next (s.write32 w v) else s.heard <| .next (s.write32 w v)

end Sys2Proof.Machine
end

