-- ==== Sys2Proof/Machine/Dispatch.lean ====
section
/-! DEFINITION. One arm per command: each is one direct call of that command's meaning. -/

namespace Sys2Proof.Machine

/-- The effect of a command on everything but the queue of waiting commands. -/
def exec (i : Instr) (s : State) : Host.Outcome State Fault Refusal :=
  match i with
  | .modeReqIdle tag => Sys2Proof.Machine.execModeReqIdle tag s
  | .modeReqReady tag => Sys2Proof.Machine.execModeReqReady tag s
  | .modeReqPrint tag => Sys2Proof.Machine.execModeReqPrint tag s
  | .modeReqHold tag => Sys2Proof.Machine.execModeReqHold tag s
  | .modeReqHoldImmediate tag => Sys2Proof.Machine.execModeReqHoldImmediate tag s
  | .modeReqShadow tag same m lcs => Sys2Proof.Machine.execModeReqShadow tag same m lcs s
  | .modeReqService tag => Sys2Proof.Machine.execModeReqService tag s
  | .modeReqSafe tag => Sys2Proof.Machine.execModeReqSafe tag s
  | .modeReqBoot tag => Sys2Proof.Machine.execModeReqBoot tag s
  | .startTrigger => Sys2Proof.Machine.execStartTrigger s
  | .holdCauseAck => Sys2Proof.Machine.execHoldCauseAck s
  | .fatalAck => Sys2Proof.Machine.execFatalAck s
  | .unitStopPoint n => Sys2Proof.Machine.execUnitStopPoint n s
  | .skewTimeout n => Sys2Proof.Machine.execSkewTimeout n s
  | .eventLost q => Sys2Proof.Machine.execEventLost q s
  | .encEdge n a b z dt => Sys2Proof.Machine.execEncEdge n a b z dt s
  | .encLossDetect n => Sys2Proof.Machine.execEncLossDetect n s
  | .encLossClear n => Sys2Proof.Machine.execEncLossClear n s
  | .absFrameStart n => Sys2Proof.Machine.execAbsFrameStart n s
  | .absFrameDone n d par err dt => Sys2Proof.Machine.execAbsFrameDone n d par err dt s
  | .mkEdge n level dt => Sys2Proof.Machine.execMkEdge n level dt s
  | .speedGate k dt => Sys2Proof.Machine.execSpeedGate k dt s
  | .standstill k => Sys2Proof.Machine.execStandstill k s
  | .trackerLoad k => Sys2Proof.Machine.execTrackerLoad k s
  | .trackerArm k => Sys2Proof.Machine.execTrackerArm k s
  | .trackerCtlWrite k v => Sys2Proof.Machine.execTrackerCtlWrite k v s
  | .encClr n => Sys2Proof.Machine.execEncClr n s
  | .regPairReadLatch a => Sys2Proof.Machine.execRegPairReadLatch a s
  | .lineClockHit b dt => Sys2Proof.Machine.execLineClockHit b dt s
  | .lineClockDelayedHit b => Sys2Proof.Machine.execLineClockDelayedHit b s
  | .sheetEdgeTake b => Sys2Proof.Machine.execSheetEdgeTake b s
  | .lcEnable b k sheet => Sys2Proof.Machine.execLcEnable b k sheet s
  | .lcPitchOffsetWrite b which v => Sys2Proof.Machine.execLcPitchOffsetWrite b which v s
  | .add e rd ra rb => Sys2Proof.Machine.execAdd e rd ra rb s
  | .sub e rd ra rb => Sys2Proof.Machine.execSub e rd ra rb s
  | .and e rd ra rb => Sys2Proof.Machine.execAnd e rd ra rb s
  | .or e rd ra rb => Sys2Proof.Machine.execOr e rd ra rb s
  | .xor e rd ra rb => Sys2Proof.Machine.execXor e rd ra rb s
  | .sll e rd ra rb => Sys2Proof.Machine.execSll e rd ra rb s
  | .srl e rd ra rb => Sys2Proof.Machine.execSrl e rd ra rb s
  | .sra e rd ra rb => Sys2Proof.Machine.execSra e rd ra rb s
  | .mul e rd ra rb => Sys2Proof.Machine.execMul e rd ra rb s
  | .mulhs e rd ra rb => Sys2Proof.Machine.execMulhs e rd ra rb s
  | .mulhu e rd ra rb => Sys2Proof.Machine.execMulhu e rd ra rb s
  | .min e rd ra rb => Sys2Proof.Machine.execMin e rd ra rb s
  | .max e rd ra rb => Sys2Proof.Machine.execMax e rd ra rb s
  | .minu e rd ra rb => Sys2Proof.Machine.execMinu e rd ra rb s
  | .maxu e rd ra rb => Sys2Proof.Machine.execMaxu e rd ra rb s
  | .sel e f rd ra rb => Sys2Proof.Machine.execSel e f rd ra rb s
  | .clz e rd ra => Sys2Proof.Machine.execClz e rd ra s
  | .popc e rd ra => Sys2Proof.Machine.execPopc e rd ra s
  | .slli e rd ra n => Sys2Proof.Machine.execSlli e rd ra n s
  | .srli e rd ra n => Sys2Proof.Machine.execSrli e rd ra n s
  | .srai e rd ra n => Sys2Proof.Machine.execSrai e rd ra n s
  | .getf e rd => Sys2Proof.Machine.execGetf e rd s
  | .setf e ra => Sys2Proof.Machine.execSetf e ra s
  | .addi e rd ra imm => Sys2Proof.Machine.execAddi e rd ra imm s
  | .andi e rd ra imm => Sys2Proof.Machine.execAndi e rd ra imm s
  | .ori e rd ra imm => Sys2Proof.Machine.execOri e rd ra imm s
  | .xori e rd ra imm => Sys2Proof.Machine.execXori e rd ra imm s
  | .lui e rd imm => Sys2Proof.Machine.execLui e rd imm s
  | .cmp e c f ra rb => Sys2Proof.Machine.execCmp e c f ra rb s
  | .cmpi e c f ra imm => Sys2Proof.Machine.execCmpi e c f ra imm s
  | .ld e rd ra imm => Sys2Proof.Machine.execLd e rd ra imm s
  | .ldh e rd ra imm => Sys2Proof.Machine.execLdh e rd ra imm s
  | .ldb e rd ra imm => Sys2Proof.Machine.execLdb e rd ra imm s
  | .st e rd ra imm => Sys2Proof.Machine.execSt e rd ra imm s
  | .sth e rd ra imm => Sys2Proof.Machine.execSth e rd ra imm s
  | .stb e rd ra imm => Sys2Proof.Machine.execStb e rd ra imm s
  | .pld e pd ra imm => Sys2Proof.Machine.execPld e pd ra imm s
  | .pst e pd ra imm => Sys2Proof.Machine.execPst e pd ra imm s
  | .br e c f off => Sys2Proof.Machine.execBr e c f off s
  | .call e off => Sys2Proof.Machine.execCall e off s
  | .jr e ra => Sys2Proof.Machine.execJr e ra s
  | .dbnz e rd imm => Sys2Proof.Machine.execDbnz e rd imm s
  | .halt e => Sys2Proof.Machine.execHalt e s
  | .padd e pd pa pb => Sys2Proof.Machine.execPadd e pd pa pb s
  | .psub e pd pa pb => Sys2Proof.Machine.execPsub e pd pa pb s
  | .paddg e pd pa rb => Sys2Proof.Machine.execPaddg e pd pa rb s
  | .pmac e pd ra rb => Sys2Proof.Machine.execPmac e pd ra rb s
  | .psetg e pd ra => Sys2Proof.Machine.execPsetg e pd ra s
  | .psetgu e pd ra => Sys2Proof.Machine.execPsetgu e pd ra s
  | .pgetl e rd pa => Sys2Proof.Machine.execPgetl e rd pa s
  | .pgeth e rd pa => Sys2Proof.Machine.execPgeth e rd pa s
  | .pmov e pd pa => Sys2Proof.Machine.execPmov e pd pa s
  | .pseth e pd ra => Sys2Proof.Machine.execPseth e pd ra s
  | .pslli e pd pa n => Sys2Proof.Machine.execPslli e pd pa n s
  | .psrai e pd pa n => Sys2Proof.Machine.execPsrai e pd pa n s
  | .pcmp e c f pa pb => Sys2Proof.Machine.execPcmp e c f pa pb s
  | .iord e rd ra imm => Sys2Proof.Machine.execIord e rd ra imm s
  | .prd e pd unit mode => Sys2Proof.Machine.execPrd e pd unit mode s
  | .waitpos e pa unit line tmo le => Sys2Proof.Machine.execWaitpos e pa unit line tmo le s
  | .waitevt e unit imm clear tmo => Sys2Proof.Machine.execWaitevt e unit imm clear tmo s
  | .waitt e ra imm => Sys2Proof.Machine.execWaitt e ra imm s
  | .waitConditionMet e => Sys2Proof.Machine.execWaitConditionMet e s
  | .waitTimeout e => Sys2Proof.Machine.execWaitTimeout e s
  | .waittExpiry e => Sys2Proof.Machine.execWaittExpiry e s
  | .emitGioLow e n => Sys2Proof.Machine.execEmitGioLow e n s
  | .emitGioHigh e n => Sys2Proof.Machine.execEmitGioHigh e n s
  | .emitGioToggle e n => Sys2Proof.Machine.execEmitGioToggle e n s
  | .emitGioPulse e ra n => Sys2Proof.Machine.execEmitGioPulse e ra n s
  | .gioPulseEnd n => Sys2Proof.Machine.execGioPulseEnd n s
  | .emitTrig e n => Sys2Proof.Machine.execEmitTrig e n s
  | .emitTpulse e ra n => Sys2Proof.Machine.execEmitTpulse e ra n s
  | .emitHostevt e ra n => Sys2Proof.Machine.execEmitHostevt e ra n s
  | .fireStrobe e unit => Sys2Proof.Machine.execFireStrobe e unit s
  | .fireTickle e ra unit => Sys2Proof.Machine.execFireTickle e ra unit s
  | .lineRelease e ra unit => Sys2Proof.Machine.execLineRelease e ra unit s
  | .lineReleaseRel e ra unit => Sys2Proof.Machine.execLineReleaseRel e ra unit s
  | .lineLadder e ra unit imm => Sys2Proof.Machine.execLineLadder e ra unit imm s
  | .lineBlank e ra unit => Sys2Proof.Machine.execLineBlank e ra unit s
  | .sendConfig e ra imm => Sys2Proof.Machine.execSendConfig e ra imm s
  | .sendSync e ra imm => Sys2Proof.Machine.execSendSync e ra imm s
  | .sheaf e ra imm => Sys2Proof.Machine.execSheaf e ra imm s
  | .sheafAnswer e => Sys2Proof.Machine.execSheafAnswer e s
  | .vadd e vd va vb => Sys2Proof.Machine.execVadd e vd va vb s
  | .vsub e vd va vb => Sys2Proof.Machine.execVsub e vd va vb s
  | .vadds e vd va vb => Sys2Proof.Machine.execVadds e vd va vb s
  | .vsubs e vd va vb => Sys2Proof.Machine.execVsubs e vd va vb s
  | .vaddus e vd va vb => Sys2Proof.Machine.execVaddus e vd va vb s
  | .vsubus e vd va vb => Sys2Proof.Machine.execVsubus e vd va vb s
  | .vmin e vd va vb => Sys2Proof.Machine.execVmin e vd va vb s
  | .vmax e vd va vb => Sys2Proof.Machine.execVmax e vd va vb s
  | .vminu e vd va vb => Sys2Proof.Machine.execVminu e vd va vb s
  | .vmaxu e vd va vb => Sys2Proof.Machine.execVmaxu e vd va vb s
  | .vabsd e vd va vb => Sys2Proof.Machine.execVabsd e vd va vb s
  | .vand e vd va vb => Sys2Proof.Machine.execVand e vd va vb s
  | .vor e vd va vb => Sys2Proof.Machine.execVor e vd va vb s
  | .vxor e vd va vb => Sys2Proof.Machine.execVxor e vd va vb s
  | .vmull e vd va vb => Sys2Proof.Machine.execVmull e vd va vb s
  | .vmulhs e vd va vb => Sys2Proof.Machine.execVmulhs e vd va vb s
  | .vmulq e vd va vb => Sys2Proof.Machine.execVmulq e vd va vb s
  | .vshl e vd va vb => Sys2Proof.Machine.execVshl e vd va vb s
  | .vshr e vd va vb => Sys2Proof.Machine.execVshr e vd va vb s
  | .vsra e vd va vb => Sys2Proof.Machine.execVsra e vd va vb s
  | .vavgu e vd va vb => Sys2Proof.Machine.execVavgu e vd va vb s
  | .vslide e vd va vb k => Sys2Proof.Machine.execVslide e vd va vb k s
  | .vperm e vd va vb => Sys2Proof.Machine.execVperm e vd va vb s
  | .vmac e vd va vb => Sys2Proof.Machine.execVmac e vd va vb s
  | .vmacq e vd va vb => Sys2Proof.Machine.execVmacq e vd va vb s
  | .vcmp e c rd va vb => Sys2Proof.Machine.execVcmp e c rd va vb s
  | .vsel e vd va vb m => Sys2Proof.Machine.execVsel e vd va vb m s
  | .vred e k rd va => Sys2Proof.Machine.execVred e k rd va s
  | .vbcast e vd ra => Sys2Proof.Machine.execVbcast e vd ra s
  | .vins e vd ra rb => Sys2Proof.Machine.execVins e vd ra rb s
  | .vext e rd va rb => Sys2Proof.Machine.execVext e rd va rb s
  | .vextu e rd va rb => Sys2Proof.Machine.execVextu e rd va rb s
  | .vmovv e vd va => Sys2Proof.Machine.execVmovv e vd va s
  | .vld e vd ra imm => Sys2Proof.Machine.execVld e vd ra imm s
  | .vst e vd ra imm => Sys2Proof.Machine.execVst e vd ra imm s
  | .vldb e vd ra imm => Sys2Proof.Machine.execVldb e vd ra imm s
  | .vstb e vd ra imm => Sys2Proof.Machine.execVstb e vd ra imm s
  | .dmaRead e pd ra rb => Sys2Proof.Machine.execDmaRead e pd ra rb s
  | .dmaWrite e pd ra rb => Sys2Proof.Machine.execDmaWrite e pd ra rb s
  | .dmawait e imm => Sys2Proof.Machine.execDmawait e imm s
  | .dmaDone e => Sys2Proof.Machine.execDmaDone e s
  | .engStart e => Sys2Proof.Machine.execEngStart e s
  | .engResume e => Sys2Proof.Machine.execEngResume e s
  | .engHalt e => Sys2Proof.Machine.execEngHalt e s
  | .engStep e => Sys2Proof.Machine.execEngStep e s
  | .engReset e => Sys2Proof.Machine.execEngReset e s
  | .engDoorbell e => Sys2Proof.Machine.execEngDoorbell e s
  | .hostTrig m => Sys2Proof.Machine.execHostTrig m s
  | .seqBindWrite k v => Sys2Proof.Machine.execSeqBindWrite k v s
  | .codeWrite e k v => Sys2Proof.Machine.execCodeWrite e k v s
  | .engRegWrite e k v => Sys2Proof.Machine.execEngRegWrite e k v s
  | .loaderGo => Sys2Proof.Machine.execLoaderGo s
  | .loaderAbort n => Sys2Proof.Machine.execLoaderAbort n s
  | .loaderComplete => Sys2Proof.Machine.execLoaderComplete s
  | .rejectEntryWrite cause b => Sys2Proof.Machine.execRejectEntryWrite cause b s
  | .rejectAdd => Sys2Proof.Machine.execRejectAdd s
  | .rejectClear => Sys2Proof.Machine.execRejectClear s
  | .gioConfigWrite k v => Sys2Proof.Machine.execGioConfigWrite k v s
  | .gioSet m => Sys2Proof.Machine.execGioSet m s
  | .gioClr m => Sys2Proof.Machine.execGioClr m s
  | .storeReadRequest p a rank err level => Sys2Proof.Machine.execStoreReadRequest p a rank err level s
  | .storeWriteRequest p a d rank err level => Sys2Proof.Machine.execStoreWriteRequest p a d rank err level s
  | .memPanicLong p => Sys2Proof.Machine.execMemPanicLong p s
  | .requestPromotion c => Sys2Proof.Machine.execRequestPromotion c s
  | .refreshDue n => Sys2Proof.Machine.execRefreshDue n s
  | .scrubStep rank err => Sys2Proof.Machine.execScrubStep rank err s
  | .dramAlert n capar wcrc again => Sys2Proof.Machine.execDramAlert n capar wcrc again s
  | .zqCalibration n => Sys2Proof.Machine.execZqCalibration n s
  | .dqsTrack n rank => Sys2Proof.Machine.execDqsTrack n rank s
  | .mr4Read n rank hot => Sys2Proof.Machine.execMr4Read n rank hot s
  | .subchannelDrained n => Sys2Proof.Machine.execSubchannelDrained n s
  | .composeLine b => Sys2Proof.Machine.execComposeLine b s
  | .sheafSubmit => Sys2Proof.Machine.execSheafSubmit s
  | .rwsWrite a v => Sys2Proof.Machine.execRwsWrite a v s
  | .cpCtlWrite b v => Sys2Proof.Machine.execCpCtlWrite b v s
  | .poolPeakRead => Sys2Proof.Machine.execPoolPeakRead s
  | .displaySheafSubmit => Sys2Proof.Machine.execDisplaySheafSubmit s
  | .verticalBlank => Sys2Proof.Machine.execVerticalBlank s
  | .dspUnderrun => Sys2Proof.Machine.execDspUnderrun s
  | .hskGo => Sys2Proof.Machine.execHskGo s
  | .hskAbort n => Sys2Proof.Machine.execHskAbort n s
  | .hskComplete => Sys2Proof.Machine.execHskComplete s
  | .screenLine b ce ue => Sys2Proof.Machine.execScreenLine b ce ue s
  | .lineComplete p => Sys2Proof.Machine.execLineComplete p s
  | .nztWrite j v => Sys2Proof.Machine.execNztWrite j v s
  | .nzuGo v => Sys2Proof.Machine.execNzuGo v s
  | .headMapWrite p h cfg v => Sys2Proof.Machine.execHeadMapWrite p h cfg v s
  | .nwSetWrite t n hi v => Sys2Proof.Machine.execNwSetWrite t n hi v s
  | .tilStatRead t => Sys2Proof.Machine.execTilStatRead t s
  | .portCfgWrite p v => Sys2Proof.Machine.execPortCfgWrite p v s
  | .linkTrain p => Sys2Proof.Machine.execLinkTrain p s
  | .linkDownCmd p => Sys2Proof.Machine.execLinkDownCmd p s
  | .linkBlockLock p => Sys2Proof.Machine.execLinkBlockLock p s
  | .linkTrainTimeout p => Sys2Proof.Machine.execLinkTrainTimeout p s
  | .linkAutoRetrain p => Sys2Proof.Machine.execLinkAutoRetrain p s
  | .statusRx p st => Sys2Proof.Machine.execStatusRx p st s
  | .statusTimeout p => Sys2Proof.Machine.execStatusTimeout p s
  | .linkLockLoss p => Sys2Proof.Machine.execLinkLockLoss p s
  | .nakCorruptRx p x => Sys2Proof.Machine.execNakCorruptRx p x s
  | .nakBlankedRx p x => Sys2Proof.Machine.execNakBlankedRx p x s
  | .nakStrobeLostRx p x => Sys2Proof.Machine.execNakStrobeLostRx p x s
  | .nakCfgCorruptRx p seq => Sys2Proof.Machine.execNakCfgCorruptRx p seq s
  | .unknownWordRx p => Sys2Proof.Machine.execUnknownWordRx p s
  | .lineFrameSend p => Sys2Proof.Machine.execLineFrameSend p s
  | .pingPeriod p => Sys2Proof.Machine.execPingPeriod p s
  | .timeSyncPeriod p => Sys2Proof.Machine.execTimeSyncPeriod p s
  | .camConfigWrite off v => Sys2Proof.Machine.execCamConfigWrite off v s
  | .cxDiscovery l up => Sys2Proof.Machine.execCxDiscovery l up s
  | .cxSyncLoss l => Sys2Proof.Machine.execCxSyncLoss l s
  | .cxPacketRx l stream crc => Sys2Proof.Machine.execCxPacketRx l stream crc s
  | .cameraTrigger u dt => Sys2Proof.Machine.execCameraTrigger u dt s
  | .cameraDelayedTrigger u => Sys2Proof.Machine.execCameraDelayedTrigger u s
  | .areaTrigger u k dt => Sys2Proof.Machine.execAreaTrigger u k dt s
  | .camTrigPinEnd u => Sys2Proof.Machine.execCamTrigPinEnd u s
  | .cameraLineRx u px dt => Sys2Proof.Machine.execCameraLineRx u px dt s
  | .cameraLineTimeout u dt => Sys2Proof.Machine.execCameraLineTimeout u dt s
  | .csiPacketRx p ecc vc ty crc sot px dt => Sys2Proof.Machine.execCsiPacketRx p ecc vc ty crc sot px dt s
  | .csiFrameStart p ecc vc dt => Sys2Proof.Machine.execCsiFrameStart p ecc vc dt s
  | .csiFrameEnd p ecc vc dt => Sys2Proof.Machine.execCsiFrameEnd p ecc vc dt s
  | .ispLine dt => Sys2Proof.Machine.execIspLine dt s
  | .frameComplete u => Sys2Proof.Machine.execFrameComplete u s
  | .camCtrlGo u v => Sys2Proof.Machine.execCamCtrlGo u v s
  | .camCtrlDone u nak d => Sys2Proof.Machine.execCamCtrlDone u nak d s
  | .camCtrlTimeout u => Sys2Proof.Machine.execCamCtrlTimeout u s
  | .camSetCommit u => Sys2Proof.Machine.execCamSetCommit u s
  | .camSetItemAck u nak dt => Sys2Proof.Machine.execCamSetItemAck u nak dt s
  | .camLatRead u => Sys2Proof.Machine.execCamLatRead u s
  | .ispLoadRead => Sys2Proof.Machine.execIspLoadRead s
  | .zoneTask e seq busy us => Sys2Proof.Machine.execZoneTask e seq busy us s
  | .ladderTask e seq busy us => Sys2Proof.Machine.execLadderTask e seq busy us s
  | .chlJudge => Sys2Proof.Machine.execChlJudge s
  | .nhStripJudge => Sys2Proof.Machine.execNhStripJudge s
  | .calGo v => Sys2Proof.Machine.execCalGo v s
  | .calAbort => Sys2Proof.Machine.execCalAbort s
  | .calComplete cols found words tone mean top => Sys2Proof.Machine.execCalComplete cols found words tone mean top s
  | .calStale => Sys2Proof.Machine.execCalStale s
  | .lsEnable n v => Sys2Proof.Machine.execLsEnable n v s
  | .lsConfigWrite n k v => Sys2Proof.Machine.execLsConfigWrite n k v s
  | .lampPeriodStart n dt => Sys2Proof.Machine.execLampPeriodStart n dt s
  | .lockPulseStart n dt => Sys2Proof.Machine.execLockPulseStart n dt s
  | .lampPulseEnd n => Sys2Proof.Machine.execLampPulseEnd n s
  | .headroomSample vds vout dt => Sys2Proof.Machine.execHeadroomSample vds vout dt s
  | .lsOpen n => Sys2Proof.Machine.execLsOpen n s
  | .lsShort n => Sys2Proof.Machine.execLsShort n s
  | .swcLimit n => Sys2Proof.Machine.execSwcLimit n s
  | .swcOvp dt => Sys2Proof.Machine.execSwcOvp dt s
  | .swcSoftRestart => Sys2Proof.Machine.execSwcSoftRestart s
  | .swcCfgWrite v => Sys2Proof.Machine.execSwcCfgWrite v s
  | .swUpdate c => Sys2Proof.Machine.execSwUpdate c s
  | .chainFrameSend c dt => Sys2Proof.Machine.execChainFrameSend c dt s
  | .lbLevelWrite m ack dt => Sys2Proof.Machine.execLbLevelWrite m ack dt s
  | .lbPoll m ack st => Sys2Proof.Machine.execLbPoll m ack st s
  | .lbBusStuck low => Sys2Proof.Machine.execLbBusStuck low s
  | .vidCfgWrite dec c k v => Sys2Proof.Machine.execVidCfgWrite dec c k v s
  | .encSubmit ctus out qp => Sys2Proof.Machine.execEncSubmit ctus out qp s
  | .encPictureDone => Sys2Proof.Machine.execEncPictureDone s
  | .encOutRdWrite c v => Sys2Proof.Machine.execEncOutRdWrite c v s
  | .decSubmit pics outs => Sys2Proof.Machine.execDecSubmit pics outs s
  | .decPictureOut c => Sys2Proof.Machine.execDecPictureOut c s
  | .decRdWrite c v => Sys2Proof.Machine.execDecRdWrite c v s
  | .encAbort => Sys2Proof.Machine.execEncAbort s
  | .decAbort => Sys2Proof.Machine.execDecAbort s
  | .dpEnable v got => Sys2Proof.Machine.execDpEnable v got s
  | .dpHpdRise got => Sys2Proof.Machine.execDpHpdRise got s
  | .dpLinkDown pulse got => Sys2Proof.Machine.execDpLinkDown pulse got s
  | .dpAuxGo v => Sys2Proof.Machine.execDpAuxGo v s
  | .dpAuxDone result d => Sys2Proof.Machine.execDpAuxDone result d s
  | .netFrameRx p f fcs room tin tout => Sys2Proof.Machine.execNetFrameRx p f fcs room tin tout s
  | .macAgeOut a => Sys2Proof.Machine.execMacAgeOut a s
  | .netLinkUp n => Sys2Proof.Machine.execNetLinkUp n s
  | .netLinkDown n => Sys2Proof.Machine.execNetLinkDown n s
  | .ptpMessageRx port dom m => Sys2Proof.Machine.execPtpMessageRx port dom m s
  | .announceTimeout => Sys2Proof.Machine.execAnnounceTimeout s
  | .nsWrap => Sys2Proof.Machine.execNsWrap s
  | .tpoEdge k => Sys2Proof.Machine.execTpoEdge k s
  | .tpoArm k v => Sys2Proof.Machine.execTpoArm k v s
  | .timRelock => Sys2Proof.Machine.execTimRelock s
  | .timAdjWrite hi v => Sys2Proof.Machine.execTimAdjWrite hi v s
  | .timConfigWrite n v => Sys2Proof.Machine.execTimConfigWrite n v s
  | .timeReadLatch epoch => Sys2Proof.Machine.execTimeReadLatch epoch s
  | .hbSend => Sys2Proof.Machine.execHbSend s
  | .hbRx seq mode ready fired => Sys2Proof.Machine.execHbRx seq mode ready fired s
  | .hbSlotEnd toggle net => Sys2Proof.Machine.execHbSlotEnd toggle net s
  | .copySnapshot late fit sects => Sys2Proof.Machine.execCopySnapshot late fit sects s
  | .copyImageRx m kib => Sys2Proof.Machine.execCopyImageRx m kib s
  | .copyAckRx cycle => Sys2Proof.Machine.execCopyAckRx cycle s
  | .twinCopyStale => Sys2Proof.Machine.execTwinCopyStale s
  | .joinImageRx m => Sys2Proof.Machine.execJoinImageRx m s
  | .twinLinkTrain => Sys2Proof.Machine.execTwinLinkTrain s
  | .twinHelloRx version role => Sys2Proof.Machine.execTwinHelloRx version role s
  | .twinLaneLoss lane => Sys2Proof.Machine.execTwinLaneLoss lane s
  | .twinContention => Sys2Proof.Machine.execTwinContention s
  | .twinPullRelease => Sys2Proof.Machine.execTwinPullRelease s
  | .twinSwitch fit sects => Sys2Proof.Machine.execTwinSwitch fit sects s
  | .switchRx grant => Sys2Proof.Machine.execSwitchRx grant s
  | .twinRetrain => Sys2Proof.Machine.execTwinRetrain s
  | .twnConfigWrite k v => Sys2Proof.Machine.execTwnConfigWrite k v s
  | .twinStandbyAge => Sys2Proof.Machine.execTwinStandbyAge s
  | .twinMsgSend q => Sys2Proof.Machine.execTwinMsgSend q s
  | .twinMsgRx q d => Sys2Proof.Machine.execTwinMsgRx q d s
  | .bar0BadAccess => Sys2Proof.Machine.execBar0BadAccess s
  | .bar2Access x n d => Sys2Proof.Machine.execBar2Access x n d s
  | .hifWinWrite v => Sys2Proof.Machine.execHifWinWrite v s
  | .queueEnable q v => Sys2Proof.Machine.execQueueEnable q v s
  | .queueDoorbell q pi => Sys2Proof.Machine.execQueueDoorbell q pi s
  | .queueCiWrite q ci => Sys2Proof.Machine.execQueueCiWrite q ci s
  | .descriptorFetch q x => Sys2Proof.Machine.execDescriptorFetch q x s
  | .nop q => Sys2Proof.Machine.execNop q s
  | .copyIn q d n => Sys2Proof.Machine.execCopyIn q d n s
  | .copyOut q fail n => Sys2Proof.Machine.execCopyOut q fail n s
  | .fill q n => Sys2Proof.Machine.execFill q n s
  | .fence q => Sys2Proof.Machine.execFence q s
  | .jobLoad q => Sys2Proof.Machine.execJobLoad q s
  | .jobUnload q => Sys2Proof.Machine.execJobUnload q s
  | .descriptorComplete q => Sys2Proof.Machine.execDescriptorComplete q s
  | .queueAbort q => Sys2Proof.Machine.execQueueAbort q s
  | .interruptTimer q => Sys2Proof.Machine.execInterruptTimer q s
  | .msixUnmask v => Sys2Proof.Machine.execMsixUnmask v s
  | .pcieLinkDown => Sys2Proof.Machine.execPcieLinkDown s
  | .pcieLinkUp gen w => Sys2Proof.Machine.execPcieLinkUp gen w s
  | .pcieHotReset => Sys2Proof.Machine.execPcieHotReset s
  | .hifWdogWrite v => Sys2Proof.Machine.execHifWdogWrite v s
  | .hifWdogKick => Sys2Proof.Machine.execHifWdogKick s
  | .hostLost => Sys2Proof.Machine.execHostLost s
  | .evtRouteWrite n v => Sys2Proof.Machine.execEvtRouteWrite n v s
  | .mboxPing q => Sys2Proof.Machine.execMboxPing q s
  | .mboxFence q => Sys2Proof.Machine.execMboxFence q s
  | .mboxPermit q => Sys2Proof.Machine.execMboxPermit q s
  | .trainRead q => Sys2Proof.Machine.execTrainRead q s
  | .calRead q => Sys2Proof.Machine.execCalRead q s
  | .calPlace q => Sys2Proof.Machine.execCalPlace q s
  | .boardWrite q => Sys2Proof.Machine.execBoardWrite q s
  | .imageWrite q => Sys2Proof.Machine.execImageWrite q s
  | .imageCommit q => Sys2Proof.Machine.execImageCommit q s
  | .logRead q => Sys2Proof.Machine.execLogRead q s
  | .powerOnReset => Sys2Proof.Machine.execPowerOnReset s
  | .resetPin => Sys2Proof.Machine.execResetPin s
  | .startColdCmd => Sys2Proof.Machine.execStartColdCmd s
  | .startWarmCmd => Sys2Proof.Machine.execStartWarmCmd s
  | .coldStart x => Sys2Proof.Machine.execColdStart x s
  | .warmStart x => Sys2Proof.Machine.execWarmStart x s
  | .bootReadyTimeout => Sys2Proof.Machine.execBootReadyTimeout s
  | .firmwareReady => Sys2Proof.Machine.execFirmwareReady s
  | .norReadWord => Sys2Proof.Machine.execNorReadWord s
  | .norProgramWord => Sys2Proof.Machine.execNorProgramWord s
  | .norEraseSector => Sys2Proof.Machine.execNorEraseSector s
  | .housekeepingRound x => Sys2Proof.Machine.execHousekeepingRound x s
  | .thermTrip => Sys2Proof.Machine.execThermTrip s
  | .mgmtWdogExpiry c => Sys2Proof.Machine.execMgmtWdogExpiry c s
  | .logPageWrite => Sys2Proof.Machine.execLogPageWrite s
  | .tdieRead => Sys2Proof.Machine.execTdieRead s
  | .brownout => Sys2Proof.Machine.execBrownout s
  | .refClkLoss => Sys2Proof.Machine.execRefClkLoss s
  | .compatWrite v => Sys2Proof.Machine.execCompatWrite v s
  | .registerWrite a v => Sys2Proof.Machine.execRegisterWrite a v s
  | .reservedOpcode e w => Sys2Proof.Machine.execReservedOpcode e w s
  | .gioInputChange n level => Sys2Proof.Machine.execGioInputChange n level s
  | .tpulseEnd n => Sys2Proof.Machine.execTpulseEnd n s
  | .controlFrameSend p => Sys2Proof.Machine.execControlFrameSend p s
  | .ptpMessageSend port kind => Sys2Proof.Machine.execPtpMessageSend port kind s
  | .twinLaneAlign skew => Sys2Proof.Machine.execTwinLaneAlign skew s
  | .csiLaneSync p sync => Sys2Proof.Machine.execCsiLaneSync p sync s
  | .camOverloadEnd u => Sys2Proof.Machine.execCamOverloadEnd u s
  | .camSetItemTimeout u => Sys2Proof.Machine.execCamSetItemTimeout u s
  | .lampGroupDark g => Sys2Proof.Machine.execLampGroupDark g s
  | .norWriteDone first second => Sys2Proof.Machine.execNorWriteDone first second s
  | .glbNorDone ok => Sys2Proof.Machine.execGlbNorDone ok s

end Sys2Proof.Machine
end

