-- ==== Sys2Proof/Machine/Step.lean ====
section
/-! DEFINITION. A step: the command at the front of the queue is taken and has its effect; with no command waiting, time passes. -/

namespace Sys2Proof.Machine

/-- The step. On an empty queue one SEQ cycle passes: positions advance by interpolation and time by NET ticks (DESIGN CHOICE, log 8). -/
def step (s : State) : Host.Outcome State Fault Refusal :=
  match s.pending with
  | [] => .next (s.elapse 1)
  | c :: r => exec c { s with pending := r }

/-- The state with the command that a word spells at the front of its queue; no word spells one. -/
def State.withFetchWord (s : State) (nbits w : Nat) : State :=
  match decodeTableWord nbits w with
  | some c => { s with pending := c :: s.pending }
  | none => s

end Sys2Proof.Machine
end

