-- ==== Sys2Proof/Machine/Words.lean ====
section
/-! DEFINITION. The words of the engines' instructions (R86 to R112): each instruction command names its engine and one word. -/

namespace Sys2Proof.Machine

/-- The engine and the 32-bit word of an instruction command (R86, R88); none: the command is no instruction of an engine. -/
def instrWord (i : Instr) : Option (Eng × Word) :=
  match i with
  | .add e rd ra rb => some (e, encA 0x00 rd ra rb 0)
  | .sub e rd ra rb => some (e, encA 0x00 rd ra rb 1)
  | .and e rd ra rb => some (e, encA 0x00 rd ra rb 2)
  | .or e rd ra rb => some (e, encA 0x00 rd ra rb 3)
  | .xor e rd ra rb => some (e, encA 0x00 rd ra rb 4)
  | .sll e rd ra rb => some (e, encA 0x00 rd ra rb 5)
  | .srl e rd ra rb => some (e, encA 0x00 rd ra rb 6)
  | .sra e rd ra rb => some (e, encA 0x00 rd ra rb 7)
  | .mul e rd ra rb => some (e, encA 0x00 rd ra rb 8)
  | .mulhs e rd ra rb => some (e, encA 0x00 rd ra rb 9)
  | .mulhu e rd ra rb => some (e, encA 0x00 rd ra rb 10)
  | .min e rd ra rb => some (e, encA 0x00 rd ra rb 11)
  | .max e rd ra rb => some (e, encA 0x00 rd ra rb 12)
  | .minu e rd ra rb => some (e, encA 0x00 rd ra rb 13)
  | .maxu e rd ra rb => some (e, encA 0x00 rd ra rb 14)
  | .sel e f rd ra rb => some (e, encA 0x00 rd ra rb (64 * f + 0x0F))
  | .clz e rd ra => some (e, encA 0x00 rd ra 0 0x10)
  | .popc e rd ra => some (e, encA 0x00 rd ra 0 0x11)
  | .slli e rd ra n => some (e, encA 0x00 rd ra n 0x12)
  | .srli e rd ra n => some (e, encA 0x00 rd ra n 0x13)
  | .srai e rd ra n => some (e, encA 0x00 rd ra n 0x14)
  | .getf e rd => some (e, encA 0x00 rd 0 0 0x15)
  | .setf e ra => some (e, encA 0x00 0 ra 0 0x16)
  | .addi e rd ra imm => some (e, encB 1 rd ra imm.toNat)
  | .andi e rd ra imm => some (e, encB 2 rd ra imm.toNat)
  | .ori e rd ra imm => some (e, encB 3 rd ra imm.toNat)
  | .xori e rd ra imm => some (e, encB 4 rd ra imm.toNat)
  | .lui e rd imm => some (e, encB 5 rd 0 imm.toNat)
  | .cmp e c f ra rb => some (e, encA 6 (condRd c f) ra rb 0)
  | .cmpi e c f ra imm => some (e, encB 7 (condRd c f) ra imm.toNat)
  | .ld e rd ra imm => some (e, encB 0x8 rd ra imm.toNat)
  | .ldh e rd ra imm => some (e, encB 0x9 rd ra imm.toNat)
  | .ldb e rd ra imm => some (e, encB 0xa rd ra imm.toNat)
  | .st e rd ra imm => some (e, encB 0xb rd ra imm.toNat)
  | .sth e rd ra imm => some (e, encB 0xc rd ra imm.toNat)
  | .stb e rd ra imm => some (e, encB 0xd rd ra imm.toNat)
  | .pld e pd ra imm => some (e, encB 0xe pd ra imm.toNat)
  | .pst e pd ra imm => some (e, encB 0xf pd ra imm.toNat)
  | .br e c f off => some (e, encC 0x10 c f off.toNat)
  | .call e off => some (e, encC 0x11 0 0 off.toNat)
  | .jr e ra => some (e, encA 0x12 0 ra 0 0)
  | .dbnz e rd imm => some (e, encB 0x13 rd 0 imm.toNat)
  | .halt e => some (e, encA 0x15 0 0 0 0)
  | .padd e pd pa pb => some (e, encA 0x1C pd pa pb 0)
  | .psub e pd pa pb => some (e, encA 0x1C pd pa pb 1)
  | .paddg e pd pa rb => some (e, encA 0x1C pd pa rb 2)
  | .pmac e pd ra rb => some (e, encA 0x1C pd ra rb 3)
  | .psetg e pd ra => some (e, encA 0x1C pd ra 0 4)
  | .psetgu e pd ra => some (e, encA 0x1C pd ra 0 5)
  | .pgetl e rd pa => some (e, encA 0x1C rd pa 0 6)
  | .pgeth e rd pa => some (e, encA 0x1C rd pa 0 7)
  | .pmov e pd pa => some (e, encA 0x1C pd pa 0 8)
  | .pseth e pd ra => some (e, encA 0x1C pd ra 0 9)
  | .pslli e pd pa n => some (e, encA 0x1C pd pa n 10)
  | .psrai e pd pa n => some (e, encA 0x1C pd pa n 11)
  | .pcmp e c f pa pb => some (e, encA 0x1C (condRd c f) pa pb 0x0C)
  | .iord e rd ra imm => some (e, encB 0x17 rd ra imm.toNat)
  | .prd e pd unit mode => some (e, encD 0x1D unit pd mode 0)
  | .waitpos e pa unit line tmo le => some (e, encD 0x20 unit pa (b2n line + 2 * b2n tmo + 4 * b2n le) 0)
  | .waitevt e unit imm clear tmo => some (e, encD 0x21 unit 0 (b2n clear + 2 * b2n tmo) imm.toNat)
  | .waitt e ra imm => some (e, encB 0x14 0 ra imm.toNat)
  | .emitGioLow e n => some (e, encD 0x22 0 0 0 n.toNat)
  | .emitGioHigh e n => some (e, encD 0x22 0 0 1 n.toNat)
  | .emitGioToggle e n => some (e, encD 0x22 0 0 2 n.toNat)
  | .emitGioPulse e ra n => some (e, encD 0x22 0 ra 3 n.toNat)
  | .emitTrig e n => some (e, encD 0x22 0 0 4 n.toNat)
  | .emitTpulse e ra n => some (e, encD 0x22 0 ra 5 n.toNat)
  | .emitHostevt e ra n => some (e, encD 0x22 0 ra 7 n.toNat)
  | .fireStrobe e unit => some (e, encD 0x23 unit 0 0 0)
  | .fireTickle e ra unit => some (e, encD 0x23 unit ra 1 0)
  | .lineRelease e ra unit => some (e, encD 0x24 unit ra 0 0)
  | .lineReleaseRel e ra unit => some (e, encD 0x24 unit ra 1 0)
  | .lineLadder e ra unit imm => some (e, encD 0x24 unit ra 2 imm.toNat)
  | .lineBlank e ra unit => some (e, encD 0x24 unit ra 3 0)
  | .sendConfig e ra imm => some (e, encD 0x25 0 ra 0 imm.toNat)
  | .sendSync e ra imm => some (e, encD 0x25 0 ra 1 imm.toNat)
  | .sheaf e ra imm => some (e, encD 0x26 0 ra 0 imm.toNat)
  | .vadd e vd va vb => some (e, encA 0x30 vd va vb 0)
  | .vsub e vd va vb => some (e, encA 0x30 vd va vb 1)
  | .vadds e vd va vb => some (e, encA 0x30 vd va vb 2)
  | .vsubs e vd va vb => some (e, encA 0x30 vd va vb 3)
  | .vaddus e vd va vb => some (e, encA 0x30 vd va vb 4)
  | .vsubus e vd va vb => some (e, encA 0x30 vd va vb 5)
  | .vmin e vd va vb => some (e, encA 0x30 vd va vb 6)
  | .vmax e vd va vb => some (e, encA 0x30 vd va vb 7)
  | .vminu e vd va vb => some (e, encA 0x30 vd va vb 8)
  | .vmaxu e vd va vb => some (e, encA 0x30 vd va vb 9)
  | .vabsd e vd va vb => some (e, encA 0x30 vd va vb 10)
  | .vand e vd va vb => some (e, encA 0x30 vd va vb 11)
  | .vor e vd va vb => some (e, encA 0x30 vd va vb 12)
  | .vxor e vd va vb => some (e, encA 0x30 vd va vb 13)
  | .vmull e vd va vb => some (e, encA 0x30 vd va vb 14)
  | .vmulhs e vd va vb => some (e, encA 0x30 vd va vb 15)
  | .vmulq e vd va vb => some (e, encA 0x30 vd va vb 16)
  | .vshl e vd va vb => some (e, encA 0x30 vd va vb 17)
  | .vshr e vd va vb => some (e, encA 0x30 vd va vb 18)
  | .vsra e vd va vb => some (e, encA 0x30 vd va vb 19)
  | .vavgu e vd va vb => some (e, encA 0x30 vd va vb 20)
  | .vslide e vd va vb k => some (e, encA 0x30 vd va vb (64 * k + 0x15))
  | .vperm e vd va vb => some (e, encA 0x30 vd va vb 0x16)
  | .vmac e vd va vb => some (e, encA 0x31 vd va vb 0)
  | .vmacq e vd va vb => some (e, encA 0x31 vd va vb 1)
  | .vcmp e c rd va vb => some (e, encA 0x32 rd va vb c)
  | .vsel e vd va vb m => some (e, encA 0x33 vd va vb (64 * m))
  | .vred e k rd va => some (e, encA 0x34 rd va 0 k)
  | .vbcast e vd ra => some (e, encA 0x35 vd ra 0 0)
  | .vins e vd ra rb => some (e, encA 0x35 vd ra rb 1)
  | .vext e rd va rb => some (e, encA 0x35 rd va rb 2)
  | .vextu e rd va rb => some (e, encA 0x35 rd va rb 3)
  | .vmovv e vd va => some (e, encA 0x35 vd va 0 4)
  | .vld e vd ra imm => some (e, encB 0x36 vd ra imm.toNat)
  | .vst e vd ra imm => some (e, encB 0x37 vd ra imm.toNat)
  | .vldb e vd ra imm => some (e, encB 0x38 vd ra imm.toNat)
  | .vstb e vd ra imm => some (e, encB 0x39 vd ra imm.toNat)
  | .dmaRead e pd ra rb => some (e, encA 0x3A pd ra rb 0)
  | .dmaWrite e pd ra rb => some (e, encA 0x3A pd ra rb 1)
  | .dmawait e imm => some (e, encB 0x3B 0 0 imm.toNat)
  | _ => none

end Sys2Proof.Machine
end

