-- ==== Sys2Proof/Safety.lean ====
section
/-! DEFINITION. What counts as a safe run, in the terms claims use: the canonical form of memories and registers, a command that completes, an
engine that issues, and what a command leaves alone. -/

namespace Sys2Proof.Safety

open Sys2Proof.Machine

/-- The registers, their applied values, the store and the engine memories are in canonical form. -/
def StateWf (s : State) : Prop :=
  smWf resetAt s.regs = true ∧ smWf resetAt s.applied = true ∧ smWf (fun _ => (0 : Byte)) s.store = true ∧
    smWf (fun _ => (0 : Word)) s.engCode = true ∧ smWf (fun _ => (0 : Byte)) s.engData = true

/-- A command completes: it answers a next state. -/
def Completes (c : Instr) (s : State) : Prop := ∃ t, exec c s = .next t

/-- `t` differs from `s` in the registers at the addresses `A` at most, and in nothing else of the state. -/
def OnlyRegs (A : List Nat) (s t : State) : Prop := (∀ a, a ∉ A → t.rd a = s.rd a) ∧ t = { s with regs := t.regs }

/-- The registers that reporting an event may write: PI and STAT of the event queues (R418, R437), the counts of events lost and FULL (R46, R438), the pending
bits of masked vectors (R433). -/
def evReg (a : Nat) : Bool :=
  (decide (0x21800 ≤ a) && decide (a < 0x21A00)) || (decide (0x10100 ≤ a) && decide (a < 0x10120)) || a == 0x10200 || a == 0x29000 || a == 0x29004

/-- `t` differs from `s` in the registers at the addresses `A` and in what reporting events changes at most: the registers `evReg`, the queues, the
messages sent, the times of rate-limited events. -/
def OnlyEv (A : List Nat) (s t : State) : Prop :=
  (∀ a, a ∉ A → evReg a = false → t.rd a = s.rd a) ∧ t = { s with regs := t.regs, queues := t.queues, irqSent := t.irqSent, evLast := t.evLast }

/-- Engine `e` issues an instruction and goes on to the next: it is in RUN (R118), no DMA error waits (R113), no halt or step waits for the
boundary (R119), its breakpoint is off (R119), and its PC lies before the last word of code memory (R94). -/
def Runs (s : State) (e : Nat) : Prop :=
  s.engState e = 2 ∧ (s.ex e).dmaErr = false ∧ (s.ex e).haltNext = false ∧ s.on ENG_BREAK_EN e = false ∧ s.get ENG_PC e < 0xFFFC

/-- The answer of an instruction that writes general register `rd` and nothing else: `v` is there (G0 reads 0 and nothing is written, R83), the PC moves on
to the next word, and no other register, flag, accumulator or memory changes. -/
def GResult (s : State) (e rd : Nat) (v : Word) (r : Res) : Prop :=
  ∃ t, r = .next t ∧ t.g e rd = (if rd = 0 then 0 else v) ∧ t.get ENG_PC e = s.get ENG_PC e + 4 ∧
    OnlyRegs ((if rd = 0 then [] else [ENG_G.addr e rd]) ++ [ENG_PC.addr e]) s t

/-- The answer of an instruction that writes position register `pd` and nothing else. -/
def PResult (s : State) (e pd : Nat) (v : Dword) (r : Res) : Prop :=
  ∃ t, r = .next t ∧ t.pr e pd = v ∧ t.get ENG_PC e = s.get ENG_PC e + 4 ∧
    OnlyRegs [ENG_P_LO.addr e pd, ENG_P_LO.addr e pd + 4, ENG_PC.addr e] s t

/-- The answer of an instruction that writes vector register `vd` and nothing else. -/
def VResult (s : State) (e vd : Nat) (v : List (BitVec 16)) (r : Res) : Prop :=
  ∃ t, r = .next t ∧ t.vr e vd = v ∧ t.get ENG_PC e = s.get ENG_PC e + 4 ∧
    OnlyRegs (((List.range 8).map fun w => ENG_V.addr e vd w) ++ [ENG_PC.addr e]) s t

/-- The answer of an instruction that writes flag `f` and nothing else: every other flag stays. -/
def FlagResult (s : State) (e f : Nat) (b : Bool) (r : Res) : Prop :=
  ∃ t, r = .next t ∧ t.flag e f = b ∧ (∀ n, n ≠ f → t.flag e n = s.flag e n) ∧ t.get ENG_PC e = s.get ENG_PC e + 4 ∧
    OnlyRegs [ENG_FLAGS.addr e, ENG_PC.addr e] s t

/-- The answer of an instruction that passes control to `target` and writes nothing else. -/
def JumpResult (s : State) (e target : Nat) (r : Res) : Prop :=
  ∃ t, r = .next t ∧ t.get ENG_PC e = target ∧ OnlyRegs [ENG_PC.addr e] s t

/-- The answer of an instruction that stores the low `n` bytes of `v` at data address `a` and nothing else: every byte of every engine's data memory
outside them reads as before. -/
def StoreResult (s : State) (e a n v : Nat) (r : Res) : Prop :=
  ∃ t, r = .next t ∧ t.dld e a n = v % 256 ^ n ∧
    (∀ (e' : Nat) (a' : Nat), a' < 262144 → (e' ≠ e ∨ a' < a ∨ a + n ≤ a') → t.dmem e' a' = s.dmem e' a') ∧
    t.get ENG_PC e = s.get ENG_PC e + 4 ∧ (∀ x, x ≠ ENG_PC.addr e → t.rd x = s.rd x) ∧
    t = { s with regs := t.regs, engData := t.engData }

/-- The answer of an instruction that stores the bytes `f 0`, ..., `f (n - 1)` at data address `a` and changes nothing else but the PC. -/
def BytesResult (s : State) (e a n : Nat) (f : Nat → Byte) (r : Res) : Prop :=
  ∃ t, r = .next t ∧ (∀ i < n, t.dmem e (a + i) = f i) ∧
    (∀ (e' : Nat) (a' : Nat), a' < 262144 → (e' ≠ e ∨ a' < a ∨ a + n ≤ a') → t.dmem e' a' = s.dmem e' a') ∧
    t.get ENG_PC e = s.get ENG_PC e + 4 ∧ (∀ x, x ≠ ENG_PC.addr e → t.rd x = s.rd x) ∧
    t = { s with regs := t.regs, engData := t.engData }

/-- The answer of an instruction that stops issue: the engine is in WAIT (R118) on `u`, shown in ENG_STAT, with its PC at the waiting instruction (R119). -/
def WaitResult (s : State) (e : Nat) (u : UWait) (r : Res) : Prop :=
  ∃ t, r = .next t ∧ t.engState e = 3 ∧ t.get ENG_STAT_WAIT_KIND e = u.kind ∧ t.get ENG_STAT_WAIT_UNIT e = u.unit ∧ (t.ex e).wait = some u ∧
    t.get ENG_PC e = s.get ENG_PC e

/-- The answer of an instruction that makes GIO `n` the level `v` and changes nothing else but the PC (R104, R142). -/
def GioResult (s : State) (e n : Nat) (v pulse : Bool) (r : Res) : Prop :=
  ∃ t, r = .next t ∧ (∀ k < 32, bitN (t.get SEQ_GIO_OUT) k = if k = n then v else bitN (s.get SEQ_GIO_OUT) k) ∧
    smGet (fun _ => false) t.gioPulse n = pulse ∧ t.get ENG_PC e = s.get ENG_PC e + 4 ∧
    OnlyRegs [SEQ_GIO_OUT.addr, ENG_PC.addr e] s { t with gioPulse := s.gioPulse }

/-- The answer of a LINE instruction on bar `b` that names line `x` and leaves the substitutions `subs` (R106). -/
def LineResult (s : State) (e b : Nat) (x : Int) (subs : List (Int × Int × Nat × Nat)) (r : Res) : Prop :=
  ∃ t, r = .next t ∧ (t.hb b).mark = max (s.hb b).mark x ∧ (t.hb b).subs = subs ∧ (∀ b' : Bar, b'.val ≠ b → t.hb b' = s.hb b') ∧
    t.get ENG_PC e = s.get ENG_PC e + 4 ∧ OnlyRegs [ENG_PC.addr e] s { t with hbar := s.hbar }

/-- The answer of an instruction of engine `e` that traps with a cause: what the shared trap does at the PC with the instruction's word (R116), and nothing of its
own. -/
def TrapResult (s : State) (e cause : Nat) (i : Instr) : Prop :=
  ∃ (e' : Eng) (w : Word), instrWord i = some (e', w) ∧ e'.val = e ∧ exec i s = .next (s.trap e cause (s.get ENG_PC e) w)

/-- The conditions of the compare instructions (R92) on two values of one width. -/
def condHolds {n : Nat} (c : Fin 8) (a b : BitVec n) : Bool :=
  match c.val with
  | 0 => decide (a = b)
  | 1 => decide (a ≠ b)
  | 2 => decide (a.toInt < b.toInt)
  | 3 => decide (b.toInt ≤ a.toInt)
  | 4 => decide (a.toNat < b.toNat)
  | _ => decide (b.toNat ≤ a.toNat)

/-- An access of `n` bytes at the data address `a` of an engine is in range and aligned (R93). -/
def DataOk (e a n : Nat) : Prop := a < dataSize e ∧ a % n = 0

/-- The answer is a next state with `P`. -/
def Gives (r : Res) (P : State → Prop) : Prop := ∃ t, r = .next t ∧ P t

/-- What GLB_MODE_STAT shows of host requests and of the transition in progress (R30, R32): TAG, RESULT and PENDING. -/
def Shows (t : State) (tag result pending : Nat) : Prop :=
  t.get GLB_MODE_STAT_TAG = tag ∧ t.get GLB_MODE_STAT_RESULT = result ∧ t.get GLB_MODE_STAT_PENDING = pending

/-- A host request turned away (R30): the mode and every bar entry stay, TAG and RESULT show the request, PENDING still shows what it showed, and nothing
else changes but what reporting MODE_REFUSED does. -/
def TurnedAway (s : State) (tag result : Nat) (r : Res) : Prop :=
  ∃ t, r = .next t ∧ Shows t tag result (s.get GLB_MODE_STAT_PENDING) ∧ t.mode = s.mode ∧ (∀ b < 16, t.barMode b = s.barMode b) ∧
    OnlyEv [GLB_MODE_STAT.addr] s t ∧ (result ≠ 5 → OnlyRegs [GLB_MODE_STAT.addr] s t)

/-- A staged transition begins (R30): TAG, PENDING and RESULT = PENDING are shown, the mode stays, the transition waits for its bars. -/
def Staged (s : State) (tag : Nat) (x : ModeTr) (r : Res) : Prop :=
  ∃ t, r = .next t ∧ Shows t tag 1 x.target ∧ t.mode = s.mode ∧ t.tr = some x ∧ OnlyRegs [GLB_MODE_STAT.addr] s { t with tr := s.tr }

/-- The press takes mode `m` at once for a host request (R27, R30): MODE and every bar entry show it, the request is DONE with CAUSE 0. -/
def TakesMode (m tag : Nat) (t : State) : Prop :=
  t.mode = m ∧ (∀ b < 16, t.barMode b = m) ∧ t.get GLB_MODE_STAT_TAG = tag ∧ t.get GLB_MODE_STAT_RESULT = 0 ∧ t.get GLB_MODE_STAT_CAUSE = 0

/-- The mode controller is free to judge a host request (R29, R30): no start trigger waits and no transition is pending. -/
def Free (s : State) : Prop := s.startTrig = false ∧ s.tr = none

/-- Entry `k` of the reject list, in its slot k mod 64 (R137). -/
def RejEntry (t : State) (k cause bar trk : Nat) (start : Int) (len : Nat) : Prop :=
  t.geti64 SEQ_REJ_START_LO (k % 64) = sx 64 (ux 64 start) ∧ t.get SEQ_REJ_LEN (k % 64) = len ∧ t.get SEQ_REJ_INFO_CAUSE (k % 64) = cause ∧
    t.get SEQ_REJ_INFO_BAR (k % 64) = bar ∧ t.get SEQ_REJ_INFO_TRK (k % 64) = trk ∧ t.get SEQ_REJ_INFO_SEQ (k % 64) = k % 65536

/-- The registers of slot `k` mod 64 of the reject list, and SEQ_REJ_WR. -/
def rejRegs (k : Nat) : List Nat :=
  [SEQ_REJ_START_LO.addr (k % 64), SEQ_REJ_START_HI.addr (k % 64), SEQ_REJ_LEN.addr (k % 64), SEQ_REJ_INFO.addr (k % 64), SEQ_REJ_WR.addr]

/-- A command that an engine's state does not accept: CMD_ERR and nothing else (R119). -/
def CmdErr (s : State) (e : Nat) (r : Res) : Prop := Gives r fun t => t.on ENG_STAT_CMD_ERR e = true ∧ t.engState e = s.engState e ∧ OnlyRegs [ENG_STAT.addr e] s t

/-- The device hears host accesses outside GLB (R451, R452). -/
def Hears (s : State) : Prop := s.deaf = false

end Sys2Proof.Safety
end

