-- ==== Sys2Proof/WellFormed.lean ====
section
/-! DEFINITION. Which commands are well-formed: register addresses that are word addresses of BAR0, lists of the length the spec gives,
numbers in range. Operands whose every value is well-formed are ranged by their types. -/

namespace Sys2Proof

/-- A word address of BAR0, which is 64 MiB (R415). -/
def aligned (a : Nat) : Bool := a % 4 == 0 && decide (a < 2 ^ 26)

/-- The store's address space, 768 GiB (R150). -/
def storeSize : Nat := 768 * 2 ^ 30

/-- An entry as the host writes it (R420): OP and FLAGS bytes, TAG of 64 bits, at most twelve words of BODY. -/
def Sub.wf (x : Sub) : Bool := decide (x.op < 256) && decide (x.flags < 256) && decide (x.tag < 2 ^ 64) && decide (x.body.length ≤ 12)

/-- A STATUS frame of eight temperatures, four rails and at most sixteen nozzle-fault entries (R265). -/
def StatusIn.wf (x : StatusIn) : Bool :=
  x.temps.length == 8 && x.rails.length == 4 && decide (x.nf.length ≤ 16) && decide (x.version < 256)

/-- A copy image of sixteen points and sixteen sequencers, its nozzle entries in the table (R400). -/
def CopyImg.wf (x : CopyImg) : Bool :=
  x.applied.length == 16 && x.seqs.length == 16 && x.nzt.all (·.1 < 1572864) && x.runs.all (·.1 < 1572864)

/-- A housekeeping round's readings: 32 remote, 24 supplies, 16 on-die (R456). -/
def HkIn.wf (x : HkIn) : Bool := x.ts.length == 32 && x.sm.length == 24 && x.od.length == 16

/-- What a start meets on the 24 sub-channels (R447, R448). -/
def StartIn.wf (x : StartIn) : Bool := x.hk.wf && x.train.length == 24 && x.sentinel.length == 24

/-- A command whose operands are in the ranges the spec gives. -/
def Instr.wf (i : Instr) : Bool :=
  match i with
  | .modeReqIdle _ => true
  | .modeReqReady _ => true
  | .modeReqPrint _ => true
  | .modeReqHold _ => true
  | .modeReqHoldImmediate _ => true
  | .modeReqShadow _ _ m _ => m.wf
  | .modeReqService _ => true
  | .modeReqSafe _ => true
  | .modeReqBoot _ => true
  | .startTrigger => true
  | .holdCauseAck => true
  | .fatalAck => true
  | .unitStopPoint _ => true
  | .skewTimeout _ => true
  | .eventLost _ => true
  | .encEdge _ _ _ _ _ => true
  | .encLossDetect _ => true
  | .encLossClear _ => true
  | .absFrameStart _ => true
  | .absFrameDone _ _ _ _ _ => true
  | .mkEdge _ _ _ => true
  | .speedGate _ _ => true
  | .standstill _ => true
  | .trackerLoad _ => true
  | .trackerArm _ => true
  | .trackerCtlWrite _ _ => true
  | .encClr _ => true
  | .regPairReadLatch a => aligned a
  | .lineClockHit _ _ => true
  | .lineClockDelayedHit _ => true
  | .sheetEdgeTake _ => true
  | .lcEnable _ _ _ => true
  | .lcPitchOffsetWrite _ _ _ => true
  | .add _ _ _ _ => true
  | .sub _ _ _ _ => true
  | .and _ _ _ _ => true
  | .or _ _ _ _ => true
  | .xor _ _ _ _ => true
  | .sll _ _ _ _ => true
  | .srl _ _ _ _ => true
  | .sra _ _ _ _ => true
  | .mul _ _ _ _ => true
  | .mulhs _ _ _ _ => true
  | .mulhu _ _ _ _ => true
  | .min _ _ _ _ => true
  | .max _ _ _ _ => true
  | .minu _ _ _ _ => true
  | .maxu _ _ _ _ => true
  | .sel _ _ _ _ _ => true
  | .clz _ _ _ => true
  | .popc _ _ _ => true
  | .slli _ _ _ _ => true
  | .srli _ _ _ _ => true
  | .srai _ _ _ _ => true
  | .getf _ _ => true
  | .setf _ _ => true
  | .addi _ _ _ _ => true
  | .andi _ _ _ _ => true
  | .ori _ _ _ _ => true
  | .xori _ _ _ _ => true
  | .lui _ _ _ => true
  | .cmp _ _ _ _ _ => true
  | .cmpi _ _ _ _ _ => true
  | .ld _ _ _ _ => true
  | .ldh _ _ _ _ => true
  | .ldb _ _ _ _ => true
  | .st _ _ _ _ => true
  | .sth _ _ _ _ => true
  | .stb _ _ _ _ => true
  | .pld _ _ _ _ => true
  | .pst _ _ _ _ => true
  | .br _ _ _ _ => true
  | .call _ _ => true
  | .jr _ _ => true
  | .dbnz _ _ _ => true
  | .halt _ => true
  | .padd _ _ _ _ => true
  | .psub _ _ _ _ => true
  | .paddg _ _ _ _ => true
  | .pmac _ _ _ _ => true
  | .psetg _ _ _ => true
  | .psetgu _ _ _ => true
  | .pgetl _ _ _ => true
  | .pgeth _ _ _ => true
  | .pmov _ _ _ => true
  | .pseth _ _ _ => true
  | .pslli _ _ _ _ => true
  | .psrai _ _ _ _ => true
  | .pcmp _ _ _ _ _ => true
  | .iord _ _ _ _ => true
  | .prd _ _ _ _ => true
  | .waitpos _ _ _ _ _ _ => true
  | .waitevt _ _ _ _ _ => true
  | .waitt _ _ _ => true
  | .waitConditionMet _ => true
  | .waitTimeout _ => true
  | .waittExpiry _ => true
  | .emitGioLow _ _ => true
  | .emitGioHigh _ _ => true
  | .emitGioToggle _ _ => true
  | .emitGioPulse _ _ _ => true
  | .gioPulseEnd _ => true
  | .emitTrig _ _ => true
  | .emitTpulse _ _ _ => true
  | .emitHostevt _ _ _ => true
  | .fireStrobe _ _ => true
  | .fireTickle _ _ _ => true
  | .lineRelease _ _ _ => true
  | .lineReleaseRel _ _ _ => true
  | .lineLadder _ _ _ _ => true
  | .lineBlank _ _ _ => true
  | .sendConfig _ _ _ => true
  | .sendSync _ _ _ => true
  | .sheaf _ _ _ => true
  | .sheafAnswer _ => true
  | .vadd _ _ _ _ => true
  | .vsub _ _ _ _ => true
  | .vadds _ _ _ _ => true
  | .vsubs _ _ _ _ => true
  | .vaddus _ _ _ _ => true
  | .vsubus _ _ _ _ => true
  | .vmin _ _ _ _ => true
  | .vmax _ _ _ _ => true
  | .vminu _ _ _ _ => true
  | .vmaxu _ _ _ _ => true
  | .vabsd _ _ _ _ => true
  | .vand _ _ _ _ => true
  | .vor _ _ _ _ => true
  | .vxor _ _ _ _ => true
  | .vmull _ _ _ _ => true
  | .vmulhs _ _ _ _ => true
  | .vmulq _ _ _ _ => true
  | .vshl _ _ _ _ => true
  | .vshr _ _ _ _ => true
  | .vsra _ _ _ _ => true
  | .vavgu _ _ _ _ => true
  | .vslide _ _ _ _ _ => true
  | .vperm _ _ _ _ => true
  | .vmac _ _ _ _ => true
  | .vmacq _ _ _ _ => true
  | .vcmp _ _ _ _ _ => true
  | .vsel _ _ _ _ _ => true
  | .vred _ _ _ _ => true
  | .vbcast _ _ _ => true
  | .vins _ _ _ _ => true
  | .vext _ _ _ _ => true
  | .vextu _ _ _ _ => true
  | .vmovv _ _ _ => true
  | .vld _ _ _ _ => true
  | .vst _ _ _ _ => true
  | .vldb _ _ _ _ => true
  | .vstb _ _ _ _ => true
  | .dmaRead _ _ _ _ => true
  | .dmaWrite _ _ _ _ => true
  | .dmawait _ _ => true
  | .dmaDone _ => true
  | .engStart _ => true
  | .engResume _ => true
  | .engHalt _ => true
  | .engStep _ => true
  | .engReset _ => true
  | .engDoorbell _ => true
  | .hostTrig _ => true
  | .seqBindWrite _ _ => true
  | .codeWrite _ _ _ => true
  | .engRegWrite _ _ _ => true
  | .loaderGo => true
  | .loaderAbort _ => true
  | .loaderComplete => true
  | .rejectEntryWrite _ _ => true
  | .rejectAdd => true
  | .rejectClear => true
  | .gioConfigWrite _ _ => true
  | .gioSet _ => true
  | .gioClr _ => true
  | .storeReadRequest _ a _ err _ => a < storeSize && err.Nodup
  | .storeWriteRequest _ a d _ err _ => a % 64 + d.length ≤ 64 && a < storeSize && err.Nodup
  | .memPanicLong _ => true
  | .requestPromotion _ => true
  | .refreshDue _ => true
  | .scrubStep _ err => err.Nodup
  | .dramAlert _ _ _ _ => true
  | .zqCalibration _ => true
  | .dqsTrack _ _ => true
  | .mr4Read _ _ _ => true
  | .subchannelDrained _ => true
  | .composeLine _ => true
  | .sheafSubmit => true
  | .rwsWrite a _ => aligned a
  | .cpCtlWrite _ _ => true
  | .poolPeakRead => true
  | .displaySheafSubmit => true
  | .verticalBlank => true
  | .dspUnderrun => true
  | .hskGo => true
  | .hskAbort _ => true
  | .hskComplete => true
  | .screenLine _ ce ue => ce.all (· < 1572864) && ue.all (· < 1572864)
  | .lineComplete _ => true
  | .nztWrite _ _ => true
  | .nzuGo _ => true
  | .headMapWrite _ _ _ _ => true
  | .nwSetWrite _ _ _ _ => true
  | .tilStatRead _ => true
  | .portCfgWrite _ _ => true
  | .linkTrain _ => true
  | .linkDownCmd _ => true
  | .linkBlockLock _ => true
  | .linkTrainTimeout _ => true
  | .linkAutoRetrain _ => true
  | .statusRx _ x => x.wf
  | .statusTimeout _ => true
  | .linkLockLoss _ => true
  | .nakCorruptRx _ _ => true
  | .nakBlankedRx _ _ => true
  | .nakStrobeLostRx _ _ => true
  | .nakCfgCorruptRx _ _ => true
  | .unknownWordRx _ => true
  | .lineFrameSend _ => true
  | .pingPeriod _ => true
  | .timeSyncPeriod _ => true
  | .camConfigWrite _ _ => true
  | .cxDiscovery _ _ => true
  | .cxSyncLoss _ => true
  | .cxPacketRx _ _ _ => true
  | .cameraTrigger _ _ => true
  | .cameraDelayedTrigger _ => true
  | .areaTrigger _ _ _ => true
  | .camTrigPinEnd _ => true
  | .cameraLineRx _ px _ => px.length ≤ 65536 * 3
  | .cameraLineTimeout _ _ => true
  | .csiPacketRx _ _ _ _ _ _ px _ => px.length ≤ 65536 * 3
  | .csiFrameStart _ _ _ _ => true
  | .csiFrameEnd _ _ _ _ => true
  | .ispLine _ => true
  | .frameComplete _ => true
  | .camCtrlGo _ _ => true
  | .camCtrlDone _ _ _ => true
  | .camCtrlTimeout _ => true
  | .camSetCommit _ => true
  | .camSetItemAck _ _ _ => true
  | .camLatRead _ => true
  | .ispLoadRead => true
  | .zoneTask _ _ _ _ => true
  | .ladderTask _ _ _ _ => true
  | .chlJudge => true
  | .nhStripJudge => true
  | .calGo _ => true
  | .calAbort => true
  | .calComplete cols _ words tone _ _ => cols.all (·.length == 3) && words.length ≤ 8 && tone.length ≤ 3072
  | .calStale => true
  | .lsEnable _ _ => true
  | .lsConfigWrite _ _ _ => true
  | .lampPeriodStart _ _ => true
  | .lockPulseStart _ _ => true
  | .lampPulseEnd _ => true
  | .headroomSample vds _ _ => vds.length == 12
  | .lsOpen _ => true
  | .lsShort _ => true
  | .swcLimit _ => true
  | .swcOvp _ => true
  | .swcSoftRestart => true
  | .swcCfgWrite _ => true
  | .swUpdate _ => true
  | .chainFrameSend _ _ => true
  | .lbLevelWrite _ _ _ => true
  | .lbPoll _ _ _ => true
  | .lbBusStuck _ => true
  | .vidCfgWrite _ _ _ _ => true
  | .encSubmit ctus _ _ => !ctus.isEmpty
  | .encPictureDone => true
  | .encOutRdWrite _ _ => true
  | .decSubmit _ outs => outs.Nodup
  | .decPictureOut _ => true
  | .decRdWrite _ _ => true
  | .encAbort => true
  | .decAbort => true
  | .dpEnable _ _ => true
  | .dpHpdRise _ => true
  | .dpLinkDown _ _ => true
  | .dpAuxGo _ => true
  | .dpAuxDone _ d => d.length ≤ 16
  | .netFrameRx _ _ _ _ _ tout => tout.length == 3
  | .macAgeOut _ => true
  | .netLinkUp _ => true
  | .netLinkDown _ => true
  | .ptpMessageRx _ _ _ => true
  | .announceTimeout => true
  | .nsWrap => true
  | .tpoEdge _ => true
  | .tpoArm _ _ => true
  | .timRelock => true
  | .timAdjWrite _ _ => true
  | .timConfigWrite _ _ => true
  | .timeReadLatch _ => true
  | .hbSend => true
  | .hbRx _ _ _ fired => fired.length == 16
  | .hbSlotEnd _ _ => true
  | .copySnapshot _ _ _ => true
  | .copyImageRx m _ => m.all (·.wf)
  | .copyAckRx _ => true
  | .twinCopyStale => true
  | .joinImageRx m => m.nzt.all (·.1 < 1572864)
  | .twinLinkTrain => true
  | .twinHelloRx _ _ => true
  | .twinLaneLoss _ => true
  | .twinContention => true
  | .twinPullRelease => true
  | .twinSwitch _ _ => true
  | .switchRx _ => true
  | .twinRetrain => true
  | .twnConfigWrite _ _ => true
  | .twinStandbyAge => true
  | .twinMsgSend _ => true
  | .twinMsgRx _ d => d.length ≤ 4096
  | .bar0BadAccess => true
  | .bar2Access x n d => x.toNat + n.toNat ≤ 2 ^ 36 && d.all (·.length == n.toNat)
  | .hifWinWrite _ => true
  | .queueEnable _ _ => true
  | .queueDoorbell _ _ => true
  | .queueCiWrite _ _ => true
  | .descriptorFetch _ x => x.all (·.wf)
  | .nop _ => true
  | .copyIn _ _ _ => true
  | .copyOut _ _ _ => true
  | .fill _ _ => true
  | .fence _ => true
  | .jobLoad _ => true
  | .jobUnload _ => true
  | .descriptorComplete _ => true
  | .queueAbort _ => true
  | .interruptTimer _ => true
  | .msixUnmask _ => true
  | .pcieLinkDown => true
  | .pcieLinkUp _ _ => true
  | .pcieHotReset => true
  | .hifWdogWrite _ => true
  | .hifWdogKick => true
  | .hostLost => true
  | .evtRouteWrite _ _ => true
  | .mboxPing _ => true
  | .mboxFence _ => true
  | .mboxPermit _ => true
  | .trainRead _ => true
  | .calRead _ => true
  | .calPlace _ => true
  | .boardWrite _ => true
  | .imageWrite _ => true
  | .imageCommit _ => true
  | .logRead _ => true
  | .powerOnReset => true
  | .resetPin => true
  | .startColdCmd => true
  | .startWarmCmd => true
  | .coldStart x => x.wf
  | .warmStart x => x.wf
  | .bootReadyTimeout => true
  | .firmwareReady => true
  | .norReadWord => true
  | .norProgramWord => true
  | .norEraseSector => true
  | .housekeepingRound x => x.wf
  | .thermTrip => true
  | .mgmtWdogExpiry _ => true
  | .logPageWrite => true
  | .tdieRead => true
  | .brownout => true
  | .refClkLoss => true
  | .compatWrite _ => true
  | .registerWrite a _ => aligned a.toNat
  | .reservedOpcode _ _ => true
  | .gioInputChange _ _ => true
  | .tpulseEnd _ => true
  | .controlFrameSend _ => true
  | .ptpMessageSend _ _ => true
  | .twinLaneAlign _ => true
  | .csiLaneSync _ _ => true
  | .camOverloadEnd _ => true
  | .camSetItemTimeout _ => true
  | .lampGroupDark _ => true
  | .norWriteDone _ _ => true
  | .glbNorDone _ => true

end Sys2Proof
end

