-- ==== Sys2Proof/Certificates/Slice0/Obligations.lean ====
section
/-! DEFINITION. The statements for the provers. Each is about the machine, over all states and operands that meet its hypotheses. -/

section

open Sys2Proof Sys2Proof.Machine Sys2Proof.Safety

/-- O1. Results of the integer register instructions, and what they leave alone (R90). For every engine that issues and goes on (Runs: RUN, no waiting
DMA error, no halt at the boundary, breakpoint off, PC below 0xFFFC), each register instruction of OP 0x00 answers a next state with the result of
R90 in Gd (G0 reads 0 and is not written) and PC + 4; no other register, flag, accumulator or memory changes. SETF sets the four flags from Ga and
changes nothing else but the PC. -/
def Obligations.IntegerRegisterResults : Prop :=
  ∀ (s : State) (e : Eng) (rd ra rb n : Fin 32) (f : Fin 4), Runs s e →
    let a := s.g e ra
    let b := s.g e rb
    GResult s e rd (a + b) (exec (.add e rd ra rb) s) ∧
    GResult s e rd (a - b) (exec (.sub e rd ra rb) s) ∧
    GResult s e rd (a &&& b) (exec (.and e rd ra rb) s) ∧
    GResult s e rd (a ||| b) (exec (.or e rd ra rb) s) ∧
    GResult s e rd (a ^^^ b) (exec (.xor e rd ra rb) s) ∧
    GResult s e rd (a <<< (b.toNat % 32)) (exec (.sll e rd ra rb) s) ∧
    GResult s e rd (a >>> (b.toNat % 32)) (exec (.srl e rd ra rb) s) ∧
    GResult s e rd (a.sshiftRight (b.toNat % 32)) (exec (.sra e rd ra rb) s) ∧
    GResult s e rd (a * b) (exec (.mul e rd ra rb) s) ∧
    GResult s e rd (((a.signExtend 64 * b.signExtend 64) >>> 32).setWidth 32) (exec (.mulhs e rd ra rb) s) ∧
    GResult s e rd (((a.setWidth 64 * b.setWidth 64) >>> 32).setWidth 32) (exec (.mulhu e rd ra rb) s) ∧
    GResult s e rd (if a.toInt ≤ b.toInt then a else b) (exec (.min e rd ra rb) s) ∧
    GResult s e rd (if a.toInt ≤ b.toInt then b else a) (exec (.max e rd ra rb) s) ∧
    GResult s e rd (if a.toNat ≤ b.toNat then a else b) (exec (.minu e rd ra rb) s) ∧
    GResult s e rd (if a.toNat ≤ b.toNat then b else a) (exec (.maxu e rd ra rb) s) ∧
    GResult s e rd (if s.flag e f then a else b) (exec (.sel e f rd ra rb) s) ∧
    GResult s e rd (BitVec.ofNat 32 (if a = 0 then 32 else 31 - a.toNat.log2)) (exec (.clz e rd ra) s) ∧
    GResult s e rd (BitVec.ofNat 32 ((List.range 32).countP fun i => a.getLsbD i)) (exec (.popc e rd ra) s) ∧
    GResult s e rd (a <<< n.val) (exec (.slli e rd ra n) s) ∧
    GResult s e rd (a >>> n.val) (exec (.srli e rd ra n) s) ∧
    GResult s e rd (a.sshiftRight n.val) (exec (.srai e rd ra n) s) ∧
    GResult s e rd (BitVec.ofNat 32 (s.get ENG_FLAGS e % 16)) (exec (.getf e rd) s) ∧
    (∃ t, exec (.setf e ra) s = .next t ∧ (∀ k < 4, t.flag e k = a.getLsbD k) ∧ t.get ENG_PC e = s.get ENG_PC e + 4 ∧
      OnlyRegs [ENG_FLAGS.addr e, ENG_PC.addr e] s t)

/-- O2. Results of the integer immediate instructions (R91). For every engine that issues and goes on, ADDI adds the sign-extended IMM16, ANDI, ORI and
XORI combine with the zero-extended IMM16, LUI gives IMM16 shifted left by 16; the result stands in Gd, the PC moves on by 4, and nothing else
changes, no flag among it. -/
def Obligations.IntegerImmediateResults : Prop :=
  ∀ (s : State) (e : Eng) (rd ra : Fin 32) (imm : BitVec 16), Runs s e →
    GResult s e rd (s.g e ra + imm.signExtend 32) (exec (.addi e rd ra imm) s) ∧
    GResult s e rd (s.g e ra &&& imm.setWidth 32) (exec (.andi e rd ra imm) s) ∧
    GResult s e rd (s.g e ra ||| imm.setWidth 32) (exec (.ori e rd ra imm) s) ∧
    GResult s e rd (s.g e ra ^^^ imm.setWidth 32) (exec (.xori e rd ra imm) s) ∧
    GResult s e rd (imm.setWidth 32 <<< 16) (exec (.lui e rd imm) s)

/-- O3. CMP and CMPI write the target flag with their condition; COND 6 and 7 trap with ILLEGAL (R92). For every engine that issues and goes on, CMP
compares Ga with Gb and CMPI compares Ga with the sign-extended IMM16 under COND 0 to 5 (EQ, NE, LT, GE signed, LTU, GEU unsigned); the target flag
takes the result, every other flag stays, the PC moves on by 4, and nothing else changes. With COND 6 or 7 the engine traps with cause 1 (ILLEGAL)
at this PC with this word. PCMP (R95) does the same on two 64-bit position registers. -/
def Obligations.ComparesWriteOneFlag : Prop :=
  ∀ (s : State) (e : Eng) (c : Fin 8) (f : Fin 4) (ra rb : Fin 32) (pa pb : Fin 8) (imm : BitVec 16), Runs s e →
    (c.val < 6 →
      FlagResult s e f (condHolds c (s.g e ra) (s.g e rb)) (exec (.cmp e c f ra rb) s) ∧
      FlagResult s e f (condHolds c (s.g e ra) (imm.signExtend 32)) (exec (.cmpi e c f ra imm) s) ∧
      FlagResult s e f (condHolds c (s.pr e pa) (s.pr e pb)) (exec (.pcmp e c f pa pb) s)) ∧
    (6 ≤ c.val →
      TrapResult s e 1 (.cmp e c f ra rb) ∧ TrapResult s e 1 (.cmpi e c f ra imm) ∧ TrapResult s e 1 (.pcmp e c f pa pb))

/-- O4. Loads and stores of data memory: value, little-endian bytes, frame, and the two traps (R93, R84). For every engine that issues and goes on, at
the address a = Ga + sign-extended IMM16 (modulo 2^32, DESIGN CHOICE) in range and aligned: LD, LDH, LDB and PLD put the 32, 16, 8 or 64 bits at a
(little-endian, zero-extended) into Gd or Pd and change nothing else; ST, STH, STB and PST store the low 32, 16, 8 bits of Gd or Pd at a and change
no other byte of any data memory and nothing else. An address at or beyond the data memory size traps with cause 3 (DATA_RANGE), a misaligned one
below it with cause 4 (DATA_ALIGN). -/
def Obligations.LoadsAndStoresOfDataMemory : Prop :=
  ∀ (s : State) (e : Eng) (rd ra : Fin 32) (pd : Fin 8) (imm : BitVec 16), Runs s e →
    let a := (s.g e ra + imm.signExtend 32).toNat
    (DataOk e a 4 → GResult s e rd (BitVec.ofNat 32 (s.dld e a 4)) (exec (.ld e rd ra imm) s) ∧
      StoreResult s e a 4 (s.g e rd).toNat (exec (.st e rd ra imm) s)) ∧
    (DataOk e a 2 → GResult s e rd (BitVec.ofNat 32 (s.dld e a 2)) (exec (.ldh e rd ra imm) s) ∧
      StoreResult s e a 2 (s.g e rd).toNat (exec (.sth e rd ra imm) s)) ∧
    (DataOk e a 1 → GResult s e rd ((s.dmem e a).setWidth 32) (exec (.ldb e rd ra imm) s) ∧
      StoreResult s e a 1 (s.g e rd).toNat (exec (.stb e rd ra imm) s)) ∧
    (DataOk e a 8 → PResult s e pd (BitVec.ofNat 64 (s.dld e a 8)) (exec (.pld e pd ra imm) s) ∧
      StoreResult s e a 8 (s.pr e pd).toNat (exec (.pst e pd ra imm) s)) ∧
    (dataSize e ≤ a →
      TrapResult s e 3 (.ld e rd ra imm) ∧ TrapResult s e 3 (.ldh e rd ra imm) ∧ TrapResult s e 3 (.ldb e rd ra imm) ∧
      TrapResult s e 3 (.st e rd ra imm) ∧ TrapResult s e 3 (.sth e rd ra imm) ∧ TrapResult s e 3 (.stb e rd ra imm) ∧
      TrapResult s e 3 (.pld e pd ra imm) ∧ TrapResult s e 3 (.pst e pd ra imm)) ∧
    (a < dataSize e →
      (a % 4 ≠ 0 → TrapResult s e 4 (.ld e rd ra imm) ∧ TrapResult s e 4 (.st e rd ra imm)) ∧
      (a % 2 ≠ 0 → TrapResult s e 4 (.ldh e rd ra imm) ∧ TrapResult s e 4 (.sth e rd ra imm)) ∧
      (a % 8 ≠ 0 → TrapResult s e 4 (.pld e pd ra imm) ∧ TrapResult s e 4 (.pst e pd ra imm)))

/-- O5. Where BR, CALL, JR, DBNZ and HALT leave the program counter, and where they trap (R94). For every engine that issues and goes on: a taken BR, a
CALL, a JR to an aligned address in code memory and a DBNZ whose written value is not 0 pass control to their target when it lies in code memory;
CALL writes PC + 4 to G31, DBNZ writes Gd - 1; BR not taken and a DBNZ that writes 0 go on at PC + 4; nothing else changes. BR with COND 3 to 7
traps with ILLEGAL; a target below 0 or at or beyond 0x10000 traps with CODE_RANGE, a misaligned JR target in range with CODE_ALIGN. HALT leaves the
engine HALTED (state 1) with PC + 4. What R94 says of an instruction at 0xFFFC is another statement. -/
def Obligations.ControlTransfers : Prop :=
  ∀ (s : State) (e : Eng) (c : Fin 8) (f : Fin 4) (off : BitVec 21) (rd ra : Fin 32) (imm : BitVec 16), Runs s e →
    let pc := s.get ENG_PC e
    let z : Int := pc + 4 * off.toInt
    let y : Int := pc + 4 * imm.toInt
    let v := s.g e rd - 1
    let taken := c = 0 ∨ (c = 1 ∧ s.flag e f = true) ∨ (c = 2 ∧ s.flag e f = false)
    (c.val < 3 → taken → 0 ≤ z → z < 0x10000 → JumpResult s e z.toNat (exec (.br e c f off) s)) ∧
    (c.val < 3 → taken → (z < 0 ∨ 0x10000 ≤ z) → TrapResult s e 5 (.br e c f off)) ∧
    (c.val < 3 → ¬ taken → JumpResult s e (pc + 4) (exec (.br e c f off) s)) ∧
    (3 ≤ c.val → TrapResult s e 1 (.br e c f off)) ∧
    (0 ≤ z → z < 0x10000 → ∃ t, exec (.call e off) s = .next t ∧ t.g e 31 = BitVec.ofNat 32 (pc + 4) ∧ t.get ENG_PC e = z.toNat ∧
      OnlyRegs [ENG_G.addr e 31, ENG_PC.addr e] s t) ∧
    ((z < 0 ∨ 0x10000 ≤ z) → TrapResult s e 5 (.call e off)) ∧
    ((s.g e ra).toNat < 0x10000 → (s.g e ra).toNat % 4 = 0 → JumpResult s e (s.g e ra).toNat (exec (.jr e ra) s)) ∧
    (0x10000 ≤ (s.g e ra).toNat → TrapResult s e 5 (.jr e ra)) ∧
    ((s.g e ra).toNat < 0x10000 → (s.g e ra).toNat % 4 ≠ 0 → TrapResult s e 6 (.jr e ra)) ∧
    ((rd = 0 ∨ v = 0) → GResult s e rd v (exec (.dbnz e rd imm) s)) ∧
    (rd ≠ 0 → v ≠ 0 → 0 ≤ y → y < 0x10000 → ∃ t, exec (.dbnz e rd imm) s = .next t ∧ t.g e rd = v ∧ t.get ENG_PC e = y.toNat ∧
      OnlyRegs [ENG_G.addr e rd, ENG_PC.addr e] s t) ∧
    (rd ≠ 0 → v ≠ 0 → (y < 0 ∨ 0x10000 ≤ y) → TrapResult s e 5 (.dbnz e rd imm)) ∧
    (∃ t, exec (.halt e) s = .next t ∧ t.engState e = 1 ∧ t.get ENG_PC e = pc + 4)

/-- O6. Results of the 64-bit position arithmetic (R95). For every engine that issues and goes on, each PALU instruction of R95 puts its result, modulo
2^64, into Pd (PGETL and PGETH the low and high half of Pa into Gd, PCMP its condition on the 64-bit values into the target flag) and changes
nothing else but the PC. -/
def Obligations.PositionArithmeticResults : Prop :=
  ∀ (s : State) (e : Eng) (pd pa pb c : Fin 8) (f : Fin 4) (rd ra rb n : Fin 32), Runs s e →
    PResult s e pd (s.pr e pa + s.pr e pb) (exec (.padd e pd pa pb) s) ∧
    PResult s e pd (s.pr e pa - s.pr e pb) (exec (.psub e pd pa pb) s) ∧
    PResult s e pd (s.pr e pa + (s.g e rb).signExtend 64) (exec (.paddg e pd pa rb) s) ∧
    PResult s e pd (s.pr e pd + BitVec.ofInt 64 ((s.g e ra).toInt * (s.g e rb).toInt)) (exec (.pmac e pd ra rb) s) ∧
    PResult s e pd ((s.g e ra).signExtend 64) (exec (.psetg e pd ra) s) ∧
    PResult s e pd ((s.g e ra).setWidth 64) (exec (.psetgu e pd ra) s) ∧
    GResult s e rd ((s.pr e pa).extractLsb' 0 32) (exec (.pgetl e rd pa) s) ∧
    GResult s e rd ((s.pr e pa).extractLsb' 32 32) (exec (.pgeth e rd pa) s) ∧
    PResult s e pd (s.pr e pa) (exec (.pmov e pd pa) s) ∧
    PResult s e pd (s.g e ra ++ (s.pr e pd).extractLsb' 0 32) (exec (.pseth e pd ra) s) ∧
    PResult s e pd (s.pr e pa <<< n.val) (exec (.pslli e pd pa n) s) ∧
    PResult s e pd ((s.pr e pa).sshiftRight n.val) (exec (.psrai e pd pa n) s) ∧
    (c.val < 6 → FlagResult s e f (condHolds c (s.pr e pa) (s.pr e pb)) (exec (.pcmp e c f pa pb) s)) ∧
    (6 ≤ c.val → TrapResult s e 1 (.pcmp e c f pa pb))

/-- O7. IORD and PRD give live values of the press (R96, R97, R81). For every engine that issues and goes on: IORD at an aligned address a = Ga + IMM16
below 0x4000000 puts what a read of that register by this engine returns (through the engine's own latch, R81) into Gd, the state being the one that
read leaves, and an address at or above 0x4000000 or misaligned traps with IO_RANGE; PRD with a MODE and UNIT of R97's table puts the value named
there into Pd and changes nothing else, and any other pair traps with ILLEGAL. -/
def Obligations.ReadsOfPressState : Prop :=
  ∀ (s : State) (e : Eng) (rd ra : Fin 32) (imm : BitVec 16) (pd : Fin 8) (unit : Fin 32) (mode : Fin 16), Runs s e →
    let a := (s.g e ra + imm.signExtend 32).toNat
    (a < 0x4000000 → a % 4 = 0 →
      exec (.iord e rd ra imm) s = .next (((s.readReg (1 + e) a).2.setG e rd (s.readReg (1 + e) a).1).complete e (s.get ENG_PC e + 4))) ∧
    (0x4000000 ≤ a ∨ a % 4 ≠ 0 → TrapResult s e 8 (.iord e rd ra imm)) ∧
    (unit.val < 4 →
      PResult s e pd (BitVec.ofInt 64 (s.pos unit)) (exec (.prd e pd unit 0) s) ∧
      PResult s e pd (BitVec.ofInt 64 (s.geti GEK_TRK_SPEED unit)) (exec (.prd e pd unit 3) s) ∧
      ((s.tk unit).edges = [] → PResult s e pd (BitVec.ofInt 64 (-(2 ^ 63))) (exec (.prd e pd unit 4) s)) ∧
      (∀ n z l, (s.tk unit).edges = (n, z) :: l → PResult s e pd (BitVec.ofInt 64 z) (exec (.prd e pd unit 4) s))) ∧
    (16 ≤ unit.val →
      PResult s e pd (BitVec.ofInt 64 (s.pos (s.get GEK_LC_CTL_TRK (unit - 16 : Nat)) - s.lcOffset (unit - 16 : Nat))) (exec (.prd e pd unit 0) s) ∧
      PResult s e pd (BitVec.ofInt 64 (s.line (unit - 16 : Nat))) (exec (.prd e pd unit 1) s) ∧
      PResult s e pd (BitVec.ofInt 64 (s.geti64 GEK_LC_HWM_LO (unit - 16 : Nat))) (exec (.prd e pd unit 6) s)) ∧
    (unit.val < 8 → PResult s e pd (BitVec.ofInt 64 (s.geti64 GEK_MK_LATCH_LO unit)) (exec (.prd e pd unit 2) s)) ∧
    PResult s e pd (BitVec.ofNat 64 (s.get TIM_NS)) (exec (.prd e pd 0 5) s) ∧
    PResult s e pd (BitVec.ofNat 64 (s.engCycles e)) (exec (.prd e pd 1 5) s) ∧
    (6 < mode.val → TrapResult s e 1 (.prd e pd unit mode)) ∧
    (unit.val < 16 → TrapResult s e 1 (.prd e pd unit 1) ∧ TrapResult s e 1 (.prd e pd unit 6)) ∧
    (4 ≤ unit.val → TrapResult s e 1 (.prd e pd unit 3) ∧ TrapResult s e 1 (.prd e pd unit 4)) ∧
    (4 ≤ unit.val → unit.val < 16 → TrapResult s e 1 (.prd e pd unit 0)) ∧
    (8 ≤ unit.val → TrapResult s e 1 (.prd e pd unit 2)) ∧
    (2 ≤ unit.val → TrapResult s e 1 (.prd e pd unit 5))

/-- O8. WAITPOS, WAITEVT and WAITT: end at once or stop issue; how a wait ends (R98, R99, R100, R101, R102). For every engine that issues and goes on: a
WAITPOS on a tracker whose source has reached its target (signed, either direction) ends at once with F3 = 0, one whose source has not puts the
engine into WAIT with WAIT_KIND 1 and PC at the WAITPOS; a WAITEVT whose latch is set clears it, writes F2 (whether the source occurred again) and
F3 = 0 and goes on, one whose latch is clear waits with WAIT_KIND 2; a WAITT of 0 us goes on, another waits with WAIT_KIND 3 for min(Ga + IMM16,
2^32 - 1). In WAIT: the met condition of a WAITPOS ends the wait with F3 = 0, of a WAITEVT with F2, F3 = 0 and the latch cleared; the timeout of a
WAITPOS whose condition has not held ends it with F3 = 1; the time of a WAITT ends it. -/
def Obligations.WaitsEndOrStopIssue : Prop :=
  (∀ (s : State) (e : Eng) (pa : Fin 8) (k : Fin 4) (ra : Fin 32) (b : Fin 16) (tmo le : Bool) (imm : BitVec 16), Runs s e →
    let unit : Fin 32 := ⟨k.val, by omega⟩
    let tgt := (s.pr e pa).toInt
    let u : UWait := ⟨1, k, 0, tgt, false, le, tmo, 0⟩
    let us := min ((s.g e ra).toNat + imm.toNat) (2 ^ 32 - 1)
    ((if le then s.pos k ≤ tgt else tgt ≤ s.pos k) → FlagResult s e 3 false (exec (.waitpos e pa unit false tmo le) s)) ∧
    (¬ (if le then s.pos k ≤ tgt else tgt ≤ s.pos k) → WaitResult s e u (exec (.waitpos e pa unit false tmo le) s)) ∧
    (s.latched? e (8 + b) = true → exec (.waitevt e 1 (BitVec.ofNat 12 b) false tmo) s = .next ((s.takeLatch e (8 + b)).complete e (s.get ENG_PC e + 4)) ∧
      (s.takeLatch e (8 + b)).latched? e (8 + b) = false ∧ (s.takeLatch e (8 + b)).flag e 3 = false ∧
      (s.takeLatch e (8 + b)).flag e 2 = bitN (smGet (fun _ => 0) s.latchMore e) (8 + b)) ∧
    (s.latched? e (8 + b) = false → WaitResult s e ⟨2, 1, 8 + b, 0, false, false, tmo, 0⟩ (exec (.waitevt e 1 (BitVec.ofNat 12 b) false tmo) s)) ∧
    (us = 0 → JumpResult s e (s.get ENG_PC e + 4) (exec (.waitt e ra imm) s)) ∧
    (us ≠ 0 → WaitResult s e ⟨3, 0, 0, us, false, false, false, 0⟩ (exec (.waitt e ra imm) s))) ∧
  (∀ (s : State) (e : Eng) (w : UWait), (s.ex e).wait = some w →
    (w.kind = 1 → posMet s w = true → exec (.waitConditionMet e) s = .next ((s.setFlag e 3 false).endWait e)) ∧
    (w.kind = 2 → s.latched? e w.imm = true → exec (.waitConditionMet e) s = .next ((s.takeLatch e w.imm).endWait e)) ∧
    (w.kind = 1 → w.tmo = true → s.get ENG_WAIT_TMO e ≠ 0 → posMet s w = false →
      exec (.waitTimeout e) s = .next ((s.setFlag e 3 true).endWait e)) ∧
    (w.kind = 2 → w.tmo = true → s.get ENG_WAIT_TMO e ≠ 0 → s.latched? e w.imm = false →
      exec (.waitTimeout e) s = .next (((s.setFlag e 2 false).setFlag e 3 true).endWait e)) ∧
    (w.kind = 3 → exec (.waittExpiry e) s = .next (s.endWait e)))

/-- O9. EMIT of each kind, and the ends of GIO and TPO pulses (R104, R140, R142). For every engine that issues and goes on, a sequencer outside SHADOW
on a pin that GIO_DIR makes an output: GIO_LOW, GIO_HIGH, GIO_TOGGLE and GIO_PULSE (width not 0) make the pin's logical level 0, 1, the other level,
1 and leave every other level, register and unit alone; a pulse's end makes the level 0. TRIG sets latch 40 + t in all 28 engines. TPULSE of width
not 0 on a TPO whose source is the sequencers counts a pulse and marks it in progress until its end. HOSTEVT of any engine raises SEQ_USER with code
and payload. -/
def Obligations.EmitsDriveOutputsAndTriggers : Prop :=
  (∀ (s : State) (e : Eng) (ra n : Fin 32), Runs s e → e.val < 16 → s.mode ≠ 5 → bitN (s.get SEQ_GIO_DIR) n = true →
    GioResult s e n false false (exec (.emitGioLow e (BitVec.ofNat 12 n)) s) ∧
    GioResult s e n true false (exec (.emitGioHigh e (BitVec.ofNat 12 n)) s) ∧
    GioResult s e n (!(bitN (s.get SEQ_GIO_OUT) n)) false (exec (.emitGioToggle e (BitVec.ofNat 12 n)) s) ∧
    (s.g e ra ≠ 0 → GioResult s e n true true (exec (.emitGioPulse e ra (BitVec.ofNat 12 n)) s))) ∧
  (∀ (s : State) (n : Fin 32), smGet (fun _ => false) s.gioPulse n = true → ∃ t, exec (.gioPulseEnd n) s = .next t ∧
    (∀ k < 32, bitN (t.get SEQ_GIO_OUT) k = (decide (k ≠ n.val) && bitN (s.get SEQ_GIO_OUT) k)) ∧ smGet (fun _ => false) t.gioPulse n = false) ∧
  (∀ (s : State) (e : Eng) (n : Fin 16), Runs s e → ∃ t, exec (.emitTrig e (BitVec.ofNat 12 n)) s = .next t ∧
    (∀ e' : Eng, t.latched? e' (40 + n) = true) ∧ t.get ENG_PC e = s.get ENG_PC e + 4 ∧
    t.startTrig = (s.startTrig || (s.on GLB_PRINT_TRIG_EN && s.get GLB_PRINT_TRIG_TRIG == n.val && s.mode == 2 && decide (e.val < 16)))) ∧
  (∀ (s : State) (e : Eng) (ra : Fin 32) (n : Fin 8), Runs s e → e.val < 16 → s.mode ≠ 5 → s.get TPO_CFG_SRC n = 2 → s.g e ra ≠ 0 →
    ∃ t, exec (.emitTpulse e ra (BitVec.ofNat 12 n)) s = .next t ∧ t.get TPO_STAT_PULSES n = (s.get TPO_STAT_PULSES n + 1) % 2 ^ TPO_STAT_PULSES.width ∧
      smGet (fun _ => false) t.tpPulse n = true ∧ t.get ENG_PC e = s.get ENG_PC e + 4) ∧
  (∀ (s : State) (n : Fin 8), ∃ t, exec (.tpulseEnd n) s = .next t ∧ smGet (fun _ => false) t.tpPulse n = false ∧ t = { s with tpPulse := t.tpPulse }) ∧
  (∀ (s : State) (e : Eng) (ra : Fin 32) (c : BitVec 12), Runs s e →
    exec (.emitHostevt e ra c) s =
      .next ((s.raise EV_SEQ_USER (engUnit e) [c.toNat, (s.g e ra).toNat]).set ENG_PC (s.get ENG_PC e + 4) e))

/-- O10. FIRE STROBE fires line LINE - 1 once on every port that has sent it; FIRE TICKLE sends its pattern code (R105, R109, R262, R274). For every
sequencer that issues and goes on and is bound to a bar that is in PRINT, not stopped by a fence, not recovering from a trap, and not at the end of
its job: a STROBE of a line that has not fired records LINE - 1 as fired, counts the strobe, and gives every port of the bar that has sent that line
both STROBE copies; the one register that changes is the PC. A second STROBE of the same line is counted in FIRE_DUP (saturating). TICKLE sends the
TICKLE word with Ga[7:0] on every port of the bar whose link is UP. -/
def Obligations.FireStrobesAndTickles : Prop :=
  ∀ (s : State) (e : Eng) (ra : Fin 32) (b : Fin 16), Runs s e → e.val < 16 → s.boundTo b = some e.val → s.barMode b = 3 →
    s.stopped b = false → (s.hb b).trapAt = none →
    let unit : Fin 32 := ⟨b.val, by omega⟩
    let x := s.line b - 1
    ((s.hb b).fired ≠ some x → (s.cp b).endLine ≠ some (s.line b) →
      ∃ t, exec (.fireStrobe e unit) s = .next t ∧ (t.hb b).fired = some x ∧ (t.hb b).strobes = (s.hb b).strobes + 1 ∧
        t.get ENG_PC e = s.get ENG_PC e + 4 ∧ (∀ a, a ≠ ENG_PC.addr e → t.rd a = s.rd a) ∧
        ∀ p ∈ s.portsOf b, (∃ l ∈ (s.hp p).sent, l.line = x) → s.stopped (portUnit p) = false →
          (t.hp p).out = [strobeWord x (ux 16 (strobeDelay s b p)) false false, strobeWord x (ux 16 (strobeDelay s b p - 16)) false true]) ∧
    ((s.hb b).fired = some x →
      ∃ t, exec (.fireStrobe e unit) s = .next t ∧ t.get ENG_CNT_FIRE_DUP e = min (s.get ENG_CNT_FIRE_DUP e + 1) 65535 ∧
        t.get ENG_PC e = s.get ENG_PC e + 4 ∧ (t.hb b).fired = some x) ∧
    (∃ t, exec (.fireTickle e ra unit) s = .next t ∧ t.get ENG_PC e = s.get ENG_PC e + 4 ∧
      ∀ p ∈ s.portsOf b, s.linkUp p = true → s.stopped (portUnit p) = false → (t.hp p).out = [tickleWord (s.g e ra).toNat])

/-- O11. LINE RELEASE, RELEASE_REL, LADDER and BLANK raise the bar's release mark and change nothing else but the PC (R106, R109, R132). For every
sequencer that issues and goes on and is bound to a bar in READY, PRINT or SERVICE, each LINE instruction makes the release mark the greater of
itself and the line it names (Ga taken as bits 31:0 of a line number within 2^31 of LINE, or LINE plus Ga signed); LADDER and BLANK note their
substitution for the lines up to Ga whose send deadline has not passed; no register but the PC changes, and no other bar's record. -/
def Obligations.ReleaseMarksNeverFall : Prop :=
  ∀ (s : State) (e : Eng) (ra : Fin 32) (b : Fin 16) (imm : BitVec 12), Runs s e → e.val < 16 → s.boundTo b = some e.val →
    (s.barMode b = 2 ∨ s.barMode b = 3 ∨ s.barMode b = 6) →
    let unit : Fin 32 := ⟨b.val, by omega⟩
    let x := s.line b + sx 32 (ux 32 (((s.g e ra).toNat : Int) - s.line b))
    let l := (s.hb b).subs.filter fun y => decide (s.line b ≤ y.2.1)
    LineResult s e b x l (exec (.lineRelease e ra unit) s) ∧
    LineResult s e b (s.line b + (s.g e ra).toInt) l (exec (.lineReleaseRel e ra unit) s) ∧
    LineResult s e b x (if imm.toNat % 256 = 0 then l else (s.line b + 16, x, imm.toNat % 256, imm.toNat / 256 % 8) :: l)
      (exec (.lineLadder e ra unit imm) s) ∧
    LineResult s e b x ((s.line b + 16, x, 0, 0) :: l) (exec (.lineBlank e ra unit) s)

/-- O12. SEND queues its payload on the port named; SHEAF waits for the composer's answer; the answer writes F3 (R107, R108). For every sequencer that
issues and goes on and is bound to the bar of an enabled port: SEND of a payload of 1 to 64 words in range appends one block to that port's control
queue when it has room, and the PC moves on; SHEAF puts the engine into WAIT with WAIT_KIND 6. The composer's answer writes F3 = 1 for every status
but ACCEPTED, counts it as accepted or refused, and ends the wait. A port engine with a control block that it may send sends the first one. -/
def Obligations.ControlBlocksAndSheafSubmission : Prop :=
  (∀ (s : State) (e : Eng) (ra : Fin 32) (p : Port), Runs s e → e.val < 16 → s.on HPL_PORT_CFG_EN p = true →
    s.boundTo (s.get HPL_PORT_CFG_BAR p) = some e.val → s.barMode (s.get HPL_PORT_CFG_BAR p) ≠ 5 → (s.hp p).ctl.length < 8 →
    let a := (s.g e ra).toNat
    let n := s.dld e a 4
    a % 8 = 0 → 0 < n → n ≤ 64 → a + 8 + 8 * n ≤ dataSize e →
    let d := (List.range n).map fun i => BitVec.ofNat 64 (s.dld e (a + 8 + 8 * i) 8)
    (∃ t, exec (.sendConfig e ra (BitVec.ofNat 12 p)) s = .next t ∧ (t.hp p).ctl = (s.hp p).ctl ++ [(2, d)] ∧ t.get ENG_PC e = s.get ENG_PC e + 4 ∧
      (∀ a, a ≠ ENG_PC.addr e → t.rd a = s.rd a) ∧ ∀ q : Port, q ≠ p → t.hp q = s.hp q) ∧
    (∃ t, exec (.sendSync e ra (BitVec.ofNat 12 p)) s = .next t ∧ (t.hp p).ctl = (s.hp p).ctl ++ [(3, d)] ∧ t.get ENG_PC e = s.get ENG_PC e + 4 ∧
      (∀ a, a ≠ ENG_PC.addr e → t.rd a = s.rd a) ∧ ∀ q : Port, q ≠ p → t.hp q = s.hp q)) ∧
  (∀ (s : State) (e : Eng) (ra : Fin 32) (imm : BitVec 12), Runs s e → e.val < 16 →
    WaitResult s e ⟨6, 0, imm.toNat, (s.g e ra).toNat, false, false, false, 0⟩ (exec (.sheaf e ra imm) s)) ∧
  (∀ (s : State) (e : Eng) (w : UWait), (s.ex e).wait = some w → w.kind = 6 →
    let a := s.get64 ENG_SHEAF_TBL_LO e + 8 * w.imm
    let r := (s.saw a 8).submit (s.ldN a 8) 1 (some w.tgt.toNat)
    (r.2 = 0 → exec (.sheafAnswer e) s = .next (((r.1.addSat ENG_SHEAF_CNT_ACCEPTED 1 e).setFlag e 3 false).endWait e)) ∧
    (r.2 ≠ 0 → exec (.sheafAnswer e) s =
      .next ((((r.1.addSat ENG_SHEAF_CNT_REFUSED 1 e).raise EV_SHEAF_REFUSED (engUnit e) [r.2]).setFlag e 3 true).endWait e))) ∧
  (∀ (s : State) (p : Port), exec (.controlFrameSend p) s = .next ((s.sendControl p).each (List.range 16) fun e s => s.retrySend e))

/-- O13. Lane results of the VALU instructions (R110). For every pixel engine that issues and goes on, each VALU instruction writes to the sixteen lanes
of Vd the function that R110 gives of the lanes of Va and Vb, and changes nothing else but the PC. -/
def Obligations.VectorLaneResults : Prop :=
  ∀ (s : State) (e : Eng) (vd va vb : Fin 32) (k : Fin 16), Runs s e → 16 ≤ e.val →
    let L := fun (f : BitVec 16 → BitVec 16 → BitVec 16) => List.zipWith f (s.vr e va) (s.vr e vb)
    let sat := fun (lo hi z : Int) => BitVec.ofInt 16 (max lo (min hi z))
    VResult s e vd (L fun a b => a + b) (exec (.vadd e vd va vb) s) ∧
    VResult s e vd (L fun a b => a - b) (exec (.vsub e vd va vb) s) ∧
    VResult s e vd (L fun a b => sat (-32768) 32767 (a.toInt + b.toInt)) (exec (.vadds e vd va vb) s) ∧
    VResult s e vd (L fun a b => sat (-32768) 32767 (a.toInt - b.toInt)) (exec (.vsubs e vd va vb) s) ∧
    VResult s e vd (L fun a b => sat 0 65535 ((a.toNat : Int) + b.toNat)) (exec (.vaddus e vd va vb) s) ∧
    VResult s e vd (L fun a b => sat 0 65535 ((a.toNat : Int) - b.toNat)) (exec (.vsubus e vd va vb) s) ∧
    VResult s e vd (L fun a b => if a.toInt ≤ b.toInt then a else b) (exec (.vmin e vd va vb) s) ∧
    VResult s e vd (L fun a b => if a.toInt ≤ b.toInt then b else a) (exec (.vmax e vd va vb) s) ∧
    VResult s e vd (L fun a b => if a.toNat ≤ b.toNat then a else b) (exec (.vminu e vd va vb) s) ∧
    VResult s e vd (L fun a b => if a.toNat ≤ b.toNat then b else a) (exec (.vmaxu e vd va vb) s) ∧
    VResult s e vd (L fun a b => BitVec.ofNat 16 ((a.toNat : Int) - b.toNat).natAbs) (exec (.vabsd e vd va vb) s) ∧
    VResult s e vd (L fun a b => a &&& b) (exec (.vand e vd va vb) s) ∧
    VResult s e vd (L fun a b => a ||| b) (exec (.vor e vd va vb) s) ∧
    VResult s e vd (L fun a b => a ^^^ b) (exec (.vxor e vd va vb) s) ∧
    VResult s e vd (L fun a b => BitVec.ofInt 16 (a.toInt * b.toInt)) (exec (.vmull e vd va vb) s) ∧
    VResult s e vd (L fun a b => BitVec.ofInt 16 (a.toInt * b.toInt / 65536)) (exec (.vmulhs e vd va vb) s) ∧
    VResult s e vd (L fun a b => sat (-32768) 32767 ((a.toInt * b.toInt + 0x4000) / 32768)) (exec (.vmulq e vd va vb) s) ∧
    VResult s e vd (L fun a b => a <<< (b.toNat % 16)) (exec (.vshl e vd va vb) s) ∧
    VResult s e vd (L fun a b => a >>> (b.toNat % 16)) (exec (.vshr e vd va vb) s) ∧
    VResult s e vd (L fun a b => a.sshiftRight (b.toNat % 16)) (exec (.vsra e vd va vb) s) ∧
    VResult s e vd (L fun a b => BitVec.ofNat 16 ((a.toNat + b.toNat + 1) / 2)) (exec (.vavgu e vd va vb) s) ∧
    VResult s e vd ((List.range 16).map fun i => (s.vr e va ++ s.vr e vb).getD (i + k.val) 0) (exec (.vslide e vd va vb k) s) ∧
    VResult s e vd ((List.range 16).map fun i => (s.vr e va).getD (((s.vr e vb).getD i 0).toNat % 16) 0) (exec (.vperm e vd va vb) s)

/-- O14. Vector multiply-accumulate, compare, select, reduction, moves, loads and stores (R111, R93, R84). For every pixel engine that issues and goes
on, VMAC, VMACQ, VCMP (COND 0 to 5), VSEL, VRED, VBCAST, VINS, VEXT, VEXTU and VMOVV give what R111 says, and VLD, VLDB, VST and VSTB at an aligned
address in range load the lanes, or store them so that the lanes (saturated to 0..255, taken as signed, for VSTB) stand at the address,
little-endian, and no other byte of data memory and nothing else but the PC changes. That lanes of VSTB are signed is the model's reading (DEDUCED). -/
def Obligations.VectorReductionsMovesAndMemory : Prop :=
  ∀ (s : State) (e : Eng) (c : Fin 8) (vd va vb rd ra rb m : Fin 32) (imm : BitVec 16), Runs s e → 16 ≤ e.val →
    let A := s.vr e va
    let a := (s.g e ra + imm.signExtend 32).toNat
    let sat := fun (lo hi z : Int) => BitVec.ofInt 16 (max lo (min hi z))
    VResult s e vd (List.zipWith (fun d p => d + p) (s.vr e vd) (List.zipWith (fun a b => a * b) A (s.vr e vb))) (exec (.vmac e vd va vb) s) ∧
    VResult s e vd (List.zipWith (fun d q => sat (-32768) 32767 (d.toInt + q)) (s.vr e vd)
      (List.zipWith (fun a b => (a.toInt * b.toInt + 0x4000) / 32768) A (s.vr e vb))) (exec (.vmacq e vd va vb) s) ∧
    (c.val < 6 → ∃ v : Word, GResult s e rd v (exec (.vcmp e c rd va vb) s) ∧
      ∀ i < 32, v.getLsbD i = (decide (i < 16) && condHolds c (A.getD i 0) ((s.vr e vb).getD i 0))) ∧
    (6 ≤ c.val → TrapResult s e 1 (.vcmp e c rd va vb)) ∧
    VResult s e vd ((List.range 16).map fun i => if (s.g e m).getLsbD i then A.getD i 0 else (s.vr e vb).getD i 0) (exec (.vsel e vd va vb m) s) ∧
    GResult s e rd (BitVec.ofInt 32 (A.map fun x => x.toInt).sum) (exec (.vred e 0 rd va) s) ∧
    GResult s e rd (BitVec.ofNat 32 (A.map fun x => x.toNat).sum) (exec (.vred e 1 rd va) s) ∧
    GResult s e rd (BitVec.ofNat 32 (min (2 ^ 32 - 1) (A.map fun x => x.toInt.natAbs ^ 2).sum)) (exec (.vred e 2 rd va) s) ∧
    (∃ x ∈ A, (∀ y ∈ A, y.toInt ≤ x.toInt) ∧ GResult s e rd (x.signExtend 32) (exec (.vred e 3 rd va) s)) ∧
    (∃ x ∈ A, (∀ y ∈ A, x.toInt ≤ y.toInt) ∧ GResult s e rd (x.signExtend 32) (exec (.vred e 4 rd va) s)) ∧
    (∃ x ∈ A, (∀ y ∈ A, y.toNat ≤ x.toNat) ∧ GResult s e rd (x.setWidth 32) (exec (.vred e 5 rd va) s)) ∧
    (∃ x ∈ A, (∀ y ∈ A, x.toNat ≤ y.toNat) ∧ GResult s e rd (x.setWidth 32) (exec (.vred e 6 rd va) s)) ∧
    VResult s e vd (List.replicate 16 ((s.g e ra).setWidth 16)) (exec (.vbcast e vd ra) s) ∧
    VResult s e vd ((s.vr e vd).set (rb.val % 16) ((s.g e ra).setWidth 16)) (exec (.vins e vd ra rb) s) ∧
    GResult s e rd ((A.getD (rb.val % 16) 0).signExtend 32) (exec (.vext e rd va rb) s) ∧
    GResult s e rd ((A.getD (rb.val % 16) 0).setWidth 32) (exec (.vextu e rd va rb) s) ∧
    VResult s e vd A (exec (.vmovv e vd va) s) ∧
    (DataOk e a 32 →
      VResult s e vd ((List.range 16).map fun i => BitVec.ofNat 16 (s.dld e (a + 2 * i) 2)) (exec (.vld e vd ra imm) s) ∧
      BytesResult s e a 32 (fun i => (((s.vr e vd).getD (i / 2) 0) >>> (8 * (i % 2))).setWidth 8) (exec (.vst e vd ra imm) s)) ∧
    (DataOk e a 16 →
      VResult s e vd ((List.range 16).map fun i => (s.dmem e (a + i)).setWidth 16) (exec (.vldb e vd ra imm) s) ∧
      BytesResult s e a 16 (fun i => BitVec.ofInt 8 (max 0 (min 255 ((s.vr e vd).getD i 0).toInt))) (exec (.vstb e vd ra imm) s))

/-- O15. DMA joins the engine's outstanding copies, DMAWAIT counts them, a completed copy leaves (R112, R113). For every pixel engine that issues and
goes on, a DMA whose address, data-memory address and length are multiples of 32 in range and whose length is not 0 joins at the end of the engine's
outstanding DMAs when fewer than four are, and nothing else but the PC changes; DMAWAIT goes on when at most IMM16[2:0] are outstanding and else
waits with WAIT_KIND 4; rule breaks trap with DATA_RANGE or DATA_ALIGN. When the oldest DMA is done it has copied its parts in order and leaves the
list; an engine that waits on no DMAWAIT goes on waiting or running as before. -/
def Obligations.DmaQueuesAndCompletesInOrder : Prop :=
  (∀ (s : State) (e : Eng) (pd : Fin 8) (ra rb : Fin 32) (imm : BitVec 16), Runs s e → 16 ≤ e.val →
    let a := (s.pr e pd).toNat
    let m := (s.g e ra).toNat
    let n := (s.g e rb).toNat
    (m + n ≤ 262144 → a % 32 = 0 → m % 32 = 0 → n % 32 = 0 → 0 < n → (s.ex e).dmas.length < 4 →
      exec (.dmaRead e pd ra rb) s = .next ((s.setEx e { s.ex e with dmas := (s.ex e).dmas ++ [⟨a, m, n, false⟩] }).set ENG_PC (s.get ENG_PC e + 4) e) ∧
      exec (.dmaWrite e pd ra rb) s = .next ((s.setEx e { s.ex e with dmas := (s.ex e).dmas ++ [⟨a, m, n, true⟩] }).set ENG_PC (s.get ENG_PC e + 4) e)) ∧
    (262144 < m + n → TrapResult s e 3 (.dmaRead e pd ra rb) ∧ TrapResult s e 3 (.dmaWrite e pd ra rb)) ∧
    (m + n ≤ 262144 → (a % 32 ≠ 0 ∨ m % 32 ≠ 0 ∨ n % 32 ≠ 0) → TrapResult s e 4 (.dmaRead e pd ra rb) ∧ TrapResult s e 4 (.dmaWrite e pd ra rb)) ∧
    ((s.ex e).dmas.length ≤ imm.toNat % 8 → JumpResult s e (s.get ENG_PC e + 4) (exec (.dmawait e imm) s)) ∧
    (imm.toNat % 8 < (s.ex e).dmas.length → WaitResult s e ⟨4, 0, imm.toNat % 8, 0, false, false, false, 0⟩ (exec (.dmawait e imm) s))) ∧
  (∀ (s : State) (e : Eng) (d : Dma) (r : List Dma), (s.ex e).dmas = d :: r → (s.ex e).wait = none →
    let c := dmaParts e d (d.len / 32) s
    exec (.dmaDone e) s = .next (c.1.setEx e { c.1.ex e with dmas := r, dmaErr := (c.1.ex e).dmaErr || c.2 }))

/-- O16. A step takes the command at the front of the queue; an empty queue idles for one SEQ cycle (01_architecture.md, 16_host.md). For every command
c and state s, the step of s with c at the front of its queue is exec of c on s with the queue's rest, whatever the answer is. On an empty queue the
step passes one SEQ cycle; that is the model's choice (DESIGN CHOICE, assumption log 8), not a rule of the spec. -/
def Obligations.StepTakesTheFrontCommand : Prop :=
  ∀ (c : Instr) (r : List Instr) (s : State),
    step { s with pending := c :: r } = exec c { s with pending := r } ∧
    step { s with pending := [] } = .next (({ s with pending := [] } : State).elapse 1)

/-- O17. No command's effect touches the commands that wait: they are taken first in, first out (01_architecture.md, 16_host.md). For every command and
state, when exec answers a next state, the queue of waiting commands there is the queue it was given. So after a step with c at the front of a queue
the rest waits unchanged, and after a step on an empty queue nothing waits: commands are taken in the order in which they were queued, and none is
lost, added or moved. The queue is the model's own (the block takes commands from outside). -/
def Obligations.EveryStepKeepsTheQueueOfCommands : Prop :=
  (∀ (c : Instr) (s t : State), exec c s = .next t → t.pending = s.pending) ∧
  (∀ (c : Instr) (r : List Instr) (s t : State), s.pending = c :: r → step s = .next t → t.pending = r) ∧
  (∀ s t : State, s.pending = [] → step s = .next t → t.pending = [])

/-- O18. Decode and encode agree: the word of every engine instruction runs as the instruction it encodes (R82, R89, R90, R91, R92, R93, R94, R95, R96,
R97, R116). For every instruction command of the Ulran engines, at every value of every operand, the word that instrWord gives it (written from the
encodings of R82 to R113) is decoded, when an engine meets it, to that same instruction: what the engine does with the word is what the command
does. A word that no instruction has traps with ILLEGAL (R116), so no word of an instruction is taken for a reserved one. -/
def Obligations.InstructionWordsAgreeWithTheirCommands : Prop :=
  ∀ (i : Instr) (e : Eng) (w : Word), instrWord i = some (e, w) → ∀ s : State, exec (.reservedOpcode e w) s = exec i s

/-- O19. Host mode requests that are refused: BUSY, BAD_MODE, REFUSED; the mode does not change (R27, R29, R30). With no start trigger waiting: while a
transition is pending every host request completes BUSY (3); with none pending, a request without a row of R27 from the current mode completes
BAD_MODE (2), a request for SAFE always; a request whose row exists but whose condition is not met completes REFUSED (5) with MODE_REFUSED. In each
case mode and bar entries stay, TAG and RESULT show the request, PENDING still shows the waiting target, and nothing else changes but what reporting
does. -/
def Obligations.ModeRequestsTurnedAway : Prop :=
  ∀ (s : State) (g : BitVec 8) (same : Bool) (m : CopyImg) (lcs : List JoinLc), s.startTrig = false →
    (s.tr.isSome = true →
      ∀ c ∈ [Instr.modeReqIdle g, .modeReqReady g, .modeReqPrint g, .modeReqHold g, .modeReqHoldImmediate g, .modeReqShadow g same m lcs, .modeReqService g,
        .modeReqSafe g], TurnedAway s g.toNat 3 (exec c s)) ∧
    (s.tr = none →
      (s.mode ∉ [2, 5, 6, 7] → TurnedAway s g.toNat 2 (exec (.modeReqIdle g) s)) ∧
      (s.mode ∉ [1, 3, 4] → TurnedAway s g.toNat 2 (exec (.modeReqReady g) s)) ∧
      (s.mode ∉ [2, 4] → TurnedAway s g.toNat 2 (exec (.modeReqPrint g) s)) ∧
      (s.mode ≠ 3 → TurnedAway s g.toNat 2 (exec (.modeReqHold g) s) ∧ TurnedAway s g.toNat 2 (exec (.modeReqHoldImmediate g) s)) ∧
      (s.mode ≠ 1 → TurnedAway s g.toNat 2 (exec (.modeReqShadow g same m lcs) s) ∧ TurnedAway s g.toNat 2 (exec (.modeReqService g) s)) ∧
      TurnedAway s g.toNat 2 (exec (.modeReqSafe g) s) ∧
      (s.mode = 7 → s.safeLeave = false → TurnedAway s g.toNat 5 (exec (.modeReqIdle g) s)) ∧
      (s.mode = 1 → s.readyOk = false → TurnedAway s g.toNat 5 (exec (.modeReqReady g) s)) ∧
      (s.mode = 4 → s.on GLB_HOLD_CAUSE_PENDING = true → TurnedAway s g.toNat 5 (exec (.modeReqPrint g) s)) ∧
      (s.mode = 1 → s.startJob.isSome = true → TurnedAway s g.toNat 5 (exec (.modeReqService g) s)) ∧
      (s.mode = 1 → same = false → TurnedAway s g.toNat 5 (exec (.modeReqShadow g same m lcs) s)))

/-- O20. Host requests that take effect at once, and their side effects (R27, R30, R32, R34, R130, R199). With no transition pending and no start
trigger waiting: READY, SHADOW and SERVICE to IDLE, SAFE to IDLE on its condition, HOLD to READY and IDLE to SERVICE with no job queued take effect
at once; MODE and every bar entry take the mode, the request is DONE, CAUSE is 0. In IDLE no point holds composed lines and no sheaf is pending;
leaving SAFE clears FATAL_FIRST.VALID, and leaving HOLD for READY clears HOLD_CAUSE.PENDING. A request for SHADOW on its condition (R27) enters
SHADOW and joins at the partner's boundary by the shared operation of R410. A request for BOOT begins a warm start unless a start runs or the device
is off by R461: BOOT, start kind 2, cause 2. -/
def Obligations.ModeRequestsTakenAtOnce : Prop :=
  ∀ (s : State) (g : BitVec 8) (m : CopyImg) (lcs : List JoinLc),
    (Free s →
      (s.mode ∈ [2, 5, 6] ∨ (s.mode = 7 ∧ s.safeLeave = true) →
        Gives (exec (.modeReqIdle g) s) fun t => TakesMode 1 g.toNat t ∧ t.sheaves = [] ∧ (∀ b < 16, t.cp b = Point.empty) ∧
          (s.mode = 7 → t.on GLB_FATAL_FIRST_VALID = false)) ∧
      (s.mode = 4 → Gives (exec (.modeReqReady g) s) fun t => TakesMode 2 g.toNat t ∧ t.sheaves = [] ∧ t.on GLB_HOLD_CAUSE_PENDING = false) ∧
      (s.mode = 1 → s.startJob = none → Gives (exec (.modeReqService g) s) fun t => TakesMode 6 g.toNat t) ∧
      (s.mode = 1 → s.get TWN_STAT_LINK = 3 → s.get TWN_STAT_PMODE ∈ [2, 3, 4] → s.startJob.isSome = true →
        exec (.modeReqShadow g true m lcs) s = .next (((s.atOnce 5 g.toNat).join m lcs).judgeReady) ∧ TakesMode 5 g.toNat (s.atOnce 5 g.toNat))) ∧
    (s.mgt.start = none → s.mgt.thermTrip = false →
      Gives (exec (.modeReqBoot g) s) fun t => t.mode = 0 ∧ t.mgt.start = some ⟨2, 2, false, []⟩ ∧ t.pending = s.pending)

/-- O21. Staged mode transitions begin, wait for their bars and complete with the last of them (R27, R28, R30, R33, R130, R498). With no transition
pending, no start trigger waiting and a bar of the start job whose line clock runs: READY or HOLD (cause acknowledged) to PRINT, PRINT to HOLD,
PRINT to HOLD with IMMEDIATE and PRINT to READY show RESULT = PENDING, the request's TAG and the target; the mode stays and nothing else changes.
IDLE to READY starts the composition points of the job under the transition. The start trigger in READY begins READY to PRINT with CAUSE 8; in
another mode it changes nothing but its own mark; while a transition is pending it raises MODE_REFUSED with cause 8 and changes nothing else. -/
def Obligations.StagedTransitionsBegin : Prop :=
  ∀ (s : State) (g : BitVec 8),
    (Free s → s.stagedBars ≠ [] →
      (s.mode = 2 ∨ (s.mode = 4 ∧ s.on GLB_HOLD_CAUSE_PENDING = false) →
        Staged s g.toNat ⟨3, 0, some g.toNat, false, none, []⟩ (exec (.modeReqPrint g) s)) ∧
      (s.mode = 3 →
        Staged s g.toNat ⟨4, 0, some g.toNat, false, none, []⟩ (exec (.modeReqHold g) s) ∧
        Staged s g.toNat ⟨4, 0, some g.toNat, true, none, []⟩ (exec (.modeReqHoldImmediate g) s) ∧
        Staged s g.toNat ⟨2, 0, some g.toNat, false, none, []⟩ (exec (.modeReqReady g) s))) ∧
    (Free s → s.mode = 1 → s.readyOk = true → ∃ (j : JobD) (u : State), s.startJob = some j ∧ u.tr = some ⟨2, 0, some g.toNat, false, none, []⟩ ∧
      Shows u g.toNat 1 2 ∧ u.mode = 1 ∧ OnlyRegs [GLB_MODE_STAT.addr] s { u with tr := s.tr } ∧
      exec (.modeReqReady g) s = .next (u.startJobPoints j).leadDone) ∧
    (s.startTrig = true →
      (s.mode = 2 → s.tr = none → s.stagedBars ≠ [] →
        Gives (exec .startTrigger s) fun t => t.startTrig = false ∧ t.tr = some ⟨3, 8, none, false, none, []⟩ ∧ t.mode = 2 ∧
          t.get GLB_MODE_STAT_PENDING = 3 ∧ OnlyRegs [GLB_MODE_STAT.addr] s { t with tr := s.tr, startTrig := s.startTrig }) ∧
      (s.mode = 2 → s.tr.isSome = true →
        Gives (exec .startTrigger s) fun t => t.startTrig = false ∧ t.tr = s.tr ∧ t.mode = 2 ∧ OnlyEv [] s { t with startTrig := s.startTrig }) ∧
      (s.mode ≠ 2 → exec .startTrigger s = .next { s with startTrig := false }))

/-- O22. HOLD_CAUSE and FATAL_FIRST acknowledged, fenced units stopped, SKEW_TIMEOUT fatal, EVENT_LOST written (R34, R36, R38, R40, R42, R45, R46). ACK
of index faults clears HOLD_CAUSE.PENDING and the tracker's CONSEC; ACK of a fenced sub-channel acts only once it is fenced no longer; nothing else
changes. FATAL_FIRST.VALID written 1 clears it alone. A fenced camera that runs takes the running view OFF at its stop point, STATE is FENCED, and
no skew is left. A unit in skew past its time raises SKEW_TIMEOUT: the press is in SAFE, and FATAL_FIRST names it unless it held an earlier one. A
queue with room and lost events writes one EVENT_LOST record with the count, which starts again from 0. -/
def Obligations.AcknowledgementsAndFences : Prop :=
  ∀ (s : State) (n : Fin 0xD8) (q : Fin 8),
    (s.on GLB_HOLD_CAUSE_PENDING = true →
      (s.get GLB_HOLD_CAUSE_KIND = 1 → Gives (exec .holdCauseAck s) fun t => t.on GLB_HOLD_CAUSE_PENDING = false ∧
        t.get GEK_TRK_STAT_CONSEC (s.get GLB_HOLD_CAUSE_TRK) = 0 ∧
        OnlyRegs [GLB_HOLD_CAUSE.addr, GEK_TRK_STAT.addr (s.get GLB_HOLD_CAUSE_TRK)] s t) ∧
      (s.get GLB_HOLD_CAUSE_KIND ≠ 1 → s.on MEM_SC_STAT_FENCED (s.get GLB_HOLD_CAUSE_SC) = true → exec .holdCauseAck s = .next s) ∧
      (s.get GLB_HOLD_CAUSE_KIND ≠ 1 → s.on MEM_SC_STAT_FENCED (s.get GLB_HOLD_CAUSE_SC) = false →
        Gives (exec .holdCauseAck s) fun t => t.on GLB_HOLD_CAUSE_PENDING = false ∧ OnlyRegs [GLB_HOLD_CAUSE.addr] s t)) ∧
    Gives (exec .fatalAck s) (fun t => t.on GLB_FATAL_FIRST_VALID = false ∧ t.get GLB_FATAL_FIRST_CODE = s.get GLB_FATAL_FIRST_CODE ∧
      t.get GLB_FATAL_FIRST_UNIT = s.get GLB_FATAL_FIRST_UNIT ∧ OnlyRegs [GLB_FATAL_FIRST.addr] s t) ∧
    (0x90 ≤ n.val → n.val < 0x98 → s.get GLB_UST_PERMIT n = 4 → s.get GLB_UST_RUNSTATE n = 2 →
      Gives (exec (.unitStopPoint n) s) fun t => t.get GLB_UST_RUNSTATE n = 0 ∧ t.get GLB_UST_PERMIT n = 4 ∧ t.get GLB_UST_STATE n = 4 ∧
        t.on GLB_UST_SKEW n = false ∧ OnlyEv [GLB_UST.addr n, GLB_SKEW_MAP.addr (n / 32)] s { t with causes := s.causes }) ∧
    (s.on GLB_UST_SKEW n = true → s.mode ∉ [0, 7] → Gives (exec (.skewTimeout n) s) fun t => t.mode = 7 ∧ (∀ b < 16, t.barMode b = 7) ∧
      t.get GLB_MODE_STAT_CAUSE = 2 ∧ t.on GLB_FATAL_FIRST_VALID = true ∧
      (s.on GLB_FATAL_FIRST_VALID = false → t.get GLB_FATAL_FIRST_CODE = EV_SKEW_TIMEOUT.code ∧ t.get GLB_FATAL_FIRST_UNIT = n)) ∧
    ((s.qu (32 + q)).lost ≠ 0 → s.qRoom (32 + q) = true → Gives (exec (.eventLost q) s) fun t => (t.qu (32 + q)).lost = 0 ∧
      t.get HIF_Q_PI (32 + q.val) = (s.get HIF_Q_PI (32 + q.val) + 1) % 2 ^ 32 ∧ OnlyEv [] s t ∧
      ∃ x ∈ (t.qu (32 + q)).ring, x.kind = 2 ∧ x.status = EV_EVENT_LOST.code ∧ x.body.drop 2 = [BitVec.ofNat 32 (s.qu (32 + q)).lost])

/-- O23. An encoder change counts one step in quadrature and moves the trackers it feeds; two changes at once are an error (R48, R49, R50, R56, R58,
R59). For an enabled encoder input and no rise of Z: with one of A and B changed (after SWAP), COUNT moves by +1 or -1 modulo 2^32 by the quadrature
direction, and every tracker that the input feeds and that has no LOSS takes its position to the counted position plus that many steps of its source
in use (modulo 2^64); every tracker that it does not feed keeps its position. With both changed, QERR counts (saturating) and no count or position
moves. A disabled input changes nothing. Time first passes by dt cycles; all is said of the state z after it. -/
def Obligations.EncoderEdgesCountAndMoveTrackers : Prop :=
  ∀ (s : State) (n : Fin 8) (a b zl : Bool) (dt : Nat),
    let z := s.elapse dt
    let old := z.get GEK_ENC_STAT_LEVEL n
    let sw := z.on GEK_ENC_CTL_SWAP n
    let a' := if sw then b else a
    let b' := if sw then a else b
    let c : Int := if (if bitN old 0 != a' then a' != b' else a' == b') then 1 else -1
    (z.on GEK_ENC_CTL_EN n = false → exec (.encEdge n a b zl dt) s = .next z) ∧
    (z.on GEK_ENC_CTL_EN n = true → (zl = false ∨ bitN old 2 = true) →
      (bitN old 0 ≠ a' → bitN old 1 ≠ b' → Gives (exec (.encEdge n a b zl dt) s) fun t =>
        t.get GEK_ENC_ERR_QERR n = min (z.get GEK_ENC_ERR_QERR n + 1) 65535 ∧ OnlyEv [GEK_ENC_STAT.addr n, GEK_ENC_ERR.addr n] z t) ∧
      ((bitN old 0 ≠ a') ≠ (bitN old 1 ≠ b') → Gives (exec (.encEdge n a b zl dt) s) fun t =>
        t.rd (GEK_ENC_COUNT.addr n) = z.rd (GEK_ENC_COUNT.addr n) + BitVec.ofInt 32 c ∧
        t.get GEK_ENC_STAT_LEVEL n = b2n a' + 2 * b2n b' + 4 * b2n zl ∧ t.get GEK_ENC_ERR_QERR n = z.get GEK_ENC_ERR_QERR n ∧
        ∀ k < 4, if z.fedBy k false n ∧ z.on GEK_TRK_STAT_LOSS k = false
          then t.pos k = sx 64 (ux 64 ((z.posFine k - (z.tk k).ahead + c * z.trkStep k) / 2 ^ 32))
          else t.pos k = z.pos k) ∧
      (bitN old 0 = a' → bitN old 1 = b' → Gives (exec (.encEdge n a b zl dt) s) fun t =>
        t.get GEK_ENC_STAT_LEVEL n = b2n a' + 2 * b2n b' + 4 * b2n zl ∧ OnlyRegs [GEK_ENC_STAT.addr n] z t))

/-- O24. LOSS of an encoder input, fall-back or LOSS of the trackers on it, its end, and CLR (R51, R57, R81). An open or shorted pair of an enabled
input without LOSS sets LOSS, LOSS_SEEN and its bit of GEK_STAT. A tracker on it that has no fall-back enabled goes to LOSS with SPEED 0 and not
valid; one with fall-back enabled and a good secondary goes to FALLBACK without LOSS. When the pair has been good, LOSS and the bit clear and a
tracker whose primary it is has no LOSS. With LOSS already declared nothing changes. CLR clears QERR and ZCNT alone. -/
def Obligations.LossOfAnEncoderAndItsTrackers : Prop :=
  ∀ (s : State) (n : Fin 8),
    (s.on GEK_ENC_CTL_EN n = true → s.on GEK_ENC_STAT_LOSS n = false → Gives (exec (.encLossDetect n) s) fun t =>
      t.on GEK_ENC_STAT_LOSS n = true ∧ t.on GEK_ENC_STAT_LOSS_SEEN n = true ∧ bitN (t.get GEK_STAT_ENC_LOSS) n = true ∧
      ∀ k < 4, s.on GEK_TRK_CTL_EN k = true → s.on GEK_TRK_STAT_FALLBACK k = false → s.on GEK_TRK_CTL_SRC_ABS k = false →
        s.get GEK_TRK_CTL_SRC k = n → s.on GEK_TRK_STAT_LOSS k = false →
        (s.on GEK_TRK_CTL_SEC_EN k = false →
          t.on GEK_TRK_STAT_LOSS k = true ∧ t.get GEK_TRK_SPEED k = 0 ∧ t.on GEK_TRK_STAT_SPEED_VALID k = false ∧ t.pos k = s.pos k) ∧
        (s.on GEK_TRK_CTL_SEC_EN k = true → s.inputLoss (s.on GEK_TRK_CTL_SEC_ABS k) (s.get GEK_TRK_CTL_SEC k) = false →
          (s.on GEK_TRK_CTL_SEC_ABS k = true ∨ s.get GEK_TRK_CTL_SEC k ≠ n) →
          t.on GEK_TRK_STAT_FALLBACK k = true ∧ t.on GEK_TRK_STAT_LOSS k = false ∧ t.pos k = s.pos k)) ∧
    (s.on GEK_ENC_STAT_LOSS n = true → exec (.encLossDetect n) s = .next s) ∧
    (Gives (exec (.encLossClear n) s) fun t =>
      t.on GEK_ENC_STAT_LOSS n = false ∧ bitN (t.get GEK_STAT_ENC_LOSS) n = false ∧
      ∀ k < 4, s.on GEK_TRK_CTL_EN k = true → s.on GEK_TRK_STAT_FALLBACK k = false → s.on GEK_TRK_CTL_SRC_ABS k = false →
        s.get GEK_TRK_CTL_SRC k = n → t.on GEK_TRK_STAT_LOSS k = false) ∧
    (Hears s → Gives (exec (.encClr n) s) fun t => t.get GEK_ENC_ERR_QERR n = 0 ∧ t.get GEK_ENC_ERR_ZCNT n = 0 ∧ OnlyRegs [GEK_ENC_ERR.addr n] s t)

/-- O25. SSI frames are checked and move trackers by their signed difference; accepted mark edges latch position (R52, R53, R54, R55, R59, R99). A frame
starts on an enabled input with a period. A frame that completes with a failed check counts in ERRS (saturating), keeps VALUE and every position,
and the eighth in succession declares LOSS. A good frame that follows a good one sets VALUE, clears LOSS, and moves each tracker it feeds (without
LOSS) by the signed difference modulo 2^BITS times its step. An accepted mark edge outside the hold-off latches its tracker's position, counts, and
sets its latch in every engine; any other change sets LEVEL alone. -/
def Obligations.AbsoluteFramesAndMarks : Prop :=
  (∀ (s : State) (n : Tn),
    (s.on GEK_ABS_CTL_EN n = true → s.get GEK_ABS_TIMING_PERIOD n ≠ 0 → exec (.absFrameStart n) s = .next (s.setAi n { s.ai n with busy := true })) ∧
    (s.on GEK_ABS_CTL_EN n = false ∨ s.get GEK_ABS_TIMING_PERIOD n = 0 → exec (.absFrameStart n) s = .next s)) ∧
  (∀ (s : State) (n : Tn) (d : BitVec 32) (par err : Bool) (dt : Nat),
    let z := s.elapse dt
    let w := z.get GEK_ABS_CTL_BITS n + 1
    let raw := d.toNat % 2 ^ w
    let v := if z.on GEK_ABS_CTL_GRAY n then grayOf raw 0 w else raw
    let delta := sx w ((v + 2 ^ w - z.get GEK_ABS_VALUE n % 2 ^ w) % 2 ^ w)
    let bad := (z.on GEK_ABS_CTL_PARITY n = true ∧ (ones raw w + b2n par) % 2 = 1) ∨ (z.on GEK_ABS_CTL_ERRBIT n = true ∧ err = true) ∨
      ((z.ai n).good = true ∧ z.get GEK_ABS_MAXDELTA n ≠ 0 ∧ z.get GEK_ABS_MAXDELTA n < delta.natAbs)
    z.on GEK_ABS_CTL_EN n = true → (z.ai n).busy = true →
      (bad → Gives (exec (.absFrameDone n d par err dt) s) fun t =>
        t.get GEK_ABS_ERR_ERRS n = min (z.get GEK_ABS_ERR_ERRS n + 1) 65535 ∧ t.get GEK_ABS_VALUE n = z.get GEK_ABS_VALUE n ∧ (∀ k < 4, t.pos k = z.pos k) ∧
        (t.ai n).busy = false ∧ ((z.ai n).fails = 7 → t.on GEK_ABS_ERR_LOSS n = true) ∧
        ((z.ai n).fails ≠ 7 → OnlyEv [GEK_ABS_ERR.addr n] z { t with absIn := z.absIn })) ∧
      (¬ bad → Gives (exec (.absFrameDone n d par err dt) s) fun t =>
        t.get GEK_ABS_VALUE n = v ∧ t.on GEK_ABS_ERR_LOSS n = false ∧ (t.ai n).fails = 0 ∧ (t.ai n).good = true ∧ (t.ai n).busy = false ∧
        ((z.ai n).good = true → ∀ k < 4, z.fedBy k true n → z.on GEK_TRK_STAT_LOSS k = false → z.on GEK_TRK_STAT_FALLBACK k = false →
          z.on GEK_ABS_ERR_LOSS n = false →
          t.pos k = sx 64 (ux 64 ((z.posFine k - (z.tk k).ahead + delta * z.trkStep k) / 2 ^ 32))))) ∧
  (∀ (s : State) (n : Fin 8) (l : Bool) (dt : Nat),
    let z := s.elapse dt
    let e := z.get GEK_MK_CTL_EDGE n
    let held : Prop := ∃ h, smGet (fun _ => none) z.mkHold n = some h ∧ z.pos (z.get GEK_MK_CTL_TRK n) < h
    let edge : Prop := e = 2 ∨ (e = 0 ∧ l = true) ∨ (e = 1 ∧ l = false)
    z.on GEK_MK_CTL_EN n = true →
      (z.on GEK_MK_STAT_LEVEL n ≠ l → ¬ held → edge → Gives (exec (.mkEdge n l dt) s) fun t =>
        t.geti64 GEK_MK_LATCH_LO n = z.pos (z.get GEK_MK_CTL_TRK n) ∧ t.on GEK_MK_STAT_LEVEL n = l ∧
        ∀ e < 28, bitN (t.get ENG_EVLATCH0 e) n = true) ∧
      (z.on GEK_MK_STAT_LEVEL n = l ∨ held ∨ ¬ edge → exec (.mkEdge n l dt) s = .next (z.put GEK_MK_STAT_LEVEL l n)))

/-- O26. Gate-mode speed, standstill, the host's LOAD and ARM, and writes of a tracker's control register (R57, R59, R60, R61, R62, R64, R67, R81). At a
gate's end with two or more counts SPEED is (n - 1) steps over the time from the first to the last; with fewer the tracker is back in period mode
and SPEED stays. At a standstill SPEED is 0 and not valid, STILL is set, GATE_MODE clears, and nothing else changes but reporting. LOAD in IDLE,
READY and SERVICE sets P to the load value, in another mode it sets LOAD_ERR alone. ARM sets ARM and ARMED alone. A write of the control register
without ARM and LOAD leaves in it what its fields' types say, and clearing EN ends fall-back. -/
def Obligations.SpeedStandstillAndTrackerCommands : Prop :=
  ∀ (s : State) (k : Tn) (dt : Nat) (v : BitVec 32),
    (let z := s.elapse dt
     let g := z.tk k
     z.on GEK_TRK_CTL_EN k = true → z.on GEK_TRK_STAT_GATE_MODE k = true →
      (g.gN < 2 → Gives (exec (.speedGate k dt) s) fun t => t.on GEK_TRK_STAT_GATE_MODE k = false ∧ t.get GEK_TRK_SPEED k = z.get GEK_TRK_SPEED k ∧
        (t.tk k).gN = 0 ∧ OnlyRegs [GEK_TRK_STAT.addr k] z { t with trk := z.trk }) ∧
      (2 ≤ g.gN → Gives (exec (.speedGate k dt) s) fun t =>
        t.get GEK_TRK_SPEED k = ux 32 (speedOf (if z.on GEK_TRK_STAT_DIR k then -((z.trkStep k).natAbs * (g.gN - 1) : Int) else (z.trkStep k).natAbs * (g.gN - 1))
          (g.gLast - g.gFirst)) ∧ t.on GEK_TRK_STAT_SPEED_VALID k = true ∧ (t.tk k).gN = 0 ∧
        OnlyRegs [GEK_TRK_STAT.addr k, GEK_TRK_SPEED.addr k] z { t with trk := z.trk })) ∧
    (s.on GEK_TRK_CTL_EN k = true → s.get GEK_TRK_STILL k ≠ 0 → s.on GEK_TRK_STAT_STILL k = false → Gives (exec (.standstill k) s) fun t =>
      t.get GEK_TRK_SPEED k = 0 ∧ t.on GEK_TRK_STAT_SPEED_VALID k = false ∧ t.on GEK_TRK_STAT_STILL k = true ∧
      t.on GEK_TRK_STAT_GATE_MODE k = false ∧ OnlyEv [GEK_TRK_STAT.addr k, GEK_TRK_SPEED.addr k] s t) ∧
    (Hears s →
      (s.mode ∈ [1, 2, 6] → Gives (exec (.trackerLoad k) s) fun t => t.pos k = s.geti64 GEK_TRK_LOAD_LO k ∧ (t.tk k).frac = 0) ∧
      (s.mode ∉ [1, 2, 6] → Gives (exec (.trackerLoad k) s) fun t => t.on GEK_TRK_STAT_LOAD_ERR k = true ∧ t.pos k = s.pos k ∧
        OnlyRegs [GEK_TRK_STAT.addr k] s t) ∧
      (Gives (exec (.trackerArm k) s) fun t => t.on GEK_TRK_CTL_ARM k = true ∧ t.on GEK_TRK_STAT_ARMED k = true ∧
        OnlyRegs [GEK_TRK_CTL.addr k, GEK_TRK_STAT.addr k] s t) ∧
      (getBits v 20 2 = 0 → Gives (exec (.trackerCtlWrite k v) s) fun t =>
        t.rd (GEK_TRK_CTL.addr k) = writeBits (GEK_TRK_CTL.addr k) (s.rd (GEK_TRK_CTL.addr k)) v ∧ t.pos k = s.pos k ∧
        (s.on GEK_TRK_CTL_EN k = true → getBits v GEK_TRK_CTL_EN.lo 1 = 0 → t.on GEK_TRK_STAT_FALLBACK k = false)))

/-- O27. A line clock hits: LINE, COMPARE, SKIP, the line latch; a hit too soon is delayed to MINGAP (R71, R72, R73, R74, R99). For a line clock that
runs, not in sheet mode, with no hit delayed, no fire-side field due and a pitch above 0: when B reaches COMPARE (time first passes by dt), MINGAP
after the previous hit, the clock passes k = 1 + (B - COMPARE) / PITCH compares: LINE moves by k, COMPARE by k pitches, SKIP counts k - 1
(saturating), and the bar's line latch is set in every engine. Below COMPARE, or while the clock is off, waits for an edge or has a hit delayed,
nothing happens. Within MINGAP the hit is delayed and only reported; a delayed hit takes place at the first even SEQ cycle at or after the previous
hit plus MINGAP. -/
def Obligations.LineClocksHitAndSkip : Prop :=
  ∀ (s : State) (b : Bar) (dt : Nat),
    let z := s.elapse dt
    let k := 1 + ((z.barFine b - z.compare b) / z.lcPitch b).toNat
    let soon : Prop := ∃ t, (z.lk b).lastHit = some t ∧ (z.clk - t) * 5 < z.get GEK_LC_MINGAP b * 4
    let idle : Prop := z.on GEK_LC_CTL_EN b = false ∨ z.on GEK_LC_STAT_WAIT_SHEET b = true ∨ z.on GEK_LC_STAT_DELAYED b = true ∨ z.mode = 0
    (idle ∨ z.barFine b < z.compare b → exec (.lineClockHit b dt) s = .next z) ∧
    (¬ idle → z.compare b ≤ z.barFine b → soon → Gives (exec (.lineClockHit b dt) s) fun t =>
      t.on GEK_LC_STAT_DELAYED b = true ∧ t.line b = z.line b ∧ t.compare b = z.compare b ∧ OnlyEv [GEK_LC_STAT.addr b] z t) ∧
    (¬ idle → z.compare b ≤ z.barFine b → ¬ soon → z.on GEK_LC_CTL_SHEET b = false → (z.cp b).fire = [] → 0 < z.lcPitch b →
      k ≤ 2 ^ 64 → z.line b + k < 2 ^ 63 → Gives (exec (.lineClockHit b dt) s) fun t =>
        t.line b = z.line b + k ∧ t.compare b = sx 96 (ux 96 (z.compare b + k * z.lcPitch b)) ∧
        t.get GEK_LC_SKIP b = min (z.get GEK_LC_SKIP b + (k - 1)) (2 ^ GEK_LC_SKIP.width - 1) ∧
        t.geti64 GEK_LC_HWM_LO b = sx 64 (ux 64 (z.barFine b / 2 ^ 32)) ∧ ∀ e < 28, bitN (t.get ENG_EVLATCH0 e) (8 + b) = true) ∧
    (∀ l : Nat, s.on GEK_LC_CTL_EN b = true → s.on GEK_LC_STAT_DELAYED b = true → (s.lk b).lastHit = some l →
      Gives (exec (.lineClockDelayedHit b) s) fun t =>
        t.on GEK_LC_STAT_DELAYED b = false ∧ s.clk ≤ t.clk ∧ l + cdiv (s.get GEK_LC_MINGAP b * 4) 5 ≤ t.clk ∧
        (s.clk < l + cdiv (s.get GEK_LC_MINGAP b * 4) 5 → t.clk % 2 = 0 ∧ t.clk ≤ l + cdiv (s.get GEK_LC_MINGAP b * 4) 5 + 1))

/-- O28. A line clock enabled, its PITCH and OFFSET written, a sheet edge taken, and a 64-bit pair read (R74, R75, R76, R77, R81). The host's enabling
write of a line clock that is off sets EN, TRK and SHEET, sets the high-water mark to -2^63 and has a sheet-mode clock wait for an edge. A write of
a word of OFFSET or PITCH stands in the shadow, and while EN is 0 in the applied value too. A sheet-mode clock that waits takes the first queued
edge it has not finished: SHEET is its number, COMPARE its position plus SHEET_TOP, and it waits no more. Reading the low word of P latches the high
word, which the next read of it returns whatever P is by then; no register changes. -/
def Obligations.LineClockControlAndSheetEdges : Prop :=
  (∀ (s : State) (b : Bar) (k : Tn) (sh : Bool), Hears s → s.on GEK_LC_CTL_EN b = false → Gives (exec (.lcEnable b k sh) s) fun t =>
      t.on GEK_LC_CTL_EN b = true ∧ t.get GEK_LC_CTL_TRK b = k ∧ t.on GEK_LC_CTL_SHEET b = sh ∧ t.geti64 GEK_LC_HWM_LO b = -(2 ^ 63) ∧
      t.on GEK_LC_STAT_WAIT_SHEET b = sh ∧ t.on GEK_LC_STAT_DELAYED b = false ∧ t.line b = s.line b ∧ t.compare b = s.compare b) ∧
  (∀ (s : State) (b : Bar) (w : Fin 4) (v : BitVec 32), Hears s →
    let a := GEK_LC_OFFSET_LO.addr b + 4 * w
    Gives (exec (.lcPitchOffsetWrite b w v) s) fun t => t.rd a = v ∧ t.ap a = (if s.on GEK_LC_CTL_EN b then s.ap a else v) ∧
      OnlyRegs [a] s { t with applied := s.applied } ∧ ∀ x, x ≠ a → t.ap x = s.ap x) ∧
  (∀ (s : State) (b : Bar) (e : Nat × Int), s.on GEK_LC_CTL_EN b = true → s.on GEK_LC_CTL_SHEET b = true → s.on GEK_LC_STAT_WAIT_SHEET b = true →
    (s.tk (s.get GEK_LC_CTL_TRK b)).edges.find? (fun e => !(s.sheetDone b e.1)) = some e → Gives (exec (.sheetEdgeTake b) s) fun t =>
      t.get GEK_LC_SHEET b = e.1 % 2 ^ 32 ∧ t.compare b = sx 96 (ux 96 ((e.2 + s.get GEK_LC_SHEET_TOP b) * 2 ^ 32)) ∧
      t.on GEK_LC_STAT_WAIT_SHEET b = false ∧ t.line b = s.line b) ∧
  (∀ (s : State) (k : Tn), Hears s → smGet (fun _ => []) s.latched 0 = [] →
    let a := GEK_TRK_POS_LO.addr k
    Gives (exec (.regPairReadLatch a) s) fun t => smGet (fun _ => []) t.latched 0 = [(a + 4, s.rd (a + 4))] ∧ t = { s with latched := t.latched } ∧
      ∀ u : State, u.latched = t.latched → (u.readReg 0 (a + 4)).1 = s.rd (a + 4))

/-- O29. START, RESUME, HALT, STEP and RESET of an engine, and commands its state does not accept (R82, R83, R100, R117, R118, R119). Outside BOOT and
SAFE: START in OFF, HALTED or TRAP (breakpoint off) runs the engine from ENTRY with G, P, flags and latches cleared; RESUME in HALTED or TRAP runs
it from its PC; HALT in RUN makes it HALTED at its PC, in WAIT (but for a stalled SEND or SHEAF) HALTED with the wait abandoned; STEP in HALTED runs
the instruction whose word stands at PC exactly as that instruction runs in an engine that halts at the next boundary. RESET from any state gives
OFF with latches cleared and no wait. A command that its state does not accept sets CMD_ERR alone. -/
def Obligations.EngineCommands : Prop :=
  ∀ (s : State) (e : Eng), Hears s →
    (s.mode ≠ 7 → s.engState e ∉ [2, 3] → s.on ENG_BREAK_EN e = false → Gives (exec (.engStart e) s) fun t =>
      t.engState e = 2 ∧ t.get ENG_PC e = s.get ENG_ENTRY_ENTRY e ∧ (∀ n < 32, t.g e n = 0) ∧ (∀ n < 8, t.pr e n = 0) ∧ (∀ n < 4, t.flag e n = false) ∧
      t.rd (ENG_EVLATCH0.addr e) = 0 ∧ t.rd (ENG_EVLATCH1.addr e) = 0 ∧ t.rd (ENG_EVLATCH2.addr e) = 0 ∧ (t.ex e).startClk = some s.clk ∧
      (∀ n < 32, t.vr e n = List.replicate 16 0)) ∧
    (s.mode ≠ 7 → s.engState e ∈ [1, 4] → Gives (exec (.engResume e) s) fun t =>
      t.engState e = 2 ∧ t.get ENG_PC e = s.get ENG_PC e ∧ t.on ENG_STAT_BREAK e = false ∧ ∀ n < 32, t.g e n = s.g e n) ∧
    (s.engState e = 2 → Gives (exec (.engHalt e) s) fun t => t.engState e = 1 ∧ t.get ENG_PC e = s.get ENG_PC e) ∧
    (∀ w : UWait, s.engState e = 3 → (s.ex e).wait = some w → w.kind ∉ [5, 6] → Gives (exec (.engHalt e) s) fun t =>
      t.engState e = 1 ∧ t.get ENG_PC e = s.get ENG_PC e ∧ (t.ex e).wait = none ∧ t.get ENG_STAT_WAIT_KIND e = 0) ∧
    (∀ (i : Instr) (w : Word), s.mode ≠ 7 → s.engState e = 1 → instrWord i = some (e, w) → s.code e (s.get ENG_PC e) = w →
      exec (.engStep e) s = exec i ((s.engGo e).setEx e { (s.engGo e).ex e with haltNext := true })) ∧
    (Gives (exec (.engReset e) s) fun t => t.engState e = 0 ∧ (t.ex e).wait = none ∧ t.rd (ENG_EVLATCH0.addr e) = 0 ∧ t.rd (ENG_EVLATCH1.addr e) = 0 ∧
      t.rd (ENG_EVLATCH2.addr e) = 0 ∧ t.engCode = s.engCode ∧ t.engData = s.engData ∧ ∀ n < 32, t.g e n = s.g e n) ∧
    (s.mode = 7 ∨ s.engState e ∈ [2, 3] → CmdErr s e (exec (.engStart e) s)) ∧
    (s.mode = 7 ∨ s.engState e ∉ [1, 4] → CmdErr s e (exec (.engResume e) s)) ∧
    (s.engState e ∉ [2, 3] → CmdErr s e (exec (.engHalt e) s)) ∧
    (s.mode = 7 ∨ s.engState e ≠ 1 → CmdErr s e (exec (.engStep e) s))

/-- O30. Doorbells and host triggers set latches; bindings, code words and register windows written, each under its guard (R33, R83, R85, R99, R121,
R122, R123, R124). A doorbell sets latch 60 of its engine alone; each bit of a host trigger write sets that internal trigger in every engine and
never marks the start trigger. A binding is written in IDLE and SERVICE, elsewhere BIND_ERR is set alone. A code word is written while the engine is
OFF, HALTED or TRAP or the word lies in the open window, elsewhere it stays and CMD_ERR is set alone. A register of an engine's window is written,
by its fields' types, only in OFF, HALTED and TRAP; a write to G0 is discarded. -/
def Obligations.HostWritesOfSequencerRegisters : Prop :=
  ∀ (s : State) (e : Eng) (c : Fin 16) (i : Fin 16384) (r : Fin 1024) (k : Tn) (m : BitVec 16) (v : BitVec 32), Hears s →
    (Gives (exec (.engDoorbell e) s) fun t => bitN (t.get ENG_EVLATCH1 e) 28 = true ∧
      (∀ n < 32, n ≠ 28 → bitN (t.get ENG_EVLATCH1 e) n = bitN (s.get ENG_EVLATCH1 e) n) ∧ OnlyRegs [ENG_EVLATCH1.addr e] s { t with latchMore := s.latchMore }) ∧
    (Gives (exec (.hostTrig m) s) fun t => t.startTrig = s.startTrig ∧ t.mode = s.mode ∧
      ∀ x < 28, ∀ n < 16, bitN (t.get ENG_EVLATCH1 x) (8 + n) = (bitN (s.get ENG_EVLATCH1 x) (8 + n) || m.getLsbD n)) ∧
    (s.mode ∈ [1, 6] → Gives (exec (.seqBindWrite k v) s) fun t => OnlyRegs [SEQ_BIND.addr k] s t ∧
      t.rd (SEQ_BIND.addr k) = writeBits (SEQ_BIND.addr k) (s.rd (SEQ_BIND.addr k)) v) ∧
    (s.mode ∉ [1, 6] → Gives (exec (.seqBindWrite k v) s) fun t => t.on SEQ_STAT_BIND_ERR = true ∧ OnlyRegs [SEQ_STAT.addr] s t) ∧
    (s.codeOpen c (4 * i) = true → Gives (exec (.codeWrite c i v) s) fun t => t.code c (4 * i) = v ∧ t = { s with engCode := t.engCode } ∧
      ∀ (e' : Nat) (a : Nat), a < 0x10000 → (e' ≠ c ∨ a / 4 ≠ i) → t.code e' a = s.code e' a) ∧
    (s.codeOpen c (4 * i) = false → CmdErr s c (exec (.codeWrite c i v) s)) ∧
    (s.engState e ∈ [0, 1, 4] → r.val ≠ 0 → r.val < 256 → Gives (exec (.engRegWrite e r v) s) fun t =>
      t.rd (ENG_G.addr e 0 + 4 * r) = writeBits (ENG_G.addr e 0 + 4 * r) (s.rd (ENG_G.addr e 0 + 4 * r)) v ∧ OnlyRegs [ENG_G.addr e 0 + 4 * r] s t ∧
      (r.val < 32 → t.g e r = v)) ∧
    (s.engState e ∉ [0, 1, 4] ∨ r.val = 0 → exec (.engRegWrite e r v) s = .next s)

/-- O31. The loader: GO, a copy of the store into code memory, its refusals, ABORT and ALREADY_DONE (R8, R84, R120, R121, R124). GO on an idle loader of
length 0 completes with RESULT 0 at once; of another length it is BUSY with the copy as its registers give it, and nothing else changes; GO while
BUSY does nothing. On completion a copy that is refused (RANGE 1, ALIGN 2, GUARD 3) ends with that RESULT and writes no memory; a copy of good store
bytes into code memory writes every word little-endian, leaves every other word, ends BUSY with RESULT 0. ABORT after n parts writes those parts and
ends with RESULT 5 (ABORTED); past the last part the copy is complete and RESULT is 6 (ALREADY_DONE). Nothing else changes but reporting. -/
def Obligations.LoaderCopiesCode : Prop :=
  (∀ s : State, Hears s →
    (s.on SEQ_LD_STAT_BUSY = true → exec .loaderGo s = .next s) ∧
    (s.on SEQ_LD_STAT_BUSY = false → s.get SEQ_LD_LEN_LEN = 0 → Gives (exec .loaderGo s) fun t => t.get SEQ_LD_STAT_RESULT = 0 ∧ t.on SEQ_LD_STAT_BUSY = false ∧
      t.loading = none ∧ OnlyEv [SEQ_LD_STAT.addr] s { t with loading := s.loading }) ∧
    (s.on SEQ_LD_STAT_BUSY = false → s.get SEQ_LD_LEN_LEN ≠ 0 → Gives (exec .loaderGo s) fun t => t.on SEQ_LD_STAT_BUSY = true ∧
      t.loading = some (s.get64 SEQ_LD_SRC_LO, s.get SEQ_LD_DST, s.get SEQ_LD_OFF_OFF, s.get SEQ_LD_LEN_LEN) ∧
      OnlyRegs [SEQ_LD_STAT.addr] s { t with loading := s.loading })) ∧
  (∀ (s : State) (src dst off len c n : Nat), s.loading = some (src, dst, off, len) → s.loadBad src dst off len = some c →
    ∀ i ∈ [Instr.loaderComplete, .loaderAbort n], Hears s → Gives (exec i s) fun t => t.get SEQ_LD_STAT_RESULT = c ∧ t.on SEQ_LD_STAT_BUSY = false ∧
      t.loading = none ∧ OnlyEv [SEQ_LD_STAT.addr] s { t with loading := s.loading }) ∧
  (∀ (s : State) (src e off len n : Nat), Hears s → e < 28 → s.loading = some (src, e, off, len) → s.loadBad src e off len = none →
    (∀ i < len / 32, s.bad (src + 32 * i) 32 = false) →
    let Copied (m : Nat) (t : State) : Prop := (∀ j < 8 * m, t.code e (off + 4 * j) = BitVec.ofNat 32 (s.ldN (src + 4 * j) 4)) ∧
      (∀ (e' : Nat) (a : Nat), a < 0x10000 → (e' ≠ e ∨ a < off ∨ off + 32 * m ≤ a) → t.code e' a = s.code e' a) ∧
      t.on SEQ_LD_STAT_BUSY = false ∧ OnlyEv [SEQ_LD_STAT.addr] s { t with loading := s.loading, engCode := s.engCode }
    (Gives (exec .loaderComplete s) fun t => t.get SEQ_LD_STAT_RESULT = 0 ∧ Copied (len / 32) t) ∧
    (n ≤ len / 32 → Gives (exec (.loaderAbort n) s) fun t => t.get SEQ_LD_STAT_RESULT = 5 ∧ Copied n t) ∧
    (len / 32 < n → Gives (exec (.loaderAbort n) s) fun t => t.get SEQ_LD_STAT_RESULT = 6 ∧ Copied (len / 32) t))

/-- O32. Entries of the reject list: gathered runs, ranges of the host, and the list cleared (R7, R136, R137, R138). The gathered run of a cause and bar
of up to 2^32 - 1 pu is written as the next entry: slot k mod 64 with start, length, cause, bar, tracker and the low bits of k, then WR = k + 1 (mod
2^32); the run is no longer gathered, and no other register changes. The host's GO outside BOOT enters its range as cause 10 (HOST) with bar 15 and
the reference tracker when the mask admits the cause and LEN is not 0, else nothing. CLR in IDLE and SERVICE sets WR to 0 and empties the slots;
elsewhere it sets CFG_ERR alone. -/
def Obligations.RejectListEntries : Prop :=
  ∀ (s : State) (cause : Fin 16) (b : Bar),
    let k := s.get SEQ_REJ_WR
    (∀ (a z y : Int) (n : Nat), smGet (fun _ => none) s.gather (16 * cause + b) = some (a, z, y, n) → a < z → z - a < 2 ^ 32 →
      Gives (exec (.rejectEntryWrite cause b) s) fun t => RejEntry t k cause b (s.get GEK_LC_CTL_TRK b) a (z - a).toNat ∧
        t.get SEQ_REJ_WR = (k + 1) % 2 ^ 32 ∧ smGet (fun _ => none) t.gather (16 * cause + b) = none ∧
        OnlyRegs (rejRegs k) s { t with gather := s.gather }) ∧
    (smGet (fun _ => none) s.gather (16 * cause + b) = none → exec (.rejectEntryWrite cause b) s = .next s) ∧
    (Hears s →
      (bitN (s.get SEQ_REJ_CTL_MASK) 10 = true → s.get SEQ_REJ_ADD_LEN ≠ 0 → Gives (exec .rejectAdd s) fun t =>
        RejEntry t k 10 15 (s.get GEK_CTL_REF_TRK) (s.geti64 SEQ_REJ_ADD_START_LO) (s.get SEQ_REJ_ADD_LEN) ∧ t.get SEQ_REJ_WR = (k + 1) % 2 ^ 32 ∧
        OnlyRegs (rejRegs k) s t) ∧
      (bitN (s.get SEQ_REJ_CTL_MASK) 10 = false ∨ s.get SEQ_REJ_ADD_LEN = 0 → exec .rejectAdd s = .next s) ∧
      (s.mode ∈ [1, 6] → Gives (exec .rejectClear s) fun t => t.get SEQ_REJ_WR = 0 ∧ ∀ i < 64, t.geti64 SEQ_REJ_START_LO i = 0 ∧ t.get SEQ_REJ_LEN i = 0 ∧ t.rd (SEQ_REJ_INFO.addr i) = 0) ∧
      (s.mode ∉ [1, 6] → Gives (exec .rejectClear s) fun t => t.on SEQ_GIO_STAT_CFG_ERR = true ∧ OnlyRegs [SEQ_GIO_STAT.addr] s t))

/-- O33. GIO levels set and cleared by the host, directions and inversion guarded, inputs seen through INV (R26, R31, R139, R140, R143, R144). Outside
SAFE, SET makes the named levels 1 and CLR makes them 0 and leaves the others; in SAFE both do nothing. Direction, inversion and safe codes are
written by their fields' types in IDLE and SERVICE; elsewhere CFG_ERR is set alone. A filtered change at an input pin shows in GIO_IN as the level
XOR INV, the other pins as they were sampled; at an output pin it changes nothing. -/
def Obligations.GeneralInputsAndOutputs : Prop :=
  ∀ (s : State) (m v : BitVec 32) (k : Tn) (n : Fin 32) (l : Bool),
    (Hears s → s.mode ≠ 7 →
      (Gives (exec (.gioSet m) s) fun t => OnlyRegs [SEQ_GIO_OUT.addr] s t ∧
        ∀ i < 32, bitN (t.get SEQ_GIO_OUT) i = (bitN (s.get SEQ_GIO_OUT) i || m.getLsbD i)) ∧
      (Gives (exec (.gioClr m) s) fun t => OnlyRegs [SEQ_GIO_OUT.addr] s t ∧
        ∀ i < 32, bitN (t.get SEQ_GIO_OUT) i = (bitN (s.get SEQ_GIO_OUT) i && !m.getLsbD i))) ∧
    (s.mode = 7 → exec (.gioSet m) s = .next s ∧ exec (.gioClr m) s = .next s) ∧
    (Hears s → s.mode ∈ [1, 6] → Gives (exec (.gioConfigWrite k v) s) fun t => OnlyRegs [SEQ_GIO_DIR.addr + 4 * k, SEQ_GIO_IN.addr] s t ∧
      t.rd (SEQ_GIO_DIR.addr + 4 * k) = writeBits (SEQ_GIO_DIR.addr + 4 * k) (s.rd (SEQ_GIO_DIR.addr + 4 * k)) v ∧
      t.get SEQ_GIO_IN = (s.gioRaw ^^^ t.get SEQ_GIO_INV) % 2 ^ 32) ∧
    (Hears s → s.mode ∉ [1, 6] → Gives (exec (.gioConfigWrite k v) s) fun t => t.on SEQ_GIO_STAT_CFG_ERR = true ∧ OnlyRegs [SEQ_GIO_STAT.addr] s t) ∧
    (bitN (s.get SEQ_GIO_DIR) n = true → exec (.gioInputChange n l) s = .next s) ∧
    (bitN (s.get SEQ_GIO_DIR) n = false → Gives (exec (.gioInputChange n l) s) fun t => bitN (t.get SEQ_GIO_IN) n = (l != bitN (s.get SEQ_GIO_INV) n) ∧
      (∀ i < 32, i ≠ n → bitN (t.get SEQ_GIO_IN) i = (bitN s.gioRaw i != bitN (s.get SEQ_GIO_INV) i)) ∧ OnlyRegs [SEQ_GIO_IN.addr] s { t with gioRaw := s.gioRaw })

/-- O34. Reads and writes of the store: correctable and uncorrectable errors, poison, fenced sub-channels, panic (R151, R152, R153, R154, R157, R160,
R169, R176, R178). For an address within the capacity of a ready store, without a FIFO report: a clean read of a good burst changes nothing; an
error in one device (no device erased) counts in CE and changes no stored byte and no poison; errors in two devices, or in one beside an erased
device, count in UE, record address and port, and leave the burst poisoned, every byte outside it as it was; a read of a poisoned burst counts in
POISON_RD alone. A write of a whole burst stores its bytes and ends its poison; a part of a poisoned burst is stored and the poison stays; a write
to a fenced sub-channel stores nothing and counts. A read-side FIFO below its threshold enters panic. -/
def Obligations.StoreRequestsMeetErrors : Prop :=
  ∀ (s : State) (p : Fin 195) (a : Nat) (r : Fin 2) (d d' : Fin 10) (l : List Byte) (v : Fin 65),
    let n := s.scOf a
    a < s.memCap → s.on MEM_STAT_READY = true →
      (s.scBad n = false → smGet (fun _ => false) s.poison (a / 64) = false →
        exec (.storeReadRequest p a r [] none) s = .next s ∧
        (s.erased n r = none → Gives (exec (.storeReadRequest p a r [d] none) s) fun t =>
          t.get MEM_SC_CE n = min (s.get MEM_SC_CE n + 1) (2 ^ 32 - 1) ∧ t.store = s.store ∧ t.poison = s.poison ∧ t.mode = s.mode) ∧
        ((s.erased n r = none ∧ d ≠ d' ∨ (∃ x : Nat, s.erased n r = some x ∧ x ≠ d ∧ (d' = d ∨ d'.val = x))) →
          Gives (exec (.storeReadRequest p a r [d, d'] none) s) fun t =>
            t.get MEM_SC_UE_UE n = min (s.get MEM_SC_UE_UE n + 1) 65535 ∧ t.geti64 MEM_UE_ADDR_LO = sx 64 (64 * (a / 64) % 2 ^ 64) ∧
            t.get MEM_UE_INFO_PORT = p ∧ t.on MEM_UE_INFO_SCRUB = (p.val == 192) ∧ t.on MEM_UE_INFO_WRITE = false ∧
            smGet (fun _ => false) t.poison (a / 64) = true ∧ t.mode = s.mode ∧
            ∀ x, x / 64 ≠ a / 64 → smGet (fun _ => (0 : Byte)) t.store x = smGet (fun _ => 0) s.store x)) ∧
      (s.scBad n = false → smGet (fun _ => false) s.poison (a / 64) = true → Gives (exec (.storeReadRequest p a r [d] none) s) fun t =>
        t.get MEM_SC_UE_POISON_RD n = min (s.get MEM_SC_UE_POISON_RD n + 1) 65535 ∧ OnlyRegs [MEM_SC_UE.addr n] s t) ∧
      (s.scBad n = false → a % 64 = 0 → l.length = 64 → a + 64 ≤ s.memCap → Gives (exec (.storeWriteRequest p a l r [] none) s) fun t =>
        (∀ i < 64, t.ldByte (a + i) = l.getD i 0) ∧ smGet (fun _ => false) t.poison (a / 64) = false ∧
        (∀ x, x / 64 ≠ a / 64 → smGet (fun _ => (0 : Byte)) t.store x = smGet (fun _ => 0) s.store x) ∧
        (∀ x, x ≠ a / 64 → smGet (fun _ => false) t.poison x = smGet (fun _ => false) s.poison x) ∧ t = { s with store := t.store, poison := t.poison }) ∧
      (s.scBad n = false → smGet (fun _ => false) s.poison (a / 64) = true → a % 64 + l.length < 64 → a + l.length ≤ s.memCap →
        Gives (exec (.storeWriteRequest p a l r [d] none) s) fun t =>
          (∀ i < l.length, smGet (fun _ => (0 : Byte)) t.store (a + i) = l.getD i 0) ∧ t.poison = s.poison ∧
          (∀ x, (x < a ∨ a + l.length ≤ x) → smGet (fun _ => (0 : Byte)) t.store x = smGet (fun _ => 0) s.store x) ∧ t = { s with store := t.store }) ∧
      (s.on MEM_SC_STAT_FENCED n = true → s.on MEM_SC_STAT_FAILED n = false → a % 64 + l.length ≤ 64 → l ≠ [] →
        Gives (exec (.storeWriteRequest p a l r [] none) s) fun t => t.store = s.store ∧ t.poison = s.poison ∧
          t.get MEM_SC_FENCED_REQ n = min (s.get MEM_SC_FENCED_REQ n + 1) (2 ^ 32 - 1) ∧ OnlyRegs [MEM_SC_FENCED_REQ.addr n] s t) ∧
      (s.scBad n = false → smGet (fun _ => false) s.poison (a / 64) = false → p.val < 174 → s.on MEM_PORT_CFG_SIDE p = false →
        s.on MEM_PORT_STAT_PANIC p = false → v.val < s.get MEM_PORT_CFG_THRESH p → Gives (exec (.storeReadRequest p a r [] (some v)) s) fun t =>
          t.on MEM_PORT_STAT_PANIC p = true ∧ t.get MEM_PORT_STAT_LEVEL p = v ∧
          t.get MEM_PORT_STAT_PANIC_CNT p = (s.get MEM_PORT_STAT_PANIC_CNT p + 1) % 65536 ∧ t.on MEM_PANIC_STAT_ANY = true ∧
          OnlyEv [MEM_PORT_STAT.addr p, MEM_PANIC_STAT.addr] s t)

/-- O35. Scrubbing, replays and a failed sub-channel, refresh, calibration, promotion and self-refresh of the store controller (R156, R158, R160, R166,
R167, R170, R171, R172, R176). A scrub of a clean burst moves the position by 64, or ends the pass at the capacity: position 0, one more pass. A
parity replay counts; a command's third failed replay makes its sub-channel FAILED in both views and its map bit, and the press leaves for SAFE; a
replay that succeeds clears the earlier failures. A rank read hot doubles refresh and stays so until two reads not hot. A refresh due out of panic
leaves none postponed. Calibration and DQS tracking only compare the die with the training temperature. A long panic is reported once; a promotion
counts where the class has an age limit; a drained fenced sub-channel sleeps with its running view OFF. -/
def Obligations.StoreControllerKeepsItself : Prop :=
  ∀ (s : State) (n : Fin 24) (r : Fin 2) (c : Tn) (x : Fin 64) (p : Fin 195),
    let a := s.get64 MEM_SCRUB_POS_LO
    (s.on MEM_SCRUB_CTL_EN = true → s.get MEM_SCRUB_CTL_PERIOD ≠ 0 → s.on MEM_STAT_READY = true → (s.poisoned (a / 64) = false ∨ s.memCap ≤ a) →
      (a + 64 < s.memCap → Gives (exec (.scrubStep r []) s) fun t => t.get64 MEM_SCRUB_POS_LO = (a + 64) % 2 ^ 64 ∧
        OnlyRegs [MEM_SCRUB_POS_LO.addr, MEM_SCRUB_POS_HI.addr] s t) ∧
      (s.memCap ≤ a + 64 → Gives (exec (.scrubStep r []) s) fun t => t.get64 MEM_SCRUB_POS_LO = 0 ∧
        t.get MEM_SCRUB_PASSES = (s.get MEM_SCRUB_PASSES + 1) % 2 ^ 32 ∧ t.memDev = [] ∧ t.store = s.store ∧ t.mode = s.mode)) ∧
    (s.on MEM_SCRUB_CTL_EN = false → exec (.scrubStep r []) s = .next s) ∧
    (s.scAwake n = true →
      (Gives (exec (.dramAlert n true false none) s) fun t => t.get MEM_SC_REPLAY_CAPAR n = min (s.get MEM_SC_REPLAY_CAPAR n + 1) 65535 ∧
        (∀ x < 65536, smGet (fun _ => 0) t.memFails (65536 * n + x) = 0) ∧ OnlyEv [MEM_SC_REPLAY.addr n] s { t with memFails := s.memFails }) ∧
      (2 ≤ smGet (fun _ => 0) s.memFails (65536 * n + x) → s.mode ∉ [0, 7] → s.get GLB_UST_RUNSTATE (scUnit n) ≠ 5 → Gives (exec (.dramAlert n false false (some x)) s) fun t =>
        t.on MEM_SC_STAT_FAILED n = true ∧ bitN (t.get MEM_FAILED_MAP) n = true ∧ t.get GLB_UST_RUNSTATE (scUnit n) = 5 ∧
        t.get GLB_UST_STATE (scUnit n) = 5 ∧ t.mode = 7 ∧ t.on GLB_FATAL_FIRST_VALID = true) ∧
      (Gives (exec (.mr4Read n r true) s) fun t => t.on MEM_SC_STAT_REFRESH_2X n = true ∧ smGet (fun _ => false) t.memHot (2 * n + r) = true ∧
        OnlyEv [MEM_SC_STAT.addr n] s { t with memHot := s.memHot, memCool := s.memCool }) ∧
      (smGet (fun _ => false) s.memHot (2 * n + r) = true → Gives (exec (.mr4Read n r false) s) fun t =>
        smGet (fun _ => false) t.memHot (2 * n + r) = decide (smGet (fun _ => 0) s.memCool (2 * n + r) = 0)) ∧
      (s.on MEM_PANIC_STAT_ANY = false → Gives (exec (.refreshDue n) s) fun t => smGet (fun _ => 0) t.memRefPost n = 0 ∧ t = { s with memRefPost := t.memRefPost }) ∧
      (let far := decide (200 < (s.geti MGT_TDIE_TDIE - s.geti MEM_TRAIN_TEMP_TEMP).natAbs)
       (Gives (exec (.zqCalibration n) s) fun t => t.memDrift = far ∧ OnlyEv [] s { t with memDrift := s.memDrift }) ∧
       (Gives (exec (.dqsTrack n r) s) fun t => t.memDrift = far ∧ OnlyEv [] s { t with memDrift := s.memDrift }))) ∧
    (s.scAwake n = false → ∀ i ∈ [Instr.zqCalibration n, .dqsTrack n r, .refreshDue n, .mr4Read n r true, .dramAlert n true true none], exec i s = .next s) ∧
    (s.on MEM_PORT_STAT_PANIC p = true → s.get MEM_PANIC_LIMIT ≠ 0 →
      (smGet (fun _ => false) s.memPanicLong p = false → Gives (exec (.memPanicLong p) s) fun t => smGet (fun _ => false) t.memPanicLong p = true ∧
        OnlyEv [] s { t with memPanicLong := s.memPanicLong }) ∧
      (smGet (fun _ => false) s.memPanicLong p = true → exec (.memPanicLong p) s = .next s)) ∧
    (s.get MEM_AGE_CRIT ≠ 0 → s.get MEM_AGE_RT ≠ 0 → s.get MEM_AGE_BULK ≠ 0 → s.get MEM_AGE_BACK ≠ 0 → Gives (exec (.requestPromotion c) s) fun t =>
      smGet (fun _ => 0) t.memPromoted c = smGet (fun _ => 0) s.memPromoted c + 1 ∧ t = { s with memPromoted := t.memPromoted }) ∧
    (s.on MEM_SC_STAT_FENCED n = true → s.get GLB_UST_RUNSTATE (scUnit n) ≠ 5 → Gives (exec (.subchannelDrained n) s) fun t =>
      smGet (fun _ => false) t.memSleep n = true ∧ t.get GLB_UST_RUNSTATE (scUnit n) = 0 ∧
      OnlyEv [GLB_UST.addr (scUnit n), GLB_SKEW_MAP.addr (scUnit n / 32)] s { t with memSleep := s.memSleep }) ∧
    (s.on MEM_SC_STAT_FENCED n = false → exec (.subchannelDrained n) s = .next s)

/-- O36. A point composes its next line; sheaves of the press and the display are judged in order; display frames count (R20, R180, R195, R196, R198,
R202, R208, R209, R211, R426, R432). A point that can compose and is at no boundary takes one line: NEXT moves by 1 and its position by its pitch;
enabled, one composed line of that number and repeat joins its lines, disabled none; one that cannot, or outside the modes that compose, does
nothing; at its job's end it keeps NEXT and marks its last line. The oldest submission of Q52 or Q53 leaves its queue and is judged: refused, it
counts and no sheaf joins; accepted, it counts. A vertical blank counts the frame and takes every due display sheaf. A display underrun counts. -/
def Obligations.PointsComposeAndSheavesAreJudged : Prop :=
  ∀ (s : State) (b : Bar) (x : Sub) (l : List Sub),
    (s.composing = false ∨ s.canCompose b = false → exec (.composeLine b) s = .next s) ∧
    (s.composing = true → s.canCompose b = true →
      (s.boundary b = none → Gives (exec (.composeLine b) s) fun t =>
        t.nextLine b = sx 64 (ux 64 (s.nextLine b + 1)) ∧ (t.cp b).cpos = (s.cp b).cpos + (s.cp b).cpitch ∧
        (s.cpOn b = true → ∃ y : CLine, (t.cp b).lines = (s.cp b).lines ++ [y] ∧ y.line = s.nextLine b ∧ y.rep = s.get CMP_CP_REPEAT b ∧ y.cAt = s.line b) ∧
        (s.cpOn b = false → (t.cp b).lines = (s.cp b).lines)) ∧
      (s.pointEnds b = true → Gives (exec (.composeLine b) s) fun t => (t.cp b).endLine = some (s.nextLine b) ∧ t.nextLine b = s.nextLine b ∧
        (t.cp b).lines = (s.cp b).lines)) ∧
    ((s.qu 52).fetched = x :: l →
      let r := (s.setQu 52 { s.qu 52 with fetched := l }).submit (subF64 x 0x18) 0
      Gives (exec .sheafSubmit s) fun t => (t.qu 52).fetched = l ∧ t.get CMP_STAT_LAST = r.2 % 8 ∧
        (r.2 ≠ 0 → t.get CMP_SHEAF_CNT_REFUSED = (s.get CMP_SHEAF_CNT_REFUSED + 1) % 65536 ∧ t.sheaves = s.sheaves) ∧
        (r.2 = 0 → t.get CMP_SHEAF_CNT_ACCEPTED = (s.get CMP_SHEAF_CNT_ACCEPTED + 1) % 65536 ∧ t.sheaves = r.1.sheaves)) ∧
    ((s.qu 52).fetched = [] → exec .sheafSubmit s = .next s) ∧
    ((s.qu 53).fetched = x :: l → Gives (exec .displaySheafSubmit s) fun t => (t.qu 53).fetched = l ∧
      t.get CMP_STAT_DSP_PENDING = t.dsheaves.length % 8 ∧
      (s.ldN (subF64 x 0x18) 4 ≠ 0x31464853 ∨ 4 ≤ s.dsheaves.length → t.dsheaves = s.dsheaves) ∧
      (s.ldN (subF64 x 0x18) 4 = 0x31464853 → s.ldN (subF64 x 0x18 + 4) 2 ≤ 256 → bitN (s.ldN (subF64 x 0x18 + 6) 2) 1 = true → s.dsheaves.length < 4 →
        t.dsheaves.length = s.dsheaves.length + 1 ∧ ∀ h ∈ s.dsheaves, h ∈ t.dsheaves)) ∧
    ((s.qu 53).fetched = [] → exec .displaySheafSubmit s = .next s) ∧
    (let k := (s.get CMP_DSP_FRAME + 1) % 2 ^ 32
     Gives (exec .verticalBlank s) fun t => t.get CMP_DSP_FRAME = k ∧ t.dsheaves = s.dsheaves.filter (fun h => decide (0 < repDiff h.rep k)) ∧
      t.get CMP_STAT_DSP_PENDING = t.dsheaves.length % 8 ∧
      ((∀ h ∈ s.dsheaves, 0 < repDiff h.rep k) → OnlyRegs [CMP_DSP_FRAME.addr, CMP_STAT.addr] s t)) ∧
    (Gives (exec .dspUnderrun s) fun t => t.get CMP_DSP_UNDERRUN = min (s.get CMP_DSP_UNDERRUN + 1) (2 ^ 32 - 1) ∧ OnlyEv [CMP_DSP_UNDERRUN.addr] s t)

/-- O37. Writes of shadowed registers leave the applied value; a point's control register is guarded; reading the pool clears PEAK (R75, R198, R199,
R211, R491). A host write to a register with shadowed fields stands in the shadow, by its fields' types, and leaves every applied value, but that of
a line-clock field whose clock stands, which takes it at once; nothing else changes. A write of CMP_CP_CTL in IDLE or SERVICE at a level other than
1 is taken whole; in another mode only its EN bit is taken. Reading the pool register clears PEAK alone. -/
def Obligations.ComposerRegistersAreShadowed : Prop :=
  ∀ (s : State) (a : Nat) (v : Word) (b : Bar), Hears s →
    (rwsMask a ≠ 0 → Gives (exec (.rwsWrite a v) s) fun t => t.rd a = writeBits a (s.rd a) v ∧ (∀ x, x ≠ a → t.ap x = s.ap x) ∧
      t.ap a = (if isLcField a = true ∧ s.on GEK_LC_CTL_EN ((a - 0x42000) / 128) = false then writeBits a (s.rd a) v else s.ap a) ∧
      OnlyRegs [a] s { t with applied := s.applied }) ∧
    (s.mode ∈ [1, 6] → s.get GLB_COMPAT_LEVEL ≠ 1 → Gives (exec (.cpCtlWrite b v) s) fun t =>
      t.rd (CMP_CP_CTL.addr b) = writeBits (CMP_CP_CTL.addr b) (s.rd (CMP_CP_CTL.addr b)) v ∧ OnlyRegs [CMP_CP_CTL.addr b] s t) ∧
    (s.mode ∉ [1, 6] → Gives (exec (.cpCtlWrite b v) s) fun t => t.get CMP_CP_CTL_EN b = getBits v 0 1 ∧
      t.get CMP_CP_CTL_PS b = s.get CMP_CP_CTL_PS b ∧ t.get CMP_CP_CTL_CSTEP b = s.get CMP_CP_CTL_CSTEP b ∧
      t.get CMP_CP_CTL_CPHASE b = s.get CMP_CP_CTL_CPHASE b ∧ OnlyRegs [CMP_CP_CTL.addr b] s t) ∧
    (Gives (exec .poolPeakRead s) fun t => t.get CMP_POOL_PEAK = 0 ∧ t.get CMP_POOL_FREE = s.get CMP_POOL_FREE ∧ OnlyRegs [CMP_POOL.addr] s t)

/-- O38. The Husk engine: GO and its refusals, completion within W x H bytes of the destination, ABORT (R8, R212, R224, R225, R226, R227, R228). GO
outside SAFE while not BUSY: a surface of no pixels ends at once with RESULT 0; a refused range ends with RESULT 2; else the engine is BUSY with the
command its registers give. GO while BUSY does nothing. A command on a surface of at least one line ends, not BUSY, with RESULT 0 and fewer than W x
H bytes written (within CAP where there is one), with NO_GAIN (1), or with STORE_ERR (3), as its lines are coded; ABORT before the header ends with
RESULT 4, past it with the result of the whole command where DONE is ALREADY_DONE (5). Whatever the end, no byte of the store outside the W x H
bytes at the destination changes. -/
def Obligations.HuskCodesWithinItsSurface : Prop :=
  (∀ s : State, Hears s → s.mode ≠ 7 →
    (s.on HSK_STAT_BUSY = true → exec .hskGo s = .next s) ∧
    (s.on HSK_STAT_BUSY = false →
      let j : HuskJob := ⟨s.get64 HSK_SRC_LO, s.get HSK_STRIDE, s.get HSK_CFG_W, s.get HSK_CFG_RIL, s.get HSK_H, s.get64 HSK_DST_LO, s.get64 HSK_CAP_LO⟩
      (j.w = 0 ∨ j.h = 0 → Gives (exec .hskGo s) fun t => t.get HSK_STAT_RESULT = 0 ∧ t.on HSK_STAT_BUSY = false ∧ t.store = s.store) ∧
      (j.w ≠ 0 → j.h ≠ 0 → s.huskRange j = true → Gives (exec .hskGo s) fun t => t.get HSK_STAT_RESULT = 2 ∧ t.on HSK_STAT_BUSY = false ∧ t.store = s.store) ∧
      (j.w ≠ 0 → j.h ≠ 0 → s.huskRange j = false → Gives (exec .hskGo s) fun t => t.husk = some j ∧ t.on HSK_STAT_BUSY = true ∧
        OnlyRegs [HSK_STAT.addr, HSK_LINE.addr] s { t with husk := s.husk }))) ∧
  (∀ (s : State) (j : HuskJob) (n : Nat), s.husk = some j → 0 < j.h → Hears s →
    let Within (t : State) : Prop := t.on HSK_STAT_BUSY = false ∧ t.husk = none ∧
      ∀ a, (a < j.dst ∨ j.dst + j.w * j.h ≤ a) → smGet (fun _ => (0 : Byte)) t.store a = smGet (fun _ => 0) s.store a
    (Gives (exec .hskComplete s) fun t => Within t ∧ t.get HSK_STAT_RESULT ∈ [0, 1, 3] ∧
      (t.get HSK_STAT_RESULT = 0 → j.w * j.h ≤ 2 ^ 64 → t.get64 HSK_OUT_LO < j.w * j.h ∧ (j.cap ≠ 0 → t.get64 HSK_OUT_LO ≤ j.cap))) ∧
    (n ≤ j.h → Gives (exec (.hskAbort n) s) fun t => Within t ∧ t.get HSK_STAT_RESULT = 4) ∧
    (j.h < n → Gives (exec (.hskAbort n) s) fun t => Within t ∧ t.get HSK_STAT_RESULT ∈ [5, 1, 3])) ∧
  (∀ (s : State) (n : Nat), s.husk = none → exec .hskComplete s = .next s ∧ exec (.hskAbort n) s = .next s)

/-- O39. A tiller screens the oldest line into the drop rings; DONE follows; nozzle entries, head maps and weights written (R230, R233, R234, R236,
R245, R249, R250, R254). With a composed line whose slots are free and no copied nozzle change that waits, outside BOOT and SAFE: the line leaves
the point's lines and joins the outstanding lines of each port of the job; with a slot busy the line waits once and WAIT counts at each busy port;
without a line nothing happens. The oldest outstanding line acknowledged: DONE is the line after it. A nozzle entry written reads as written and is
good again, and nothing but its port's counts changes besides. The update path writes STATE only on RESULT 0 and counts a refusal otherwise. Head
maps are written in IDLE and SERVICE only, weight sets always; reading TL_STAT clears LAT. -/
def Obligations.TillersScreenLinesAndKeepTables : Prop :=
  ∀ (s : State) (b : Bar) (ce ue : List Nat) (p : Port) (t' : Tl) (h : Fin 8) (m : Fin 16) (j : Fin 1572864) (c : Bool) (v : BitVec 32),
    (∀ (l : CLine) (r : List CLine), (s.cp b).lines = l :: r → s.mode ∉ [0, 7] →
      (s.slotBusy b l.line = [] → s.nzHeld = [] → Gives (exec (.screenLine b ce ue) s) fun t => (t.cp b).lines = r ∧ s.mode = t.mode ∧
        ∀ q ∈ s.jobPorts b, smGet (fun _ => []) t.tilOut q = smGet (fun _ => []) s.tilOut q ++ [(l.line, l.cAt)]) ∧
      (s.slotBusy b l.line ≠ [] → (smGet (fun _ => TPoint.empty) s.tilPt b).wait = false → Gives (exec (.screenLine b ce ue) s) fun t =>
        t.cp b = s.cp b ∧ (smGet (fun _ => TPoint.empty) t.tilPt b).wait = true ∧
        ∀ q ∈ s.slotBusy b l.line, t.get TIL_PORT_WAIT q = min (s.get TIL_PORT_WAIT q + 1) (2 ^ 32 - 1)) ∧
      (s.slotBusy b l.line ≠ [] → (smGet (fun _ => TPoint.empty) s.tilPt b).wait = true → exec (.screenLine b ce ue) s = .next s)) ∧
    ((s.cp b).lines = [] → exec (.screenLine b ce ue) s = .next s) ∧
    (∀ (x y : Int) (r : List (Int × Int)), smGet (fun _ => []) s.tilOut p = (x, y) :: r → Gives (exec (.lineComplete p) s) fun t =>
      t.geti64 TIL_PORT_DONE_LO p = sx 64 (ux 64 (x + 1)) ∧ smGet (fun _ => []) t.tilOut p = r ∧
      OnlyRegs [TIL_PORT_DONE_LO.addr p, TIL_PORT_DONE_LO.addr p + 4, TIL_TL_STAT.addr (s.get CMP_CP_CTL_PS (s.get HPL_PORT_CFG_BAR p))] s
        { t with tilOut := s.tilOut }) ∧
    (Hears s → Gives (exec (.nztWrite j v) s) fun t => t.rd (NZT.addr j) = v ∧ t.nzRead j = v ∧
      OnlyRegs [NZT.addr j, TIL_PORT_NZ.addr (j / 12288)] s { t with nzUnc := s.nzUnc } ∧
      ∀ i, i ≠ j.val → smGet (fun _ => false) t.nzUnc i = smGet (fun _ => false) s.nzUnc i) ∧
    (Hears s → getBits v 31 1 = 1 → s.on TIL_NZU_STAT_BUSY = false →
      let i := nzIndex (s.get TIL_NZU_ADDR_PORT) (s.get TIL_NZU_ADDR_NOZZLE)
      let range : Prop := 12288 ≤ s.get TIL_NZU_ADDR_NOZZLE ∨ getBits v 2 2 = 3
      let st := nzState (s.nzRead i)
      (¬ range → st ≠ 3 → st = getBits v 0 2 → Gives (exec (.nzuGo v) s) fun t => t.get TIL_NZU_STAT_RESULT = 0 ∧ nzState (t.nzRead i) = getBits v 2 2 ∧
        (getBits v 4 1 = 1 → getBits (t.nzRead i) 0 10 = getBits v 16 10) ∧ t.get TIL_NZU_CNT_DONE = (s.get TIL_NZU_CNT_DONE + 1) % 65536 ∧
        ∀ k < 1572864, k ≠ i → t.nzRead k = s.nzRead k) ∧
      ((range ∨ st = 3 ∨ st ≠ getBits v 0 2) → Gives (exec (.nzuGo v) s) fun t =>
        t.get TIL_NZU_STAT_RESULT = (if 12288 ≤ s.get TIL_NZU_ADDR_NOZZLE ∨ getBits v 2 2 = 3 then 3 else if st = 3 then 2 else 1) ∧
        t.get TIL_NZU_CNT_REFUSED = (s.get TIL_NZU_CNT_REFUSED + 1) % 65536 ∧ OnlyRegs [TIL_NZU_STAT.addr, TIL_NZU_CNT.addr] s t)) ∧
    (getBits v 31 1 = 0 ∨ s.on TIL_NZU_STAT_BUSY = true → exec (.nzuGo v) s = .next s) ∧
    (Hears s → s.mode ∈ [1, 6] → Gives (exec (.headMapWrite p h c v) s) fun t =>
      let a := (if c then TIL_HEAD_CFG else TIL_HEAD_COL).addr p h
      t.rd a = writeBits a (s.rd a) v ∧ t.get TIL_PORT_CFG_NNOZ p = min 12288 (t.headFirst p 8) ∧
      OnlyEv [a, TIL_PORT_CFG.addr p, TIL_PORT_SLOT.addr p, TIL_STAT.addr, TIL_MAP_GAPS.addr] s t) ∧
    (Hears s → s.mode ∉ [1, 6] → Gives (exec (.headMapWrite p h c v) s) fun t => t.on TIL_STAT_CFG_ERR = true ∧ OnlyRegs [TIL_STAT.addr] s t) ∧
    (Hears s → Gives (exec (.nwSetWrite t' m c v) s) fun t =>
      let a := (if c then TIL_TL_NW1 else TIL_TL_NW0).addr t' m
      t.rd a = writeBits a (s.rd a) v ∧ OnlyRegs [a] s t) ∧
    (Hears s → Gives (exec (.tilStatRead t') s) fun t => t.get TIL_TL_STAT_LAT t' = 0 ∧ t.get TIL_TL_STAT_TBL_BAD t' = s.get TIL_TL_STAT_TBL_BAD t' ∧
      OnlyRegs [TIL_TL_STAT.addr t'] s t)

/-- O40. A head port is assigned, trains through LOCK and IDENT, fails, retrains, and goes down (R255, R256, R267, R279, R281). A write of the port's
configuration that changes EN or BAR outside IDLE and SERVICE, or gives a bar a seventeenth port, sets CFG_ERR alone; an accepted one stands as its
fields' types say and NPORTS of its bar is the number of its enabled ports. TRAIN takes a link from DOWN or FAULT to LOCK and does nothing else in
another state. Block lock takes LOCK to IDENT. The end of LOCK's or IDENT's time gives FAULT and counts an attempt. AUTO retrains a link in FAULT.
The host's DOWN, a lost lock and a missing STATUS give DOWN; the last two count a loss; lines sent and not strobed are given up. No other port's
link changes. -/
def Obligations.HeadLinksTrain : Prop :=
  ∀ (s : State) (p : Port) (v : BitVec 32),
    let l := s.get HPL_PORT_STAT_LINK p
    let Links (x : Nat) (t : State) : Prop := t.get HPL_PORT_STAT_LINK p = x ∧ (∀ q < 128, q ≠ p.val → t.get HPL_PORT_STAT_LINK q = s.get HPL_PORT_STAT_LINK q) ∧
      t.mode = s.mode ∧ bitN (t.get HPL_UP_MAP (p / 32)) (p % 32) = (x == 4)
    let changes : Prop := getBits v 0 1 ≠ s.get HPL_PORT_CFG_EN p ∨ getBits v 1 4 ≠ s.get HPL_PORT_CFG_BAR p
    let full : Prop := getBits v 0 1 = 1 ∧ s.portOf p (getBits v 1 4) = false ∧ 16 ≤ s.get HPL_BAR_STAT_NPORTS (getBits v 1 4)
    (Hears s →
      (changes → (s.mode ∉ [1, 6] ∨ full) → Gives (exec (.portCfgWrite p v) s) fun t => t.on HPL_PORT_STAT_CFG_ERR p = true ∧ OnlyRegs [HPL_PORT_STAT.addr p] s t) ∧
      ((¬ changes ∨ (s.mode ∈ [1, 6] ∧ ¬ full)) → Gives (exec (.portCfgWrite p v) s) fun t =>
        t.rd (HPL_PORT_CFG.addr p) = writeBits (HPL_PORT_CFG.addr p) (s.rd (HPL_PORT_CFG.addr p)) v ∧
        t.get HPL_BAR_STAT_NPORTS (getBits v 1 4) = (t.portsFound (getBits v 1 4)).length % 32 ∧ t.mode = s.mode) ∧
      (l = 0 ∨ l = 5 → Gives (exec (.linkTrain p) s) fun t => Links 1 t ∧ (t.hp p).ests = [] ∧ (t.hp p).rounds = 0 ∧ (t.hp p).ping = none) ∧
      (l ≠ 0 → l ≠ 5 → exec (.linkTrain p) s = .next s) ∧
      (Gives (exec (.linkDownCmd p) s) fun t => Links 0 t ∧ t.get HPL_PORT_CNT_DOWN_LOSS p = s.get HPL_PORT_CNT_DOWN_LOSS p ∧ (l = 4 → (t.hp p).sent = []))) ∧
    (l = 1 → Gives (exec (.linkBlockLock p) s) fun t => Links 2 t) ∧ (l ≠ 1 → exec (.linkBlockLock p) s = .next s) ∧
    (l = 1 ∨ l = 2 → Gives (exec (.linkTrainTimeout p) s) fun t => Links 5 t ∧
      t.get HPL_PORT_STAT_ATTEMPTS p = min (s.get HPL_PORT_STAT_ATTEMPTS p + 1) 255) ∧
    (l = 3 → (s.hp p).rounds ≠ 3 → Gives (exec (.linkTrainTimeout p) s) fun t => (t.hp p).rounds = (s.hp p).rounds + 1 ∧ (t.hp p).ests = [] ∧
      (t.hp p).ping = some (s.hp p).syncSeq ∧ t = { s with hport := t.hport }) ∧
    (l = 3 → (s.hp p).rounds = 3 → Gives (exec (.linkTrainTimeout p) s) fun t => Links 5 t) ∧
    (l ∉ [1, 2, 3] → exec (.linkTrainTimeout p) s = .next s) ∧
    (s.on HPL_PORT_CFG_AUTO p = true → s.on HPL_PORT_CFG_EN p = true → l = 5 → Gives (exec (.linkAutoRetrain p) s) fun t => Links 1 t) ∧
    (s.on HPL_PORT_CFG_AUTO p = false ∨ s.on HPL_PORT_CFG_EN p = false → exec (.linkAutoRetrain p) s = .next s) ∧
    (l = 4 → Gives (exec (.linkLockLoss p) s) fun t => Links 0 t ∧ (t.hp p).sent = [] ∧ (t.hp p).lost = true ∧
      t.get HPL_PORT_CNT_DOWN_LOSS p = min (s.get HPL_PORT_CNT_DOWN_LOSS p + 1) 65535) ∧
    (l = 4 → s.get HPL_PORT_STAT_TMO p ≠ 0 → Gives (exec (.statusTimeout p) s) fun t => Links 0 t ∧ (t.hp p).sent = [] ∧ (t.hp p).lost = true ∧
      t.get HPL_PORT_CNT_DOWN_LOSS p = min (s.get HPL_PORT_CNT_DOWN_LOSS p + 1) 65535) ∧
    (l ≠ 4 → exec (.linkLockLoss p) s = .next s ∧ exec (.statusTimeout p) s = .next s)

/-- O41. STATUS, NAKs and unknown words at a head port (R258, R259, R264, R265, R266, R267, R271, R272, R273, R279). A STATUS that fails its check
counts alone; outside IDENT, MEASURE and UP it is ignored. In IDENT a good STATUS of a supported board leads to MEASURE with a PING out, another
leaves IDENT. In UP one of the same board updates the fault and identity registers and the link stays UP; one of another board takes the link down.
NAK CORRUPT of a line held, before its deadline and under RS_MAX, resends that line and counts; else the NAK counts alone. NAK BLANKED counts a
blanked line and the port's own count; NAK STROBE_LOST of a line the engine discarded counts only there. NAK CFG_CORRUPT marks the frame for
resending. An unknown word counts alone. -/
def Obligations.HeadLinksReceive : Prop :=
  ∀ (s : State) (p : Port) (st : StatusIn) (x : BitVec 32) (q : BitVec 16),
    let l := s.get HPL_PORT_STAT_LINK p
    (l ∉ [2, 3, 4] → exec (.statusRx p st) s = .next s) ∧
    (l ∈ [2, 3, 4] → st.good = false → Gives (exec (.statusRx p st) s) fun t =>
      t.get HPL_PORT_CNT_ERR_UP_CRC p = min (s.get HPL_PORT_CNT_ERR_UP_CRC p + 1) 65535 ∧ OnlyRegs [HPL_PORT_CNT_ERR.addr p] s t) ∧
    (l = 2 → st.good = true →
      let ok : Prop := st.version = 1 ∧ 1 ≤ st.nheads.toNat ∧ st.nheads.toNat ≤ 8 ∧ 32 ≤ st.buflines.toNat ∧ st.buflines.toNat ≤ 256
      (ok → Gives (exec (.statusRx p st) s) fun t => t.get HPL_PORT_STAT_LINK p = 3 ∧ (t.hp p).ping = some (s.hp p).syncSeq ∧ (t.hp p).naks = st.blanks.toNat) ∧
      (¬ ok → Gives (exec (.statusRx p st) s) fun t => t.get HPL_PORT_STAT_LINK p = 2)) ∧
    (l = 4 → st.good = true → s.identChanged p st = false → Gives (exec (.statusRx p st) s) fun t => t.get HPL_PORT_STAT_LINK p = 4 ∧
      t.get HPL_PORT_FAULT_FAULT p = st.fault.toNat ∧ t.get HPL_PORT_HBINFO_BUFLINES p = st.buflines.toNat ∧ (t.hp p).naks = st.blanks.toNat ∧
      t.mode = s.mode) ∧
    (l = 4 → st.good = true → s.identChanged p st = true → Gives (exec (.statusRx p st) s) fun t => t.get HPL_PORT_STAT_LINK p = 0 ∧ (t.hp p).sent = []) ∧
    (let h := s.hp p
     ∀ y : SentLine, h.sent.find? (fun l => ux 32 l.line == x.toNat) = some y →
      (s.line (s.get HPL_PORT_CFG_BAR p) ≤ y.line - 1 → y.resent < s.get HPL_PORT_RSCFG_RS_MAX p → l = 4 → Gives (exec (.nakCorruptRx p x) s) fun t =>
        (t.hp p).out = frameWords 1 (y.flags + 4) (ux 32 y.line) y.words ∧ t.get HPL_PORT_CNT_RESEND p = min (s.get HPL_PORT_CNT_RESEND p + 1) (2 ^ 32 - 1) ∧
        OnlyEv [HPL_PORT_CNT_RESEND.addr p] s { t with hport := s.hport }) ∧
      ((y.line - 1 < s.line (s.get HPL_PORT_CFG_BAR p) ∨ s.get HPL_PORT_RSCFG_RS_MAX p ≤ y.resent ∨ l ≠ 4) → Gives (exec (.nakCorruptRx p x) s) fun t =>
        t.get HPL_PORT_CNT_NAK_NAKS p = min (s.get HPL_PORT_CNT_NAK_NAKS p + 1) 65535 ∧ OnlyRegs [HPL_PORT_CNT_NAK.addr p] s t)) ∧
    (Gives (exec (.nakBlankedRx p x) s) fun t => (t.hp p).naks = ((s.hp p).naks + 1) % 65536 ∧
      t.get HPL_PORT_CNT_BLANK p = min (s.get HPL_PORT_CNT_BLANK p + 1) (2 ^ 32 - 1) ∧ t.mode = s.mode) ∧
    ((s.hp p).disc.contains (s.fullLine p x) = true → Gives (exec (.nakStrobeLostRx p x) s) fun t =>
      (t.hp p).naks = ((s.hp p).naks + 1) % 65536 ∧ t = { s with hport := t.hport } ∧ ∀ k : Port, k ≠ p → t.hp k = s.hp k) ∧
    ((s.hp p).disc.contains (s.fullLine p x) = false → Gives (exec (.nakStrobeLostRx p x) s) fun t =>
      t.get HPL_PORT_CNT_BLANK p = min (s.get HPL_PORT_CNT_BLANK p + 1) (2 ^ 32 - 1)) ∧
    (∀ f : CfgFrame, (s.hp p).cfgs = [f] → f.seq = q.toNat → f.resends < 3 → Gives (exec (.nakCfgCorruptRx p q) s) fun t =>
      (t.hp p).cfgs = [{ f with wait := true }] ∧ t.get HPL_PORT_CNT_NAK_CFG p = min (s.get HPL_PORT_CNT_NAK_CFG p + 1) 65535 ∧
      OnlyRegs [HPL_PORT_CNT_NAK.addr p] s { t with hport := s.hport }) ∧
    (Gives (exec (.unknownWordRx p) s) fun t => t.get HPL_PORT_CNT_ERR_UNKNOWN p = min (s.get HPL_PORT_CNT_ERR_UNKNOWN p + 1) 65535 ∧
      OnlyRegs [HPL_PORT_CNT_ERR.addr p] s t)

/-- O42. A port engine sends its next released line, a PING, and the time, and nothing when its rules forbid it (R26, R107, R257, R261, R264, R269).
When the port may send lines and its next line is released and ready, without a substitution the words of its ring slot, if good, go out as a LINE
frame with the line's low 32 bits, the line joins the lines sent and SENT is the line after it; a BLANK substitution goes out with flag 1 and no
words. When one of these rules forbids it, nothing changes. With the link UP and a mode that carries SYNC, the PING period sends a SYNC frame of
kind PING that the port waits for, the TIME period one with PTP time and bar position; both take the next SEQ. Otherwise nothing changes. -/
def Obligations.HeadLinksSend : Prop :=
  ∀ (s : State) (p : Port),
    let x := s.nextSend p
    let h := s.hp p
    let may : Prop := s.canLine p = true ∧ s.released p x = true ∧ s.lineReady p x = true
    let Sent (flags : Nat) (w : List Dword) (t : State) : Prop := (t.hp p).out = frameWords 1 flags (ux 32 x) w ∧ (t.hp p).sent = h.sent ++ [⟨x, flags, w, 0⟩] ∧
      (t.hp p).next = x + 1 ∧ t.geti64 HPL_PORT_SENT_LO p = sx 64 (ux 64 (x + 1)) ∧
      OnlyRegs [HPL_PORT_SENT_LO.addr p, HPL_PORT_SENT_HI.addr p] s { t with hport := s.hport } ∧ ∀ k : Port, k ≠ p → t.hp k = s.hp k
    (¬ may → exec (.lineFrameSend p) s = .next s) ∧
    (may → s.subOf (s.get HPL_PORT_CFG_BAR p) x = none → s.bad (s.slotAt p x) (8 * (s.ringWords p x).length) = false → (s.ringWords p x).filter oddWord = [] →
      Gives (exec (.lineFrameSend p) s) fun t => Sent 0 (s.ringWords p x) t) ∧
    (∀ d : Nat, may → s.subOf (s.get HPL_PORT_CFG_BAR p) x = some (0, d) → Gives (exec (.lineFrameSend p) s) fun t => Sent 1 [] t) ∧
    (s.canCtl p = true → s.get HPL_CTL_PING_PER ≠ 0 → Gives (exec (.pingPeriod p) s) fun t => (t.hp p).ping = some h.syncSeq ∧
      (t.hp p).syncSeq = (h.syncSeq + 1) % 65536 ∧ (t.hp p).out = frameWords 3 0 h.syncSeq [1] ∧ t = { s with hport := t.hport }) ∧
    (s.canCtl p = true → s.get HPL_CTL_TIME_PER ≠ 0 → Gives (exec (.timeSyncPeriod p) s) fun t => (t.hp p).ping = h.ping ∧
      (t.hp p).syncSeq = (h.syncSeq + 1) % 65536 ∧
      (t.hp p).out = frameWords 3 0 h.syncSeq [2, BitVec.ofNat 64 s.stamp, BitVec.ofInt 64 (s.barPos (s.get HPL_PORT_CFG_BAR p))] ∧ t = { s with hport := t.hport }) ∧
    (s.canCtl p = false → exec (.pingPeriod p) s = .next s ∧ exec (.timeSyncPeriod p) s = .next s)

/-- O43. Camera configuration and its guard, CoaXPress links, CSI lanes, the trigger pin, overload, and reads that clear (R282, R283, R284, R285, R287,
R288, R289, R293, R297, R313). Outside IDLE and SERVICE a write of the ISP configuration sets CFG_ERR of the unit it names alone. A write of an
unguarded unit register stands as its fields' types say, but for the trigger clock's registers while it runs, which ignore it. Discovery brings an
enabled link UP or DOWN; a lost sync takes an UP link down and counts. Packets of an UP link count: events, and CRC errors, which spoil the line of
each unit on the link. CSI lanes' sync shows. The trigger pin falls. A stall by overload alone ends. Reading the latencies restores their reset
value, reading the load clears PEAK. -/
def Obligations.CameraSourcesAndConfiguration : Prop :=
  ∀ (s : State) (u : Cu) (l : Fin 8) (p : Fin 4) (o : Nat) (v : BitVec 32) (b : Bool),
    (Hears s → s.mode ∉ [1, 6] → Gives (exec (.camConfigWrite 0 v) s) fun t => t.on CAM_U_STAT_CFG_ERR (getBits v 0 3) = true ∧
      OnlyRegs [CAM_U_STAT.addr (getBits v 0 3)] s t) ∧
    (Hears s → o < 1024 → o % 4 = 0 → o ≠ 0 → camGuard o = 0 →
      let a := CAM_U_CFG.addr u + o
      let c := Instr.camConfigWrite (BitVec.ofNat 14 (a - CAM_ISP_CFG.addr)) v
      ((s.on CAM_U_CFG_TEN u = false ∨ o < 0x20 ∨ 0x30 < o) → Gives (exec c s) fun t => t.rd a = writeBits a (s.rd a) v ∧ OnlyRegs [a] s t) ∧
      (s.on CAM_U_CFG_TEN u = true → 0x20 ≤ o → o ≤ 0x30 → exec c s = .next s)) ∧
    (s.on CAM_CX_CFG_EN l = true → s.get CAM_CX_STAT_LINK l ≠ 2 → smGet (fun _ => false) s.domOff 4 = false →
      (Gives (exec (.cxDiscovery l true) s) fun t => t.get CAM_CX_STAT_LINK l = 2 ∧ t.mode = s.mode ∧
        ∀ k < 8, k ≠ l.val → t.get CAM_CX_STAT_LINK k = s.get CAM_CX_STAT_LINK k) ∧
      (Gives (exec (.cxDiscovery l false) s) fun t => t.get CAM_CX_STAT_LINK l = 0 ∧ OnlyRegs [CAM_CX_STAT.addr l] s t)) ∧
    (s.get CAM_CX_STAT_LINK l = 2 → exec (.cxDiscovery l b) s = .next s) ∧
    (s.get CAM_CX_STAT_LINK l = 2 → Gives (exec (.cxSyncLoss l) s) fun t => t.get CAM_CX_STAT_LINK l = 0 ∧ t.mode = s.mode ∧
      t.get CAM_CX_ERR_LOSS l = min (s.get CAM_CX_ERR_LOSS l + 1) 65535) ∧
    (s.get CAM_CX_STAT_LINK l = 0 → exec (.cxSyncLoss l) s = .next s) ∧
    (s.get CAM_CX_STAT_LINK l = 2 →
      (Gives (exec (.cxPacketRx l false true) s) fun t => t.get CAM_CX_OTHER_PKTS l = (s.get CAM_CX_OTHER_PKTS l + 1) % 2 ^ 32 ∧ OnlyRegs [CAM_CX_OTHER.addr l] s t) ∧
      (Gives (exec (.cxPacketRx l false false) s) fun t => t.get CAM_CX_ERR_CRC l = min (s.get CAM_CX_ERR_CRC l + 1) 65535 ∧ OnlyRegs [CAM_CX_ERR.addr l] s t) ∧
      (exec (.cxPacketRx l true true) s = .next s) ∧
      (Gives (exec (.cxPacketRx l true false) s) fun t => t.get CAM_CX_ERR_CRC l = min (s.get CAM_CX_ERR_CRC l + 1) 65535 ∧
        OnlyEv [CAM_CX_ERR.addr l] s { t with cam := s.cam } ∧
        ∀ k < 4, t.cm k = if s.camOn k && (s.camLinks k).contains l.val then { s.cm k with bad := true } else s.cm k)) ∧
    (s.get CAM_CX_STAT_LINK l ≠ 2 → ∀ x y : Bool, exec (.cxPacketRx l x y) s = .next s) ∧
    (s.on CAM_CS_CFG_EN p = true → Gives (exec (.csiLaneSync p b) s) fun t => t.on CAM_CS_STAT_SYNC p = b ∧ t.on CAM_U_STAT_UP (4 + p) = b ∧ t.mode = s.mode) ∧
    (s.on CAM_CS_CFG_EN p = false → exec (.csiLaneSync p b) s = .next s) ∧
    (Gives (exec (.camTrigPinEnd u) s) fun t => smGet (fun _ => false) t.camPin u = false ∧ t = { s with camPin := t.camPin } ∧
      ∀ k, k ≠ u.val → smGet (fun _ => false) t.camPin k = smGet (fun _ => false) s.camPin k) ∧
    (s.stallCauses (camUnit u) = [2] → s.get GLB_UST_RUNSTATE (camUnit u) = 3 → Gives (exec (.camOverloadEnd u) s) fun t =>
      t.get GLB_UST_RUNSTATE (camUnit u) = (if (s.cm u).active then 2 else 1) ∧ t.stallCauses (camUnit u) = []) ∧
    (2 ∉ s.stallCauses (camUnit u) → exec (.camOverloadEnd u) s = .next s) ∧
    (Hears s → smGet (fun _ => []) s.latched 0 = [] →
      (Gives (exec (.camLatRead u) s) fun t => t.rd (CAM_U_LAT.addr u) = resetAt (CAM_U_LAT.addr u) ∧ OnlyRegs [CAM_U_LAT.addr u] s t) ∧
      (Gives (exec .ispLoadRead s) fun t => t.get CAM_ISP_LOAD_PEAK = 0 ∧ OnlyRegs [CAM_ISP_LOAD.addr] s { t with ispWin := s.ispWin }))

/-- O44. Camera triggers and their slots, lines, missing lines, CSI frames, the ISP's next line, a frame completed (R287, R288, R290, R292, R294, R295,
R297, R298, R307). C at COMPARE of a running trigger clock, MINGAP after the last trigger and with none delayed, issues one trigger: TCOUNT and
COMPARE move by the k compares passed, and a slot of that number joins the queue; below COMPARE nothing happens; a delayed trigger is issued MINGAP
after the last. An area position reached in a new repeat joins the area triggers. A line of a waiting slot past LINE_MIN closes the slot, and so
does LINE_TMO. CSI: a frame start begins a frame, a good packet of the port's channel and type adds a line, a frame end ends it, other packets
count. The ISP takes one line of the unit it picks; a ready frame leaves its unit and sets its latch. -/
def Obligations.CameraTriggersLinesAndFrames : Prop :=
  (∀ (s : State) (u : Cu) (dt : Nat),
    let z := s.elapse dt
    let k := ((z.camFine u - z.camCmp u) / z.camPitch u).toNat + 1
    let n := z.geti64 CAM_U_TCOUNT_LO u + k - 1
    (z.camTrig u = false ∨ z.camFine u < z.camCmp u → exec (.cameraTrigger u dt) s = .next z) ∧
    (z.camTrig u = true → z.camPitch u ≠ 0 → (∀ h, (z.cm u).hwm = some h → h < z.camFine u) → z.camCmp u ≤ z.camFine u → (z.cm u).delayed = none →
      (∀ m t, (z.cm u).last = some (m, t) → z.get CAM_U_MINGAP u * 4 ≤ (z.clk - t) * 5) → Gives (exec (.cameraTrigger u dt) s) fun t =>
        t.geti64 CAM_U_TCOUNT_LO u = sx 64 (ux 64 (n + 1)) ∧ t.camCmp u = sx 96 (ux 96 (z.camCmp u + k * z.camPitch u)) ∧
        (t.cm u).last = some (n, z.clk) ∧ ∃ x : CamSlot, (t.cm u).slots = (z.cm u).slots ++ [x] ∧ x.n = n ∧ x.clk = z.clk ∧ x.flags = 0) ∧
    (∀ (m : Int) (t0 : Nat), (s.cm u).delayed = some n → (s.cm u).last = some (m, t0) → s.camTrig u = true → Gives (exec (.cameraDelayedTrigger u) s) fun t =>
      (t.cm u).delayed = none ∧ (t.cm u).last = some (n, t.clk) ∧ t0 + cdiv (s.get CAM_U_MINGAP u * 4) 5 ≤ t.clk ∧ s.clk ≤ t.clk) ∧
    ((s.cm u).delayed = none → exec (.cameraDelayedTrigger u) s = .next s) ∧
    (∀ (i : Fin 16) (r : Nat), z.camOn u = true → z.camArea u = true → i.val < z.get CAM_U_NAT_NAT u →
      z.camIndex u (z.camPos u - z.get CAM_U_AT_POS u i) = some r → smGet (fun _ => 0) (z.cm u).atDone i = 0 →
      Gives (exec (.areaTrigger u i dt) s) fun t => smGet (fun _ => 0) (t.cm u).atDone i = r + 1 ∧ (t.cm u).atrig.length = (z.cm u).atrig.length + 1)) ∧
  (∀ (s : State) (u : Tn) (px : List (BitVec 16)) (dt : Nat) (y : CamSlot) (l : List CamSlot),
    let z := s.elapse dt
    (z.cm u).slots = y :: l →
      (z.camOn u = true → z.on CAM_U_STAT_UP u = true → z.camArea u = false → y.clk + 800 * z.get CAM_U_LINEWIN_LINE_MIN u ≤ z.clk →
        Gives (exec (.cameraLineRx u px dt) s) fun t => (t.cm u).slots = l ∧ (t.cm u).bad = false) ∧
      (z.camOn u = false → Gives (exec (.cameraLineRx u px dt) s) fun t => (t.cm u).slots = y :: l ∧ t = { z with cam := t.cam }) ∧
      (y.clk + 800 * z.get CAM_U_LINEWIN_LINE_TMO u ≤ z.clk → Gives (exec (.cameraLineTimeout u dt) s) fun t => (t.cm u).slots = l) ∧
      (z.clk < y.clk + 800 * z.get CAM_U_LINEWIN_LINE_TMO u → exec (.cameraLineTimeout u dt) s = .next z)) ∧
  (∀ (s : State) (p : Fin 4) (vc : BitVec 4) (ty : BitVec 6) (px : List (BitVec 16)) (dt : Nat),
    let z := s.elapse dt
    let u := 4 + p.val
    (z.on CAM_CS_CFG_EN p = false → exec (.csiPacketRx p 0 vc ty true false px dt) s = .next z ∧ exec (.csiFrameStart p 0 vc dt) s = .next z ∧
      exec (.csiFrameEnd p 0 vc dt) s = .next z) ∧
    (z.on CAM_CS_CFG_EN p = true → vc.toNat ≠ z.get CAM_CS_CFG_VC p →
      ∀ c ∈ [Instr.csiPacketRx p 0 vc ty true false px dt, .csiFrameStart p 0 vc dt, .csiFrameEnd p 0 vc dt], Gives (exec c s) fun t =>
        t.get CAM_CS_OTHER_PKTS p = (z.get CAM_CS_OTHER_PKTS p + 1) % 2 ^ 32 ∧ OnlyRegs [CAM_CS_OTHER.addr p] z t) ∧
    (z.on CAM_CS_CFG_EN p = true → vc.toNat = z.get CAM_CS_CFG_VC p →
      (z.camOn u = true → z.on CAM_U_STAT_UP u = true → Gives (exec (.csiFrameStart p 0 vc dt) s) fun t => t.on CAM_CS_STAT_IN_FRAME p = true ∧
        t.get CAM_U_SEQ u = (z.get CAM_U_SEQ u + 1) % 2 ^ 32 ∧ (t.cm u).frames.length = (z.cm u).frames.length + 1) ∧
      (∀ f : CamFrame, z.openFrame u = some f → f.lines.length < z.get CAM_U_SIZE_H u → ty.toNat = z.get CAM_CS_CFG_DT p → ty.toNat ≠ 2 → ty.toNat ≠ 3 →
        z.camOn u = true → z.on CAM_CS_STAT_IN_FRAME p = true → Gives (exec (.csiPacketRx p 0 vc ty true false px dt) s) fun t =>
          ∃ g : CamFrame, t.openFrame u = some g ∧ g.seq = f.seq ∧ g.lines.length = f.lines.length + 1) ∧
      (Gives (exec (.csiFrameEnd p 0 vc dt) s) fun t => t.on CAM_CS_STAT_IN_FRAME p = false ∧ t.openFrame u = none))) ∧
  (∀ (s : State) (u : Cu) (dt : Nat),
    let z := (s.elapse dt).ispLoad
    (z.ispPick = none → exec (.ispLine dt) s = .next z) ∧
    (∀ k : Nat, z.ispPick = some k → Gives (exec (.ispLine dt) s) fun t => (t.cm k).isp = (z.cm k).isp + 1) ∧
    (∀ (f : CamFrame) (l : List CamFrame), (s.cm u).frames = f :: l →
      (s.frameReady u f = true → Gives (exec (.frameComplete u) s) fun t => (∀ g ∈ (t.cm u).frames, g.seq ≠ f.seq) ∧
        ∀ e < 28, bitN (t.get ENG_EVLATCH2 e) u = true) ∧
      (s.frameReady u f = false → exec (.frameComplete u) s = .next s)) ∧
    ((s.cm u).frames = [] → exec (.frameComplete u) s = .next s))

/-- O45. The camera control mailbox and settings sets: taken, answered, refused, timed out (R286, R309, R310, R311, R313). GO of a kind the unit serves
makes the mailbox BUSY with the transaction; of another kind it ends with RESULT 3; without GO or while BUSY nothing happens. An answer ends it with
RESULT 0, with a read's data, or 1 on a NAK; the time-out with RESULT 2; without a transaction nothing happens. COMMIT while a set is in progress
gives RESULT 1 alone; a set with number 0, more than 64 items or an item that does not fit gives RESULT 2 and no set; a good one is pending. The
camera's answers count its items; the last ends BUSY at that moment; a NAK ends the set with RESULT 3, a missing answer with 4, and nothing of it
stays pending. -/
def Obligations.CameraControlAndSettingsSets : Prop :=
  (∀ (s : State) (u : Cu) (v d : BitVec 32), Hears s →
    (getBits v 0 1 = 0 ∨ s.on CAM_U_CTRL_STAT_BUSY u = true → exec (.camCtrlGo u v) s = .next s) ∧
    (getBits v 0 1 = 1 → s.on CAM_U_CTRL_STAT_BUSY u = false →
      (camKind u (getBits v 2 2) = true → Gives (exec (.camCtrlGo u v) s) fun t => t.on CAM_U_CTRL_STAT_BUSY u = true ∧ (t.cm u).ctrl = some v ∧
        OnlyRegs [CAM_U_CTRL_STAT.addr u] s { t with cam := s.cam }) ∧
      (camKind u (getBits v 2 2) = false → Gives (exec (.camCtrlGo u v) s) fun t => t.get CAM_U_CTRL_STAT_RESULT u = 3 ∧ t.on CAM_U_CTRL_STAT_BUSY u = false ∧
        (t.cm u).ctrl = none)) ∧
    ((s.cm u).ctrl = some v →
      (Gives (exec (.camCtrlDone u true d) s) fun t => t.get CAM_U_CTRL_STAT_RESULT u = 1 ∧ t.on CAM_U_CTRL_STAT_BUSY u = false ∧ (t.cm u).ctrl = none ∧
        OnlyEv [CAM_U_CTRL_STAT.addr u] s { t with cam := s.cam }) ∧
      (Gives (exec (.camCtrlDone u false d) s) fun t => t.get CAM_U_CTRL_STAT_RESULT u = 0 ∧ t.on CAM_U_CTRL_STAT_BUSY u = false ∧ (t.cm u).ctrl = none ∧
        t.rd (CAM_U_CTRL_DATA.addr u) = (if getBits v 1 1 = 0 then d else s.rd (CAM_U_CTRL_DATA.addr u)) ∧
        OnlyRegs [CAM_U_CTRL_STAT.addr u, CAM_U_CTRL_DATA.addr u] s { t with cam := s.cam }) ∧
      (Gives (exec (.camCtrlTimeout u) s) fun t => t.get CAM_U_CTRL_STAT_RESULT u = 2 ∧ t.on CAM_U_CTRL_STAT_BUSY u = false ∧ (t.cm u).ctrl = none)) ∧
    ((s.cm u).ctrl = none → exec (.camCtrlDone u true d) s = .next s ∧ exec (.camCtrlTimeout u) s = .next s)) ∧
  (∀ (s : State) (u : Cu), Hears s →
    let a := s.get64 CAM_U_SET_LO u
    let n := s.ldN (a + 2) 2
    let items := (List.range (min n 64)).map fun i =>
      let b := a + 16 + 16 * i
      (s.ldN b 1, s.ldN (b + 1) 1, s.ldN (b + 2) 1, s.ldN (b + 4) 4, s.ldN (b + 8) 4)
    let busy : Prop := s.on CAM_U_SET_STAT_BUSY u = true ∨ s.on CAM_U_SET_STAT_PENDING u = true
    let bad : Prop := s.ldN a 2 = 0 ∨ 64 < n ∨ items.all (setItemFits u) = false
    (busy → Gives (exec (.camSetCommit u) s) fun t => t.get CAM_U_SET_STAT_RESULT u = 1 ∧ OnlyRegs [CAM_U_SET_STAT.addr u] s t) ∧
    (¬ busy → bad → Gives (exec (.camSetCommit u) s) fun t => t.get CAM_U_SET_STAT_RESULT u = 2 ∧ t.on CAM_U_SET_STAT_PENDING u = false ∧ t.cam = s.cam) ∧
    (¬ busy → ¬ bad → Gives (exec (.camSetCommit u) s) fun t => t.get CAM_U_SET_STAT_RESULT u = 0 ∧ t.on CAM_U_SET_STAT_PENDING u = true ∧
      t.on CAM_U_SET_STAT_READ u = true ∧ ∃ x : CamSet, (t.cm u).cset = some x ∧ x.num = s.ldN a 2 ∧ x.items = items ∧ x.sent = 0)) ∧
  (∀ (s : State) (u : Cu) (dt : Nat) (x : CamSet),
    let z := s.elapse dt
    (z.cm u).cset = some x → x.tc = none →
      (x.sent + 1 ≠ x.cams → Gives (exec (.camSetItemAck u false dt) s) fun t => (t.cm u).cset = some { x with sent := x.sent + 1 } ∧ t = { z with cam := t.cam }) ∧
      (x.sent + 1 = x.cams → Gives (exec (.camSetItemAck u false dt) s) fun t => (t.cm u).cset = some { x with sent := x.sent + 1, tc := some z.clk } ∧
        t.on CAM_U_SET_STAT_BUSY u = false ∧ OnlyRegs [CAM_U_SET_STAT.addr u] z { t with cam := z.cam }) ∧
      (Gives (exec (.camSetItemAck u true dt) s) fun t => t.get CAM_U_SET_STAT_RESULT u = 3 ∧ t.on CAM_U_SET_STAT_PENDING u = false ∧
        t.on CAM_U_SET_STAT_BUSY u = false ∧ (t.cm u).cset = none ∧ OnlyEv [CAM_U_SET_STAT.addr u] z { t with cam := z.cam })) ∧
  (∀ (s : State) (u : Cu) (x : CamSet), (s.cm u).cset = some x → x.tc = none → Gives (exec (.camSetItemTimeout u) s) fun t =>
    t.get CAM_U_SET_STAT_RESULT u = 4 ∧ t.on CAM_U_SET_STAT_PENDING u = false ∧ (t.cm u).cset = none ∧ (t.cm u).unsure = true)

/-- O46. Zone and ladder tasks take or skip a block; camera calibration starts, ends and is stored (R8, R314, R317, R336, R337, R338, R455). A task of
the other kind, or of an engine neither in RUN nor WAIT, does nothing. A busy task counts a skip. A free one takes the block: SEQ and TIME name it,
and a ZONE task of a block in its slot writes one record for each plane stream of MASK, a LADDER task one strip-bad record for a bar with no strip
line. GO outside SERVICE ends BAD_MODE; in SERVICE it makes the block BUSY and keeps the unit's parameters; while BUSY it does nothing. ABORT with
nothing running answers ALREADY_DONE; else the parameters return. FLAT with no measurement ends NO_TARGET; a passed FLAT is stored and counted.
COLOUR over MEAN_MAX ends FAIL. The age check only reports. -/
def Obligations.ColourTasksAndCameraCalibration : Prop :=
  (∀ (s : State) (e : Fin 12) (q : BitVec 32) (us : BitVec 16) (kind : Nat) (c : Bool → Instr),
    (kind, c) ∈ [(1, fun b => Instr.zoneTask e q b us), (2, fun b => Instr.ladderTask e q b us)] →
    let idle := s.get PIX_TASK_KIND e ≠ kind ∨ (s.engState (16 + e) ≠ 2 ∧ s.engState (16 + e) ≠ 3)
    (idle → ∀ b, exec (c b) s = .next s) ∧
    (¬idle → Gives (exec (c true) s) fun t => t.get PIX_TASK_STAT_SKIP e = min (s.get PIX_TASK_STAT_SKIP e + 1) 65535 ∧
      t.get PIX_TASK_STAT_TIME e = s.get PIX_TASK_STAT_TIME e ∧ OnlyEv [PIX_TASK_STAT.addr e] s t) ∧
    (¬idle → s.blkOf (s.get PIX_TASK_UNIT e) q.toNat (s.get PIX_TASK_STREAM e) = none → Gives (exec (c false) s) fun t =>
      t.get PIX_TASK_SEQ e = q.toNat ∧ t.get PIX_TASK_STAT_TIME e = us.toNat ∧ t.get PIX_TASK_STAT_SKIP e = s.get PIX_TASK_STAT_SKIP e ∧
      OnlyRegs [PIX_TASK_SEQ.addr e, PIX_TASK_STAT.addr e] s t)) ∧
  (∀ (s : State) (e : Fin 12) (q : BitVec 32) (us : BitVec 16) (x : Blk),
    (s.engState (16 + e) = 2 ∨ s.engState (16 + e) = 3) → s.blkOf (s.get PIX_TASK_UNIT e) q.toNat (s.get PIX_TASK_STREAM e) = some x →
    (s.get PIX_TASK_KIND e = 1 → s.get PIX_ZR_CFG_DEPTH ≠ 0 → Gives (exec (.zoneTask e q false us) s) fun t =>
      t.get PIX_TASK_SEQ e = q.toNat ∧ t.get PIX_TASK_STAT_TIME e = us.toNat ∧ t.mode = s.mode ∧ t.queues = s.queues ∧
      t.get PIX_ZR_WR = (s.get PIX_ZR_WR + ((List.range 12).filter fun n => bitN (s.get PIX_TASK_MASK e) n).length) % 2 ^ 32) ∧
    (s.get PIX_TASK_KIND e = 2 → Gives (exec (.ladderTask e q false us) s) fun t => t.get PIX_TASK_SEQ e = q.toNat ∧
      t.get PIX_TASK_STAT_TIME e = us.toNat ∧ t.mode = s.mode ∧
      ((∀ b < 16, bitN (s.get PIX_TASK_MASK e) b = true → s.getA PIX_STRIP_CFG_LEN b = 0) → t.get PIX_NC_WR = s.get PIX_NC_WR ∧ t.store = s.store) ∧
      (∀ b < 16, (∀ k < 16, bitN (s.get PIX_TASK_MASK e) k = decide (k = b)) → s.getA PIX_STRIP_CFG_LEN b ≠ 0 → s.get PIX_NC_CFG_DEPTH ≠ 0 →
        s.stripLines x b = [] → t.get PIX_NC_WR = (s.get PIX_NC_WR + 1) % 2 ^ 32))) ∧
  (∀ (s : State) (v : BitVec 32), Hears s →
    (getBits v 0 1 = 0 ∨ s.on CHL_CAL_STAT_BUSY = true → exec (.calGo v) s = .next s) ∧
    (getBits v 0 1 = 1 → s.on CHL_CAL_STAT_BUSY = false → s.mode ≠ 6 → s.calRun = none → Gives (exec (.calGo v) s) fun t =>
      t.get CHL_CAL_STAT_RESULT = 4 ∧ t.on CHL_CAL_STAT_BUSY = false ∧ OnlyEv [CHL_CAL_STAT.addr] s t) ∧
    (getBits v 0 1 = 1 → s.on CHL_CAL_STAT_BUSY = false → s.mode = 6 → Gives (exec (.calGo v) s) fun t => t.on CHL_CAL_STAT_BUSY = true ∧
      t.get CHL_CAL_STAT_RESULT = s.get CHL_CAL_STAT_RESULT ∧ OnlyRegs [CHL_CAL_STAT.addr] s { t with calRun := s.calRun } ∧
      t.calRun = some ⟨getBits v 2 1 == 1, getBits v 3 3, (List.range 24).map fun i => s.rd (CAM_U_BLACK0.addr (getBits v 3 3) + 4 * i)⟩) ∧
    (s.on CHL_CAL_STAT_BUSY = false → Gives (exec .calAbort s) fun t => t.get CHL_CAL_STAT_RESULT = 6 ∧ OnlyRegs [CHL_CAL_STAT.addr] s t)) ∧
  (∀ (s : State) (c : CalRun), s.calRun = some c → c.unit < 8 → c.saved.length = 24 →
    (Hears s → s.on CHL_CAL_STAT_BUSY = true → Gives (exec .calAbort s) fun t => t.on CHL_CAL_STAT_BUSY = false ∧ t.get CHL_CAL_STAT_RESULT = 5 ∧
      t.calRun = none ∧ t.cal = s.cal ∧ ∀ i < 24, t.rd (CAM_U_BLACK0.addr c.unit + 4 * i) = c.saved.getD i 0) ∧
    (∀ (cols : List Rgb) (f : Bool) (w : List (BitVec 32)) (tn : List (BitVec 16)) (mean top : BitVec 16),
      (c.colour = false → cols = [] → Gives (exec (.calComplete cols f w tn mean top) s) fun t => t.on CHL_CAL_STAT_BUSY = false ∧
        t.get CHL_CAL_STAT_RESULT = 7 ∧ t.cal = s.cal ∧ ∀ i < 24, t.rd (CAM_U_BLACK0.addr c.unit + 4 * i) = c.saved.getD i 0) ∧
      (c.colour = false → cols ≠ [] → s.get CHL_CAL_MAXAGE_FLATLINES ≠ 0 → (∀ p ∈ cols, p.length = 3 ∧ ∀ y ∈ p, 16384 ≤ y.toNat) →
        Gives (exec (.calComplete cols f w tn mean top) s) fun t => t.on CHL_CAL_STAT_BUSY = false ∧ t.get CHL_CAL_STAT_RESULT = 0 ∧ t.calRun = none ∧
          ∃ r, t.cal = some r ∧ r.time = s.ptpSec ∧ r.count = ((s.cal.map fun o => o.count).getD 0 + 1) % 2 ^ 32 ∧
            bitN (r.cams.getD c.unit CamCal.empty).flags 1 = true ∧ (r.cams.getD c.unit CamCal.empty).nflat = cols.length) ∧
      (c.colour = true → s.tileCheck = 0 → f = true → s.get CHL_CAL_LIMIT_MEAN_MAX < mean.toNat → Gives (exec (.calComplete cols f w tn mean top) s) fun t =>
        t.on CHL_CAL_STAT_BUSY = false ∧ t.get CHL_CAL_STAT_RESULT = 1 ∧ t.get CHL_CAL_DE_MEAN = mean.toNat ∧ t.cal = s.cal))) ∧
  (∀ (s : State) (cols : List Rgb) (f : Bool) (w : List (BitVec 32)) (tn : List (BitVec 16)) (mean top : BitVec 16),
    (s.calRun = none → exec (.calComplete cols f w tn mean top) s = .next s) ∧ Gives (exec .calStale s) fun t => OnlyEv [] s t)

/-- O47. The Chameleon loop's states, offsets within their clamps, zone sheaves, and strips of nozzle records (R320, R321, R324, R325, R326, R328, R330,
R331, R332). In SHADOW, and while the firmware restarts, the loop only drops its records. With no new record each channel shows its state: OFF with
the loop off; HOLD with the first cause of R325, MODE outside PRINT. An offset never passes TOT_MAX, moves by at most STEP_MAX from an offset within
TOT_MAX, and is 0 at point 0. An accepted zone sheaf makes PENDING 1 and puts its channels in WAIT; a refused one is counted. Nozzle health: with no
record nothing happens; with the ring off or in SHADOW records are dropped; a strip end whose count passes MAXCHG is suspect and changes no run. An
OK nozzle goes DEAD after NCONF dead strips. -/
def Obligations.ColourHoldCorrectsWithinItsLimits : Prop :=
  (∀ s : State,
    (s.mode = 5 ∨ s.mode = 0 ∨ s.on MGT_STAT_RESTARTING = true → exec .chlJudge s = .next { s with chlRd := s.get PIX_ZR_WR }) ∧
    (s.mode ∉ [0, 5] → s.on MGT_STAT_RESTARTING = false → s.get PIX_ZR_WR = s.chlRd → Gives (exec .chlJudge s) fun t =>
      t.mode = s.mode ∧ t.store = s.store ∧ ∀ n < 12,
        (s.on CHL_CTL_EN = false ∨ s.on CHL_CH_CTL_EN n = false ∨ s.get GLB_COMPAT_LEVEL ≠ 0 →
          t.get CHL_CH_STAT_STATE n = 0 ∧ t.get CHL_CH_STAT_CAUSE n = 0) ∧
        (s.on CHL_CTL_EN = true → s.on CHL_CH_CTL_EN n = true → s.get GLB_COMPAT_LEVEL = 0 →
          (s.mode ≠ 3 → t.get CHL_CH_STAT_STATE n = 4 ∧ t.get CHL_CH_STAT_CAUSE n = 1) ∧
          (s.mode = 3 → s.get GLB_UST_STATE (camUnit (s.get CHL_CH_CTL_UNIT n)) ≠ 2 →
            t.get CHL_CH_STAT_STATE n = 4 ∧ t.get CHL_CH_STAT_CAUSE n = 2))) ∧
    (∀ (n z k : Nat) (l : List Int), (s.newOffset n z 0 l).1 = 0 ∧ |(s.newOffset n z k l).1| ≤ s.get CHL_CH_CLAMP_TOT_MAX n ∧
      (k ≠ 0 → |s.curOffset n z k| ≤ s.get CHL_CH_CLAMP_TOT_MAX n →
        |(s.newOffset n z k l).1 - s.curOffset n z k| ≤ s.get CHL_CH_CLAMP_STEP_MAX n) ∧
      (s.hasData n z k l = false → s.deltaOf n z k l = 0)) ∧
    (∀ (h : Sheaf) (chans : List Nat) (f : Nat), (∀ n ∈ chans, n < 12) → s.sheafStatus (some h) 2 = 0 → h.job = none →
      let t := s.offerZone h chans (f + 1)
      t.on CHL_SHEAF_PENDING = true ∧ t.get CHL_SHEAF_LAST = 0 ∧ t.get CHL_SHEAF_REP = h.rep % 2 ^ 32 ∧ t.chlPend = chans ∧
        t.get CHL_UPDATES_COUNT = (s.get CHL_UPDATES_COUNT + 1) % 2 ^ 32 ∧ ∀ n ∈ chans, t.get CHL_CH_STAT_STATE n = 2) ∧
    (∀ (h : Sheaf) (chans : List Nat), (∀ n ∈ chans, n < 12) → s.sheafStatus (some h) 2 ≠ 0 →
      let t := s.offerZone h chans 1
      t.get CHL_SHEAF_REFUSED = (s.get CHL_SHEAF_REFUSED + 1) % 65536 ∧ t.get CHL_SHEAF_LAST = s.sheafStatus (some h) 2 ∧ t.sheaves = s.sheaves ∧
        ∀ n ∈ chans, t.get CHL_CH_STAT_STATE n = 4 ∧ t.get CHL_CH_STAT_CAUSE n = 5)) ∧
  (∀ s : State,
    (s.on MGT_STAT_RESTARTING = true → exec .nhStripJudge s = .next s) ∧
    (s.on MGT_STAT_RESTARTING = false → s.get PIX_NC_CFG_DEPTH = 0 ∨ s.mode = 5 ∨ s.mode = 0 →
      exec .nhStripJudge s = .next { s with nhRd := s.get PIX_NC_WR }) ∧
    (s.on MGT_STAT_RESTARTING = false → s.get PIX_NC_CFG_DEPTH ≠ 0 → s.mode ≠ 5 → s.mode ≠ 0 →
      (s.nhRd = s.get PIX_NC_WR → exec .nhStripJudge s = .next s) ∧
      (let h := s.ld (s.get64 PIX_NC_LO + 16 * (s.nhRd % s.get PIX_NC_CFG_DEPTH)) 16
       let b := fieldAt h 1 1
       s.get PIX_NC_WR = s.nhRd + 1 → fieldAt h 0 1 = 1 → s.nhBad.contains b = false → s.on CHL_NH_CFG_EN = true → s.mode = 3 ∨ s.mode = 6 →
       s.get CHL_NH_CFG_MAXCHG < fieldAt h 4 2 → Gives (exec .nhStripJudge s) fun t =>
        t.get CHL_NH_STRIPS_SUSPECT = min (s.get CHL_NH_STRIPS_SUSPECT + 1) 65535 ∧ t.nhRd = s.get PIX_NC_WR ∧ t.nhRuns = s.nhRuns ∧
          OnlyEv [CHL_NH_STRIPS.addr] s { t with nhRd := s.nhRd, nhGot := s.nhGot, nhBad := s.nhBad })) ∧
    (∀ n : Nat, s.get CHL_NH_CFG_NCONF ≠ 0 → s.nhCommand 0 2 n = (if s.get CHL_NH_CFG_NCONF ≤ n then some 2 else none) ∧
      s.nhCommand 0 1 n = (if s.get CHL_NH_CFG_NCONF ≤ n then some 1 else none) ∧ s.nhCommand 0 0 n = none ∧ s.nhCommand 3 0 n = none))

/-- O48. A lamp string's configuration and its guard, its periods and pulses, and its lamp group (R343, R344, R345, R346, R347, R350, R351). A string
that may light lights at its FREE period or LOCK pulse: STATE 1, the regulated current min(ISET x G, 1500 mA, 300 mV / RSENSE) with CLAMP where a
limit acts, its group RUN when nothing holds it. Where it may not, or in the other MODE, nothing is lit. A LOCK pulse still on is cut and counted.
The pulse's end darkens the string; 100 ms without a lit string makes its group READY. With EN = 1, a write that changes MODE to TS_EN is ignored
but for EN and sets CFG_ERR; writing EN clears OPEN and SHORT; EN = 0 darkens the string. -/
def Obligations.LampStringsLightWithinTheirLimits : Prop :=
  (∀ (s : State) (n : Tl) (dt : Nat),
    let z := s.elapse dt
    let g := z.get LS_CFG_GRP n
    let i := z.get LS_ISET_ISET n * z.lampGain (z.get LS_CFG_CLR n) (z.lampTemp n) / 16384
    let lim := min 1500 (300000 / z.get LS_ISET_RSENSE n)
    let lit := fun t : State => t.get LS_STAT_STATE n = 1 ∧ t.get LS_MEAS_I n = min i lim ∧ t.on LS_STAT_CLAMP n = decide (lim < i) ∧
      smGet (fun _ => 0) t.lampLit n = z.clk + 1 ∧ smGet (fun _ => false) t.lampRun g = true ∧ t.mode = z.mode ∧
      ((∀ k < 12, z.on LS_CFG_EN k = true → z.get LS_CFG_GRP k = g → z.get LS_STAT_STATE k < 2) → z.stallCauses (grpUnit g) = [] →
        z.get GLB_UST_RUNSTATE (grpUnit g) ≠ 5 → t.get GLB_UST_RUNSTATE (grpUnit g) = 2)
    (z.lampMay n = false ∨ z.on LS_CFG_MODE n = true → exec (.lampPeriodStart n dt) s = .next z) ∧
    (z.lampMay n = true → z.on LS_CFG_MODE n = false → Gives (exec (.lampPeriodStart n dt) s) fun t => lit t ∧
      OnlyEv [LS_STAT.addr n, LS_MEAS.addr n, GLB_UST.addr (grpUnit g), GLB_SKEW_MAP.addr (grpUnit g / 32)] z
        { t with lampLit := z.lampLit, lampRun := z.lampRun, causes := z.causes }) ∧
    (z.lampMay n = false ∨ z.on LS_CFG_MODE n = false ∨ z.camOn (z.get LS_CFG_UNIT n) = false → exec (.lockPulseStart n dt) s = .next z) ∧
    (z.lampMay n = true → z.on LS_CFG_MODE n = true → z.camOn (z.get LS_CFG_UNIT n) = true → Gives (exec (.lockPulseStart n dt) s) fun t => lit t ∧
      t.get LS_CNT_LOCK_SHORT n = (if z.get LS_STAT_STATE n = 1 then min (z.get LS_CNT_LOCK_SHORT n + 1) 255 else z.get LS_CNT_LOCK_SHORT n))) ∧
  (∀ (s : State) (n : Tl) (g : Fin 8),
    (s.get LS_STAT_STATE n = 1 → Gives (exec (.lampPulseEnd n) s) fun t => t.get LS_STAT_STATE n = 0 ∧ smGet (fun _ => 0) t.lampLit n = 0 ∧
      (∀ k < 12, k ≠ n.val → t.get LS_STAT_STATE k = s.get LS_STAT_STATE k) ∧ t.mode = s.mode) ∧
    (s.get LS_STAT_STATE n ≠ 1 → exec (.lampPulseEnd n) s = .next s) ∧
    ((∃ k < 12, s.on LS_CFG_EN k = true ∧ s.get LS_CFG_GRP k = g.val ∧ s.get LS_STAT_STATE k = 1) → exec (.lampGroupDark g) s = .next s) ∧
    ((∀ k < 12, s.on LS_CFG_EN k = true → s.get LS_CFG_GRP k = g.val → s.get LS_STAT_STATE k = 0) →
      (∃ k < 12, s.on LS_CFG_EN k = true ∧ s.get LS_CFG_GRP k = g.val) → s.swcOvp = false → s.on SWC_STAT_LATCHED = false →
      s.stallCauses (grpUnit g) = [] → s.get GLB_UST_RUNSTATE (grpUnit g) ≠ 5 → s.stopped (grpUnit g) = false →
      Gives (exec (.lampGroupDark g) s) fun t => t.get GLB_UST_RUNSTATE (grpUnit g) = 1 ∧ smGet (fun _ => false) t.lampRun g = false)) ∧
  (∀ (s : State) (n : Tl) (i : Fin 8) (v : BitVec 32), Hears s →
    (exec (.lsConfigWrite n 0 v) s = exec (.lsEnable n v) s) ∧
    (i ≠ 0 → let a := LS_CFG.addr n + 4 * i
      Gives (exec (.lsConfigWrite n i v) s) fun t => t.rd a = writeBits a (s.rd a) v ∧ OnlyRegs [a] s t) ∧
    (Gives (exec (.lsEnable n v) s) fun t => t.mode = s.mode ∧ t.on LS_CFG_EN n = (getBits v 0 1 == 1) ∧
      (s.on LS_CFG_EN n = true → getBits (t.rd (LS_CFG.addr n)) 1 31 = getBits (s.rd (LS_CFG.addr n)) 1 31 ∧
        t.on LMP_STAT_CFG_ERR = (s.on LMP_STAT_CFG_ERR || decide (getBits (s.rd (LS_CFG.addr n)) 1 20 ≠ getBits v 1 20))) ∧
      (s.on LS_CFG_EN n = false → t.rd (LS_CFG.addr n) = writeBits (LS_CFG.addr n) (s.rd (LS_CFG.addr n)) v ∧
        t.on LMP_STAT_CFG_ERR = s.on LMP_STAT_CFG_ERR) ∧
      t.get LS_STAT_STATE n = (if s.get LS_STAT_STATE n = 4 then 4 else if getBits v 0 1 = 0 then 0 else
        if s.get LS_STAT_STATE n = 2 ∨ s.get LS_STAT_STATE n = 3 then 0 else s.get LS_STAT_STATE n)))

/-- O49. Headroom control, open and shorted strings, low current, and overvoltage with its latch (R344, R350, R351). A headroom sample shows the output
and, of one string lit for 2 us, its Vds: below HEADROOM the target rises by 100 mV up to VMAX, within 0.3 V above it stays, further above it falls
by 10 mV after 1 ms. With no target or nothing lit, only VOUT changes. OPEN and SHORT of a lit string are counted, darken it and stall its group
with their cause. Low current at VMAX sets DIM and the string stays lit. An overvoltage is counted, stops the stage and darkens every string; the
third within 1 s latches it until SWC_CFG is written. A soft restart ends an unlatched one. -/
def Obligations.LampFaultsAndTheSwitchingStage : Prop :=
  (∀ (s : State) (vds : List (BitVec 16)) (vo : BitVec 14) (dt : Nat),
    let z := (s.elapse dt).swcStart
    let lit := fun k => z.get LS_STAT_STATE k = 1 ∧ smGet (fun _ => 0) z.lampLit k ≠ 0 ∧ smGet (fun _ => 0) z.lampLit k - 1 + 1600 ≤ z.clk
    (z.swcTarget = none ∨ (∀ k < 12, ¬lit k) → Gives (exec (.headroomSample vds vo dt) s) fun t => t.get SWC_STAT_VOUT = vo.toNat ∧
      OnlyRegs [SWC_STAT.addr] z t) ∧
    (∀ (n x : Nat), n < 12 → (∀ k < 12, lit k ↔ k = n) → z.swcTarget = some x →
      let v := (vds.getD n 0).toNat
      let h := z.get SWC_CFG_HEADROOM
      let top := 25 * z.get SWC_CFG_VMAX
      Gives (exec (.headroomSample vds vo dt) s) fun t => t.get SWC_STAT_VOUT = vo.toNat ∧ t.get LS_STAT_VDS n = v ∧ t.mode = z.mode ∧
        (∀ k < 12, t.get LS_STAT_STATE k = z.get LS_STAT_STATE k) ∧
        (v < h → t.swcTarget = some (min top (x + 10)) ∧ t.on SWC_STAT_LIMIT = decide (top ≤ x + 10)) ∧
        (h ≤ v → v ≤ h + 30 → t.swcTarget = some x ∧ t.swcHigh = none) ∧
        (h + 30 < v → (z.swcHigh = none → t.swcTarget = some x ∧ t.swcHigh = some z.clk) ∧
          ∀ m, z.swcHigh = some m → t.swcTarget = some (if m + 800000 ≤ z.clk then x - 1 else x)) ∧
        (t.swcTarget ≠ some top → ∀ k < 12, t.on LS_STAT_DIM k = false))) ∧
  (∀ (s : State) (n : Tl),
    let down := fun (t : State) (st cause : Nat) => t.get LS_STAT_STATE n = st ∧ smGet (fun _ => 0) t.lampLit n = 0 ∧ t.mode = s.mode ∧
      (∀ k < 12, k ≠ n.val → t.get LS_STAT_STATE k = s.get LS_STAT_STATE k) ∧
      (s.on LS_CFG_EN n = true → (t.stallCauses (grpUnit (s.get LS_CFG_GRP n))).contains cause = true)
    (s.get LS_STAT_STATE n = 1 →
      (Gives (exec (.lsOpen n) s) fun t => down t 2 1 ∧ t.get LS_CNT_OPEN n = min (s.get LS_CNT_OPEN n + 1) 255) ∧
      (Gives (exec (.lsShort n) s) fun t => down t 3 2 ∧ t.get LS_CNT_SHORT n = min (s.get LS_CNT_SHORT n + 1) 255) ∧
      (s.on SWC_STAT_LIMIT = true → Gives (exec (.swcLimit n) s) fun t => t.on LS_STAT_DIM n = true ∧ t.get LS_STAT_STATE n = 1 ∧
        OnlyEv [LS_STAT.addr n] s t)) ∧
    (s.get LS_STAT_STATE n ≠ 1 → exec (.lsOpen n) s = .next s ∧ exec (.lsShort n) s = .next s ∧ exec (.swcLimit n) s = .next s) ∧
    (s.on SWC_STAT_LIMIT = false → exec (.swcLimit n) s = .next s)) ∧
  (∀ (s : State) (dt : Nat) (v : BitVec 32),
    let z := (s.elapse dt).swcStart
    let near := z.swcOvps.filter fun t => decide (z.clk ≤ t + 800000000)
    (z.swcTarget = none ∨ z.swcOvp = true ∨ z.on SWC_STAT_LATCHED = true → exec (.swcOvp dt) s = .next z) ∧
    (z.swcTarget ≠ none → z.swcOvp = false → z.on SWC_STAT_LATCHED = false → Gives (exec (.swcOvp dt) s) fun t => t.swcOvp = true ∧
      t.get SWC_STAT_OVP_CNT = min (z.get SWC_STAT_OVP_CNT + 1) 65535 ∧ (∀ k < 12, t.get LS_STAT_STATE k ≠ 1) ∧
      t.on SWC_STAT_LATCHED = decide (2 ≤ near.length) ∧ ∀ g < 8, (∃ k < 12, z.on LS_CFG_EN k = true ∧ z.get LS_CFG_GRP k = g) →
        (t.stallCauses (grpUnit g)).contains 4 = true) ∧
    (s.swcOvp = true → s.on SWC_STAT_LATCHED = false → Gives (exec .swcSoftRestart s) fun t => t.swcOvp = false ∧ t.mode = s.mode ∧
      ∀ g < 8, (t.stallCauses (grpUnit g)).contains 4 = false) ∧
    (s.swcOvp = false ∨ s.on SWC_STAT_LATCHED = true → exec .swcSoftRestart s = .next s) ∧
    (Hears s → Gives (exec (.swcCfgWrite v) s) fun t => t.rd SWC_CFG.addr = writeBits SWC_CFG.addr (s.rd SWC_CFG.addr) v ∧ t.mode = s.mode ∧
      t.on SWC_STAT_LATCHED = false ∧ (s.on SWC_STAT_LATCHED = true → t.swcOvp = false ∧ t.swcOvps = []) ∧
      (getBits v 0 8 = 0 → t.swcTarget = none)))

/-- O50. Status chains and their banks, pattern engines, and the nodes of the lamp bus (R352, R353, R354, R356). UPDATE marks a swap. A chain that is
on, outside BOOT, with nodes and with UPDATE or PER sends a frame: FRONT flips after UPDATE, FRAMES counts, and node k gets the front bank's word,
or the value of the highest-numbered running engine whose range holds it. BLINK gives A in the first DUTY/256 of each PERIOD and B in the rest. A
served node whose level changed is written; an ACK clears LOST, a NAK is counted, and the third in succession makes it LOST. Its poll shows the
status byte. A stuck bus is reported. -/
def Obligations.StatusChainsAndTheLampBus : Prop :=
  (∀ (s : State) (c : Tn) (dt : Nat),
    let z := s.elapse dt
    let swap := smGet (fun _ => false) z.chainSwap c
    let bank := if swap then 1 - z.get SW_STAT_FRONT c else z.get SW_STAT_FRONT c
    (Hears s → Gives (exec (.swUpdate c) s) fun t => smGet (fun _ => false) t.chainSwap c = true ∧ t = { s with chainSwap := t.chainSwap } ∧
      ∀ k, k ≠ c.val → smGet (fun _ => false) t.chainSwap k = smGet (fun _ => false) s.chainSwap k) ∧
    (z.on SW_CFG_EN c = false ∨ z.mode = 0 ∨ z.get SW_CFG_NODES c = 0 ∨ (swap = false ∧ z.get SW_CFG_PER c = 0) →
      exec (.chainFrameSend c dt) s = .next z) ∧
    (z.on SW_CFG_EN c = true → z.mode ≠ 0 → z.get SW_CFG_NODES c ≠ 0 → swap = true ∨ z.get SW_CFG_PER c ≠ 0 →
      Gives (exec (.chainFrameSend c dt) s) fun t => t.get SW_STAT_FRONT c = bank ∧ smGet (fun _ => false) t.chainSwap c = false ∧
        t.get SW_STAT_FRAMES c = (z.get SW_STAT_FRAMES c + 1) % 65536 ∧
        OnlyRegs [SW_STAT.addr c] z { t with chainSwap := z.chainSwap, chainOut := z.chainOut } ∧
        ∃ w, smGet (fun _ => []) t.chainOut c = w ∧ w.length = min 1024 (z.get SW_CFG_NODES c) ∧ ∀ k < w.length,
          ((∀ e < 8, smGet (fun _ => 0) z.patAt e = 0) → w.getD k 0 = z.get SW_NODE_VALUE c bank k) ∧
          ∀ e < 8, smGet (fun _ => 0) z.patAt e ≠ 0 → z.get PAT_CTL_TARGET e = c.val → z.get PAT_RANGE_FIRST e ≤ k → k ≤ z.get PAT_RANGE_LAST e →
            (∀ e' < 8, e < e' → smGet (fun _ => 0) z.patAt e' = 0 ∨ z.get PAT_CTL_TARGET e' ≠ c.val) →
            w.getD k 0 = z.patValue e k false ∧
            (z.get PAT_CTL_KIND e = 1 → z.get PAT_TIME_PERIOD e ≠ 0 → let p := z.get PAT_TIME_PERIOD e
              let x := (z.clk - (smGet (fun _ => 0) z.patAt e - 1)) / 800000 % p
              w.getD k 0 = if 256 * x < z.get PAT_TIME_DUTY e * p then z.get PAT_A_A e else z.get PAT_B_B e))) ∧
  (∀ (s : State) (m : Fin 16) (dt : Nat) (st : BitVec 8),
    let z := s.elapse dt
    let naks := fun x : State => smGet (fun _ => 0) x.lbNak m
    let nak := fun x t : State => naks t = naks x + 1 ∧ t.get LB_NODE_STAT_NAKS m = min (x.get LB_NODE_STAT_NAKS m + 1) 65535 ∧
      t.on LB_NODE_STAT_LOST m = (x.on LB_NODE_STAT_LOST m || naks x == 2) ∧ t.get LB_NODE_STAT_STATUS m = x.get LB_NODE_STAT_STATUS m ∧
      OnlyEv [LB_NODE_STAT.addr m] x { t with lbNak := x.lbNak }
    (z.lbServes m = false ∨ (z.mode ≠ 7 ∧ smGet (fun _ => none) z.lbSent m = some (z.lbLevel m)) ∨ (z.mode = 7 ∧ m.val ∉ z.lbSafe) →
      ∀ a, exec (.lbLevelWrite m a dt) s = .next z) ∧
    (z.lbServes m = true → (z.mode ≠ 7 ∧ smGet (fun _ => none) z.lbSent m ≠ some (z.lbLevel m)) ∨ (z.mode = 7 ∧ m.val ∈ z.lbSafe) →
      (Gives (exec (.lbLevelWrite m true dt) s) fun t => smGet (fun _ => none) t.lbSent m = some (z.lbLevel m) ∧ naks t = 0 ∧ m.val ∉ t.lbSafe ∧
        t.on LB_NODE_STAT_LOST m = false ∧ OnlyRegs [LB_NODE_STAT.addr m] z { t with lbSent := z.lbSent, lbNak := z.lbNak, lbSafe := z.lbSafe }) ∧
      (Gives (exec (.lbLevelWrite m false dt) s) (nak z))) ∧
    (s.lbServes m = false ∨ s.get LB_CFG_POLL = 0 → ∀ a, exec (.lbPoll m a st) s = .next s) ∧
    (s.lbServes m = true → s.get LB_CFG_POLL ≠ 0 →
      (Gives (exec (.lbPoll m true st) s) fun t => t.get LB_NODE_STAT_STATUS m = st.toNat ∧ t.on LB_NODE_STAT_LOST m = false ∧ naks t = 0 ∧
        t.get LB_NODE_STAT_NAKS m = s.get LB_NODE_STAT_NAKS m ∧ OnlyRegs [LB_NODE_STAT.addr m] s { t with lbNak := s.lbNak }) ∧
      (Gives (exec (.lbPoll m false st) s) (nak s))) ∧
    (s.on LB_CFG_EN = true → s.mode ≠ 0 → Gives (exec (.lbBusStuck true) s) fun t => OnlyEv [] s t) ∧
    (exec (.lbBusStuck false) s = .next s) ∧ (s.on LB_CFG_EN = false ∨ s.mode = 0 → exec (.lbBusStuck true) s = .next s))

/-- O51. Codec contexts and their guard, encoding one picture at a time, decoding with concealment, aborts (R362, R363, R364, R365, R366, R368, R369,
R371, R373, R374, R375, R376). A write to an open context's configuration is ignored and sets CFG_ERR. A submission naming a context with EN = 0
completes CTX_OFF. The encoder starts a picture when the ring has room for HARD_CAP, else it stalls and leaves the submission; a started picture
never exceeds HARD_CAP, is POISON where an input burst is, and its context goes on. When done, its bytes stand in the ring, WR and PICS move, CLOSE
closes the context. LEN 0 completes at once. A decoded picture shows its errors, missing references and concealed CTUs; marking lasts. Pictures
leave in order while slots are free. An abort empties the queue. -/
def Obligations.CodecContextsEncodeAndDecode : Prop :=
  (∀ (s : State) (dec : Bool) (c : Fin 8) (i : Fin 12) (v : BitVec 32), Hears s → (dec = true → i.val ≤ 4) →
    let a := (if dec then VID_DEC_CFG.addr c else VID_ENC_CFG.addr c) + 4 * i
    let en := if dec then s.on VID_DEC_CFG_EN c else s.on VID_ENC_CFG_EN c
    (en = true → Gives (exec (.vidCfgWrite dec c i v) s) fun t => t.on VID_STAT_CFG_ERR = true ∧ OnlyRegs [VID_STAT.addr] s t) ∧
    (en = false → Gives (exec (.vidCfgWrite dec c i v) s) fun t => t.rd a = writeBits a (s.rd a) v ∧
      OnlyRegs [a] s { t with encCtx := s.encCtx, decCtx := s.decCtx } ∧ (i.val = 0 → if dec then t.dc c = DecCtx.empty else t.ec c = EncCtx.empty)) ∧
    (Gives (exec (.encOutRdWrite c v) s) fun t => t.get VID_ENC_OUT_RD_RD c = v.toNat ∧ OnlyRegs [VID_ENC_OUT_RD.addr c] s t) ∧
    (Gives (exec (.decRdWrite c v) s) fun t => t.get VID_DEC_RD_RD c = v.toNat ∧ OnlyRegs [VID_DEC_RD.addr c] s t)) ∧
  (∀ (s t0 : State) (ctus : List Nat) (out : List Byte) (qp : BitVec 16) (x : Sub),
    (s.encRun ≠ none ∨ s.mode = 0 ∨ s.takeSub 48 = none → exec (.encSubmit ctus out qp) s = .next s) ∧
    (s.encRun = none → s.mode ≠ 0 → s.takeSub 48 = some (x, t0) →
      let c := subF32 x 0x10 % 256
      let reply : EncPic := ⟨x.tag, c, x.flags, subF64 x 0x30, 0, 0, 0, [], 0, 0⟩
      let used := (s.get VID_ENC_OUT_WR_WR c + 2 ^ 32 - s.get VID_ENC_OUT_RD_RD c) % 2 ^ 32
      (c < 8 → x.zeros = true → s.on VID_ENC_CFG_EN c = false → exec (.encSubmit ctus out qp) s = .next (t0.encEntry reply 1 0)) ∧
      (8 ≤ c ∨ x.zeros = false → exec (.encSubmit ctus out qp) s = .next (t0.encEntry reply 5 0)) ∧
      (c < 8 → x.zeros = true → s.on VID_ENC_CFG_EN c = true →
        (bitN x.flags 2 = true → Gives (exec (.encSubmit ctus out qp) s) fun t => t.on VID_ENC_CFG_EN c = false ∧ t.mode = s.mode ∧ t.encRun = none) ∧
        (bitN x.flags 2 = false → s.get VID_ENC_OUT_SIZE_SIZE c < used + s.hardCap c →
          (s.encStall = true → exec (.encSubmit ctus out qp) s = .next s) ∧
          (s.encStall = false → Gives (exec (.encSubmit ctus out qp) s) fun t => t.encStall = true ∧ OnlyEv [] s { t with encStall := s.encStall } ∧
            (t.qu 48).fetched = (s.qu 48).fetched)) ∧
        (bitN x.flags 2 = false → used + s.hardCap c ≤ s.get VID_ENC_OUT_SIZE_SIZE c → Gives (exec (.encSubmit ctus out qp) s) fun t =>
          t.on VID_STAT_ENC_BUSY = true ∧ t.get VID_STAT_ENC_CTX = c ∧ (t.ec c).idr = false ∧ t.encStall = false ∧ t.mode = s.mode ∧ t.store = s.store ∧
          ∃ p, t.encRun = some p ∧ p.tag = x.tag ∧ p.ctx = c ∧ p.time = subF64 x 0x30 ∧ p.bytes = out.take (s.hardCap c) ∧ p.type = s.encType c x.flags ∧
            p.poc = (if p.type = 0 then 0 else (s.ec c).poc) ∧ (t.ec c).poc = p.poc + 1 ∧
            p.status = (if s.encPoison c (subF64 x 0x18) (subF64 x 0x20) (subF32 x 0x28) then 2 else 0)))) ∧
    (s.encRun = none → exec .encPictureDone s = .next s) ∧
    (∀ p, s.encRun = some p → p.ctx < 8 → Gives (exec .encPictureDone s) fun t => t.encRun = none ∧ t.encLast = some (p.tag, p.ctx) ∧
      t.get VID_ENC_OUT_WR_WR p.ctx = (s.get VID_ENC_OUT_WR_WR p.ctx + p.bytes.length) % 2 ^ 32 ∧ t.on VID_STAT_ENC_BUSY = false ∧
      t.get VID_ENC_PICS_PICS = (s.get VID_ENC_PICS_PICS + 1) % 2 ^ 32 ∧ t.store = (s.encRing p.ctx (s.get VID_ENC_OUT_WR_WR p.ctx) p.bytes).store ∧
      t.on VID_ENC_CFG_EN p.ctx = (s.on VID_ENC_CFG_EN p.ctx && !(bitN p.flags 1))) ∧
    (Hears s → (∀ p, s.encRun = some p → p.ctx < 8) → Gives (exec .encAbort s) fun t => t.encRun = none ∧ (t.qu 48).fetched = [] ∧ t.encStall = false ∧
      t.mode = s.mode ∧ t.store = s.store ∧ ∀ p, s.encRun = some p → (t.ec p.ctx).idr = true ∧ t.on VID_STAT_ENC_BUSY = false)) ∧
  (∀ (s t0 : State) (pics : List DecPic) (outs : List Nat) (x : Sub),
    (s.mode = 0 ∨ (∃ k < 8, (s.dc k).out ≠ []) ∨ s.takeSub 50 = none → exec (.decSubmit pics outs) s = .next s) ∧
    (s.mode ≠ 0 → (∀ k < 8, (s.dc k).out = []) → s.takeSub 50 = some (x, t0) →
      let c := subF32 x 0x10 % 256
      (8 ≤ c ∨ s.on VID_DEC_CFG_EN c = false → exec (.decSubmit pics outs) s = .next (t0.decEntry x.tag c 1 0 0 0 0)) ∧
      (c < 8 → s.on VID_DEC_CFG_EN c = true → subF32 x 0x20 = 0 → x.flags % 4 = 0 → exec (.decSubmit pics outs) s =
        .next (((t0.decEntry x.tag c 0 0 0 0 0).put VID_STAT_DEC_BUSY false).set VID_STAT_DEC_CTX c)) ∧
      (∀ p : DecPic, c < 8 → s.on VID_DEC_CFG_EN c = true → subF32 x 0x20 ≠ 0 → x.flags % 4 = 0 → pics = [p] → outs = [0] →
        (s.dc c).held = [] → (s.dc c).wait = false → (s.dc c).mark = false →
        let marked := p.errs ≠ 0 ∨ p.missing = true
        Gives (exec (.decSubmit pics outs) s) fun t => t.on VID_STAT_DEC_BUSY = true ∧ t.get VID_STAT_DEC_CTX = c ∧ t.mode = s.mode ∧
          t.get VID_DEC_PICS_PICS = (s.get VID_DEC_PICS_PICS + 1) % 2 ^ 32 ∧ t.get VID_DEC_CNT_ERR c = min (s.get VID_DEC_CNT_ERR c + p.errs) 65535 ∧
          ((t.dc c).mark = true ↔ marked) ∧ (t.dc c).good = (if marked ∨ p.lost ≠ [] then (s.dc c).good else some p) ∧
          ∃ o, (t.dc c).out = [o] ∧ o.tag = x.tag ∧ o.pic = conceal p (s.dc c).good ∧ o.nconc = p.lost.length ∧ (bitN o.flags 0 = true ↔ marked) ∧
            (bitN o.flags 1 = true ↔ p.errs ≠ 0) ∧ bitN o.flags 2 = p.missing ∧ bitN o.flags 3 = p.hash ∧ bitN o.flags 4 = p.rasl)) ∧
    (Hears s → Gives (exec .decAbort s) fun t => (∀ k < 8, (t.dc k).out = [] ∧ ((s.dc k).out ≠ [] → (t.dc k).wait = true)) ∧
      (t.qu 50).fetched = [] ∧ t.on VID_STAT_DEC_BUSY = false ∧ t.mode = s.mode ∧ t.store = s.store)) ∧
  (∀ (s : State) (c : Fin 8), let d := s.dc c
    let full := s.get VID_DEC_BUF_CFG_NBUF c ≤ (d.n + 2 ^ 32 - s.get VID_DEC_RD_RD c) % 2 ^ 32
    (d.out = [] ∨ full → exec (.decPictureOut c) s = .next s) ∧
    (∀ o r, d.out = o :: r → ¬full → Gives (exec (.decPictureOut c) s) fun t => t.decLast = some (o.tag, c.val) ∧ t.mode = s.mode ∧
      t.get VID_DEC_CNT_CONC c = (if o.flags % 2 = 1 then min (s.get VID_DEC_CNT_CONC c + 1) 65535 else s.get VID_DEC_CNT_CONC c) ∧
      (r = [] → t.on VID_STAT_DEC_BUSY = false) ∧
      (if r = [] ∧ d.close = true then t.on VID_DEC_CFG_EN c = false ∧ t.dc c = DecCtx.empty
        else t.on VID_DEC_CFG_EN c = s.on VID_DEC_CFG_EN c ∧ t.dc c = { d with out := r, n := (d.n + 1) % 2 ^ 32 })))

/-- O52. DisplayPort training and fit, hot plug, loss of the link, and AUX transactions (R377, R378, R380). EN from 0 to 1 applies the timing registers;
from 1 to 0 the link is down. The link trains with EN applied and HPD high: T_LANES and T_RATE show what it reached; the stream runs (LINK 2) only
where pixel clock x 3 x BPC x 1.25 fits lanes x rate, else LINK is 3; without training LINK is 0. HPD high trains. A fall of HPD, or a pulse, takes
a LINK of 2 or 3 down, counted; a pulse with HPD high trains again. GO starts one AUX transaction of 1 to 16 bytes; its end shows the result and,
for an acknowledged read, the bytes. -/
def Obligations.DisplayPortLinkTrainsAndFits : Prop :=
  let trained := fun (cfg pclk : Nat) (hpd : Bool) (got : DpGot) (t : State) =>
    (bitN cfg 0 = false ∨ hpd = false ∨ got = none → t.get DP_STAT_LINK = 0) ∧
    (∀ l r, got = some (l, r) → bitN cfg 0 = true → hpd = true → t.get DP_STAT_T_LANES = l.val ∧ t.get DP_STAT_T_RATE = r.val ∧
      t.get DP_STAT_LINK = if pclk * 3 * (6 + 2 * bitsN cfg 5 2) * 5 ≤ 4 * (2 ^ l.val * dpRate r.val) then 2 else 3)
  (∀ (s : State) (v : BitVec 32) (got : DpGot), Hears s →
    (s.on DP_CFG_EN = false → getBits v 0 1 = 1 → Gives (exec (.dpEnable v got) s) fun t => t.rd DP_CFG.addr = writeBits DP_CFG.addr (s.rd DP_CFG.addr) v ∧
      t.mode = s.mode ∧ t.dpRegs.length = 7 ∧ t.on DP_STAT_HPD = s.on DP_STAT_HPD ∧
      trained (t.rd DP_CFG.addr).toNat (s.get DP_PCLK_PCLK) (s.on DP_STAT_HPD) got t) ∧
    (s.on DP_CFG_EN = true → getBits v 0 1 = 0 → Gives (exec (.dpEnable v got) s) fun t => t.get DP_STAT_LINK = 0 ∧ t.dpRegs = [] ∧
      t.rd DP_CFG.addr = writeBits DP_CFG.addr (s.rd DP_CFG.addr) v ∧ OnlyRegs [DP_CFG.addr, DP_STAT.addr] s { t with dpRegs := s.dpRegs }) ∧
    (s.on DP_CFG_EN = (getBits v 0 1 == 1) → Gives (exec (.dpEnable v got) s) fun t =>
      t.rd DP_CFG.addr = writeBits DP_CFG.addr (s.rd DP_CFG.addr) v ∧ OnlyRegs [DP_CFG.addr] s t)) ∧
  (∀ (s : State) (got : DpGot), let cfg := (s.dpReg 0).toNat; let pclk := getBits (s.dpReg 2) 0 20
    (Gives (exec (.dpHpdRise got) s) fun t => t.on DP_STAT_HPD = true ∧ t.mode = s.mode ∧ trained cfg pclk true got t) ∧
    (Gives (exec (.dpLinkDown false got) s) fun t => t.on DP_STAT_HPD = false ∧ t.mode = s.mode ∧
      (if 2 ≤ s.get DP_STAT_LINK then t.get DP_STAT_LINK = 0 ∧ t.get DP_STAT_DOWNS = min (s.get DP_STAT_DOWNS + 1) 65535
        else t.get DP_STAT_LINK = s.get DP_STAT_LINK ∧ t.get DP_STAT_DOWNS = s.get DP_STAT_DOWNS) ∧ OnlyEv [DP_STAT.addr] s t) ∧
    (Gives (exec (.dpLinkDown true got) s) fun t => t.on DP_STAT_HPD = s.on DP_STAT_HPD ∧ t.mode = s.mode ∧
      t.get DP_STAT_DOWNS = (if 2 ≤ s.get DP_STAT_LINK then min (s.get DP_STAT_DOWNS + 1) 65535 else s.get DP_STAT_DOWNS) ∧
      trained cfg pclk (s.on DP_STAT_HPD) got t)) ∧
  (∀ (s : State) (v : BitVec 32) (res : Fin 4) (d : List Byte),
    (Hears s → getBits v 0 1 = 0 ∨ s.on DP_AUX_STAT_BUSY = true ∨ getBits v 3 5 = 0 ∨ 16 < getBits v 3 5 → exec (.dpAuxGo v) s = .next s) ∧
    (Hears s → getBits v 0 1 = 1 → s.on DP_AUX_STAT_BUSY = false → 1 ≤ getBits v 3 5 → getBits v 3 5 ≤ 16 → Gives (exec (.dpAuxGo v) s) fun t =>
      t.auxCmd = some v ∧ t.on DP_AUX_STAT_BUSY = true ∧ OnlyRegs [DP_AUX_STAT.addr] s { t with auxCmd := s.auxCmd }) ∧
    (s.auxCmd = none → exec (.dpAuxDone res d) s = .next s) ∧
    (s.auxCmd = some v → getBits v 3 5 ≤ 16 → Gives (exec (.dpAuxDone res d) s) fun t => t.auxCmd = none ∧ t.on DP_AUX_STAT_BUSY = false ∧
      t.get DP_AUX_STAT_RESULT = res.val ∧ OnlyRegs (DP_AUX_STAT.addr :: (List.range 4).map fun i => DP_AUX_DATA.addr i) s { t with auxCmd := s.auxCmd } ∧
      (res.val = 0 → getBits v 1 1 = 0 → ∀ i < getBits v 3 5, getBits (t.rd (DP_AUX_DATA.addr (i / 4))) (8 * (i % 4)) 8 = (d.getD i 0).toNat) ∧
      (res.val ≠ 0 ∨ getBits v 1 1 = 1 → ∀ i < 4, t.rd (DP_AUX_DATA.addr i) = s.rd (DP_AUX_DATA.addr i))))

/-- O53. The three-port switch learns, forwards and drops; the transparent clock corrects event messages; block lock comes and goes (R381, R382, R384,
R385, R393). A frame at a port that is down does nothing. At N0 and N1 every frame counts in RX; one failing FCS counts FCS, one without buffer
space or of unlawful length DROP, and neither goes on. A good frame teaches its individual source address, and each port that the switch picks,
never the port it came in on, puts out the frame as the transparent clock leaves it. That clock, when enabled, adds to the correctionField of an
event message its residence between referred stamps, and for a Sync in peer-to-peer mode PDELAY and ASYM of the ingress port; it makes a UDP
checksum 0 and changes no other byte. An address aged out is unknown. -/
def Obligations.TheSwitchForwardsAndTheTransparentClockCorrects : Prop :=
  (∀ (s : State) (p : Fin 3) (f : List Byte) (fcs room : Bool) (tin : Int) (tout : List Int),
    let rx := fun t : State => p.val < 2 → t.get TIM_CNT_RX_FRAMES p = (s.get TIM_CNT_RX_FRAMES p + 1) % 2 ^ 32
    let frame := OnlyRegs [TIM_CNT_RX.addr p, TIM_CNT_ERR.addr p] s
    let z := s.learn (beNum f 6 6) p
    (s.portUp p = false → exec (.netFrameRx p f fcs room tin tout) s = .next s) ∧
    (s.portUp p = true → fcs = false → Gives (exec (.netFrameRx p f fcs room tin tout) s) fun t => rx t ∧ frame t ∧
      (p.val < 2 → t.get TIM_CNT_ERR_FCS p = min (s.get TIM_CNT_ERR_FCS p + 1) 65535 ∧ t.get TIM_CNT_ERR_DROP p = s.get TIM_CNT_ERR_DROP p)) ∧
    (s.portUp p = true → fcs = true → (room = false ∨ f.length < 60 ∨ 9212 < f.length) → Gives (exec (.netFrameRx p f fcs room tin tout) s) fun t =>
      rx t ∧ frame t ∧ (p.val < 2 → t.get TIM_CNT_ERR_DROP p = min (s.get TIM_CNT_ERR_DROP p + 1) 65535 ∧
        t.get TIM_CNT_ERR_FCS p = s.get TIM_CNT_ERR_FCS p)) ∧
    (s.portUp p = true → fcs = true → room = true → 60 ≤ f.length → f.length ≤ 9212 → Gives (exec (.netFrameRx p f fcs room tin tout) s) fun t =>
      rx t ∧ OnlyRegs [TIM_CNT_RX.addr p, TIM_CNT_TX.addr 0, TIM_CNT_TX.addr 1] s { t with tim := s.tim } ∧ t.tim.macTab = z.tim.macTab ∧
      (beNum f 6 1 % 2 = 0 → s.tim.macTab.length < 1024 → smGet (fun _ => 0) t.tim.macTab (beNum f 6 6) = p + 1) ∧
      smGet (fun _ => []) t.tim.netOut p = smGet (fun _ => []) s.tim.netOut p ∧
      ∀ q < 3, smGet (fun _ => []) t.tim.netOut q = (if (z.outPorts p (beNum f 0 6)).contains q then s.tcUpdate f p q tin (tout.getD q 0)
          else smGet (fun _ => []) s.tim.netOut q) ∧
        (q < 2 → t.get TIM_CNT_TX_FRAMES q =
          (s.get TIM_CNT_TX_FRAMES q + if (z.outPorts p (beNum f 0 6)).contains q then 1 else 0) % 2 ^ 32))) ∧
  (∀ (s : State) (f : List Byte) (p q : Nat) (tin tout : Int),
    (s.on TIM_CTL_TC_EN = false ∨ s.ptpAt f = none → s.tcUpdate f p q tin tout = f) ∧
    (∀ o c, s.on TIM_CTL_TC_EN = true → s.ptpAt f = some (o, c) →
      let link : Int := if s.on TIM_CTL_P2P = true ∧ beNum f o 1 % 16 = 0 ∧ p < 2 then s.get TIM_PDELAY_PDELAY p + s.geti TIM_ASYM_ASYM p else 0
      let g := s.tcUpdate f p q tin tout
      g.length = f.length ∧ beNum g (o + 8) 8 = ux 64 (sx 64 (beNum f (o + 8) 8) + ((tout + s.egrLat q) - (tin - s.ingLat p)) + link) ∧
      (∀ k, c = some k → k + 2 = o ∧ beNum g k 2 = 0) ∧
      ∀ i, (i < o + 8 ∨ o + 16 ≤ i) → (∀ k, c = some k → i < k ∨ k + 2 ≤ i) → g.getD i 0 = f.getD i 0)) ∧
  (∀ (s : State) (a : BitVec 48) (n : Fin 2),
    (Gives (exec (.macAgeOut a) s) fun t => smGet (fun _ => 0) t.tim.macTab a.toNat = 0 ∧ t = { s with tim.macTab := t.tim.macTab } ∧
      ∀ k, k ≠ a.toNat → smGet (fun _ => 0) t.tim.macTab k = smGet (fun _ => 0) s.tim.macTab k) ∧
    (s.on TIM_NET_CFG_EN n = true → s.on TIM_NET_STAT_LOCK n = false → Gives (exec (.netLinkUp n) s) fun t => t.on TIM_NET_STAT_LOCK n = true ∧
      OnlyEv [TIM_NET_STAT.addr n] s t) ∧
    (s.on TIM_NET_CFG_EN n = false ∨ s.on TIM_NET_STAT_LOCK n = true → exec (.netLinkUp n) s = .next s) ∧
    (s.on TIM_NET_STAT_LOCK n = true → Gives (exec (.netLinkDown n) s) fun t => t.on TIM_NET_STAT_LOCK n = false ∧
      OnlyEv [TIM_NET_STAT.addr n] s t) ∧
    (s.on TIM_NET_STAT_LOCK n = false → exec (.netLinkDown n) s = .next s))

/-- O54. The epoch at a wrap, the servo's path from a master to LOCKED and HOLDOVER, host writes, and time-pulse outputs (R384, R386, R387, R388, R389,
R392, R394). At a wrap the epoch moves by 4 s 294,967,296 ns. A chosen master in FREE or HOLDOVER starts ACQUIRE. A Sync of the master gives OFFSET
from referred stamps; the sixteenth gathered locks, with a step only where one is permitted and |offset| exceeds STEP_TH; LOCKED steers the rate
within SLEW_MAX. Losing the master from LOCKED enters HOLDOVER, counted. ADJ takes host writes only in FREE; TIM_CTL and TIM_NET_CFG change only in
IDLE and SERVICE, else CFG_ERR. RELOCK clears STEPPED. A due edge raises the output for WIDTH; the next lies on START + k PERIOD. A message sent
leaves its egress stamp; reads latch. -/
def Obligations.TheClockItsServoAndTimePulses : Prop :=
  (∀ s : State, s.nsFrac < 25 * 2 ^ 48 → s.netAcc < 256 → |s.geti64 TIM_ADJ_LO| ≤ 2 ^ 48 / 1000 → Gives (exec .nsWrap s) fun t =>
    let ns := s.get TIM_EPOCH_NS + 294967296
    t.get TIM_NS ≤ 2 ∧ t.get TIM_EPOCH_NS = ns % 1000000000 ∧ t.get TIM_EPOCH_SEC = (s.get TIM_EPOCH_SEC + 4 + ns / 1000000000) % 2 ^ 32 ∧
      s.clk < t.clk) ∧
  (∀ (s : State) (p : Fin 2) (dom : Byte),
    let takes := s.on TIM_CTL_OC_EN = true ∧ s.portUp p = true ∧ s.get TIM_CTL_DOMAIN = dom.toNat ∧ s.mode ≠ 0 ∧ s.on MGT_STAT_RESTARTING = false
    (¬takes → ∀ m, exec (.ptpMessageRx p dom m) s = .next s) ∧
    (takes →
      (∀ a : Announce, s.tim.ptpMaster = none → s.on TIM_CTL_SLAVE_ONLY = true → Gives (exec (.ptpMessageRx p dom (.announce a)) s) fun t =>
        t.get64 TIM_GM_ID_LO = a.gm.toNat ∧ (s.get TIM_STAT_SERVO = 0 ∨ s.get TIM_STAT_SERVO = 3 → t.get TIM_STAT_SERVO = 1 ∧ t.tim.ptpGot = 0) ∧
        (s.get TIM_STAT_SERVO = 1 → t.get TIM_STAT_SERVO = 1) ∧
        ∃ m, t.tim.ptpMaster = some m ∧ m.src = a.src.toNat ∧ m.port = p.val ∧ m.gm = a.gm.toNat) ∧
      (∀ (src : BitVec 64) (t1 corr raw adj : Int) (c : PtpMaster), s.tim.ptpMaster = some c →
        (c.src ≠ src.toNat ∨ c.port ≠ p.val → exec (.ptpMessageRx p dom (.sync src t1 corr raw adj)) s = .next s) ∧
        (c.src = src.toNat → c.port = p.val →
          let delay := (if s.on TIM_CTL_P2P = true then (s.get TIM_PDELAY_PDELAY p : Int) else s.tim.ptpDelay) + s.geti TIM_ASYM_ASYM p
          let off := raw - s.ingLat p - t1 - corr - delay
          let big := (s.get TIM_STEP_TH : Int) * 65536 < off.natAbs
          let lim := ppm (min (s.get TIM_SERVO_SLEW_MAX) 1000)
          Gives (exec (.ptpMessageRx p dom (.sync src t1 corr raw adj)) s) fun t => t.geti64 TIM_OFFSET_LO = sx 64 (ux 64 off) ∧ t.mode = s.mode ∧
            t.on TIM_STAT_IN_TOL = decide ((off.natAbs : Int) < s.get TIM_SERVO_LOCK_TH * 65536) ∧
            (s.get TIM_STAT_SERVO = 1 → s.tim.ptpGot < 15 → t.get TIM_STAT_SERVO = 1 ∧ t.tim.ptpGot = s.tim.ptpGot + 1 ∧
              t.on TIM_STAT_STEPPED = s.on TIM_STAT_STEPPED ∧ t.get64 TIM_ADJ_LO = s.get64 TIM_ADJ_LO) ∧
            (s.get TIM_STAT_SERVO = 1 → 15 ≤ s.tim.ptpGot → t.get TIM_STAT_SERVO = 2 ∧ t.tim.ptpStepOk = false ∧
              t.geti64 TIM_ADJ_LO = clampI (-lim) lim adj ∧ (t.on TIM_STAT_STEPPED = true ↔ s.on TIM_STAT_STEPPED = true ∨ (s.tim.ptpStepOk = true ∧ big)) ∧
              (¬(s.tim.ptpStepOk = true ∧ big) → t.get TIM_NS = s.get TIM_NS ∧ t.nsFrac = s.nsFrac)) ∧
            (s.get TIM_STAT_SERVO = 2 → t.get TIM_STAT_SERVO = 2 ∧ t.geti64 TIM_ADJ_LO = clampI (-lim) lim adj ∧
              t.on TIM_STAT_STEPPED = s.on TIM_STAT_STEPPED ∧ t.get TIM_NS = s.get TIM_NS))) ∧
      (∀ t2 t3 corr raw t1 : Int, smLook s.tim.ptpTx (4 * p + 2) = some t1 → s.on TIM_CTL_P2P = true →
        Gives (exec (.ptpMessageRx p dom (.pdelayResp t2 t3 corr raw)) s) fun t =>
          t.get TIM_PDELAY_PDELAY p = ux 32 ((raw - s.ingLat p - t1 - (t3 - t2) - corr) / 2) ∧ OnlyRegs [TIM_PDELAY.addr p] s t))) ∧
  (∀ (s : State) (p : Fin 2) (k : Fin 4),
    let master := s.tim.ptpMaster = none ∧ s.on TIM_CTL_SLAVE_ONLY = false
    let due := s.on TIM_CTL_OC_EN = true ∧ s.portUp p = true ∧ s.mode ≠ 0 ∧ s.on MGT_STAT_RESTARTING = false ∧ (k.val = 2 → s.on TIM_CTL_P2P = true) ∧
      (k.val = 1 → s.tim.ptpMaster ≠ none ∧ s.on TIM_CTL_P2P = false) ∧ (k.val = 0 ∨ k.val = 3 → master)
    (¬due → exec (.ptpMessageSend p k) s = .next s) ∧
    (due → Gives (exec (.ptpMessageSend p k) s) fun t => smLook t.tim.ptpTx (4 * p + k) = some (s.now16 + s.egrLat p) ∧
      t.get TIM_CNT_TX_FRAMES p = (s.get TIM_CNT_TX_FRAMES p + 1) % 2 ^ 32 ∧ OnlyRegs [TIM_CNT_TX.addr p] s { t with tim := s.tim }) ∧
    (s.tim.ptpMaster = none → exec .announceTimeout s = .next s) ∧
    (s.tim.ptpMaster ≠ none → Gives (exec .announceTimeout s) fun t => t.tim.ptpMaster = none ∧ t.get TIM_NS = s.get TIM_NS ∧
      (s.get TIM_STAT_SERVO = 2 → t.get TIM_STAT_SERVO = 3 ∧ t.get TIM_STAT_HOLDOVERS = min (s.get TIM_STAT_HOLDOVERS + 1) 65535) ∧
      (s.get TIM_STAT_SERVO ≠ 2 → t.get TIM_STAT_SERVO = s.get TIM_STAT_SERVO ∧ t.get TIM_STAT_HOLDOVERS = s.get TIM_STAT_HOLDOVERS))) ∧
  (∀ (s : State) (v : BitVec 32) (hi : Bool) (n : Fin 2), Hears s →
    let a := TIM_ADJ_LO.addr + if hi then 4 else 0
    let free := s.mode = 1 ∨ s.mode = 6
    let take := fun (x : Nat) (t : State) => t.rd x = (if free then writeBits x (s.rd x) v else s.rd x) ∧
      (t.on TIM_STAT_CFG_ERR = true ↔ s.on TIM_STAT_CFG_ERR = true ∨ (¬free ∧ writeBits x (s.rd x) v ≠ s.rd x))
    (Gives (exec .timRelock s) fun t => t.tim.ptpStepOk = true ∧ t.on TIM_STAT_STEPPED = false ∧ OnlyRegs [TIM_STAT.addr] s { t with tim := s.tim }) ∧
    (s.get TIM_STAT_SERVO = 0 → Gives (exec (.timAdjWrite hi v) s) fun t => t.rd a = v ∧ OnlyRegs [a] s t) ∧
    (s.get TIM_STAT_SERVO ≠ 0 → exec (.timAdjWrite hi v) s = .next s) ∧
    (Gives (exec (.timConfigWrite none v) s) fun t => take TIM_CTL.addr t ∧ OnlyRegs [TIM_CTL.addr, TIM_STAT.addr] s { t with tim := s.tim } ∧
      t.on TIM_STAT_STEPPED = (s.on TIM_STAT_STEPPED && getBits v 6 1 == 0) ∧ t.tim.ptpStepOk = (s.tim.ptpStepOk || getBits v 6 1 == 1)) ∧
    (Gives (exec (.timConfigWrite (some n) v) s) fun t => take (TIM_NET_CFG.addr n) t ∧
      OnlyEv [TIM_NET_CFG.addr n, TIM_NET_STAT.addr n, TIM_STAT.addr] s t ∧ (t.on TIM_NET_CFG_EN n = false → t.on TIM_NET_STAT_LOCK n = false)) ∧
    (smGet (fun _ => []) s.latched 0 = [] →
      (Gives (exec (.timeReadLatch false) s) fun t => smGet (fun _ => []) t.latched 0 =
        [(TIM_NOW_SEC.addr, BitVec.ofNat 32 s.ptpSec), (TIM_NS.addr, s.rd TIM_NS.addr)] ∧ t = { s with latched := t.latched }) ∧
      (Gives (exec (.timeReadLatch true) s) fun t => smGet (fun _ => []) t.latched 0 = [(TIM_EPOCH_SEC.addr, s.rd TIM_EPOCH_SEC.addr)] ∧
        t = { s with latched := t.latched }))) ∧
  (∀ (s : State) (k : Fin 8) (v : BitVec 32),
    let x := s.tp k
    let run := s.get TPO_CFG_SRC k = 1 ∧ s.mode ≠ 0
    (¬run ∨ (x.fall = none ∧ x.next = none) → exec (.tpoEdge k) s = .next s) ∧
    (run → (∀ e, x.next = some e → (∀ f, x.fall = some f → e ≤ f) → Gives (exec (.tpoEdge k) s) fun t => (t.tp k).next = s.tpoNext k e ∧
        (if s.get TPO_WIDTH k = 0 then t.get TPO_STAT_PULSES k = s.get TPO_STAT_PULSES k ∧ (t.tp k).high = x.high
          else t.get TPO_STAT_PULSES k = (s.get TPO_STAT_PULSES k + 1) % 65536 ∧ (t.tp k).high = true ∧ (t.tp k).fall = some (e + s.get TPO_WIDTH k)) ∧
        OnlyRegs [TPO_STAT.addr k] s { t with tim := s.tim }) ∧
      (∀ f, x.fall = some f → (∀ e, x.next = some e → f < e) → Gives (exec (.tpoEdge k) s) fun t =>
        t.tp k = { x with fall := none, high := false } ∧ t = { s with tim := t.tim })) ∧
    (∀ e e', s.tpoNext k e = some e' → e < e' ∧ (e' = s.tpoStart k ∨ (e' ≤ e + s.get TPO_PERIOD k ∧ (s.get TPO_PERIOD k : Int) ∣ e' - s.tpoStart k))) ∧
    (Hears s → Gives (exec (.tpoArm k v) s) fun t => t.rd (TPO_CFG.addr k) = writeBits (TPO_CFG.addr k) (s.rd (TPO_CFG.addr k)) v ∧
      OnlyRegs [TPO_CFG.addr k] s { t with tim := s.tim, tpPulse := s.tpPulse } ∧
      (t.on TPO_CFG_ARM k = false → (t.tp k).next = none) ∧
      (t.on TPO_CFG_ARM k = true → s.on TPO_CFG_ARM k = false → s.nowNs ≤ s.tpoStart k → (t.tp k).next = some (s.tpoStart k)) ∧
      (t.get TPO_CFG_SRC k ≠ 1 → (t.tp k).high = false ∧ (t.tp k).fall = none)))

/-- O55. Heartbeats, judged slots and take-overs, contention, the Twin Link's states, switch-over and the twin configuration (R396, R397, R398, R399,
R403, R405, R409, R413). With EN = 0 nothing is sent, judged or trained. A heartbeat carries SEQ, mode, SB_READY and FIRED and toggles the pin. A
good one shows its SEQ, the partner's mode and readiness and ends a run of missed slots. A slot is missed with neither heartbeat nor toggle and is
counted; the fourth in SHADOW with AUTO_TAKE takes over, as does a partner in SAFE with SAFE_TAKE and a granted switch: the unit is active, the
take-over is counted with cause, time, STALE and the mode of the last image. Contention sends unit A to SAFE. The link goes DOWN, ALIGN, HELLO, UP.
SWITCH is refused or pending. Guarded registers change only in IDLE and SERVICE. -/
def Obligations.TwinHeartbeatsTakeOversAndTheLink : Prop :=
  let took := fun (z t : State) (cause : Nat) (p : PressImg) => t.on TWN_STAT_ACTIVE = true ∧ t.twinPull = (z.get TWN_STAT_ROLE == 1) ∧
    t.get TWN_TAKEOVERS_TAKE = min (z.get TWN_TAKEOVERS_TAKE + 1) 65535 ∧
    t.get TWN_TAKEOVERS_SWITCH = (if cause = 2 then min (z.get TWN_TAKEOVERS_SWITCH + 1) 65535 else z.get TWN_TAKEOVERS_SWITCH) ∧
    t.get TWN_LAST_CAUSE = cause ∧ t.get TWN_LAST_MODE = p.mode ∧ t.get TWN_LAST_SEC = z.ptpSec ∧ t.get TWN_LAST_NS_TIME = z.ptpNs ∧
    t.on TWN_LAST_STALE = (!(z.on TWN_STAT_SB_READY) || decide (((4 * z.tCycle : Nat) : Int) < z.copyAge)) ∧
    t.mode = if z.stagedBars = [] then p.mode else 5
  let standby := fun (s : State) (p : PressImg) => s.on TWN_CFG_EN = true ∧ s.on TWN_STAT_ACTIVE = false ∧ s.mode = 5 ∧ s.twn.twnPress = some p ∧
    (p.mode = 2 ∨ p.mode = 3 ∨ p.mode = 4)
  (∀ (s : State) (q : BitVec 16) (m : Fin 8) (ready tog net : Bool) (fired : List (BitVec 32)),
    let missed := s.twn.hbSeen = false ∧ tog = false
    let run := min (s.get TWN_HB_MISS_RUN + 1) 255
    (s.on TWN_CFG_EN = false ∨ s.mode = 0 → exec .hbSend s = .next s ∧ exec (.hbSlotEnd tog net) s = .next s) ∧
    (s.on TWN_CFG_EN = true → s.mode ≠ 0 → Gives (exec .hbSend s) fun t => t.get TWN_HB_SEQ_TX = (s.get TWN_HB_SEQ_TX + 1) % 65536 ∧
      t.twn.alivePin = !s.twn.alivePin ∧ t.twinPull = (s.twinPull || (s.get TWN_STAT_ROLE == 1 && s.on TWN_STAT_ACTIVE)) ∧
      (s.get TWN_STAT_LINK = 3 → ∃ l, t.twn.hbOut = some (t.get TWN_HB_SEQ_TX, s.mode, s.on TWN_STAT_SB_READY, l) ∧ l.length = 16) ∧
      OnlyRegs [TWN_HB.addr] s { t with twn := s.twn, twinPull := s.twinPull }) ∧
    (s.on TWN_CFG_EN = false ∨ s.get TWN_STAT_LINK ≠ 3 → exec (.hbRx q m ready fired) s = .next s) ∧
    (s.on TWN_CFG_EN = true → s.get TWN_STAT_LINK = 3 → (m.val ≠ 7 ∨ s.mode ≠ 5 ∨ s.on TWN_CFG_SAFE_TAKE = false ∨ s.on TWN_STAT_ACTIVE = true) →
      Gives (exec (.hbRx q m ready fired) s) fun t => t.get TWN_HB_SEQ_RX = q.toNat ∧ t.get TWN_STAT_PMODE = m.val ∧ t.on TWN_STAT_PARTNER_READY = ready ∧
        t.get TWN_HB_MISS_RUN = 0 ∧ t.twn.hbSeen = true ∧ t.twn.hbFired = some fired ∧ t.mode = s.mode ∧
        OnlyEv [TWN_HB.addr, TWN_STAT.addr, TWN_HB_MISS.addr] s { t with twn := s.twn }) ∧
    (∀ p, standby s p → s.get TWN_STAT_LINK = 3 → m.val = 7 → s.on TWN_CFG_SAFE_TAKE = true → Gives (exec (.hbRx q m ready fired) s) fun t => took s t 1 p) ∧
    (s.on TWN_CFG_EN = true → s.mode ≠ 0 →
      (¬missed → Gives (exec (.hbSlotEnd tog net) s) fun t => t.get TWN_HB_MISS_RUN = 0 ∧ t.get TWN_HB_MISS_TOTAL = s.get TWN_HB_MISS_TOTAL ∧ t.mode = s.mode ∧
        t.on TWN_STAT_NET = net ∧ t.twn.hbSeen = false) ∧
      (missed → (run ≠ 4 ∨ s.mode ≠ 5 ∨ s.on TWN_CFG_AUTO_TAKE = false ∨ s.on TWN_STAT_ACTIVE = true) → Gives (exec (.hbSlotEnd tog net) s) fun t =>
        t.get TWN_HB_MISS_RUN = run ∧ t.get TWN_HB_MISS_TOTAL = min (s.get TWN_HB_MISS_TOTAL + 1) 65535 ∧ t.mode = s.mode ∧
          t.on TWN_STAT_ACTIVE = s.on TWN_STAT_ACTIVE)) ∧
    (∀ p, standby s p → missed → run = 4 → s.on TWN_CFG_AUTO_TAKE = true → Gives (exec (.hbSlotEnd tog net) s) fun t => took s t 0 p)) ∧
  (∀ (s : State) (k : Byte) (ver : BitVec 16) (role : Bool) (lane : Fin 4),
    let link := s.get TWN_STAT_LINK
    let down := fun (t : State) (dest : Nat) => t.get TWN_STAT_LINK = dest ∧
      t.get TWN_LINK_DOWNS = (if link = 3 then min (s.get TWN_LINK_DOWNS + 1) 65535 else s.get TWN_LINK_DOWNS) ∧ OnlyEv [TWN_STAT.addr, TWN_LINK.addr] s t
    (s.mode = 0 ∨ s.on TWN_CFG_EN = false ∨ link ≠ 0 → exec .twinLinkTrain s = .next s) ∧
    (s.mode ≠ 0 → s.on TWN_CFG_EN = true → link = 0 → Gives (exec .twinLinkTrain s) fun t => t.get TWN_STAT_LINK = 1 ∧ OnlyRegs [TWN_STAT.addr] s t) ∧
    (link = 1 → Gives (exec (.twinLaneAlign k) s) fun t => t.get TWN_STAT_LINK = 2 ∧ t.get TWN_LINK_LOCK = 15 ∧ t.get TWN_LINK_SKEW = k.toNat ∧
      OnlyRegs [TWN_STAT.addr, TWN_LINK.addr] s t) ∧
    (link ≠ 1 → exec (.twinLaneAlign k) s = .next s) ∧
    (link ≠ 2 ∨ ver ≠ 1 → exec (.twinHelloRx ver role) s = .next s) ∧
    (link = 2 → b2n role = s.get TWN_STAT_ROLE → Gives (exec (.twinHelloRx 1 role) s) fun t => OnlyEv [] s t) ∧
    (link = 2 → b2n role ≠ s.get TWN_STAT_ROLE → Gives (exec (.twinHelloRx 1 role) s) fun t => t.get TWN_STAT_LINK = 3 ∧ OnlyEv [TWN_STAT.addr] s t) ∧
    (link = 0 → exec (.twinLaneLoss lane) s = .next s) ∧
    (link ≠ 0 → Gives (exec (.twinLaneLoss lane) s) fun t => down t 0 ∧ bitN (t.get TWN_LINK_LOCK) lane = false) ∧
    (Hears s → Gives (exec .twinRetrain s) fun t => down t (b2n (s.on TWN_CFG_EN))) ∧
    (s.on TWN_CFG_EN = true → s.get TWN_STAT_ROLE = 0 → s.on TWN_STAT_ACTIVE = true → s.mode ≠ 0 → s.mode ≠ 7 → Gives (exec .twinContention s) fun t =>
      t.mode = 7 ∧ t.on TWN_STAT_ACTIVE = false) ∧
    (s.on TWN_CFG_EN = false ∨ s.get TWN_STAT_ROLE = 1 ∨ s.on TWN_STAT_ACTIVE = false → exec .twinContention s = .next s) ∧
    (exec .twinPullRelease s = .next (if s.get TWN_STAT_ROLE = 1 then { s with twinPull := false } else s)) ∧
    (s.get TWN_CFG_AGE_H = 0 ∨ s.standbyHours ≤ s.get TWN_CFG_AGE_H → exec .twinStandbyAge s = .next s) ∧
    (s.get TWN_CFG_AGE_H ≠ 0 → s.get TWN_CFG_AGE_H < s.standbyHours → Gives (exec .twinStandbyAge s) fun t => OnlyEv [] s t)) ∧
  (∀ (s : State) (fit : CopyFit) (sects : CopySects) (i : Fin 6) (v : BitVec 32),
    let ok := s.on TWN_STAT_ACTIVE = true ∧ (s.mode = 2 ∨ s.mode = 3 ∨ s.mode = 4) ∧ s.on TWN_STAT_PARTNER_READY = true ∧ s.get TWN_STAT_LINK = 3
    (Hears s → (s.twn.twnSwitch = true → exec (.twinSwitch fit sects) s = .next s) ∧
      (s.twn.twnSwitch = false → ¬ok → Gives (exec (.twinSwitch fit sects) s) fun t => t.get TWN_SWITCH_STAT_RESULT = 2 ∧ OnlyRegs [TWN_SWITCH_STAT.addr] s t) ∧
      (s.twn.twnSwitch = false → ok → Gives (exec (.twinSwitch fit sects) s) fun t => t.get TWN_SWITCH_STAT_RESULT = 1 ∧ t.twn.twnSwitch = true ∧
        t.get TWN_COPY_TX_CYCLE = (s.get TWN_COPY_TX_CYCLE + 1) % 2 ^ 32 ∧ t.twn.copyOut = some (s.snapshot fit) ∧ t.mode = s.mode)) ∧
    (s.twn.twnSwitch = false → exec (.switchRx true) s = .next s) ∧
    (s.twn.twnSwitch = true → Gives (exec (.switchRx true) s) fun t => t.get TWN_SWITCH_STAT_RESULT = 0 ∧ t.twn.twnSwitch = false ∧
      if s.stagedBars = [] then t.mode = 5 else t.mode = s.mode ∧ t.tr = some ⟨5, 5, none, true, none, []⟩) ∧
    (s.mode ≠ 5 ∨ s.on TWN_STAT_ACTIVE = true → exec (.switchRx false) s = .next s) ∧
    (∀ p, standby s p → Gives (exec (.switchRx false) s) fun t => took s t 2 p) ∧
    (Hears s → let a := [TWN_CFG.addr, TWN_IMG_LO.addr, TWN_IMG_HI.addr, TWN_JOIN_LO.addr, TWN_JOIN_HI.addr, TWN_ATTACH.addr].getD i TWN_CFG.addr
      Gives (exec (.twnConfigWrite i v) s) fun t => t.mode = s.mode ∧
        (if s.mode = 1 ∨ s.mode = 6 then t.rd a = writeBits a (s.rd a) v ∧ t.on TWN_STAT_CFG_ERR = s.on TWN_STAT_CFG_ERR
          else t.rd a = s.rd a ∧ (t.on TWN_STAT_CFG_ERR = true ↔ s.on TWN_STAT_CFG_ERR = true ∨ writeBits a (s.rd a) v ≠ s.rd a)) ∧
        (t.on TWN_CFG_EN = true → s.on TWN_CFG_EN = false → t.on TWN_STAT_ACTIVE = (s.mode == 6) ∧ t.get TWN_STAT_LINK ≠ 0) ∧
        (t.on TWN_CFG_EN = false → s.on TWN_CFG_EN = true → t.on TWN_STAT_ACTIVE = false ∧ t.get TWN_STAT_LINK = 0 ∧ t.twinPull = false)))

/-- O56. Copy images sent, applied, acknowledged and gone stale, the join image, and the host's messages over the Twin Link (R400, R401, R402, R404,
R410, R428, R429). An active unit in READY, PRINT or HOLD with a CYCLE sends one image a cycle, or counts it late; the halves alternate. A standby
counts a bad image and applies a good one whole: CYCLE, SIZE, the press part, the reject count and the GIO levels are the image's. An
acknowledgement drops the changes that it covers. Stale copies clear SB_READY once. A JOIN image gives every NZT entry, other entries their reset
value, and each channel's CUR. A message of 1 to 4096 bytes goes out over an UP link, else it is dropped and counted; one that arrives is written
and reported where its queue has room, else it waits. -/
def Obligations.StateCopiesJoinsAndTwinMessages : Prop :=
  (∀ (s : State) (late : Bool) (fit : CopyFit) (sects : CopySects),
    let sends := s.on TWN_STAT_ACTIVE = true ∧ s.get TWN_CFG_CYCLE ≠ 0 ∧ (s.mode = 2 ∨ s.mode = 3 ∨ s.mode = 4)
    (¬sends → exec (.copySnapshot late fit sects) s = .next s) ∧
    (sends → (Gives (exec (.copySnapshot true fit sects) s) fun t => t.get TWN_CNT_COPY_LATE = min (s.get TWN_CNT_COPY_LATE + 1) 255 ∧
        OnlyEv [TWN_CNT_COPY.addr] s t) ∧
      (Gives (exec (.copySnapshot false fit sects) s) fun t => t.get TWN_COPY_TX_CYCLE = (s.get TWN_COPY_TX_CYCLE + 1) % 2 ^ 32 ∧
        t.twn.copyHalf = (!s.twn.copyHalf) ∧ t.twn.copyOut = some (s.snapshot fit) ∧ t.twn.copyWait.length = s.twn.copyWait.length + 1 ∧ t.mode = s.mode ∧
        t.get TWN_CNT_COPY_OVER = (if fit = none then s.get TWN_CNT_COPY_OVER else min (s.get TWN_CNT_COPY_OVER + 1) 255)))) ∧
  (∀ (s : State) (kib : BitVec 16) (m : CopyImg),
    (s.mode ≠ 5 ∨ s.on TWN_STAT_ACTIVE = true → ∀ x, exec (.copyImageRx x kib) s = .next s) ∧
    (s.mode = 5 → s.on TWN_STAT_ACTIVE = false →
      (Gives (exec (.copyImageRx none kib) s) fun t => t.get TWN_CNT_COPY_BAD = min (s.get TWN_CNT_COPY_BAD + 1) 255 ∧ OnlyEv [TWN_CNT_COPY.addr] s t) ∧
      ((∀ x ∈ m.nzt, x.1 < 1572864) → Gives (exec (.copyImageRx (some m) kib) s) fun t => t.get TWN_COPY_RX_CYCLE = m.cycle.toNat ∧
        t.get TWN_COPY_AGE_SIZE = kib.toNat ∧ t.rd SEQ_GIO_OUT.addr = m.gio ∧ t.rd SEQ_REJ_WR.addr = m.rejWr ∧ t.mode = 5 ∧ t.twn.twnStale = false ∧
        t.twn.twnJoin = (if s.twn.twnJoin = 2 then 3 else s.twn.twnJoin) ∧
        ∃ p, t.twn.twnPress = some p ∧ p.mode = m.mode.toNat ∧ p.bars = m.bars.toNat ∧ p.time = m.time.toNat))) ∧
  (∀ (s : State) (c : BitVec 32) (w : Nat × Nat × Nat × Nat × Nat) (r : List (Nat × Nat × Nat × Nat × Nat)),
    ((∀ x ∈ s.twn.copyWait, x.1 ≠ c.toNat) → exec (.copyAckRx c) s = .next s) ∧
    (s.twn.copyWait = w :: r → w.1 = c.toNat → Gives (exec (.copyAckRx c) s) fun t => t.twn.zoneChg = s.twn.zoneChg.drop w.2.1 ∧
      t.twn.zoneShf = s.twn.zoneShf.drop w.2.2.1 ∧ t.nzChg = s.nzChg.drop w.2.2.2.1 ∧ t.twn.copyRej = w.2.2.2.2 ∧ t.twn.copyWait.length = r.length ∧
      t = { s with twn := t.twn, nzChg := t.nzChg }) ∧
    (s.mode ≠ 5 ∨ s.twn.twnStale = true ∨ s.twn.twnJoin = 0 → exec .twinCopyStale s = .next s) ∧
    (s.mode = 5 → s.twn.twnStale = false → s.twn.twnJoin ≠ 0 → Gives (exec .twinCopyStale s) fun t => t.on TWN_STAT_SB_READY = false ∧
      t.twn.twnStale = true ∧ t.get TWN_CNT_COPY_STALE = min (s.get TWN_CNT_COPY_STALE + 1) 255 ∧
      OnlyEv [TWN_STAT.addr, TWN_CNT_COPY.addr] s { t with twn := s.twn })) ∧
  (∀ (s : State) (m : JoinImg),
    (s.mode ≠ 5 ∨ s.twn.twnJoin = 0 → exec (.joinImageRx m) s = .next s) ∧
    (s.mode = 5 → s.twn.twnJoin ≠ 0 → (∀ x ∈ m.nzt, x.1 < 1572864) → (m.nzt.map fun x => x.1).Nodup → (m.cur.map fun x => x.1).Nodup →
      Gives (exec (.joinImageRx m) s) fun t => t.twn.twnJoin = 2 ∧ t.mode = 5 ∧ (∀ x ∈ m.nzt, t.nzRead x.1 = x.2) ∧
        (∀ j < 1572864, j ∉ m.nzt.map (fun x => x.1) → t.nzRead j = resetAt (NZT.addr j)) ∧ ∀ x ∈ m.cur, t.get64 CHL_CH_CUR_LO x.1 = x.2.toNat)) ∧
  (∀ (s t0 : State) (q : Fin 2) (x : Sub), let n := 60 + q.val
    let len := subF32 x 0x20
    (s.takeSub n = none → exec (.twinMsgSend q) s = .next s) ∧
    (s.takeSub n = some (x, t0) →
      (len = 0 → exec (.twinMsgSend q) s = .next t0) ∧
      (4096 < len ∨ (len ≠ 0 ∧ s.get TWN_STAT_LINK ≠ 3) → Gives (exec (.twinMsgSend q) s) fun t =>
        t.get HIF_Q_STAT_LOST n = min (s.get HIF_Q_STAT_LOST n + 1) 65535 ∧ OnlyEv [HIF_Q_STAT.addr n] t0 t) ∧
      (len ≠ 0 → len ≤ 4096 → s.get TWN_STAT_LINK = 3 → Gives (exec (.twinMsgSend q) s) fun t =>
        smGet (fun _ => []) t.hst.msgOut n = (s.ld (subF64 x 0x18) len).map (BitVec.ofNat 8) ∧ t = { t0 with hst.msgOut := t.hst.msgOut }))) ∧
  (∀ (s : State) (q : Fin 2) (d : List Byte), let n := 62 + q.val
    let room := s.qRoom n = true ∧ s.qUsed n < 16
    (d = [] ∨ 4096 < d.length ∨ s.get TWN_STAT_LINK ≠ 3 → exec (.twinMsgRx q d) s = .next s) ∧
    (d ≠ [] → d.length ≤ 4096 → s.get TWN_STAT_LINK = 3 →
      (¬room → Gives (exec (.twinMsgRx q d) s) fun t => t.on HIF_Q_STAT_STALL n = true ∧ OnlyRegs [HIF_Q_STAT.addr n] s t) ∧
      (room → Gives (exec (.twinMsgRx q d) s) fun t => t.on HIF_Q_STAT_STALL n = false ∧ t.get HIF_Q_PI n = (s.get HIF_Q_PI n + 1) % 2 ^ 32 ∧
        smGet (fun _ => 0) t.hst.msgCnt n = smGet (fun _ => 0) s.hst.msgCnt n + 1 ∧ t.mode = s.mode ∧
        ∃ e, (t.qu n).ring = (s.qu n).ring ++ [e] ∧ e.kind = 9 ∧ e.body.getD 4 0 = BitVec.ofNat 32 d.length)))

/-- O57. Register writes, the store window, queues and their indices, vectors, the PCIe link and its resets, the host watchdog (R9, R415, R416, R418,
R419, R428, R433, R434, R435, R437, R438). A register without a row of its own takes a write by its fields' types; one with a row does what that row
does. A bad BAR0 access is counted. BAR2 beyond the capacity is counted and writes nothing; within it, it reads or writes the store at the window.
Enabling a queue begins it anew; PI and CI out of range are ignored with ERR = RANGE, else they move; a fetch takes the next submission, or a PCIe
error stops the queue. A timer signals what is unsignalled, unmasking a vector signals what is pending. Link, hot reset, watchdog and routes act as
their rules say. -/
def Obligations.HostAccessesQueuesAndInterrupts : Prop :=
  (∀ (s : State) (a : BitVec 26) (v : BitVec 32), Hears s →
    (∀ x ∈ [TIM_PRIO.addr, TIM_STEP_TH.addr, TIM_SERVO.addr, LB_CFG.addr, SWC_FBDIV.addr, PIX_SOLO.addr, TIM_STAT.addr], a.toNat / 4 * 4 = x →
      Gives (exec (.registerWrite a v) s) fun t => t.rd x = writeBits x (s.rd x) v ∧ OnlyRegs [x] s t) ∧
    (a.toNat / 4 * 4 = TIM_STEP_TH.addr → Gives (exec (.registerWrite a v) s) fun t => t.rd TIM_STEP_TH.addr = v) ∧
    (a.toNat / 4 * 4 = TIM_STAT.addr → Gives (exec (.registerWrite a v) s) fun t => t.on TIM_STAT_CFG_ERR = (s.on TIM_STAT_CFG_ERR && !(bitN v.toNat 3)) ∧
      t.get TIM_STAT_SERVO = s.get TIM_STAT_SERVO ∧ t.get TIM_STAT_HOLDOVERS = s.get TIM_STAT_HOLDOVERS) ∧
    (a.toNat / 4 * 4 = HIF_WDOG.addr → exec (.registerWrite a v) s = exec (.hifWdogWrite v) s) ∧
    (a.toNat / 4 * 4 = SEQ_GIO_SET.addr → exec (.registerWrite a v) s = exec (.gioSet v) s)) ∧
  (∀ (s : State) (x : BitVec 36) (n : BitVec 13) (l : List Byte) (v : BitVec 32),
    let a := s.get HIF_WIN_BASE * 2 ^ 30 + x.toNat
    (Gives (exec .bar0BadAccess s) fun t => t.get HIF_ERR_BAD_ACCESS = min (s.get HIF_ERR_BAD_ACCESS + 1) 255 ∧ OnlyRegs [HIF_ERR.addr] s t) ∧
    (Hears s → (Gives (exec (.hifWinWrite v) s) fun t => t.rd HIF_WIN.addr = writeBits HIF_WIN.addr (s.rd HIF_WIN.addr) v ∧ OnlyRegs [HIF_WIN.addr] s t) ∧
      (s.memCap < a + l.length ∨ s.memCap ≤ a → Gives (exec (.bar2Access x n (some l)) s) fun t =>
        t.get HIF_WIN_ERR_RANGE = min (s.get HIF_WIN_ERR_RANGE + 1) 65535 ∧ OnlyEv [HIF_WIN_ERR.addr] s t) ∧
      (a + l.length ≤ s.memCap → a < s.memCap → exec (.bar2Access x n (some l)) s = .next (s.st a (l.map fun b => b.toNat))) ∧
      (s.memCap < a + n.toNat ∨ s.memCap ≤ a → Gives (exec (.bar2Access x n none) s) fun t => t.hst.bar2Out = none ∧
        t.get HIF_WIN_ERR_RANGE = min (s.get HIF_WIN_ERR_RANGE + 1) 65535 ∧ OnlyEv [HIF_WIN_ERR.addr] s { t with hst := s.hst }) ∧
      (a + n.toNat ≤ s.memCap → a < s.memCap → Gives (exec (.bar2Access x n none) s) fun t =>
        t.hst.bar2Out = some ((s.ld a n.toNat).map (BitVec.ofNat 8)) ∧ t.store = s.store ∧ t.mode = s.mode ∧
        t.get HIF_WIN_ERR_POISON = (if s.bad a n.toNat = true then min (s.get HIF_WIN_ERR_POISON + 1) 65535 else s.get HIF_WIN_ERR_POISON)))) ∧
  (∀ (s : State) (q : Qn) (v : BitVec 32) (x : Option Sub), let host := hostQueue q
    (Hears s → (s.qu q).waiting = [] → getBits v 5 1 = 0 →
      (s.on HIF_Q_CFG_EN q = false → getBits v 0 1 = 1 → Gives (exec (.queueEnable q v) s) fun t => t.on HIF_Q_CFG_EN q = true ∧ t.get HIF_Q_PI q = 0 ∧
        t.get HIF_Q_CI q = 0 ∧ t.on HIF_Q_STAT_ACTIVE q = true ∧ t.get HIF_Q_STAT_ERR q = 0 ∧ (t.qu q).ring = [] ∧ t.mode = s.mode) ∧
      (getBits v 0 1 = 0 → Gives (exec (.queueEnable q v) s) fun t => t.on HIF_Q_CFG_EN q = false ∧ t.on HIF_Q_STAT_ACTIVE q = false ∧
        t.get HIF_Q_PI q = s.get HIF_Q_PI q ∧ t.mode = s.mode)) ∧
    (Hears s →
      (host = false → exec (.queueDoorbell q v) s = .next s) ∧
      (host = true → s.qSize q < (v.toNat + 2 ^ 32 - s.get HIF_Q_CI q) % 2 ^ 32 → Gives (exec (.queueDoorbell q v) s) fun t =>
        t.get HIF_Q_STAT_ERR q = 1 ∧ t.on HIF_Q_STAT_ACTIVE q = s.on HIF_Q_STAT_ACTIVE q ∧ OnlyEv [HIF_Q_STAT.addr q] s t) ∧
      (host = true → (v.toNat + 2 ^ 32 - s.get HIF_Q_CI q) % 2 ^ 32 ≤ s.qSize q → Gives (exec (.queueDoorbell q v) s) fun t =>
        t.get HIF_Q_PI q = v.toNat ∧ OnlyRegs [HIF_Q_PI.addr q] s { t with hst := s.hst }) ∧
      (host = true → exec (.queueCiWrite q v) s = .next s) ∧
      (host = false → s.qUsed q < (v.toNat + 2 ^ 32 - s.get HIF_Q_CI q) % 2 ^ 32 → Gives (exec (.queueCiWrite q v) s) fun t =>
        t.get HIF_Q_STAT_ERR q = 1 ∧ t.get HIF_Q_CI q = s.get HIF_Q_CI q ∧ OnlyEv [HIF_Q_STAT.addr q] s t) ∧
      (host = false → (v.toNat + 2 ^ 32 - s.get HIF_Q_CI q) % 2 ^ 32 ≤ s.qUsed q → (s.qu q).waiting = [] → Gives (exec (.queueCiWrite q v) s) fun t =>
        t.get HIF_Q_CI q = v.toNat ∧ t.get HIF_Q_PI q = s.get HIF_Q_PI q ∧
          (t.qu q).ring = (s.qu q).ring.drop ((v.toNat + 2 ^ 32 - s.get HIF_Q_CI q) % 2 ^ 32) ∧ t.mode = s.mode)) ∧
    (s.on HIF_Q_STAT_ACTIVE q = false → exec (.descriptorFetch q x) s = .next s) ∧
    (s.on HIF_Q_STAT_ACTIVE q = true → host = true → s.on HIF_STAT_LINK = true → s.qUsed q ≠ 0 → q.val ≠ 52 → q.val ≠ 53 →
      (∀ y, x = some y → Gives (exec (.descriptorFetch q x) s) fun t => t.get HIF_Q_CI q = (s.get HIF_Q_CI q + 1) % 2 ^ 32 ∧
        (t.qu q).fetched = (s.qu q).fetched ++ [y] ∧ OnlyRegs [HIF_Q_CI.addr q] s { t with queues := s.queues }) ∧
      (x = none → Gives (exec (.descriptorFetch q x) s) fun t => t.get HIF_Q_STAT_ERR q = 2 ∧ t.on HIF_Q_STAT_ACTIVE q = false ∧
        t.get HIF_ERR_HOST = min (s.get HIF_ERR_HOST + 1) 65535 ∧ OnlyEv [HIF_Q_STAT.addr q, HIF_ERR.addr] s t)) ∧
    (let vec := s.get HIF_Q_VEC_VEC q
     let due := host = false ∧ (s.qu q).unsig ≠ 0 ∧ s.get HIF_Q_MOD_TIME q ≠ 0
     (¬due → exec (.interruptTimer q) s = .next s) ∧
     (due → Gives (exec (.interruptTimer q) s) fun t => (t.qu q).unsig = 0 ∧ (t.qu q).ring = (s.qu q).ring ∧
      (s.on MSIX_CTRL_MASK vec = true → bitN (t.get MSIX_PBA (vec / 32)) (vec % 32) = true ∧ t.irqSent = s.irqSent) ∧
      (s.on MSIX_CTRL_MASK vec = false → smGet (fun _ => 0) t.irqSent vec = smGet (fun _ => 0) s.irqSent vec + 1 ∧ t.regs = s.regs)))) ∧
  (∀ (s : State) (n : Fin 64) (gen : Fin 5) (w : Fin 4) (v : BitVec 32) (r : Fin 18),
    (Hears s → Gives (exec (.msixUnmask n) s) fun t => t.on MSIX_CTRL_MASK n = false ∧ bitN (t.get MSIX_PBA (n.val / 32)) (n.val % 32) = false ∧
      smGet (fun _ => 0) t.irqSent n = smGet (fun _ => 0) s.irqSent n + (if bitN (s.get MSIX_PBA (n.val / 32)) (n.val % 32) = true then 1 else 0)) ∧
    (s.on HIF_STAT_LINK = false → exec .pcieLinkDown s = .next s) ∧
    (s.on HIF_STAT_LINK = true → (Gives (exec .pcieLinkDown s) fun t => t.on HIF_STAT_LINK = false ∧
      t.get HIF_ERR_DOWNS = min (s.get HIF_ERR_DOWNS + 1) 255 ∧ OnlyEv [HIF_STAT.addr, HIF_ERR.addr] s t) ∧ exec (.pcieLinkUp gen w) s = .next s) ∧
    (s.on HIF_STAT_LINK = false → Gives (exec (.pcieLinkUp gen w) s) fun t => t.on HIF_STAT_LINK = true ∧ t.get HIF_STAT_GEN = gen.val + 1 ∧
      t.get HIF_STAT_WIDTH = 2 ^ w.val ∧ t.mode = s.mode) ∧
    (Gives (exec .pcieHotReset s) fun t => t.mode = s.mode ∧ t.store = s.store ∧ (∀ i < 2, t.get MSIX_PBA i = 0) ∧ ∀ q < 64, t.on HIF_Q_CFG_EN q = false ∧
      t.on HIF_Q_STAT_ACTIVE q = false ∧ t.get HIF_Q_PI q = 0 ∧ t.get HIF_Q_CI q = 0 ∧ t.get HIF_Q_VEC_VEC q = q ∧ (t.qu q).ring = [] ∧
      (t.qu q).fetched = [] ∧ t.rd (MSIX_CTRL.addr q) = resetAt (MSIX_CTRL.addr q)) ∧
    (Hears s → (Gives (exec (.hifWdogWrite v) s) fun t => t.rd HIF_WDOG.addr = writeBits HIF_WDOG.addr (s.rd HIF_WDOG.addr) v ∧
        t.on HIF_STAT_HOST_LOST = false ∧ OnlyRegs [HIF_WDOG.addr, HIF_STAT.addr] s t) ∧
      (Gives (exec .hifWdogKick s) fun t => t.on HIF_STAT_HOST_LOST = false ∧ t.on HIF_STAT_LINK = s.on HIF_STAT_LINK ∧ OnlyRegs [HIF_STAT.addr] s t) ∧
      (Gives (exec (.evtRouteWrite r v) s) fun t => t.rd (EVT_ROUTE.addr r) = writeBits (EVT_ROUTE.addr r) (s.rd (EVT_ROUTE.addr r)) v ∧
        OnlyRegs [EVT_ROUTE.addr r] s t)) ∧
    (s.get HIF_WDOG_TMO = 0 ∨ s.on HIF_STAT_HOST_LOST = true → exec .hostLost s = .next s) ∧
    (s.get HIF_WDOG_TMO ≠ 0 → s.on HIF_STAT_HOST_LOST = false → Gives (exec .hostLost s) fun t => t.on HIF_STAT_HOST_LOST = true ∧
      OnlyEv [HIF_STAT.addr] s t))

/-- O58. Descriptors of Q00 to Q15: what each operation does when it starts, its completion entry, and aborts (R174, R418, R421, R422, R423, R424, R425,
R428, R431, R432). A descriptor starts when it is the oldest fetched, none is in progress and no completion entry waits; non-zero fields or flags it
does not know give BAD_OP. NOP and FENCE succeed; a transfer of LEN 0 succeeds and moves nothing, one beyond the capacity ends RANGE; COPY_IN and
FILL write the store, COPY_OUT reads it. JOB_LOAD ends with the first failed check or enters the job in a free slot, as start job with its flag;
JOB_UNLOAD frees the slot of a job not in use. Completion commits an entry with status, queue and TAG to the paired queue; a copy cut short is
HOST_ERR and counted; a fence waits. Abort ends the descriptor in progress and all fetched. -/
def Obligations.DescriptorsRunAndComplete : Prop :=
  (∀ (s : State) (q : Fin 16) (d : List Byte) (n : Nat),
    (s.qu q).run ≠ none ∨ s.takeSub q = none ∨ (s.qu (16 + q.val)).waiting ≠ [] →
      exec (.nop q) s = .next s ∧ exec (.copyIn q d n) s = .next s ∧ exec (.copyOut q none n) s = .next s ∧ exec (.fill q n) s = .next s ∧
      exec (.fence q) s = .next s ∧ exec (.jobLoad q) s = .next s ∧ exec (.jobUnload q) s = .next s) ∧
  (∀ (s t0 : State) (q : Fin 16) (d : List Byte) (n : Nat) (x : Sub), (s.qu q).run = none → s.takeSub q = some (x, t0) → (s.qu (16 + q.val)).waiting = [] →
    let a := subF64 x 0x18
    let len := subF32 x 0x20
    let runs := fun (t : State) (status result : Nat) => ∃ r, (t.qu q).run = some r ∧ r.sub = x ∧ r.status = status ∧ r.result = result ∧
      (t.qu q).fetched = (t0.qu q).fetched
    let good := x.zeros = true ∧ x.flags = 0
    (∀ p ∈ [(0, Instr.nop q), (1, Instr.copyIn q d n), (2, Instr.copyOut q none n), (3, Instr.fill q n), (4, Instr.fence q), (5, Instr.jobLoad q),
        (6, Instr.jobUnload q)], x.op = p.1 → x.zeros = false ∨ 1 < x.flags →
      Gives (exec p.2 s) fun t => runs t 4 0 ∧ t = { s with queues := t.queues }) ∧
    (x.op = 0 → good → Gives (exec (.nop q) s) fun t => runs t 0 0 ∧ t = { s with queues := t.queues }) ∧
    (6 < x.op → Gives (exec (.nop q) s) fun t => runs t 4 0 ∧ t = { s with queues := t.queues }) ∧
    (x.op = 4 → x.zeros = true → x.flags ≤ 1 → Gives (exec (.fence q) s) fun t => runs t 0 0 ∧ t = { s with queues := t.queues }) ∧
    (good → ∀ p ∈ [(1, Instr.copyIn q d n), (2, Instr.copyOut q none n), (3, Instr.fill q n)], x.op = p.1 →
      (len = 0 → Gives (exec p.2 s) fun t => runs t 0 0 ∧ t.store = s.store) ∧
      (len ≠ 0 → s.memCap < a + len → Gives (exec p.2 s) fun t => runs t 3 0 ∧ t.store = s.store)) ∧
    (good → len ≠ 0 → a + len ≤ s.memCap →
      (x.op = 1 → s.on HIF_STAT_LINK = true → d.length = len → Gives (exec (.copyIn q d len) s) fun t => runs t 0 len ∧
        t.store = (s.st a (d.map fun b => b.toNat)).store) ∧
      (x.op = 3 → Gives (exec (.fill q len) s) fun t => runs t 0 len ∧
        t.store = (s.st a ((List.range len).map fun i => (bytesOf 8 (subF64 x 0x28)).getD (i % 8) 0 % 256)).store) ∧
      (x.op = 2 → s.on HIF_STAT_LINK = true → Gives (exec (.copyOut q none len) s) fun t => runs t (if s.bad a len = true then 1 else 0) len ∧
        t.store = s.store ∧ t.hst.hostWr = some (subF64 x 0x10, (s.ld a len).map (BitVec.ofNat 8)))) ∧
    (x.op = 5 → x.zeros = true → x.flags ≤ 1 →
      (∀ st, s.judgeJob x = (st, none) → st ≠ 0 → Gives (exec (.jobLoad q) s) fun t => runs t st 0 ∧ t.store = s.store ∧
        ∀ j < 8, t.rd (HIF_JOB_STAT.addr j) = s.rd (HIF_JOB_STAT.addr j)) ∧
      (∀ j, s.judgeJob x = (0, some j) → Gives (exec (.jobLoad q) s) fun t => ∃ slot < 8, s.on HIF_JOB_STAT_VALID slot = false ∧
        t.on HIF_JOB_STAT_VALID slot = true ∧ t.get64 HIF_JOB_DESC_LO slot = a ∧ t.on HIF_JOB_STAT_START slot = (x.flags == 1) ∧ t.store = s.store ∧
        (x.flags = 1 → ∀ k < 8, k ≠ slot → t.on HIF_JOB_STAT_START k = false) ∧
        ∃ r, (t.qu q).run = some r ∧ r.sub = x ∧ r.status = 0 ∧ r.result % 2 ^ 32 = slot)) ∧
    (x.op = 6 → good →
      (s.jobSlot a = none → Gives (exec (.jobUnload q) s) fun t => runs t 0x18 0 ∧ t = { s with queues := t.queues }) ∧
      (∀ j, s.jobSlot a = some j → let busy := s.on HIF_JOB_STAT_START j = true ∨ s.on HIF_JOB_STAT_RUNNING j = true ∨ s.on HIF_JOB_STAT_CHAINED j = true
        (busy → Gives (exec (.jobUnload q) s) fun t => runs t 0x17 0 ∧ t = { s with queues := t.queues }) ∧
        (¬busy → Gives (exec (.jobUnload q) s) fun t => runs t 0 j ∧ t.on HIF_JOB_STAT_VALID j = false ∧
          OnlyRegs [HIF_JOB_STAT.addr j] s { t with queues := s.queues })))) ∧
  (∀ (s : State) (q : Fin 16),
    ((s.qu q).run = none → exec (.descriptorComplete q) s = .next s) ∧
    (∀ r, (s.qu q).run = some r →
      (r.sub.op = 4 → s.fenceOk q r.sub = false → exec (.descriptorComplete q) s = .next s) ∧
      (r.sub.op ≠ 4 ∨ s.fenceOk q r.sub = true → r.result = r.lim ∨ r.sub.op ∉ [1, 2, 3] → s.qRoom (16 + q.val) = true → (s.qu (16 + q.val)).waiting = [] →
        let cut := (r.sub.op = 1 ∨ r.sub.op = 2) ∧ r.status ≤ 1 ∧ r.result < subF32 r.sub 0x20
        Gives (exec (.descriptorComplete q) s) fun t => (t.qu q).run = none ∧ (t.qu q).fetched = (s.qu q).fetched ∧ t.mode = s.mode ∧ t.store = s.store ∧
          t.get HIF_ERR_HOST = (if cut then min (s.get HIF_ERR_HOST + 1) 65535 else s.get HIF_ERR_HOST) ∧
          t.get HIF_Q_PI (16 + q.val) = (s.get HIF_Q_PI (16 + q.val) + 1) % 2 ^ 32 ∧
          ∃ e, (t.qu (16 + q.val)).ring = (s.qu (16 + q.val)).ring ++ [e] ∧ e.kind = 1 ∧ e.status = (if cut then 2 else r.status) ∧ e.src = q.val ∧ e.tag = r.sub.tag)) ∧
    (Hears s →
      ((s.qu q).run = none → (s.qu q).fetched = [] → Gives (exec (.queueAbort q) s) fun t =>
        t.get HIF_Q_STAT_ABORT q = (if (s.qu q).ended = none then 0 else 2) ∧ t.store = s.store ∧ t.mode = s.mode) ∧
      (∀ r, (s.qu q).run = some r → Gives (exec (.queueAbort q) s) fun t => t.get HIF_Q_STAT_ABORT q = 1 ∧ (t.qu q).run = none ∧ (t.qu q).fetched = [] ∧
        t.store = s.store ∧ t.mode = s.mode ∧
        (r.sub.op = 5 → r.status = 0 → t.on HIF_JOB_STAT_VALID (r.result % 8) = false))))

/-- O59. Mailbox requests: what each CMD does and answers, and how a write of SPI NOR ends (R176, R428, R440, R441, R454, R463). A request is taken when
the firmware runs, no reply of its queue waits and no write of its queue is in progress; non-zero reserved bytes or an unknown CMD end BAD_CMD. PING
answers SEQ. FENCE and PERMIT change the permission view, RANGE, BAD_MODE, FAILED as listed. Requests that name a store address end RANGE while the
store is not READY; the reads copy their record to ADDR, the writers queue one write, which its reply follows. A write that reads back, at once or
again, ends DONE; else NOR_ERR and NOR stays as it was. A training record goes into the copy that is not in force. -/
def Obligations.MailboxRequestsAndNorWrites : Prop :=
  (∀ (s t0 : State) (q : Fin 2) (x : Sub),
    let all := [(1, Instr.mboxPing q), (2, Instr.mboxFence q), (3, Instr.mboxPermit q), (0x10, Instr.trainRead q), (0x11, Instr.calRead q),
      (0x12, Instr.calPlace q), (0x13, Instr.boardWrite q), (0x20, Instr.imageWrite q), (0x21, Instr.imageCommit q), (0x30, Instr.logRead q)]
    (s.takeSub (56 + q.val) = none ∨ s.fwRuns = false ∨ (s.qu (58 + q.val)).waiting ≠ [] ∨ s.norReplies.contains q.val = true →
      ∀ p ∈ all, exec p.2 s = .next s) ∧
    (s.norJobs ≠ [] → exec (.boardWrite q) s = .next s ∧ exec (.imageWrite q) s = .next s ∧ exec (.imageCommit q) s = .next s) ∧
    (s.takeSub (56 + q.val) = some (x, t0) → (∀ p ∈ all, p.1 ≠ 1 → mbCmd x ≠ p.1 → exec p.2 s = .next s) ∧
      (mbCmd x ≠ 1 → mbCmd x ∈ all.map (fun p => p.1) → exec (.mboxPing q) s = .next s)) ∧
    (s.takeSub (56 + q.val) = some (x, t0) → s.fwRuns = true → (s.qu (58 + q.val)).waiting = [] → s.norReplies.contains q.val = false →
      let a := mbAddr x
      let fits := mbZeros x (mbCmd x == 0x13 && bitN (mbArg1 x) 0) = true
      let ready := s.on MEM_STAT_READY = true
      (fits ∧ mbCmd x = 1 → s.qRoom (58 + q.val) = true → Gives (exec (.mboxPing q) s) fun t => ∃ e, (t.qu (58 + q.val)).ring = (s.qu (58 + q.val)).ring ++ [e] ∧
        e.kind = 8 ∧ e.status = 0 ∧ e.tag = x.tag ∧ e.body.getD 0 0 = s.rd GLB_FW_SEQ.addr ∧ t.mode = s.mode ∧ t.store = s.store) ∧
      (mbCmd x ∉ all.map (fun p => p.1) → exec (.mboxPing q) s = .next (t0.reply q x.tag 1)) ∧
      (¬fits → s.norJobs = [] → ∀ p ∈ all, mbCmd x = p.1 → exec p.2 s = .next (t0.reply q x.tag 1)) ∧
      (fits → mbCmd x = 2 →
        (0xD4 ≤ mbArg0 x → exec (.mboxFence q) s = .next (t0.reply q x.tag 3)) ∧
        (s.get GLB_UST_PERMIT (mbArg0 x) = 4 → mbArg0 x < 0xD4 → exec (.mboxFence q) s = .next (t0.reply q x.tag 0)) ∧
        (mbArg0 x < 0xD4 → exec (.mboxFence q) s = .next ((t0.fenceUnit (mbArg0 x)).reply q x.tag 0) ∧
          (s.printing = false → s.get GLB_UST_PERMIT (mbArg0 x) ≠ 5 → Gives (exec (.mboxFence q) s) fun t => t.get GLB_UST_PERMIT (mbArg0 x) = 4 ∧ t.mode = s.mode))) ∧
      (fits → mbCmd x = 3 → let n := mbArg0 x
        let stays := 0xA0 ≤ n ∧ n < 0xB8 ∧ s.mode ≠ 1 ∧ s.mode ≠ 6
        (0xD4 ≤ n → exec (.mboxPermit q) s = .next (t0.reply q x.tag 3)) ∧
        (stays → exec (.mboxPermit q) s = .next (t0.reply q x.tag 2)) ∧
        (n < 0xD4 → ¬stays → s.get GLB_UST_STATE n = 5 → exec (.mboxPermit q) s = .next (t0.reply q x.tag 5)) ∧
        (n < 0xD4 → ¬stays → s.get GLB_UST_STATE n ≠ 5 → s.get GLB_UST_PERMIT n = 1 → exec (.mboxPermit q) s = .next (t0.reply q x.tag 0)) ∧
        (n < 0xD4 → ¬stays → s.get GLB_UST_STATE n ≠ 5 → s.get GLB_UST_PERMIT n ≠ 1 → s.get GLB_UST_PERMIT n ≠ 5 →
          Gives (exec (.mboxPermit q) s) fun t => t.get GLB_UST_PERMIT n = 1 ∧ t.mode = s.mode ∧ t.store = s.store)) ∧
      (fits → ¬ready → s.norJobs = [] →
        (∀ p ∈ [(0x10, Instr.trainRead q), (0x11, Instr.calRead q), (0x30, Instr.logRead q)], mbCmd x = p.1 → exec p.2 s = .next (t0.reply q x.tag 3)) ∧
        (mbCmd x = 0x12 → exec (.calPlace q) s = .next (t0.reply q x.tag 3))) ∧
      (fits → ready →
        (mbCmd x = 0x10 → exec (.trainRead q) s = .next (match s.trainRead with
          | some b => (t0.st a b).reply q x.tag 0 0x6024
          | none => t0.reply q x.tag 6)) ∧
        (mbCmd x = 0x11 → exec (.calRead q) s = .next (match s.calCur with
          | some i => (t0.st a (s.norLd (0x3000000 + 0x400000 * i) 0x400000)).reply q x.tag 0 0x400000
          | none => t0.reply q x.tag 6)) ∧
        (mbCmd x = 0x12 → let u := mbArg0 x
          let c := s.camCal u
          (7 < u → exec (.calPlace q) s = .next (t0.reply q x.tag 3)) ∧
          (u ≤ 7 → c = CamCal.empty → exec (.calPlace q) s = .next (t0.reply q x.tag 6)) ∧
          (u ≤ 7 → c ≠ CamCal.empty → Gives (exec (.calPlace q) s) fun t => t.get64 CAM_U_TONE_LO u = a ∧ t.get64 CAM_U_FLAT_LO u = (a + 6144) % 2 ^ 64 ∧
            t.store = ((s.st a ((List.range 3072).flatMap fun i => bytesOf 2 (c.tone.getD i 0))).st (a + 6144)
              ((List.range (3 * c.nflat)).flatMap fun i => bytesOf 4 (c.flat.getD i 0))).store)) ∧
        (mbCmd x = 0x30 → let l := s.logFrom (mbArg1 x) (mbLen x)
          ∃ b : List Nat, b.length = 64 * l.length ∧ exec (.logRead q) s = .next ((t0.st a b).reply q x.tag 0 l.length))) ∧
      (fits → s.norJobs = [] → mbCmd x = 0x13 → let inl := bitN (mbArg1 x) 0 = true
        let res := s.get GLB_START_STAT_RESULT
        let allowed := s.mode = 6 ∨ (inl ∧ s.mode = 7 ∧ s.on GLB_START_STAT_DONE = false ∧ (res = 6 ∨ res = 7))
        let queued := fun (b : List Nat) => exec (.boardWrite q) s = .next { t0 with norJobs := [.cal (s.boardRec b) (some (q.val, x.tag))] }
        (¬allowed → exec (.boardWrite q) s = .next (t0.reply q x.tag 2)) ∧
        (allowed → inl → queued ([mbArg0 x % 256, 0] ++ bytesOf 6 a ++ bytesOf 4 (subF32 x 0x24) ++ bytesOf 4 (subF32 x 0x28) ++ List.replicate 48 0)) ∧
        (allowed → ¬inl → ready → s.bad a 64 = false → queued (s.ld a 64)) ∧
        (allowed → ¬inl → ready → s.bad a 64 = true → exec (.boardWrite q) s = .next (t0.reply q x.tag 6)) ∧
        (allowed → ¬inl → ¬ready → exec (.boardWrite q) s = .next (t0.reply q x.tag 3))) ∧
      (fits → s.norJobs = [] → mbCmd x = 0x20 → let k := mbArg0 x
        let len := mbLen x
        let range := 1 < k ∨ 0x1800000 < mbArg1 x + len ∨ 2 ^ 20 < len
        (range → exec (.imageWrite q) s = .next (t0.reply q x.tag 3)) ∧
        (¬range → k = s.get GLB_BOOT_SLOT → exec (.imageWrite q) s = .next (t0.reply q x.tag 4)) ∧
        (¬range → k ≠ s.get GLB_BOOT_SLOT → ready → len ≠ 0 → s.bad a len = false → exec (.imageWrite q) s =
          .next { t0 with norJobs := [.image (0x1800000 * k + mbArg1 x) (s.ld a len) (q.val, x.tag)] })) ∧
      (fits → s.norJobs = [] → mbCmd x = 0x21 → let k := mbArg0 x
        let up := bitN (mbArg1 x) 0 = true
        (1 < k → exec (.imageCommit q) s = .next (t0.reply q x.tag 3)) ∧
        (k ≤ 1 → up → s.mode ≠ 6 → exec (.imageCommit q) s = .next (t0.reply q x.tag 2)) ∧
        (k ≤ 1 → (up → s.mode = 6) → s.slotValid k = false → exec (.imageCommit q) s = .next (t0.reply q x.tag 7)) ∧
        (k ≤ 1 → (up → s.mode = 6) → s.slotValid k = true → Gives (exec (.imageCommit q) s) fun t => t.nor = s.nor ∧
          t.mgt.fuseSvn = if up then max s.mgt.fuseSvn (fieldAt (s.slotHdr k) 0xC 2) else s.mgt.fuseSvn)))) ∧
  (∀ (s : State) (first second : Bool) (r : List NorJob) (a tag rq : Nat) (b : List Nat) (c : CalRec) (rep : Option (Nat × Nat)),
    (s.norJobs = [] → exec (.norWriteDone first second) s = .next s) ∧
    (s.norJobs = .image a b (rq, tag) :: r →
      exec (.norWriteDone true second) s = .next ((({ s with norJobs := r } : State).norPut a b).reply rq tag 0) ∧
      (Gives (exec (.norWriteDone false false) s) fun t => t.nor = s.nor ∧ t.norJobs = r)) ∧
    (s.norJobs = .cal c rep :: r → (first || second) = true → Gives (exec (.norWriteDone first second) s) fun t => t.cal = some c ∧ t.norJobs = r) ∧
    (s.norJobs = .train b :: r → b.length ≤ 65536 → Gives (exec (.norWriteDone first second) s) fun t => t.norJobs = r ∧
      ∀ n, n < trainAt (otherCopy s.trainCur) ∨ trainAt (otherCopy s.trainCur) + 65536 ≤ n →
        smGet (fun _ => (0xFF : Byte)) t.nor n = smGet (fun _ => 0xFF) s.nor n))

/-- O60. Resets and starts, boot, SPI NOR in recovery, housekeeping, thermal trip, watchdog, log pages, behaviour level (R445, R446, R447, R448, R449,
R450, R456, R461, R462, R463, R465, R490). Power-on, brownout and loss of the reference clock leave reset values (ROLE goes on showing the strap)
and begin a cold start with CAUSE 0; pin and command starts begin their kind with their CAUSE and are ignored while a start runs. A start with no
clock, no image, no power, a bad first round, no calibration copy or a failed sub-channel ends with its RESULT and STEP; one that passes enters IDLE
with DONE and the store cleared (cold) or kept (warm). Failed warm starts count, the third begins a cold start. GLB_NOR acts in recovery only. A
round is counted and publishes readings within -40 to 150 degrees. Watchdog, trip, log, MGT_TDIE and LEVEL act as their rules say. -/
def Obligations.StartsBootAndHousekeeping : Prop :=
  (∀ s : State, (∀ c ∈ [Instr.powerOnReset, Instr.brownout, Instr.refClkLoss], Gives (exec c s) fun t => t.mode = 0 ∧ t.regs = (State.reset.set TWN_STAT_ROLE (s.get TWN_STAT_ROLE)).regs ∧
    t.store = [] ∧ t.nor = s.nor ∧ t.mgt.fuseSvn = s.mgt.fuseSvn ∧ t.pending = s.pending ∧ t.mgt.start = some ⟨1, 0, false, []⟩)) ∧
  (∀ s : State,
    let cold := fun (cause : Nat) (t : State) => t.mode = 0 ∧ t.get GLB_START_STAT_KIND = 1 ∧ t.get GLB_START_STAT_CAUSE = cause ∧
      t.on GLB_START_STAT_DONE = false ∧ t.mgt.start = some ⟨1, cause, false, []⟩ ∧ t.store = s.store ∧ t.nor = s.nor ∧ t.rd TIM_STEP_TH.addr = resetAt TIM_STEP_TH.addr
    let warm := fun (cause : Nat) (t : State) => t.mode = 0 ∧ t.get GLB_START_STAT_KIND = 2 ∧ t.get GLB_START_STAT_CAUSE = cause ∧
      t.on GLB_START_STAT_DONE = false ∧ t.mgt.start = some ⟨2, cause, false, []⟩ ∧ t.store = s.store ∧ t.nor = s.nor ∧ t.on MEM_STAT_READY = false ∧
      t.rd TIM_NS.addr = s.rd TIM_NS.addr ∧ t.rd TIM_OFFSET_LO.addr = 0 ∧ (StateWf s → t.rd TIM_STEP_TH.addr = s.rd TIM_STEP_TH.addr)
    (s.mgt.start ≠ none ∨ s.mgt.thermTrip = true → ∀ c ∈ [Instr.resetPin, Instr.startColdCmd, Instr.startWarmCmd], exec c s = .next s) ∧
    (s.mgt.start = none → s.mgt.thermTrip = false →
      Gives (exec .startColdCmd s) (cold 2) ∧ Gives (exec .startWarmCmd s) (warm 2) ∧
      (s.on GLB_START_CFG_WARM_RST = false → Gives (exec .resetPin s) (cold 1)) ∧ (s.on GLB_START_CFG_WARM_RST = true → Gives (exec .resetPin s) (warm 1)))) ∧
  (∀ (s : State) (x : StartIn) (st : StartSt) (k : Nat),
    let ends := fun (step result : Nat) (t : State) => t.mode = 7 ∧ t.mgt.start = none ∧ t.get GLB_START_STAT_STEP = step ∧ t.get GLB_START_STAT_RESULT = result
    let again := fun (result : Nat) (t : State) => t.mode = 0 ∧ t.get GLB_START_STAT_RESULT = result ∧ t.get GLB_START_STAT_WFAIL = s.get GLB_START_STAT_WFAIL + 1 ∧
      t.get GLB_START_STAT_KIND = (if s.get GLB_START_STAT_WFAIL = 2 then 3 else 2) ∧
      t.get GLB_START_STAT_CAUSE = (if s.get GLB_START_STAT_WFAIL = 2 then 4 else st.cause)
    let z := ((s.runImage k st.tried).coresUp).hkRound x.hk true
    let w := (((s.elapse (x.ms.toNat * 800000)).runImage k st.tried).coresUp).hkRound x.hk true
    (s.mgt.start = none → exec (.coldStart x) s = .next s ∧ exec (.warmStart x) s = .next s) ∧
    (s.mgt.start = some st →
      (st.kind = 2 → exec (.coldStart x) s = .next s) ∧ (st.kind ≠ 2 → exec (.warmStart x) s = .next s) ∧
      (x.clock = true → s.bootSlot st.tried ≠ none → st.ready = false → exec (.coldStart x) s = .next s ∧ exec (.warmStart x) s = .next s) ∧
      (st.kind ≠ 2 →
        (x.clock = false → Gives (exec (.coldStart x) s) (ends 1 1)) ∧
        (x.clock = true → s.bootSlot st.tried = none → Gives (exec (.coldStart x) s) fun t => ends 2 2 t ∧ t.on GLB_START_STAT_RECOVERY = true) ∧
        (x.clock = true → s.bootSlot st.tried = some k → st.ready = true →
          (x.power = false → Gives (exec (.coldStart x) s) (ends 3 3)) ∧
          (x.power = true → z.firstRound ≠ 0 → Gives (exec (.coldStart x) s) (ends 4 z.firstRound)) ∧
          (x.power = true → z.firstRound = 0 → z.calRead = none → Gives (exec (.coldStart x) s) (ends 5 6)) ∧
          (x.power = true → z.firstRound = 0 → z.calRead ≠ none → x.train.length = 24 →
            (∀ y ∈ x.train, 30 ≤ y.rd.toNat ∧ 30 ≤ y.wr.toNat ∧ 30 ≤ y.ca.toNat) → (∀ n < 24, z.on MEM_SC_STAT_FAILED n = false) →
            Gives (exec (.coldStart x) s) fun t => t.mode = 1 ∧ t.mgt.start = none ∧ t.on GLB_START_STAT_DONE = true ∧ t.get GLB_START_STAT_RESULT = 0 ∧
              t.get GLB_START_STAT_WFAIL = 0 ∧ t.get GLB_START_TIME_MS = x.ms.toNat ∧ t.store = [] ∧ t.on MEM_STAT_READY = true))) ∧
      (st.kind = 2 → st.cause < 8 →
        (x.clock = false → exec (.warmStart x) s = .next (s.coldReset 1 st.cause)) ∧
        (x.clock = true → s.bootSlot st.tried = none → s.get GLB_START_STAT_WFAIL ≤ 2 → Gives (exec (.warmStart x) s) (again 2)) ∧
        (∀ c, x.clock = true → s.bootSlot st.tried = some k → st.ready = true → x.power = true → w.firstRound = 0 → w.calRead = some c →
          ({ w with cal := some c } : State).trainFits c.board = true → w.get GLB_START_STAT_WFAIL = 0 → (∀ n < 24, x.sentinel.getD n false = true) →
          Gives (exec (.warmStart x) s) fun t => t.mode = 1 ∧ t.mgt.start = none ∧ t.on GLB_START_STAT_DONE = true ∧ t.get GLB_START_STAT_RESULT = 0 ∧
            t.store = w.store ∧ t.on MEM_STAT_READY = true ∧ t.on MEM_STAT_WARM = true ∧ t.cal = some c)))) ∧
  (∀ (s : State) (st : StartSt) (k : Nat),
    (s.mgt.start = none → exec .bootReadyTimeout s = .next s) ∧
    (s.mgt.start = some st → st.ready = true ∨ s.bootSlot st.tried = none → exec .bootReadyTimeout s = .next s) ∧
    (s.mgt.start = some st → st.ready = false → s.bootSlot st.tried = some k → Gives (exec .bootReadyTimeout s) fun t =>
      t.mgt.start = some { st with tried := k :: st.tried } ∧
      (s.bootSlot (k :: st.tried) ≠ none → t.on GLB_BOOT_FALLBACK = true) ∧ (s.bootSlot (k :: st.tried) = none → t.regs = s.regs)) ∧
    (s.mgt.start = some st → (s.bootSlot st.tried = none → exec .firmwareReady s = .next s) ∧
      (s.bootSlot st.tried ≠ none → exec .firmwareReady s = .next { s with mgt := { s.mgt with start := some { st with ready := true } } })) ∧
    (s.mgt.start = none → (s.on MGT_STAT_RESTARTING = false → exec .firmwareReady s = .next s) ∧
      (s.on MGT_STAT_RESTARTING = true → Gives (exec .firmwareReady s) fun t => t.on MGT_STAT_RESTARTING = false ∧ t.get MGT_STAT_CORES = 15))) ∧
  (∀ (s : State) (op a v : Nat), let free := s.on GLB_START_STAT_RECOVERY = true ∧ s.on GLB_NOR_STAT_BUSY = false
    (¬free → exec .norReadWord s = .next s ∧ exec .norProgramWord s = .next s ∧ exec .norEraseSector s = .next s) ∧
    (free → (Gives (exec .norReadWord s) fun t => t.rd GLB_NOR_DATA.addr = BitVec.ofNat 32 (leNum (s.norLd (s.get GLB_NOR_ADDR_ADDR) 4)) ∧
        OnlyRegs [GLB_NOR_DATA.addr] s t) ∧
      ∀ p ∈ [(2, Instr.norProgramWord), (3, Instr.norEraseSector)], Gives (exec p.2 s) fun t => t.on GLB_NOR_STAT_BUSY = true ∧ t.nor = s.nor ∧
        t.mgt.norOp = some (p.1, s.get GLB_NOR_ADDR_ADDR, s.get GLB_NOR_DATA)) ∧
    (s.mgt.norOp = none → ∀ ok, exec (.glbNorDone ok) s = .next s) ∧
    (s.mgt.norOp = some (op, a, v) →
      (Gives (exec (.glbNorDone false) s) fun t => t.nor = s.nor ∧ t.on GLB_NOR_STAT_BUSY = false ∧ t.on GLB_NOR_STAT_ERR = true ∧ t.mgt.norOp = none) ∧
      (op = 3 → Gives (exec (.glbNorDone true) s) fun t => t.on GLB_NOR_STAT_BUSY = false ∧ t.on GLB_NOR_STAT_ERR = false ∧
        ∀ n, smGet (fun _ => (0xFF : Byte)) t.nor n = if a / 65536 = n / 65536 then 0xFF else smGet (fun _ => 0xFF) s.nor n) ∧
      (op = 2 → a + 4 ≤ 0x3820000 → Gives (exec (.glbNorDone true) s) fun t => t.on GLB_NOR_STAT_BUSY = false ∧
        (∀ n, n < a ∨ a + 4 ≤ n → smGet (fun _ => (0xFF : Byte)) t.nor n = smGet (fun _ => 0xFF) s.nor n) ∧
        ∀ i < 4, smGet (fun _ => (0xFF : Byte)) t.nor (a + i) = smGet (fun _ => 0xFF) s.nor (a + i) &&& BitVec.ofNat 8 (v / 256 ^ i)))) ∧
  (∀ (s : State) (x : HkIn) (c : Fin 4) (v : BitVec 32),
    (s.fwRuns = false → exec (.housekeepingRound x) s = .next s ∧ exec .logPageWrite s = .next s) ∧
    (s.fwRuns = true →
      (Gives (exec (.housekeepingRound x) s) fun t => t.get MGT_HK_ROUND_ROUND = (s.get MGT_HK_ROUND_ROUND + 1) % 2 ^ 32 ∧
        ∀ n < 32, s.tsOn n = true → t.geti MGT_TS_VAL_READ n = clampI (-320) 1200 (x.ts.getD n ⟨0, 0⟩).read) ∧
      (Gives (exec .logPageWrite s) fun t => t.get MGT_LOG_WR_WR = (s.get MGT_LOG_WR_WR + min 64 s.mgt.logBuf.length) % 2 ^ 32 ∧
        t.mgt.logBuf = s.mgt.logBuf.drop 64 ∧ OnlyRegs [MGT_LOG_WR.addr] s { t with mgt := s.mgt })) ∧
    (s.mgt.thermTrip = true → exec .thermTrip s = .next s) ∧
    (s.mgt.thermTrip = false → Gives (exec .thermTrip s) fun t => t.mgt.thermTrip = true ∧ t.mgt.start = none ∧ t.mode = 0 ∧ t.deaf = true ∧ t.nor = s.nor) ∧
    (let idle := s.get MGT_WDOG_TMO = 0 ∨ s.deaf = true ∨ (s.get MGT_STAT_CORES = 0 ∧ s.on MGT_STAT_RESTARTING = false)
     let second := ∃ w, s.mgt.wdogAt = some w ∧ s.clk ≤ w + 60 * sec1
     (idle → exec (.mgmtWdogExpiry c) s = .next s) ∧
     (¬idle → ¬second → Gives (exec (.mgmtWdogExpiry c) s) fun t => t.on MGT_STAT_RESTARTING = true ∧ t.get MGT_STAT_CORES = 0 ∧
       t.get MGT_STAT_RESTARTS = min (s.get MGT_STAT_RESTARTS + 1) 255 ∧ t.mgt.wdogAt = some s.clk ∧ t.mode = s.mode) ∧
     (¬idle → second → Gives (exec (.mgmtWdogExpiry c) s) fun t => t.mode = 0 ∧ t.get GLB_START_STAT_KIND = 2 ∧ t.get GLB_START_STAT_CAUSE = 3)) ∧
    (Hears s → s.latched = [] → Gives (exec .tdieRead s) fun t => t.get MGT_TDIE_PEAK = 0 ∧ t.get MGT_TDIE_TDIE = s.get MGT_TDIE_TDIE ∧
      OnlyRegs [MGT_TDIE.addr] s t) ∧
    (let l := if getBits v 0 2 = 1 then 1 else 0
     let left := s.on GLB_COMPAT_CFG_ERR && !(getBits v 2 1 == 1)
     (s.mode = 1 ∨ s.mode = 6 → Gives (exec (.compatWrite v) s) fun t => t.get GLB_COMPAT_LEVEL = l ∧ t.on GLB_COMPAT_CFG_ERR = left ∧ OnlyRegs [GLB_COMPAT.addr] s t) ∧
     (s.mode ≠ 1 → s.mode ≠ 6 → Gives (exec (.compatWrite v) s) fun t => t.get GLB_COMPAT_LEVEL = s.get GLB_COMPAT_LEVEL ∧
       t.on GLB_COMPAT_CFG_ERR = (left || !(l == s.get GLB_COMPAT_LEVEL)) ∧ OnlyRegs [GLB_COMPAT.addr] s t)))

end
end

