-- ==== Sys2Proof/Laws/SMap.lean ====
section
/-! SUPPORT. The laws of the sparse maps: a read after a write to the same key gives the value written, a write leaves every other key
alone, and every operation keeps the canonical form. -/

namespace Sys2Proof.Machine

theorem smLook_erase_same {β : Type} (m : SMap β) (k : Nat) : smLook (smErase m k) k = none := by
  induction m with
  | nil => rfl
  | cons e r ih => by_cases h : e.1 = k <;> simp [smErase, smLook, h, ih]

theorem smLook_erase_other {β : Type} (m : SMap β) {k j : Nat} (hj : j ≠ k) : smLook (smErase m k) j = smLook m j := by
  induction m with
  | nil => rfl
  | cons e r ih =>
    by_cases h : e.1 = k
    · have : ¬ e.1 = j := fun h' => hj (h'.symm.trans h)
      simp [smErase, smLook, h, ih, show ¬ k = j from fun x => hj x.symm]
    · simp [smErase, smLook, h, ih]

theorem smLook_insert_same {β : Type} (m : SMap β) (k : Nat) (v : β) : smLook (smInsert m k v) k = some v := by
  induction m with
  | nil => simp [smInsert, smLook]
  | cons e r ih =>
    by_cases h : k < e.1
    · simp [smInsert, smLook, h]
    · by_cases h' : e.1 = k <;> simp [smInsert, smLook, h, h', ih]

theorem smLook_insert_other {β : Type} (m : SMap β) {k j : Nat} (v : β) (hj : j ≠ k) :
    smLook (smInsert m k v) j = smLook m j := by
  have hk : ¬ k = j := fun x => hj x.symm
  induction m with
  | nil => simp [smInsert, smLook, hk]
  | cons e r ih =>
    by_cases h : k < e.1
    · simp [smInsert, smLook, h, hk]
    · by_cases h' : e.1 = k
      · simp [smInsert, smLook, h', hk]
      · simp [smInsert, smLook, h, h', ih]

section
variable {β : Type} [DecidableEq β] (d : Nat → β)

@[simp] theorem smGet_put_same (m : SMap β) (k : Nat) (v : β) : smGet d (smPut d m k v) k = v := by
  unfold smGet smPut
  split
  · simp [smLook_erase_same, *]
  · simp [smLook_insert_same]

theorem smGet_put_other (m : SMap β) {k j : Nat} (v : β) (hj : j ≠ k) : smGet d (smPut d m k v) j = smGet d m j := by
  unfold smGet smPut
  split
  · simp [smLook_erase_other m hj]
  · simp [smLook_insert_other m v hj]

/-- A read after a write, whichever key is read. -/
theorem smGet_put (m : SMap β) (k j : Nat) (v : β) : smGet d (smPut d m k v) j = if j = k then v else smGet d m j := by
  split
  · subst_vars; simp
  · exact smGet_put_other d m v ‹_›

omit [DecidableEq β] in
theorem smAbove_trans {m : SMap β} {k j : Nat} (h : smAbove k m = true) (hj : j ≤ k) : smAbove j m = true := by
  simp only [smAbove, List.all_eq_true, decide_eq_true_eq] at h ⊢
  intro x hx; exact Nat.lt_of_le_of_lt hj (h x hx)

omit [DecidableEq β] in
theorem smAbove_erase {m : SMap β} {k j : Nat} (h : smAbove j m = true) : smAbove j (smErase m k) = true := by
  induction m with
  | nil => exact h
  | cons e r ih =>
    simp only [smAbove, List.all_cons, Bool.and_eq_true, decide_eq_true_eq] at h ih ⊢
    by_cases h' : e.1 = k
    · simpa [smErase, h'] using ih h.2
    · simpa [smErase, h'] using ⟨h.1, by simpa using ih h.2⟩

omit [DecidableEq β] in
theorem smAbove_insert {m : SMap β} {k j : Nat} (v : β) (hk : j < k) (h : smAbove j m = true) : smAbove j (smInsert m k v) = true := by
  induction m with
  | nil => simpa [smInsert, smAbove] using hk
  | cons e r ih =>
    have hr : smAbove j r = true := by
      simp only [smAbove, List.all_cons, Bool.and_eq_true] at h ⊢; exact h.2
    have he : j < e.1 := by
      simp only [smAbove, List.all_cons, Bool.and_eq_true, decide_eq_true_eq] at h; exact h.1
    unfold smInsert
    split
    · simp [smAbove, hk, he]; simpa [smAbove] using hr
    · split
      · simp [smAbove, hk]; simpa [smAbove] using hr
      · have := ih hr
        simp [smAbove, he]; simpa [smAbove] using this

theorem smWf_erase {m : SMap β} {k : Nat} (h : smWf d m = true) : smWf d (smErase m k) = true := by
  induction m with
  | nil => rfl
  | cons e r ih =>
    simp only [smWf, Bool.and_eq_true, decide_eq_true_eq] at h
    by_cases h' : e.1 = k
    · simpa [smErase, h'] using ih h.2
    · simp only [smErase, h', if_false, smWf, Bool.and_eq_true, decide_eq_true_eq]
      exact ⟨⟨smAbove_erase h.1.1, h.1.2⟩, ih h.2⟩

theorem smWf_insert {m : SMap β} {k : Nat} {v : β} (hv : v ≠ d k) (h : smWf d m = true) : smWf d (smInsert m k v) = true := by
  induction m with
  | nil => simp [smInsert, smWf, smAbove, hv]
  | cons e r ih =>
    have h0 := h
    simp only [smWf, Bool.and_eq_true, decide_eq_true_eq] at h
    unfold smInsert
    split
    · next hlt =>
      simp only [smWf, Bool.and_eq_true, decide_eq_true_eq]
      refine ⟨⟨?_, hv⟩, h⟩
      simp only [smAbove, List.all_cons, Bool.and_eq_true, decide_eq_true_eq]
      exact ⟨hlt, by simpa [smAbove] using smAbove_trans h.1.1 (Nat.le_of_lt hlt)⟩
    · split
      · next heq =>
        subst heq
        simp only [smWf, Bool.and_eq_true, decide_eq_true_eq]
        exact ⟨⟨h.1.1, hv⟩, h.2⟩
      · simp only [smWf, Bool.and_eq_true, decide_eq_true_eq]
        exact ⟨⟨smAbove_insert v (by omega) h.1.1, h.1.2⟩, ih h.2⟩

/-- A write keeps the canonical form. -/
theorem smWf_put {m : SMap β} {k : Nat} {v : β} (h : smWf d m = true) : smWf d (smPut d m k v) = true := by
  unfold smPut
  split
  · exact smWf_erase d h
  · exact smWf_insert d ‹_› h

/-- Passing every value through a function gives a canonical map. -/
theorem smWf_map (f : Nat → β → β) (m : SMap β) : smWf d (smMap d f m) = true := by
  induction m with
  | nil => rfl
  | cons e r ih => exact smWf_put d ih

end

end Sys2Proof.Machine
end

