-- ==== Sys2Proof/Laws/Regs.lean ====
section
/-! SUPPORT. Registers and fields: what a read gives after a write to the same register, to another register, to another field of the same
register; and what a write leaves alone. -/

namespace Sys2Proof.Machine

@[simp] theorem State.rd_wr_same (s : State) (a : Nat) (v : Word) : (s.wr a v).rd a = v := by
  simp [State.rd, State.wr]

theorem State.rd_wr_other (s : State) {a b : Nat} (v : Word) (h : b ≠ a) : (s.wr a v).rd b = s.rd b := by
  simp [State.rd, State.wr, smGet_put_other _ _ _ h]

theorem State.rd_wr (s : State) (a b : Nat) (v : Word) : (s.wr a v).rd b = if b = a then v else s.rd b := by
  simp [State.rd, State.wr, smGet_put]

@[simp] theorem State.ap_putAp_same (s : State) (a : Nat) (v : Word) : (s.putAp a v).ap a = v := by
  simp [State.ap, State.putAp]

theorem State.ap_putAp_other (s : State) {a b : Nat} (v : Word) (h : b ≠ a) : (s.putAp a v).ap b = s.ap b := by
  simp [State.ap, State.putAp, smGet_put_other _ _ _ h]

theorem getLsbD_fieldMask (lo w i : Nat) :
    (BitVec.ofNat 32 ((2 ^ w - 1) * 2 ^ lo)).getLsbD i = (decide (i < 32) && (decide (lo ≤ i) && decide (i < lo + w))) := by
  rw [BitVec.getLsbD_ofNat, Nat.testBit_mul_two_pow, Nat.testBit_two_pow_sub_one]
  by_cases h : lo ≤ i <;> simp [h]
  congr 1; simp; omega

theorem getLsbD_fieldValue (lo w v i : Nat) :
    (BitVec.ofNat 32 (v % 2 ^ w * 2 ^ lo)).getLsbD i = (decide (i < 32) && (decide (lo ≤ i) && (decide (i - lo < w) && v.testBit (i - lo)))) := by
  rw [BitVec.getLsbD_ofNat, Nat.testBit_mul_two_pow, Nat.testBit_mod_two_pow]

/-- Bit by bit, a word with a field replaced. -/
theorem getLsbD_putBits (x : Word) (lo w v i : Nat) (hi : i < 32) :
    (putBits x lo w v).getLsbD i = if lo ≤ i ∧ i < lo + w then v.testBit (i - lo) else x.getLsbD i := by
  simp only [putBits, BitVec.getLsbD_or, BitVec.getLsbD_and, BitVec.getLsbD_not, getLsbD_fieldMask, getLsbD_fieldValue, hi,
    decide_true, Bool.true_and]
  by_cases h1 : lo ≤ i
  · by_cases h2 : i < lo + w
    · simp [h1, h2, show i - lo < w by omega]
    · simp [h1, h2]
  · simp [h1]

theorem testBit_getBits (x : Word) (lo w i : Nat) : (getBits x lo w).testBit i = (decide (i < w) && x.getLsbD (lo + i)) := by
  rw [getBits, Nat.testBit_mod_two_pow, ← Nat.shiftRight_eq_div_pow, Nat.testBit_shiftRight, BitVec.getLsbD]

/-- A field reads what was put into it. -/
theorem getBits_putBits_same (x : Word) {lo w : Nat} (v : Nat) (h : lo + w ≤ 32) : getBits (putBits x lo w v) lo w = v % 2 ^ w := by
  apply Nat.eq_of_testBit_eq; intro i
  rw [testBit_getBits, Nat.testBit_mod_two_pow]
  by_cases hi : i < w
  · rw [getLsbD_putBits _ _ _ _ _ (by omega)]
    simp [hi]
  · simp [hi]

/-- A field that does not meet the one replaced reads as before. -/
theorem getBits_putBits_other (x : Word) {lo w lo' w' : Nat} (v : Nat) (hd : lo' + w' ≤ lo ∨ lo + w ≤ lo') :
    getBits (putBits x lo w v) lo' w' = getBits x lo' w' := by
  apply Nat.eq_of_testBit_eq; intro i
  rw [testBit_getBits, testBit_getBits]
  by_cases hi : i < w'
  · by_cases h32 : lo' + i < 32
    · rw [getLsbD_putBits _ _ _ _ _ h32, if_neg (by omega)]
    · rw [BitVec.getLsbD_of_ge _ _ (by omega), BitVec.getLsbD_of_ge _ _ (by omega)]
  · simp [hi]

theorem getBits_lt (x : Word) (lo w : Nat) : getBits x lo w < 2 ^ w := Nat.mod_lt _ (Nat.two_pow_pos w)

theorem getBits_word (x : Word) : getBits x 0 32 = x.toNat := by
  simp [getBits, Nat.mod_eq_of_lt x.isLt]

theorem State.get_lt (s : State) (f : Fld) (i j k : Nat) : s.get f i j k < 2 ^ f.width := getBits_lt _ _ _

/-- A field reads what was set, held to its width. -/
theorem State.get_set_same (s : State) (f : Fld) (v i j k : Nat) (h : f.lo + f.width ≤ 32) :
    (s.set f v i j k).get f i j k = v % 2 ^ f.width := by
  simp [State.get, State.set, getBits_putBits_same _ _ h]

/-- A field of another register reads as before. -/
theorem State.get_set_addr (s : State) (f g : Fld) (v i j k i' j' k' : Nat) (h : g.addr i' j' k' ≠ f.addr i j k) :
    (s.set f v i j k).get g i' j' k' = s.get g i' j' k' := by
  simp [State.get, State.set, State.rd_wr_other _ _ h]

/-- Another field of the same register reads as before. -/
theorem State.get_set_bits (s : State) (f g : Fld) (v i j k i' j' k' : Nat)
    (h : g.lo + g.width ≤ f.lo ∨ f.lo + f.width ≤ g.lo) :
    (s.set f v i j k).get g i' j' k' = s.get g i' j' k' := by
  by_cases ha : g.addr i' j' k' = f.addr i j k
  · simp [State.get, State.set, ha, getBits_putBits_other _ _ h]
  · exact s.get_set_addr f g v i j k i' j' k' ha

/-- A register whose address a set does not touch. -/
theorem State.rd_set_other (s : State) (f : Fld) (v i j k a : Nat) (h : a ≠ f.addr i j k) : (s.set f v i j k).rd a = s.rd a := by
  simp [State.set, State.rd_wr_other _ _ h]

/-- A set changes the register file and nothing else. -/
theorem State.set_regs (s : State) (f : Fld) (v i j k : Nat) :
    s.set f v i j k = { s with regs := (s.set f v i j k).regs } := rfl

theorem State.wr_regs (s : State) (a : Nat) (v : Word) : s.wr a v = { s with regs := (s.wr a v).regs } := rfl

/-- A counter that saturates. -/
theorem State.get_addSat (s : State) (f : Fld) (n i j k : Nat) (h : f.lo + f.width ≤ 32) :
    (s.addSat f n i j k).get f i j k = min (s.get f i j k + n) (2 ^ f.width - 1) := by
  rw [State.addSat, State.get_set_same _ _ _ _ _ _ h, Nat.mod_eq_of_lt]
  have := Nat.two_pow_pos f.width
  omega

/-- A counter that wraps. -/
theorem State.get_addWrap (s : State) (f : Fld) (n i j k : Nat) (h : f.lo + f.width ≤ 32) :
    (s.addWrap f n i j k).get f i j k = (s.get f i j k + n) % 2 ^ f.width := by
  rw [State.addWrap, State.get_set_same _ _ _ _ _ _ h]

/-- A write of a register keeps the canonical form of the register file. -/
theorem State.wr_wf (s : State) (a : Nat) (v : Word) (h : smWf resetAt s.regs = true) : smWf resetAt (s.wr a v).regs = true :=
  smWf_put _ h

theorem State.putAp_wf (s : State) (a : Nat) (v : Word) (h : smWf resetAt s.applied = true) :
    smWf resetAt (s.putAp a v).applied = true := smWf_put _ h

end Sys2Proof.Machine
end

