-- ==== Sys2Proof/Laws/State.lean ====
section
/-! SUPPORT. One lemma per field of State per update: every update leaves every other field as it was. -/

namespace Sys2Proof.Machine

/-! ### After writing a register -/

@[simp] theorem State.wr_applied (s : State) (a : Nat) (v : Word) : (s.wr a v).applied = s.applied := rfl
@[simp] theorem State.wr_latched (s : State) (a : Nat) (v : Word) : (s.wr a v).latched = s.latched := rfl
@[simp] theorem State.wr_clk (s : State) (a : Nat) (v : Word) : (s.wr a v).clk = s.clk := rfl
@[simp] theorem State.wr_netAcc (s : State) (a : Nat) (v : Word) : (s.wr a v).netAcc = s.netAcc := rfl
@[simp] theorem State.wr_nsFrac (s : State) (a : Nat) (v : Word) : (s.wr a v).nsFrac = s.nsFrac := rfl
@[simp] theorem State.wr_fresh (s : State) (a : Nat) (v : Word) : (s.wr a v).fresh = s.fresh := rfl
@[simp] theorem State.wr_evLast (s : State) (a : Nat) (v : Word) : (s.wr a v).evLast = s.evLast := rfl
@[simp] theorem State.wr_causes (s : State) (a : Nat) (v : Word) : (s.wr a v).causes = s.causes := rfl
@[simp] theorem State.wr_queues (s : State) (a : Nat) (v : Word) : (s.wr a v).queues = s.queues := rfl
@[simp] theorem State.wr_irqSent (s : State) (a : Nat) (v : Word) : (s.wr a v).irqSent = s.irqSent := rfl
@[simp] theorem State.wr_absIn (s : State) (a : Nat) (v : Word) : (s.wr a v).absIn = s.absIn := rfl
@[simp] theorem State.wr_mkHold (s : State) (a : Nat) (v : Word) : (s.wr a v).mkHold = s.mkHold := rfl
@[simp] theorem State.wr_trk (s : State) (a : Nat) (v : Word) : (s.wr a v).trk = s.trk := rfl
@[simp] theorem State.wr_lc (s : State) (a : Nat) (v : Word) : (s.wr a v).lc = s.lc := rfl
@[simp] theorem State.wr_latchMore (s : State) (a : Nat) (v : Word) : (s.wr a v).latchMore = s.latchMore := rfl
@[simp] theorem State.wr_gather (s : State) (a : Nat) (v : Word) : (s.wr a v).gather = s.gather := rfl
@[simp] theorem State.wr_hport (s : State) (a : Nat) (v : Word) : (s.wr a v).hport = s.hport := rfl
@[simp] theorem State.wr_hbar (s : State) (a : Nat) (v : Word) : (s.wr a v).hbar = s.hbar := rfl
@[simp] theorem State.wr_tr (s : State) (a : Nat) (v : Word) : (s.wr a v).tr = s.tr := rfl
@[simp] theorem State.wr_startTrig (s : State) (a : Nat) (v : Word) : (s.wr a v).startTrig = s.startTrig := rfl
@[simp] theorem State.wr_store (s : State) (a : Nat) (v : Word) : (s.wr a v).store = s.store := rfl
@[simp] theorem State.wr_poison (s : State) (a : Nat) (v : Word) : (s.wr a v).poison = s.poison := rfl
@[simp] theorem State.wr_memDev (s : State) (a : Nat) (v : Word) : (s.wr a v).memDev = s.memDev := rfl
@[simp] theorem State.wr_memFails (s : State) (a : Nat) (v : Word) : (s.wr a v).memFails = s.memFails := rfl
@[simp] theorem State.wr_memCool (s : State) (a : Nat) (v : Word) : (s.wr a v).memCool = s.memCool := rfl
@[simp] theorem State.wr_memHot (s : State) (a : Nat) (v : Word) : (s.wr a v).memHot = s.memHot := rfl
@[simp] theorem State.wr_memSleep (s : State) (a : Nat) (v : Word) : (s.wr a v).memSleep = s.memSleep := rfl
@[simp] theorem State.wr_memPanicLong (s : State) (a : Nat) (v : Word) : (s.wr a v).memPanicLong = s.memPanicLong := rfl
@[simp] theorem State.wr_memPromoted (s : State) (a : Nat) (v : Word) : (s.wr a v).memPromoted = s.memPromoted := rfl
@[simp] theorem State.wr_memRefPost (s : State) (a : Nat) (v : Word) : (s.wr a v).memRefPost = s.memRefPost := rfl
@[simp] theorem State.wr_memDrift (s : State) (a : Nat) (v : Word) : (s.wr a v).memDrift = s.memDrift := rfl
@[simp] theorem State.wr_sheaves (s : State) (a : Nat) (v : Word) : (s.wr a v).sheaves = s.sheaves := rfl
@[simp] theorem State.wr_dsheaves (s : State) (a : Nat) (v : Word) : (s.wr a v).dsheaves = s.dsheaves := rfl
@[simp] theorem State.wr_point (s : State) (a : Nat) (v : Word) : (s.wr a v).point = s.point := rfl
@[simp] theorem State.wr_feed (s : State) (a : Nat) (v : Word) : (s.wr a v).feed = s.feed := rfl
@[simp] theorem State.wr_pwidth (s : State) (a : Nat) (v : Word) : (s.wr a v).pwidth = s.pwidth := rfl
@[simp] theorem State.wr_tilTab (s : State) (a : Nat) (v : Word) : (s.wr a v).tilTab = s.tilTab := rfl
@[simp] theorem State.wr_tilPt (s : State) (a : Nat) (v : Word) : (s.wr a v).tilPt = s.tilPt := rfl
@[simp] theorem State.wr_nzHeld (s : State) (a : Nat) (v : Word) : (s.wr a v).nzHeld = s.nzHeld := rfl
@[simp] theorem State.wr_nzChg (s : State) (a : Nat) (v : Word) : (s.wr a v).nzChg = s.nzChg := rfl
@[simp] theorem State.wr_nzUnc (s : State) (a : Nat) (v : Word) : (s.wr a v).nzUnc = s.nzUnc := rfl
@[simp] theorem State.wr_tilOut (s : State) (a : Nat) (v : Word) : (s.wr a v).tilOut = s.tilOut := rfl
@[simp] theorem State.wr_eng (s : State) (a : Nat) (v : Word) : (s.wr a v).eng = s.eng := rfl
@[simp] theorem State.wr_engCode (s : State) (a : Nat) (v : Word) : (s.wr a v).engCode = s.engCode := rfl
@[simp] theorem State.wr_engData (s : State) (a : Nat) (v : Word) : (s.wr a v).engData = s.engData := rfl
@[simp] theorem State.wr_loading (s : State) (a : Nat) (v : Word) : (s.wr a v).loading = s.loading := rfl
@[simp] theorem State.wr_holdAt (s : State) (a : Nat) (v : Word) : (s.wr a v).holdAt = s.holdAt := rfl
@[simp] theorem State.wr_jobEnded (s : State) (a : Nat) (v : Word) : (s.wr a v).jobEnded = s.jobEnded := rfl
@[simp] theorem State.wr_gioPulse (s : State) (a : Nat) (v : Word) : (s.wr a v).gioPulse = s.gioPulse := rfl
@[simp] theorem State.wr_gioRaw (s : State) (a : Nat) (v : Word) : (s.wr a v).gioRaw = s.gioRaw := rfl
@[simp] theorem State.wr_tpPulse (s : State) (a : Nat) (v : Word) : (s.wr a v).tpPulse = s.tpPulse := rfl
@[simp] theorem State.wr_twinPull (s : State) (a : Nat) (v : Word) : (s.wr a v).twinPull = s.twinPull := rfl
@[simp] theorem State.wr_chlPend (s : State) (a : Nat) (v : Word) : (s.wr a v).chlPend = s.chlPend := rfl
@[simp] theorem State.wr_nhKept (s : State) (a : Nat) (v : Word) : (s.wr a v).nhKept = s.nhKept := rfl
@[simp] theorem State.wr_nhRuns (s : State) (a : Nat) (v : Word) : (s.wr a v).nhRuns = s.nhRuns := rfl
@[simp] theorem State.wr_nhOld (s : State) (a : Nat) (v : Word) : (s.wr a v).nhOld = s.nhOld := rfl
@[simp] theorem State.wr_nhEnd (s : State) (a : Nat) (v : Word) : (s.wr a v).nhEnd = s.nhEnd := rfl
@[simp] theorem State.wr_nhLimit (s : State) (a : Nat) (v : Word) : (s.wr a v).nhLimit = s.nhLimit := rfl
@[simp] theorem State.wr_domOff (s : State) (a : Nat) (v : Word) : (s.wr a v).domOff = s.domOff := rfl
@[simp] theorem State.wr_husk (s : State) (a : Nat) (v : Word) : (s.wr a v).husk = s.husk := rfl
@[simp] theorem State.wr_cam (s : State) (a : Nat) (v : Word) : (s.wr a v).cam = s.cam := rfl
@[simp] theorem State.wr_camPin (s : State) (a : Nat) (v : Word) : (s.wr a v).camPin = s.camPin := rfl
@[simp] theorem State.wr_camEdges (s : State) (a : Nat) (v : Word) : (s.wr a v).camEdges = s.camEdges := rfl
@[simp] theorem State.wr_ispWin (s : State) (a : Nat) (v : Word) : (s.wr a v).ispWin = s.ispWin := rfl
@[simp] theorem State.wr_ispTurn (s : State) (a : Nat) (v : Word) : (s.wr a v).ispTurn = s.ispTurn := rfl
@[simp] theorem State.wr_nor (s : State) (a : Nat) (v : Word) : (s.wr a v).nor = s.nor := rfl
@[simp] theorem State.wr_cal (s : State) (a : Nat) (v : Word) : (s.wr a v).cal = s.cal := rfl
@[simp] theorem State.wr_norJobs (s : State) (a : Nat) (v : Word) : (s.wr a v).norJobs = s.norJobs := rfl
@[simp] theorem State.wr_chan (s : State) (a : Nat) (v : Word) : (s.wr a v).chan = s.chan := rfl
@[simp] theorem State.wr_chlRd (s : State) (a : Nat) (v : Word) : (s.wr a v).chlRd = s.chlRd := rfl
@[simp] theorem State.wr_printRep (s : State) (a : Nat) (v : Word) : (s.wr a v).printRep = s.printRep := rfl
@[simp] theorem State.wr_nhRd (s : State) (a : Nat) (v : Word) : (s.wr a v).nhRd = s.nhRd := rfl
@[simp] theorem State.wr_nhGot (s : State) (a : Nat) (v : Word) : (s.wr a v).nhGot = s.nhGot := rfl
@[simp] theorem State.wr_nhBad (s : State) (a : Nat) (v : Word) : (s.wr a v).nhBad = s.nhBad := rfl
@[simp] theorem State.wr_calRun (s : State) (a : Nat) (v : Word) : (s.wr a v).calRun = s.calRun := rfl
@[simp] theorem State.wr_lampLit (s : State) (a : Nat) (v : Word) : (s.wr a v).lampLit = s.lampLit := rfl
@[simp] theorem State.wr_lampRun (s : State) (a : Nat) (v : Word) : (s.wr a v).lampRun = s.lampRun := rfl
@[simp] theorem State.wr_swcTarget (s : State) (a : Nat) (v : Word) : (s.wr a v).swcTarget = s.swcTarget := rfl
@[simp] theorem State.wr_swcHigh (s : State) (a : Nat) (v : Word) : (s.wr a v).swcHigh = s.swcHigh := rfl
@[simp] theorem State.wr_swcOvp (s : State) (a : Nat) (v : Word) : (s.wr a v).swcOvp = s.swcOvp := rfl
@[simp] theorem State.wr_swcOvps (s : State) (a : Nat) (v : Word) : (s.wr a v).swcOvps = s.swcOvps := rfl
@[simp] theorem State.wr_chainSwap (s : State) (a : Nat) (v : Word) : (s.wr a v).chainSwap = s.chainSwap := rfl
@[simp] theorem State.wr_chainOut (s : State) (a : Nat) (v : Word) : (s.wr a v).chainOut = s.chainOut := rfl
@[simp] theorem State.wr_lbSent (s : State) (a : Nat) (v : Word) : (s.wr a v).lbSent = s.lbSent := rfl
@[simp] theorem State.wr_lbNak (s : State) (a : Nat) (v : Word) : (s.wr a v).lbNak = s.lbNak := rfl
@[simp] theorem State.wr_lbSafe (s : State) (a : Nat) (v : Word) : (s.wr a v).lbSafe = s.lbSafe := rfl
@[simp] theorem State.wr_patAt (s : State) (a : Nat) (v : Word) : (s.wr a v).patAt = s.patAt := rfl
@[simp] theorem State.wr_encCtx (s : State) (a : Nat) (v : Word) : (s.wr a v).encCtx = s.encCtx := rfl
@[simp] theorem State.wr_encRun (s : State) (a : Nat) (v : Word) : (s.wr a v).encRun = s.encRun := rfl
@[simp] theorem State.wr_encStall (s : State) (a : Nat) (v : Word) : (s.wr a v).encStall = s.encStall := rfl
@[simp] theorem State.wr_encLast (s : State) (a : Nat) (v : Word) : (s.wr a v).encLast = s.encLast := rfl
@[simp] theorem State.wr_decCtx (s : State) (a : Nat) (v : Word) : (s.wr a v).decCtx = s.decCtx := rfl
@[simp] theorem State.wr_decLast (s : State) (a : Nat) (v : Word) : (s.wr a v).decLast = s.decLast := rfl
@[simp] theorem State.wr_dpRegs (s : State) (a : Nat) (v : Word) : (s.wr a v).dpRegs = s.dpRegs := rfl
@[simp] theorem State.wr_auxCmd (s : State) (a : Nat) (v : Word) : (s.wr a v).auxCmd = s.auxCmd := rfl
@[simp] theorem State.wr_tim (s : State) (a : Nat) (v : Word) : (s.wr a v).tim = s.tim := rfl
@[simp] theorem State.wr_twn (s : State) (a : Nat) (v : Word) : (s.wr a v).twn = s.twn := rfl
@[simp] theorem State.wr_hst (s : State) (a : Nat) (v : Word) : (s.wr a v).hst = s.hst := rfl
@[simp] theorem State.wr_mgt (s : State) (a : Nat) (v : Word) : (s.wr a v).mgt = s.mgt := rfl
@[simp] theorem State.wr_pending (s : State) (a : Nat) (v : Word) : (s.wr a v).pending = s.pending := rfl

/-! ### After setting a field -/

@[simp] theorem State.set_applied (s : State) (f : Fld) (v i j k : Nat) : (s.set f v i j k).applied = s.applied := rfl
@[simp] theorem State.set_latched (s : State) (f : Fld) (v i j k : Nat) : (s.set f v i j k).latched = s.latched := rfl
@[simp] theorem State.set_clk (s : State) (f : Fld) (v i j k : Nat) : (s.set f v i j k).clk = s.clk := rfl
@[simp] theorem State.set_netAcc (s : State) (f : Fld) (v i j k : Nat) : (s.set f v i j k).netAcc = s.netAcc := rfl
@[simp] theorem State.set_nsFrac (s : State) (f : Fld) (v i j k : Nat) : (s.set f v i j k).nsFrac = s.nsFrac := rfl
@[simp] theorem State.set_fresh (s : State) (f : Fld) (v i j k : Nat) : (s.set f v i j k).fresh = s.fresh := rfl
@[simp] theorem State.set_evLast (s : State) (f : Fld) (v i j k : Nat) : (s.set f v i j k).evLast = s.evLast := rfl
@[simp] theorem State.set_causes (s : State) (f : Fld) (v i j k : Nat) : (s.set f v i j k).causes = s.causes := rfl
@[simp] theorem State.set_queues (s : State) (f : Fld) (v i j k : Nat) : (s.set f v i j k).queues = s.queues := rfl
@[simp] theorem State.set_irqSent (s : State) (f : Fld) (v i j k : Nat) : (s.set f v i j k).irqSent = s.irqSent := rfl
@[simp] theorem State.set_absIn (s : State) (f : Fld) (v i j k : Nat) : (s.set f v i j k).absIn = s.absIn := rfl
@[simp] theorem State.set_mkHold (s : State) (f : Fld) (v i j k : Nat) : (s.set f v i j k).mkHold = s.mkHold := rfl
@[simp] theorem State.set_trk (s : State) (f : Fld) (v i j k : Nat) : (s.set f v i j k).trk = s.trk := rfl
@[simp] theorem State.set_lc (s : State) (f : Fld) (v i j k : Nat) : (s.set f v i j k).lc = s.lc := rfl
@[simp] theorem State.set_latchMore (s : State) (f : Fld) (v i j k : Nat) : (s.set f v i j k).latchMore = s.latchMore := rfl
@[simp] theorem State.set_gather (s : State) (f : Fld) (v i j k : Nat) : (s.set f v i j k).gather = s.gather := rfl
@[simp] theorem State.set_hport (s : State) (f : Fld) (v i j k : Nat) : (s.set f v i j k).hport = s.hport := rfl
@[simp] theorem State.set_hbar (s : State) (f : Fld) (v i j k : Nat) : (s.set f v i j k).hbar = s.hbar := rfl
@[simp] theorem State.set_tr (s : State) (f : Fld) (v i j k : Nat) : (s.set f v i j k).tr = s.tr := rfl
@[simp] theorem State.set_startTrig (s : State) (f : Fld) (v i j k : Nat) : (s.set f v i j k).startTrig = s.startTrig := rfl
@[simp] theorem State.set_store (s : State) (f : Fld) (v i j k : Nat) : (s.set f v i j k).store = s.store := rfl
@[simp] theorem State.set_poison (s : State) (f : Fld) (v i j k : Nat) : (s.set f v i j k).poison = s.poison := rfl
@[simp] theorem State.set_memDev (s : State) (f : Fld) (v i j k : Nat) : (s.set f v i j k).memDev = s.memDev := rfl
@[simp] theorem State.set_memFails (s : State) (f : Fld) (v i j k : Nat) : (s.set f v i j k).memFails = s.memFails := rfl
@[simp] theorem State.set_memCool (s : State) (f : Fld) (v i j k : Nat) : (s.set f v i j k).memCool = s.memCool := rfl
@[simp] theorem State.set_memHot (s : State) (f : Fld) (v i j k : Nat) : (s.set f v i j k).memHot = s.memHot := rfl
@[simp] theorem State.set_memSleep (s : State) (f : Fld) (v i j k : Nat) : (s.set f v i j k).memSleep = s.memSleep := rfl
@[simp] theorem State.set_memPanicLong (s : State) (f : Fld) (v i j k : Nat) : (s.set f v i j k).memPanicLong = s.memPanicLong := rfl
@[simp] theorem State.set_memPromoted (s : State) (f : Fld) (v i j k : Nat) : (s.set f v i j k).memPromoted = s.memPromoted := rfl
@[simp] theorem State.set_memRefPost (s : State) (f : Fld) (v i j k : Nat) : (s.set f v i j k).memRefPost = s.memRefPost := rfl
@[simp] theorem State.set_memDrift (s : State) (f : Fld) (v i j k : Nat) : (s.set f v i j k).memDrift = s.memDrift := rfl
@[simp] theorem State.set_sheaves (s : State) (f : Fld) (v i j k : Nat) : (s.set f v i j k).sheaves = s.sheaves := rfl
@[simp] theorem State.set_dsheaves (s : State) (f : Fld) (v i j k : Nat) : (s.set f v i j k).dsheaves = s.dsheaves := rfl
@[simp] theorem State.set_point (s : State) (f : Fld) (v i j k : Nat) : (s.set f v i j k).point = s.point := rfl
@[simp] theorem State.set_feed (s : State) (f : Fld) (v i j k : Nat) : (s.set f v i j k).feed = s.feed := rfl
@[simp] theorem State.set_pwidth (s : State) (f : Fld) (v i j k : Nat) : (s.set f v i j k).pwidth = s.pwidth := rfl
@[simp] theorem State.set_tilTab (s : State) (f : Fld) (v i j k : Nat) : (s.set f v i j k).tilTab = s.tilTab := rfl
@[simp] theorem State.set_tilPt (s : State) (f : Fld) (v i j k : Nat) : (s.set f v i j k).tilPt = s.tilPt := rfl
@[simp] theorem State.set_nzHeld (s : State) (f : Fld) (v i j k : Nat) : (s.set f v i j k).nzHeld = s.nzHeld := rfl
@[simp] theorem State.set_nzChg (s : State) (f : Fld) (v i j k : Nat) : (s.set f v i j k).nzChg = s.nzChg := rfl
@[simp] theorem State.set_nzUnc (s : State) (f : Fld) (v i j k : Nat) : (s.set f v i j k).nzUnc = s.nzUnc := rfl
@[simp] theorem State.set_tilOut (s : State) (f : Fld) (v i j k : Nat) : (s.set f v i j k).tilOut = s.tilOut := rfl
@[simp] theorem State.set_eng (s : State) (f : Fld) (v i j k : Nat) : (s.set f v i j k).eng = s.eng := rfl
@[simp] theorem State.set_engCode (s : State) (f : Fld) (v i j k : Nat) : (s.set f v i j k).engCode = s.engCode := rfl
@[simp] theorem State.set_engData (s : State) (f : Fld) (v i j k : Nat) : (s.set f v i j k).engData = s.engData := rfl
@[simp] theorem State.set_loading (s : State) (f : Fld) (v i j k : Nat) : (s.set f v i j k).loading = s.loading := rfl
@[simp] theorem State.set_holdAt (s : State) (f : Fld) (v i j k : Nat) : (s.set f v i j k).holdAt = s.holdAt := rfl
@[simp] theorem State.set_jobEnded (s : State) (f : Fld) (v i j k : Nat) : (s.set f v i j k).jobEnded = s.jobEnded := rfl
@[simp] theorem State.set_gioPulse (s : State) (f : Fld) (v i j k : Nat) : (s.set f v i j k).gioPulse = s.gioPulse := rfl
@[simp] theorem State.set_gioRaw (s : State) (f : Fld) (v i j k : Nat) : (s.set f v i j k).gioRaw = s.gioRaw := rfl
@[simp] theorem State.set_tpPulse (s : State) (f : Fld) (v i j k : Nat) : (s.set f v i j k).tpPulse = s.tpPulse := rfl
@[simp] theorem State.set_twinPull (s : State) (f : Fld) (v i j k : Nat) : (s.set f v i j k).twinPull = s.twinPull := rfl
@[simp] theorem State.set_chlPend (s : State) (f : Fld) (v i j k : Nat) : (s.set f v i j k).chlPend = s.chlPend := rfl
@[simp] theorem State.set_nhKept (s : State) (f : Fld) (v i j k : Nat) : (s.set f v i j k).nhKept = s.nhKept := rfl
@[simp] theorem State.set_nhRuns (s : State) (f : Fld) (v i j k : Nat) : (s.set f v i j k).nhRuns = s.nhRuns := rfl
@[simp] theorem State.set_nhOld (s : State) (f : Fld) (v i j k : Nat) : (s.set f v i j k).nhOld = s.nhOld := rfl
@[simp] theorem State.set_nhEnd (s : State) (f : Fld) (v i j k : Nat) : (s.set f v i j k).nhEnd = s.nhEnd := rfl
@[simp] theorem State.set_nhLimit (s : State) (f : Fld) (v i j k : Nat) : (s.set f v i j k).nhLimit = s.nhLimit := rfl
@[simp] theorem State.set_domOff (s : State) (f : Fld) (v i j k : Nat) : (s.set f v i j k).domOff = s.domOff := rfl
@[simp] theorem State.set_husk (s : State) (f : Fld) (v i j k : Nat) : (s.set f v i j k).husk = s.husk := rfl
@[simp] theorem State.set_cam (s : State) (f : Fld) (v i j k : Nat) : (s.set f v i j k).cam = s.cam := rfl
@[simp] theorem State.set_camPin (s : State) (f : Fld) (v i j k : Nat) : (s.set f v i j k).camPin = s.camPin := rfl
@[simp] theorem State.set_camEdges (s : State) (f : Fld) (v i j k : Nat) : (s.set f v i j k).camEdges = s.camEdges := rfl
@[simp] theorem State.set_ispWin (s : State) (f : Fld) (v i j k : Nat) : (s.set f v i j k).ispWin = s.ispWin := rfl
@[simp] theorem State.set_ispTurn (s : State) (f : Fld) (v i j k : Nat) : (s.set f v i j k).ispTurn = s.ispTurn := rfl
@[simp] theorem State.set_nor (s : State) (f : Fld) (v i j k : Nat) : (s.set f v i j k).nor = s.nor := rfl
@[simp] theorem State.set_cal (s : State) (f : Fld) (v i j k : Nat) : (s.set f v i j k).cal = s.cal := rfl
@[simp] theorem State.set_norJobs (s : State) (f : Fld) (v i j k : Nat) : (s.set f v i j k).norJobs = s.norJobs := rfl
@[simp] theorem State.set_chan (s : State) (f : Fld) (v i j k : Nat) : (s.set f v i j k).chan = s.chan := rfl
@[simp] theorem State.set_chlRd (s : State) (f : Fld) (v i j k : Nat) : (s.set f v i j k).chlRd = s.chlRd := rfl
@[simp] theorem State.set_printRep (s : State) (f : Fld) (v i j k : Nat) : (s.set f v i j k).printRep = s.printRep := rfl
@[simp] theorem State.set_nhRd (s : State) (f : Fld) (v i j k : Nat) : (s.set f v i j k).nhRd = s.nhRd := rfl
@[simp] theorem State.set_nhGot (s : State) (f : Fld) (v i j k : Nat) : (s.set f v i j k).nhGot = s.nhGot := rfl
@[simp] theorem State.set_nhBad (s : State) (f : Fld) (v i j k : Nat) : (s.set f v i j k).nhBad = s.nhBad := rfl
@[simp] theorem State.set_calRun (s : State) (f : Fld) (v i j k : Nat) : (s.set f v i j k).calRun = s.calRun := rfl
@[simp] theorem State.set_lampLit (s : State) (f : Fld) (v i j k : Nat) : (s.set f v i j k).lampLit = s.lampLit := rfl
@[simp] theorem State.set_lampRun (s : State) (f : Fld) (v i j k : Nat) : (s.set f v i j k).lampRun = s.lampRun := rfl
@[simp] theorem State.set_swcTarget (s : State) (f : Fld) (v i j k : Nat) : (s.set f v i j k).swcTarget = s.swcTarget := rfl
@[simp] theorem State.set_swcHigh (s : State) (f : Fld) (v i j k : Nat) : (s.set f v i j k).swcHigh = s.swcHigh := rfl
@[simp] theorem State.set_swcOvp (s : State) (f : Fld) (v i j k : Nat) : (s.set f v i j k).swcOvp = s.swcOvp := rfl
@[simp] theorem State.set_swcOvps (s : State) (f : Fld) (v i j k : Nat) : (s.set f v i j k).swcOvps = s.swcOvps := rfl
@[simp] theorem State.set_chainSwap (s : State) (f : Fld) (v i j k : Nat) : (s.set f v i j k).chainSwap = s.chainSwap := rfl
@[simp] theorem State.set_chainOut (s : State) (f : Fld) (v i j k : Nat) : (s.set f v i j k).chainOut = s.chainOut := rfl
@[simp] theorem State.set_lbSent (s : State) (f : Fld) (v i j k : Nat) : (s.set f v i j k).lbSent = s.lbSent := rfl
@[simp] theorem State.set_lbNak (s : State) (f : Fld) (v i j k : Nat) : (s.set f v i j k).lbNak = s.lbNak := rfl
@[simp] theorem State.set_lbSafe (s : State) (f : Fld) (v i j k : Nat) : (s.set f v i j k).lbSafe = s.lbSafe := rfl
@[simp] theorem State.set_patAt (s : State) (f : Fld) (v i j k : Nat) : (s.set f v i j k).patAt = s.patAt := rfl
@[simp] theorem State.set_encCtx (s : State) (f : Fld) (v i j k : Nat) : (s.set f v i j k).encCtx = s.encCtx := rfl
@[simp] theorem State.set_encRun (s : State) (f : Fld) (v i j k : Nat) : (s.set f v i j k).encRun = s.encRun := rfl
@[simp] theorem State.set_encStall (s : State) (f : Fld) (v i j k : Nat) : (s.set f v i j k).encStall = s.encStall := rfl
@[simp] theorem State.set_encLast (s : State) (f : Fld) (v i j k : Nat) : (s.set f v i j k).encLast = s.encLast := rfl
@[simp] theorem State.set_decCtx (s : State) (f : Fld) (v i j k : Nat) : (s.set f v i j k).decCtx = s.decCtx := rfl
@[simp] theorem State.set_decLast (s : State) (f : Fld) (v i j k : Nat) : (s.set f v i j k).decLast = s.decLast := rfl
@[simp] theorem State.set_dpRegs (s : State) (f : Fld) (v i j k : Nat) : (s.set f v i j k).dpRegs = s.dpRegs := rfl
@[simp] theorem State.set_auxCmd (s : State) (f : Fld) (v i j k : Nat) : (s.set f v i j k).auxCmd = s.auxCmd := rfl
@[simp] theorem State.set_tim (s : State) (f : Fld) (v i j k : Nat) : (s.set f v i j k).tim = s.tim := rfl
@[simp] theorem State.set_twn (s : State) (f : Fld) (v i j k : Nat) : (s.set f v i j k).twn = s.twn := rfl
@[simp] theorem State.set_hst (s : State) (f : Fld) (v i j k : Nat) : (s.set f v i j k).hst = s.hst := rfl
@[simp] theorem State.set_mgt (s : State) (f : Fld) (v i j k : Nat) : (s.set f v i j k).mgt = s.mgt := rfl
@[simp] theorem State.set_pending (s : State) (f : Fld) (v i j k : Nat) : (s.set f v i j k).pending = s.pending := rfl

/-! ### After writing an applied value -/

@[simp] theorem State.putAp_regs (s : State) (a : Nat) (v : Word) : (s.putAp a v).regs = s.regs := rfl
@[simp] theorem State.putAp_latched (s : State) (a : Nat) (v : Word) : (s.putAp a v).latched = s.latched := rfl
@[simp] theorem State.putAp_clk (s : State) (a : Nat) (v : Word) : (s.putAp a v).clk = s.clk := rfl
@[simp] theorem State.putAp_netAcc (s : State) (a : Nat) (v : Word) : (s.putAp a v).netAcc = s.netAcc := rfl
@[simp] theorem State.putAp_nsFrac (s : State) (a : Nat) (v : Word) : (s.putAp a v).nsFrac = s.nsFrac := rfl
@[simp] theorem State.putAp_fresh (s : State) (a : Nat) (v : Word) : (s.putAp a v).fresh = s.fresh := rfl
@[simp] theorem State.putAp_evLast (s : State) (a : Nat) (v : Word) : (s.putAp a v).evLast = s.evLast := rfl
@[simp] theorem State.putAp_causes (s : State) (a : Nat) (v : Word) : (s.putAp a v).causes = s.causes := rfl
@[simp] theorem State.putAp_queues (s : State) (a : Nat) (v : Word) : (s.putAp a v).queues = s.queues := rfl
@[simp] theorem State.putAp_irqSent (s : State) (a : Nat) (v : Word) : (s.putAp a v).irqSent = s.irqSent := rfl
@[simp] theorem State.putAp_absIn (s : State) (a : Nat) (v : Word) : (s.putAp a v).absIn = s.absIn := rfl
@[simp] theorem State.putAp_mkHold (s : State) (a : Nat) (v : Word) : (s.putAp a v).mkHold = s.mkHold := rfl
@[simp] theorem State.putAp_trk (s : State) (a : Nat) (v : Word) : (s.putAp a v).trk = s.trk := rfl
@[simp] theorem State.putAp_lc (s : State) (a : Nat) (v : Word) : (s.putAp a v).lc = s.lc := rfl
@[simp] theorem State.putAp_latchMore (s : State) (a : Nat) (v : Word) : (s.putAp a v).latchMore = s.latchMore := rfl
@[simp] theorem State.putAp_gather (s : State) (a : Nat) (v : Word) : (s.putAp a v).gather = s.gather := rfl
@[simp] theorem State.putAp_hport (s : State) (a : Nat) (v : Word) : (s.putAp a v).hport = s.hport := rfl
@[simp] theorem State.putAp_hbar (s : State) (a : Nat) (v : Word) : (s.putAp a v).hbar = s.hbar := rfl
@[simp] theorem State.putAp_tr (s : State) (a : Nat) (v : Word) : (s.putAp a v).tr = s.tr := rfl
@[simp] theorem State.putAp_startTrig (s : State) (a : Nat) (v : Word) : (s.putAp a v).startTrig = s.startTrig := rfl
@[simp] theorem State.putAp_store (s : State) (a : Nat) (v : Word) : (s.putAp a v).store = s.store := rfl
@[simp] theorem State.putAp_poison (s : State) (a : Nat) (v : Word) : (s.putAp a v).poison = s.poison := rfl
@[simp] theorem State.putAp_memDev (s : State) (a : Nat) (v : Word) : (s.putAp a v).memDev = s.memDev := rfl
@[simp] theorem State.putAp_memFails (s : State) (a : Nat) (v : Word) : (s.putAp a v).memFails = s.memFails := rfl
@[simp] theorem State.putAp_memCool (s : State) (a : Nat) (v : Word) : (s.putAp a v).memCool = s.memCool := rfl
@[simp] theorem State.putAp_memHot (s : State) (a : Nat) (v : Word) : (s.putAp a v).memHot = s.memHot := rfl
@[simp] theorem State.putAp_memSleep (s : State) (a : Nat) (v : Word) : (s.putAp a v).memSleep = s.memSleep := rfl
@[simp] theorem State.putAp_memPanicLong (s : State) (a : Nat) (v : Word) : (s.putAp a v).memPanicLong = s.memPanicLong := rfl
@[simp] theorem State.putAp_memPromoted (s : State) (a : Nat) (v : Word) : (s.putAp a v).memPromoted = s.memPromoted := rfl
@[simp] theorem State.putAp_memRefPost (s : State) (a : Nat) (v : Word) : (s.putAp a v).memRefPost = s.memRefPost := rfl
@[simp] theorem State.putAp_memDrift (s : State) (a : Nat) (v : Word) : (s.putAp a v).memDrift = s.memDrift := rfl
@[simp] theorem State.putAp_sheaves (s : State) (a : Nat) (v : Word) : (s.putAp a v).sheaves = s.sheaves := rfl
@[simp] theorem State.putAp_dsheaves (s : State) (a : Nat) (v : Word) : (s.putAp a v).dsheaves = s.dsheaves := rfl
@[simp] theorem State.putAp_point (s : State) (a : Nat) (v : Word) : (s.putAp a v).point = s.point := rfl
@[simp] theorem State.putAp_feed (s : State) (a : Nat) (v : Word) : (s.putAp a v).feed = s.feed := rfl
@[simp] theorem State.putAp_pwidth (s : State) (a : Nat) (v : Word) : (s.putAp a v).pwidth = s.pwidth := rfl
@[simp] theorem State.putAp_tilTab (s : State) (a : Nat) (v : Word) : (s.putAp a v).tilTab = s.tilTab := rfl
@[simp] theorem State.putAp_tilPt (s : State) (a : Nat) (v : Word) : (s.putAp a v).tilPt = s.tilPt := rfl
@[simp] theorem State.putAp_nzHeld (s : State) (a : Nat) (v : Word) : (s.putAp a v).nzHeld = s.nzHeld := rfl
@[simp] theorem State.putAp_nzChg (s : State) (a : Nat) (v : Word) : (s.putAp a v).nzChg = s.nzChg := rfl
@[simp] theorem State.putAp_nzUnc (s : State) (a : Nat) (v : Word) : (s.putAp a v).nzUnc = s.nzUnc := rfl
@[simp] theorem State.putAp_tilOut (s : State) (a : Nat) (v : Word) : (s.putAp a v).tilOut = s.tilOut := rfl
@[simp] theorem State.putAp_eng (s : State) (a : Nat) (v : Word) : (s.putAp a v).eng = s.eng := rfl
@[simp] theorem State.putAp_engCode (s : State) (a : Nat) (v : Word) : (s.putAp a v).engCode = s.engCode := rfl
@[simp] theorem State.putAp_engData (s : State) (a : Nat) (v : Word) : (s.putAp a v).engData = s.engData := rfl
@[simp] theorem State.putAp_loading (s : State) (a : Nat) (v : Word) : (s.putAp a v).loading = s.loading := rfl
@[simp] theorem State.putAp_holdAt (s : State) (a : Nat) (v : Word) : (s.putAp a v).holdAt = s.holdAt := rfl
@[simp] theorem State.putAp_jobEnded (s : State) (a : Nat) (v : Word) : (s.putAp a v).jobEnded = s.jobEnded := rfl
@[simp] theorem State.putAp_gioPulse (s : State) (a : Nat) (v : Word) : (s.putAp a v).gioPulse = s.gioPulse := rfl
@[simp] theorem State.putAp_gioRaw (s : State) (a : Nat) (v : Word) : (s.putAp a v).gioRaw = s.gioRaw := rfl
@[simp] theorem State.putAp_tpPulse (s : State) (a : Nat) (v : Word) : (s.putAp a v).tpPulse = s.tpPulse := rfl
@[simp] theorem State.putAp_twinPull (s : State) (a : Nat) (v : Word) : (s.putAp a v).twinPull = s.twinPull := rfl
@[simp] theorem State.putAp_chlPend (s : State) (a : Nat) (v : Word) : (s.putAp a v).chlPend = s.chlPend := rfl
@[simp] theorem State.putAp_nhKept (s : State) (a : Nat) (v : Word) : (s.putAp a v).nhKept = s.nhKept := rfl
@[simp] theorem State.putAp_nhRuns (s : State) (a : Nat) (v : Word) : (s.putAp a v).nhRuns = s.nhRuns := rfl
@[simp] theorem State.putAp_nhOld (s : State) (a : Nat) (v : Word) : (s.putAp a v).nhOld = s.nhOld := rfl
@[simp] theorem State.putAp_nhEnd (s : State) (a : Nat) (v : Word) : (s.putAp a v).nhEnd = s.nhEnd := rfl
@[simp] theorem State.putAp_nhLimit (s : State) (a : Nat) (v : Word) : (s.putAp a v).nhLimit = s.nhLimit := rfl
@[simp] theorem State.putAp_domOff (s : State) (a : Nat) (v : Word) : (s.putAp a v).domOff = s.domOff := rfl
@[simp] theorem State.putAp_husk (s : State) (a : Nat) (v : Word) : (s.putAp a v).husk = s.husk := rfl
@[simp] theorem State.putAp_cam (s : State) (a : Nat) (v : Word) : (s.putAp a v).cam = s.cam := rfl
@[simp] theorem State.putAp_camPin (s : State) (a : Nat) (v : Word) : (s.putAp a v).camPin = s.camPin := rfl
@[simp] theorem State.putAp_camEdges (s : State) (a : Nat) (v : Word) : (s.putAp a v).camEdges = s.camEdges := rfl
@[simp] theorem State.putAp_ispWin (s : State) (a : Nat) (v : Word) : (s.putAp a v).ispWin = s.ispWin := rfl
@[simp] theorem State.putAp_ispTurn (s : State) (a : Nat) (v : Word) : (s.putAp a v).ispTurn = s.ispTurn := rfl
@[simp] theorem State.putAp_nor (s : State) (a : Nat) (v : Word) : (s.putAp a v).nor = s.nor := rfl
@[simp] theorem State.putAp_cal (s : State) (a : Nat) (v : Word) : (s.putAp a v).cal = s.cal := rfl
@[simp] theorem State.putAp_norJobs (s : State) (a : Nat) (v : Word) : (s.putAp a v).norJobs = s.norJobs := rfl
@[simp] theorem State.putAp_chan (s : State) (a : Nat) (v : Word) : (s.putAp a v).chan = s.chan := rfl
@[simp] theorem State.putAp_chlRd (s : State) (a : Nat) (v : Word) : (s.putAp a v).chlRd = s.chlRd := rfl
@[simp] theorem State.putAp_printRep (s : State) (a : Nat) (v : Word) : (s.putAp a v).printRep = s.printRep := rfl
@[simp] theorem State.putAp_nhRd (s : State) (a : Nat) (v : Word) : (s.putAp a v).nhRd = s.nhRd := rfl
@[simp] theorem State.putAp_nhGot (s : State) (a : Nat) (v : Word) : (s.putAp a v).nhGot = s.nhGot := rfl
@[simp] theorem State.putAp_nhBad (s : State) (a : Nat) (v : Word) : (s.putAp a v).nhBad = s.nhBad := rfl
@[simp] theorem State.putAp_calRun (s : State) (a : Nat) (v : Word) : (s.putAp a v).calRun = s.calRun := rfl
@[simp] theorem State.putAp_lampLit (s : State) (a : Nat) (v : Word) : (s.putAp a v).lampLit = s.lampLit := rfl
@[simp] theorem State.putAp_lampRun (s : State) (a : Nat) (v : Word) : (s.putAp a v).lampRun = s.lampRun := rfl
@[simp] theorem State.putAp_swcTarget (s : State) (a : Nat) (v : Word) : (s.putAp a v).swcTarget = s.swcTarget := rfl
@[simp] theorem State.putAp_swcHigh (s : State) (a : Nat) (v : Word) : (s.putAp a v).swcHigh = s.swcHigh := rfl
@[simp] theorem State.putAp_swcOvp (s : State) (a : Nat) (v : Word) : (s.putAp a v).swcOvp = s.swcOvp := rfl
@[simp] theorem State.putAp_swcOvps (s : State) (a : Nat) (v : Word) : (s.putAp a v).swcOvps = s.swcOvps := rfl
@[simp] theorem State.putAp_chainSwap (s : State) (a : Nat) (v : Word) : (s.putAp a v).chainSwap = s.chainSwap := rfl
@[simp] theorem State.putAp_chainOut (s : State) (a : Nat) (v : Word) : (s.putAp a v).chainOut = s.chainOut := rfl
@[simp] theorem State.putAp_lbSent (s : State) (a : Nat) (v : Word) : (s.putAp a v).lbSent = s.lbSent := rfl
@[simp] theorem State.putAp_lbNak (s : State) (a : Nat) (v : Word) : (s.putAp a v).lbNak = s.lbNak := rfl
@[simp] theorem State.putAp_lbSafe (s : State) (a : Nat) (v : Word) : (s.putAp a v).lbSafe = s.lbSafe := rfl
@[simp] theorem State.putAp_patAt (s : State) (a : Nat) (v : Word) : (s.putAp a v).patAt = s.patAt := rfl
@[simp] theorem State.putAp_encCtx (s : State) (a : Nat) (v : Word) : (s.putAp a v).encCtx = s.encCtx := rfl
@[simp] theorem State.putAp_encRun (s : State) (a : Nat) (v : Word) : (s.putAp a v).encRun = s.encRun := rfl
@[simp] theorem State.putAp_encStall (s : State) (a : Nat) (v : Word) : (s.putAp a v).encStall = s.encStall := rfl
@[simp] theorem State.putAp_encLast (s : State) (a : Nat) (v : Word) : (s.putAp a v).encLast = s.encLast := rfl
@[simp] theorem State.putAp_decCtx (s : State) (a : Nat) (v : Word) : (s.putAp a v).decCtx = s.decCtx := rfl
@[simp] theorem State.putAp_decLast (s : State) (a : Nat) (v : Word) : (s.putAp a v).decLast = s.decLast := rfl
@[simp] theorem State.putAp_dpRegs (s : State) (a : Nat) (v : Word) : (s.putAp a v).dpRegs = s.dpRegs := rfl
@[simp] theorem State.putAp_auxCmd (s : State) (a : Nat) (v : Word) : (s.putAp a v).auxCmd = s.auxCmd := rfl
@[simp] theorem State.putAp_tim (s : State) (a : Nat) (v : Word) : (s.putAp a v).tim = s.tim := rfl
@[simp] theorem State.putAp_twn (s : State) (a : Nat) (v : Word) : (s.putAp a v).twn = s.twn := rfl
@[simp] theorem State.putAp_hst (s : State) (a : Nat) (v : Word) : (s.putAp a v).hst = s.hst := rfl
@[simp] theorem State.putAp_mgt (s : State) (a : Nat) (v : Word) : (s.putAp a v).mgt = s.mgt := rfl
@[simp] theorem State.putAp_pending (s : State) (a : Nat) (v : Word) : (s.putAp a v).pending = s.pending := rfl

/-! ### After replacing a queue -/

@[simp] theorem State.setQu_regs (s : State) (q : Nat) (x : Queue) : (s.setQu q x).regs = s.regs := rfl
@[simp] theorem State.setQu_applied (s : State) (q : Nat) (x : Queue) : (s.setQu q x).applied = s.applied := rfl
@[simp] theorem State.setQu_latched (s : State) (q : Nat) (x : Queue) : (s.setQu q x).latched = s.latched := rfl
@[simp] theorem State.setQu_clk (s : State) (q : Nat) (x : Queue) : (s.setQu q x).clk = s.clk := rfl
@[simp] theorem State.setQu_netAcc (s : State) (q : Nat) (x : Queue) : (s.setQu q x).netAcc = s.netAcc := rfl
@[simp] theorem State.setQu_nsFrac (s : State) (q : Nat) (x : Queue) : (s.setQu q x).nsFrac = s.nsFrac := rfl
@[simp] theorem State.setQu_fresh (s : State) (q : Nat) (x : Queue) : (s.setQu q x).fresh = s.fresh := rfl
@[simp] theorem State.setQu_evLast (s : State) (q : Nat) (x : Queue) : (s.setQu q x).evLast = s.evLast := rfl
@[simp] theorem State.setQu_causes (s : State) (q : Nat) (x : Queue) : (s.setQu q x).causes = s.causes := rfl
@[simp] theorem State.setQu_irqSent (s : State) (q : Nat) (x : Queue) : (s.setQu q x).irqSent = s.irqSent := rfl
@[simp] theorem State.setQu_absIn (s : State) (q : Nat) (x : Queue) : (s.setQu q x).absIn = s.absIn := rfl
@[simp] theorem State.setQu_mkHold (s : State) (q : Nat) (x : Queue) : (s.setQu q x).mkHold = s.mkHold := rfl
@[simp] theorem State.setQu_trk (s : State) (q : Nat) (x : Queue) : (s.setQu q x).trk = s.trk := rfl
@[simp] theorem State.setQu_lc (s : State) (q : Nat) (x : Queue) : (s.setQu q x).lc = s.lc := rfl
@[simp] theorem State.setQu_latchMore (s : State) (q : Nat) (x : Queue) : (s.setQu q x).latchMore = s.latchMore := rfl
@[simp] theorem State.setQu_gather (s : State) (q : Nat) (x : Queue) : (s.setQu q x).gather = s.gather := rfl
@[simp] theorem State.setQu_hport (s : State) (q : Nat) (x : Queue) : (s.setQu q x).hport = s.hport := rfl
@[simp] theorem State.setQu_hbar (s : State) (q : Nat) (x : Queue) : (s.setQu q x).hbar = s.hbar := rfl
@[simp] theorem State.setQu_tr (s : State) (q : Nat) (x : Queue) : (s.setQu q x).tr = s.tr := rfl
@[simp] theorem State.setQu_startTrig (s : State) (q : Nat) (x : Queue) : (s.setQu q x).startTrig = s.startTrig := rfl
@[simp] theorem State.setQu_store (s : State) (q : Nat) (x : Queue) : (s.setQu q x).store = s.store := rfl
@[simp] theorem State.setQu_poison (s : State) (q : Nat) (x : Queue) : (s.setQu q x).poison = s.poison := rfl
@[simp] theorem State.setQu_memDev (s : State) (q : Nat) (x : Queue) : (s.setQu q x).memDev = s.memDev := rfl
@[simp] theorem State.setQu_memFails (s : State) (q : Nat) (x : Queue) : (s.setQu q x).memFails = s.memFails := rfl
@[simp] theorem State.setQu_memCool (s : State) (q : Nat) (x : Queue) : (s.setQu q x).memCool = s.memCool := rfl
@[simp] theorem State.setQu_memHot (s : State) (q : Nat) (x : Queue) : (s.setQu q x).memHot = s.memHot := rfl
@[simp] theorem State.setQu_memSleep (s : State) (q : Nat) (x : Queue) : (s.setQu q x).memSleep = s.memSleep := rfl
@[simp] theorem State.setQu_memPanicLong (s : State) (q : Nat) (x : Queue) : (s.setQu q x).memPanicLong = s.memPanicLong := rfl
@[simp] theorem State.setQu_memPromoted (s : State) (q : Nat) (x : Queue) : (s.setQu q x).memPromoted = s.memPromoted := rfl
@[simp] theorem State.setQu_memRefPost (s : State) (q : Nat) (x : Queue) : (s.setQu q x).memRefPost = s.memRefPost := rfl
@[simp] theorem State.setQu_memDrift (s : State) (q : Nat) (x : Queue) : (s.setQu q x).memDrift = s.memDrift := rfl
@[simp] theorem State.setQu_sheaves (s : State) (q : Nat) (x : Queue) : (s.setQu q x).sheaves = s.sheaves := rfl
@[simp] theorem State.setQu_dsheaves (s : State) (q : Nat) (x : Queue) : (s.setQu q x).dsheaves = s.dsheaves := rfl
@[simp] theorem State.setQu_point (s : State) (q : Nat) (x : Queue) : (s.setQu q x).point = s.point := rfl
@[simp] theorem State.setQu_feed (s : State) (q : Nat) (x : Queue) : (s.setQu q x).feed = s.feed := rfl
@[simp] theorem State.setQu_pwidth (s : State) (q : Nat) (x : Queue) : (s.setQu q x).pwidth = s.pwidth := rfl
@[simp] theorem State.setQu_tilTab (s : State) (q : Nat) (x : Queue) : (s.setQu q x).tilTab = s.tilTab := rfl
@[simp] theorem State.setQu_tilPt (s : State) (q : Nat) (x : Queue) : (s.setQu q x).tilPt = s.tilPt := rfl
@[simp] theorem State.setQu_nzHeld (s : State) (q : Nat) (x : Queue) : (s.setQu q x).nzHeld = s.nzHeld := rfl
@[simp] theorem State.setQu_nzChg (s : State) (q : Nat) (x : Queue) : (s.setQu q x).nzChg = s.nzChg := rfl
@[simp] theorem State.setQu_nzUnc (s : State) (q : Nat) (x : Queue) : (s.setQu q x).nzUnc = s.nzUnc := rfl
@[simp] theorem State.setQu_tilOut (s : State) (q : Nat) (x : Queue) : (s.setQu q x).tilOut = s.tilOut := rfl
@[simp] theorem State.setQu_eng (s : State) (q : Nat) (x : Queue) : (s.setQu q x).eng = s.eng := rfl
@[simp] theorem State.setQu_engCode (s : State) (q : Nat) (x : Queue) : (s.setQu q x).engCode = s.engCode := rfl
@[simp] theorem State.setQu_engData (s : State) (q : Nat) (x : Queue) : (s.setQu q x).engData = s.engData := rfl
@[simp] theorem State.setQu_loading (s : State) (q : Nat) (x : Queue) : (s.setQu q x).loading = s.loading := rfl
@[simp] theorem State.setQu_holdAt (s : State) (q : Nat) (x : Queue) : (s.setQu q x).holdAt = s.holdAt := rfl
@[simp] theorem State.setQu_jobEnded (s : State) (q : Nat) (x : Queue) : (s.setQu q x).jobEnded = s.jobEnded := rfl
@[simp] theorem State.setQu_gioPulse (s : State) (q : Nat) (x : Queue) : (s.setQu q x).gioPulse = s.gioPulse := rfl
@[simp] theorem State.setQu_gioRaw (s : State) (q : Nat) (x : Queue) : (s.setQu q x).gioRaw = s.gioRaw := rfl
@[simp] theorem State.setQu_tpPulse (s : State) (q : Nat) (x : Queue) : (s.setQu q x).tpPulse = s.tpPulse := rfl
@[simp] theorem State.setQu_twinPull (s : State) (q : Nat) (x : Queue) : (s.setQu q x).twinPull = s.twinPull := rfl
@[simp] theorem State.setQu_chlPend (s : State) (q : Nat) (x : Queue) : (s.setQu q x).chlPend = s.chlPend := rfl
@[simp] theorem State.setQu_nhKept (s : State) (q : Nat) (x : Queue) : (s.setQu q x).nhKept = s.nhKept := rfl
@[simp] theorem State.setQu_nhRuns (s : State) (q : Nat) (x : Queue) : (s.setQu q x).nhRuns = s.nhRuns := rfl
@[simp] theorem State.setQu_nhOld (s : State) (q : Nat) (x : Queue) : (s.setQu q x).nhOld = s.nhOld := rfl
@[simp] theorem State.setQu_nhEnd (s : State) (q : Nat) (x : Queue) : (s.setQu q x).nhEnd = s.nhEnd := rfl
@[simp] theorem State.setQu_nhLimit (s : State) (q : Nat) (x : Queue) : (s.setQu q x).nhLimit = s.nhLimit := rfl
@[simp] theorem State.setQu_domOff (s : State) (q : Nat) (x : Queue) : (s.setQu q x).domOff = s.domOff := rfl
@[simp] theorem State.setQu_husk (s : State) (q : Nat) (x : Queue) : (s.setQu q x).husk = s.husk := rfl
@[simp] theorem State.setQu_cam (s : State) (q : Nat) (x : Queue) : (s.setQu q x).cam = s.cam := rfl
@[simp] theorem State.setQu_camPin (s : State) (q : Nat) (x : Queue) : (s.setQu q x).camPin = s.camPin := rfl
@[simp] theorem State.setQu_camEdges (s : State) (q : Nat) (x : Queue) : (s.setQu q x).camEdges = s.camEdges := rfl
@[simp] theorem State.setQu_ispWin (s : State) (q : Nat) (x : Queue) : (s.setQu q x).ispWin = s.ispWin := rfl
@[simp] theorem State.setQu_ispTurn (s : State) (q : Nat) (x : Queue) : (s.setQu q x).ispTurn = s.ispTurn := rfl
@[simp] theorem State.setQu_nor (s : State) (q : Nat) (x : Queue) : (s.setQu q x).nor = s.nor := rfl
@[simp] theorem State.setQu_cal (s : State) (q : Nat) (x : Queue) : (s.setQu q x).cal = s.cal := rfl
@[simp] theorem State.setQu_norJobs (s : State) (q : Nat) (x : Queue) : (s.setQu q x).norJobs = s.norJobs := rfl
@[simp] theorem State.setQu_chan (s : State) (q : Nat) (x : Queue) : (s.setQu q x).chan = s.chan := rfl
@[simp] theorem State.setQu_chlRd (s : State) (q : Nat) (x : Queue) : (s.setQu q x).chlRd = s.chlRd := rfl
@[simp] theorem State.setQu_printRep (s : State) (q : Nat) (x : Queue) : (s.setQu q x).printRep = s.printRep := rfl
@[simp] theorem State.setQu_nhRd (s : State) (q : Nat) (x : Queue) : (s.setQu q x).nhRd = s.nhRd := rfl
@[simp] theorem State.setQu_nhGot (s : State) (q : Nat) (x : Queue) : (s.setQu q x).nhGot = s.nhGot := rfl
@[simp] theorem State.setQu_nhBad (s : State) (q : Nat) (x : Queue) : (s.setQu q x).nhBad = s.nhBad := rfl
@[simp] theorem State.setQu_calRun (s : State) (q : Nat) (x : Queue) : (s.setQu q x).calRun = s.calRun := rfl
@[simp] theorem State.setQu_lampLit (s : State) (q : Nat) (x : Queue) : (s.setQu q x).lampLit = s.lampLit := rfl
@[simp] theorem State.setQu_lampRun (s : State) (q : Nat) (x : Queue) : (s.setQu q x).lampRun = s.lampRun := rfl
@[simp] theorem State.setQu_swcTarget (s : State) (q : Nat) (x : Queue) : (s.setQu q x).swcTarget = s.swcTarget := rfl
@[simp] theorem State.setQu_swcHigh (s : State) (q : Nat) (x : Queue) : (s.setQu q x).swcHigh = s.swcHigh := rfl
@[simp] theorem State.setQu_swcOvp (s : State) (q : Nat) (x : Queue) : (s.setQu q x).swcOvp = s.swcOvp := rfl
@[simp] theorem State.setQu_swcOvps (s : State) (q : Nat) (x : Queue) : (s.setQu q x).swcOvps = s.swcOvps := rfl
@[simp] theorem State.setQu_chainSwap (s : State) (q : Nat) (x : Queue) : (s.setQu q x).chainSwap = s.chainSwap := rfl
@[simp] theorem State.setQu_chainOut (s : State) (q : Nat) (x : Queue) : (s.setQu q x).chainOut = s.chainOut := rfl
@[simp] theorem State.setQu_lbSent (s : State) (q : Nat) (x : Queue) : (s.setQu q x).lbSent = s.lbSent := rfl
@[simp] theorem State.setQu_lbNak (s : State) (q : Nat) (x : Queue) : (s.setQu q x).lbNak = s.lbNak := rfl
@[simp] theorem State.setQu_lbSafe (s : State) (q : Nat) (x : Queue) : (s.setQu q x).lbSafe = s.lbSafe := rfl
@[simp] theorem State.setQu_patAt (s : State) (q : Nat) (x : Queue) : (s.setQu q x).patAt = s.patAt := rfl
@[simp] theorem State.setQu_encCtx (s : State) (q : Nat) (x : Queue) : (s.setQu q x).encCtx = s.encCtx := rfl
@[simp] theorem State.setQu_encRun (s : State) (q : Nat) (x : Queue) : (s.setQu q x).encRun = s.encRun := rfl
@[simp] theorem State.setQu_encStall (s : State) (q : Nat) (x : Queue) : (s.setQu q x).encStall = s.encStall := rfl
@[simp] theorem State.setQu_encLast (s : State) (q : Nat) (x : Queue) : (s.setQu q x).encLast = s.encLast := rfl
@[simp] theorem State.setQu_decCtx (s : State) (q : Nat) (x : Queue) : (s.setQu q x).decCtx = s.decCtx := rfl
@[simp] theorem State.setQu_decLast (s : State) (q : Nat) (x : Queue) : (s.setQu q x).decLast = s.decLast := rfl
@[simp] theorem State.setQu_dpRegs (s : State) (q : Nat) (x : Queue) : (s.setQu q x).dpRegs = s.dpRegs := rfl
@[simp] theorem State.setQu_auxCmd (s : State) (q : Nat) (x : Queue) : (s.setQu q x).auxCmd = s.auxCmd := rfl
@[simp] theorem State.setQu_tim (s : State) (q : Nat) (x : Queue) : (s.setQu q x).tim = s.tim := rfl
@[simp] theorem State.setQu_twn (s : State) (q : Nat) (x : Queue) : (s.setQu q x).twn = s.twn := rfl
@[simp] theorem State.setQu_hst (s : State) (q : Nat) (x : Queue) : (s.setQu q x).hst = s.hst := rfl
@[simp] theorem State.setQu_mgt (s : State) (q : Nat) (x : Queue) : (s.setQu q x).mgt = s.mgt := rfl
@[simp] theorem State.setQu_pending (s : State) (q : Nat) (x : Queue) : (s.setQu q x).pending = s.pending := rfl

/-! ### After replacing an engine's own state -/

@[simp] theorem State.setEx_regs (s : State) (e : Nat) (x : EngX) : (s.setEx e x).regs = s.regs := rfl
@[simp] theorem State.setEx_applied (s : State) (e : Nat) (x : EngX) : (s.setEx e x).applied = s.applied := rfl
@[simp] theorem State.setEx_latched (s : State) (e : Nat) (x : EngX) : (s.setEx e x).latched = s.latched := rfl
@[simp] theorem State.setEx_clk (s : State) (e : Nat) (x : EngX) : (s.setEx e x).clk = s.clk := rfl
@[simp] theorem State.setEx_netAcc (s : State) (e : Nat) (x : EngX) : (s.setEx e x).netAcc = s.netAcc := rfl
@[simp] theorem State.setEx_nsFrac (s : State) (e : Nat) (x : EngX) : (s.setEx e x).nsFrac = s.nsFrac := rfl
@[simp] theorem State.setEx_fresh (s : State) (e : Nat) (x : EngX) : (s.setEx e x).fresh = s.fresh := rfl
@[simp] theorem State.setEx_evLast (s : State) (e : Nat) (x : EngX) : (s.setEx e x).evLast = s.evLast := rfl
@[simp] theorem State.setEx_causes (s : State) (e : Nat) (x : EngX) : (s.setEx e x).causes = s.causes := rfl
@[simp] theorem State.setEx_queues (s : State) (e : Nat) (x : EngX) : (s.setEx e x).queues = s.queues := rfl
@[simp] theorem State.setEx_irqSent (s : State) (e : Nat) (x : EngX) : (s.setEx e x).irqSent = s.irqSent := rfl
@[simp] theorem State.setEx_absIn (s : State) (e : Nat) (x : EngX) : (s.setEx e x).absIn = s.absIn := rfl
@[simp] theorem State.setEx_mkHold (s : State) (e : Nat) (x : EngX) : (s.setEx e x).mkHold = s.mkHold := rfl
@[simp] theorem State.setEx_trk (s : State) (e : Nat) (x : EngX) : (s.setEx e x).trk = s.trk := rfl
@[simp] theorem State.setEx_lc (s : State) (e : Nat) (x : EngX) : (s.setEx e x).lc = s.lc := rfl
@[simp] theorem State.setEx_latchMore (s : State) (e : Nat) (x : EngX) : (s.setEx e x).latchMore = s.latchMore := rfl
@[simp] theorem State.setEx_gather (s : State) (e : Nat) (x : EngX) : (s.setEx e x).gather = s.gather := rfl
@[simp] theorem State.setEx_hport (s : State) (e : Nat) (x : EngX) : (s.setEx e x).hport = s.hport := rfl
@[simp] theorem State.setEx_hbar (s : State) (e : Nat) (x : EngX) : (s.setEx e x).hbar = s.hbar := rfl
@[simp] theorem State.setEx_tr (s : State) (e : Nat) (x : EngX) : (s.setEx e x).tr = s.tr := rfl
@[simp] theorem State.setEx_startTrig (s : State) (e : Nat) (x : EngX) : (s.setEx e x).startTrig = s.startTrig := rfl
@[simp] theorem State.setEx_store (s : State) (e : Nat) (x : EngX) : (s.setEx e x).store = s.store := rfl
@[simp] theorem State.setEx_poison (s : State) (e : Nat) (x : EngX) : (s.setEx e x).poison = s.poison := rfl
@[simp] theorem State.setEx_memDev (s : State) (e : Nat) (x : EngX) : (s.setEx e x).memDev = s.memDev := rfl
@[simp] theorem State.setEx_memFails (s : State) (e : Nat) (x : EngX) : (s.setEx e x).memFails = s.memFails := rfl
@[simp] theorem State.setEx_memCool (s : State) (e : Nat) (x : EngX) : (s.setEx e x).memCool = s.memCool := rfl
@[simp] theorem State.setEx_memHot (s : State) (e : Nat) (x : EngX) : (s.setEx e x).memHot = s.memHot := rfl
@[simp] theorem State.setEx_memSleep (s : State) (e : Nat) (x : EngX) : (s.setEx e x).memSleep = s.memSleep := rfl
@[simp] theorem State.setEx_memPanicLong (s : State) (e : Nat) (x : EngX) : (s.setEx e x).memPanicLong = s.memPanicLong := rfl
@[simp] theorem State.setEx_memPromoted (s : State) (e : Nat) (x : EngX) : (s.setEx e x).memPromoted = s.memPromoted := rfl
@[simp] theorem State.setEx_memRefPost (s : State) (e : Nat) (x : EngX) : (s.setEx e x).memRefPost = s.memRefPost := rfl
@[simp] theorem State.setEx_memDrift (s : State) (e : Nat) (x : EngX) : (s.setEx e x).memDrift = s.memDrift := rfl
@[simp] theorem State.setEx_sheaves (s : State) (e : Nat) (x : EngX) : (s.setEx e x).sheaves = s.sheaves := rfl
@[simp] theorem State.setEx_dsheaves (s : State) (e : Nat) (x : EngX) : (s.setEx e x).dsheaves = s.dsheaves := rfl
@[simp] theorem State.setEx_point (s : State) (e : Nat) (x : EngX) : (s.setEx e x).point = s.point := rfl
@[simp] theorem State.setEx_feed (s : State) (e : Nat) (x : EngX) : (s.setEx e x).feed = s.feed := rfl
@[simp] theorem State.setEx_pwidth (s : State) (e : Nat) (x : EngX) : (s.setEx e x).pwidth = s.pwidth := rfl
@[simp] theorem State.setEx_tilTab (s : State) (e : Nat) (x : EngX) : (s.setEx e x).tilTab = s.tilTab := rfl
@[simp] theorem State.setEx_tilPt (s : State) (e : Nat) (x : EngX) : (s.setEx e x).tilPt = s.tilPt := rfl
@[simp] theorem State.setEx_nzHeld (s : State) (e : Nat) (x : EngX) : (s.setEx e x).nzHeld = s.nzHeld := rfl
@[simp] theorem State.setEx_nzChg (s : State) (e : Nat) (x : EngX) : (s.setEx e x).nzChg = s.nzChg := rfl
@[simp] theorem State.setEx_nzUnc (s : State) (e : Nat) (x : EngX) : (s.setEx e x).nzUnc = s.nzUnc := rfl
@[simp] theorem State.setEx_tilOut (s : State) (e : Nat) (x : EngX) : (s.setEx e x).tilOut = s.tilOut := rfl
@[simp] theorem State.setEx_engCode (s : State) (e : Nat) (x : EngX) : (s.setEx e x).engCode = s.engCode := rfl
@[simp] theorem State.setEx_engData (s : State) (e : Nat) (x : EngX) : (s.setEx e x).engData = s.engData := rfl
@[simp] theorem State.setEx_loading (s : State) (e : Nat) (x : EngX) : (s.setEx e x).loading = s.loading := rfl
@[simp] theorem State.setEx_holdAt (s : State) (e : Nat) (x : EngX) : (s.setEx e x).holdAt = s.holdAt := rfl
@[simp] theorem State.setEx_jobEnded (s : State) (e : Nat) (x : EngX) : (s.setEx e x).jobEnded = s.jobEnded := rfl
@[simp] theorem State.setEx_gioPulse (s : State) (e : Nat) (x : EngX) : (s.setEx e x).gioPulse = s.gioPulse := rfl
@[simp] theorem State.setEx_gioRaw (s : State) (e : Nat) (x : EngX) : (s.setEx e x).gioRaw = s.gioRaw := rfl
@[simp] theorem State.setEx_tpPulse (s : State) (e : Nat) (x : EngX) : (s.setEx e x).tpPulse = s.tpPulse := rfl
@[simp] theorem State.setEx_twinPull (s : State) (e : Nat) (x : EngX) : (s.setEx e x).twinPull = s.twinPull := rfl
@[simp] theorem State.setEx_chlPend (s : State) (e : Nat) (x : EngX) : (s.setEx e x).chlPend = s.chlPend := rfl
@[simp] theorem State.setEx_nhKept (s : State) (e : Nat) (x : EngX) : (s.setEx e x).nhKept = s.nhKept := rfl
@[simp] theorem State.setEx_nhRuns (s : State) (e : Nat) (x : EngX) : (s.setEx e x).nhRuns = s.nhRuns := rfl
@[simp] theorem State.setEx_nhOld (s : State) (e : Nat) (x : EngX) : (s.setEx e x).nhOld = s.nhOld := rfl
@[simp] theorem State.setEx_nhEnd (s : State) (e : Nat) (x : EngX) : (s.setEx e x).nhEnd = s.nhEnd := rfl
@[simp] theorem State.setEx_nhLimit (s : State) (e : Nat) (x : EngX) : (s.setEx e x).nhLimit = s.nhLimit := rfl
@[simp] theorem State.setEx_domOff (s : State) (e : Nat) (x : EngX) : (s.setEx e x).domOff = s.domOff := rfl
@[simp] theorem State.setEx_husk (s : State) (e : Nat) (x : EngX) : (s.setEx e x).husk = s.husk := rfl
@[simp] theorem State.setEx_cam (s : State) (e : Nat) (x : EngX) : (s.setEx e x).cam = s.cam := rfl
@[simp] theorem State.setEx_camPin (s : State) (e : Nat) (x : EngX) : (s.setEx e x).camPin = s.camPin := rfl
@[simp] theorem State.setEx_camEdges (s : State) (e : Nat) (x : EngX) : (s.setEx e x).camEdges = s.camEdges := rfl
@[simp] theorem State.setEx_ispWin (s : State) (e : Nat) (x : EngX) : (s.setEx e x).ispWin = s.ispWin := rfl
@[simp] theorem State.setEx_ispTurn (s : State) (e : Nat) (x : EngX) : (s.setEx e x).ispTurn = s.ispTurn := rfl
@[simp] theorem State.setEx_nor (s : State) (e : Nat) (x : EngX) : (s.setEx e x).nor = s.nor := rfl
@[simp] theorem State.setEx_cal (s : State) (e : Nat) (x : EngX) : (s.setEx e x).cal = s.cal := rfl
@[simp] theorem State.setEx_norJobs (s : State) (e : Nat) (x : EngX) : (s.setEx e x).norJobs = s.norJobs := rfl
@[simp] theorem State.setEx_chan (s : State) (e : Nat) (x : EngX) : (s.setEx e x).chan = s.chan := rfl
@[simp] theorem State.setEx_chlRd (s : State) (e : Nat) (x : EngX) : (s.setEx e x).chlRd = s.chlRd := rfl
@[simp] theorem State.setEx_printRep (s : State) (e : Nat) (x : EngX) : (s.setEx e x).printRep = s.printRep := rfl
@[simp] theorem State.setEx_nhRd (s : State) (e : Nat) (x : EngX) : (s.setEx e x).nhRd = s.nhRd := rfl
@[simp] theorem State.setEx_nhGot (s : State) (e : Nat) (x : EngX) : (s.setEx e x).nhGot = s.nhGot := rfl
@[simp] theorem State.setEx_nhBad (s : State) (e : Nat) (x : EngX) : (s.setEx e x).nhBad = s.nhBad := rfl
@[simp] theorem State.setEx_calRun (s : State) (e : Nat) (x : EngX) : (s.setEx e x).calRun = s.calRun := rfl
@[simp] theorem State.setEx_lampLit (s : State) (e : Nat) (x : EngX) : (s.setEx e x).lampLit = s.lampLit := rfl
@[simp] theorem State.setEx_lampRun (s : State) (e : Nat) (x : EngX) : (s.setEx e x).lampRun = s.lampRun := rfl
@[simp] theorem State.setEx_swcTarget (s : State) (e : Nat) (x : EngX) : (s.setEx e x).swcTarget = s.swcTarget := rfl
@[simp] theorem State.setEx_swcHigh (s : State) (e : Nat) (x : EngX) : (s.setEx e x).swcHigh = s.swcHigh := rfl
@[simp] theorem State.setEx_swcOvp (s : State) (e : Nat) (x : EngX) : (s.setEx e x).swcOvp = s.swcOvp := rfl
@[simp] theorem State.setEx_swcOvps (s : State) (e : Nat) (x : EngX) : (s.setEx e x).swcOvps = s.swcOvps := rfl
@[simp] theorem State.setEx_chainSwap (s : State) (e : Nat) (x : EngX) : (s.setEx e x).chainSwap = s.chainSwap := rfl
@[simp] theorem State.setEx_chainOut (s : State) (e : Nat) (x : EngX) : (s.setEx e x).chainOut = s.chainOut := rfl
@[simp] theorem State.setEx_lbSent (s : State) (e : Nat) (x : EngX) : (s.setEx e x).lbSent = s.lbSent := rfl
@[simp] theorem State.setEx_lbNak (s : State) (e : Nat) (x : EngX) : (s.setEx e x).lbNak = s.lbNak := rfl
@[simp] theorem State.setEx_lbSafe (s : State) (e : Nat) (x : EngX) : (s.setEx e x).lbSafe = s.lbSafe := rfl
@[simp] theorem State.setEx_patAt (s : State) (e : Nat) (x : EngX) : (s.setEx e x).patAt = s.patAt := rfl
@[simp] theorem State.setEx_encCtx (s : State) (e : Nat) (x : EngX) : (s.setEx e x).encCtx = s.encCtx := rfl
@[simp] theorem State.setEx_encRun (s : State) (e : Nat) (x : EngX) : (s.setEx e x).encRun = s.encRun := rfl
@[simp] theorem State.setEx_encStall (s : State) (e : Nat) (x : EngX) : (s.setEx e x).encStall = s.encStall := rfl
@[simp] theorem State.setEx_encLast (s : State) (e : Nat) (x : EngX) : (s.setEx e x).encLast = s.encLast := rfl
@[simp] theorem State.setEx_decCtx (s : State) (e : Nat) (x : EngX) : (s.setEx e x).decCtx = s.decCtx := rfl
@[simp] theorem State.setEx_decLast (s : State) (e : Nat) (x : EngX) : (s.setEx e x).decLast = s.decLast := rfl
@[simp] theorem State.setEx_dpRegs (s : State) (e : Nat) (x : EngX) : (s.setEx e x).dpRegs = s.dpRegs := rfl
@[simp] theorem State.setEx_auxCmd (s : State) (e : Nat) (x : EngX) : (s.setEx e x).auxCmd = s.auxCmd := rfl
@[simp] theorem State.setEx_tim (s : State) (e : Nat) (x : EngX) : (s.setEx e x).tim = s.tim := rfl
@[simp] theorem State.setEx_twn (s : State) (e : Nat) (x : EngX) : (s.setEx e x).twn = s.twn := rfl
@[simp] theorem State.setEx_hst (s : State) (e : Nat) (x : EngX) : (s.setEx e x).hst = s.hst := rfl
@[simp] theorem State.setEx_mgt (s : State) (e : Nat) (x : EngX) : (s.setEx e x).mgt = s.mgt := rfl
@[simp] theorem State.setEx_pending (s : State) (e : Nat) (x : EngX) : (s.setEx e x).pending = s.pending := rfl

end Sys2Proof.Machine
end

