-- ==== Sys2Proof/Laws/Engine.lean ====
section
/-! SUPPORT. The engines: what reading a register of an engine gives after a write, and everything that issuing an instruction can do where
the engine goes on to the next one. -/

namespace Sys2Proof.Machine

open Sys2Proof.Safety

theorem OnlyRegs_refl (A : List Nat) (s : State) : OnlyRegs A s s := ⟨fun _ _ => rfl, rfl⟩

theorem OnlyRegs_trans {A B : List Nat} {s t u : State} (h : OnlyRegs A s t) (h' : OnlyRegs B t u) : OnlyRegs (A ++ B) s u := by
  refine ⟨fun a ha => ?_, ?_⟩
  · rw [h'.1 a (fun x => ha (List.mem_append_right _ x)), h.1 a (fun x => ha (List.mem_append_left _ x))]
  · rw [h'.2, h.2]

theorem OnlyRegs_wr (s : State) (a : Nat) (v : Word) : OnlyRegs [a] s (s.wr a v) :=
  ⟨fun _ h => s.rd_wr_other v (by simpa using h), rfl⟩

theorem OnlyRegs_set (s : State) (f : Fld) (v i j k : Nat) : OnlyRegs [f.addr i j k] s (s.set f v i j k) := OnlyRegs_wr _ _ _

theorem OnlyRegs_mono {A B : List Nat} {s t : State} (h : OnlyRegs A s t) (hs : ∀ a ∈ A, a ∈ B) : OnlyRegs B s t :=
  ⟨fun a ha => h.1 a fun x => ha (hs a x), h.2⟩

/-- A field whose register is not among the changed ones reads as before. -/
theorem OnlyRegs_get {A : List Nat} {s t : State} (h : OnlyRegs A s t) (f : Fld) (i j k : Nat) (ha : f.addr i j k ∉ A) :
    t.get f i j k = s.get f i j k := by
  simp [State.get, h.1 _ ha]

theorem OnlyRegs_ex {A : List Nat} {s t : State} (h : OnlyRegs A s t) (e : Nat) : t.ex e = s.ex e := by
  rw [h.2]; rfl

/-- Issue of an instruction that completes with changes outside the engine's control registers: the engine goes on at PC + 4. -/
theorem issue_next {A : List Nat} {s t : State} {e : Nat} {w : Word} {op : State → UOut} (h : Runs s e) (hop : op s = .next t)
    (ht : OnlyRegs A s t) (hA : ∀ a ∈ A, a ≠ ENG_STAT_STATE.addr e ∧ a ≠ ENG_BREAK_EN.addr e) :
    s.issue e w op = t.set ENG_PC (s.get ENG_PC e + 4) e := by
  obtain ⟨h1, h2, h3, h4, h5⟩ := h
  have hs : ∀ f : Fld, (f.addr e ∉ A) → f.addr e ≠ ENG_PC.addr e →
      (t.set ENG_PC (s.get ENG_PC e + 4) e).get f e = s.get f e := fun f hf hp => by
    rw [State.get_set_addr _ _ _ _ _ _ _ _ _ _ hp, OnlyRegs_get ht _ _ _ _ hf]
  have hst := hs ENG_STAT_STATE (fun x => (hA _ x).1 rfl) (by simp [Fld.addr])
  have hbr := hs ENG_BREAK_EN (fun x => (hA _ x).2 rfl) (by simp [Fld.addr])
  have hx : (t.set ENG_PC (s.get ENG_PC e + 4) e).ex e = s.ex e := OnlyRegs_ex (OnlyRegs_trans ht (OnlyRegs_set t _ _ _ _ _)) e
  simp only [State.engState] at h1
  simp only [State.on] at h4
  simp only [State.issue, State.engState, h1, h2, hop, State.settle, State.follow, State.complete, hx, h3, hst, State.breakAt, State.on, hbr, h4,
    if_true, if_false, Bool.false_eq_true, Bool.false_and, show ¬ s.get ENG_PC e = 0xFFFC by omega]

/-- An instruction that traps. -/
theorem issue_T {s : State} {e : Nat} {w : Word} {op : State → UOut} {c : Nat} (h : Runs s e) (hop : op s = .trap c) :
    s.issue e w op = s.trap e c (s.get ENG_PC e) w := by
  obtain ⟨h1, h2, h3, h4, h5⟩ := h
  simp only [State.issue, h1, h2, hop, State.settle, if_true, if_false, Bool.false_eq_true]
  rw [if_neg]; omega

/-- An instruction that passes control to an address in code memory with changes outside the engine's control registers. -/
theorem issue_J {A : List Nat} {s t : State} {e : Nat} {w : Word} {op : State → UOut} {z : Int} (h : Runs s e) (hop : op s = .jump z t)
    (hz : 0 ≤ z) (hz' : z < 0x10000)
    (ht : OnlyRegs A s t) (hA : ∀ a ∈ A, a ≠ ENG_STAT_STATE.addr e ∧ a ≠ ENG_BREAK_EN.addr e) :
    s.issue e w op = t.set ENG_PC z.toNat e := by
  obtain ⟨h1, h2, h3, h4, h5⟩ := h
  have hs : ∀ f : Fld, (f.addr e ∉ A) → f.addr e ≠ ENG_PC.addr e →
      (t.set ENG_PC z.toNat e).get f e = s.get f e := fun f hf hp => by
    rw [State.get_set_addr _ _ _ _ _ _ _ _ _ _ hp, OnlyRegs_get ht _ _ _ _ hf]
  have hst := hs ENG_STAT_STATE (fun x => (hA _ x).1 rfl) (by simp [Fld.addr])
  have hbr := hs ENG_BREAK_EN (fun x => (hA _ x).2 rfl) (by simp [Fld.addr])
  have hx : (t.set ENG_PC z.toNat e).ex e = s.ex e := OnlyRegs_ex (OnlyRegs_trans ht (OnlyRegs_set t _ _ _ _ _)) e
  simp only [State.engState] at h1
  simp only [State.on] at h4
  simp only [State.issue, State.engState, h1, h2, hop, State.settle, State.complete, hx, h3, hst, State.breakAt, State.on, hbr, h4,
    if_true, if_false, Bool.false_eq_true, Bool.false_and]
  rw [if_neg (by omega)]

theorem get_PC_set (s : State) (v e : Nat) : (s.set ENG_PC v e).get ENG_PC e = v % 2 ^ 32 :=
  State.get_set_same _ _ _ _ _ _ (by decide)

/-- An instruction that writes one G register. -/
theorem issue_G {s : State} {e : Nat} {w : Word} {op : State → UOut} {rd : Nat} {v : Word} (h : Runs s e) (hr : rd < 32)
    (hop : op s = .next (s.setG e rd v)) :
    GResult s e rd v (.next (s.issue e w op)) := by
  have hG : OnlyRegs (if rd = 0 then [] else [ENG_G.addr e rd]) s (s.setG e rd v) := by
    unfold State.setG; split
    · exact OnlyRegs_refl _ _
    · exact OnlyRegs_wr _ _ _
  refine ⟨_, rfl, ?_⟩
  rw [issue_next h hop hG]
  · refine ⟨?_, ?_, OnlyRegs_trans hG (OnlyRegs_set _ _ _ _ _ _)⟩
    · unfold State.g; split
      · rfl
      · rw [State.rd_set_other, State.setG, if_neg ‹_›, State.rd_wr_same]
        simp [Fld.addr]; omega
    · rw [get_PC_set, Nat.mod_eq_of_lt]; have := h.2.2.2.2; omega
  · intro a ha
    split at ha
    · simp at ha
    · simp only [List.mem_singleton] at ha; subst ha; simp [Fld.addr]; omega

/-- An instruction that writes one P register. -/
theorem issue_P {s : State} {e : Nat} {w : Word} {op : State → UOut} {pd : Nat} {v : Dword} (h : Runs s e) (hp : pd < 8)
    (hop : op s = .next (s.setP e pd v)) : PResult s e pd v (.next (s.issue e w op)) := by
  have hP : OnlyRegs [ENG_P_LO.addr e pd, ENG_P_LO.addr e pd + 4] s (s.setP e pd v) := by
    unfold State.setP; rw [Nat.mod_eq_of_lt hp]
    exact OnlyRegs_trans (OnlyRegs_wr _ _ _) (OnlyRegs_wr _ _ _)
  refine ⟨_, rfl, ?_⟩
  rw [issue_next h hop hP]
  · refine ⟨?_, ?_, OnlyRegs_trans hP (OnlyRegs_set _ _ _ _ _ _)⟩
    · unfold State.pr
      rw [State.rd_set_other, State.rd_set_other, State.setP, State.rd_wr_same, State.rd_wr_other, State.rd_wr_same]
      · ext i hi
        simp only [BitVec.getElem_append, BitVec.getElem_setWidth, BitVec.getLsbD_ushiftRight]
        split
        · simp [BitVec.getLsbD_eq_getElem hi]
        · rw [show 32 + (i - 32) = i by omega, BitVec.getLsbD_eq_getElem hi]
      all_goals (simp [Fld.addr] <;> omega)
    · rw [get_PC_set, Nat.mod_eq_of_lt]; have := h.2.2.2.2; omega
  · intro a ha
    simp only [List.mem_cons, List.not_mem_nil, or_false] at ha
    rcases ha with rfl | rfl <;> simp [Fld.addr] <;> omega

theorem State.each_nil {α : Type} (s : State) (f : α → State → State) : s.each [] f = s := rfl

theorem State.each_cons {α : Type} (s : State) (x : α) (r : List α) (f : α → State → State) : s.each (x :: r) f = (f x s).each r f := rfl

/-- What every step of a loop leaves alone, the loop leaves alone. -/
theorem State.each_inv {α : Type} (P : State → Prop) (l : List α) (f : α → State → State) (h : ∀ x s, x ∈ l → P s → P (f x s)) (s : State)
    (hs : P s) : P (s.each l f) := by
  induction l generalizing s with
  | nil => exact hs
  | cons x r ih => exact ih (fun y s hy => h y s (List.mem_cons_of_mem _ hy)) _ (h x s (List.mem_cons_self ..) hs)

/-- The words of a vector register that a write leaves, by word. -/
theorem setV_rd (s : State) (e v : Nat) (l : List (BitVec 16)) (w : Nat) (hw : w < 8) :
    (s.setV e v l).rd (ENG_V.addr e v w) = l.getD (2 * w + 1) 0 ++ l.getD (2 * w) 0 := by
  simp only [State.setV, show List.range 8 = [0, 1, 2, 3, 4, 5, 6, 7] from rfl, State.each_cons, State.each_nil]
  have hne : ∀ i j : Nat, i ≠ j → ENG_V.addr e v i ≠ ENG_V.addr e v j := fun i j h => by simp [Fld.addr, h]
  simp only [State.rd_wr]
  have : w = 0 ∨ w = 1 ∨ w = 2 ∨ w = 3 ∨ w = 4 ∨ w = 5 ∨ w = 6 ∨ w = 7 := by omega
  rcases this with rfl | rfl | rfl | rfl | rfl | rfl | rfl | rfl <;> simp [Fld.addr]

theorem setV_only (s : State) (e v : Nat) (l : List (BitVec 16)) :
    OnlyRegs ((List.range 8).map fun w => ENG_V.addr e v w) s (s.setV e v l) := by
  unfold State.setV
  refine State.each_inv (fun t => OnlyRegs ((List.range 8).map fun w => ENG_V.addr e v w) s t) _ _ ?_ _ (OnlyRegs_refl _ _)
  intro w t hw ht
  refine OnlyRegs_mono (OnlyRegs_trans ht (OnlyRegs_wr _ _ _)) ?_
  intro a ha
  rcases List.mem_append.1 ha with h | h
  · exact h
  · rw [List.mem_singleton.1 h]; exact List.mem_map.2 ⟨w, hw, rfl⟩

theorem low_append (x y : BitVec 16) : ((x ++ y) >>> 0).setWidth 16 = y := by
  ext j hj
  simp only [BitVec.getElem_setWidth, BitVec.getLsbD_ushiftRight, BitVec.getLsbD_append]
  rw [if_pos (by omega), Nat.zero_add, BitVec.getLsbD_eq_getElem hj]

theorem high_append (x y : BitVec 16) : ((x ++ y) >>> 16).setWidth 16 = x := by
  ext j hj
  simp only [BitVec.getElem_setWidth, BitVec.getLsbD_ushiftRight, BitVec.getLsbD_append]
  rw [if_neg (by omega), show 16 + j - 16 = j by omega, BitVec.getLsbD_eq_getElem hj]

/-- A vector register reads the sixteen lanes written. -/
theorem vr_setV (s t : State) (e v : Nat) (l : List (BitVec 16)) (hl : l.length = 16)
    (ht : ∀ w < 8, t.rd (ENG_V.addr e v w) = (s.setV e v l).rd (ENG_V.addr e v w)) : t.vr e v = l := by
  apply List.ext_getElem
  · simp [State.vr, hl]
  · intro i h1 h2
    have hi : i < 16 := by omega
    simp only [State.vr, List.getElem_map, List.getElem_range]
    rw [ht _ (by omega), setV_rd _ _ _ _ _ (by omega)]
    have h0 : 2 * (i / 2) < l.length := by omega
    have h1' : 2 * (i / 2) + 1 < l.length := by omega
    rcases Nat.mod_two_eq_zero_or_one i with h | h
    · have hd : 2 * (i / 2) = i := by omega
      rw [h, Nat.mul_zero, low_append, List.getD_eq_getElem _ _ h0]
      simp only [hd]
    · have hd : 2 * (i / 2) + 1 = i := by omega
      rw [h, Nat.mul_one, high_append, List.getD_eq_getElem _ _ h1']
      simp only [hd]

theorem bitN_testBit (n i : Nat) : bitN n i = n.testBit i := by
  simp [bitN, Nat.testBit, Nat.shiftRight_eq_div_pow, Nat.one_and_eq_mod_two]

theorem testBit_split (n i j : Nat) : (2 ^ i * (n / 2 ^ i) + n % 2 ^ i).testBit j = n.testBit j := by rw [Nat.div_add_mod]

/-- Bit `j` of a number with bit `i` replaced. -/
theorem testBit_putBit (n i j : Nat) (b : Bool) : (putBit n i b).testBit j = if j = i then b else n.testBit j := by
  have hlt : n % 2 ^ i < 2 ^ i := Nat.mod_lt _ (Nat.two_pow_pos i)
  have hdm : 2 ^ i * (n / 2 ^ i) + n % 2 ^ i = n := Nat.div_add_mod n (2 ^ i)
  have key : ∀ q : Nat, q / 2 = n / 2 ^ i / 2 → q % 2 = b2n b →
      (2 ^ i * q + n % 2 ^ i).testBit j = if j = i then b else n.testBit j := by
    intro q hq hb
    rw [Nat.testBit_two_pow_mul_add _ hlt]
    by_cases h1 : j < i
    · rw [if_pos h1, if_neg (by omega), Nat.testBit_mod_two_pow]; simp [h1]
    · rw [if_neg h1]
      by_cases h2 : j = i
      · rw [if_pos h2, h2, Nat.sub_self, Nat.testBit_zero, hb]; cases b <;> rfl
      · rw [if_neg h2, show j - i = (j - i - 1) + 1 by omega, Nat.testBit_succ, hq, ← Nat.testBit_succ,
          show (j - i - 1).succ = j - i by omega]
        conv_rhs => rw [show j = i + (j - i) by omega]
        rw [← Nat.shiftRight_eq_div_pow, Nat.testBit_shiftRight]
  have hbit : bitN n i = (n / 2 ^ i % 2 == 1) := rfl
  unfold putBit
  have up : ∀ q : Nat, q % 2 = 0 → (q + 1) / 2 = q / 2 ∧ (q + 1) % 2 = b2n true := fun q h => by simp only [b2n, if_true]; omega
  have dn : ∀ q : Nat, q % 2 = 1 → (q - 1) / 2 = q / 2 ∧ (q - 1) % 2 = b2n false := fun q h => by
    simp only [b2n, Bool.false_eq_true, if_false]; omega
  have hm := Nat.mod_two_eq_zero_or_one (n / 2 ^ i)
  have mul1 : 2 ^ i * (n / 2 ^ i + 1) = 2 ^ i * (n / 2 ^ i) + 2 ^ i := Nat.mul_succ _ _
  rcases hm with hm | hm
  · have : bitN n i = false := by rw [hbit, hm]; rfl
    rw [this]
    cases b
    · have := key (n / 2 ^ i) rfl (by rw [hm]; rfl)
      rw [hdm] at this; simpa using this
    · have := key (n / 2 ^ i + 1) (up _ hm).1 (up _ hm).2
      rw [mul1, Nat.add_right_comm, hdm] at this
      simpa using this
  · have : bitN n i = true := by rw [hbit, hm]; rfl
    rw [this]
    cases b
    · have h0 : 1 ≤ n / 2 ^ i := Nat.pos_of_ne_zero fun h => by rw [h] at hm; cases hm
      have mul2 : 2 ^ i * (n / 2 ^ i - 1) + 2 ^ i = 2 ^ i * (n / 2 ^ i) := by
        rw [← Nat.mul_succ, Nat.succ_eq_add_one, Nat.sub_add_cancel h0]
      have := key (n / 2 ^ i - 1) (dn _ hm).1 (dn _ hm).2
      rw [Nat.eq_sub_of_add_eq (show 2 ^ i * (n / 2 ^ i - 1) + n % 2 ^ i + 2 ^ i = n by rw [Nat.add_right_comm, mul2, hdm])] at this
      simpa using this
    · have := key (n / 2 ^ i) rfl (by rw [hm]; rfl)
      rw [hdm] at this; simpa using this

/-- An instruction that writes one flag. -/
theorem issue_F {s : State} {e : Nat} {w : Word} {op : State → UOut} {f : Nat} {b : Bool} (h : Runs s e) (hf : f < 4)
    (hop : op s = .next (s.setFlag e f b)) : FlagResult s e f b (.next (s.issue e w op)) := by
  have hF : OnlyRegs [ENG_FLAGS.addr e] s (s.setFlag e f b) := OnlyRegs_set _ _ _ _ _ _
  refine ⟨_, rfl, ?_⟩
  rw [issue_next h hop hF]
  · have hfl : ∀ n, ((s.setFlag e f b).set ENG_PC (s.get ENG_PC e + 4) e).flag e n =
        if n = f then b else s.flag e n := by
      intro n
      unfold State.flag
      rw [State.get_set_addr _ _ _ _ _ _ _ _ _ _ (by simp [Fld.addr]; omega), State.setFlag, State.get_set_same _ _ _ _ _ _ (by decide),
        bitN_testBit, Nat.testBit_mod_two_pow, testBit_putBit, bitN_testBit]
      have hlt : s.get ENG_FLAGS e < 2 ^ 32 := State.get_lt ..
      by_cases hn : n < 32
      · simp [hn]
      · rw [if_neg (by omega), Nat.testBit_lt_two_pow (Nat.lt_of_lt_of_le hlt (Nat.pow_le_pow_right (by decide) (by omega)))]
        simp
    refine ⟨?_, ?_, ?_, OnlyRegs_trans hF (OnlyRegs_set _ _ _ _ _ _)⟩
    · rw [hfl, if_pos rfl]
    · intro n hn; rw [hfl, if_neg hn]
    · rw [get_PC_set, Nat.mod_eq_of_lt]; have := h.2.2.2.2; omega
  · intro a ha
    simp only [List.mem_singleton] at ha; subst ha; simp [Fld.addr]; omega

/-- An instruction that writes one V register. -/
theorem issue_V {s : State} {e : Nat} {w : Word} {op : State → UOut} {vd : Nat} {l : List (BitVec 16)} (h : Runs s e) (hv : vd < 32)
    (he : e < 28) (hl : l.length = 16) (hop : op s = .next (s.setV e vd l)) : VResult s e vd l (.next (s.issue e w op)) := by
  have hV := setV_only s e vd l
  refine ⟨_, rfl, ?_⟩
  rw [issue_next h hop hV]
  · refine ⟨?_, ?_, OnlyRegs_trans hV (OnlyRegs_set _ _ _ _ _ _)⟩
    · refine vr_setV s _ e vd l hl fun w hw => ?_
      rw [State.rd_set_other]
      simp [Fld.addr]; omega
    · rw [get_PC_set, Nat.mod_eq_of_lt]; have := h.2.2.2.2; omega
  · intro a ha
    obtain ⟨w, hw, rfl⟩ := List.mem_map.1 ha
    simp [Fld.addr]; omega

/-- The sign-extended immediate. -/
theorem simm_eq (imm : BitVec 16) : simm imm.toNat = imm.signExtend 32 := by
  unfold simm sx
  rw [BitVec.signExtend, BitVec.toInt_eq_toNat_cond]
  congr 1
  simp only [Nat.mod_eq_of_lt imm.isLt]

/-- The zero-extended immediate. -/
theorem zimm_eq (imm : BitVec 16) : zimm imm.toNat = imm.setWidth 32 := by
  unfold zimm; apply BitVec.eq_of_toNat_eq
  have := imm.isLt
  simp only [BitVec.toNat_ofNat, BitVec.toNat_setWidth]; omega

end Sys2Proof.Machine
end

