-- ==== Sys2Proof/Laws/Memory.lean ====
section
/-! SUPPORT. The memories: a read after a write to the same place gives the value written, a write leaves every other place alone, and every
memory operation keeps the canonical form (of the central store, the engines' data and code memories and the SPI NOR). -/

namespace Sys2Proof.Machine

open Sys2Proof.Safety

/-! ### Loops -/

theorem State.each_append {α : Type} (s : State) (l m : List α) (f : α → State → State) : s.each (l ++ m) f = (s.each l f).each m f := by
  induction l generalizing s with
  | nil => rfl
  | cons x r ih => simp only [List.cons_append, State.each_cons, ih]

theorem State.each_range_succ (s : State) (n : Nat) (f : Nat → State → State) :
    s.each (List.range (n + 1)) f = f n (s.each (List.range n) f) := by
  rw [List.range_succ, State.each_append]; rfl

/-! ### Data memory of the engines (R84, R85) -/

theorem dmem_setDmem (s : State) (e a e' a' : Nat) (v : Byte) :
    (s.setDmem e a v).dmem e' a' = if 262144 * e' + a' = 262144 * e + a then v else s.dmem e' a' := by
  simp only [State.dmem, State.setDmem, smGet_put]

/-- Every byte of every data memory after a store of `n` bytes. -/
theorem dmem_dst (s : State) (e a n v e' a' : Nat) :
    (s.dst e a n v).dmem e' a' =
      if 262144 * e + a ≤ 262144 * e' + a' ∧ 262144 * e' + a' < 262144 * e + a + n then
        BitVec.ofNat 8 (v / 256 ^ (262144 * e' + a' - (262144 * e + a)))
      else s.dmem e' a' := by
  unfold State.dst
  induction n with
  | zero => rw [if_neg (by omega)]; rfl
  | succ n ih =>
    rw [State.each_range_succ, dmem_setDmem, ih]
    by_cases h : 262144 * e' + a' = 262144 * e + (a + n)
    · rw [if_pos h, if_pos (by omega), show 262144 * e' + a' - (262144 * e + a) = n by omega]
    · rw [if_neg h]
      by_cases h2 : 262144 * e + a ≤ 262144 * e' + a' ∧ 262144 * e' + a' < 262144 * e + a + n
      · rw [if_pos h2, if_pos (by omega)]
      · rw [if_neg h2, if_neg (by omega)]

/-- A store changes the data memories and nothing else. -/
theorem dst_only (s : State) (e a n v : Nat) : s.dst e a n v = { s with engData := (s.dst e a n v).engData } := by
  unfold State.dst
  exact State.each_inv (fun t => t = { s with engData := t.engData }) _ _ (fun i t _ ht => by rw [State.setDmem, ht]) s rfl

theorem leNum_bytes (v n : Nat) : leNum ((List.range n).map fun i => v / 256 ^ i % 256) = v % 256 ^ n := by
  induction n generalizing v with
  | zero => simp [leNum, Nat.mod_one]
  | succ n ih =>
    have := ih (v / 256)
    simp only [leNum, Nat.div_div_eq_div_mul, ← Nat.pow_succ'] at this
    rw [List.range_succ_eq_map, List.map_cons, List.map_map]
    simp only [leNum, List.foldr_cons, Nat.pow_zero, Nat.div_one, Nat.mod_mod]
    have hf : ((fun i => v / 256 ^ i % 256) ∘ Nat.succ) = fun i => v / 256 ^ (i + 1) % 256 := rfl
    rw [hf, this, Nat.pow_succ', Nat.mod_mul]

/-- A load reads what a store to the same place wrote. -/
theorem dld_dst_same (s t : State) (e a n v : Nat) (h : a + n ≤ 262144) (ht : t.engData = (s.dst e a n v).engData) :
    t.dld e a n = v % 256 ^ n := by
  rw [← leNum_bytes v n, State.dld]
  congr 1
  refine List.map_congr_left fun i hi => ?_
  have hi := List.mem_range.1 hi
  have : t.dmem e (a + i) = (s.dst e a n v).dmem e (a + i) := by simp only [State.dmem, ht]
  rw [this, dmem_dst, if_pos (by omega), show 262144 * e + (a + i) - (262144 * e + a) = i by omega, BitVec.toNat_ofNat]

theorem setDmem_wf (s : State) (e a : Nat) (v : Byte) (h : smWf (fun _ => (0 : Byte)) s.engData = true) :
    smWf (fun _ => (0 : Byte)) (s.setDmem e a v).engData = true := smWf_put _ h

theorem dst_wf (s : State) (e a n v : Nat) (h : smWf (fun _ => (0 : Byte)) s.engData = true) :
    smWf (fun _ => (0 : Byte)) (s.dst e a n v).engData = true :=
  State.each_inv (fun t => smWf (fun _ => (0 : Byte)) t.engData = true) _ _ (fun _ _ _ ht => setDmem_wf _ _ _ _ ht) s h

theorem setCode_wf (s : State) (e a : Nat) (v : Word) (h : smWf (fun _ => (0 : Word)) s.engCode = true) :
    smWf (fun _ => (0 : Word)) (s.setCode e a v).engCode = true := smWf_put _ h

/-! ### The central store (R151, R154, R160, R176, R496) -/

theorem stByte_wf (s : State) (a v : Nat) (h : smWf (fun _ => (0 : Byte)) s.store = true) :
    smWf (fun _ => (0 : Byte)) (s.stByte a v).store = true := by
  unfold State.stByte; split
  · exact h
  · exact smWf_put _ h

theorem stRun_wf (l : List Nat) : ∀ (s : State) (a : Nat), smWf (fun _ => (0 : Byte)) s.store = true →
    smWf (fun _ => (0 : Byte)) (s.stRun a l).store = true := by
  induction l with
  | nil => exact fun _ _ h => h
  | cons v r ih => exact fun s a h => ih _ _ (stByte_wf s a v h)

theorem sawBurst_store (s : State) (b : Nat) : (s.sawBurst b).store = s.store := by
  unfold State.sawBurst
  dsimp only
  repeat' split
  all_goals rfl

theorem saw_store (s : State) (a n : Nat) : (s.saw a n).store = s.store :=
  State.each_inv (fun t => t.store = s.store) _ _ (fun b t _ h => (sawBurst_store t b).trans h) s rfl

theorem unpoison_store (s : State) (b : Nat) : (s.unpoison b).store = s.store := by
  unfold State.unpoison
  repeat' split
  all_goals rfl

/-- Every write to the store keeps its canonical form. -/
theorem st_wf (s : State) (a : Nat) (l : List Nat) (h : smWf (fun _ => (0 : Byte)) s.store = true) :
    smWf (fun _ => (0 : Byte)) (s.st a l).store = true := by
  unfold State.st
  refine State.each_inv (fun t => smWf (fun _ => (0 : Byte)) t.store = true) _ _ (fun b t _ ht => by rw [unpoison_store]; exact ht) _ ?_
  refine stRun_wf _ _ _ ?_
  exact State.each_inv (fun t => smWf (fun _ => (0 : Byte)) t.store = true) _ _ (fun b t _ ht => by rw [sawBurst_store]; exact ht) _ h

/-- The memories and registers of the state after reset are in canonical form. -/
theorem reset_wf : StateWf State.reset := by
  unfold StateWf; decide

end Sys2Proof.Machine
end

