-- ==== Sys2Proof/Laws/Ops.lean ====
section
/-! SUPPORT. Everything the shared operations can do: an event changes the reporting registers and queues and nothing else (R45, R46, R433), a unit's
views change its own entry and the skew map (R35 to R39), latches change the latch words (R99, R100). -/

namespace Sys2Proof.Machine

open Sys2Proof.Safety

theorem evReg_queue {a : Nat} (h : 0x21800 ≤ a) (h' : a < 0x21A00) : evReg a = true := by simp [evReg, h, h']

theorem evReg_lost {a : Nat} (h : 0x10100 ≤ a) (h' : a < 0x10120) : evReg a = true := by simp [evReg, h, h']

theorem OnlyEv_refl (A : List Nat) (s : State) : OnlyEv A s s := ⟨fun _ _ _ => rfl, rfl⟩

theorem OnlyEv_trans {A B : List Nat} {s t u : State} (h : OnlyEv A s t) (h' : OnlyEv B t u) : OnlyEv (A ++ B) s u := by
  refine ⟨fun a ha hx => ?_, ?_⟩
  · rw [h'.1 a (fun x => ha (List.mem_append_right _ x)) hx, h.1 a (fun x => ha (List.mem_append_left _ x)) hx]
  · rw [h'.2, h.2]

theorem OnlyEv_mono {A B : List Nat} {s t : State} (h : OnlyEv A s t) (hs : ∀ a ∈ A, a ∈ B) : OnlyEv B s t :=
  ⟨fun a ha hx => h.1 a (fun x => ha (hs a x)) hx, h.2⟩

theorem OnlyEv_of_regs {A : List Nat} {s t : State} (h : OnlyRegs A s t) : OnlyEv A s t :=
  ⟨fun a ha _ => h.1 a ha, by rw [h.2]⟩

theorem OnlyEv_set (s : State) (f : Fld) (v i j k : Nat) : OnlyEv [f.addr i j k] s (s.set f v i j k) := OnlyEv_of_regs (OnlyRegs_set _ _ _ _ _ _)

/-- A set of a reporting register. -/
theorem OnlyEv_set_ev (s : State) (f : Fld) (v i j k : Nat) (h : evReg (f.addr i j k) = true) : OnlyEv [] s (s.set f v i j k) := by
  refine ⟨fun a _ hx => s.rd_set_other _ _ _ _ _ _ fun heq => ?_, rfl⟩
  rw [heq, h] at hx; cases hx

theorem OnlyEv_get {A : List Nat} {s t : State} (h : OnlyEv A s t) (f : Fld) (i j k : Nat) (ha : f.addr i j k ∉ A)
    (hx : evReg (f.addr i j k) = false) : t.get f i j k = s.get f i j k := by simp [State.get, h.1 _ ha hx]

theorem OnlyEv_ex {A : List Nat} {s t : State} (h : OnlyEv A s t) (e : Nat) : t.ex e = s.ex e := by rw [h.2]; rfl

theorem OnlyEv_setQu (s : State) (q : Nat) (x : Queue) : OnlyEv [] s (s.setQu q x) := ⟨fun _ _ _ => rfl, rfl⟩

theorem OnlyEv_cond {A : List Nat} {s t : State} {c : Bool} {f : State → State} (h : OnlyEv A s t) (hf : ∀ t, OnlyEv A t (f t)) :
    OnlyEv A s (t.cond c f) := by
  unfold State.cond; split
  · have := OnlyEv_trans h (hf t); exact OnlyEv_mono this (by simp)
  · exact h

theorem signal_only (s : State) (v : Nat) (hv : v < 64) : OnlyEv [] s (s.signal v) := by
  unfold State.signal; split
  · refine OnlyEv_set_ev _ _ _ _ _ _ ?_
    have : v / 32 = 0 ∨ v / 32 = 1 := by omega
    rcases this with h | h <;> simp [h, evReg, Fld.addr, Fld.sh]
  · exact ⟨fun _ _ _ => rfl, rfl⟩

theorem qSignal_only (s : State) (q : Nat) : OnlyEv [] s (s.qSignal q) :=
  OnlyEv_trans (A := []) (B := []) (OnlyEv_setQu _ _ _) (signal_only _ _ (State.get_lt ..))

/-- An entry written into an event queue. -/
theorem qWrite_only (s : State) (q : Nat) (e : Entry) (now : Bool) (hq : 32 ≤ q ∧ q < 40) : OnlyEv [] s (s.qWrite q e now) := by
  unfold State.qWrite
  refine OnlyEv_cond ?_ fun t => qSignal_only t q
  refine OnlyEv_trans (A := []) (B := []) (OnlyEv_setQu _ _ _) (OnlyEv_set_ev _ _ _ _ _ _ ?_)
  apply evReg_queue <;> simp only [Fld.addr] <;> omega

theorem evQueue_bound (s : State) (e : Ev) : 32 ≤ s.evQueue e ∧ s.evQueue e < 40 := by
  have : s.get (EVT_ROUTE_QUEUE0.sh (4 * e.cls)) (e.code / 1024) < 2 ^ 3 := State.get_lt ..
  unfold State.evQueue; omega

/-- Raising an event changes what reporting changes and nothing else (R45: it changes no mode). -/
theorem raise_only (s : State) (e : Ev) (unit : Nat) (args : List Int) : OnlyEv [] s (s.raise e unit args) := by
  have hb := evQueue_bound s e
  unfold State.raise State.evWrite
  dsimp only
  split
  · refine OnlyEv_trans (A := []) (B := []) (qWrite_only _ _ _ _ hb) (OnlyEv_set_ev _ _ _ _ _ _ ?_)
    decide
  · refine OnlyEv_cond (OnlyEv_set_ev _ _ _ _ _ _ ?_) fun t => ?_
    · apply evReg_lost <;> simp only [Fld.addr] <;> omega
    · refine OnlyEv_trans (A := []) (B := []) (OnlyEv_setQu _ _ _) (OnlyEv_set_ev _ _ _ _ _ _ ?_)
      apply evReg_queue <;> simp only [Fld.addr] <;> omega

/-- A rate-limited event likewise. -/
theorem raiseLim_only (s : State) (e : Ev) (unit key period : Nat) (args : List Int) : OnlyEv [] s (s.raiseLim e unit key period args) := by
  unfold State.raiseLim
  dsimp only
  split
  · have h := raise_only s e unit args
    unfold State.raise at h
    refine ⟨fun a ha hx => h.1 a ha hx, ?_⟩
    conv_lhs => rw [h.2]
  · exact OnlyEv_refl _ _

/-- The two views of a unit made: its entry and the skew map change, and what reporting changes (R35 to R39). -/
theorem setViews_only (s : State) (n run permit cause : Nat) :
    OnlyEv [GLB_UST.addr n, GLB_SKEW_MAP.addr (n / 32)] s (s.setViews n run permit cause) := by
  have uset : ∀ (t : State) (f : Fld) (v : Nat), f.addr n = GLB_UST.addr n → OnlyEv [GLB_UST.addr n, GLB_SKEW_MAP.addr (n / 32)] s t →
      OnlyEv [GLB_UST.addr n, GLB_SKEW_MAP.addr (n / 32)] s (t.set f v n) := fun t f v hf h =>
    OnlyEv_mono (OnlyEv_trans h (OnlyEv_set t f v n 0 0)) (by rw [hf]; simp)
  have umap : ∀ (t : State) (v : Nat), OnlyEv [GLB_UST.addr n, GLB_SKEW_MAP.addr (n / 32)] s t →
      OnlyEv [GLB_UST.addr n, GLB_SKEW_MAP.addr (n / 32)] s (t.set GLB_SKEW_MAP v (n / 32)) := fun t v h =>
    OnlyEv_mono (OnlyEv_trans h (OnlyEv_set t _ v _ 0 0)) (by simp)
  have uev : ∀ (t : State) (e : Ev), OnlyEv [GLB_UST.addr n, GLB_SKEW_MAP.addr (n / 32)] s t →
      OnlyEv [GLB_UST.addr n, GLB_SKEW_MAP.addr (n / 32)] s (t.raise e n) := fun t e h =>
    OnlyEv_mono (OnlyEv_trans h (raise_only t e n [])) (by simp)
  have ucond : ∀ (t : State) (c : Bool) (f : State → State), OnlyEv [GLB_UST.addr n, GLB_SKEW_MAP.addr (n / 32)] s t →
      (∀ t, OnlyEv [GLB_UST.addr n, GLB_SKEW_MAP.addr (n / 32)] s t → OnlyEv [GLB_UST.addr n, GLB_SKEW_MAP.addr (n / 32)] s (f t)) →
      OnlyEv [GLB_UST.addr n, GLB_SKEW_MAP.addr (n / 32)] s (t.cond c f) := fun t c f h hf => by
    unfold State.cond; split
    · exact hf t h
    · exact h
  unfold State.setViews
  extract_lets old new sk0 sk s1 s2 s3
  have h1 : OnlyEv [GLB_UST.addr n, GLB_SKEW_MAP.addr (n / 32)] s s1 :=
    uset _ _ _ rfl (uset _ _ _ rfl (uset _ _ _ rfl (OnlyEv_refl _ _)))
  have h2 : OnlyEv [GLB_UST.addr n, GLB_SKEW_MAP.addr (n / 32)] s s2 :=
    ucond _ _ _ h1 fun t ht => ucond _ _ _ (uset _ _ _ rfl ht) fun u hu => uset _ _ _ rfl hu
  have h3 : OnlyEv [GLB_UST.addr n, GLB_SKEW_MAP.addr (n / 32)] s s3 := umap _ _ (uset _ _ _ rfl h2)
  clear_value s3
  split
  · exact uev _ _ h3
  · split
    · exact uev _ _ h3
    · exact h3

/-- The running view set (R38, R40). -/
theorem setRun_only (s : State) (n run cause : Nat) : OnlyEv [GLB_UST.addr n, GLB_SKEW_MAP.addr (n / 32)] s (s.setRun n run cause) := by
  unfold State.setRun
  repeat' split
  all_goals first
    | exact OnlyEv_refl _ _
    | exact setViews_only _ _ _ _ _

/-- The permission view set (R38). -/
theorem setPermit_only (s : State) (n permit cause : Nat) : OnlyEv [GLB_UST.addr n, GLB_SKEW_MAP.addr (n / 32)] s (s.setPermit n permit cause) := by
  unfold State.setPermit
  repeat' split
  all_goals first
    | exact OnlyEv_refl _ _
    | exact setViews_only _ _ _ _ _

/-- A latch set in an engine changes its latch words, and what is remembered for F2, alone (R99, R100). -/
theorem latch_frame (s : State) (e n : Nat) :
    (∀ a, a ≠ ENG_EVLATCH0.addr e → a ≠ ENG_EVLATCH1.addr e → a ≠ ENG_EVLATCH2.addr e → (s.latch e n).rd a = s.rd a) ∧
      s.latch e n = { s with regs := (s.latch e n).regs, latchMore := (s.latch e n).latchMore } := by
  unfold State.latch
  extract_lets f w m
  split
  · exact ⟨fun _ _ _ _ => rfl, rfl⟩
  · refine ⟨fun a h0 h1 h2 => s.rd_set_other _ _ _ _ _ _ ?_, rfl⟩
    show a ≠ f.addr e
    simp only [f]
    split
    · exact h0
    · split
      · exact h1
      · exact h2

end Sys2Proof.Machine
end

