-- ==== Sys2Proof/Tests/Slice0.lean ====
section
/-! SUPPORT. Tests: an ill-formed term for each check of WellFormed, one step on small states with the values the spec states, and for the hypotheses
of every obligation a state that meets them. -/

namespace Sys2Proof.Tests

open Sys2Proof Sys2Proof.Machine Sys2Proof.Safety

set_option maxRecDepth 100000
set_option Elab.async false

/-! ### Small states and a check of one step -/

/-- The device after a start that reached IDLE, as far as tests need it: no start runs, the mode and every bar entry are `m`; unit A of a pair. -/
def up (m : Nat) : State :=
  let s : State := ({ State.reset with regs := [], mgt := { State.reset.mgt with start := none } } : State).set GLB_MODE_STAT_MODE m
  (s.put GLB_START_STAT_DONE true).each (List.range 16) fun b s => s.setBarMode b m

/-- Engine `e` in RUN at address 0 in READY, with G1 and G2. -/
def eng (e : Nat) (a b : Word) : State := (((up 2).set ENG_STAT_STATE 2 e).setG e 1 a).setG e 2 b

/-- The command answers a next state of which `p` holds. -/
def after (c : Instr) (s : State) (p : State → Bool) : Bool :=
  match exec c s with
  | .next t => p t
  | _ => false

/-- `OnlyRegs` as a check. -/
def only (A : List Nat) (s t : State) : Bool :=
  decide (t = { s with regs := t.regs }) && (s.regs ++ t.regs).all fun e => A.contains e.1 || t.rd e.1 == s.rd e.1

/-- `OnlyEv` as a check. -/
def onlyEv (A : List Nat) (s t : State) : Bool :=
  decide (t = { s with regs := t.regs, queues := t.queues, irqSent := t.irqSent, evLast := t.evLast }) &&
    (s.regs ++ t.regs).all fun e => A.contains e.1 || evReg e.1 || t.rd e.1 == s.rd e.1

/-! ### WellFormed refuses: an ill-formed term for each check -/

/-- An entry of zeros. -/
def sub0 : Sub := ⟨0, 0, true, 0, []⟩

/-- A STATUS frame of zeros with `t` temperatures, `r` rails and `n` nozzle faults. -/
def statusIn (t r n v : Nat) : StatusIn :=
  ⟨true, none, v, 0, false, 0, 0, 0, 0, 0, 0, 0, List.replicate t 0, List.replicate r 0, List.replicate n (0, 0)⟩

/-- A copy image with `a` applied repeats, `q` sequencers, one NZT change and one run. -/
def copyImg (a q j r : Nat) : CopyImg :=
  ⟨0, 0, 2, false, 0, none, [], [], 0, 0, [], [], List.replicate a 0, [], [], [(j, 0, 0)], [], [(r, 0, 0)], List.replicate q 0⟩

/-- A round of `t` remote inputs, `m` supplies and `d` on-die sensors at 25 °C. -/
def hkIn (t m d : Nat) : HkIn := ⟨List.replicate t ⟨200, 5000⟩, List.replicate m 0, List.replicate d 200⟩

/-- A start in which nothing fails, with `t` trained sub-channels and `n` sentinels. -/
def startIn (t n : Nat) : StartIn := ⟨true, true, hkIn 32 24 16, List.replicate t ⟨40, 40, 40, []⟩, List.replicate n true, 0, 1900⟩

theorem test_wf_register_address :
    Instr.wf (.regPairReadLatch 2) = false ∧ Instr.wf (.rwsWrite 0x4000000 0) = false ∧ Instr.wf (.rwsWrite 0x3FFFFFC 0) = true := by decide +kernel

theorem test_wf_store_requests :
    Instr.wf (.storeReadRequest 0 (768 * 2 ^ 30) 0 [] none) = false ∧ Instr.wf (.storeReadRequest 0 0 0 [1, 1] none) = false ∧
    Instr.wf (.storeWriteRequest 0 63 [0, 0] 0 [] none) = false ∧ Instr.wf (.storeWriteRequest 0 (768 * 2 ^ 30) [0] 0 [] none) = false ∧
    Instr.wf (.storeWriteRequest 0 0 [0] 0 [2, 2] none) = false ∧ Instr.wf (.scrubStep 0 [3, 3]) = false ∧
    Instr.wf (.storeWriteRequest 0 63 [0] 0 [2] none) = true := by decide +kernel

theorem test_wf_screen_line : Instr.wf (.screenLine 0 [1572864] []) = false ∧ Instr.wf (.screenLine 0 [] [1572864]) = false := by decide +kernel

theorem test_wf_status_frame :
    Instr.wf (.statusRx 0 (statusIn 7 4 0 0)) = false ∧ Instr.wf (.statusRx 0 (statusIn 8 3 0 0)) = false ∧ Instr.wf (.statusRx 0 (statusIn 8 4 17 0)) = false ∧
    Instr.wf (.statusRx 0 (statusIn 8 4 0 256)) = false ∧ Instr.wf (.statusRx 0 (statusIn 8 4 16 255)) = true := by decide +kernel

theorem test_wf_camera_lines (l : List (BitVec 16)) (h : 196608 < l.length) :
    Instr.wf (.cameraLineRx 0 l 0) = false ∧ Instr.wf (.csiPacketRx 0 0 0 0 true true l 0) = false :=
  ⟨decide_eq_false (Nat.not_le.mpr h), decide_eq_false (Nat.not_le.mpr h)⟩

theorem test_wf_calibration :
    Instr.wf (.calComplete [[0]] true [] [] 0 0) = false ∧ Instr.wf (.calComplete [] true (List.replicate 9 0) [] 0 0) = false ∧
    Instr.wf (.calComplete [] true [] (List.replicate 3073 0) 0 0) = false ∧ Instr.wf (.calComplete [[0, 0, 0]] true [0] [0] 0 0) = true := by decide +kernel

theorem test_wf_lamp_video_and_display :
    Instr.wf (.headroomSample [0] 0 0) = false ∧ Instr.wf (.encSubmit [] [] 0) = false ∧ Instr.wf (.decSubmit [] [1, 1]) = false ∧
    Instr.wf (.dpAuxDone 0 (List.replicate 17 0)) = false := by decide +kernel

theorem test_wf_network_and_twin :
    Instr.wf (.netFrameRx 0 [] true true 0 [0, 0]) = false ∧ Instr.wf (.hbRx 0 0 true [0]) = false ∧ Instr.wf (.copyImageRx (some (copyImg 15 16 0 0)) 0) = false ∧
    Instr.wf (.copyImageRx (some (copyImg 16 15 0 0)) 0) = false ∧ Instr.wf (.copyImageRx (some (copyImg 16 16 1572864 0)) 0) = false ∧
    Instr.wf (.modeReqShadow 0 true (copyImg 16 16 0 1572864) []) = false ∧ Instr.wf (.copyImageRx (some (copyImg 16 16 0 0)) 0) = true ∧
    Instr.wf (.joinImageRx ⟨[(1572864, 0)], [], []⟩) = false ∧ Instr.wf (.twinMsgRx 0 (List.replicate 4097 0)) = false := by decide +kernel

theorem test_wf_host_entries :
    Instr.wf (.bar2Access 0xFFFFFFFFF 2 none) = false ∧ Instr.wf (.bar2Access 0 2 (some [0])) = false ∧ Instr.wf (.descriptorFetch 0 (some { sub0 with op := 256 })) = false ∧
    Instr.wf (.descriptorFetch 0 (some { sub0 with flags := 256 })) = false ∧ Instr.wf (.descriptorFetch 0 (some { sub0 with tag := 2 ^ 64 })) = false ∧
    Instr.wf (.descriptorFetch 0 (some { sub0 with body := List.replicate 13 0 })) = false ∧ Instr.wf (.descriptorFetch 0 (some sub0)) = true := by decide +kernel

theorem test_wf_rounds_and_starts :
    Instr.wf (.housekeepingRound (hkIn 31 24 16)) = false ∧ Instr.wf (.housekeepingRound (hkIn 32 23 16)) = false ∧ Instr.wf (.housekeepingRound (hkIn 32 24 15)) = false ∧
    Instr.wf (.coldStart (startIn 23 24)) = false ∧ Instr.wf (.warmStart (startIn 24 23)) = false ∧ Instr.wf (.coldStart (startIn 24 24)) = true := by decide +kernel

/-! ### Engines (R83 to R113): witnesses and boundary values -/

/-- The hypothesis of the statements about instructions. -/
theorem wit_engine_runs : Runs (eng 0 1 2) 0 ∧ Runs (eng 27 1 2) 27 ∧ (16 : Nat) ≤ (27 : Eng).val := by unfold Runs; decide +kernel

/-- IntegerRegisterResults: wrap, sign, a source that is the destination, G0. -/
theorem test_integer_results :
    after (.add 0 1 1 2) (eng 0 0xFFFFFFFF 2) (fun t => t.g 0 1 == 1 && t.get ENG_PC 0 == 4 && only [ENG_G.addr 0 1, ENG_PC.addr 0] (eng 0 0xFFFFFFFF 2) t) ∧
    after (.sub 0 3 1 2) (eng 0 1 2) (fun t => t.g 0 3 == 0xFFFFFFFF) ∧ after (.add 0 0 1 2) (eng 0 1 2) (fun t => t.g 0 0 == 0) ∧
    after (.sra 0 3 1 2) (eng 0 0x80000000 33) (fun t => t.g 0 3 == 0xC0000000) ∧ after (.srl 0 3 1 2) (eng 0 0x80000000 33) (fun t => t.g 0 3 == 0x40000000) ∧
    after (.mulhs 0 3 1 2) (eng 0 0xFFFFFFFF 2) (fun t => t.g 0 3 == 0xFFFFFFFF) ∧ after (.mulhu 0 3 1 2) (eng 0 0xFFFFFFFF 2) (fun t => t.g 0 3 == 1) ∧
    after (.min 0 3 1 2) (eng 0 0xFFFFFFFF 2) (fun t => t.g 0 3 == 0xFFFFFFFF) ∧ after (.maxu 0 3 1 2) (eng 0 0xFFFFFFFF 2) (fun t => t.g 0 3 == 0xFFFFFFFF) ∧
    after (.clz 0 3 0) (eng 0 1 2) (fun t => t.g 0 3 == 32) ∧ after (.clz 0 3 1) (eng 0 1 2) (fun t => t.g 0 3 == 31) ∧
    after (.popc 0 3 1) (eng 0 0xF0F 2) (fun t => t.g 0 3 == 8) := by decide +kernel

/-- IntegerImmediateResults: ADDI extends the sign, the logic immediates do not. -/
theorem test_immediates :
    after (.addi 0 3 1 0xFFFF) (eng 0 5 2) (fun t => t.g 0 3 == 4) ∧ after (.ori 0 3 1 0x8000) (eng 0 5 2) (fun t => t.g 0 3 == 0x8005) ∧
    after (.lui 0 3 0x8000) (eng 0 5 2) (fun t => t.g 0 3 == 0x80000000) := by decide +kernel

/-- ComparesWriteOneFlag: signed and unsigned differ; the two unassigned conditions trap. -/
theorem test_compares :
    after (.cmp 0 2 1 1 2) (eng 0 0xFFFFFFFF 2) (fun t => t.flag 0 1 && !(t.flag 0 0)) ∧ after (.cmp 0 4 1 1 2) (eng 0 0xFFFFFFFF 2) (fun t => !(t.flag 0 1)) ∧
    after (.cmp 0 6 1 1 2) (eng 0 1 2) (fun t => t.get ENG_TRAP_CAUSE 0 == 1 && t.engState 0 == 4) ∧ (6 : Nat) ≤ (6 : Fin 8).val ∧ (5 : Fin 8).val < 6 := by
  decide +kernel

/-- LoadsAndStoresOfDataMemory: the last aligned bytes of each engine's memory, and the first address beyond. -/
theorem wit_data_accesses :
    DataOk 0 32764 4 ∧ DataOk 0 32766 2 ∧ DataOk 0 32767 1 ∧ DataOk 0 32760 8 ∧ DataOk 16 262112 32 ∧ DataOk 16 262128 16 ∧ dataSize 0 ≤ 32768 ∧
    ((eng 0 32764 0).g 0 1 + (0 : BitVec 16).signExtend 32).toNat = 32764 ∧ ((eng 0 32768 0).g 0 1 + (0xFFFF : BitVec 16).signExtend 32).toNat = 32767 ∧
    32767 % 2 ≠ 0 ∧ 32766 % 4 ≠ 0 ∧ 32764 % 8 ≠ 0 := by unfold DataOk; decide +kernel

theorem test_loads_and_stores :
    after (.st 0 2 1 0) (eng 0 32764 0xA1B2C3D4) (fun t => t.dmem 0 32764 == 0xD4 && t.dmem 0 32767 == 0xA1 && t.dmem 1 32764 == 0) ∧
    after (.ldb 0 3 1 0) ((eng 0 100 0).dst 0 100 2 0x80FF) (fun t => t.g 0 3 == 0xFF) ∧
    after (.ldh 0 3 1 0) ((eng 0 100 0).dst 0 100 2 0x80FF) (fun t => t.g 0 3 == 0x80FF) ∧
    after (.pst 0 0 1 0) (eng 0 100 0) (fun t => t.get ENG_TRAP_CAUSE 0 == 4) ∧ after (.ld 0 3 1 0) (eng 0 32768 0) (fun t => t.get ENG_TRAP_CAUSE 0 == 3) := by
  decide +kernel

/-- ControlTransfers: targets at both ends of code memory and beyond them, each condition. -/
theorem wit_branches :
    Runs ((eng 0 1 2).set ENG_PC 0xFFF8 0) 0 ∧ (0 : Int) ≤ (0xFFF8 : Int) + 4 * (1 : BitVec 21).toInt ∧ (0xFFF8 : Int) + 4 * (1 : BitVec 21).toInt < 0x10000 ∧
    (0x10000 : Int) ≤ (0xFFF8 : Int) + 4 * (2 : BitVec 21).toInt ∧ (4 : Int) * (0x1FFFFF : BitVec 21).toInt < 0 ∧ ((eng 0 0xFFFC 0).g 0 1).toNat < 0x10000 ∧
    ((eng 0 0xFFFC 0).g 0 1).toNat % 4 = 0 ∧ 0x10000 ≤ ((eng 0 0x10000 0).g 0 1).toNat ∧ ((eng 0 0xFFFE 0).g 0 1).toNat % 4 ≠ 0 ∧
    (eng 0 1 0).g 0 1 - 1 = 0 ∧ (eng 0 0 0).g 0 1 - 1 ≠ 0 := by unfold Runs; decide +kernel

theorem test_branches :
    after (.br 0 0 0 1) ((eng 0 1 2).set ENG_PC 0xFFF8 0) (fun t => t.get ENG_PC 0 == 0xFFFC) ∧
    after (.br 0 0 0 2) ((eng 0 1 2).set ENG_PC 0xFFF8 0) (fun t => t.get ENG_TRAP_CAUSE 0 == 5) ∧
    after (.br 0 1 2 8) (eng 0 1 2) (fun t => t.get ENG_PC 0 == 4) ∧ after (.br 0 2 2 8) (eng 0 1 2) (fun t => t.get ENG_PC 0 == 32) ∧
    after (.call 0 4) (eng 0 1 2) (fun t => t.g 0 31 == 4 && t.get ENG_PC 0 == 16) ∧ after (.dbnz 0 1 0xFFFF) (eng 0 2 0) (fun t => t.get ENG_TRAP_CAUSE 0 == 5) ∧
    after (.dbnz 0 1 2) (eng 0 2 0) (fun t => t.g 0 1 == 1 && t.get ENG_PC 0 == 8) ∧ after (.jr 0 1) (eng 0 0xFFFE 0) (fun t => t.get ENG_TRAP_CAUSE 0 == 6) ∧
    after (.halt 0) (eng 0 1 2) (fun t => t.engState 0 == 1) := by decide +kernel

/-- PositionArithmeticResults: a signed product is accumulated, PGETH takes the high word. -/
theorem test_positions :
    after (.pmac 0 1 1 2) (eng 0 0xFFFFFFFF 3) (fun t => t.pr 0 1 == 0xFFFFFFFFFFFFFFFD) ∧ after (.psetg 0 1 1) (eng 0 0x80000000 0) (fun t => t.pr 0 1 == 0xFFFFFFFF80000000) ∧
    after (.psetgu 0 1 1) (eng 0 0x80000000 0) (fun t => t.pr 0 1 == 0x80000000) ∧
    after (.pgeth 0 3 1) ((eng 0 0 0).setP 0 1 0x123456789ABCDEF0) (fun t => t.g 0 3 == 0x12345678) ∧
    after (.pseth 0 1 1) ((eng 0 7 0).setP 0 1 5) (fun t => t.pr 0 1 == 0x700000005) := by decide +kernel

/-- ReadsOfPressState: the last word of BAR0 and the first beyond; PRD units at the ends of their ranges. -/
theorem wit_press_reads :
    ((eng 0 0x3FFFFFC 0).g 0 1 + (0 : BitVec 16).signExtend 32).toNat < 0x4000000 ∧ ¬ ((eng 0 0x4000000 0).g 0 1 + (0 : BitVec 16).signExtend 32).toNat < 0x4000000 ∧
    ((eng 0 0 0).tk 3).edges = [] ∧ (((eng 0 0 0).setTk 3 { Trk.empty with edges := [(1, -5)] }).tk 3).edges = (1, -5) :: [] := by decide +kernel

theorem test_prd :
    after (.prd 0 1 3 4) (eng 0 0 0) (fun t => t.pr 0 1 == 0x8000000000000000) ∧ after (.prd 0 1 3 0) ((eng 0 0 0).set64 GEK_TRK_POS_LO (-7) 3) (fun t => t.pr 0 1 == (-7 : BitVec 64)) ∧
    after (.prd 0 1 7 2) ((eng 0 0 0).set64 GEK_MK_LATCH_LO 9 7) (fun t => t.pr 0 1 == 9) ∧ after (.prd 0 1 8 2) (eng 0 0 0) (fun t => t.get ENG_TRAP_CAUSE 0 == 1) ∧
    after (.prd 0 1 31 1) ((eng 0 0 0).set64 GEK_LC_LINE_LO 12 15) (fun t => t.pr 0 1 == 12) ∧ after (.iord 0 3 1 0) (eng 0 0x4000000 0) (fun t => t.get ENG_TRAP_CAUSE 0 == 8) := by
  decide +kernel

/-- WaitsEndOrStopIssue: positions on both sides of the target, a latch set and clear, a wait of 0 µs and of 1 µs, waits met and timed out. -/
theorem wit_waits :
    ((eng 0 0 0).pr 0 1).toInt ≤ (eng 0 0 0).pos 2 ∧ ¬ (((eng 0 0 0).setP 0 1 5).pr 0 1).toInt ≤ ((eng 0 0 0).setP 0 1 5).pos 2 ∧
    ((eng 0 0 0).latch 0 23).latched? 0 23 = true ∧ (eng 0 0 0).latched? 0 23 = false ∧
    (((eng 0 0 0).setEx 0 { EngX.empty with wait := some ⟨1, 0, 0, 5, false, false, true, 0⟩ }).set ENG_WAIT_TMO 1 0).get ENG_WAIT_TMO 0 ≠ 0 ∧
    posMet (eng 0 0 0) ⟨1, 0, 0, 5, false, false, true, 0⟩ = false ∧ posMet (eng 0 0 0) ⟨1, 0, 0, 0, false, false, true, 0⟩ = true := by decide +kernel

theorem test_waits :
    after (.waitpos 0 1 2 false false false) ((eng 0 0 0).setP 0 1 5) (fun t => t.engState 0 == 3 && t.get ENG_STAT_WAIT_KIND 0 == 1) ∧
    after (.waitpos 0 1 2 false false true) ((eng 0 0 0).setP 0 1 5) (fun t => t.engState 0 == 2 && !(t.flag 0 3)) ∧
    after (.waitt 0 0 1) (eng 0 0 0) (fun t => t.engState 0 == 3) ∧ after (.waitt 0 0 0) (eng 0 0 0) (fun t => t.get ENG_PC 0 == 4) := by decide +kernel

/-- EmitsDriveOutputsAndTriggers: an output pin outside SHADOW, a pulse in progress, a trigger that starts printing, a time pulse of source 2. -/
theorem wit_emits :
    Runs ((eng 15 3 0).set SEQ_GIO_DIR 0x80000000) 15 ∧ ((eng 15 3 0).set SEQ_GIO_DIR 0x80000000).mode ≠ 5 ∧
    bitN (((eng 15 3 0).set SEQ_GIO_DIR 0x80000000).get SEQ_GIO_DIR) 31 = true ∧ (eng 15 3 0).g 15 1 ≠ 0 ∧
    smGet (fun _ => false) ({ eng 15 3 0 with gioPulse := [(31, true)] } : State).gioPulse 31 = true ∧ ((eng 15 3 0).set TPO_CFG_SRC 2 7).get TPO_CFG_SRC 7 = 2 := by
  unfold Runs; decide +kernel

theorem test_emit_trigger_starts_printing :
    after (.emitTrig 0 3) (((eng 0 0 0).put GLB_PRINT_TRIG_EN true).set GLB_PRINT_TRIG_TRIG 3) (fun t => t.startTrig && t.latched? 27 43) ∧
    after (.emitTrig 16 3) (((eng 16 0 0).put GLB_PRINT_TRIG_EN true).set GLB_PRINT_TRIG_TRIG 3) (fun t => !t.startTrig && t.latched? 0 43) := by decide +kernel

/-- A bar in PRINT bound to sequencer 0, which runs; an enabled port of it is up. -/
def barUp (e : Nat) (a : Word) : State :=
  (((((((up 3).set HPL_BAR_STAT_NPORTS 1 0).set ENG_STAT_STATE 2 e).setG e 1 a).put SEQ_BIND_VALID0 true 0).put HPL_PORT_CFG_EN true 5).set HPL_PORT_CFG_BAR 0 5).set HPL_PORT_STAT_LINK 4 5

/-- FireStrobesAndTickles, ReleaseMarksNeverFall, ControlBlocksAndSheafSubmission: bar B00 bound to SQ00 in PRINT, a line sent at its port, a line fired before, a block
of one and of 64 words in range. -/
theorem wit_bar_instructions :
    Runs (barUp 0 0) 0 ∧ (barUp 0 0).boundTo 0 = some 0 ∧ (barUp 0 0).barMode 0 = 3 ∧ (barUp 0 0).stopped 0 = false ∧ ((barUp 0 0).hb 0).trapAt = none ∧
    ((barUp 0 0).hb 0).fired ≠ some (-1) ∧ ((barUp 0 0).cp 0).endLine ≠ some 0 ∧ 5 ∈ (barUp 0 0).portsOf 0 ∧ (barUp 0 0).linkUp 5 = true ∧
    (barUp 0 0).stopped (portUnit 5) = false ∧ (((barUp 0 0).setHb 0 { HBar.empty with fired := some (-1) }).hb 0).fired = some ((barUp 0 0).line 0 - 1) ∧
    ((barUp 0 0).hp 5).ctl.length < 8 ∧ ((barUp 0 32760).dst 0 32760 4 1).dld 0 32760 4 = 1 ∧ 32760 + 8 + 8 * 0 ≤ dataSize 0 := by unfold Runs; decide +kernel

theorem test_fire :
    after (.fireStrobe 0 0) (barUp 0 0) (fun t => (t.hb 0).fired == some (-1) && (t.hb 0).strobes == 1) ∧
    after (.fireStrobe 0 0) ((barUp 0 0).setHb 0 { HBar.empty with fired := some (-1) }) (fun t => t.get ENG_CNT_FIRE_DUP 0 == 1) ∧
    after (.fireTickle 0 1 0) (barUp 0 9) (fun t => (t.hp 5).out == [tickleWord 9]) := by decide +kernel

theorem test_line_and_send :
    after (.lineReleaseRel 0 1 0) (barUp 0 20) (fun t => (t.hb 0).mark == 20) ∧ after (.lineLadder 0 1 0 0x103) (barUp 0 20) (fun t => (t.hb 0).subs == [(16, 20, 3, 1)]) ∧
    after (.lineBlank 0 1 0) (barUp 0 20) (fun t => (t.hb 0).subs == [(16, 20, 0, 0)]) ∧
    after (.sendConfig 0 1 5) (((barUp 0 64).dst 0 64 4 1).dst 0 72 8 0x1122334455667788) (fun t => (t.hp 5).ctl == [(2, [0x1122334455667788])]) ∧
    after (.sheaf 0 1 3) (eng 0 9 0) (fun t => (t.ex 0).wait == some ⟨6, 0, 3, 9, false, false, false, 0⟩) := by decide +kernel

/-- Pixel engine 16 with V1 of `a` and V2 of `b` in every lane. -/
def pix (a b : BitVec 16) : State := ((eng 16 0 0).setV 16 1 (List.replicate 16 a)).setV 16 2 (List.replicate 16 b)

/-- VectorLaneResults: saturation at both ends, the rounded products, lanes named by V. -/
theorem test_vector_lanes :
    after (.vadds 16 3 1 2) (pix 0x7FFF 1) (fun t => t.vr 16 3 == List.replicate 16 0x7FFF) ∧ after (.vsubs 16 3 1 2) (pix 0x8000 1) (fun t => t.vr 16 3 == List.replicate 16 0x8000) ∧
    after (.vsubus 16 3 1 2) (pix 1 2) (fun t => t.vr 16 3 == List.replicate 16 0) ∧ after (.vmulq 16 3 1 2) (pix 0x8000 0x8000) (fun t => t.vr 16 3 == List.replicate 16 0x7FFF) ∧
    after (.vmulhs 16 3 1 2) (pix 0xFFFF 1) (fun t => t.vr 16 3 == List.replicate 16 0xFFFF) ∧ after (.vavgu 16 3 1 2) (pix 0xFFFF 0xFFFE) (fun t => t.vr 16 3 == List.replicate 16 0xFFFF) ∧
    after (.vslide 16 3 1 2 15) (pix 1 2) (fun t => t.vr 16 3 == 1 :: List.replicate 15 2) := by decide +kernel

/-- VectorReductionsMovesAndMemory: sums, extremes, a lane named beyond 15 wraps, VSTB saturates to 0 to 255. -/
theorem test_vector_reductions :
    after (.vred 16 0 3 1) (pix 0xFFFF 0) (fun t => t.g 16 3 == 0xFFFFFFF0) ∧ after (.vred 16 1 3 1) (pix 0xFFFF 0) (fun t => t.g 16 3 == 0xFFFF0) ∧
    after (.vred 16 4 3 1) (pix 0x8000 0) (fun t => t.g 16 3 == 0xFFFF8000) ∧ after (.vext 16 3 1 31) (pix 0xFFFE 0) (fun t => t.g 16 3 == 0xFFFFFFFE) ∧
    after (.vcmp 16 2 3 1 2) (pix 0xFFFF 0) (fun t => t.g 16 3 == 0xFFFF) ∧ after (.vstb 16 1 0 0) (pix 0xFFFF 0) (fun t => t.dmem 16 0 == 0) ∧
    after (.vstb 16 1 0 0) (pix 0x0100 0) (fun t => t.dmem 16 15 == 0xFF) ∧ after (.vmac 16 1 1 2) (pix 3 5) (fun t => t.vr 16 1 == List.replicate 16 18) := by decide +kernel

/-- DmaQueuesAndCompletesInOrder: a transfer that ends at the last byte of data memory, one beyond it, one misaligned, a full queue. -/
theorem wit_dma :
    ((eng 16 262112 32).g 16 1).toNat + ((eng 16 262112 32).g 16 2).toNat ≤ 262144 ∧ 262112 % 32 = 0 ∧ 262144 < 262112 + 64 ∧ 16 % 32 ≠ 0 ∧
    ((eng 16 0 0).ex 16).dmas.length < 4 ∧ (((eng 16 0 0).setEx 16 { EngX.empty with dmas := [⟨0, 0, 32, true⟩] }).ex 16).dmas = ⟨0, 0, 32, true⟩ :: [] := by decide +kernel

theorem test_dma :
    after (.dmaRead 16 1 1 2) (eng 16 262112 32) (fun t => (t.ex 16).dmas == [⟨0, 262112, 32, false⟩]) ∧
    after (.dmaWrite 16 1 1 2) (eng 16 262112 64) (fun t => t.get ENG_TRAP_CAUSE 16 == 3) ∧ after (.dmaRead 16 1 1 2) (eng 16 0 16) (fun t => t.get ENG_TRAP_CAUSE 16 == 4) ∧
    after (.dmawait 16 0) ((eng 16 0 0).setEx 16 { EngX.empty with dmas := [⟨0, 0, 32, true⟩] }) (fun t => t.engState 16 == 3) ∧
    after (.dmawait 16 1) ((eng 16 0 0).setEx 16 { EngX.empty with dmas := [⟨0, 0, 32, true⟩] }) (fun t => t.get ENG_PC 16 == 4) := by decide +kernel

/-! ### Modes and units (R27 to R46) -/

/-- A job descriptor of web mode with bar B00 on plane 0, point 0 and SQ00, a first lead of 256 lines and repeats of 1000 pu. -/
def job : List Nat :=
  let b := bytesOf 4 0x31424F4A ++ bytesOf 2 1 ++ bytesOf 2 1 ++ bytesOf 4 80 ++ [0, 0, 0, 0] ++ bytesOf 4 256 ++ bytesOf 4 0 ++ bytesOf 8 1000 ++ bytesOf 8 0 ++
    bytesOf 4 0 ++ bytesOf 4 0 ++ List.replicate 12 0
  let t := bytesOf 2 1 ++ bytesOf 2 0 ++ bytesOf 4 8 ++ List.replicate 8 0
  b ++ bytesOf 4 (crc32 (b ++ [0, 0, 0, 0] ++ t)) ++ t

/-- The job loaded in slot 0 as start job; the line clock of B00 enabled when `lc`. -/
def withJob (lc : Bool) (s : State) : State :=
  (((((s.put MEM_STAT_READY true).set64 MEM_CAP_LO 0x10000).st 0 job).put HIF_JOB_STAT_VALID true 0).put HIF_JOB_STAT_START true 0).put GEK_LC_CTL_EN lc 0

/-- Bar B00 and the store's 24 sub-channels permitted. -/
def permitted (s : State) : State := s.each (0 :: (List.range 24).map (· + 0xA0)) fun n s => s.set GLB_UST_PERMIT 1 n

/-- A transition in progress. -/
def pendingTr (s : State) : State := { s with tr := some ⟨3, 0, none, false, none, []⟩ }

/-- ModeRequestsTurnedAway: a transition pending, each mode whose row is missing, each condition that fails. -/
theorem wit_mode_refusals :
    (pendingTr (up 2)).tr.isSome = true ∧ (up 2).startTrig = false ∧ (up 2).tr = none ∧ (up 3).mode ∉ [2, 5, 6, 7] ∧ (up 7).mode ∉ [1, 3, 4] ∧ (up 1).mode ∉ [2, 4] ∧
    (up 4).mode ≠ 3 ∧ (up 7).mode = 7 ∧ (up 7).safeLeave = false ∧ (up 1).readyOk = false ∧ ((up 4).put GLB_HOLD_CAUSE_PENDING true).on GLB_HOLD_CAUSE_PENDING = true ∧
    (withJob false (up 1)).startJob.isSome = true := by decide +kernel

theorem test_mode_refusals :
    after (.modeReqIdle 9) (up 3) (fun t => t.mode == 3 && t.get GLB_MODE_STAT_TAG == 9 && t.get GLB_MODE_STAT_RESULT == 2 && only [GLB_MODE_STAT.addr] (up 3) t) ∧
    after (.modeReqHold 9) (pendingTr (up 3)) (fun t => t.get GLB_MODE_STAT_RESULT == 3 && t.tr.isSome) ∧
    after (.modeReqIdle 9) (up 7) (fun t => t.get GLB_MODE_STAT_RESULT == 5 && t.mode == 7 && onlyEv [GLB_MODE_STAT.addr] (up 7) t) ∧
    after (.modeReqService 9) (withJob false (up 1)) (fun t => t.get GLB_MODE_STAT_RESULT == 5) ∧ after (.modeReqSafe 9) (up 3) (fun t => t.get GLB_MODE_STAT_RESULT == 2) := by
  decide +kernel

/-- ModeRequestsTakenAtOnce: the modes that IDLE is reached from, SAFE with its condition, a pair in step for SHADOW, no start for BOOT. -/
theorem wit_mode_at_once :
    Free (up 5) ∧ (up 5).mode ∈ [2, 5, 6] ∧ ((up 7).put MEM_STAT_READY true).safeLeave = true ∧ (up 1).startJob = none ∧
    ((((withJob false (up 1)).set TWN_STAT_LINK 3).set TWN_STAT_PMODE 2).get TWN_STAT_LINK = 3 ∧
      (((withJob false (up 1)).set TWN_STAT_LINK 3).set TWN_STAT_PMODE 2).get TWN_STAT_PMODE ∈ [2, 3, 4]) ∧
    (up 1).mgt.start = none ∧ (up 1).mgt.thermTrip = false := by unfold Free; decide +kernel

theorem test_mode_at_once :
    after (.modeReqIdle 7) (up 6) (fun t => t.mode == 1 && t.barMode 15 == 1 && t.get GLB_MODE_STAT_TAG == 7 && t.get GLB_MODE_STAT_RESULT == 0) ∧
    after (.modeReqIdle 7) ((up 7).put MEM_STAT_READY true) (fun t => t.mode == 1) ∧ after (.modeReqReady 7) ((up 4).put GLB_HOLD_CAUSE_PENDING true) (fun t =>
      t.mode == 2 && !(t.on GLB_HOLD_CAUSE_PENDING)) ∧
    after (.modeReqService 7) (up 1) (fun t => t.mode == 6) ∧
    after (.modeReqBoot 7) (up 1) (fun t => t.mode == 0 && t.get GLB_START_STAT_KIND == 2 && decide (t.mgt.start = some ⟨2, 2, false, []⟩)) := by decide +kernel

/-- StagedTransitionsBegin: a start job whose line clock runs, IDLE with everything permitted, a start trigger taken. -/
theorem wit_staged :
    Free (withJob true (up 2)) ∧ (withJob true (up 2)).stagedBars ≠ [] ∧ (permitted (withJob true (up 1))).readyOk = true ∧
    ({ withJob true (up 2) with startTrig := true } : State).startTrig = true := by unfold Free; decide +kernel

theorem test_staged :
    after (.modeReqPrint 5) (withJob true (up 2)) (fun t => t.mode == 2 && t.get GLB_MODE_STAT_PENDING == 3 && t.get GLB_MODE_STAT_RESULT == 1 && t.tr.isSome) ∧
    after (.modeReqHoldImmediate 5) (withJob true (up 3)) (fun t => decide (t.tr = some ⟨4, 0, some 5, true, none, []⟩)) ∧
    after .startTrigger ({ withJob true (up 2) with startTrig := true } : State) (fun t => !t.startTrig && decide (t.tr = some ⟨3, 8, none, false, none, []⟩)) := by
  decide +kernel

/-- A camera unit fenced while it runs, a unit in skew, an event queue that lost records and has room. -/
def fencedCam : State := (((up 1).set GLB_UST_PERMIT 4 0x97).set GLB_UST_RUNSTATE 2 0x97).put GLB_UST_SKEW true 0x97
/-- Event queue Q39 enabled and empty with 3 records lost. -/
def lossy : State :=
  (((up 1).put HIF_Q_CFG_EN true 39).put HIF_Q_STAT_ACTIVE true 39 |>.put HIF_STAT_LINK true).setQu 39 { Queue.empty with lost := 3 }

theorem wit_acknowledgements :
    ((up 4).put GLB_HOLD_CAUSE_PENDING true).get GLB_HOLD_CAUSE_KIND ≠ 1 ∧ (((up 4).put GLB_HOLD_CAUSE_PENDING true).set GLB_HOLD_CAUSE_KIND 1).get GLB_HOLD_CAUSE_KIND = 1 ∧
    (((up 4).put GLB_HOLD_CAUSE_PENDING true).put MEM_SC_STAT_FENCED true 0).on MEM_SC_STAT_FENCED 0 = true ∧ fencedCam.get GLB_UST_PERMIT 0x97 = 4 ∧
    fencedCam.get GLB_UST_RUNSTATE 0x97 = 2 ∧ fencedCam.on GLB_UST_SKEW 0x97 = true ∧ fencedCam.mode ∉ [0, 7] ∧ (lossy.qu 39).lost ≠ 0 ∧ lossy.qRoom 39 = true := by
  decide +kernel

theorem test_acknowledgements :
    after .holdCauseAck (((up 4).put GLB_HOLD_CAUSE_PENDING true).put MEM_SC_STAT_FENCED true 0) (fun t => t.on GLB_HOLD_CAUSE_PENDING) ∧
    after .holdCauseAck ((up 4).put GLB_HOLD_CAUSE_PENDING true) (fun t => !(t.on GLB_HOLD_CAUSE_PENDING)) ∧
    after (.unitStopPoint 0x97) fencedCam (fun t => t.get GLB_UST_STATE 0x97 == 4 && t.get GLB_UST_RUNSTATE 0x97 == 0 && !(t.on GLB_UST_SKEW 0x97)) ∧
    after (.skewTimeout 0x97) fencedCam (fun t => t.mode == 7 && t.barMode 15 == 7 && t.get GLB_FATAL_FIRST_UNIT == 0x97) ∧
    after (.eventLost 7) lossy (fun t => (t.qu 39).lost == 0 && t.get HIF_Q_PI 39 == 1 && (t.qu 39).ring.length == 1) := by decide +kernel

/-! ### The web, its encoders and line clocks (R48 to R81) -/

/-- Encoder EN7 and tracker GK3 that counts from it, both enabled. -/
def web : State :=
  ((((((up 2).put GEK_TRK_STAT_STILL false 3).put GEK_ENC_CTL_EN true 7).put GEK_TRK_CTL_EN true 3).set GEK_TRK_CTL_SRC 7 3).set64 GEK_TRK_STEP_FRAC (2 ^ 32) 3)

/-- EncoderEdgesCountAndMoveTrackers, LossOfAnEncoderAndItsTrackers: one edge, both edges, none, with Z low or high before; loss with and without a secondary. -/
theorem wit_encoders :
    (web.elapse 0).on GEK_ENC_CTL_EN 7 = true ∧ bitN ((web.elapse 0).get GEK_ENC_STAT_LEVEL 7) 0 = false ∧ bitN ((web.elapse 0).get GEK_ENC_STAT_LEVEL 7) 2 = false ∧
    (web.elapse 0).fedBy 3 false 7 = true ∧ (web.elapse 0).on GEK_TRK_STAT_LOSS 3 = false ∧ web.on GEK_ENC_STAT_LOSS 7 = false ∧ web.on GEK_TRK_CTL_SEC_EN 3 = false ∧
    ((web.put GEK_TRK_CTL_SEC_EN true 3).inputLoss false 0 = false ∧ (web.put GEK_TRK_CTL_SEC_EN true 3).get GEK_TRK_CTL_SEC 3 ≠ 7) ∧
    (web.put GEK_ENC_STAT_LOSS true 7).on GEK_ENC_STAT_LOSS 7 = true ∧ web.deaf = false ∧ (up 2).on GEK_ENC_CTL_EN 7 = false := by decide +kernel

theorem test_encoder_edges :
    after (.encEdge 7 true false false 0) web (fun t => t.pos 3 == 1 && t.get GEK_ENC_COUNT 7 == 1 && t.get GEK_ENC_STAT_LEVEL 7 == 1) ∧
    after (.encEdge 7 false true false 0) web (fun t => t.pos 3 == -1 && t.rd (GEK_ENC_COUNT.addr 7) == 0xFFFFFFFF) ∧
    after (.encEdge 7 true true false 0) web (fun t => t.pos 3 == 0 && t.get GEK_ENC_ERR_QERR 7 == 1) := by decide +kernel

theorem test_encoder_loss :
    after (.encLossDetect 7) web (fun t => t.on GEK_TRK_STAT_LOSS 3 && bitN (t.get GEK_STAT_ENC_LOSS) 7) ∧
    after (.encLossDetect 7) (web.put GEK_TRK_CTL_SEC_EN true 3) (fun t => t.on GEK_TRK_STAT_FALLBACK 3 && !(t.on GEK_TRK_STAT_LOSS 3)) ∧
    after (.encLossClear 7) (web.put GEK_ENC_STAT_LOSS true 7) (fun t => !(t.on GEK_ENC_STAT_LOSS 7)) := by decide +kernel

/-- Absolute input 3 with 8 binary bits, no parity, a frame in progress, MAXDELTA of 3. -/
def abs3 : State :=
  (((((up 2).put GEK_ABS_CTL_EN true 3).put GEK_ABS_CTL_GRAY false 3).set GEK_ABS_CTL_BITS 7 3).set GEK_ABS_MAXDELTA 3 3).setAi 3 { AbsIn.empty with busy := true, good := true }

/-- AbsoluteFramesAndMarks: a frame that starts, one that moves by MAXDELTA and one beyond it, a mark edge each way and one held. -/
theorem wit_absolute_and_marks :
    abs3.on GEK_ABS_CTL_EN 3 = true ∧ (abs3.set GEK_ABS_TIMING_PERIOD 1 3).get GEK_ABS_TIMING_PERIOD 3 ≠ 0 ∧ ((abs3.elapse 0).ai 3).busy = true ∧ ((abs3.elapse 0).ai 3).good = true ∧
    (((abs3.setAi 3 ⟨7, true, true, 0⟩).elapse 0).ai 3).fails = 7 ∧ (((up 2).put GEK_MK_CTL_EN true 7).elapse 0).on GEK_MK_CTL_EN 7 = true ∧
    (((up 2).put GEK_MK_CTL_EN true 7).elapse 0).on GEK_MK_STAT_LEVEL 7 ≠ true ∧ (((up 2).put GEK_MK_CTL_EN true 7).elapse 0).get GEK_MK_CTL_EDGE 7 = 0 ∧
    smGet (fun _ => none) (({ (up 2).put GEK_MK_CTL_EN true 7 with mkHold := [(7, some 5)] } : State).elapse 0).mkHold 7 = some 5 := by decide +kernel

theorem test_absolute_and_marks :
    after (.absFrameDone 3 0xFD false false 0) abs3 (fun t => t.get GEK_ABS_VALUE 3 == 0xFD && t.get GEK_ABS_ERR_ERRS 3 == 0) ∧
    after (.absFrameDone 3 0xFC false false 0) abs3 (fun t => t.get GEK_ABS_VALUE 3 == 0 && t.get GEK_ABS_ERR_ERRS 3 == 1) ∧
    after (.absFrameDone 3 0xFC false false 0) (abs3.setAi 3 ⟨7, true, true, 0⟩) (fun t => t.on GEK_ABS_ERR_LOSS 3) ∧
    after (.mkEdge 7 true 0) (((up 2).put GEK_MK_CTL_EN true 7).set64 GEK_TRK_POS_LO 12 0) (fun t => t.geti64 GEK_MK_LATCH_LO 7 == 12 && t.latched? 27 7) := by decide +kernel

/-- SpeedStandstillAndTrackerCommands: gates of 1 and of 2 counts, a tracker that stands still, LOAD in and out of its modes. -/
theorem wit_trackers :
    (let g := ((web.put GEK_TRK_STAT_GATE_MODE true 3).setTk 3 { Trk.empty with gN := 2, gFirst := 0, gLast := 100 }).elapse 0
    g.on GEK_TRK_CTL_EN 3 = true ∧ g.on GEK_TRK_STAT_GATE_MODE 3 = true ∧ 2 ≤ (g.tk 3).gN) ∧ (web.tk 3).gN < 2 ∧ (web.set GEK_TRK_STILL 1 3).get GEK_TRK_STILL 3 ≠ 0 ∧
    web.on GEK_TRK_STAT_STILL 3 = false ∧ (up 6).mode ∈ [1, 2, 6] ∧ (up 3).mode ∉ [1, 2, 6] ∧ getBits (0xFFCFFFFF : Word) 20 2 = 0 := by decide +kernel

theorem test_trackers :
    after (.speedGate 3 0) ((web.put GEK_TRK_STAT_GATE_MODE true 3).setTk 3 { Trk.empty with gN := 2, gFirst := 0, gLast := 100 })
      (fun t => t.on GEK_TRK_STAT_SPEED_VALID 3 && (t.tk 3).gN == 0) ∧
    after (.standstill 3) ((web.set GEK_TRK_STILL 1 3).put GEK_TRK_STAT_SPEED_VALID true 3) (fun t => t.on GEK_TRK_STAT_STILL 3 && !(t.on GEK_TRK_STAT_SPEED_VALID 3)) ∧
    after (.trackerLoad 3) (web.set64 GEK_TRK_LOAD_LO (-9) 3) (fun t => t.pos 3 == -9) ∧ after (.trackerLoad 3) (up 3) (fun t => t.on GEK_TRK_STAT_LOAD_ERR 3) ∧
    after (.trackerArm 3) web (fun t => t.on GEK_TRK_STAT_ARMED 3) := by decide +kernel

/-- Line clock B15 on GK3, which stands at 10 pu, with PITCH of 1 pu and COMPARE 0. -/
def clocked : State :=
  ((((web.put GEK_LC_CTL_EN true 15).set GEK_LC_CTL_TRK 3 15).set64 GEK_TRK_POS_LO 10 3).wr (GEK_LC_PITCH_FRAC.addr 15 + 4) 1) |> fun s => { s with applied := [(GEK_LC_PITCH_FRAC.addr 15 + 4, 1)] }

/-- LineClocksHitAndSkip, LineClockControlAndSheetEdges: COMPARE reached and not, a hit before MINGAP, a delayed hit due and overdue, an edge waiting. -/
theorem wit_line_clocks :
    (clocked.elapse 0).compare 15 ≤ (clocked.elapse 0).barFine 15 ∧ ((clocked.setCompare 15 (11 * 2 ^ 32)).elapse 0).barFine 15 < ((clocked.setCompare 15 (11 * 2 ^ 32)).elapse 0).compare 15 ∧
    (clocked.elapse 0).on GEK_LC_CTL_EN 15 = true ∧ (clocked.elapse 0).on GEK_LC_STAT_WAIT_SHEET 15 = false ∧ (clocked.elapse 0).on GEK_LC_STAT_DELAYED 15 = false ∧
    (clocked.elapse 0).mode ≠ 0 ∧ ((clocked.elapse 0).lk 15).lastHit = none ∧ ((clocked.elapse 0).cp 15).fire = [] ∧ 0 < (clocked.elapse 0).lcPitch 15 ∧
    (let z := ((clocked.set GEK_LC_MINGAP 100 15).setLk 15 { Lc.empty with lastHit := some 0 }).elapse 0
     ((z.lk 15).lastHit = some 0 ∧ (z.clk - 0) * 5 < z.get GEK_LC_MINGAP 15 * 4) ∧ (z.put GEK_LC_STAT_DELAYED true 15).on GEK_LC_STAT_DELAYED 15 = true) ∧
    (up 1).on GEK_LC_CTL_EN 15 = false ∧ smGet (fun _ => []) (up 1).latched 0 = [] ∧
    (((clocked.put GEK_LC_CTL_SHEET true 15).put GEK_LC_STAT_WAIT_SHEET true 15).setTk 3 { Trk.empty with edges := [(1, 7)] } |> fun s =>
      (s.tk (s.get GEK_LC_CTL_TRK 15)).edges.find? (fun e => !(s.sheetDone 15 e.1))) = some (1, 7) := by decide +kernel

theorem test_line_clock_hits :
    after (.lineClockHit 15 0) clocked (fun t => t.line 15 == 11 && t.compare 15 == 11 * 2 ^ 32 && t.get GEK_LC_SKIP 15 == 10 && t.latched? 0 23) ∧
    after (.lineClockHit 15 0) ((clocked.set GEK_LC_MINGAP 100 15).setLk 15 { Lc.empty with lastHit := some 0 }) (fun t => t.on GEK_LC_STAT_DELAYED 15 && t.line 15 == 0) ∧
    after (.lineClockDelayedHit 15) (((clocked.set GEK_LC_MINGAP 100 15).put GEK_LC_STAT_DELAYED true 15).setLk 15 { Lc.empty with lastHit := some 0 })
      (fun t => t.clk == 80 && !(t.on GEK_LC_STAT_DELAYED 15)) := by decide +kernel

theorem test_line_clock_control :
    after (.lcEnable 15 3 true) (up 1) (fun t => t.on GEK_LC_CTL_EN 15 && t.get GEK_LC_CTL_TRK 15 == 3 && t.on GEK_LC_STAT_WAIT_SHEET 15 && t.geti64 GEK_LC_HWM_LO 15 == -(2 ^ 63)) ∧
    after (.lcPitchOffsetWrite 15 3 7) clocked (fun t => t.rd (GEK_LC_PITCH_FRAC.addr 15 + 4) == 7 && t.lcPitch 15 == 2 ^ 32) ∧
    after (.sheetEdgeTake 15) (((clocked.put GEK_LC_CTL_SHEET true 15).put GEK_LC_STAT_WAIT_SHEET true 15).setTk 3 { Trk.empty with edges := [(1, 7)] })
      (fun t => t.get GEK_LC_SHEET 15 == 1 && t.compare 15 == 7 * 2 ^ 32 && !(t.on GEK_LC_STAT_WAIT_SHEET 15)) ∧
    after (.regPairReadLatch (GEK_TRK_POS_LO.addr 3)) (web.set64 GEK_TRK_POS_LO (-1) 3) (fun t => decide (smGet (fun _ => []) t.latched 0 = [(GEK_TRK_POS_LO.addr 3 + 4, 0xFFFFFFFF)])) := by
  decide +kernel

/-! ### Commands to engines, loader, reject list, GIO (R117 to R144) -/

/-- EngineCommands: each engine state, a wait that HALT may end, ADD G1 G2 at address 0 to step. -/
theorem wit_engine_commands :
    (up 1).engState 0 ∉ [2, 3] ∧ (up 1).mode ≠ 7 ∧ (up 1).on ENG_BREAK_EN 0 = false ∧ ((up 1).set ENG_STAT_STATE 4 27).engState 27 ∈ [1, 4] ∧ (eng 0 1 2).engState 0 = 2 ∧
    (((eng 0 1 2).set ENG_STAT_STATE 3 0).setEx 0 { EngX.empty with wait := some ⟨4, 0, 0, 0, false, false, false, 0⟩ } |> fun s =>
      s.engState 0 = 3 ∧ (s.ex 0).wait = some ⟨4, 0, 0, 0, false, false, false, 0⟩ ∧ (4 : Nat) ∉ [5, 6]) ∧
    instrWord (.add 0 3 1 2) = some (0, 0x00611000) ∧ ({ (eng 0 1 2).set ENG_STAT_STATE 1 0 with engCode := [(0, 0x00611000)] } : State).code 0 0 = 0x00611000 ∧
    (up 7).mode = 7 := by decide +kernel

theorem test_engine_commands :
    after (.engStart 0) (((up 1).setG 0 5 9).set ENG_ENTRY_ENTRY 0x40 0) (fun t => t.engState 0 == 2 && t.g 0 5 == 0 && t.get ENG_PC 0 == t.get ENG_ENTRY_ENTRY 0) ∧
    after (.engStep 0) ({ (eng 0 1 2).set ENG_STAT_STATE 1 0 with engCode := [(0, 0x00611000)] } : State) (fun t => t.g 0 3 == 3 && t.engState 0 == 1 && t.get ENG_PC 0 == 4) ∧
    after (.engHalt 0) (eng 0 1 2) (fun t => t.engState 0 == 1) ∧ after (.engResume 0) (eng 0 1 2) (fun t => t.on ENG_STAT_CMD_ERR 0 && only [ENG_STAT.addr 0] (eng 0 1 2) t) := by
  decide +kernel

/-- HostWritesOfSequencerRegisters: IDLE and another mode, open and closed code memory, an engine that may not be written. -/
theorem wit_sequencer_writes :
    (up 1).mode ∈ [1, 6] ∧ (up 2).mode ∉ [1, 6] ∧ (up 1).codeOpen 15 65532 = true ∧ (eng 15 0 0).codeOpen 15 65532 = false ∧
    ((eng 15 0 0).set ENG_CODE_OPEN_BASE 2047 15 |>.set ENG_CODE_OPEN_SIZE 1 15).codeOpen 15 65532 = true ∧ (up 1).engState 27 ∈ [0, 1, 4] ∧ (eng 27 0 0).engState 27 ∉ [0, 1, 4] ∧
    (up 1).deaf = false := by decide +kernel

theorem test_sequencer_writes :
    after (.engDoorbell 27) (up 1) (fun t => t.latched? 27 60) ∧ after (.hostTrig 0x8000) (up 2) (fun t => t.latched? 27 55 && !t.startTrig) ∧
    after (.seqBindWrite 3 0x85) (up 1) (fun t => t.boundTo 12 == some 5) ∧ after (.seqBindWrite 3 0x85) (up 2) (fun t => t.on SEQ_STAT_BIND_ERR && t.boundTo 12 == none) ∧
    after (.codeWrite 15 16383 7) (up 1) (fun t => t.code 15 65532 == 7 && t.code 15 65528 == 0) ∧ after (.codeWrite 15 16383 7) (eng 15 0 0) (fun t => t.on ENG_STAT_CMD_ERR 15) ∧
    after (.engRegWrite 27 31 7) (up 1) (fun t => t.g 27 31 == 7) := by decide +kernel

/-- A copy of 32 bytes from 64 to the end of SQ00's code memory. -/
def copying : State :=
  let s := ((((up 1).put MEM_STAT_READY true).set64 MEM_CAP_LO 0x10000).st 64 (List.replicate 32 5)).put SEQ_LD_STAT_BUSY true
  { s with loading := some (64, 0, 65504, 32) }

/-- LoaderCopiesCode: nothing to copy, a copy that fits exactly, one beyond the end, one misaligned. -/
theorem wit_loader :
    (up 1).on SEQ_LD_STAT_BUSY = false ∧ (up 1).get SEQ_LD_LEN_LEN = 0 ∧ ((up 1).set SEQ_LD_LEN_LEN 32).get SEQ_LD_LEN_LEN ≠ 0 ∧ copying.on SEQ_LD_STAT_BUSY = true ∧
    copying.loading = some (64, 0, 65504, 32) ∧ copying.loadBad 64 0 65504 32 = none ∧ copying.bad 64 32 = false ∧ copying.loadBad 64 0 65504 64 = some 1 ∧
    copying.loadBad 68 0 65504 32 = some 2 ∧ (1 : Nat) ≤ 32 / 32 := by decide +kernel

theorem test_loader :
    after .loaderComplete copying (fun t => t.code 0 65504 == 0x05050505 && t.code 0 65532 == 0x05050505 && t.code 0 65500 == 0 && t.get SEQ_LD_STAT_RESULT == 0 &&
      !(t.on SEQ_LD_STAT_BUSY)) ∧
    after (.loaderAbort 0) copying (fun t => t.code 0 65504 == 0 && t.get SEQ_LD_STAT_RESULT == 5) ∧ after (.loaderAbort 2) copying (fun t => t.get SEQ_LD_STAT_RESULT == 6) ∧
    after .loaderGo (up 1) (fun t => !(t.on SEQ_LD_STAT_BUSY)) := by decide +kernel

/-- A range of cause 15 gathered at bar B15, the list at its 65th entry. -/
def gathered : State := { (up 3).set SEQ_REJ_WR 64 with gather := [(255, some (-5, 3, 0, 2))] }

/-- RejectListEntries: a range gathered and none, the mask set and clear, a length of 0. -/
theorem wit_reject :
    smGet (fun _ => none) gathered.gather (16 * 15 + 15) = some (-5, 3, 0, 2) ∧ ((-5 : Int) < 3 ∧ (3 : Int) - (-5) < 2 ^ 32) ∧ smGet (fun _ => none) (up 3).gather 255 = none ∧
    bitN (((up 3).set SEQ_REJ_CTL_MASK 0x400).get SEQ_REJ_CTL_MASK) 10 = true ∧ ((up 3).set SEQ_REJ_ADD_LEN 1).get SEQ_REJ_ADD_LEN ≠ 0 ∧
    bitN (((up 3).set SEQ_REJ_CTL_MASK 0).get SEQ_REJ_CTL_MASK) 10 = false := by decide +kernel

theorem test_reject :
    after (.rejectEntryWrite 15 15) gathered (fun t => t.geti64 SEQ_REJ_START_LO 0 == -5 && t.get SEQ_REJ_LEN 0 == 8 && t.get SEQ_REJ_INFO_SEQ 0 == 64 && t.get SEQ_REJ_WR == 65) ∧
    after .rejectAdd (((up 3).set SEQ_REJ_CTL_MASK 0x400).set SEQ_REJ_ADD_LEN 7) (fun t => t.get SEQ_REJ_LEN 0 == 7 && t.get SEQ_REJ_INFO_CAUSE 0 == 10 && t.get SEQ_REJ_INFO_BAR 0 == 15) ∧
    after .rejectClear ((up 1).set SEQ_REJ_WR 5) (fun t => t.get SEQ_REJ_WR == 0) := by decide +kernel

/-- GeneralInputsAndOutputs: an output and an input pin, IDLE, another mode and SAFE. -/
theorem wit_gio :
    bitN (((up 1).set SEQ_GIO_DIR 0x80000000).get SEQ_GIO_DIR) 31 = true ∧ bitN ((up 1).get SEQ_GIO_DIR) 31 = false ∧ (up 7).mode = 7 ∧ (up 3).mode ≠ 7 ∧ (up 3).mode ∉ [1, 6] := by
  decide +kernel

theorem test_gio :
    after (.gioSet 0x80000001) (up 3) (fun t => t.get SEQ_GIO_OUT == 0x80000001) ∧ after (.gioClr 1) ((up 3).set SEQ_GIO_OUT 3) (fun t => t.get SEQ_GIO_OUT == 2) ∧
    after (.gioInputChange 31 true) ((up 1).set SEQ_GIO_INV 0x80000001) (fun t => t.get SEQ_GIO_IN == 1) ∧ after (.gioConfigWrite 0 5) (up 1) (fun t => t.get SEQ_GIO_DIR == 5) ∧
    after (.gioConfigWrite 0 5) (up 3) (fun t => t.on SEQ_GIO_STAT_CFG_ERR) := by decide +kernel

/-! ### The store (R145 to R178) -/

/-- The store ready with 64 KiB. -/
def mem : State := ((up 1).put MEM_STAT_READY true).set64 MEM_CAP_LO 0x10000

/-- StoreRequestsMeetErrors: the last burst, sound and poisoned, a device erased before, a fenced sub-channel, a LEVEL below THRESH. -/
theorem wit_store_requests :
    0xFFC0 < mem.memCap ∧ mem.on MEM_STAT_READY = true ∧ mem.scBad (mem.scOf 0xFFC0) = false ∧ smGet (fun _ => false) mem.poison (0xFFC0 / 64) = false ∧
    mem.erased (mem.scOf 0xFFC0) 1 = none ∧ ((mem.put MEM_SC_STAT_ERASED1 true 15).set MEM_SC_STAT_DEV1 3 15).erased (mem.scOf 0xFFC0) 1 = some 3 ∧
    smGet (fun _ => false) ({ mem with poison := [(1023, true)] } : State).poison (0xFFC0 / 64) = true ∧ (0xFFC0 : Nat) % 64 = 0 ∧ 0xFFC0 + 64 ≤ mem.memCap ∧
    (mem.put MEM_SC_STAT_FENCED true 15).on MEM_SC_STAT_FENCED (mem.scOf 0xFFC0) = true ∧ mem.on MEM_SC_STAT_FAILED (mem.scOf 0xFFC0) = false ∧
    ((mem.put MEM_PORT_CFG_SIDE false 0).set MEM_PORT_CFG_THRESH 9 0 |> fun s => s.on MEM_PORT_CFG_SIDE 0 = false ∧ s.on MEM_PORT_STAT_PANIC 0 = false ∧ (8 : Fin 65).val < s.get MEM_PORT_CFG_THRESH 0) := by
  decide +kernel

theorem test_store_requests :
    after (.storeReadRequest 5 0xFFC0 0 [1] none) mem (fun t => t.get MEM_SC_CE (mem.scOf 0xFFC0) == 1 && t.poison == []) ∧
    after (.storeReadRequest 192 0xFFC0 0 [1, 2] none) mem (fun t => t.get MEM_SC_UE_UE (mem.scOf 0xFFC0) == 1 && t.poison == [(1023, true)] && t.on MEM_UE_INFO_SCRUB &&
      t.get64 MEM_UE_ADDR_LO == 0xFFC0) ∧
    after (.storeWriteRequest 5 0xFFC0 (List.replicate 64 7) 0 [] none) ({ mem with poison := [(1023, true)] } : State) (fun t => t.ldByte 0xFFFF == 7 && t.poison == []) ∧
    after (.storeWriteRequest 5 0xFFC1 [7] 0 [] none) ({ mem with poison := [(1023, true)] } : State) (fun t => t.poison == [(1023, true)] && t.store == [(0xFFC1, 7)]) ∧
    after (.storeReadRequest 0 0 0 [] (some 8)) ((mem.put MEM_PORT_CFG_SIDE false 0).set MEM_PORT_CFG_THRESH 9 0) (fun t => t.on MEM_PORT_STAT_PANIC 0 && t.on MEM_PANIC_STAT_ANY) := by
  decide +kernel

/-- StoreControllerKeepsItself: a scrub step at and before the end, sub-channels awake and asleep, a port long in panic, a fenced sub-channel that drains. -/
theorem wit_store_controller :
    let s := ((mem.put MEM_SCRUB_CTL_EN true).set MEM_SCRUB_CTL_PERIOD 1).set64 MEM_SCRUB_POS_LO 0xFFC0
    s.on MEM_SCRUB_CTL_EN = true ∧ s.get MEM_SCRUB_CTL_PERIOD ≠ 0 ∧ s.poisoned (0xFFC0 / 64) = false ∧ s.memCap ≤ s.get64 MEM_SCRUB_POS_LO + 64 ∧
    mem.get64 MEM_SCRUB_POS_LO + 64 < mem.memCap ∧ ((mem.put MEM_SCRUB_CTL_EN false).on MEM_SCRUB_CTL_EN = false) ∧ mem.scAwake 23 = true ∧
    ({ mem with memSleep := [(23, true)] } : State).scAwake 23 = false ∧ (2 ≤ smGet (fun _ => 0) ({ mem with memFails := [(65536 * 23 + 63, 2)] } : State).memFails (65536 * 23 + 63)) ∧
    mem.mode ∉ [0, 7] ∧ mem.get GLB_UST_RUNSTATE (scUnit 23) ≠ 5 ∧ smGet (fun _ => false) ({ mem with memHot := [(47, true)] } : State).memHot (2 * 23 + 1) = true ∧
    mem.on MEM_PANIC_STAT_ANY = false ∧ (mem.put MEM_PORT_STAT_PANIC true 173).on MEM_PORT_STAT_PANIC 173 = true ∧ (mem.set MEM_PANIC_LIMIT 1).get MEM_PANIC_LIMIT ≠ 0 ∧
    ((((mem.set MEM_AGE_CRIT 1).set MEM_AGE_RT 1).set MEM_AGE_BULK 1).set MEM_AGE_BACK 1 |> fun s => s.get MEM_AGE_CRIT ≠ 0 ∧ s.get MEM_AGE_RT ≠ 0 ∧ s.get MEM_AGE_BULK ≠ 0 ∧ s.get MEM_AGE_BACK ≠ 0) ∧
    (mem.put MEM_SC_STAT_FENCED true 23).on MEM_SC_STAT_FENCED 23 = true ∧ mem.on MEM_SC_STAT_FENCED 23 = false := by decide +kernel

theorem test_store_controller :
    after (.scrubStep 0 []) (((mem.put MEM_SCRUB_CTL_EN true).set MEM_SCRUB_CTL_PERIOD 1).set64 MEM_SCRUB_POS_LO 0xFFC0) (fun t => t.get64 MEM_SCRUB_POS_LO == 0 && t.get MEM_SCRUB_PASSES == 1) ∧
    after (.mr4Read 23 1 true) mem (fun t => t.on MEM_SC_STAT_REFRESH_2X 23) ∧
    after (.dramAlert 23 false false (some 63)) ({ mem with memFails := [(65536 * 23 + 63, 2)] } : State) (fun t => t.on MEM_SC_STAT_FAILED 23 && t.mode == 7) ∧
    after (.subchannelDrained 23) (mem.put MEM_SC_STAT_FENCED true 23) (fun t => t.memSleep == [(23, true)]) := by decide +kernel

/-! ### Composition and Husk (R179 to R233) -/

/-- Point 0 in READY with a job of one repeat from line 0, its line clock enabled. -/
def pointUp : State :=
  ((up 2).put GEK_LC_CTL_EN true 0).setCp 0 { Point.empty with job := some 0, lead := 256, cpitch := 2 ^ 32 }

/-- A sheaf and a display sheaf submitted on Q52 and Q53; the display sheaf stands at 64. -/
def submitted (q : Nat) : State :=
  ((mem.st 64 (bytesOf 4 0x31464853 ++ bytesOf 2 0 ++ bytesOf 2 2 ++ List.replicate 56 0)).setQu q { Queue.empty with fetched := [{ sub0 with body := [0, 0, 64] }] })

/-- PointsComposeAndSheavesAreJudged: nothing composed in IDLE, a line within the lead, the job's end, sheaves fetched and none. -/
theorem wit_composer :
    (up 1).composing = false ∧ pointUp.composing = true ∧ pointUp.canCompose 0 = true ∧ pointUp.boundary 0 = none ∧ pointUp.cpOn 0 = false ∧
    ((pointUp.setCp 0 { pointUp.cp 0 with rep := 10, nrep := 1, cpos := 10 * 2 ^ 32 }).set CMP_CP_REPEAT 0 0 |> fun s => s.pointEnds 0 = true ∧ s.canCompose 0 = true) ∧
    ((submitted 53).qu 53).fetched = { sub0 with body := [0, 0, 64] } :: [] ∧ ((up 1).qu 53).fetched = [] ∧
    (submitted 53).ldN (subF64 { sub0 with body := [0, 0, 64] } 0x18) 4 = 0x31464853 ∧ bitN ((submitted 53).ldN 70 2) 1 = true ∧ (submitted 53).dsheaves.length < 4 := by decide +kernel

theorem test_composer :
    after (.composeLine 0) pointUp (fun t => t.nextLine 0 == 1 && (t.cp 0).cpos == 2 ^ 32 && (t.cp 0).lines == []) ∧
    after .displaySheafSubmit (submitted 53) (fun t => t.dsheaves.length == 1 && t.get CMP_STAT_DSP_PENDING == 1) ∧
    after .sheafSubmit (submitted 52) (fun t => (t.qu 52).fetched == [] && t.get CMP_SHEAF_CNT_REFUSED == 1 && t.get CMP_STAT_LAST != 0) ∧
    after .verticalBlank ((up 1).set CMP_DSP_FRAME 0xFFFFFFFF) (fun t => t.get CMP_DSP_FRAME == 0) := by decide +kernel

/-- ComposerRegistersAreShadowed: a shadowed register, a line clock's while it is enabled and not. -/
theorem wit_shadowed :
    rwsMask (GEK_LC_PITCH_FRAC.addr 15) ≠ 0 ∧ isLcField (GEK_LC_PITCH_FRAC.addr 15) = true ∧ (up 1).on GEK_LC_CTL_EN ((GEK_LC_PITCH_FRAC.addr 15 - 0x42000) / 128) = false ∧
    clocked.on GEK_LC_CTL_EN 15 = true ∧ (up 1).get GLB_COMPAT_LEVEL ≠ 1 := by decide +kernel

theorem test_shadowed :
    after (.rwsWrite (GEK_LC_PITCH_FRAC.addr 15) 9) (up 1) (fun t => t.rd (GEK_LC_PITCH_FRAC.addr 15) == 9 && t.ap (GEK_LC_PITCH_FRAC.addr 15) == 9) ∧
    after (.rwsWrite (GEK_LC_PITCH_FRAC.addr 15) 9) clocked (fun t => t.rd (GEK_LC_PITCH_FRAC.addr 15) == 9 && t.ap (GEK_LC_PITCH_FRAC.addr 15) == clocked.ap (GEK_LC_PITCH_FRAC.addr 15)) ∧
    after .poolPeakRead ((up 1).set CMP_POOL_PEAK 5) (fun t => t.get CMP_POOL_PEAK == 0) := by decide +kernel

/-- A Husk command of one line of 16 bytes from 0 to 64, which no coding makes shorter. -/
def husk : State :=
  let s := ((mem.st 0 (List.replicate 16 9)).put HSK_STAT_BUSY true)
  { s with husk := some ⟨0, 64, 16, 1, 1, 64, 0⟩ }

/-- HuskCodesWithinItsSurface: an empty surface, one out of range, one that fits, a command in progress. -/
theorem wit_husk :
    (up 1).on HSK_STAT_BUSY = false ∧ (up 1).get HSK_H = 0 ∧ mem.huskRange ⟨0, 64, 16, 1, 1, 64, 0⟩ = false ∧ mem.huskRange ⟨0, 64, 16, 1, 1, 0xFFC0, 0⟩ = false ∧
    mem.huskRange ⟨0, 64, 16, 1, 5, 0xFFC0, 0⟩ = true ∧ husk.husk = some ⟨0, 64, 16, 1, 1, 64, 0⟩ ∧ husk.on HSK_STAT_BUSY = true := by decide +kernel

theorem test_husk :
    after .hskComplete husk (fun t => !(t.on HSK_STAT_BUSY) && t.get HSK_STAT_RESULT == 1 && t.ldByte 63 == 0 && t.ldByte 80 == 0) ∧
    after (.hskAbort 0) husk (fun t => t.get HSK_STAT_RESULT == 4 && t.store == husk.store) := by decide +kernel

/-! ### Tillers and head links (R230 to R281) -/

/-- Point 0 with one composed line of no columns, no port in the job. -/
def screened (m : Nat) : State := ({ up m with pwidth := [(0, 0)] } : State).setCp 0 { Point.empty with lines := [⟨5, 0, 4, [], TSet.empty⟩] }

/-- TillersScreenLinesAndKeepTables: a line with every slot free, one that meets a busy slot first and again, an entry taken, refused and out of range. -/
theorem wit_tillers :
    ((screened 2).cp 0).lines = ⟨5, 0, 4, [], TSet.empty⟩ :: [] ∧ (screened 2).mode ∉ [0, 7] ∧ (screened 2).slotBusy 0 5 = [] ∧ (screened 2).nzHeld = [] ∧
    (let s := (((screened 2).put HPL_PORT_CFG_EN true 127).set HPL_BAR_STAT_NPORTS 1 0).put TIL_PORT_CFG_EN true 127
     s.slotBusy 0 5 = [127] ∧ (smGet (fun _ => TPoint.empty) s.tilPt 0).wait = false ∧
      (smGet (fun _ => TPoint.empty) ({ s with tilPt := [(0, { TPoint.empty with wait := true })] } : State).tilPt 0).wait = true) ∧
    ((up 2).cp 0).lines = [] ∧ smGet (fun _ => []) ({ up 2 with tilOut := [(127, [(7, 6)])] } : State).tilOut 127 = (7, 6) :: [] ∧
    getBits (0x80000000 : Word) 31 1 = 1 ∧ (up 1).on TIL_NZU_STAT_BUSY = false ∧ nzState ((up 1).nzRead 0) = getBits (0x80000000 : Word) 0 2 ∧
    getBits (0x8000000C : Word) 2 2 = 3 ∧ nzState (((up 1).wr (NZT.addr 0) 3).nzRead 0) = nzState (((up 1).wr (NZT.addr 0) 3).nzRead 0) ∧
    12288 ≤ ((up 1).set TIL_NZU_ADDR_NOZZLE 12288).get TIL_NZU_ADDR_NOZZLE := by decide +kernel

theorem test_tillers :
    after (.screenLine 0 [] []) (screened 2) (fun t => (t.cp 0).lines == []) ∧
    after (.lineComplete 127) ({ up 2 with tilOut := [(127, [(7, 6)])] } : State) (fun t => t.geti64 TIL_PORT_DONE_LO 127 == 8 && smGet (fun _ => []) t.tilOut 127 == []) ∧
    after (.nztWrite 1572863 0x1FF) (up 1) (fun t => t.nzRead 1572863 == 0x1FF && t.nzRead 1572862 == resetAt (NZT.addr 1572862)) ∧
    after (.nzuGo 0x80000004) (up 1) (fun t => nzState (t.nzRead 0) == 1 && t.get TIL_NZU_STAT_RESULT == 0 && t.get TIL_NZU_CNT_DONE == 1) ∧
    after (.nzuGo 0x80000001) (up 1) (fun t => t.get TIL_NZU_STAT_RESULT == 1) ∧ after (.nzuGo 0x8000000C) (up 1) (fun t => t.get TIL_NZU_STAT_RESULT == 3) ∧
    after (.headMapWrite 127 7 true 5) (up 3) (fun t => t.on TIL_STAT_CFG_ERR) ∧ after (.tilStatRead 11) ((up 1).set TIL_TL_STAT_LAT 9 11) (fun t => t.get TIL_TL_STAT_LAT 11 == 0) := by
  decide +kernel

/-- Port HP127 with its link in state `l`, enabled for bar B15 in mode `m`, which stands at line 0. -/
def port (m l : Nat) : State :=
  ((((up m).put HPL_PORT_CFG_EN true 127).set HPL_PORT_CFG_BAR 15 127).set HPL_PORT_STAT_LINK l 127).set HPL_BAR_STAT_NPORTS 1 15

/-- HeadLinksTrain: every link state, a write that changes the bar in IDLE, in READY and to a full bar. -/
theorem wit_link_training :
    (port 1 0).get HPL_PORT_STAT_LINK 127 = 0 ∧ (port 1 1).get HPL_PORT_STAT_LINK 127 = 1 ∧ (port 1 2).get HPL_PORT_STAT_LINK 127 = 2 ∧ (port 1 3).get HPL_PORT_STAT_LINK 127 = 3 ∧
    (port 1 4).get HPL_PORT_STAT_LINK 127 = 4 ∧ (port 1 5).get HPL_PORT_STAT_LINK 127 = 5 ∧ getBits (0 : Word) 0 1 ≠ (port 1 0).get HPL_PORT_CFG_EN 127 ∧ (port 2 0).mode ∉ [1, 6] ∧
    ((up 1).set HPL_BAR_STAT_NPORTS 16 15 |>.portOf 127 15) = false ∧ 16 ≤ ((up 1).set HPL_BAR_STAT_NPORTS 16 15).get HPL_BAR_STAT_NPORTS 15 ∧
    ((port 1 3).hp 127).rounds ≠ 3 ∧ (((port 1 3).setHp 127 { HPort.empty with rounds := 3 }).hp 127).rounds = 3 ∧ (port 1 5).on HPL_PORT_CFG_EN 127 = true ∧
    ((port 1 5).put HPL_PORT_CFG_AUTO true 127).on HPL_PORT_CFG_AUTO 127 = true ∧ ((port 1 4).set HPL_PORT_STAT_TMO 1 127).get HPL_PORT_STAT_TMO 127 ≠ 0 := by decide +kernel

theorem test_link_training :
    after (.linkTrain 127) (port 1 0) (fun t => t.get HPL_PORT_STAT_LINK 127 == 1) ∧ after (.linkBlockLock 127) (port 1 1) (fun t => t.get HPL_PORT_STAT_LINK 127 == 2) ∧
    after (.linkTrainTimeout 127) (port 1 2) (fun t => t.get HPL_PORT_STAT_LINK 127 == 5 && t.get HPL_PORT_STAT_ATTEMPTS 127 == 1) ∧
    after (.linkTrainTimeout 127) (port 1 3) (fun t => t.get HPL_PORT_STAT_LINK 127 == 3 && (t.hp 127).rounds == 1) ∧
    after (.linkLockLoss 127) (port 1 4) (fun t => t.get HPL_PORT_STAT_LINK 127 == 0 && t.get HPL_PORT_CNT_DOWN_LOSS 127 == 1 && (t.hp 127).lost) ∧
    after (.portCfgWrite 127 0) (port 2 0) (fun t => t.on HPL_PORT_STAT_CFG_ERR 127 && t.on HPL_PORT_CFG_EN 127) := by decide +kernel

/-- A line sent and not strobed, for the NAKs. -/
def sentLine (r : Nat) : State := (port 3 4).setHp 127 { HPort.empty with sent := [⟨9, 0, [7], r⟩], disc := [3], cfgs := [⟨1, [], 2, false⟩] }

/-- HeadLinksReceive: a corrupt STATUS, one that identifies the head board and one that does not, the same and another board, a line that may and may not be resent. -/
theorem wit_link_reception :
    (port 3 2).get HPL_PORT_STAT_LINK 127 ∈ [2, 3, 4] ∧ (port 3 1).get HPL_PORT_STAT_LINK 127 ∉ [2, 3, 4] ∧ { statusIn 8 4 0 1 with good := false }.good = false ∧
    ((statusIn 8 4 0 1).version = 1 ∧ { statusIn 8 4 0 1 with nheads := 8, buflines := 256 }.nheads.toNat ≤ 8 ∧ { statusIn 8 4 0 1 with nheads := 8, buflines := 256 }.buflines.toNat ≤ 256) ∧
    (((port 3 4).set HPL_PORT_HBINFO_BUFLINES 0 127).identChanged 127 (statusIn 8 4 0 1) = false) ∧
    (port 3 4).identChanged 127 { statusIn 8 4 0 1 with serial := 1 } = true ∧
    ((sentLine 0).hp 127).sent.find? (fun l => ux 32 l.line == (9 : Word).toNat) = some ⟨9, 0, [7], 0⟩ ∧ (sentLine 0).line 15 ≤ 9 - 1 ∧
    0 < ((sentLine 0).set HPL_PORT_RSCFG_RS_MAX 1 127).get HPL_PORT_RSCFG_RS_MAX 127 ∧ ((sentLine 0).hp 127).disc.contains ((sentLine 0).fullLine 127 3) = true ∧
    ((sentLine 0).hp 127).disc.contains ((sentLine 0).fullLine 127 4) = false ∧ ((sentLine 0).hp 127).cfgs = [⟨1, [], 2, false⟩] := by decide +kernel

theorem test_link_reception :
    after (.statusRx 127 { statusIn 8 4 0 1 with good := false }) (port 3 4) (fun t => t.get HPL_PORT_CNT_ERR_UP_CRC 127 == 1) ∧
    after (.statusRx 127 { statusIn 8 4 0 1 with nheads := 8, buflines := 256 }) (port 1 2) (fun t => t.get HPL_PORT_STAT_LINK 127 == 3) ∧
    after (.statusRx 127 { statusIn 8 4 0 1 with nheads := 8, buflines := 31 }) (port 1 2) (fun t => t.get HPL_PORT_STAT_LINK 127 == 2) ∧
    after (.nakCorruptRx 127 9) ((sentLine 0).set HPL_PORT_RSCFG_RS_MAX 1 127) (fun t => (t.hp 127).out == frameWords 1 4 9 [7] && t.get HPL_PORT_CNT_RESEND 127 == 1) ∧
    after (.nakCorruptRx 127 9) ((sentLine 1).set HPL_PORT_RSCFG_RS_MAX 1 127) (fun t => t.get HPL_PORT_CNT_NAK_NAKS 127 == 1) ∧
    after (.nakCfgCorruptRx 127 1) (sentLine 0) (fun t => decide ((t.hp 127).cfgs = [⟨1, [], 2, true⟩])) := by decide +kernel

/-- Bar B15 has released its lines to 20; the first 20 are complete in the ring of HP127 at 0, of 64 slots of 8 bytes, a nozzle each. -/
def ringed : State :=
  let s := ((((port 3 4).put MEM_STAT_READY true).set64 MEM_CAP_LO 0x10000).set HPL_PORT_HBINFO_BUFLINES 256 127).setHb 15 { HBar.empty with mark := 20 }
  (((s.set TIL_PORT_DEPTH 64 127).set TIL_PORT_SLOT 64 127).set TIL_PORT_CFG_NNOZ 1 127).set64 TIL_PORT_DONE_LO 20 127

/-- HeadLinksSend: a line that may go out, one substituted by blank, periods running and not. -/
theorem wit_link_sending :
    (ringed.nextSend 127 = 0 ∧ ringed.canLine 127 = true ∧ ringed.released 127 0 = true ∧ ringed.lineReady 127 0 = true) ∧ ringed.subOf 15 0 = none ∧
    ringed.bad (ringed.slotAt 127 0) (8 * (ringed.ringWords 127 0).length) = false ∧ (ringed.ringWords 127 0).filter oddWord = [] ∧
    (ringed.setHb 15 { HBar.empty with mark := 20, subs := [(0, 3, 0, 0)] }).subOf 15 0 = some (0, 0) ∧ ringed.canCtl 127 = true ∧ (port 3 0).canCtl 127 = false ∧
    (ringed.set HPL_CTL_PING_PER 1).get HPL_CTL_PING_PER ≠ 0 ∧ (ringed.set HPL_CTL_TIME_PER 1).get HPL_CTL_TIME_PER ≠ 0 ∧ (port 3 0).canLine 127 = false := by decide +kernel

theorem test_link_sending :
    after (.lineFrameSend 127) ringed (fun t => decide ((t.hp 127).sent = [⟨0, 0, [0], 0⟩]) && t.geti64 HPL_PORT_SENT_LO 127 == 1) ∧
    after (.lineFrameSend 127) (ringed.setHb 15 { HBar.empty with mark := 20, subs := [(0, 3, 0, 0)] }) (fun t => decide ((t.hp 127).sent = [⟨0, 1, [], 0⟩])) ∧
    after (.pingPeriod 127) (ringed.set HPL_CTL_PING_PER 1) (fun t => (t.hp 127).syncSeq == 1 && (t.hp 127).ping == some 0) := by decide +kernel

/-! ### Cameras (R282 to R313) -/

/-- CX link 7 and camera unit CXC3 on it, both enabled, the link up. -/
def cxUp : State :=
  (((((up 2).put CAM_CX_CFG_EN true 7).set CAM_CX_STAT_LINK 2 7).put CAM_U_CFG_EN true 3).set CAM_U_CFG_LINK0 7 3).put CAM_U_STAT_UP true 3

/-- CameraSourcesAndConfiguration: links down and up, a port's lanes, a guarded register with TEN, an overload that ends. -/
theorem wit_camera_sources :
    (up 2).mode ∉ [1, 6] ∧ camGuard 0x24 = 0 ∧ (0x24 : Nat) % 4 = 0 ∧ (up 1).on CAM_U_CFG_TEN 3 = false ∧ ((up 1).put CAM_U_CFG_TEN true 3).on CAM_U_CFG_TEN 3 = true ∧
    cxUp.on CAM_CX_CFG_EN 7 = true ∧ (cxUp.set CAM_CX_STAT_LINK 0 7).get CAM_CX_STAT_LINK 7 ≠ 2 ∧ smGet (fun _ => false) cxUp.domOff 4 = false ∧ cxUp.get CAM_CX_STAT_LINK 7 = 2 ∧
    (up 2).get CAM_CX_STAT_LINK 7 = 0 ∧ ((up 1).put CAM_CS_CFG_EN true 3).on CAM_CS_CFG_EN 3 = true ∧ (up 1).on CAM_CS_CFG_EN 3 = false ∧
    (({ (up 2).set GLB_UST_RUNSTATE 3 0x97 with causes := [(0x97, [2])] } : State).stallCauses (camUnit 7) = [2]) ∧ 2 ∉ (up 2).stallCauses (camUnit 7) ∧
    smGet (fun _ => []) (up 2).latched 0 = [] := by decide +kernel

theorem test_camera_sources :
    after (.cxDiscovery 7 true) (cxUp.set CAM_CX_STAT_LINK 0 7) (fun t => t.get CAM_CX_STAT_LINK 7 == 2) ∧
    after (.cxSyncLoss 7) cxUp (fun t => t.get CAM_CX_STAT_LINK 7 == 0 && t.get CAM_CX_ERR_LOSS 7 == 1 && !(t.on CAM_U_STAT_UP 3)) ∧
    after (.cxPacketRx 7 true false) cxUp (fun t => (t.cm 3).bad && t.get CAM_CX_ERR_CRC 7 == 1) ∧
    after (.camConfigWrite (BitVec.ofNat 14 (CAM_U_CFG.addr 3 + 0x24 - CAM_ISP_CFG.addr)) 9) (up 1) (fun t => t.rd (CAM_U_CFG.addr 3 + 0x24) == 9) ∧
    after (.camOverloadEnd 7) ({ (up 2).set GLB_UST_RUNSTATE 3 0x97 with causes := [(0x97, [2])] } : State) (fun t => t.get GLB_UST_RUNSTATE 0x97 == 1) ∧
    after (.camTrigPinEnd 7) ({ up 2 with camPin := [(7, true)] } : State) (fun t => t.camPin == []) := by decide +kernel

/-- CXC3 with triggers every pu on GK0, which stands at 2 pu. -/
def camTrigs : State := (((cxUp.put CAM_U_CFG_TEN true 3).set64 CAM_U_PITCH_FRAC (2 ^ 32) 3).set64 GEK_TRK_POS_LO 2 0)

/-- Camera port 3 enabled for CSC3, which is enabled and up. -/
def csUp : State := (((up 2).put CAM_CS_CFG_EN true 3).put CAM_U_CFG_EN true 7).put CAM_U_STAT_UP true 7

/-- A frame of SEQ 1 with no line. -/
def frame : CamFrame := ⟨1, false, 0, 0, 0, 0, 0, 0, 0, false, false, false, [], [], 0, 0, 0, 0, 0, none, 0⟩

/-- CameraTriggersLinesAndFrames: a trigger due and not, one delayed, an area trigger of a job, slots on both sides of their windows, packets of this and another channel,
frames ready and not. -/
theorem wit_camera_triggers :
    (camTrigs.elapse 0).camTrig 3 = true ∧ (camTrigs.elapse 0).camPitch 3 ≠ 0 ∧ (camTrigs.elapse 0).camCmp 3 ≤ (camTrigs.elapse 0).camFine 3 ∧ ((camTrigs.elapse 0).cm 3).delayed = none ∧
    ((camTrigs.elapse 0).cm 3).last = none ∧ ((camTrigs.elapse 0).cm 3).hwm = none ∧ (up 2).camTrig 3 = false ∧
    (((camTrigs.setCm 3 { Cam.empty with delayed := some 7, last := some (6, 0) }).cm 3).delayed = some 7 ∧ (camTrigs.setCm 3 { Cam.empty with delayed := some 7 }).camTrig 3 = true) ∧
    (let z := (((csUp.setCp 0 { Point.empty with job := some 0, rep := 10 }).set CAM_U_NAT_NAT 1 7)).elapse 0
     z.camOn 7 = true ∧ z.camArea 7 = true ∧ (0 : Fin 16).val < z.get CAM_U_NAT_NAT 7 ∧ z.camIndex 7 (z.camPos 7 - z.get CAM_U_AT_POS 7 0) = some 0 ∧
      smGet (fun _ => 0) (z.cm 7).atDone 0 = 0) ∧
    (let z := (cxUp.setCm 3 { Cam.empty with slots := [⟨4, 0, none, 0⟩] }).elapse 0
     (z.cm 3).slots = ⟨4, 0, none, 0⟩ :: [] ∧ z.camOn 3 = true ∧ z.on CAM_U_STAT_UP 3 = true ∧ z.camArea 3 = false) ∧
    (0 + 800 * ((cxUp.set CAM_U_LINEWIN_LINE_MIN 0 3).elapse 0).get CAM_U_LINEWIN_LINE_MIN 3 ≤ ((cxUp.set CAM_U_LINEWIN_LINE_MIN 0 3).elapse 0).clk) ∧
    ((cxUp.set CAM_U_LINEWIN_LINE_TMO 1 3).elapse 0).clk < 0 + 800 * ((cxUp.set CAM_U_LINEWIN_LINE_TMO 1 3).elapse 0).get CAM_U_LINEWIN_LINE_TMO 3 ∧
    (csUp.elapse 0).on CAM_CS_CFG_EN 3 = true ∧ (0 : BitVec 4).toNat = (csUp.elapse 0).get CAM_CS_CFG_VC 3 ∧ (1 : BitVec 4).toNat ≠ (csUp.elapse 0).get CAM_CS_CFG_VC 3 ∧
    (let z := (((csUp.setCm 7 { Cam.empty with frames := [frame] }).set CAM_U_SIZE_H 1 7).set CAM_CS_CFG_DT 42 3).put CAM_CS_STAT_IN_FRAME true 3 |>.elapse 0
     z.openFrame 7 = some frame ∧ frame.lines.length < z.get CAM_U_SIZE_H 7 ∧ (42 : BitVec 6).toNat = z.get CAM_CS_CFG_DT 3 ∧ z.on CAM_CS_STAT_IN_FRAME 3 = true) ∧
    ((up 2).elapse 0).ispLoad.ispPick = none ∧ (csUp.setCm 7 { Cam.empty with got := 1 }).ispLoad.ispPick = some 7 ∧
    csUp.frameReady 7 { frame with ended := true } = true ∧ csUp.frameReady 7 frame = false := by decide +kernel

theorem test_camera_triggers :
    after (.cameraTrigger 3 0) camTrigs (fun t => t.geti64 CAM_U_TCOUNT_LO 3 == 3 && t.camCmp 3 == 3 * 2 ^ 32 && (t.cm 3).slots.map (·.n) == [2]) ∧
    after (.cameraLineTimeout 3 900) ((cxUp.set CAM_U_LINEWIN_LINE_TMO 1 3).setCm 3 { Cam.empty with slots := [⟨4, 0, none, 0⟩] }) (fun t => (t.cm 3).slots.length == 0) ∧
    after (.csiFrameStart 3 0 0 0) csUp (fun t => t.on CAM_CS_STAT_IN_FRAME 3 && t.get CAM_U_SEQ 7 == 1 && (t.cm 7).frames.length == 1) ∧
    after (.csiFrameEnd 3 0 1 0) csUp (fun t => t.get CAM_CS_OTHER_PKTS 3 == 1) ∧
    after (.ispLine 0) (csUp.setCm 7 { Cam.empty with got := 1 }) (fun t => (t.cm 7).isp == 1) := by decide +kernel

/-- CSC3's settings set of one camera item, number 5, at 64. -/
def setUp : State :=
  ((((mem.st 64 (bytesOf 2 5 ++ bytesOf 2 1 ++ List.replicate 12 0 ++ [1, 4, 0, 0] ++ List.replicate 12 0))).set64 CAM_U_SET_LO 64 7))

/-- CameraControlAndSettingsSets: a command word of a kind the unit has and one it has not, a set that fits, one of NUM 0, one item and two. -/
theorem wit_camera_control :
    getBits (5 : Word) 0 1 = 1 ∧ (up 1).on CAM_U_CTRL_STAT_BUSY 7 = false ∧ camKind 7 (getBits (5 : Word) 2 2) = true ∧ camKind 7 (getBits (1 : Word) 2 2) = false ∧
    (((up 1).setCm 7 { Cam.empty with ctrl := some 5 }).cm 7).ctrl = some 5 ∧ ((up 1).cm 7).ctrl = none ∧ setUp.ldN 64 2 ≠ 0 ∧ setUp.ldN 66 2 ≤ 64 ∧
    setItemFits 7 (setUp.ldN 80 1, setUp.ldN 81 1, setUp.ldN 82 1, setUp.ldN 84 4, setUp.ldN 88 4) = true ∧ mem.ldN 0 2 = 0 ∧
    (let x : CamSet := ⟨5, [(1, 4, 0, 0, 0)], 0, none, none, none⟩
     ((((up 1).setCm 7 { Cam.empty with cset := some x }).elapse 0).cm 7).cset = some x ∧ x.tc = none ∧ x.sent + 1 = x.cams ∧
      ({ x with items := [(1, 4, 0, 0, 0), (1, 4, 0, 0, 0)] } : CamSet).sent + 1 ≠ ({ x with items := [(1, 4, 0, 0, 0), (1, 4, 0, 0, 0)] } : CamSet).cams) := by decide +kernel

theorem test_camera_control :
    after (.camCtrlGo 7 5) (up 1) (fun t => t.on CAM_U_CTRL_STAT_BUSY 7 && (t.cm 7).ctrl == some 5) ∧ after (.camCtrlGo 7 1) (up 1) (fun t => t.get CAM_U_CTRL_STAT_RESULT 7 == 3) ∧
    after (.camSetCommit 7) setUp (fun t => t.on CAM_U_SET_STAT_PENDING 7 && (t.cm 7).cset.isSome) ∧ after (.camSetCommit 7) mem (fun t => t.get CAM_U_SET_STAT_RESULT 7 == 2) ∧
    after (.camSetItemAck 7 false 0) ((up 1).setCm 7 { Cam.empty with cset := some ⟨5, [(1, 4, 0, 0, 0)], 0, none, none, none⟩ }) (fun t => (t.cm 7).cset.map (·.tc) == some (some t.clk)) ∧
    after (.camSetItemTimeout 7) ((up 1).setCm 7 { Cam.empty with cset := some ⟨5, [(1, 4, 0, 0, 0)], 0, none, none, none⟩ }) (fun t => (t.cm 7).unsure && t.get CAM_U_SET_STAT_RESULT 7 == 4) := by
  decide +kernel

/-! ### Colour (R314 to R338) -/

/-- Pixel engine 11 in RUN with the zone task of CXC3's stream 0, whose record 1 lies at 0xE40. -/
def tasked (kind : Nat) : State :=
  ((((({ mem with store := [(0xE40, 1), (0xE46, 3)] } : State).set ENG_STAT_STATE 2 27).set PIX_TASK_KIND kind 11).set PIX_TASK_UNIT 3 11).set CAM_U_REC_CFG_RDEPTH 2 3).set CAM_U_REC_CFG_RECSIZE 57 3

/-- ColourTasksAndCameraCalibration: an engine with the task and without, a record in its ring and none, a calibration that may start, runs, passes and fails. -/
theorem wit_colour_tasks :
    (tasked 1).get PIX_TASK_KIND 11 = 1 ∧ (tasked 1).engState (16 + 11) = 2 ∧ (up 1).get PIX_TASK_KIND 11 ≠ 1 ∧
    ((tasked 1).blkOf ((tasked 1).get PIX_TASK_UNIT 11) (1 : BitVec 32).toNat ((tasked 1).get PIX_TASK_STREAM 11)).isSome = true ∧
    (tasked 1).blkOf ((tasked 1).get PIX_TASK_UNIT 11) (2 : BitVec 32).toNat ((tasked 1).get PIX_TASK_STREAM 11) = none ∧ ((tasked 1).set PIX_ZR_CFG_DEPTH 1).get PIX_ZR_CFG_DEPTH ≠ 0 ∧
    (tasked 2).getA PIX_STRIP_CFG_LEN 0 = 0 ∧ getBits (1 : Word) 0 1 = 1 ∧ (up 6).on CHL_CAL_STAT_BUSY = false ∧ (up 6).mode = 6 ∧ (up 1).calRun = none ∧
    ((up 6).set CHL_CAL_MAXAGE_FLATLINES 1).get CHL_CAL_MAXAGE_FLATLINES ≠ 0 ∧ ([[16384, 65535, 20000]] : List Rgb).all (fun p => p.length == 3 && p.all fun y => Nat.ble 16384 y.toNat) = true := by decide +kernel

theorem test_colour_tasks :
    after (.zoneTask 11 1 true 9) (tasked 1) (fun t => t.get PIX_TASK_STAT_SKIP 11 == 1) ∧
    after (.zoneTask 11 2 false 9) (tasked 1) (fun t => t.get PIX_TASK_SEQ 11 == 2 && t.get PIX_TASK_STAT_TIME 11 == 9) ∧
    after (.calGo 0x19) (up 6) (fun t => t.on CHL_CAL_STAT_BUSY && (t.calRun.map (·.unit)) == some 3) ∧ after (.calGo 1) (up 2) (fun t => t.get CHL_CAL_STAT_RESULT == 4) ∧
    after .calAbort (up 6) (fun t => t.get CHL_CAL_STAT_RESULT == 6) := by decide +kernel

/-- Channel CH11 enabled in level 0. -/
def chan (m : Nat) : State := ((up m).put CHL_CTL_EN true).put CHL_CH_CTL_EN true 11

/-- ColourHoldCorrectsWithinItsLimits: SHADOW, no new record in IDLE and in PRINT, a channel off and on, a sheaf accepted and refused, strips judged. -/
theorem wit_colour_hold :
    (up 5).mode = 5 ∧ (chan 1).mode ∉ [0, 5] ∧ (chan 1).on MGT_STAT_RESTARTING = false ∧ (chan 1).get PIX_ZR_WR = (chan 1).chlRd ∧ (chan 1).on CHL_CTL_EN = true ∧
    (chan 1).on CHL_CH_CTL_EN 11 = true ∧ (chan 1).get GLB_COMPAT_LEVEL = 0 ∧ (chan 3).get GLB_UST_STATE (camUnit ((chan 3).get CHL_CH_CTL_UNIT 11)) ≠ 2 ∧
    (let h : Sheaf := ⟨5, 0, none, [], 0, 2, 0, 0, true⟩
     (up 3).sheafStatus (some h) 2 = 0 ∧ ({ up 3 with sheaves := [h, h, h, h] } : State).sheafStatus (some h) 2 ≠ 0) ∧
    ((up 3).set PIX_NC_CFG_DEPTH 1).get PIX_NC_CFG_DEPTH ≠ 0 ∧ ((up 3).set CHL_NH_CFG_NCONF 3).get CHL_NH_CFG_NCONF ≠ 0 ∧
    (let s := ((((((mem.set GLB_MODE_STAT_MODE 6).st 0 ([1, 0, 0, 0] ++ bytesOf 2 9 ++ List.replicate 10 0)).set PIX_NC_CFG_DEPTH 1).set PIX_NC_WR 1).put CHL_NH_CFG_EN true)).set CHL_NH_CFG_MAXCHG 8
     let h := s.ld (s.get64 PIX_NC_LO + 16 * (s.nhRd % s.get PIX_NC_CFG_DEPTH)) 16
     s.get PIX_NC_WR = s.nhRd + 1 ∧ fieldAt h 0 1 = 1 ∧ s.nhBad.contains (fieldAt h 1 1) = false ∧ s.on CHL_NH_CFG_EN = true ∧ s.mode = 6 ∧ s.get CHL_NH_CFG_MAXCHG < fieldAt h 4 2) := by
  decide +kernel

theorem test_colour_hold :
    after .chlJudge (chan 1) (fun t => t.get CHL_CH_STAT_STATE 11 == 4 && t.get CHL_CH_STAT_CAUSE 11 == 1 && t.get CHL_CH_STAT_STATE 0 == 0) ∧
    after .nhStripJudge (((((((mem.set GLB_MODE_STAT_MODE 6).st 0 ([1, 0, 0, 0] ++ bytesOf 2 9 ++ List.replicate 10 0)).set PIX_NC_CFG_DEPTH 1).set PIX_NC_WR 1).put CHL_NH_CFG_EN true)).set CHL_NH_CFG_MAXCHG 8)
      (fun t => t.get CHL_NH_STRIPS_SUSPECT == 1 && t.nhRd == 1) := by decide +kernel


/-! ### Illumination and video (R343 to R380) -/

/-- String 11 of group 7, enabled with a duty of 128, 1000 mA and 200 mΩ, in READY, its target known. -/
def lamp : State :=
  ((((((({ up 2 with swcTarget := some 500 } : State).put LS_CFG_EN true 11).set LS_CFG_GRP 7 11).set LS_DUTY_DUTY 128 11).set LS_ISET_ISET 1000 11).set LS_ISET_RSENSE 200 11).set
    SWC_CFG_VMAX 40).each (List.range 9) fun i s => s.set LMP_TC_GAIN 16384 0 i

/-- The same string lit since 0, and its group RUN. -/
def lampOn : State := { lamp.set LS_STAT_STATE 1 11 with lampLit := [(11, 1)], lampRun := [(7, true)] }

/-- LampStringsLightWithinTheirLimits: FREE and LOCK, MODE of the other kind, an unset string, a lit one, a group dark and one not, EN written from 0 and 1. -/
theorem wit_lamps :
    (lamp.elapse 0).lampMay 11 = true ∧ (lamp.elapse 0).on LS_CFG_MODE 11 = false ∧ (up 2).lampMay 11 = false ∧
    (∀ k < 12, (lamp.elapse 0).on LS_CFG_EN k = true → (lamp.elapse 0).get LS_CFG_GRP k = 7 → (lamp.elapse 0).get LS_STAT_STATE k < 2) ∧
    (lamp.elapse 0).stallCauses (grpUnit 7) = [] ∧ (lamp.elapse 0).get GLB_UST_RUNSTATE (grpUnit 7) ≠ 5 ∧
    (let z := ((lamp.put LS_CFG_MODE true 11).set LS_CFG_UNIT 3 11).put CAM_U_CFG_EN true 3 |>.elapse 0
     z.lampMay 11 = true ∧ z.on LS_CFG_MODE 11 = true ∧ z.camOn (z.get LS_CFG_UNIT 11) = true) ∧ (lamp.put LS_CFG_MODE true 11).camOn ((lamp.put LS_CFG_MODE true 11).get LS_CFG_UNIT 11) = false ∧
    lampOn.get LS_STAT_STATE 11 = 1 ∧ lamp.get LS_STAT_STATE 11 ≠ 1 ∧ (∃ k < 12, lampOn.on LS_CFG_EN k = true ∧ lampOn.get LS_CFG_GRP k = 7 ∧ lampOn.get LS_STAT_STATE k = 1) ∧
    (∀ k < 12, lamp.on LS_CFG_EN k = true → lamp.get LS_CFG_GRP k = 7 → lamp.get LS_STAT_STATE k = 0) ∧ (∃ k < 12, lamp.on LS_CFG_EN k = true ∧ lamp.get LS_CFG_GRP k = 7) ∧
    lamp.swcOvp = false ∧ lamp.on SWC_STAT_LATCHED = false ∧ lamp.stopped (grpUnit 7) = false ∧ (up 1).deaf = false := by decide +kernel

theorem test_lamps :
    after (.lampPeriodStart 11 0) lamp (fun t => t.get LS_STAT_STATE 11 == 1 && t.get LS_MEAS_I 11 == 1000 && !(t.on LS_STAT_CLAMP 11) && t.get GLB_UST_RUNSTATE 0x9F == 2) ∧
    after (.lampPeriodStart 11 0) (lamp.set LS_ISET_RSENSE 600 11) (fun t => t.get LS_MEAS_I 11 == 500 && t.on LS_STAT_CLAMP 11) ∧
    after (.lockPulseStart 11 0) (((lampOn.put LS_CFG_MODE true 11).set LS_CFG_UNIT 3 11).put CAM_U_CFG_EN true 3) (fun t => t.get LS_CNT_LOCK_SHORT 11 == 1) ∧
    after (.lampPulseEnd 11) lampOn (fun t => t.get LS_STAT_STATE 11 == 0 && t.lampLit == []) ∧
    after (.lampGroupDark 7) ({ lamp with lampRun := [(7, true)] } : State) (fun t => t.get GLB_UST_RUNSTATE 0x9F == 1) ∧
    after (.lsEnable 11 0x383) lamp (fun t => t.on LMP_STAT_CFG_ERR && t.rd (LS_CFG.addr 11) == lamp.rd (LS_CFG.addr 11)) ∧
    after (.lsConfigWrite 11 2 5) (up 2) (fun t => t.rd (LS_CFG.addr 11 + 8) == writeBits (LS_CFG.addr 11 + 8) 0 5) := by decide +kernel

/-- The string lit for 2 µs, HEADROOM of 100. -/
def warm : State := { lampOn.set SWC_CFG_HEADROOM 100 with clk := 1600 }

/-- LampFaultsAndTheSwitchingStage: a sample with nothing lit and with one string at the edges of the band, the target at VMAX, an overvoltage and its end. -/
theorem wit_lamp_faults :
    ((lamp.elapse 0).swcStart.swcTarget = some 500) ∧ (∀ k < 12, ¬((lamp.elapse 0).swcStart.get LS_STAT_STATE k = 1)) ∧ (up 2).swcTarget = none ∧
    (∀ k < 12, ((warm.elapse 0).swcStart.get LS_STAT_STATE k = 1 ∧ smGet (fun _ => 0) (warm.elapse 0).swcStart.lampLit k ≠ 0 ∧
      smGet (fun _ => 0) (warm.elapse 0).swcStart.lampLit k - 1 + 1600 ≤ (warm.elapse 0).swcStart.clk) ↔ k = 11) ∧
    ((warm.elapse 0).swcStart.get SWC_CFG_HEADROOM = 100 ∧ (warm.elapse 0).swcStart.swcHigh = none) ∧ (lampOn.put SWC_STAT_LIMIT true).on SWC_STAT_LIMIT = true ∧
    ({ lamp with swcOvp := true } : State).swcOvp = true ∧ (lamp.elapse 0).swcStart.swcOvp = false ∧ (lamp.put SWC_STAT_LATCHED true).on SWC_STAT_LATCHED = true := by decide +kernel

theorem test_lamp_faults :
    after (.headroomSample (List.replicate 11 0 ++ [99]) 5 0) warm (fun t => t.swcTarget == some 510 && t.get LS_STAT_VDS 11 == 99) ∧
    after (.headroomSample (List.replicate 11 0 ++ [130]) 5 0) warm (fun t => t.swcTarget == some 500 && t.swcHigh == none) ∧
    after (.headroomSample (List.replicate 11 0 ++ [131]) 5 0) ({ warm with swcHigh := some 0, clk := 800000 } : State) (fun t => t.swcTarget == some 499) ∧
    after (.lsOpen 11) lampOn (fun t => t.get LS_STAT_STATE 11 == 2 && t.stallCauses 0x9F == [1]) ∧ after (.lsShort 11) lampOn (fun t => t.get LS_CNT_SHORT 11 == 1) ∧
    after (.swcLimit 11) (lampOn.put SWC_STAT_LIMIT true) (fun t => t.on LS_STAT_DIM 11) ∧
    after (.swcOvp 0) ({ lampOn with swcOvps := [0, 0] } : State) (fun t => t.on SWC_STAT_LATCHED && t.get LS_STAT_STATE 11 == 0 && t.get SWC_STAT_OVP_CNT == 1) ∧
    after .swcSoftRestart ({ lamp with swcOvp := true } : State) (fun t => !t.swcOvp) ∧
    after (.swcCfgWrite 0) (lamp.put SWC_STAT_LATCHED true) (fun t => !(t.on SWC_STAT_LATCHED) && t.swcTarget == none) := by decide +kernel

/-- Chain 3 of two nodes with a swap due, engine 7 blinking on its node 1. -/
def chain : State :=
  { ((((((((((up 2).put SW_CFG_EN true 3).set SW_CFG_NODES 2 3).set PAT_CTL_KIND 1 7).set PAT_CTL_TARGET 3 7).set PAT_RANGE_FIRST 1 7).set PAT_RANGE_LAST 1 7).set PAT_TIME_PERIOD 2 7).set
      PAT_TIME_DUTY 128 7).set PAT_A_A 5 7).set SW_NODE_VALUE 9 3 1 0 with chainSwap := [(3, true)], patAt := [(7, 1)] }

/-- The lamp bus serves node 15, whose level is 7. -/
def bus : State := ((((up 2).put LB_CFG_EN true).put LB_NODE_CFG_EN true 15).set LB_LEVEL_LEVEL 7 15).set LB_CFG_POLL 1

/-- StatusChainsAndTheLampBus: a frame due and none, a node in an engine's range, a level changed and sent, in SAFE, a poll. -/
theorem wit_chains :
    (chain.elapse 0).on SW_CFG_EN 3 = true ∧ (chain.elapse 0).mode ≠ 0 ∧ (chain.elapse 0).get SW_CFG_NODES 3 ≠ 0 ∧ smGet (fun _ => false) (chain.elapse 0).chainSwap 3 = true ∧
    ((up 2).elapse 0).on SW_CFG_EN 3 = false ∧ (∀ e < 8, smGet (fun _ => 0) (up 2).patAt e = 0) ∧ smGet (fun _ => 0) (chain.elapse 0).patAt 7 ≠ 0 ∧
    (chain.elapse 0).get PAT_CTL_TARGET 7 = 3 ∧ (chain.elapse 0).get PAT_RANGE_FIRST 7 ≤ 1 ∧ 1 ≤ (chain.elapse 0).get PAT_RANGE_LAST 7 ∧ (chain.elapse 0).get PAT_CTL_KIND 7 = 1 ∧
    (bus.elapse 0).lbServes 15 = true ∧ smGet (fun _ => none) (bus.elapse 0).lbSent 15 ≠ some ((bus.elapse 0).lbLevel 15) ∧ (up 2).lbServes 15 = false ∧
    (({ bus.set GLB_MODE_STAT_MODE 7 with lbSafe := [15] } : State).mode = 7 ∧ 15 ∈ ({ bus with lbSafe := [15] } : State).lbSafe) ∧ bus.get LB_CFG_POLL ≠ 0 ∧ bus.mode ≠ 0 ∧ (up 2).on LB_CFG_EN = false := by
  decide +kernel

theorem test_chains :
    after (.swUpdate 3) (up 2) (fun t => t.chainSwap == [(3, true)]) ∧
    after (.chainFrameSend 3 0) chain (fun t => smGet (fun _ => []) t.chainOut 3 == [9, 5] && t.on SW_STAT_FRONT 3 && t.get SW_STAT_FRAMES 3 == 1) ∧
    after (.chainFrameSend 3 800000) chain (fun t => smGet (fun _ => []) t.chainOut 3 == [9, 0]) ∧
    after (.lbLevelWrite 15 true 0) bus (fun t => t.lbSent == [(15, some 7)]) ∧
    after (.lbLevelWrite 15 false 0) ({ bus with lbNak := [(15, 2)] } : State) (fun t => t.on LB_NODE_STAT_LOST 15 && t.get LB_NODE_STAT_NAKS 15 == 1) ∧
    after (.lbPoll 15 true 0xA5) bus (fun t => t.get LB_NODE_STAT_STATUS 15 == 0xA5) ∧ after (.lbBusStuck true) bus (fun t => onlyEv [] bus t) := by decide +kernel

/-- Submission `q` names context `c` with flags `f`, one waiting, the output ring of 256 bytes and a HARD_CAP of 4. -/
def coder (q c f : Nat) : State :=
  ((((up 2).setQu q { Queue.empty with fetched := [{ sub0 with flags := f, body := [BitVec.ofNat 32 c] }] }).set VID_ENC_CAP_HARD_CAP 4 7).set VID_ENC_OUT_SIZE_SIZE 256 7)

/-- A picture in progress. -/
def coding : State := { coder 50 7 0 with encRun := some ⟨3, 7, 2, 0, 0, 0, 0, [1, 2], 0, 0⟩ }

/-- A decoded picture of one line with an error. -/
def pic : DecPic := ⟨5, true, false, 16, [[1, 2]], [], [0], 1, false, false, false⟩

/-- CodecContextsEncodeAndDecode: submissions of an open context, of one with EN = 0, of context 8, one that finds the ring full, CLOSE; pictures to be output and none. -/
theorem wit_codec :
    (up 2).deaf = false ∧ ((up 2).put VID_ENC_CFG_EN true 7).on VID_ENC_CFG_EN 7 = true ∧ (up 2).on VID_DEC_CFG_EN 7 = false ∧ (coder 48 7 0).encRun = none ∧
    (coder 48 7 0).takeSub 48 = some ({ sub0 with flags := 0, body := [7] }, (coder 48 7 0).setQu 48 { Queue.empty with fetched := [] }) ∧ (up 2).takeSub 48 = none ∧
    subF32 { sub0 with flags := 0, body := [7] } 0x10 % 256 = 7 ∧ Sub.zeros { sub0 with flags := 0, body := [7] } = true ∧ bitN 4 2 = true ∧
    ((coder 48 7 0).set VID_ENC_OUT_WR_WR 253 7 |> fun s => s.get VID_ENC_OUT_SIZE_SIZE 7 < s.get VID_ENC_OUT_WR_WR 7 + s.hardCap 7) ∧ (coder 48 7 0).hardCap 7 ≤ 252 ∧
    coding.encRun = some ⟨3, 7, 2, 0, 0, 0, 0, [1, 2], 0, 0⟩ ∧ (∀ k < 8, ((coder 50 7 0).dc k).out = []) ∧ subF32 { sub0 with flags := 0, body := [7] } 0x20 = 0 ∧
    subF32 { sub0 with flags := 0, body := [7, 0, 0, 0, 9] } 0x20 ≠ 0 ∧ ((up 2).dc 7).held = [] ∧ ((up 2).dc 7).wait = false ∧ ((up 2).dc 7).mark = false ∧
    ((up 2).set VID_DEC_BUF_CFG_NBUF 1 7 |> fun s => ¬s.get VID_DEC_BUF_CFG_NBUF 7 ≤ ((s.dc 7).n + 2 ^ 32 - s.get VID_DEC_RD_RD 7) % 2 ^ 32) ∧
    (((up 2).setDc 7 { DecCtx.empty with out := [⟨1, 0, 0, pic⟩] }).dc 7).out = ⟨1, 0, 0, pic⟩ :: [] := by decide +kernel

theorem test_codec :
    after (.vidCfgWrite true 7 0 1) (up 2) (fun t => t.on VID_DEC_CFG_EN 7) ∧ after (.vidCfgWrite false 7 11 1) ((up 2).put VID_ENC_CFG_EN true 7) (fun t => t.on VID_STAT_CFG_ERR) ∧
    after (.encSubmit [] [1, 2, 3, 4, 5] 0) ((coder 48 7 0).put VID_ENC_CFG_EN true 7) (fun t => (t.encRun.map (·.bytes)) == some [1, 2, 3, 4] && (t.encRun.map (·.type)) == some 0) ∧
    after (.encSubmit [] [] 0) (((coder 48 7 0).put VID_ENC_CFG_EN true 7).set VID_ENC_OUT_WR_WR 253 7) (fun t => t.encStall && (t.qu 48).fetched.length == 1) ∧
    after .encPictureDone coding (fun t => t.get VID_ENC_OUT_WR_WR 7 == 2 && t.get VID_ENC_PICS_PICS == 1 && t.encLast == some (3, 7)) ∧
    after .encAbort coding (fun t => t.encRun == none && (t.ec 7).idr) ∧
    after (.decSubmit [pic] [0]) (((coder 50 7 0).setQu 50 { Queue.empty with fetched := [{ sub0 with flags := 0, body := [7, 0, 0, 0, 9] }] }).put VID_DEC_CFG_EN true 7)
      (fun t => (t.dc 7).mark && (t.dc 7).out.map (fun o => (o.pic.y, o.nconc)) == [([[128, 128]], 1)]) ∧
    after (.decPictureOut 7) (((up 2).set VID_DEC_BUF_CFG_NBUF 1 7).setDc 7 { DecCtx.empty with out := [⟨1, 1, 0, pic⟩] }) (fun t => t.get VID_DEC_CNT_CONC 7 == 1 && (t.dc 7).n == 1) ∧
    after .decAbort ((coder 50 7 0).setDc 6 { DecCtx.empty with out := [⟨1, 1, 0, pic⟩] }) (fun t => (t.dc 6).wait && (t.dc 7).wait && (t.qu 50).fetched.isEmpty) ∧
    after (.encOutRdWrite 7 9) (up 2) (fun t => t.get VID_ENC_OUT_RD_RD 7 == 9) ∧ after (.decRdWrite 7 9) (up 2) (fun t => t.get VID_DEC_RD_RD 7 == 9) := by decide +kernel

/-- The display on with HPD high, its registers applied, the link training to four lanes at 5.4 Gb/s. -/
def display : State := { ((up 2).put DP_STAT_HPD true).put DP_CFG_EN true with dpRegs := [1, 0, 594000, 0, 0, 0, 0] }

/-- DisplayPortLinkTrainsAndFits: EN written up and down, HPD high and low, a link of LINK 2, AUX of 16 bytes and of 17. -/
theorem wit_display :
    (up 2).on DP_CFG_EN = false ∧ display.on DP_CFG_EN = true ∧ bitN (display.dpReg 0).toNat 0 = true ∧ bitN ((up 2).dpReg 0).toNat 0 = false ∧ 2 ≤ (display.set DP_STAT_LINK 2).get DP_STAT_LINK ∧
    (up 2).on DP_AUX_STAT_BUSY = false ∧ getBits (0x81 : Word) 3 5 = 16 ∧ getBits (0x81 : Word) 0 1 = 1 ∧ 16 < getBits (0x89 : Word) 3 5 ∧
    ({ up 2 with auxCmd := some 0x81 } : State).auxCmd = some 0x81 ∧ (up 2).auxCmd = none := by decide +kernel

theorem test_display :
    after (.dpEnable 1 (some (2, 2))) (((up 2).put DP_STAT_HPD true).set DP_PCLK_PCLK 594000) (fun t => t.get DP_STAT_LINK == 2 && t.get DP_STAT_T_LANES == 2) ∧
    after (.dpHpdRise (some (0, 0))) display (fun t => t.get DP_STAT_LINK == 3) ∧ after (.dpHpdRise none) display (fun t => t.get DP_STAT_LINK == 0) ∧
    after (.dpLinkDown false none) (display.set DP_STAT_LINK 2) (fun t => t.get DP_STAT_DOWNS == 1 && t.get DP_STAT_LINK == 0 && !(t.on DP_STAT_HPD)) ∧
    after (.dpAuxGo 0x81) (up 2) (fun t => t.on DP_AUX_STAT_BUSY && t.auxCmd == some 0x81) ∧ after (.dpAuxGo 0x89) (up 2) (fun t => t.auxCmd == none) ∧
    after (.dpAuxDone 0 [1, 2, 3, 4, 5]) ({ up 2 with auxCmd := some 0x29 } : State) (fun t => t.rd (DP_AUX_DATA.addr 1) == 5 && t.get DP_AUX_STAT_RESULT == 0) := by decide +kernel

/-! ### Network time (R381 to R394) -/

/-- Both ports up, the transparent clock on Layer 2 in peer-to-peer mode, PDELAY of N0 48.3 ns, ING_LAT 112.5 ns, EGR_LAT of N1 84 ns (the worked example of 14_time). -/
def net : State :=
  ((((((((((up 1).put TIM_NET_CFG_EN true 0).put TIM_NET_STAT_LOCK true 0).put TIM_NET_CFG_EN true 1).put TIM_NET_STAT_LOCK true 1).put TIM_CTL_TC_EN true).put TIM_CTL_P2P true).set
    TIM_CTL_TRANSPORT 0).set TIM_PDELAY_PDELAY 3165389 0).seti TIM_ING_LAT_ING_LAT 7372800 0).seti TIM_EGR_LAT_EGR_LAT 5505024 1

/-- A Sync of 60 bytes to the PTP group address from source 2. -/
def sync : List Byte := [1, 0x1B, 0x19, 0, 0, 0, 0, 0, 0, 0, 0, 2, 0x88, 0xF7, 0] ++ List.replicate 45 0

/-- TheSwitchForwardsAndTheTransparentClockCorrects: ports up and down, frames of 60 bytes and of 59, bad and good, an event message, block lock gained and lost. -/
theorem wit_switch :
    net.portUp 0 = true ∧ (up 1).portUp 0 = false ∧ sync.length = 60 ∧ (sync.drop 1).length < 60 ∧ 9212 < (List.replicate 9213 (0 : Byte)).length ∧ beNum sync 6 1 % 2 = 0 ∧
    net.tim.macTab.length < 1024 ∧ net.on TIM_CTL_TC_EN = true ∧ net.ptpAt sync = some (14, none) ∧ (up 1).on TIM_CTL_TC_EN = false ∧ net.ptpAt (sync.drop 1) = none ∧
    (net.set TIM_CTL_TRANSPORT 1).ptpAt (([1, 2, 3, 4, 5, 6, 6, 5, 4, 3, 2, 1, 8, 0, 0x45] : List Byte) ++ List.replicate 8 0 ++ [17] ++ List.replicate 12 0 ++ [1, 0x3F] ++ List.replicate 42 0) = some (42, some 40) ∧
    ((up 1).put TIM_NET_CFG_EN true 1).on TIM_NET_CFG_EN 1 = true ∧ ((up 1).put TIM_NET_CFG_EN true 1).on TIM_NET_STAT_LOCK 1 = false ∧ net.on TIM_NET_STAT_LOCK 1 = true := by decide +kernel

theorem test_switch :
    after (.netFrameRx 0 sync true true 65536000000 [0, 65563053261]) net (fun t => (smGet (fun _ => []) t.tim.netOut 1).drop 22 == [0, 0, 0, 0, 2, 0x91, 0x99, 0x9A] ++ List.replicate 30 0 &&
      t.tim.macTab == [(2, 1)] && t.get TIM_CNT_TX_FRAMES 1 == 1 && t.get TIM_CNT_TX_FRAMES 0 == 0) ∧
    after (.netFrameRx 0 sync false true 0 []) net (fun t => t.get TIM_CNT_ERR_FCS 0 == 1 && t.get TIM_CNT_RX_FRAMES 0 == 1 && t.tim.netOut == []) ∧
    after (.netFrameRx 0 sync true false 0 []) net (fun t => t.get TIM_CNT_ERR_DROP 0 == 1) ∧
    after (.macAgeOut 2) ({ up 1 with tim := { TimSt.empty with macTab := [(2, 1)] } } : State) (fun t => t.tim.macTab == []) ∧
    after (.netLinkUp 1) ((up 1).put TIM_NET_CFG_EN true 1) (fun t => t.on TIM_NET_STAT_LOCK 1) ∧ after (.netLinkDown 1) net (fun t => !(t.on TIM_NET_STAT_LOCK 1)) := by decide +kernel

/-- A slave in domain 0 with a master of source 5 at N1, `got` offsets gathered, the servo in `v`; SLEW_MAX 100 ppm, STEP_TH 10 ns. -/
def slave (v got : Nat) : State :=
  { ((((net.put TIM_CTL_OC_EN true).put TIM_CTL_SLAVE_ONLY true).set TIM_STAT_SERVO v).set TIM_SERVO_SLEW_MAX 100).set TIM_STEP_TH 10 with
    tim := { TimSt.empty with ptpMaster := some ⟨5, 1, 9, 0⟩, ptpGot := got, ptpTx := [(6, 0)] } }

/-- Output 7 on schedule, its edge due at 1,000 ns and START at 0. -/
def pulse : State :=
  (((((up 1).set TPO_CFG_SRC 1 7).set TPO_WIDTH 100 7).set TPO_PERIOD 1000 7).setTp 7 ⟨some 1000, none, false⟩)

/-- TheClockItsServoAndTimePulses: a message taken and not, each state of the servo, an offset of 0 and one beyond STEP_TH, a master lost, writes in IDLE and READY, an edge and a fall due. -/
theorem wit_time :
    (up 1).nsFrac < 25 * 2 ^ 48 ∧ (up 1).netAcc < 256 ∧ |(up 1).geti64 TIM_ADJ_LO| ≤ 2 ^ 48 / 1000 ∧
    ((slave 1 15).on TIM_CTL_OC_EN = true ∧ (slave 1 15).portUp 1 = true ∧ (slave 1 15).get TIM_CTL_DOMAIN = (0 : Byte).toNat ∧ (slave 1 15).mode ≠ 0 ∧
      (slave 1 15).on MGT_STAT_RESTARTING = false ∧ (slave 1 15).on TIM_CTL_SLAVE_ONLY = true) ∧ (up 1).on TIM_CTL_OC_EN = false ∧
    (slave 1 15).tim.ptpMaster = some ⟨5, 1, 9, 0⟩ ∧ (up 1).tim.ptpMaster = none ∧ (slave 1 15).get TIM_STAT_SERVO = 1 ∧ (slave 2 0).get TIM_STAT_SERVO = 2 ∧ (slave 3 0).get TIM_STAT_SERVO = 3 ∧
    (slave 1 14).tim.ptpGot < 15 ∧ (slave 1 15).tim.ptpStepOk = true ∧ ((slave 1 15).get TIM_STEP_TH : Int) * 65536 < (655361 : Int).natAbs ∧
    smLook (slave 2 0).tim.ptpTx (4 * 1 + 2) = some 0 ∧ (slave 1 0).on TIM_CTL_P2P = true ∧ (up 2).mode ∉ [1, 6] ∧ smGet (fun _ => []) (up 1).latched 0 = [] ∧
    pulse.get TPO_CFG_SRC 7 = 1 ∧ pulse.mode ≠ 0 ∧ (pulse.tp 7).next = some 1000 ∧ (pulse.tp 7).fall = none ∧
    ((pulse.setTp 7 ⟨some 1000, some 999, true⟩).tp 7).fall = some 999 ∧ pulse.tpoNext 7 1000 = some 2000 ∧ (up 1).on TPO_CFG_ARM 7 = false ∧ (up 1).nowNs ≤ (up 1).tpoStart 7 := by decide +kernel

theorem test_clock :
    after .nsWrap ((up 1).set TIM_NS 0xFFFFFFFF) (fun t => t.get TIM_EPOCH_SEC == 4 && t.get TIM_EPOCH_NS_NS == 294967296 && t.get TIM_NS < 3) ∧
    after (.ptpMessageRx 1 0 (.announce ⟨5, 9, 0, 0, 0, 0⟩)) ({ slave 3 0 with tim := TimSt.empty } : State) (fun t => t.get TIM_STAT_SERVO == 1 && t.get64 TIM_GM_ID_LO == 9) ∧
    after (.ptpMessageRx 1 0 (.sync 5 0 0 655361 7)) (slave 1 15) (fun t => t.get TIM_STAT_SERVO == 2 && t.on TIM_STAT_STEPPED && t.get64 TIM_ADJ_LO == 7) ∧
    after (.ptpMessageRx 1 0 (.sync 5 0 0 3 (2 ^ 48))) (slave 2 0) (fun t => t.geti64 TIM_OFFSET_LO == 3 && t.geti64 TIM_ADJ_LO == 100 * 2 ^ 48 / 1000000) ∧
    after (.ptpMessageRx 1 0 (.pdelayResp 10 20 0 110)) (slave 2 0) (fun t => t.get TIM_PDELAY_PDELAY 1 == 50) ∧
    after (.ptpMessageSend 1 2) (slave 2 0) (fun t => t.get TIM_CNT_TX_FRAMES 1 == 1 && smLook t.tim.ptpTx 6 == some 5505024) ∧
    after .announceTimeout (slave 2 0) (fun t => t.get TIM_STAT_SERVO == 3 && t.get TIM_STAT_HOLDOVERS == 1) ∧
    after .timRelock ((up 1).put TIM_STAT_STEPPED true) (fun t => !(t.on TIM_STAT_STEPPED) && t.tim.ptpStepOk) ∧
    after (.timAdjWrite true 5) (up 1) (fun t => t.rd (TIM_ADJ_LO.addr + 4) == 5) ∧ after (.timConfigWrite none 1) (up 2) (fun t => t.on TIM_STAT_CFG_ERR) ∧
    after (.timConfigWrite (some 1) 0) net (fun t => !(t.on TIM_NET_STAT_LOCK 1)) ∧ after (.timeReadLatch false) (up 1) (fun t => (smGet (fun _ => []) t.latched 0).length == 2) ∧
    after (.tpoEdge 7) pulse (fun t => t.tp 7 == ⟨some 2000, some 1100, true⟩ && t.get TPO_STAT_PULSES 7 == 1) ∧
    after (.tpoEdge 7) (pulse.setTp 7 ⟨some 1000, some 999, true⟩) (fun t => t.tp 7 == ⟨some 1000, none, false⟩) ∧
    after (.tpoArm 7 9) ((up 1).set TPO_START_NS_START 5 7) (fun t => (t.tp 7).next == some 5) := by decide +kernel

/-! ### Twin operation (R396 to R413, R429) -/

/-- A standby in SHADOW with the link UP, the partner in PRINT by its last image. -/
def shadow : State :=
  { (((up 5).put TWN_CFG_EN true).set TWN_STAT_LINK 3).set TWN_CFG_CYCLE 1 with twn := { TwnSt.empty with twnPress := some ⟨3, 0, none, 0⟩, twnJoin := 2 } }

/-- The active unit in PRINT. -/
def active : State := ((((up 3).put TWN_CFG_EN true).set TWN_STAT_LINK 3).put TWN_STAT_ACTIVE true).set TWN_CFG_CYCLE 1

/-- TwinHeartbeatsTakeOversAndTheLink: EN 0 and 1, a slot missed and not, the third and the fourth, SAFE of the partner, each state of the link, contention, a switch-over granted and refused. -/
theorem wit_twin :
    (up 3).on TWN_CFG_EN = false ∧ active.on TWN_CFG_EN = true ∧ active.get TWN_STAT_LINK = 3 ∧ active.mode = 3 ∧ (shadow.on TWN_CFG_EN = true ∧ shadow.on TWN_STAT_ACTIVE = false ∧ shadow.mode = 5 ∧
      shadow.twn.twnPress = some ⟨3, 0, none, 0⟩) ∧ (shadow.put TWN_CFG_SAFE_TAKE true).on TWN_CFG_SAFE_TAKE = true ∧
    ((shadow.put TWN_CFG_AUTO_TAKE true).set TWN_HB_MISS_RUN 3 |> fun s => s.on TWN_CFG_AUTO_TAKE = true ∧ min (s.get TWN_HB_MISS_RUN + 1) 255 = 4) ∧ shadow.twn.hbSeen = false ∧
    (shadow.set TWN_STAT_LINK 0).get TWN_STAT_LINK = 0 ∧ (shadow.set TWN_STAT_LINK 1).get TWN_STAT_LINK = 1 ∧ b2n false = active.get TWN_STAT_ROLE ∧ b2n true ≠ active.get TWN_STAT_ROLE ∧
    (active.put TWN_STAT_PARTNER_READY true).on TWN_STAT_PARTNER_READY = true ∧ active.twn.twnSwitch = false ∧ ({ active with twn := { TwnSt.empty with twnSwitch := true } } : State).twn.twnSwitch = true ∧
    active.stagedBars = [] ∧ shadow.stagedBars = [] ∧ (active.set TWN_CFG_AGE_H 1).standbyHours ≤ (active.set TWN_CFG_AGE_H 1).get TWN_CFG_AGE_H ∧
    ({ shadow.set TWN_CFG_AGE_H 1 with clk := 7200 * 800000000 } : State).get TWN_CFG_AGE_H < ({ shadow.set TWN_CFG_AGE_H 1 with clk := 7200 * 800000000 } : State).standbyHours := by decide +kernel

theorem test_twin :
    after .hbSend active (fun t => t.get TWN_HB_SEQ_TX == 1 && t.twn.alivePin) ∧
    after (.hbRx 9 7 true []) (shadow.put TWN_CFG_SAFE_TAKE true) (fun t => t.mode == 3 && t.get TWN_LAST_CAUSE == 1 && t.on TWN_STAT_ACTIVE && t.get TWN_STAT_PMODE == 7) ∧
    after (.hbSlotEnd false true) ((shadow.put TWN_CFG_AUTO_TAKE true).set TWN_HB_MISS_RUN 2) (fun t => t.mode == 5 && t.get TWN_HB_MISS_RUN == 3) ∧
    after (.hbSlotEnd false true) ((shadow.put TWN_CFG_AUTO_TAKE true).set TWN_HB_MISS_RUN 3) (fun t => t.mode == 3 && t.get TWN_TAKEOVERS_TAKE == 1 && t.on TWN_LAST_STALE) ∧
    after .twinLinkTrain (shadow.set TWN_STAT_LINK 0) (fun t => t.get TWN_STAT_LINK == 1) ∧ after (.twinLaneAlign 3) (shadow.set TWN_STAT_LINK 1) (fun t => t.get TWN_LINK_SKEW == 3) ∧
    after (.twinHelloRx 1 true) (active.set TWN_STAT_LINK 2) (fun t => t.get TWN_STAT_LINK == 3) ∧ after (.twinLaneLoss 3) active (fun t => t.get TWN_STAT_LINK == 0 && t.get TWN_LINK_DOWNS == 1) ∧
    after .twinRetrain active (fun t => t.get TWN_STAT_LINK == 1) ∧ after .twinContention active (fun t => t.mode == 7 && !(t.on TWN_STAT_ACTIVE)) ∧
    after (.twinSwitch none []) (active.put TWN_STAT_PARTNER_READY true) (fun t => t.twn.twnSwitch && t.get TWN_SWITCH_STAT_RESULT == 1) ∧ after (.twinSwitch none []) active (fun t => t.get TWN_SWITCH_STAT_RESULT == 2) ∧
    after (.switchRx true) ({ active with twn := { TwnSt.empty with twnSwitch := true } } : State) (fun t => t.mode == 5) ∧
    after (.switchRx false) shadow (fun t => t.mode == 3 && t.get TWN_TAKEOVERS_SWITCH == 1) ∧
    after (.twnConfigWrite 0 1) (up 1) (fun t => t.on TWN_CFG_EN && t.get TWN_STAT_LINK == 1) ∧ after (.twnConfigWrite 5 1) (up 2) (fun t => t.on TWN_STAT_CFG_ERR) := by decide +kernel

/-- A copy image of CYCLE 7 in PRINT. -/
def image : CopyImg := ⟨7, 0, 3, false, 0, none, [], [], 0xA5, 64, [], [], [], [], [], [], [], [], []⟩

/-- StateCopiesJoinsAndTwinMessages: a cycle of the active unit, an image at the standby, one acknowledged and one not, a JOIN image, messages of no byte, of one and of 4,097, with room and none. -/
theorem wit_copies :
    (active.on TWN_STAT_ACTIVE = true ∧ active.get TWN_CFG_CYCLE ≠ 0 ∧ active.mode = 3) ∧ (shadow.mode = 5 ∧ shadow.on TWN_STAT_ACTIVE = false) ∧ (∀ x ∈ image.nzt, x.1 < 1572864) ∧
    ({ active with twn := { TwnSt.empty with copyWait := [(7, 0, 0, 0, 0)] } } : State).twn.copyWait = (7, 0, 0, 0, 0) :: [] ∧ (∀ x ∈ active.twn.copyWait, x.1 ≠ 7) ∧
    shadow.twn.twnStale = false ∧ shadow.twn.twnJoin ≠ 0 ∧ ([(1572863, (5 : Word))].map fun x => x.1).Nodup ∧
    (active.setQu 60 { Queue.empty with fetched := [{ sub0 with body := [0, 0, 0, 0, 1] }] }).takeSub 60 ≠ none ∧ subF32 { sub0 with body := [0, 0, 0, 0, 1] } 0x20 = 1 ∧
    4096 < subF32 { sub0 with body := [0, 0, 0, 0, 4097] } 0x20 ∧ subF32 sub0 0x20 = 0 ∧
    (((active.put HIF_Q_CFG_EN true 63).put HIF_Q_STAT_ACTIVE true 63).put HIF_STAT_LINK true |> fun s => s.qRoom 63 = true ∧ s.qUsed 63 < 16) ∧ active.qRoom 63 = false := by decide +kernel

theorem test_copies :
    after (.copySnapshot false none []) active (fun t => t.get TWN_COPY_TX_CYCLE == 1 && t.twn.copyHalf && t.twn.copyWait.length == 1) ∧ after (.copySnapshot true none []) active (fun t => t.get TWN_CNT_COPY_LATE == 1) ∧
    after (.copyImageRx none 0) shadow (fun t => t.get TWN_CNT_COPY_BAD == 1) ∧
    after (.copyImageRx (some image) 3) shadow (fun t => t.get TWN_COPY_RX_CYCLE == 7 && t.rd SEQ_GIO_OUT.addr == 0xA5 && t.rd SEQ_REJ_WR.addr == 64 && t.twn.twnJoin == 3) ∧
    after (.copyAckRx 7) ({ active with twn := { TwnSt.empty with copyWait := [(7, 0, 0, 0, 4)] } } : State) (fun t => t.twn.copyWait == [] && t.twn.copyRej == 4) ∧
    after .twinCopyStale (shadow.put TWN_STAT_SB_READY true) (fun t => !(t.on TWN_STAT_SB_READY) && t.get TWN_CNT_COPY_STALE == 1) ∧
    after (.joinImageRx ⟨[(1572863, 5)], [(11, 64)], []⟩) shadow (fun t => t.nzRead 1572863 == 5 && t.get64 CHL_CH_CUR_LO 11 == 64) ∧
    after (.twinMsgSend 0) (active.setQu 60 { Queue.empty with fetched := [{ sub0 with body := [0, 0, 0, 0, 4097] }] }) (fun t => t.get HIF_Q_STAT_LOST 60 == 1) ∧
    after (.twinMsgRx 1 [7]) (((active.put HIF_Q_CFG_EN true 63).put HIF_Q_STAT_ACTIVE true 63).put HIF_STAT_LINK true) (fun t => t.get HIF_Q_PI 63 == 1 && (t.qu 63).ring.length == 1) := by decide +kernel

/-! ### Boot (R443 to R450, R454, R463): a signed image, a calibration copy and a training record in SPI NOR -/

/-- An image of one payload byte, KEY 0, SEQ 3, SVN 3, with a signature that verifies. -/
def imageBytes : List Nat :=
  bytesOf 513 0x62f37393000000000000000000000000000000000000000000000000000000000000000000000000000000000000000000000000000000000000000000000000000000000000000000000000000000000000000000000000000000000000000000000000000000000000000000000000000000000000000000000000000000000000000000000000000000000000000000000000000000000000000000000000000000000000000000000000000000000000000000000000000000000000000000000000000000000000000000000000000000000000000000000000000000000000000000000000000000000000000000000000000000009f4097648ea006ad5b277ee7573157e9b0d264d20f52d5c3ff803071af05fe90bc94af511438dd227d6781b27d525e8f74339ee04893adf5ab3ca3879d51964d6f266f1dbe8a4f3015b47cef220c7dc9e04a8fd5c6b5cefbb9b12b0fe1cb8459d5cb740525439d2ab67a7bbe767c4d7b1fc7dbf2523c83e417ec7812514a1c1d7bec68e3104fc251638f0272300865c6d5cb740525439d2ab67a7bbe767c4d7b1fc7dbf2523c83e417ec7812514a1c1d7bec68e3104fc251638f0272300865c61717a108c2a91768966534412bec33596536663de1860d5f4ee206d2bda9d3837030b4c212e0349106e368f3b421c0be000000000000000100000003000000030000000131574647

/-- SPI NOR: the image in slot 0; copy A of the calibration store and of the training store, whose bytes from 12 and 24 on are erased but for the CRC. -/
def norWords : SMap Byte :=
  (List.range 513).zip (imageBytes.map (BitVec.ofNat 8)) ++
    (List.range 12).map (fun i => (0x3000000 + i, ([67, 65, 76, 83, 1, 0, 0, 0, 3, 129, 9, 41] : List Byte).getD i 0)) ++
    (List.range 4).map (fun i => (0x33FFFFC + i, ([63, 2, 47, 73] : List Byte).getD i 0)) ++
    (List.range 24).map (fun i => (0x3800000 + i, ([84, 82, 78, 71, 1, 0, 255, 255, 255, 255, 255, 255, 255, 255, 255, 255, 200, 0, 255, 255, 212, 20, 122, 105] : List Byte).getD i 0)) ++
    (List.range 4).map fun i => (0x3806020 + i, ([63, 2, 47, 73] : List Byte).getD i 0)

/-- A start of a kind whose firmware has reported ready, from that SPI NOR with key 0 fused. -/
def booting (kind : Nat) : State :=
  { State.reset with
    regs := [(GLB_DIE_ID_LO.addr, -1), (GLB_DIE_ID_HI.addr, -1)], nor := norWords,
    mgt := { MgtSt.empty with
      start := some ⟨kind, 2, true, []⟩,
      fuseKey := [(0, bytesOf 48 0xbee95cf223cafaeb5e628d7e7e6da14472f547101466e8fe3c032ecab4bfa8351af60252cc2ae12294865aa9b1228c2)] } }

theorem wit_valid_slot : (booting 1).slotValid 0 = true ∧ (booting 1).bootSlot [] = some 0 ∧ (booting 1).bootSlot [0] = none := by decide +kernel

theorem wit_bootSlot_kind (k : Nat) (t : List Nat) : (booting k).bootSlot t = (booting 1).bootSlot t := rfl

/-- The checks of a slot depend on SPI NOR and the fuses alone. -/
theorem slotValid_same (s t : State) (k : Nat) (hn : s.nor = t.nor) (hl : s.mgt.logRing = t.mgt.logRing) (hk : s.mgt.fuseKey = t.mgt.fuseKey)
    (hr : s.mgt.fuseRev = t.mgt.fuseRev) (hv : s.mgt.fuseSvn = t.mgt.fuseSvn) : s.slotValid k = t.slotValid k := by
  have h : s.norLd = t.norLd := by
    funext a n
    simp only [State.norLd, State.norByte, hn, hl]
  unfold State.slotValid State.slotHdr
  rw [h, hk, hr, hv]

/-! Bytes read from SPI NOR, in parts. -/

theorem map_range_part (f : Nat → Nat) (l o n : Nat) (h : o + n ≤ l) : (((List.range l).map f).drop o).take n = (List.range n).map fun i => f (o + i) := by
  apply List.ext_getElem
  · simp; omega
  · intro i h1 h2
    simp [List.getElem_take, List.getElem_drop]

theorem norLd_part (s : State) (a l o n : Nat) (h : o + n ≤ l) : ((s.norLd a l).drop o).take n = s.norLd (a + o) n := by
  unfold State.norLd
  rw [map_range_part _ l o n h]
  simp [Nat.add_assoc]

theorem norLd_take (s : State) (a l n : Nat) (h : n ≤ l) : (s.norLd a l).take n = s.norLd a n := by
  simpa using norLd_part s a l 0 n (by omega)

theorem norLd_append (s : State) (a m n : Nat) : s.norLd a (m + n) = s.norLd a m ++ s.norLd (a + m) n := by
  simp [State.norLd, List.range_add, Function.comp_def, Nat.add_assoc]

theorem smLook_absent {β : Type} (m : SMap β) (k : Nat) (h : ∀ e ∈ m, e.1 ≠ k) : smLook m k = none := by
  induction m with
  | nil => rfl
  | cons e r ih => simp [smLook, h e (by simp), ih fun x hx => h x (by simp [hx])]

/-- No byte is listed from 12 on in the calibration copy, or from 24 on in the training record, but the CRC of each. -/
theorem norWords_gaps : norWords.all (fun e => decide (e.1 < 0x300000C) || (decide (0x33FFFFC ≤ e.1) && decide (e.1 < 0x3800018)) || decide (0x3806020 ≤ e.1)) = true := by
  decide +kernel

theorem norLd_gap (s : State) (a n : Nat) (hs : s.nor = norWords)
    (h : 0x300000C ≤ a ∧ a + n ≤ 0x33FFFFC ∨ 0x3800018 ≤ a ∧ a + n ≤ 0x3806020) : s.norLd a n = List.replicate n 255 := by
  apply List.ext_getElem
  · simp [State.norLd]
  · intro i h1 h2
    have hi : i < n := by simpa [State.norLd] using h1
    have hn : smLook norWords (a + i) = none := by
      apply smLook_absent
      intro e he
      have := List.all_eq_true.mp norWords_gaps e he
      simp only [Bool.or_eq_true, Bool.and_eq_true, decide_eq_true_eq] at this
      omega
    simp only [State.norLd, List.getElem_map, List.getElem_range, List.getElem_replicate, State.norByte]
    rw [if_neg (by simp [norLog]; omega), hs, smGet, hn]
    rfl

theorem crc_tail (n : Nat) : (List.replicate n 255).foldl crc32Byte 0xB6D0FDC0 = 0xB6D0FDC0 := by
  induction n with
  | zero => rfl
  | succ n ih => rw [List.replicate_succ, List.foldl_cons, show crc32Byte 0xB6D0FDC0 255 = 0xB6D0FDC0 by decide +kernel, ih]

/-- The CRC of a copy whose bytes bring the register to the value that an erased byte leaves as it is. -/
theorem crc_copy (s : State) (a p n : Nat) (hs : s.nor = norWords) (hp : (s.norLd a p).foldl crc32Byte 0xFFFFFFFF = 0xB6D0FDC0)
    (h : 0x300000C ≤ a + p ∧ a + p + n ≤ 0x33FFFFC ∨ 0x3800018 ≤ a + p ∧ a + p + n ≤ 0x3806020) : crc32 (s.norLd a (p + n)) = 0x492F023F := by
  rw [crc32, norLd_append, List.foldl_append, hp, norLd_gap s (a + p) n hs h, crc_tail]
  decide

theorem norLd_same (s : State) (a n : Nat) (hs : s.nor = norWords) (h : a + n ≤ norLog) : s.norLd a n = (booting 1).norLd a n := by
  apply List.map_congr_left
  intro i hi
  have : i < n := by simpa using hi
  simp only [State.norByte]
  rw [if_neg (by omega), if_neg (by omega), hs]
  rfl

/-- Copy A of the calibration store is valid and in force, and its board record begins with 0xFF. -/
theorem cal_copy (s : State) (hs : s.nor = norWords) : ∃ c, s.calRead = some c ∧ c.board.getD 0 0 = 255 := by
  have h8 : s.norLd 0x3000000 8 = (booting 1).norLd 0x3000000 8 := norLd_same s _ _ hs (by decide)
  have h1 : s.calCopy 1 = none := by
    have h : s.norLd (calAt 1) 8 = (booting 1).norLd (calAt 1) 8 := norLd_same s _ _ hs (by decide)
    unfold State.calCopy
    rw [h, if_pos]
    decide +kernel
  have hc : fieldAt (s.norLd 0x3000000 0x400000) 0x3FFFFC 4 = crc32 ((s.norLd 0x3000000 0x400000).take 0x3FFFFC) := by
    rw [norLd_take _ _ _ _ (by omega), fieldAt, norLd_part _ _ _ _ _ (by omega), norLd_same s _ _ hs (by decide),
      show (0x3FFFFC : Nat) = 12 + 0x3FFFF0 from rfl, crc_copy s _ _ _ hs ?_ (by omega)]
    · decide +kernel
    · rw [norLd_same s _ _ hs (by decide)]
      decide +kernel
  have hb : ((s.norLd 0x3000000 0x400000).drop 0x18).take 64 = List.replicate 64 255 := by
    rw [norLd_part _ _ _ _ _ (by omega)]
    exact norLd_gap s _ _ hs (by omega)
  have h0 : ∃ c, s.calCopy 0 = some c ∧ c.board.getD 0 0 = 255 := by
    unfold State.calCopy
    rw [show calAt 0 = 0x3000000 from rfl, h8, if_neg (by decide +kernel)]
    simp only []
    rw [if_pos hc]
    refine ⟨_, rfl, ?_⟩
    rw [hb]
    rfl
  obtain ⟨c, h0, hbd⟩ := h0
  refine ⟨c, ?_, hbd⟩
  simp [State.calRead, State.calCur, h0, h1, inForce]

theorem inForce_left (w a : Nat) : inForce w (some a) none = some 0 := rfl

theorem trainRead_left (s : State) (b : List Nat) (h1 : s.trainCopy 1 = none) (h0 : s.trainCopy 0 = some b) : s.trainRead = some b := by
  have h : s.trainCur = some 0 := by
    unfold State.trainCur
    rw [h0, h1]
    exact inForce_left 16 _
  unfold State.trainRead
  rw [h]
  exact h0

/-- Copy A of the training store is valid and in force, with MEM_CFG 0xFF, a DIE_ID of ones and a TDIE of 25 °C. -/
theorem train_copy (s : State) (hs : s.nor = norWords) :
    ∃ b, s.trainRead = some b ∧ fieldAt b 8 8 = 2 ^ 64 - 1 ∧ fieldAt b 6 1 = 255 ∧ fieldInt b 0x10 2 = 200 := by
  have h1 : s.trainCopy 1 = none := by
    have h : (s.norLd (trainAt 1) trainLen).take 4 = (booting 1).norLd (trainAt 1) 4 := by
      rw [norLd_take _ _ _ _ (by decide)]
      exact norLd_same s _ _ hs (by decide)
    unfold State.trainCopy
    rw [if_neg]
    rintro ⟨m, -, -⟩
    rw [fieldAt, List.drop_zero, h] at m
    exact absurd m (by decide +kernel)
  have hf : ∀ o n, o + n ≤ 24 → fieldAt (s.norLd 0x3800000 0x6024) o n = fieldAt ((booting 1).norLd 0x3800000 24) o n := by
    intro o n h
    rw [fieldAt, fieldAt, norLd_part _ _ _ _ _ (by omega), norLd_part _ _ _ _ _ h, norLd_same s _ _ hs (by simp [norLog]; omega)]
  have hc : fieldAt (s.norLd 0x3800000 0x6024) 0x6020 4 = crc32 ((s.norLd 0x3800000 0x6024).take 0x6020) := by
    rw [norLd_take _ _ _ _ (by omega), fieldAt, norLd_part _ _ _ _ _ (by omega), norLd_same s _ _ hs (by decide),
      show (0x6020 : Nat) = 24 + 0x6008 from rfl, crc_copy s _ _ _ hs ?_ (by omega)]
    · decide +kernel
    · rw [norLd_same s _ _ hs (by decide)]
      decide +kernel
  have h0 : s.trainCopy 0 = some (s.norLd 0x3800000 0x6024) := by
    have hm : fieldAt (s.norLd 0x3800000 0x6024) 0 4 = 0x474E5254 := (hf 0 4 (by omega)).trans (by decide +kernel)
    have hv : fieldAt (s.norLd 0x3800000 0x6024) 4 2 = 1 := (hf 4 2 (by omega)).trans (by decide +kernel)
    unfold State.trainCopy
    rw [show trainAt 0 = 0x3800000 from rfl, show trainLen = 0x6024 from rfl, if_pos ⟨hm, hv, hc⟩]
  refine ⟨_, trainRead_left s _ h1 h0, ?_, ?_, ?_⟩
  · exact (hf 8 8 (by omega)).trans (by decide +kernel)
  · exact (hf 6 1 (by omega)).trans (by decide +kernel)
  · rw [fieldInt, hf _ _ (by omega)]; decide +kernel

/-- What the starts of StartsBootAndHousekeeping call z and w: the state after the first housekeeping round. -/
def round1 (s : State) : State := ((s.runImage 0 []).coresUp).hkRound (startIn 24 24).hk true

/-- The warm start's state when that round begins: `(startIn 24 24).ms` is 1,900. -/
def warmed : State := (booting 2).elapse ((startIn 24 24).ms.toNat * 800000)

theorem wit_start_nor : (round1 (booting 1)).nor = norWords ∧ (round1 warmed).nor = norWords := by decide +kernel

theorem wit_start_round :
    ((round1 (booting 1)).firstRound = 0 ∧ ∀ n < 24, (round1 (booting 1)).on MEM_SC_STAT_FAILED n = false) ∧
    (round1 warmed).firstRound = 0 ∧ (round1 warmed).get GLB_START_STAT_WFAIL = 0 ∧ (round1 warmed).get64 GLB_DIE_ID_LO = 2 ^ 64 - 1 ∧
    (round1 warmed).geti MGT_TDIE_TDIE = 200 := by decide +kernel

/-- StartsBootAndHousekeeping, the cold start that passes. -/
theorem wit_cold_start :
    (booting 1).mgt.start = some ⟨1, 2, true, []⟩ ∧ (startIn 24 24).clock = true ∧ (booting 1).bootSlot [] = some 0 ∧ (startIn 24 24).power = true ∧
    (round1 (booting 1)).firstRound = 0 ∧ (round1 (booting 1)).calRead ≠ none ∧ (startIn 24 24).train.length = 24 ∧
    (∀ y ∈ (startIn 24 24).train, 30 ≤ y.rd.toNat ∧ 30 ≤ y.wr.toNat ∧ 30 ≤ y.ca.toNat) ∧ ∀ n < 24, (round1 (booting 1)).on MEM_SC_STAT_FAILED n = false := by
  obtain ⟨c, hc, -⟩ := cal_copy (round1 (booting 1)) wit_start_nor.1
  refine ⟨rfl, rfl, wit_valid_slot.2.1, rfl, wit_start_round.1.1, by rw [hc]; exact Option.some_ne_none c, rfl, ?_, wit_start_round.1.2⟩
  intro y hy
  rw [List.eq_of_mem_replicate hy]
  decide

theorem trainFits_of (s : State) (b l : List Nat) (hr : s.trainRead = some b) (h8 : fieldAt b 8 8 = s.get64 GLB_DIE_ID_LO) (h6 : fieldAt b 6 1 = l.getD 0 0)
    (h10 : fieldInt b 0x10 2 = s.geti MGT_TDIE_TDIE) : s.trainFits l = true := by
  unfold State.trainFits
  rw [hr]
  simp only [h8, h6, h10, beq_self_eq_true, Int.sub_self, Bool.true_and]
  rfl

theorem cal_nor (s : State) (c : Option CalRec) : ({ s with cal := c } : State).nor = s.nor := rfl
theorem cal_get64 (s : State) (c : Option CalRec) (f : Fld) : ({ s with cal := c } : State).get64 f = s.get64 f := rfl
theorem cal_geti (s : State) (c : Option CalRec) (f : Fld) : ({ s with cal := c } : State).geti f = s.geti f := rfl

/-- StartsBootAndHousekeeping, the warm start that passes. -/
theorem wit_warm_start :
    ∃ c, (booting 2).mgt.start = some ⟨2, 2, true, []⟩ ∧ (booting 2).bootSlot [] = some 0 ∧ (round1 warmed).firstRound = 0 ∧ (round1 warmed).calRead = some c ∧
      ({ round1 warmed with cal := some c } : State).trainFits c.board = true ∧ (round1 warmed).get GLB_START_STAT_WFAIL = 0 ∧
      ∀ n < 24, (startIn 24 24).sentinel.getD n false = true := by
  obtain ⟨c, hc, hb⟩ := cal_copy (round1 warmed) wit_start_nor.2
  obtain ⟨b, hr, h8, h6, h10⟩ := train_copy ({ round1 warmed with cal := some c } : State) ((cal_nor _ _).trans wit_start_nor.2)
  have hf := trainFits_of _ b c.board hr (h8.trans ((cal_get64 _ _ _).trans wit_start_round.2.2.2.1).symm) (h6.trans hb.symm)
    (h10.trans ((cal_geti _ _ _).trans wit_start_round.2.2.2.2).symm)
  exact ⟨c, rfl, (wit_bootSlot_kind 2 []).trans wit_valid_slot.2.1, wit_start_round.2.1, hc, hf, wit_start_round.2.2.1, by decide⟩

/-! ### The host interface (R415 to R438) -/

/-- The host with the link up, queues 15, 31 and 39 of eight entries enabled. -/
def host : State :=
  (((((((((up 1).put HIF_STAT_LINK true).put HIF_Q_CFG_EN true 15).put HIF_Q_CFG_EN true 31).put HIF_Q_CFG_EN true 39).put HIF_Q_STAT_ACTIVE true 15).put HIF_Q_STAT_ACTIVE true 31).put
    HIF_Q_STAT_ACTIVE true 39).put MEM_STAT_READY true).set64 MEM_CAP_LO 0x10000 |> fun s => s.each [15, 31, 39] fun q s => s.set HIF_Q_CFG_SIZEL 3 q

/-- HostAccessesQueuesAndInterrupts: an access at the capacity and past it, queue 15 enabled and off, indices at and past their range, a fetch, a timer due, a vector pending, the link up and down. -/
theorem wit_host :
    (up 1).deaf = false ∧ (BitVec.ofNat 26 (TIM_STEP_TH.addr + 3)).toNat / 4 * 4 = TIM_STEP_TH.addr ∧ (BitVec.ofNat 26 TIM_STAT.addr).toNat / 4 * 4 = TIM_STAT.addr ∧
    (host.get HIF_WIN_BASE * 2 ^ 30 + (0xFFFF : BitVec 36).toNat + 1 ≤ host.memCap) ∧ host.memCap < host.get HIF_WIN_BASE * 2 ^ 30 + (0xFFFF : BitVec 36).toNat + 2 ∧
    ((up 1).on HIF_Q_CFG_EN 15 = false ∧ ((up 1).qu 15).waiting = [] ∧ getBits (1 : Word) 5 1 = 0) ∧ hostQueue 15 = true ∧ hostQueue 39 = false ∧
    (host.qSize 15 < (host.qSize 15 + 1 + 2 ^ 32 - host.get HIF_Q_CI 15) % 2 ^ 32) ∧ ((host.set HIF_Q_PI 1 39).qUsed 39 = 1 ∧ (host.set HIF_Q_PI 1 15).qUsed 15 ≠ 0) ∧
    ((host.setQu 39 { Queue.empty with unsig := 1 }).set HIF_Q_MOD_TIME 1 39 |> fun s => (s.qu 39).unsig ≠ 0 ∧ s.get HIF_Q_MOD_TIME 39 ≠ 0) ∧
    (host.set MSIX_PBA 1 1 |> fun s => bitN (s.get MSIX_PBA (32 / 32)) (32 % 32) = true) ∧ (up 1).on HIF_STAT_LINK = false ∧
    ((up 1).set HIF_WDOG_TMO 1).get HIF_WDOG_TMO ≠ 0 ∧ (up 1).on HIF_STAT_HOST_LOST = false := by decide +kernel

theorem test_host :
    after (.registerWrite (BitVec.ofNat 26 TIM_STEP_TH.addr) 0xABCD) (up 1) (fun t => t.rd TIM_STEP_TH.addr == 0xABCD) ∧
    after .bar0BadAccess (up 1) (fun t => t.get HIF_ERR_BAD_ACCESS == 1) ∧ after (.bar2Access 0xFFFF 0 (some [7])) host (fun t => t.ldN 0xFFFF 1 == 7) ∧
    after (.bar2Access 0xFFFF 0 (some [7, 8])) host (fun t => t.get HIF_WIN_ERR_RANGE == 1 && t.store == []) ∧
    after (.bar2Access 0xFFFF 1 none) (host.st 0xFFFF [9]) (fun t => t.hst.bar2Out == some [9]) ∧
    after (.queueEnable 15 1) (up 1) (fun t => t.on HIF_Q_CFG_EN 15 && t.on HIF_Q_STAT_ACTIVE 15) ∧ after (.queueDoorbell 15 (BitVec.ofNat 32 (host.qSize 15))) host (fun t => t.get HIF_Q_PI 15 == host.qSize 15) ∧
    after (.queueDoorbell 15 (BitVec.ofNat 32 (host.qSize 15 + 1))) host (fun t => t.get HIF_Q_STAT_ERR 15 == 1 && t.get HIF_Q_PI 15 == 0) ∧
    after (.queueCiWrite 39 1) (host.set HIF_Q_PI 1 39) (fun t => t.get HIF_Q_CI 39 == 1) ∧ after (.descriptorFetch 15 (some sub0)) (host.set HIF_Q_PI 1 15) (fun t => (t.qu 15).fetched == [sub0] && t.get HIF_Q_CI 15 == 1) ∧
    after (.descriptorFetch 15 none) (host.set HIF_Q_PI 1 15) (fun t => t.get HIF_Q_STAT_ERR 15 == 2 && !(t.on HIF_Q_STAT_ACTIVE 15)) ∧
    after (.msixUnmask 32) (host.set MSIX_PBA 1 1) (fun t => t.irqSent == [(32, 1)] && t.get MSIX_PBA 1 == 0) ∧ after .pcieLinkDown host (fun t => t.get HIF_ERR_DOWNS == 1) ∧
    after (.pcieLinkUp 4 3) (up 1) (fun t => t.get HIF_STAT_GEN == 5 && t.get HIF_STAT_WIDTH == 8) ∧ after .hostLost ((up 1).set HIF_WDOG_TMO 1) (fun t => t.on HIF_STAT_HOST_LOST) ∧
    after (.hifWdogWrite 3) ((up 1).put HIF_STAT_HOST_LOST true) (fun t => t.rd HIF_WDOG.addr == 3 && !(t.on HIF_STAT_HOST_LOST)) ∧ after (.evtRouteWrite 17 5) (up 1) (fun t => t.rd (EVT_ROUTE.addr 17) == writeBits (EVT_ROUTE.addr 17) 0 5) := by
  decide +kernel

theorem test_host_timer_and_resets :
    after (.interruptTimer 39) ((host.setQu 39 { Queue.empty with unsig := 1 }).set HIF_Q_MOD_TIME 1 39) (fun t => (t.qu 39).unsig == 0 && t.get MSIX_PBA (host.get HIF_Q_VEC_VEC 39 / 32) != 0) ∧
    after .pcieHotReset host (fun t => !(t.on HIF_Q_CFG_EN 15) && t.get HIF_Q_VEC_VEC 63 == 63) := by decide +kernel

/-- Descriptor `x` the oldest fetched of Q15. -/
def desc (x : Sub) : State := host.setQu 15 { Queue.empty with fetched := [x] }

/-- A submission with OP, host address 0, STORE, LEN and a pattern. -/
def sub (op a len : Nat) : Sub := ⟨op, 0, true, 7, [0, 0, BitVec.ofNat 32 a, 0, BitVec.ofNat 32 len, 0, 0x0201, 0]⟩

/-- The job of ModeRequests at 0 in the store, its LOAD the oldest fetched. -/
def loading (x : Sub) : State := { desc x with store := (withJob false (up 1)).store, pwidth := [(0, 0)] }

/-- DescriptorsRunAndComplete: each OP with a length of 0, at the capacity and past it; a job that loads, one that fails a check; a job in use and one that is not; a copy cut short; an abort. -/
theorem wit_descriptors :
    ((desc (sub 1 0xFFFE 2)).qu 15).run = none ∧ (desc (sub 1 0xFFFE 2)).takeSub 15 = some (sub 1 0xFFFE 2, host.setQu 15 { Queue.empty with fetched := [] }) ∧
    ((desc (sub 1 0xFFFE 2)).qu (16 + 15)).waiting = [] ∧ subF64 (sub 1 0xFFFE 2) 0x18 + subF32 (sub 1 0xFFFE 2) 0x20 ≤ host.memCap ∧
    host.memCap < subF64 (sub 1 0xFFFE 3) 0x18 + subF32 (sub 1 0xFFFE 3) 0x20 ∧ subF32 (sub 1 0 0) 0x20 = 0 ∧ (up 1).takeSub 15 = none ∧ (sub 1 0 0).zeros = true ∧ ({ sub 1 0 0 with zeros := false } : Sub).zeros = false ∧
    (((loading (sub 5 0 0)).judgeJob (sub 5 0 0)).1 = 0 ∧ ((loading (sub 5 0 0)).judgeJob (sub 5 0 0)).2.isSome = true) ∧ (host.judgeJob (sub 5 0 0)) = (0x10, none) ∧
    host.jobSlot 0 = none ∧ ((host.put HIF_JOB_STAT_VALID true 7).jobSlot 0 = some 7 ∧ (host.put HIF_JOB_STAT_VALID true 7).on HIF_JOB_STAT_START 7 = false ∧
      ((host.put HIF_JOB_STAT_VALID true 7).put HIF_JOB_STAT_START true 7).on HIF_JOB_STAT_START 7 = true) ∧
    (let r : Running := ⟨sub 1 0 4, 0, 2, [], 2⟩
     let s := host.setQu 15 { Queue.empty with run := some r }
     (s.qu 15).run = some r ∧ r.sub.op ≠ 4 ∧ r.result = r.lim ∧ r.result < subF32 r.sub 0x20 ∧ s.qRoom 31 = true ∧ (s.qu 31).waiting = []) ∧
    (host.setQu 15 { Queue.empty with run := some ⟨sub 4 0 0, 0, 0, [], 0⟩ }).fenceOk 15 (sub 4 0 0) = true ∧
    (({ host with hst := { host.hst with doorbells := [(15, [(1, List.replicate 15 5 ++ [1])])] } } : State).set HIF_Q_CI 1 15).fenceOk 15 { sub 4 0 0 with flags := 1 } = false := by decide +kernel

theorem test_descriptors :
    after (.nop 15) (desc (sub 9 0 0)) (fun t => (t.qu 15).run == some ⟨sub 9 0 0, 4, 0, [], 0⟩) ∧ after (.fence 15) (desc (sub 4 0 0)) (fun t => ((t.qu 15).run.map (·.status)) == some 0) ∧
    after (.copyIn 15 [5, 6] 2) (desc (sub 1 0xFFFE 2)) (fun t => t.ldN 0xFFFE 2 == 0x605 && ((t.qu 15).run.map (·.result)) == some 2) ∧
    after (.copyIn 15 [5, 6, 7] 3) (desc (sub 1 0xFFFE 3)) (fun t => t.store == [] && ((t.qu 15).run.map (·.status)) == some 3) ∧
    after (.copyOut 15 none 2) ((desc (sub 2 0xFFFE 2)).st 0xFFFE [8, 9]) (fun t => t.hst.hostWr == some (0, [8, 9])) ∧
    after (.fill 15 3) (desc (sub 3 0 3)) (fun t => t.ldN 0 1 == 1 && t.ldN 1 1 == 2 && t.ldN 2 1 == 0) ∧
    after (.jobLoad 15) (loading (sub 5 0 0)) (fun t => t.on HIF_JOB_STAT_VALID 0 && ((t.qu 15).run.map (·.status)) == some 0) ∧
    after (.jobUnload 15) ((desc (sub 6 0 0)).put HIF_JOB_STAT_VALID true 7) (fun t => !(t.on HIF_JOB_STAT_VALID 7)) ∧
    after (.jobUnload 15) (desc (sub 6 0 0)) (fun t => ((t.qu 15).run.map (·.status)) == some 0x18) ∧
    after (.descriptorComplete 15) (host.setQu 15 { Queue.empty with run := some ⟨sub 1 0 4, 0, 2, [], 2⟩ })
      (fun t => (t.qu 15).run == none && (t.qu 31).ring.map (fun e => (e.kind, e.status, e.tag)) == [(1, 2, 7)] && t.get HIF_ERR_HOST == 1) ∧
    after (.queueAbort 15) (host.setQu 15 { Queue.empty with run := some ⟨sub 3 0 4, 0, 2, [], 4⟩, fetched := [sub 0 0 0] })
      (fun t => t.get HIF_Q_STAT_ABORT 15 == 1 && (t.qu 31).ring.map (fun e => e.status) == [5, 5]) := by decide +kernel

/-! ### Management (R439 to R465) -/

/-- The firmware runs, Q57 has the request of a CMD with ARG0, ARG1, ADDR 64 and LEN the oldest fetched, Q59 has room. -/
def asked (m cmd a0 a1 len : Nat) : State :=
  let x : Sub := ⟨0, 0, true, 7, [BitVec.ofNat 32 (cmd + 65536 * a0), BitVec.ofNat 32 a1, 64, 0, BitVec.ofNat 32 len, 0, 0, 0, 0, 0, 0, 0]⟩
  (((((((((up m).put HIF_STAT_LINK true).put HIF_Q_CFG_EN true 59).put HIF_Q_STAT_ACTIVE true 59).set MGT_STAT_CORES 15).put MEM_STAT_READY true).set64 MEM_CAP_LO 0x10000).setQu 57
    { Queue.empty with fetched := [x] }).set GLB_UST_RUNSTATE 1 0xD0)

/-- The reply's STATUS. -/
def replied (t : State) : List Nat := (t.qu 59).ring.map fun e => e.status

/-- MailboxRequestsAndNorWrites: each CMD with a request that succeeds and each RESULT that it may have; NOR writes of each kind. -/
theorem wit_mailbox :
    (asked 1 1 0 0 0).fwRuns = true ∧ ((asked 1 1 0 0 0).takeSub 57).isSome = true ∧ ((asked 1 1 0 0 0).qu 59).waiting = [] ∧ (asked 1 1 0 0 0).norReplies.contains 1 = false ∧ (asked 1 1 0 0 0).norJobs = [] ∧
    (((asked 1 0x13 5 1 0).takeSub 57).map fun y => (mbCmd y.1, mbArg0 y.1, mbArg1 y.1, mbAddr y.1, mbLen y.1, mbZeros y.1 true)) = some (0x13, 5, 1, 64, 0, true) ∧ (up 1).takeSub 57 = none ∧
    (asked 1 1 0 0 0).qRoom 59 = true ∧ ((asked 1 2 0xD3 0 0).set GLB_UST_PERMIT 4 0xD3).get GLB_UST_PERMIT 0xD3 = 4 ∧ (asked 1 2 0xD3 0 0).get GLB_UST_PERMIT 0xD3 ≠ 5 ∧ (asked 1 2 0xD3 0 0).printing = false := by
  decide +kernel

theorem wit_mailbox_results :
    (asked 1 3 0xD3 0 0).get GLB_UST_STATE 0xD3 ≠ 5 ∧ ((asked 1 3 0xD3 0 0).set GLB_UST_STATE 5 0xD3).get GLB_UST_STATE 0xD3 = 5 ∧ (asked 2 3 0xA0 0 0).mode ∉ [1, 6] ∧ (asked 6 0x13 5 1 0).mode = 6 ∧
    (asked 6 0x13 0 0 0).on MEM_STAT_READY = true ∧ (asked 6 0x13 0 0 0).bad 64 64 = false ∧ ({ asked 6 0x13 0 0 0 with poison := [(1, true)] } : State).bad 64 64 = true ∧
    ((asked 1 0x20 1 0 1).get GLB_BOOT_SLOT ≠ 1 ∧ (asked 1 0x20 1 0 1).bad 64 1 = false) ∧ (asked 1 0x21 1 0 0).slotValid 1 = false ∧ (asked 1 0x12 0 0 0).camCal 0 = CamCal.empty ∧
    ({ asked 1 0x13 5 1 0 with norJobs := [.train []] } : State).norJobs ≠ [] := by
  decide +kernel

/-- The slot of IMAGE_COMMIT is valid. -/
def committing : State := { asked 6 0x21 0 1 0 with nor := norWords, mgt := { (up 6).mgt with fuseKey := (booting 1).mgt.fuseKey } }

/-- A unit with a camera record, and IMAGE_COMMIT of a slot that is valid. -/
theorem wit_commit : ({ asked 1 0x12 0 0 0 with cal := some ⟨0, 0, 0, [], [{ CamCal.empty with nflat := 1 }]⟩ } : State).camCal 0 ≠ CamCal.empty ∧
    committing.mode = 6 ∧ committing.slotValid 0 = true :=
  ⟨by decide +kernel, by decide +kernel, (slotValid_same committing (booting 1) 0 rfl rfl rfl rfl rfl).trans wit_valid_slot.1⟩

theorem test_mailbox :
    after (.mboxPing 1) (asked 1 1 0 0 0) (fun t => replied t == [0]) ∧ after (.mboxPing 1) (asked 1 0x99 0 0 0) (fun t => replied t == [1]) ∧
    after (.mboxFence 1) (asked 1 2 0xD3 0 0) (fun t => replied t == [0] && t.get GLB_UST_PERMIT 0xD3 == 4) ∧ after (.mboxFence 1) (asked 1 2 0xD4 0 0) (fun t => replied t == [3]) ∧
    after (.mboxPermit 1) (asked 1 3 0xD3 0 0) (fun t => replied t == [0] && t.get GLB_UST_PERMIT 0xD3 == 1) ∧ after (.mboxPermit 1) (asked 2 3 0xA0 0 0) (fun t => replied t == [2]) ∧
    after (.calPlace 1) (asked 1 0x12 8 0 0) (fun t => replied t == [3]) ∧ after (.logRead 1) (asked 1 0x30 0 0 1) (fun t => replied t == [0]) ∧
    after (.boardWrite 1) (asked 6 0x13 5 1 0) (fun t => t.norJobs.length == 1 && replied t == []) ∧ after (.boardWrite 1) (asked 1 0x13 5 1 0) (fun t => replied t == [2]) ∧
    after (.imageWrite 1) (asked 1 0x20 1 0 1) (fun t => t.norJobs == [.image 0x1800000 [0] (1, 7)]) ∧ after (.imageWrite 1) (asked 1 0x20 0 0 1) (fun t => replied t == [4]) ∧
    after (.imageCommit 1) (asked 1 0x21 1 0 0) (fun t => replied t == [7]) ∧ after (.imageCommit 1) (asked 1 0x21 0 1 0) (fun t => replied t == [2]) ∧
    after (.norWriteDone true false) ({ asked 1 1 0 0 0 with norJobs := [.image 0x1800000 [5] (1, 7)] } : State) (fun t => replied t == [0] && t.nor == [(0x1800000, 5)]) ∧
    after (.norWriteDone false false) ({ asked 1 1 0 0 0 with norJobs := [.image 0x1800000 [5] (1, 7)] } : State) (fun t => replied t == [6] && t.nor == [] && t.norJobs == []) := by decide +kernel

/-- In RECOVERY, with `op` at GLB_NOR in progress. -/
def recovery (op : Option (Nat × Nat × Nat)) : State :=
  let s := (up 7).put GLB_START_STAT_RECOVERY true
  { s with nor := [(5, 0xF0)], mgt := { s.mgt with norOp := op } }

/-- StartsBootAndHousekeeping: a start runs and none; no clock, no image, no power; RECOVERY; each GLB_NOR operation; a round; the trip; the watchdog's first and second expiry; LEVEL in IDLE and READY. -/
theorem wit_starts :
    (up 1).mgt.start = none ∧ State.reset.mgt.start = some ⟨1, 0, false, []⟩ ∧ ((up 1).put GLB_START_CFG_WARM_RST true).on GLB_START_CFG_WARM_RST = true ∧ ((up 1).put GLB_START_CFG_WARM_RST false).on GLB_START_CFG_WARM_RST = false ∧
    State.reset.bootSlot [] = none ∧ ({ startIn 24 24 with clock := false } : StartIn).clock = false ∧ ({ startIn 24 24 with power := false } : StartIn).power = false ∧ (up 1).mgt.thermTrip = false ∧
    ((recovery none).on GLB_START_STAT_RECOVERY = true ∧ (recovery none).on GLB_NOR_STAT_BUSY = false) ∧ (recovery (some (2, 5, 9))).mgt.norOp = some (2, 5, 9) ∧ (asked 1 1 0 0 0).fwRuns = true ∧ (up 1).fwRuns = false ∧
    (((asked 1 1 0 0 0).set MGT_TS_CFG_TYPE 1 31).tsOn 31 = true) ∧ ((asked 1 1 0 0 0).set MGT_WDOG_TMO 5 |> fun s => s.get MGT_WDOG_TMO ≠ 0 ∧ s.deaf = false ∧ s.get MGT_STAT_CORES ≠ 0 ∧ s.mgt.wdogAt = none) ∧
    (up 1).latched = [] ∧ (up 6).mode = 6 ∧ (up 2).mode ∉ [1, 6] ∧ (((up 1).put MGT_STAT_RESTARTING true).on MGT_STAT_RESTARTING = true) ∧
    ((({ (State.reset.runImage 0 []).coresUp with mgt := State.reset.mgt } : State).hkRound { (startIn 24 24).hk with od := List.replicate 16 1200 } true).firstRound ≠ 0) := by decide +kernel

/-- A start whose firmware has not reported ready, from a slot that boots. -/
theorem wit_boot_not_ready :
    (let s := booting 1
     ({ s with mgt := { s.mgt with start := some ⟨1, 2, false, []⟩ } } : State).bootSlot [] = some 0) := wit_valid_slot.2.1

theorem test_starts :
    after .powerOnReset (recovery none) (fun t => t.mode == 0 && t.nor == [(5, 0xF0)] && t.mgt.start == some ⟨1, 0, false, []⟩) ∧ after .startColdCmd (up 1) (fun t => t.mode == 0 && t.get GLB_START_STAT_CAUSE == 2) ∧
    after .resetPin ((up 1).put GLB_START_CFG_WARM_RST true) (fun t => t.get GLB_START_STAT_KIND == 2 && t.get GLB_START_STAT_CAUSE == 1) ∧
    after (.coldStart { startIn 24 24 with clock := false }) State.reset (fun t => t.mode == 7 && t.get GLB_START_STAT_RESULT == 1 && t.get GLB_START_STAT_STEP == 1) ∧
    after (.coldStart (startIn 24 24)) State.reset (fun t => t.get GLB_START_STAT_RESULT == 2 && t.on GLB_START_STAT_RECOVERY) ∧
    after .norReadWord ((recovery none).set GLB_NOR_ADDR_ADDR 4) (fun t => t.rd GLB_NOR_DATA.addr == 0xFFFFF0FF) ∧ after .norProgramWord (recovery none) (fun t => t.on GLB_NOR_STAT_BUSY) ∧
    after (.glbNorDone true) (recovery (some (2, 5, 0x33))) (fun t => smGet (fun _ => 0xFF) t.nor 5 == 0x30) ∧ after (.glbNorDone true) (recovery (some (3, 9, 0))) (fun t => t.nor == []) ∧
    after .thermTrip (up 1) (fun t => t.mode == 0 && t.mgt.thermTrip) ∧ after (.mgmtWdogExpiry 3) ((asked 1 1 0 0 0).set MGT_WDOG_TMO 5) (fun t => t.on MGT_STAT_RESTARTING && t.get MGT_STAT_RESTARTS == 1) ∧
    after .tdieRead ((up 1).set MGT_TDIE_PEAK 9) (fun t => t.get MGT_TDIE_PEAK == 0) ∧ after (.compatWrite 1) (up 1) (fun t => t.get GLB_COMPAT_LEVEL == 1) ∧ after (.compatWrite 1) (up 2) (fun t => t.on GLB_COMPAT_CFG_ERR) := by
  decide +kernel

theorem test_housekeeping :
    after (.housekeepingRound (hkIn 32 24 16)) ((asked 1 1 0 0 0).set MGT_TS_CFG_TYPE 1 31) (fun t => t.get MGT_HK_ROUND_ROUND == 1 && t.geti MGT_TS_VAL_READ 31 == 200) := by decide +kernel

/-! ### The queue of commands -/

/-- The step answers a next state of which `p` holds. -/
def afterStep (s : State) (p : State → Bool) : Bool :=
  match step s with
  | .next t => p t
  | _ => false

/-- StepTakesTheFrontCommand, EveryStepKeepsTheQueueOfCommands: a command in front of another, and none. -/
theorem test_step_takes_the_front :
    afterStep { up 1 with pending := [.hifWdogKick, .powerOnReset] } (fun t => t.pending == [.powerOnReset] && t.mode == 1) ∧
    afterStep (up 1) (fun t => t.pending == [] && t.clk == (up 1).clk + 1) ∧
    instrWord (.sub 27 31 30 29) = some (27, 0x03FEE801) := by decide +kernel

/-- InstructionWordsAgreeWithTheirCommands: a word of format A written out from R86 runs as SUB. -/
theorem test_word_of_sub : after (.reservedOpcode 0 0x00611001) (eng 0 5 7) (fun t => t.g 0 3 == 0xFFFFFFFE) := by decide +kernel

end Sys2Proof.Tests
end

/-! SUPPORT for the proofs. What a register reads after a chain of writes, and what reporting leaves alone. -/

namespace Sys2Proof.Machine

open Sys2Proof.Safety

/-! ### Fields read after a chain of writes -/

theorem putBits_word (x : Word) (v : Nat) : putBits x 0 32 v = BitVec.ofNat 32 v := by
  ext i hi
  rw [← BitVec.getLsbD_eq_getElem, ← BitVec.getLsbD_eq_getElem, getLsbD_putBits _ _ _ _ _ hi, BitVec.getLsbD_ofNat]
  simp [hi]

/-- A part of a word whose whole was set. -/
theorem getBits_putBits_word (x : Word) (v lo w : Nat) : getBits (putBits x 0 32 v) lo w = v % 2 ^ 32 / 2 ^ lo % 2 ^ w := by
  simp [putBits_word, getBits]

/-- A bit field read after it was put. -/
theorem State.on_put_same (s : State) (f : Fld) (b : Bool) (i j k : Nat) (hw : f.width = 1) (hl : f.lo + f.width ≤ 32) :
    (s.put f b i j k).on f i j k = b := by
  rw [State.on, State.put, State.get_set_same _ _ _ _ _ _ hl, hw]
  cases b <;> rfl

theorem State.get64_set64 (s : State) (f : Fld) (z : Int) (i j k : Nat) : (s.set64 f z i j k).get64 f i j k = ux 64 z := by
  have hlt : ux 64 z < 2 ^ 64 := by unfold ux; omega
  simp only [State.get64, State.set64, State.rd_wr_same, State.rd_wr_other _ _ (show f.addr i j k ≠ f.addr i j k + 4 by omega),
    BitVec.toNat_ofNat]
  omega

theorem State.rd_set64_other (s : State) (f : Fld) (z : Int) (i j k : Nat) {a : Nat} (hl : a ≠ f.addr i j k) (hh : a ≠ f.addr i j k + 4) :
    (s.set64 f z i j k).rd a = s.rd a := by
  rw [State.set64, State.rd_wr_other _ _ hh, State.rd_wr_other _ _ hl]

theorem State.get64_congr {s t : State} (f : Fld) (i j k : Nat) (hl : t.rd (f.addr i j k) = s.rd (f.addr i j k))
    (hh : t.rd (f.addr i j k + 4) = s.rd (f.addr i j k + 4)) : t.get64 f i j k = s.get64 f i j k := by
  rw [State.get64, State.get64, hl, hh]

theorem State.get_congr {s t : State} (f : Fld) (i j k : Nat) (h : t.rd (f.addr i j k) = s.rd (f.addr i j k)) :
    t.get f i j k = s.get f i j k := by
  rw [State.get, State.get, h]

theorem OnlyRegs_set64 (s : State) (f : Fld) (z : Int) (i j k : Nat) :
    OnlyRegs [f.addr i j k, f.addr i j k + 4] s (s.set64 f z i j k) :=
  OnlyRegs_trans (OnlyRegs_wr _ _ _) (OnlyRegs_wr _ _ _)

theorem bitN_of_lt {n i : Nat} (h : n < 2 ^ i) : bitN n i = false := by
  simp [bitN, Nat.div_eq_of_lt h]

/-! ### Reports -/

/-- No register above the MSI-X pending bits is written by reporting. -/
theorem evReg_above {a : Nat} (h : 0x29005 ≤ a) : evReg a = false := by
  simp [evReg]
  omega

theorem State.rd_raise (s : State) (e : Ev) (unit : Nat) (args : List Int) {a : Nat} (h : evReg a = false) :
    (s.raise e unit args).rd a = s.rd a := (raise_only s e unit args).1 a (by simp) h

theorem State.get_raise (s : State) (e : Ev) (unit : Nat) (args : List Int) (f : Fld) (i j k : Nat) (h : evReg (f.addr i j k) = false) :
    (s.raise e unit args).get f i j k = s.get f i j k := State.get_congr _ _ _ _ (s.rd_raise _ _ _ h)

/-- Reporting and writes of registers leave whatever is read from neither. -/
theorem OnlyEv_proj {A : List Nat} {s t : State} (h : OnlyEv A s t) {α : Type} (p : State → α)
    (hp : ∀ (u : State) r q i e, p { u with regs := r, queues := q, irqSent := i, evLast := e } = p u) : p t = p s := by
  rw [h.2, hp]

theorem mode_raiseLim (s : State) (e : Ev) (unit key period : Nat) (args : List Int) : (s.raiseLim e unit key period args).mode = s.mode :=
  OnlyEv_get (raiseLim_only ..) GLB_MODE_STAT_MODE 0 0 0 List.not_mem_nil (by decide)

/-! ### What the device hears (R451, R452) -/

/-- The device that hears is not in BOOT. -/
theorem mode_ne_zero {s : State} (h : Hears s) : s.mode ≠ 0 := by
  intro h0
  simp [Hears, State.deaf, h0] at h

theorem heard_eq {s : State} (h : Hears s) (r : Res) : s.heard r = r := by
  rw [State.heard, if_neg (by rw [show s.deaf = false from h]; decide)]

end Sys2Proof.Machine

/-! PROOFS. The reject list (R136 to R138). -/

namespace Sys2Proof.Machine

open Sys2Proof.Safety

/-! ### The reject list (R137, R138) -/

theorem rejWrite_wr (s : State) (cause bar trk : Nat) (start : Int) (len : Nat) :
    (s.rejWrite cause bar trk start len).get SEQ_REJ_WR = (s.get SEQ_REJ_WR + 1) % 2 ^ 32 :=
  State.get_set_same _ _ _ _ _ _ (by decide)

theorem rejWrite_only (s : State) (cause bar trk : Nat) (start : Int) (len : Nat) :
    OnlyRegs (rejRegs (s.get SEQ_REJ_WR)) s (s.rejWrite cause bar trk start len) := by
  refine OnlyRegs_mono (OnlyRegs_trans (OnlyRegs_trans (OnlyRegs_trans (OnlyRegs_set64 ..) (OnlyRegs_set ..)) (OnlyRegs_set ..))
    (OnlyRegs_set ..)) ?_
  simp only [rejRegs, Fld.addr, List.mem_append, List.mem_cons, List.not_mem_nil, or_false]
  omega

/-- The entry that a write leaves in its slot (R137). -/
theorem rejWrite_entry (s : State) {cause bar trk len : Nat} (start : Int) (hc : cause < 256) (hb : bar < 16) (ht : trk < 4) (hl : len < 2 ^ 32) :
    RejEntry (s.rejWrite cause bar trk start len) (s.get SEQ_REJ_WR) cause bar trk start len := by
  unfold State.rejWrite
  extract_lets k i s1 s2
  have hinfo : ∀ lo w : Nat, (s2.set SEQ_REJ_WR (k + 1)).get ⟨0x8040c, 16, 0, 0, lo, w⟩ i =
      (cause + 256 * bar + 4096 * trk + 65536 * (k % 65536)) % 2 ^ 32 / 2 ^ lo % 2 ^ w := fun lo w => by
    rw [State.get_set_addr _ _ _ _ _ _ _ _ _ _ (by simp [Fld.addr]; omega), State.get]
    exact (congrArg (getBits · lo w) (State.rd_wr_same ..)).trans (getBits_putBits_word ..)
  refine ⟨?_, ?_, ?_, ?_, ?_, ?_⟩
  · rw [State.geti64, State.get64_congr (s := s.set64 SEQ_REJ_START_LO start i), State.get64_set64]
    all_goals
      rw [State.rd_set_other, State.rd_set_other, State.rd_set_other]
      all_goals
        simp only [Fld.addr]
        omega
  · rw [State.get_set_addr _ _ _ _ _ _ _ _ _ _ (by simp [Fld.addr]; omega),
      State.get_set_addr _ _ _ _ _ _ _ _ _ _ (by simp only [Fld.addr]; omega),
      State.get_set_same _ _ _ _ _ _ (by decide), Nat.mod_eq_of_lt hl]
  all_goals
    rw [hinfo]
    omega

/-- A range of less than 2^32 pu is one entry (R137). -/
theorem rejSplit_short (s : State) (cause bar trk : Nat) (start : Int) {len : Nat} (n : Nat) (h0 : len ≠ 0) (h : len < 2 ^ 32) :
    s.rejSplit cause bar trk start len (n + 1) = s.rejWrite cause bar trk start len := by
  rw [State.rejSplit, if_neg h0, if_pos (by omega)]

theorem rejSplit_zero (s : State) (cause bar trk : Nat) (start : Int) (n : Nat) : s.rejSplit cause bar trk start 0 n = s := by
  cases n <;> rfl

/-- The registers of slot `i` of the reject list. -/
def rejSlot (i : Nat) : List Nat := [SEQ_REJ_START_LO.addr i, SEQ_REJ_START_LO.addr i + 4, SEQ_REJ_LEN.addr i, SEQ_REJ_INFO.addr i]

theorem rd_emptySlot (s : State) (i a : Nat) :
    (((s.set64 SEQ_REJ_START_LO 0 i).set SEQ_REJ_LEN 0 i).set SEQ_REJ_INFO 0 i).rd a = if a ∈ rejSlot i then 0 else s.rd a := by
  simp only [State.set, State.set64, State.rd_wr, rejSlot, putBits_word, List.mem_cons, List.not_mem_nil, or_false]
  have hz : ux 64 0 = 0 := rfl
  split_ifs <;> simp_all

theorem rejSlot_disjoint {i j a : Nat} (hi : a ∈ rejSlot i) (h : i ≠ j) : a ∉ rejSlot j := by
  simp only [rejSlot, Fld.addr, List.mem_cons, List.not_mem_nil, or_false] at hi ⊢
  omega

/-- Emptying the first `n` slots leaves zeros in them. -/
theorem rd_emptySlots (s : State) (n i a : Nat) (hi : i < n) (ha : a ∈ rejSlot i) :
    (s.each (List.range n) fun i s => ((s.set64 SEQ_REJ_START_LO 0 i).set SEQ_REJ_LEN 0 i).set SEQ_REJ_INFO 0 i).rd a = 0 := by
  induction n with
  | zero => omega
  | succ n ih =>
    rw [State.each_range_succ, rd_emptySlot]
    by_cases h : i = n
    · rw [if_pos (h ▸ ha)]
    · rw [if_neg (rejSlot_disjoint ha h), ih (by omega)]

/-- CLR in IDLE and SERVICE leaves zeros in every slot (R138). -/
theorem rd_rejClear (s : State) (hm : s.mode = 1 ∨ s.mode = 6) (i a : Nat) (hi : i < 64) (ha : a ∈ rejSlot i) : s.rejClear.rd a = 0 := by
  rw [State.rejClear, if_pos hm, State.rd_set_other, rd_emptySlots s 64 i a hi ha]
  simp only [rejSlot, Fld.addr, List.mem_cons, List.not_mem_nil, or_false] at ha ⊢
  omega

/-- The host's GO outside BOOT (R138). -/
theorem rejAdd_eq (s : State) (h : s.mode ≠ 0) : s.rejAdd =
    if bitN (s.get SEQ_REJ_CTL_MASK) 10 = true ∧ s.get SEQ_REJ_ADD_LEN ≠ 0 then
      s.rejWrite 10 15 (s.get GEK_CTL_REF_TRK) (s.geti64 SEQ_REJ_ADD_START_LO) (s.get SEQ_REJ_ADD_LEN)
    else s := by
  have hl : s.get SEQ_REJ_ADD_LEN < 2 ^ 32 := State.get_lt ..
  have hd : ∀ (a : Int) (n : Nat), (a + n - a).toNat = n := fun a n => by omega
  simp only [State.rejAdd, if_neg h, State.reject, hd]
  by_cases hm : bitN (s.get SEQ_REJ_CTL_MASK) 10 = true
  · by_cases h0 : s.get SEQ_REJ_ADD_LEN = 0
    · rw [if_pos hm, h0, rejSplit_zero, if_neg (by simp)]
    · rw [if_pos hm, rejSplit_short _ _ _ _ _ _ h0 hl, if_pos ⟨hm, h0⟩]
  · rw [if_neg hm, if_neg (by simp [hm])]

theorem exec_rejectEntryWrite (cause : Fin 16) (b : Bar) (s : State) :
    exec (.rejectEntryWrite cause b) s = execRejectEntryWrite cause b s := rfl

/-- A gathered run of up to 2^32 - 1 pu is written as one entry (R137). -/
theorem exec_rejectEntryWrite_some {s : State} {cause : Fin 16} {b : Bar} {a z y : Int} {n : Nat}
    (hg : smGet (fun _ => none) s.gather (16 * cause + b) = some (a, z, y, n)) (haz : a < z) (hlen : z - a < 2 ^ 32) :
    exec (.rejectEntryWrite cause b) s = .next { s.rejWrite cause b (s.get GEK_LC_CTL_TRK b) a (z - a).toNat with
      gather := smPut (fun _ => none) s.gather (16 * cause + b) none } := by
  rw [exec_rejectEntryWrite]
  unfold execRejectEntryWrite
  simp only [hg]
  rw [rejSplit_short _ _ _ _ _ _ (by omega) (by omega)]
  rfl

theorem exec_rejectEntryWrite_none {s : State} {cause : Fin 16} {b : Bar} (hg : smGet (fun _ => none) s.gather (16 * cause + b) = none) :
    exec (.rejectEntryWrite cause b) s = .next s := by
  rw [exec_rejectEntryWrite]
  unfold execRejectEntryWrite
  simp only [hg]

theorem exec_rejectAdd {s : State} (h : Hears s) : exec .rejectAdd s = .next s.rejAdd := heard_eq h _

theorem exec_rejectClear {s : State} (h : Hears s) : exec .rejectClear s = .next s.rejClear := heard_eq h _

/-- Settles O32: one entry is one write of the next slot, and emptying the list is a loop over the slots. -/
theorem rejectListEntries : Obligations.RejectListEntries := by
  unfold Obligations.RejectListEntries
  intro s cause b k
  have htrk : ∀ b, s.get GEK_LC_CTL_TRK b < 4 := fun b => State.get_lt ..
  have href : s.get GEK_CTL_REF_TRK < 4 := State.get_lt ..
  refine ⟨?_, ?_, ?_⟩
  · intro a z y n hg haz hlen
    refine ⟨_, exec_rejectEntryWrite_some hg haz hlen, ?_⟩
    obtain ⟨hregs, hrest⟩ := rejWrite_only s cause b (s.get GEK_LC_CTL_TRK b) a (z - a).toNat
    have hwr := rejWrite_wr s cause b (s.get GEK_LC_CTL_TRK b) a (z - a).toNat
    have hentry := rejWrite_entry s (len := (z - a).toNat) a (show cause.val < 256 by omega) b.isLt (htrk b) (by omega)
    generalize s.rejWrite cause b (s.get GEK_LC_CTL_TRK b) a (z - a).toNat = u at *
    exact ⟨hentry, hwr, smGet_put_same _ s.gather _ none, hregs, by conv_lhs => rw [hrest]⟩
  · intro hg
    exact exec_rejectEntryWrite_none hg
  · intro hh
    have hm0 := mode_ne_zero hh
    refine ⟨?_, ?_, ?_, ?_⟩
    · intro hmask hlen
      refine ⟨_, by rw [exec_rejectAdd hh, rejAdd_eq s hm0, if_pos ⟨hmask, hlen⟩], ?_⟩
      exact ⟨rejWrite_entry s _ (by decide) (by decide) href (State.get_lt ..), rejWrite_wr .., rejWrite_only ..⟩
    · intro h
      rw [exec_rejectAdd hh, rejAdd_eq s hm0, if_neg]
      rintro ⟨hmask, hlen⟩
      rcases h with h | h
      · simp [hmask] at h
      · exact hlen h
    · intro hm
      have hm : s.mode = 1 ∨ s.mode = 6 := by simpa using hm
      refine ⟨_, exec_rejectClear hh, ?_, fun i hi => ?_⟩
      · rw [State.rejClear, if_pos hm, State.get_set_same _ _ _ _ _ _ (by decide)]
        rfl
      · have hrd := rd_rejClear s hm i
        refine ⟨?_, ?_, hrd _ hi (by simp [rejSlot])⟩
        · rw [State.geti64, State.get64, hrd _ hi (by simp [rejSlot]), hrd _ hi (by simp [rejSlot])]
          rfl
        · rw [State.get, hrd _ hi (by simp [rejSlot])]
          rfl
    · intro hm
      have hm : ¬ (s.mode = 1 ∨ s.mode = 6) := by simpa using hm
      refine ⟨s.put SEQ_GIO_STAT_CFG_ERR true, by rw [exec_rejectClear hh, State.rejClear, if_neg hm], ?_,
        OnlyRegs_set s SEQ_GIO_STAT_CFG_ERR 1 0 0 0⟩
      exact State.on_put_same _ _ _ _ _ _ rfl (by decide)

end Sys2Proof.Machine

/-! PROOFS. The loader (R120, R121, R124). -/

namespace Sys2Proof.Machine

open Sys2Proof.Safety

/-! ### The end of a copy (R120) -/

theorem loadEnds_result (s : State) {r : Nat} (hr : r < 8) : (s.loadEnds r).get SEQ_LD_STAT_RESULT = r := by
  rw [State.loadEnds, State.get_raise _ _ _ _ _ _ _ _ (by decide), State.get_set_same _ _ _ _ _ _ (by decide)]
  exact Nat.mod_eq_of_lt hr

theorem loadEnds_busy (s : State) (r : Nat) : (s.loadEnds r).on SEQ_LD_STAT_BUSY = false := by
  rw [State.on, State.loadEnds, State.get_raise _ _ _ _ _ _ _ _ (by decide), State.get_set_bits _ _ _ _ _ _ _ _ _ _ (by decide)]
  exact State.on_put_same _ SEQ_LD_STAT_BUSY false 0 0 0 rfl (by decide)

/-- What the end of a copy changes, beside that no copy is in progress any more. -/
theorem loadEnds_only (s : State) (r : Nat) : OnlyEv [SEQ_LD_STAT.addr] { s with loading := none } (s.loadEnds r) :=
  OnlyEv_trans (A := [SEQ_LD_STAT.addr]) (B := [])
    (OnlyEv_mono (OnlyEv_trans (OnlyEv_set _ SEQ_LD_STAT_BUSY (b2n false) 0 0 0) (OnlyEv_set _ SEQ_LD_STAT_RESULT r 0 0 0)) (by decide))
    (raise_only _ _ _ _)

theorem loadEnds_loading (s : State) (r : Nat) : (s.loadEnds r).loading = none :=
  OnlyEv_proj (loadEnds_only s r) State.loading fun _ _ _ _ _ => rfl

theorem loadEnds_engCode (s : State) (r : Nat) : (s.loadEnds r).engCode = s.engCode :=
  OnlyEv_proj (loadEnds_only s r) State.engCode fun _ _ _ _ _ => rfl

/-- A change of the copy in progress set aside. -/
theorem OnlyEv_loading {A : List Nat} {s t : State} {x : Option (Nat × Nat × Nat × Nat)} (h : OnlyEv A { s with loading := x } t) :
    OnlyEv A s { t with loading := s.loading } :=
  ⟨h.1, by conv_lhs => rw [h.2]⟩

/-- A copy that ends without a part copied (R120). -/
theorem loadEnds_gives (s : State) {r : Nat} (hr : r < 8) :
    Gives (.next (s.loadEnds r)) fun t => t.get SEQ_LD_STAT_RESULT = r ∧ t.on SEQ_LD_STAT_BUSY = false ∧
      t.loading = none ∧ OnlyEv [SEQ_LD_STAT.addr] s { t with loading := s.loading } :=
  ⟨_, rfl, loadEnds_result s hr, loadEnds_busy s r, loadEnds_loading s r, OnlyEv_loading (loadEnds_only s r)⟩

theorem exec_loaderGo {s : State} (h : Hears s) : exec .loaderGo s = .next s.loadGo := heard_eq h _

theorem exec_loaderAbort {s : State} (n : Nat) (h : Hears s) : exec (.loaderAbort n) s = .next (s.loadRun n 5) := heard_eq h _

theorem exec_loaderComplete (s : State) : exec .loaderComplete s = .next (s.loadRun 32768 0) := rfl

/-- RANGE, ALIGN and GUARD are 1, 2 and 3 (R124). -/
theorem loadBad_lt {s : State} {src dst off len c : Nat} (h : s.loadBad src dst off len = some c) : c < 8 := by
  simp only [State.loadBad] at h
  split_ifs at h <;> simp at h <;> omega

/-- A copy into code memory that is not refused lies within it, in whole parts (R121, R124). -/
theorem loadBad_none {s : State} {src e off len : Nat} (he : e < 28) (h : s.loadBad src e off len = none) :
    off + len ≤ 0x10000 ∧ off % 32 = 0 ∧ len % 32 = 0 := by
  simp only [State.loadBad, bitN_of_lt (show e < 2 ^ 5 by omega), Bool.false_eq_true, if_false] at h
  split_ifs at h with h1 h2 h3
  omega

theorem loadRun_refused {s : State} {src dst off len c : Nat} (n r : Nat) (hl : s.loading = some (src, dst, off, len))
    (hc : s.loadBad src dst off len = some c) : s.loadRun n r = s.loadEnds c := by
  unfold State.loadRun
  simp only [hl, hc]

/-! ### Code memory (R85) -/

theorem code_setCode (s : State) (e a e' a' : Nat) (v : Word) :
    (s.setCode e a v).code e' a' = if 16384 * e' + a' / 4 = 16384 * e + a / 4 then v else s.code e' a' := by
  simp only [State.code, State.setCode, smGet_put]

/-- Every word of every code memory after `n` words are written from `o` on. -/
theorem code_setCodes (s : State) (e o n e' a' : Nat) (w : Nat → Word) (ho : o % 4 = 0) :
    (s.each (List.range n) fun k s => s.setCode e (o + 4 * k) (w k)).code e' a' =
      if 16384 * e + o / 4 ≤ 16384 * e' + a' / 4 ∧ 16384 * e' + a' / 4 < 16384 * e + o / 4 + n then
        w (16384 * e' + a' / 4 - (16384 * e + o / 4))
      else s.code e' a' := by
  induction n with
  | zero => rw [if_neg (by omega)]; rfl
  | succ n ih =>
    rw [State.each_range_succ, code_setCode, ih, show (o + 4 * n) / 4 = o / 4 + n by omega]
    by_cases h : 16384 * e' + a' / 4 = 16384 * e + (o / 4 + n)
    · rw [if_pos h, if_pos (by omega), show 16384 * e' + a' / 4 - (16384 * e + o / 4) = n by omega]
    · rw [if_neg h]
      by_cases h2 : 16384 * e + o / 4 ≤ 16384 * e' + a' / 4 ∧ 16384 * e' + a' / 4 < 16384 * e + o / 4 + n
      · rw [if_pos h2, if_pos (by omega)]
      · rw [if_neg h2, if_neg (by omega)]

/-- Writing code words changes the code memories and nothing else. -/
theorem setCodes_only (s : State) (e o n : Nat) (w : Nat → Word) :
    ∃ m, (s.each (List.range n) fun k s => s.setCode e (o + 4 * k) (w k)) = { s with engCode := m } := by
  refine State.each_inv (fun t => ∃ m, t = { s with engCode := m }) _ _ ?_ s ⟨s.engCode, rfl⟩
  rintro k t - ⟨m, rfl⟩
  exact ⟨_, rfl⟩

/-- A run of bytes within a longer one. -/
theorem ld_drop_take (s : State) (a n i m : Nat) (h : i + m ≤ n) : ((s.ld a n).drop i).take m = s.ld (a + i) m := by
  apply List.ext_getElem
  · simp [State.ld]; omega
  · intro k h1 h2
    simp [State.ld, Nat.add_assoc]

/-! ### The parts of a copy into code memory (R120) -/

/-- `t` is `s` with `n` words copied from the store at `src` into the code of engine `e`, from byte `off` on, `j` words in. -/
def CodeCopied (src e off j n : Nat) (s t : State) : Prop :=
  (∃ m, t = { s with engCode := m }) ∧ ∀ e' a', t.code e' a' =
    if 16384 * e + off / 4 + j ≤ 16384 * e' + a' / 4 ∧ 16384 * e' + a' / 4 < 16384 * e + off / 4 + j + n then
      BitVec.ofNat 32 (s.ldN (src + 4 * (16384 * e' + a' / 4 - (16384 * e + off / 4))) 4)
    else s.code e' a'

/-- Code memory is no part of what a read of the store sees. -/
theorem CodeCopied.trans {src e off j n n' : Nat} {s t u : State} (h : CodeCopied src e off j n s t) (h' : CodeCopied src e off (j + n) n' t u) :
    CodeCopied src e off j (n + n') s u := by
  obtain ⟨⟨m, hm⟩, hc⟩ := h
  obtain ⟨⟨m', hm'⟩, hc'⟩ := h'
  refine ⟨⟨m', by rw [hm', hm]⟩, fun e' a' => ?_⟩
  have hld : ∀ a, t.ldN a 4 = s.ldN a 4 := fun a => by rw [hm]; rfl
  rw [hc', hld, hc]
  by_cases h2 : 16384 * e + off / 4 + (j + n) ≤ 16384 * e' + a' / 4 ∧ 16384 * e' + a' / 4 < 16384 * e + off / 4 + (j + n) + n'
  · rw [if_pos h2, if_pos (by omega)]
  · rw [if_neg h2]
    by_cases h1 : 16384 * e + off / 4 + j ≤ 16384 * e' + a' / 4 ∧ 16384 * e' + a' / 4 < 16384 * e + off / 4 + j + n
    · rw [if_pos h1, if_pos (by omega)]
    · rw [if_neg h1, if_neg (by omega)]

/-- One part of 32 bytes copied. -/
theorem codeCopied_part (src e off i : Nat) (s : State) (ho : off % 32 = 0) :
    CodeCopied src e off (8 * i) 8 s (s.each (List.range 8) fun k t =>
      t.setCode e (off + 32 * i + 4 * k) (BitVec.ofNat 32 (leNum (((s.ld (src + 32 * i) 32).drop (4 * k)).take 4)))) := by
  refine ⟨setCodes_only .., fun e' a' => ?_⟩
  rw [code_setCodes (w := fun k => BitVec.ofNat 32 (leNum (((s.ld (src + 32 * i) 32).drop (4 * k)).take 4))) (ho := by omega),
    show (off + 32 * i) / 4 = off / 4 + 8 * i by omega, ← Nat.add_assoc]
  split_ifs with h
  · rw [ld_drop_take _ _ _ _ _ (by omega), State.ldN,
      show src + 32 * i + 4 * (16384 * e' + a' / 4 - (16384 * e + off / 4 + 8 * i)) =
        src + 4 * (16384 * e' + a' / 4 - (16384 * e + off / 4)) by omega]
  · rfl

/-- A copy of good store bytes into code memory writes every word of its parts and meets no store error. -/
theorem loadParts_code (src e off : Nat) (he : e < 28) (ho : off % 32 = 0) (n : Nat) : ∀ (i : Nat) (s : State),
    (∀ k, i ≤ k → k < i + n → s.bad (src + 32 * k) 32 = false) →
    ∃ t, loadParts src e off i n s = (t, false) ∧ CodeCopied src e off (8 * i) (8 * n) s t := by
  have h5 : bitN e 5 = false := bitN_of_lt (by omega)
  have h6 : bitN e 6 = false := bitN_of_lt (by omega)
  induction n with
  | zero => exact fun i s _ => ⟨s, rfl, ⟨s.engCode, rfl⟩, fun e' a' => by rw [if_neg (by omega)]⟩
  | succ n ih =>
    intro i s hbad
    have hp := codeCopied_part src e off i s ho
    obtain ⟨m, hm⟩ := hp.1
    have hbad' : ∀ k, i + 1 ≤ k → k < i + 1 + n → State.bad { s with engCode := m } (src + 32 * k) 32 = false :=
      fun k _ _ => hbad k (by omega) (by omega)
    rw [← hm] at hbad'
    obtain ⟨t, ht, hc⟩ := ih (i + 1) _ hbad'
    refine ⟨t, ?_, by simpa only [Nat.mul_succ, Nat.add_comm 8] using hp.trans hc⟩
    rw [← ht]
    simp only [loadParts, h5, h6, hbad i (Nat.le_refl _) (by omega), Nat.mod_eq_of_lt (show e < 32 by omega), Bool.false_eq_true, if_false]

/-- A copy of good store bytes into code memory: `n` of its parts are written, and it ends with the RESULT asked for. -/
theorem loadRun_code {s : State} {src e off len : Nat} (n r : Nat) (he : e < 28) (hl : s.loading = some (src, e, off, len))
    (hb : s.loadBad src e off len = none) (hs : ∀ i < len / 32, s.bad (src + 32 * i) 32 = false) :
    ∃ t, s.loadRun n r = t.loadEnds (if r = 5 ∧ len / 32 < n then 6 else r) ∧ CodeCopied src e off 0 (8 * min n (len / 32)) s t := by
  obtain ⟨-, ho, -⟩ := loadBad_none he hb
  obtain ⟨t, ht, hc⟩ := loadParts_code src e off he ho (min n (len / 32)) 0 s fun k _ hk => hs k (by omega)
  refine ⟨t, ?_, hc⟩
  unfold State.loadRun
  simp only [hl, hb, ht, Bool.false_eq_true, if_false]

/-- What a copy into code memory leaves when it has ended, in the words of R120: the words copied, every other word, and the registers. -/
theorem CodeCopied.ends {s t : State} {src e off m : Nat} (r : Nat) (ho : off % 32 = 0) (hlen : off + 32 * m ≤ 0x10000)
    (h : CodeCopied src e off 0 (8 * m) s t) :
    (∀ j < 8 * m, (t.loadEnds r).code e (off + 4 * j) = BitVec.ofNat 32 (s.ldN (src + 4 * j) 4)) ∧
      (∀ (e' : Nat) (a : Nat), a < 0x10000 → (e' ≠ e ∨ a < off ∨ off + 32 * m ≤ a) → (t.loadEnds r).code e' a = s.code e' a) ∧
      (t.loadEnds r).on SEQ_LD_STAT_BUSY = false ∧
      OnlyEv [SEQ_LD_STAT.addr] s { t.loadEnds r with loading := s.loading, engCode := s.engCode } := by
  obtain ⟨⟨c, rfl⟩, hc⟩ := h
  have hcode : ∀ e' a, (({ s with engCode := c } : State).loadEnds r).code e' a = ({ s with engCode := c } : State).code e' a := fun e' a => by
    rw [State.code, State.code, loadEnds_engCode]
  refine ⟨fun j hj => ?_, fun e' a ha hout => ?_, loadEnds_busy .., ?_⟩
  · rw [hcode, hc, if_pos (by omega), show 16384 * e + (off + 4 * j) / 4 - (16384 * e + off / 4) = j by omega]
  · rw [hcode, hc, if_neg (by omega)]
  · obtain ⟨hregs, hrest⟩ := loadEnds_only { s with engCode := c } r
    exact ⟨hregs, by conv_lhs => rw [hrest]⟩

/-- Settles O31: a copy in progress is the copy of its parts one after another, and code memory is no part of the store that they are read from. -/
theorem loaderCopiesCode : Obligations.LoaderCopiesCode := by
  unfold Obligations.LoaderCopiesCode
  refine ⟨fun s hh => ⟨fun hb => ?_, fun hb hl => ?_, fun hb hl => ?_⟩, fun s src dst off len c n hl hc i hi hh => ?_, ?_⟩
  · rw [exec_loaderGo hh, State.loadGo, if_pos hb]
  · rw [exec_loaderGo hh, State.loadGo, if_neg (by simp [hb]), if_pos hl]
    exact loadEnds_gives s (by decide)
  · rw [exec_loaderGo hh, State.loadGo, if_neg (by simp [hb]), if_neg hl]
    refine ⟨_, rfl, State.on_put_same _ _ _ _ _ _ rfl (by decide), rfl, ?_⟩
    exact OnlyRegs_set s SEQ_LD_STAT_BUSY (b2n true) 0 0 0
  · have hrun : ∃ m r, exec i s = .next (s.loadRun m r) := by
      simp only [List.mem_cons, List.not_mem_nil, or_false] at hi
      rcases hi with rfl | rfl
      · exact ⟨_, _, exec_loaderComplete s⟩
      · exact ⟨_, _, exec_loaderAbort n hh⟩
    obtain ⟨m, r, hrun⟩ := hrun
    rw [hrun, loadRun_refused m r hl hc]
    exact loadEnds_gives s (loadBad_lt hc)
  · intro s src e off len n hh he hl hb hs Copied
    obtain ⟨hlen, ho, hw⟩ := loadBad_none he hb
    refine ⟨?_, fun hn => ?_, fun hn => ?_⟩
    · obtain ⟨t, ht, hc⟩ := loadRun_code 32768 0 he hl hb hs
      rw [exec_loaderComplete, ht, if_neg (by omega)]
      rw [Nat.min_eq_right (by omega)] at hc
      exact ⟨_, rfl, loadEnds_result t (by decide), hc.ends 0 ho (by omega)⟩
    · obtain ⟨t, ht, hc⟩ := loadRun_code n 5 he hl hb hs
      rw [exec_loaderAbort n hh, ht, if_neg (by omega)]
      rw [Nat.min_eq_left hn] at hc
      exact ⟨_, rfl, loadEnds_result t (by decide), hc.ends 5 ho (by omega)⟩
    · obtain ⟨t, ht, hc⟩ := loadRun_code n 5 he hl hb hs
      rw [exec_loaderAbort n hh, ht, if_pos ⟨rfl, hn⟩]
      rw [Nat.min_eq_right (by omega)] at hc
      exact ⟨_, rfl, loadEnds_result t (by decide), hc.ends 6 ho (by omega)⟩

end Sys2Proof.Machine

/-! SUPPORT for the proofs. What reads and writes of the central store leave alone. -/

namespace Sys2Proof.Machine

open Sys2Proof.Safety

/-! ### What requests to the central store leave alone (R154, R160, R176) -/

/-- The registers of the sub-channels, whose counts requests to the store raise (R154, R176). -/
def memReg (a : Nat) : Bool := decide (0xB01000 ≤ a) && decide (a < 0xB01600)

/-- `t` differs from `s` at most in the registers of the sub-channels, the bytes of the store and its poison codes. -/
def OnlyMem (s t : State) : Prop :=
  (∀ a, memReg a = false → t.rd a = s.rd a) ∧ t = { s with regs := t.regs, store := t.store, poison := t.poison }

theorem OnlyMem_refl (s : State) : OnlyMem s s := ⟨fun _ _ => rfl, rfl⟩

theorem OnlyMem_trans {s t u : State} (h : OnlyMem s t) (h' : OnlyMem t u) : OnlyMem s u :=
  ⟨fun a ha => (h'.1 a ha).trans (h.1 a ha), by rw [h'.2, h.2]⟩

theorem OnlyMem_get {s t : State} (h : OnlyMem s t) (f : Fld) (i j k : Nat) (hf : memReg (f.addr i j k) = false) :
    t.get f i j k = s.get f i j k := State.get_congr _ _ _ _ (h.1 _ hf)

/-- Requests to the store leave whatever is read from neither the registers nor the store. -/
theorem OnlyMem_proj {s t : State} (h : OnlyMem s t) {α : Type} (p : State → α)
    (hp : ∀ (u : State) r m x, p { u with regs := r, store := m, poison := x } = p u) : p t = p s := by
  rw [h.2, hp]

theorem OnlyMem_set (s : State) (f : Fld) (v i j k : Nat) (hf : memReg (f.addr i j k) = true) : OnlyMem s (s.set f v i j k) := by
  refine ⟨fun a ha => s.rd_set_other _ _ _ _ _ _ fun h => ?_, rfl⟩
  rw [h, hf] at ha
  cases ha

/-- There are at most 24 sub-channels (R148). -/
theorem scOf_lt (s : State) (a : Nat) : s.scOf a < 24 := by
  unfold State.scOf State.memN
  split <;> omega

theorem sawBurst_onlyMem (s : State) (b : Nat) : OnlyMem s (s.sawBurst b) := by
  have hn := scOf_lt s (64 * b)
  unfold State.sawBurst
  extract_lets n
  split_ifs
  · exact OnlyMem_refl s
  · exact OnlyMem_refl s
  · exact OnlyMem_set _ _ _ _ _ _ (by simp [memReg, Fld.addr]; omega)
  · exact OnlyMem_set _ _ _ _ _ _ (by simp [memReg, Fld.addr]; omega)
  · exact OnlyMem_refl s

theorem each_onlyMem {α : Type} (l : List α) (f : α → State → State) (hf : ∀ x s, OnlyMem s (f x s)) (s : State) : OnlyMem s (s.each l f) :=
  State.each_inv (OnlyMem s) l f (fun x t _ ht => OnlyMem_trans ht (hf x t)) s (OnlyMem_refl s)

theorem stByte_onlyMem (s : State) (a v : Nat) : OnlyMem s (s.stByte a v) := by
  unfold State.stByte
  split_ifs <;> exact ⟨fun _ _ => rfl, rfl⟩

theorem stRun_onlyMem (l : List Nat) : ∀ (s : State) (a : Nat), OnlyMem s (s.stRun a l) := by
  induction l with
  | nil => exact fun s _ => OnlyMem_refl s
  | cons v r ih => exact fun s a => OnlyMem_trans (stByte_onlyMem s a v) (ih _ _)

theorem unpoison_onlyMem (s : State) (b : Nat) : OnlyMem s (s.unpoison b) := by
  unfold State.unpoison
  split_ifs <;> exact ⟨fun _ _ => rfl, rfl⟩

theorem st_onlyMem (s : State) (a : Nat) (l : List Nat) : OnlyMem s (s.st a l) :=
  OnlyMem_trans (OnlyMem_trans (each_onlyMem _ _ (fun b t => sawBurst_onlyMem t b) s) (stRun_onlyMem ..))
    (each_onlyMem _ _ (fun b t => unpoison_onlyMem t b) _)

/-! ### The bytes of the store that a write leaves alone (R154) -/

theorem stByte_store_other (s : State) {a b : Nat} (v : Nat) (h : b ≠ a) :
    smGet (fun _ => (0 : Byte)) (s.stByte a v).store b = smGet (fun _ => 0) s.store b := by
  unfold State.stByte
  split_ifs
  · rfl
  · exact smGet_put_other _ _ _ h

theorem stRun_store_outside (l : List Nat) : ∀ (s : State) (a b : Nat), b < a ∨ a + l.length ≤ b →
    smGet (fun _ => (0 : Byte)) (s.stRun a l).store b = smGet (fun _ => 0) s.store b := by
  induction l with
  | nil => exact fun _ _ _ _ => rfl
  | cons v r ih =>
    intro s a b h
    rw [List.length_cons] at h
    rw [State.stRun, ih _ _ _ (by omega), stByte_store_other _ _ (by omega)]

/-- A write changes no byte outside those that it names. -/
theorem st_store_outside (s : State) {a b : Nat} (l : List Nat) (h : b < a ∨ a + l.length ≤ b) :
    smGet (fun _ => (0 : Byte)) (s.st a l).store b = smGet (fun _ => 0) s.store b := by
  have hun : ∀ (m : List Nat) (t : State), (t.each m fun b t => t.unpoison b).store = t.store := fun m t =>
    State.each_inv (fun u => u.store = t.store) _ _ (fun b u _ hu => (unpoison_store u b).trans hu) t rfl
  have hsaw : ∀ (m : List Nat), (s.each m fun b t => t.sawBurst b).store = s.store := fun m =>
    State.each_inv (fun u => u.store = s.store) _ _ (fun b u _ hu => (sawBurst_store u b).trans hu) s rfl
  unfold State.st
  rw [hun, stRun_store_outside _ _ _ _ h, hsaw]

theorem length_bytesOf (n w : Nat) : (bytesOf n w).length = n := by simp [bytesOf]

end Sys2Proof.Machine

/-! PROOFS. The Husk engine (R224 to R229). -/

namespace Sys2Proof.Machine

open Sys2Proof.Safety

/-! ### The end of a Husk command (R228, R229) -/

/-- What the end of a command leaves in a register other than the counts and what reporting writes. -/
theorem huskEnds_rd (s : State) (r out : Nat) {a : Nat} (ha : a ≠ HSK_CMD_CNT.addr) (hx : evReg a = false) :
    (s.huskEnds r out).rd a =
      (((({ s with husk := none } : State).put HSK_STAT_BUSY false).set HSK_STAT_RESULT r).set64 HSK_OUT_LO out).rd a := by
  unfold State.huskEnds
  extract_lets s1 s2 s3
  rw [State.rd_raise _ _ _ _ hx]
  simp only [s3]
  split_ifs
  · exact State.rd_set_other _ HSK_CMD_CNT_DONE _ _ _ _ _ ha
  · exact State.rd_set_other _ HSK_CMD_CNT_NO_GAIN _ _ _ _ _ ha
  · rfl

theorem huskEnds_result (s : State) {r : Nat} (out : Nat) (hr : r < 8) : (s.huskEnds r out).get HSK_STAT_RESULT = r := by
  rw [State.get, huskEnds_rd s r out (by decide) (by decide), State.rd_set64_other _ _ _ _ _ _ (by decide) (by decide)]
  exact (State.get_set_same _ HSK_STAT_RESULT r 0 0 0 (by decide)).trans (Nat.mod_eq_of_lt hr)

theorem huskEnds_busy (s : State) (r out : Nat) : (s.huskEnds r out).on HSK_STAT_BUSY = false := by
  rw [State.on, State.get, huskEnds_rd s r out (by decide) (by decide), State.rd_set64_other _ _ _ _ _ _ (by decide) (by decide)]
  have h := State.get_set_bits (({ s with husk := none } : State).put HSK_STAT_BUSY false) HSK_STAT_RESULT HSK_STAT_BUSY r 0 0 0 0 0 0
    (by decide)
  exact (congrArg (· == 1) h).trans (State.on_put_same _ HSK_STAT_BUSY false 0 0 0 rfl (by decide))

theorem huskEnds_out (s : State) (r : Nat) {out : Nat} (h : out < 2 ^ 64) : (s.huskEnds r out).get64 HSK_OUT_LO = out := by
  rw [State.get64, huskEnds_rd s r out (by decide) (by decide), huskEnds_rd s r out (by decide) (by decide)]
  refine (State.get64_set64 _ HSK_OUT_LO out 0 0 0).trans ?_
  simp only [ux]
  omega

/-- What the end of a command changes, beside that no command is in progress any more. -/
theorem huskEnds_only (s : State) (r out : Nat) :
    OnlyEv [HSK_STAT.addr, HSK_OUT_LO.addr, HSK_OUT_HI.addr, HSK_CMD_CNT.addr] { s with husk := none } (s.huskEnds r out) := by
  have h1 : OnlyEv [HSK_STAT.addr, HSK_OUT_LO.addr, HSK_OUT_HI.addr] { s with husk := none }
      (((({ s with husk := none } : State).put HSK_STAT_BUSY false).set HSK_STAT_RESULT r).set64 HSK_OUT_LO out) :=
    OnlyEv_mono (OnlyEv_of_regs (OnlyRegs_trans (OnlyRegs_trans (OnlyRegs_set _ HSK_STAT_BUSY (b2n false) 0 0 0)
      (OnlyRegs_set _ HSK_STAT_RESULT r 0 0 0)) (OnlyRegs_set64 _ HSK_OUT_LO out 0 0 0))) (by decide)
  unfold State.huskEnds
  extract_lets s1 s2 s3
  refine OnlyEv_trans (A := [HSK_STAT.addr, HSK_OUT_LO.addr, HSK_OUT_HI.addr, HSK_CMD_CNT.addr]) (B := []) (t := s3) ?_ (raise_only _ _ _ _)
  simp only [s3]
  split_ifs
  · exact OnlyEv_trans h1 (OnlyEv_set _ HSK_CMD_CNT_DONE _ 0 0 0)
  · exact OnlyEv_trans h1 (OnlyEv_set _ HSK_CMD_CNT_NO_GAIN _ 0 0 0)
  · exact OnlyEv_mono h1 (by decide)

theorem huskEnds_husk (s : State) (r out : Nat) : (s.huskEnds r out).husk = none :=
  OnlyEv_proj (huskEnds_only s r out) State.husk fun _ _ _ _ _ => rfl

theorem huskEnds_store (s : State) (r out : Nat) : (s.huskEnds r out).store = s.store :=
  OnlyEv_proj (huskEnds_only s r out) State.store fun _ _ _ _ _ => rfl

/-! ### Coding stays within the destination (R213, R224, R225) -/

/-- `t`'s store is that of `s` outside the W x H bytes at the destination. -/
def HuskFrame (j : HuskJob) (s t : State) : Prop :=
  ∀ a, (a < j.dst ∨ j.dst + j.w * j.h ≤ a) → smGet (fun _ => (0 : Byte)) t.store a = smGet (fun _ => 0) s.store a

theorem HuskFrame.trans {j : HuskJob} {s t u : State} (h : HuskFrame j s t) (h' : HuskFrame j t u) : HuskFrame j s u :=
  fun a ha => (h' a ha).trans (h a ha)

theorem HuskFrame.of_store {j : HuskJob} {s t : State} (h : t.store = s.store) : HuskFrame j s t := fun a _ => by rw [h]

/-- A write that lies within the destination. -/
theorem huskFrame_st (j : HuskJob) (s : State) (a : Nat) (l : List Nat) (h : j.dst ≤ a) (h' : a + l.length ≤ j.dst + j.w * j.h) :
    HuskFrame j s (s.st a l) := fun b hb => st_store_outside s l (by omega)

theorem huskFrame_stN (j : HuskJob) (s : State) (a n v : Nat) (h : j.dst ≤ a) (h' : a + n ≤ j.dst + j.w * j.h) :
    HuskFrame j s (s.stN a n v) := huskFrame_st j s a _ h (by rwa [length_bytesOf])

theorem crosses_false {j : HuskJob} {z : Nat} (h : j.crosses z = false) : z < j.w * j.h ∧ (j.cap ≠ 0 → z ≤ j.cap) := by
  simp only [HuskJob.crosses, Bool.or_eq_false_iff, Bool.and_eq_false_iff, decide_eq_false_iff_not] at h
  refine ⟨by omega, fun hc => ?_⟩
  rcases h.2 with h2 | h2
  · simp [hc] at h2
  · omega

/-- The line index ends before the coded lines (R213). -/
theorem index_le_start (j : HuskJob) : 64 + 8 * j.h ≤ j.start := by
  simp only [HuskJob.start, cdiv, Nat.reduceEqDiff, if_false]
  omega

/-- Coding `n` lines changes no byte outside the destination. -/
theorem huskCode_frame (j : HuskJob) (n : Nat) : ∀ (y off mx : Nat) (up : List Nat) (s : State), 64 + 8 * (y + n) ≤ off →
    HuskFrame j s (huskCode j y off mx up n s).1 := by
  induction n with
  | zero => exact fun _ _ _ _ _ _ => HuskFrame.of_store rfl
  | succ n ih =>
    intro y off mx up s hoff
    simp only [huskCode]
    split_ifs with hbad hx
    · exact HuskFrame.of_store (saw_store ..)
    · exact HuskFrame.of_store rfl
    · obtain ⟨hlt, -⟩ := crosses_false (Bool.eq_false_iff.2 hx)
      refine HuskFrame.trans ?_ (ih _ _ _ _ _ (by omega))
      refine HuskFrame.trans (HuskFrame.trans (huskFrame_st j s (j.dst + off) _ ?_ ?_) (huskFrame_stN j _ (j.dst + 64 + 8 * y) 8 _ ?_ ?_))
        (HuskFrame.of_store (State.wr_store ..)) <;> omega

/-- When every line is coded, the last one ended below the limits (R225). -/
theorem huskCode_lines (j : HuskJob) (n : Nat) : ∀ (y off mx : Nat) (up : List Nat) (s : State) (off' mx' : Nat),
    (huskCode j y off mx up n s).2 = .lines off' mx' → off ≤ off' ∧ (n ≠ 0 → j.crosses off' = false) := by
  induction n with
  | zero =>
    intro y off mx up s off' mx' h
    cases h
    exact ⟨Nat.le_refl _, fun h => absurd rfl h⟩
  | succ n ih =>
    intro y off mx up s off' mx' h
    simp only [huskCode] at h
    split_ifs at h with hbad hx
    · obtain ⟨hle, hcr⟩ := ih _ _ _ _ _ _ _ h
      refine ⟨by omega, fun _ => ?_⟩
      by_cases hn : n = 0
      · subst hn
        cases h
        exact Bool.eq_false_iff.2 hx
      · exact hcr hn

theorem length_header (j : HuskJob) (dataLen maxLine : Nat) : (j.header dataLen maxLine).length = 64 := by
  simp only [HuskJob.header, List.length_append, length_bytesOf, List.length_replicate]

/-- How a whole command ends: with `r` when its lines are coded, else with NO_GAIN or STORE_ERR; whatever the end, its writes lie within the destination
(R225, R226). -/
theorem huskRun_ends (s : State) (j : HuskJob) (r : Nat) (hh : 0 < j.h) :
    ∃ t r' out, s.huskRun j r = t.huskEnds r' out ∧ HuskFrame j s t ∧ ((r' = r ∧ j.crosses out = false) ∨ r' = 1 ∨ r' = 3) := by
  have hstart := index_le_start j
  have hframe := huskCode_frame j j.h 0 j.start 0 [] s (by omega)
  have hlines := huskCode_lines j j.h 0 j.start 0 [] s
  unfold State.huskRun
  generalize huskCode j 0 j.start 0 [] j.h s = res at *
  obtain ⟨t, e⟩ := res
  cases e with
  | lines off mx =>
    obtain ⟨hle, hcr⟩ := hlines off mx rfl
    obtain ⟨hlt, -⟩ := crosses_false (hcr (by omega))
    refine ⟨_, _, _, rfl, hframe.trans (HuskFrame.trans (t := t.st j.dst (j.header off mx)) ?_ (HuskFrame.of_store rfl)), .inl ⟨rfl, hcr (by omega)⟩⟩
    exact huskFrame_st j t _ _ (Nat.le_refl _) (by rw [length_header]; omega)
  | noGain off => exact ⟨_, _, _, rfl, hframe, .inr (.inl rfl)⟩
  | storeErr off => exact ⟨_, _, _, rfl, hframe, .inr (.inr rfl)⟩

/-- ABORT before the header ends the command with ABORTED (R8, R227). -/
theorem huskStop_early (s : State) (j : HuskJob) {n : Nat} (hj : s.husk = some j) (hn : n ≤ j.h) :
    ∃ t out, s.huskStop n = t.huskEnds 4 out ∧ HuskFrame j s t := by
  have hstart := index_le_start j
  have hframe := huskCode_frame j n 0 j.start 0 [] s (by omega)
  unfold State.huskStop
  simp only [hj, if_neg (show ¬ j.h < n by omega)]
  generalize huskCode j 0 j.start 0 [] n s = res at *
  obtain ⟨t, e⟩ := res
  cases e <;> exact ⟨_, _, rfl, hframe⟩

theorem huskStop_late (s : State) (j : HuskJob) {n : Nat} (hj : s.husk = some j) (hn : j.h < n) : s.huskStop n = s.huskRun j 5 := by
  unfold State.huskStop
  simp only [hj, if_pos hn]

theorem huskStop_idle (s : State) (n : Nat) (hj : s.husk = none) : s.huskStop n = s := by
  unfold State.huskStop
  simp only [hj]

/-- A command that ended within its destination. -/
theorem HuskFrame.ends {j : HuskJob} {s t : State} (h : HuskFrame j s t) (r out : Nat) :
    (t.huskEnds r out).on HSK_STAT_BUSY = false ∧ (t.huskEnds r out).husk = none ∧ HuskFrame j s (t.huskEnds r out) :=
  ⟨huskEnds_busy .., huskEnds_husk .., h.trans (HuskFrame.of_store (huskEnds_store ..))⟩

theorem exec_hskGo {s : State} (h : Hears s) : exec .hskGo s = .next s.huskGo := heard_eq h _

theorem exec_hskAbort {s : State} (n : Nat) (h : Hears s) : exec (.hskAbort n) s = .next (s.huskStop n) := heard_eq h _

theorem exec_hskComplete {s : State} {j : HuskJob} (h : s.husk = some j) : exec .hskComplete s = .next (s.huskRun j 0) := by
  show execHskComplete s = _
  simp only [execHskComplete, h]

/-- The command that the registers give (R229). -/
def State.huskJob (s : State) : HuskJob :=
  ⟨s.get64 HSK_SRC_LO, s.get HSK_STRIDE, s.get HSK_CFG_W, s.get HSK_CFG_RIL, s.get HSK_H, s.get64 HSK_DST_LO, s.get64 HSK_CAP_LO⟩

/-- GO on an idle engine outside BOOT and SAFE (R226, R227). -/
theorem huskGo_idle (s : State) (h0 : s.mode ≠ 0) (h7 : s.mode ≠ 7) (hb : s.on HSK_STAT_BUSY = false) :
    s.huskGo = if s.huskJob.w = 0 ∨ s.huskJob.h = 0 then (s.set HSK_LINE 0).huskEnds 0 0
      else if s.huskRange s.huskJob = true then (s.set HSK_LINE 0).huskEnds 2 0
      else ({ s.set HSK_LINE 0 with husk := some s.huskJob } : State).put HSK_STAT_BUSY true := by
  have hcap : (s.set HSK_LINE 0).memCap = s.memCap :=
    State.get64_congr _ _ _ _ (s.rd_set_other _ _ _ _ _ _ (by decide)) (s.rd_set_other _ _ _ _ _ _ (by decide))
  have hrange : (s.set HSK_LINE 0).huskRange s.huskJob = s.huskRange s.huskJob := by simp only [State.huskRange, hcap]
  unfold State.huskGo
  rw [if_neg (by simp [h0, h7, hb])]
  simp only [← hrange]
  rfl

/-- GO that ends at once. -/
theorem huskEnds_gives (s : State) {r : Nat} (hr : r < 8) : Gives (.next ((s.set HSK_LINE 0).huskEnds r 0)) fun t =>
    t.get HSK_STAT_RESULT = r ∧ t.on HSK_STAT_BUSY = false ∧ t.store = s.store :=
  ⟨_, rfl, huskEnds_result _ _ hr, huskEnds_busy .., huskEnds_store ..⟩

/-- Settles O38: every write of the coder lies below the limit that the line's end is checked against, and the index and the header lie before the lines. -/
theorem huskCodesWithinItsSurface : Obligations.HuskCodesWithinItsSurface := by
  unfold Obligations.HuskCodesWithinItsSurface
  refine ⟨fun s hh h7 => ⟨fun hb => ?_, fun hb => ?_⟩, fun s j n hj hpos hh => ?_, fun s n hj => ?_⟩
  · rw [exec_hskGo hh, State.huskGo, if_pos (.inr (.inr hb))]
  · intro j
    have hj : j = s.huskJob := rfl
    clear_value j
    subst hj
    have hgo := huskGo_idle s (mode_ne_zero hh) h7 hb
    rw [exec_hskGo hh, hgo]
    refine ⟨fun h0 => ?_, fun hw h hr => ?_, fun hw h hr => ?_⟩
    · rw [if_pos h0]
      exact huskEnds_gives s (by decide)
    · rw [if_neg (not_or.2 ⟨hw, h⟩), if_pos hr]
      exact huskEnds_gives s (by decide)
    · rw [if_neg (not_or.2 ⟨hw, h⟩), if_neg (Bool.eq_false_iff.1 hr)]
      refine ⟨_, rfl, rfl, State.on_put_same _ _ _ _ _ _ rfl (by decide), ?_⟩
      exact OnlyRegs_mono (OnlyRegs_trans (OnlyRegs_set s HSK_LINE 0 0 0 0) (OnlyRegs_set (s.set HSK_LINE 0) HSK_STAT_BUSY (b2n true) 0 0 0))
        (by decide)
  · intro Within
    refine ⟨?_, fun hn => ?_, fun hn => ?_⟩
    · obtain ⟨t, r, out, ht, hframe, hr⟩ := huskRun_ends s j 0 hpos
      rw [exec_hskComplete hj, ht]
      have hres : (t.huskEnds r out).get HSK_STAT_RESULT = r := huskEnds_result t out (by omega)
      refine ⟨_, rfl, hframe.ends r out, by rw [hres]; simp; omega, fun h0 h64 => ?_⟩
      obtain ⟨-, hcr⟩ : r = 0 ∧ j.crosses out = false := by
        rw [hres] at h0
        rcases hr with hr | hr | hr
        · exact hr
        · omega
        · omega
      obtain ⟨hlt, hcap⟩ := crosses_false hcr
      rw [huskEnds_out t r (by omega)]
      exact ⟨hlt, hcap⟩
    · obtain ⟨t, out, ht, hframe⟩ := huskStop_early s j hj hn
      rw [exec_hskAbort n hh, ht]
      exact ⟨_, rfl, hframe.ends 4 out, huskEnds_result t out (by decide)⟩
    · obtain ⟨t, r, out, ht, hframe, hr⟩ := huskRun_ends s j 5 hpos
      rw [exec_hskAbort n hh, huskStop_late s j hj hn, ht]
      refine ⟨_, rfl, hframe.ends r out, ?_⟩
      rw [huskEnds_result t out (by omega)]
      simp
      omega
  · refine ⟨?_, ?_⟩
    · show execHskComplete s = _
      simp only [execHskComplete, hj]
    · show s.heard (.next (s.huskStop n)) = _
      rw [huskStop_idle s n hj, State.heard]
      split <;> rfl

end Sys2Proof.Machine

/-! PROOFS. The tasks of the pixel engines (R314 to R318, R329, R330). -/

namespace Sys2Proof.Machine

open Sys2Proof.Safety

/-! ### Tasks of the pixel engines (R314) -/

/-- The engine has no task of this kind, or is neither in RUN nor WAIT. -/
def State.taskIdle (s : State) (e : Fin 12) (kind : Nat) : Prop :=
  s.get PIX_TASK_KIND e ≠ kind ∨ (s.engState (16 + e) ≠ 2 ∧ s.engState (16 + e) ≠ 3)

/-- The registers that name the block a task has taken. -/
def State.taskNames (s : State) (e : Fin 12) (seq us : Nat) : State := (s.set PIX_TASK_SEQ seq e).set PIX_TASK_STAT_TIME us e

theorem taskRun_idle {s : State} {e : Fin 12} {kind : Nat} (seq : Nat) (busy : Bool) (us : Nat) (f : State → Blk → State) (h : s.taskIdle e kind) :
    s.taskRun e kind seq busy us f = s := by
  unfold State.taskRun
  exact if_pos h

theorem taskRun_busy {s : State} {e : Fin 12} {kind : Nat} (seq us : Nat) (f : State → Blk → State) (h : ¬ s.taskIdle e kind) :
    s.taskRun e kind seq true us f = (s.addSat PIX_TASK_STAT_SKIP 1 e).raiseLim EV_PIX_BLOCK_SKIP (0xC8 + e) e sec1 := by
  unfold State.taskRun
  exact (if_neg h).trans (if_pos rfl)

theorem taskRun_none {s : State} {e : Fin 12} {kind seq us : Nat} (f : State → Blk → State) (h : ¬ s.taskIdle e kind) (hu : us ≤ 65535)
    (hx : s.blkOf (s.get PIX_TASK_UNIT e) seq (s.get PIX_TASK_STREAM e) = none) :
    s.taskRun e kind seq false us f = s.taskNames e seq us := by
  unfold State.taskRun
  refine (if_neg h).trans ?_
  simp only [hx, Bool.false_eq_true, if_false, Nat.min_eq_left hu, State.taskNames]

theorem taskRun_some {s : State} {e : Fin 12} {kind seq us : Nat} {x : Blk} (f : State → Blk → State) (h : ¬ s.taskIdle e kind) (hu : us ≤ 65535)
    (hx : s.blkOf (s.get PIX_TASK_UNIT e) seq (s.get PIX_TASK_STREAM e) = some x) :
    s.taskRun e kind seq false us f = (f s x).taskNames e seq us := by
  unfold State.taskRun
  refine (if_neg h).trans ?_
  simp only [hx, Bool.false_eq_true, if_false, Nat.min_eq_left hu, State.taskNames]

theorem taskNames_seq (s : State) (e : Fin 12) {seq : Nat} (us : Nat) (h : seq < 2 ^ 32) : (s.taskNames e seq us).get PIX_TASK_SEQ e = seq := by
  rw [State.taskNames, State.get_set_addr _ _ _ _ _ _ _ _ _ _ (by simp [Fld.addr]), State.get_set_same _ _ _ _ _ _ (by decide)]
  exact Nat.mod_eq_of_lt h

theorem taskNames_time (s : State) (e : Fin 12) (seq : Nat) {us : Nat} (h : us < 2 ^ 16) : (s.taskNames e seq us).get PIX_TASK_STAT_TIME e = us := by
  rw [State.taskNames, State.get_set_same _ _ _ _ _ _ (by decide)]
  exact Nat.mod_eq_of_lt h

theorem taskNames_skip (s : State) (e : Fin 12) (seq us : Nat) : (s.taskNames e seq us).get PIX_TASK_STAT_SKIP e = s.get PIX_TASK_STAT_SKIP e := by
  rw [State.taskNames, State.get_set_bits _ _ _ _ _ _ _ _ _ _ (by decide), State.get_set_addr _ _ _ _ _ _ _ _ _ _ (by simp [Fld.addr])]

theorem taskNames_only (s : State) (e : Fin 12) (seq us : Nat) :
    OnlyRegs [PIX_TASK_SEQ.addr e, PIX_TASK_STAT.addr e] s (s.taskNames e seq us) :=
  OnlyRegs_trans (OnlyRegs_set s PIX_TASK_SEQ seq e 0 0) (OnlyRegs_set (s.set PIX_TASK_SEQ seq e) PIX_TASK_STAT_TIME us e 0 0)

/-- Naming the block leaves every register outside the engine's two alone. -/
theorem taskNames_get (s : State) (e : Fin 12) (seq us : Nat) (f : Fld)
    (h : f.addr ≠ PIX_TASK_SEQ.addr e) (h' : f.addr ≠ PIX_TASK_STAT.addr e) : (s.taskNames e seq us).get f = s.get f :=
  OnlyRegs_get (taskNames_only s e seq us) f 0 0 0 (by simp [h, h'])

theorem taskNames_mode (s : State) (e : Fin 12) (seq us : Nat) : (s.taskNames e seq us).mode = s.mode :=
  taskNames_get s e seq us GLB_MODE_STAT_MODE (by simp only [Fld.addr]; omega) (by simp only [Fld.addr]; omega)

/-- A skipped block counts and changes nothing else but reporting (R314). -/
theorem taskSkips (s : State) (e : Fin 12) : Gives (.next ((s.addSat PIX_TASK_STAT_SKIP 1 e).raiseLim EV_PIX_BLOCK_SKIP (0xC8 + e) e sec1)) fun t =>
    t.get PIX_TASK_STAT_SKIP e = min (s.get PIX_TASK_STAT_SKIP e + 1) 65535 ∧
      t.get PIX_TASK_STAT_TIME e = s.get PIX_TASK_STAT_TIME e ∧ OnlyEv [PIX_TASK_STAT.addr e] s t := by
  have hr := raiseLim_only (s.addSat PIX_TASK_STAT_SKIP 1 e) EV_PIX_BLOCK_SKIP (0xC8 + e) e sec1 []
  have hev : evReg (PIX_TASK_STAT.addr e) = false := evReg_above (by simp [Fld.addr]; omega)
  refine ⟨_, rfl, ?_, ?_, OnlyEv_trans (A := [PIX_TASK_STAT.addr e]) (B := []) (OnlyEv_set _ PIX_TASK_STAT_SKIP _ _ _ _) hr⟩
  · rw [OnlyEv_get hr PIX_TASK_STAT_SKIP _ _ _ List.not_mem_nil hev, State.get_addSat _ _ _ _ _ _ (by decide)]
    rfl
  · rw [OnlyEv_get hr PIX_TASK_STAT_TIME _ _ _ List.not_mem_nil hev, State.addSat, State.get_set_bits _ _ _ _ _ _ _ _ _ _ (by decide)]

/-! ### The ZONE task (R316, R317) -/

/-- A zone record is written to the store and counted. -/
theorem zoneRecord_eq (s : State) (x : Blk) (n : Nat) (out : Nat → Bool) (hd : s.get PIX_ZR_CFG_DEPTH ≠ 0) :
    ∃ t, OnlyMem s t ∧ s.zoneRecord x n out = t.set PIX_ZR_WR (s.get PIX_ZR_WR + 1) := by
  unfold State.zoneRecord
  simp only [if_neg hd]
  exact ⟨_, OnlyMem_trans (st_onlyMem ..) (st_onlyMem ..), rfl⟩

/-- One record for each plane stream of a list. -/
theorem zoneRecords (x : Blk) (out : Nat → Bool) (l : List Nat) : ∀ s : State, s.get PIX_ZR_CFG_DEPTH ≠ 0 →
    (s.each l fun n s => s.zoneRecord x n out).get PIX_ZR_WR = (s.get PIX_ZR_WR + l.length) % 2 ^ 32 ∧
      (s.each l fun n s => s.zoneRecord x n out).mode = s.mode ∧ (s.each l fun n s => s.zoneRecord x n out).queues = s.queues := by
  induction l with
  | nil => exact fun s _ => ⟨(Nat.mod_eq_of_lt (State.get_lt ..)).symm, rfl, rfl⟩
  | cons n r ih =>
    intro s hd
    obtain ⟨t, ht, hs⟩ := zoneRecord_eq s x n out hd
    have hother : ∀ f : Fld, f.addr ≠ PIX_ZR_WR.addr → memReg f.addr = false → (s.zoneRecord x n out).get f = s.get f := fun f hf hm => by
      rw [hs, State.get_set_addr _ _ _ _ _ _ _ _ _ _ hf, OnlyMem_get ht _ _ _ _ hm]
    obtain ⟨hwr, hmode, hq⟩ := ih (s.zoneRecord x n out) (by rwa [hother _ (by decide) (by decide)])
    rw [State.each_cons]
    refine ⟨?_, hmode.trans (hother GLB_MODE_STAT_MODE (by decide) (by decide)), hq.trans ?_⟩
    · rw [hwr, hs, State.get_set_same _ _ _ _ _ _ (by decide), List.length_cons]
      simp only
      omega
    · rw [hs]
      exact OnlyMem_proj ht State.queues fun _ _ _ _ => rfl

/-- What the ZONE task computes for a block (R316 to R318). -/
def zoneWork (e : Fin 12) (s : State) (x : Blk) : State :=
  let ps := (List.range 12).filter fun n => bitN (s.get PIX_TASK_MASK e) n
  let bars := ps.flatMap s.psPoints
  let outs := (List.range x.lines).map (s.leftOut x bars)
  let s := s.each ps fun n s => s.zoneRecord x n fun l => outs.getD l true
  { s with fresh := s.fresh + 1 }

theorem exec_zoneTask (e : Fin 12) (q : BitVec 32) (busy : Bool) (us : BitVec 16) (s : State) :
    exec (.zoneTask e q busy us) s = .next (s.taskRun e 1 q.toNat busy us.toNat (zoneWork e)) := rfl

theorem zoneWork_records (e : Fin 12) (s : State) (x : Blk) (hd : s.get PIX_ZR_CFG_DEPTH ≠ 0) :
    (zoneWork e s x).get PIX_ZR_WR = (s.get PIX_ZR_WR + ((List.range 12).filter fun n => bitN (s.get PIX_TASK_MASK e) n).length) % 2 ^ 32 ∧
      (zoneWork e s x).mode = s.mode ∧ (zoneWork e s x).queues = s.queues :=
  zoneRecords x _ _ s hd

/-! ### The LADDER task (R329, R330) -/

/-- What the LADDER task computes for a block (R329). -/
def ladderWork (e : Fin 12) (s : State) (x : Blk) : State :=
  let bars := (List.range 16).filter fun b => bitN (s.get PIX_TASK_MASK e) b
  s.each bars fun b s => s.ladderBar x bars b

theorem exec_ladderTask (e : Fin 12) (q : BitVec 32) (busy : Bool) (us : BitVec 16) (s : State) :
    exec (.ladderTask e q busy us) s = .next (s.taskRun e 2 q.toNat busy us.toNat (ladderWork e)) := rfl

theorem nozRecord_mode (s : State) (kind bar port flags noz d rep : Nat) : (s.nozRecord kind bar port flags noz d rep).mode = s.mode := by
  unfold State.nozRecord
  simp only
  split_ifs
  · rfl
  · rw [State.mode, State.get_set_addr _ _ _ _ _ _ _ _ _ _ (by decide)]
    exact OnlyMem_get (st_onlyMem ..) GLB_MODE_STAT_MODE 0 0 0 (by decide)

theorem nozRecord_wr (s : State) (kind bar port flags noz d rep : Nat) (hd : s.get PIX_NC_CFG_DEPTH ≠ 0) :
    (s.nozRecord kind bar port flags noz d rep).get PIX_NC_WR = (s.get PIX_NC_WR + 1) % 2 ^ 32 := by
  unfold State.nozRecord
  simp only [if_neg hd]
  exact State.get_set_same _ _ _ _ _ _ (by decide)

/-- A bar without a strip does nothing. -/
theorem ladderBar_off {s : State} (x : Blk) (bars : List Nat) {b : Nat} (h : s.getA PIX_STRIP_CFG_LEN b = 0) : s.ladderBar x bars b = s := by
  unfold State.ladderBar
  exact if_pos h

/-- A bar none of whose lines lie in its strip ends the strip bad (R329). -/
theorem ladderBar_empty {s : State} {x : Blk} (bars : List Nat) {b : Nat} (h : s.getA PIX_STRIP_CFG_LEN b ≠ 0) (hs : s.stripLines x b = []) :
    s.ladderBar x bars b =
      (({ s with fresh := s.fresh + 1 } : State).nozRecord 2 b 0xFF 0 0 0 x.rep).raiseLim EV_NH_STRIP_BAD b b sec1 [b, x.rep] := by
  unfold State.ladderBar
  rw [if_neg h]
  simp only [hs, List.isEmpty_nil, Bool.true_or, if_true]

theorem ladderBar_mode (s : State) (x : Blk) (bars : List Nat) (b : Nat) : (s.ladderBar x bars b).mode = s.mode := by
  unfold State.ladderBar
  extract_lets strip all paper dark out s1 weak l s2
  have h1 : s1.mode = s.mode := rfl
  split_ifs
  · rfl
  · rw [mode_raiseLim, nozRecord_mode, h1]
  · have h2 : s2.mode = s1.mode := State.each_inv (fun t => t.mode = s1.mode) _ _ (fun y t _ ht => (nozRecord_mode ..).trans ht) s1 rfl
    rw [nozRecord_mode, h2, h1]

theorem ladderWork_mode (e : Fin 12) (s : State) (x : Blk) : (ladderWork e s x).mode = s.mode :=
  State.each_inv (fun t => t.mode = s.mode) _ _ (fun b t _ ht => (ladderBar_mode t x _ b).trans ht) s rfl

/-- Without a strip at any bar of the mask nothing is measured. -/
theorem ladderWork_off (e : Fin 12) (s : State) (x : Blk)
    (h : ∀ b < 16, bitN (s.get PIX_TASK_MASK e) b = true → s.getA PIX_STRIP_CFG_LEN b = 0) : ladderWork e s x = s := by
  refine State.each_inv (fun t => t = s) _ _ ?_ s rfl
  rintro b t hb rfl
  obtain ⟨hr, hm⟩ := List.mem_filter.1 hb
  exact ladderBar_off x _ (h b (List.mem_range.1 hr) hm)

theorem filter_range_single {n b : Nat} {p : Nat → Bool} (hb : b < n) (hp : ∀ k < n, p k = decide (k = b)) : (List.range n).filter p = [b] := by
  have h : (List.range n).filter p = (List.range n).filter (· == b) :=
    List.filter_congr fun k hk => (hp k (List.mem_range.1 hk)).trans (beq_eq_decide k b).symm
  rw [h, List.filter_beq, List.count_eq_one_of_mem List.nodup_range (List.mem_range.2 hb)]
  rfl

/-- A mask of one bar, whose strip no line of the block meets: one strip-bad record (R329). -/
theorem ladderWork_one (e : Fin 12) (s : State) (x : Blk) {b : Nat} (hb : b < 16)
    (hm : ∀ k < 16, bitN (s.get PIX_TASK_MASK e) k = decide (k = b)) (hl : s.getA PIX_STRIP_CFG_LEN b ≠ 0) (hd : s.get PIX_NC_CFG_DEPTH ≠ 0)
    (hs : s.stripLines x b = []) : (ladderWork e s x).get PIX_NC_WR = (s.get PIX_NC_WR + 1) % 2 ^ 32 := by
  unfold ladderWork
  simp only [filter_range_single hb hm, State.each_cons, State.each_nil]
  rw [ladderBar_empty [b] hl hs, OnlyEv_get (raiseLim_only ..) PIX_NC_WR 0 0 0 List.not_mem_nil (by decide)]
  exact nozRecord_wr { s with fresh := s.fresh + 1 } _ _ _ _ _ _ _ hd

end Sys2Proof.Machine

/-! PROOFS. Camera calibration (R336 to R338, R455). -/

namespace Sys2Proof.Machine

open Sys2Proof.Safety

/-! ### Registers written one after another -/

theorem OnlyRegs_each_wr {α : Type} (g : α → Nat) (v : α → Word) (l : List α) (s : State) :
    OnlyRegs (l.map g) s (s.each l fun x s => s.wr (g x) (v x)) :=
  State.each_inv (fun t => OnlyRegs (l.map g) s t) _ _ (fun x t hx ht => OnlyRegs_mono (OnlyRegs_trans ht (OnlyRegs_wr ..)) fun a ha => by
    rcases List.mem_append.1 ha with h | h
    · exact h
    · exact List.mem_map.2 ⟨x, hx, (List.mem_singleton.1 h).symm⟩) s (OnlyRegs_refl _ _)

/-- Of writes to registers of their own each one stays. -/
theorem rd_each_wr {α : Type} (g : α → Nat) (v : α → Word) (l : List α) (hl : (l.map g).Nodup) {x : α} (hx : x ∈ l) : ∀ s : State,
    (s.each l fun x s => s.wr (g x) (v x)).rd (g x) = v x := by
  induction l with
  | nil => cases hx
  | cons y r ih =>
    intro s
    rw [List.map_cons, List.nodup_cons] at hl
    rw [State.each_cons]
    rcases List.mem_cons.1 hx with rfl | hr
    · rw [(OnlyRegs_each_wr g v r _).1 _ hl.1, State.rd_wr_same]
    · exact ih hl.2 hr _

/-! ### The parameters of a camera unit, kept over a calibration (R336) -/

/-- The parameter registers of camera unit `u`. -/
def camParams (u : Nat) : List Nat := (List.range 24).map fun i => CAM_U_BLACK0.addr u + 4 * i

theorem mem_camParams {u a : Nat} (h : a ∈ camParams u) : 0xC01140 + 1024 * u ≤ a ∧ a < 0xC01140 + 1024 * u + 96 := by
  obtain ⟨i, hi, rfl⟩ := List.mem_map.1 h
  have := List.mem_range.1 hi
  simp only [Fld.addr]
  omega

/-- The parameters that the calibration keeps are written back. -/
def State.calRestore (s : State) (c : CalRun) : State :=
  s.each ((List.range 24).zip c.saved) fun p s => s.wr (CAM_U_BLACK0.addr c.unit + 4 * p.1) p.2

theorem calRestore_only (s : State) (c : CalRun) : OnlyRegs (camParams c.unit) s (s.calRestore c) :=
  OnlyRegs_mono (OnlyRegs_each_wr (fun p : Nat × Word => CAM_U_BLACK0.addr c.unit + 4 * p.1) Prod.snd _ s) fun a ha => by
    obtain ⟨p, hp, rfl⟩ := List.mem_map.1 ha
    exact List.mem_map.2 ⟨p.1, (List.of_mem_zip hp).1, rfl⟩

theorem rd_calRestore (s : State) (c : CalRun) (hc : c.saved.length = 24) {i : Nat} (hi : i < 24) :
    (s.calRestore c).rd (CAM_U_BLACK0.addr c.unit + 4 * i) = c.saved.getD i 0 := by
  have hmem : (i, c.saved.getD i 0) ∈ (List.range 24).zip c.saved := by
    rw [List.getD_eq_getElem _ _ (by omega)]
    refine List.mem_iff_getElem.2 ⟨i, by simp; omega, by simp⟩
  refine rd_each_wr (fun p : Nat × Word => CAM_U_BLACK0.addr c.unit + 4 * p.1) Prod.snd _ ?_ hmem s
  have hmap : ((List.range 24).zip c.saved).map (fun p => CAM_U_BLACK0.addr c.unit + 4 * p.1) = camParams c.unit := by
    have hfst : ((List.range 24).zip c.saved).map Prod.fst = List.range 24 := List.map_fst_zip (by simp; omega)
    rw [camParams, ← congrArg (List.map _) hfst, List.map_map]
    rfl
  rw [hmap]
  exact List.nodup_range.map fun a b h => by simpa using h

/-! ### The end of a calibration (R336) -/

/-- The RESULT shown, and BUSY cleared. -/
def State.calShows (s : State) (r : Nat) : State := (s.put CHL_CAL_STAT_BUSY false).set CHL_CAL_STAT_RESULT r

theorem calShows_only (s : State) (r : Nat) : OnlyRegs [CHL_CAL_STAT.addr] s (s.calShows r) :=
  OnlyRegs_mono (OnlyRegs_trans (OnlyRegs_set s CHL_CAL_STAT_BUSY (b2n false) 0 0 0)
    (OnlyRegs_set (s.put CHL_CAL_STAT_BUSY false) CHL_CAL_STAT_RESULT r 0 0 0)) (by decide)

theorem calShows_result (s : State) {r : Nat} (h : r < 8) : (s.calShows r).get CHL_CAL_STAT_RESULT = r :=
  (State.get_set_same _ CHL_CAL_STAT_RESULT r 0 0 0 (by decide)).trans (Nat.mod_eq_of_lt h)

theorem calShows_busy (s : State) (r : Nat) : (s.calShows r).on CHL_CAL_STAT_BUSY = false := by
  rw [State.on, State.calShows, State.get_set_bits _ _ _ _ _ _ _ _ _ _ (by decide)]
  exact State.on_put_same s CHL_CAL_STAT_BUSY false 0 0 0 rfl (by decide)

/-- A calibration that does not pass. -/
theorem calEnd_fail {s : State} {c : CalRun} (r : Nat) (hc : s.calRun = some c) (hr : r ≠ 0) :
    s.calEnd r = (({ s.calShows r with calRun := none } : State).calRestore c).raise EV_CAL_FAIL 255 [r] := by
  have hc' : ((s.put CHL_CAL_STAT_BUSY false).set CHL_CAL_STAT_RESULT r).calRun = some c := hc
  unfold State.calEnd
  simp only [hc', State.cond, bne_iff_ne, ne_eq, hr, not_false_eq_true, if_true]
  rfl

/-- A calibration that passes. -/
theorem calEnd_pass {s : State} {c : CalRun} (hc : s.calRun = some c) : s.calEnd 0 = { s.calShows 0 with calRun := none } := by
  have hc' : ((s.put CHL_CAL_STAT_BUSY false).set CHL_CAL_STAT_RESULT 0).calRun = some c := hc
  unfold State.calEnd
  simp only [hc', State.cond, if_true]
  rfl

/-- A refused GO. -/
theorem calEnd_idle {s : State} {r : Nat} (hc : s.calRun = none) (hr : r ≠ 0) : s.calEnd r = (s.calShows r).raise EV_CAL_FAIL 255 [r] := by
  have hc' : ((s.put CHL_CAL_STAT_BUSY false).set CHL_CAL_STAT_RESULT r).calRun = none := hc
  unfold State.calEnd
  simp only [hc', State.cond, bne_iff_ne, ne_eq, hr, not_false_eq_true, if_true]
  rfl

/-- What a calibration that does not pass changes, beside that none is in progress any more. -/
theorem calEnd_fail_only {s : State} {c : CalRun} {r : Nat} (hc : s.calRun = some c) (hr : r ≠ 0) :
    OnlyEv (CHL_CAL_STAT.addr :: camParams c.unit) { s with calRun := none } (s.calEnd r) := by
  rw [calEnd_fail r hc hr]
  have h1 : OnlyRegs [CHL_CAL_STAT.addr] { s with calRun := none } { s.calShows r with calRun := none } := calShows_only { s with calRun := none } r
  exact OnlyEv_mono (OnlyEv_trans (OnlyEv_of_regs (OnlyRegs_trans h1 (calRestore_only ..))) (raise_only ..)) (by simp)

/-- A calibration that does not pass shows its RESULT and leaves the unit's parameters as they were before it (R336). -/
theorem calEnd_fails {s : State} {c : CalRun} {r : Nat} (hc : s.calRun = some c) (hr : r ≠ 0) (h8 : r < 8) (hu : c.unit < 8)
    (hl : c.saved.length = 24) : (s.calEnd r).on CHL_CAL_STAT_BUSY = false ∧ (s.calEnd r).get CHL_CAL_STAT_RESULT = r ∧
      (s.calEnd r).calRun = none ∧ (s.calEnd r).cal = s.cal ∧
      ∀ i < 24, (s.calEnd r).rd (CAM_U_BLACK0.addr c.unit + 4 * i) = c.saved.getD i 0 := by
  have honly := calEnd_fail_only (r := r) hc hr
  have hrd : (s.calEnd r).rd CHL_CAL_STAT.addr = (s.calShows r).rd CHL_CAL_STAT.addr := by
    rw [calEnd_fail r hc hr, State.rd_raise _ _ _ _ (by decide), (calRestore_only ..).1 _ fun h => ?_]
    · rfl
    · have := mem_camParams h
      simp only [Fld.addr] at this
      omega
  refine ⟨?_, ?_, OnlyEv_proj honly State.calRun fun _ _ _ _ _ => rfl, OnlyEv_proj honly State.cal fun _ _ _ _ _ => rfl, fun i hi => ?_⟩
  · exact (congrArg (· == 1) (State.get_congr CHL_CAL_STAT_BUSY 0 0 0 hrd)).trans (calShows_busy s r)
  · exact (State.get_congr CHL_CAL_STAT_RESULT 0 0 0 hrd).trans (calShows_result s h8)
  · rw [calEnd_fail r hc hr, State.rd_raise _ _ _ _ (evReg_above (by simp only [Fld.addr]; omega)), rd_calRestore _ c hl hi]

/-! ### GO and ABORT (R8, R336) -/

theorem exec_calGo {s : State} (v : BitVec 32) (h : Hears s) : exec (.calGo v) s =
    if getBits v 0 1 = 0 ∨ s.on CHL_CAL_STAT_BUSY = true then .next s
    else if s.mode ≠ 6 then .next (s.calEnd 4)
    else .next (({ s with calRun := some ⟨getBits v 2 1 == 1, getBits v 3 3,
      (List.range 24).map fun i => s.rd (CAM_U_BLACK0.addr (getBits v 3 3) + 4 * i)⟩ } : State).put CHL_CAL_STAT_BUSY true) := heard_eq h _

theorem exec_calAbort {s : State} (h : Hears s) : exec .calAbort s =
    if s.on CHL_CAL_STAT_BUSY = true then .next (s.calEnd 5) else .next (s.set CHL_CAL_STAT_RESULT 6) := heard_eq h _

theorem exec_calComplete {s : State} {c : CalRun} (cols : List Rgb) (f : Bool) (w : List (BitVec 32)) (tn : List (BitVec 16))
    (mean top : BitVec 16) (hc : s.calRun = some c) : exec (.calComplete cols f w tn mean top) s =
      if c.colour then .next (s.calColour c.unit f (w.map (·.toNat)) (tn.map (·.toNat)) mean.toNat top.toNat)
      else .next (s.calFlat c.unit (cols.map fun p => p.map (·.toNat))) := by
  show execCalComplete cols f w tn mean top s = _
  simp only [execCalComplete, hc]

theorem exec_calComplete_idle {s : State} (cols : List Rgb) (f : Bool) (w : List (BitVec 32)) (tn : List (BitVec 16))
    (mean top : BitVec 16) (hc : s.calRun = none) : exec (.calComplete cols f w tn mean top) s = .next s := by
  show execCalComplete cols f w tn mean top s = _
  simp only [execCalComplete, hc]

/-- The age check raises events and does nothing else (R338). -/
theorem calStale_only (s : State) : Gives (exec .calStale s) fun t => OnlyEv [] s t := by
  refine ⟨_, rfl, State.each_inv (fun t => OnlyEv [] s t) _ _ (fun u t _ ht => ?_) s (OnlyEv_refl _ _)⟩
  simp only
  split_ifs
  · exact OnlyEv_trans ht (raise_only ..)
  · exact ht

/-! ### A passed FLAT (R336, R455) -/

/-- The calibration record that a passed calibration of unit `u` leaves. -/
def State.calNext (s : State) (u : Nat) (f : CamCal → CamCal) : CalRec :=
  let old := s.cal.getD ⟨0, 0, 0, List.replicate 64 0, List.replicate 8 CamCal.empty⟩
  { old with
    seq := (old.seq + 1) % 2 ^ 32, count := (old.count + 1) % 2 ^ 32, time := s.ptpSec,
    cams := (List.range 8).map fun i => if i = u then f (s.camCalNow u (old.cams.getD i CamCal.empty)) else old.cams.getD i CamCal.empty }

theorem calNext_count (s : State) (u : Nat) (f : CamCal → CamCal) :
    (s.calNext u f).count = ((s.cal.map fun o => o.count).getD 0 + 1) % 2 ^ 32 := by
  cases h : s.cal <;> simp [State.calNext, h]

theorem calNext_cam (s : State) {u : Nat} (f : CamCal → CamCal) (hu : u < 8) : ∃ x, (s.calNext u f).cams.getD u CamCal.empty = f x := by
  have hlen : u < (s.calNext u f).cams.length := by
    simp only [State.calNext, List.length_map, List.length_range]
    exact hu
  rw [List.getD_eq_getElem _ _ hlen]
  simp only [State.calNext, List.getElem_map, List.getElem_range, if_true]
  exact ⟨_, rfl⟩

/-- Storing the record keeps BUSY, RESULT and what is in progress. -/
theorem calStore_frame (s : State) (u : Nat) (f : CamCal → CamCal) : (s.calStore u f).cal = some (s.calNext u f) ∧
    (s.calStore u f).calRun = s.calRun ∧ (s.calStore u f).get CHL_CAL_STAT_BUSY = s.get CHL_CAL_STAT_BUSY ∧
    (s.calStore u f).get CHL_CAL_STAT_RESULT = s.get CHL_CAL_STAT_RESULT := by
  unfold State.calStore
  extract_lets old r s1 
  have honly := raise_only ((s1.set CHL_CAL_STAT_COUNT r.count).set CHL_CAL_TIME_SECONDS s1.ptpSec) EV_CAL_DONE 255 []
  have hget : ∀ g : Fld, g.addr = CHL_CAL_STAT.addr → g.lo + g.width ≤ 16 →
      ((((s1.set CHL_CAL_STAT_COUNT r.count).set CHL_CAL_TIME_SECONDS s1.ptpSec).raise EV_CAL_DONE 255).logRec 4 [u]).get g = s.get g := fun g hg hlo => by
    refine (OnlyEv_get honly g 0 0 0 List.not_mem_nil (by rw [hg]; decide)).trans ?_
    rw [State.get_set_addr _ _ _ _ _ _ _ _ _ _ (by rw [hg]; decide), State.get_set_bits _ _ _ _ _ _ _ _ _ _ (.inl hlo)]
    rfl
  exact ⟨OnlyEv_proj honly State.cal fun _ _ _ _ _ => rfl, OnlyEv_proj honly State.calRun fun _ _ _ _ _ => rfl,
    hget CHL_CAL_STAT_BUSY rfl (by decide), hget CHL_CAL_STAT_RESULT rfl (by decide)⟩

theorem ptpSec_congr {s t : State} (h : ∀ a, 0xF80000 ≤ a → a < 0xF90000 → t.rd a = s.rd a) : t.ptpSec = s.ptpSec := by
  have hf : ∀ f : Fld, 0xF80000 ≤ f.addr → f.addr < 0xF90000 → t.get f = s.get f := fun f h1 h2 => State.get_congr f 0 0 0 (h _ h1 h2)
  rw [State.ptpSec, State.ptpSec, hf _ (by decide) (by decide), hf _ (by decide) (by decide), hf _ (by decide) (by decide)]

/-- A mean of values of at least `m` is at least `m`. -/
theorem le_mean {m : Nat} (l : List Nat) (hl : l ≠ []) (h : ∀ x ∈ l, m ≤ x) : m ≤ l.foldl (· + ·) 0 / l.length := by
  rw [← List.sum_eq_foldl, Nat.le_div_iff_mul_le (List.length_pos_iff.2 hl), Nat.mul_comm]
  exact List.card_nsmul_le_sum l m h

/-- FLAT with no measured column (R336). -/
theorem calFlat_none (s : State) (u : Nat) : s.calFlat u [] = s.calEnd 7 := by
  unfold State.calFlat
  exact if_pos (.inl rfl)

/-- FLAT with every column bright enough passes: the tables are written where the unit has a place for them, and the record is stored (R336). -/
theorem calFlat_pass (s : State) (u : Nat) (cols : List (List Nat)) (h0 : cols ≠ []) (hl : s.get CHL_CAL_MAXAGE_FLATLINES ≠ 0)
    (hb : ∀ p ∈ cols, ∀ c < 3, 16384 ≤ p.getD c 0) : ∃ t words, OnlyMem { s with fresh := s.fresh + 1 } t ∧
      s.calFlat u cols = (t.calEnd 0).calStore u fun x => { x with flags := x.flags ||| 2, flat := words, nflat := cols.length } := by
  have hmean : ∀ c < 3, 16384 ≤ (cols.map fun p => p.getD c 0).foldl (· + ·) 0 / cols.length := fun c hc => by
    have := le_mean (m := 16384) (cols.map fun p => p.getD c 0) (by simpa using h0) fun x hx => by
      obtain ⟨p, hp, rfl⟩ := List.mem_map.1 hx
      exact hb p hp c hc
    rwa [List.length_map] at this
  have hn : cols.length ≠ 0 := by simpa using h0
  have hdark : ¬ (List.range 3).any (fun c => decide ((cols.map fun p => p.getD c 0).foldl (· + ·) 0 / cols.length < 16384)) = true := by
    simp only [List.any_eq_true, List.mem_range, decide_eq_true_eq, not_exists, not_and, Nat.not_lt]
    exact hmean
  unfold State.calFlat
  simp only [hn, if_false]
  rw [if_neg (by simp only [hl, false_or]; exact hdark)]
  refine ⟨_, _, ?_, rfl⟩
  unfold State.cond
  split_ifs
  · exact st_onlyMem ..
  · exact OnlyMem_refl _

end Sys2Proof.Machine

/-! PROOFS. Colour tasks and camera calibration together. -/

namespace Sys2Proof.Machine

open Sys2Proof.Safety

/-- A passed FLAT: RESULT 0, and the record in force counts one more, with the unit's flat field in it (R336, R455). -/
theorem calFlat_stores {s : State} {c : CalRun} (cols : List (List Nat)) (hc : s.calRun = some c) (hu : c.unit < 8) (h0 : cols ≠ [])
    (hl : s.get CHL_CAL_MAXAGE_FLATLINES ≠ 0) (hb : ∀ p ∈ cols, ∀ c < 3, 16384 ≤ p.getD c 0) :
    (s.calFlat c.unit cols).on CHL_CAL_STAT_BUSY = false ∧ (s.calFlat c.unit cols).get CHL_CAL_STAT_RESULT = 0 ∧
      (s.calFlat c.unit cols).calRun = none ∧ ∃ r, (s.calFlat c.unit cols).cal = some r ∧ r.time = s.ptpSec ∧
        r.count = ((s.cal.map fun o => o.count).getD 0 + 1) % 2 ^ 32 ∧
        bitN (r.cams.getD c.unit CamCal.empty).flags 1 = true ∧ (r.cams.getD c.unit CamCal.empty).nflat = cols.length := by
  obtain ⟨t, words, ht, hflat⟩ := calFlat_pass s c.unit cols h0 hl hb
  have htrun : t.calRun = some c := (OnlyMem_proj ht State.calRun fun _ _ _ _ => rfl).trans hc
  have htcal : t.cal = s.cal := OnlyMem_proj ht State.cal fun _ _ _ _ => rfl
  rw [hflat, calEnd_pass htrun]
  generalize hf : (fun x : CamCal => { x with flags := x.flags ||| 2, flat := words, nflat := cols.length }) = f
  obtain ⟨hcal, hrun, hbusy, hres⟩ := calStore_frame { t.calShows 0 with calRun := none } c.unit f
  obtain ⟨x, hx⟩ := calNext_cam { t.calShows 0 with calRun := none } f hu
  refine ⟨(congrArg (· == 1) hbusy).trans (calShows_busy t 0), hres.trans (calShows_result t (by decide)), hrun, _, hcal, ?_, ?_, ?_, ?_⟩
  · refine ptpSec_congr fun a h1 h2 => ?_
    refine ((calShows_only t 0).1 a ?_).trans (ht.1 a ?_)
    · simp only [Fld.addr, List.mem_singleton]
      omega
    · simp [memReg]
      omega
  · rw [calNext_count]
    exact congrArg (fun o : Option CalRec => ((o.map fun o => o.count).getD 0 + 1) % 2 ^ 32) htcal
  · rw [hx, ← hf, bitN_testBit, Nat.testBit_or]
    exact Bool.or_true _
  · rw [hx, ← hf]

/-- COLOUR over MEAN_MAX ends FAIL and shows the mean (R336, R337). -/
theorem calColour_over {s : State} {c : CalRun} (words tone : List Nat) (mean top : Nat) (hc : s.calRun = some c) (hu : c.unit < 8)
    (hlen : c.saved.length = 24) (ht : s.tileCheck = 0) (hm : mean < 2 ^ 16) (hover : s.get CHL_CAL_LIMIT_MEAN_MAX < mean) :
    (s.calColour c.unit true words tone mean top).on CHL_CAL_STAT_BUSY = false ∧
      (s.calColour c.unit true words tone mean top).get CHL_CAL_STAT_RESULT = 1 ∧
      (s.calColour c.unit true words tone mean top).get CHL_CAL_DE_MEAN = mean ∧ (s.calColour c.unit true words tone mean top).cal = s.cal := by
  have hlim : ((s.set CHL_CAL_DE_MEAN mean).set CHL_CAL_DE_MAX top).get CHL_CAL_LIMIT_MEAN_MAX = s.get CHL_CAL_LIMIT_MEAN_MAX := by
    rw [State.get_set_addr _ _ _ _ _ _ _ _ _ _ (by decide), State.get_set_addr _ _ _ _ _ _ _ _ _ _ (by decide)]
  have hend : s.calColour c.unit true words tone mean top = ((s.set CHL_CAL_DE_MEAN mean).set CHL_CAL_DE_MAX top).calEnd 1 := by
    unfold State.calColour
    simp [ht, hlim, hover]
  have hrun : ((s.set CHL_CAL_DE_MEAN mean).set CHL_CAL_DE_MAX top).calRun = some c := hc
  have honly := calEnd_fail_only (r := 1) hrun (by decide)
  obtain ⟨hbusy, hres, -, hcal, -⟩ := calEnd_fails (r := 1) hrun (by decide) (by decide) hu hlen
  rw [hend]
  refine ⟨hbusy, hres, ?_, hcal⟩
  refine (OnlyEv_get honly CHL_CAL_DE_MEAN 0 0 0 (fun h => ?_) (by decide)).trans ?_
  · rcases List.mem_cons.1 h with h | h
    · exact absurd h (by decide)
    · have := mem_camParams h
      simp only [Fld.addr] at this
      omega
  · refine (State.get_set_bits (s.set CHL_CAL_DE_MEAN mean) CHL_CAL_DE_MAX CHL_CAL_DE_MEAN top 0 0 0 0 0 0 (by decide)).trans ?_
    exact (State.get_set_same s CHL_CAL_DE_MEAN mean 0 0 0 (by decide)).trans (Nat.mod_eq_of_lt hm)

/-- Three channels of a measured column, each bright enough (R336). -/
theorem bright_column {p : Rgb} (h : p.length = 3 ∧ ∀ y ∈ p, 16384 ≤ y.toNat) (c : Nat) (hc : c < 3) : 16384 ≤ (p.map (·.toNat)).getD c 0 := by
  obtain ⟨hl, hb⟩ := h
  rw [List.getD_eq_getElem _ _ (by simpa [hl] using hc), List.getElem_map]
  exact hb _ (List.getElem_mem _)

/-- A task that is idle, busy, or free with no block in its slot (R314, R341). -/
theorem task_outcomes (s : State) (e : Fin 12) (q : BitVec 32) (us : BitVec 16) (kind : Nat) (f : State → Blk → State) :
    (s.taskIdle e kind → ∀ b, s.taskRun e kind q.toNat b us.toNat f = s) ∧
    (¬ s.taskIdle e kind → Gives (.next (s.taskRun e kind q.toNat true us.toNat f)) fun t =>
      t.get PIX_TASK_STAT_SKIP e = min (s.get PIX_TASK_STAT_SKIP e + 1) 65535 ∧
      t.get PIX_TASK_STAT_TIME e = s.get PIX_TASK_STAT_TIME e ∧ OnlyEv [PIX_TASK_STAT.addr e] s t) ∧
    (¬ s.taskIdle e kind → s.blkOf (s.get PIX_TASK_UNIT e) q.toNat (s.get PIX_TASK_STREAM e) = none →
      Gives (.next (s.taskRun e kind q.toNat false us.toNat f)) fun t =>
        t.get PIX_TASK_SEQ e = q.toNat ∧ t.get PIX_TASK_STAT_TIME e = us.toNat ∧ t.get PIX_TASK_STAT_SKIP e = s.get PIX_TASK_STAT_SKIP e ∧
        OnlyRegs [PIX_TASK_SEQ.addr e, PIX_TASK_STAT.addr e] s t) := by
  have hus := us.isLt
  refine ⟨fun h b => taskRun_idle _ _ _ _ h, fun h => ?_, fun h hx => ?_⟩
  · rw [taskRun_busy _ _ _ h]
    exact taskSkips s e
  · rw [taskRun_none _ h (by omega) hx]
    exact ⟨_, rfl, taskNames_seq s e _ q.isLt, taskNames_time s e _ hus, taskNames_skip .., taskNames_only ..⟩

/-- A ZONE task that takes a block (R316, R317). -/
theorem zoneTask_takes {s : State} {e : Fin 12} {q : BitVec 32} (us : BitVec 16) {x : Blk} (h : ¬ s.taskIdle e 1)
    (hx : s.blkOf (s.get PIX_TASK_UNIT e) q.toNat (s.get PIX_TASK_STREAM e) = some x) (hd : s.get PIX_ZR_CFG_DEPTH ≠ 0) :
    Gives (exec (.zoneTask e q false us) s) fun t =>
      t.get PIX_TASK_SEQ e = q.toNat ∧ t.get PIX_TASK_STAT_TIME e = us.toNat ∧ t.mode = s.mode ∧ t.queues = s.queues ∧
      t.get PIX_ZR_WR = (s.get PIX_ZR_WR + ((List.range 12).filter fun n => bitN (s.get PIX_TASK_MASK e) n).length) % 2 ^ 32 := by
  have hus := us.isLt
  obtain ⟨hwr, hmode, hq⟩ := zoneWork_records e s x hd
  rw [exec_zoneTask, taskRun_some _ h (by omega) hx]
  refine ⟨_, rfl, taskNames_seq _ e _ q.isLt, taskNames_time _ e _ hus, (taskNames_mode ..).trans hmode, hq, ?_⟩
  rw [taskNames_get _ _ _ _ PIX_ZR_WR (by simp only [Fld.addr]; omega) (by simp only [Fld.addr]; omega), hwr]

/-- A LADDER task that takes a block (R329). -/
theorem ladderTask_takes {s : State} {e : Fin 12} {q : BitVec 32} (us : BitVec 16) {x : Blk} (h : ¬ s.taskIdle e 2)
    (hx : s.blkOf (s.get PIX_TASK_UNIT e) q.toNat (s.get PIX_TASK_STREAM e) = some x) :
    Gives (exec (.ladderTask e q false us) s) fun t => t.get PIX_TASK_SEQ e = q.toNat ∧
      t.get PIX_TASK_STAT_TIME e = us.toNat ∧ t.mode = s.mode ∧
      ((∀ b < 16, bitN (s.get PIX_TASK_MASK e) b = true → s.getA PIX_STRIP_CFG_LEN b = 0) → t.get PIX_NC_WR = s.get PIX_NC_WR ∧ t.store = s.store) ∧
      (∀ b < 16, (∀ k < 16, bitN (s.get PIX_TASK_MASK e) k = decide (k = b)) → s.getA PIX_STRIP_CFG_LEN b ≠ 0 → s.get PIX_NC_CFG_DEPTH ≠ 0 →
        s.stripLines x b = [] → t.get PIX_NC_WR = (s.get PIX_NC_WR + 1) % 2 ^ 32) := by
  have hus := us.isLt
  have hnc : ∀ t : State, (t.taskNames e q.toNat us.toNat).get PIX_NC_WR = t.get PIX_NC_WR := fun t =>
    taskNames_get _ _ _ _ PIX_NC_WR (by simp only [Fld.addr]; omega) (by simp only [Fld.addr]; omega)
  rw [exec_ladderTask, taskRun_some _ h (by omega) hx]
  refine ⟨_, rfl, taskNames_seq _ e _ q.isLt, taskNames_time _ e _ hus, (taskNames_mode ..).trans (ladderWork_mode ..), fun hoff => ?_,
    fun b hb hm hl hd hs => (hnc _).trans (ladderWork_one e s x hb hm hl hd hs)⟩
  rw [hnc, ladderWork_off e s x hoff]
  exact ⟨rfl, rfl⟩

/-- Settles O46: a task is one of idle, busy and taken; a calibration keeps the unit's parameters and writes them back unless it passes. -/
theorem colourTasksAndCameraCalibration : Obligations.ColourTasksAndCameraCalibration := by
  unfold Obligations.ColourTasksAndCameraCalibration
  refine ⟨fun s e q us kind c hc => ?_, fun s e q us x hrun hx => ?_, fun s v hh => ?_, fun s c hc hu hlen => ?_, fun s cols f w tn mean top => ?_⟩
  · intro idle
    have hexec : ∃ g, ∀ b, exec (c b) s = .next (s.taskRun e kind q.toNat b us.toNat g) := by
      simp only [List.mem_cons, List.not_mem_nil, or_false, Prod.mk.injEq] at hc
      rcases hc with ⟨rfl, rfl⟩ | ⟨rfl, rfl⟩
      · exact ⟨_, fun b => exec_zoneTask e q b us s⟩
      · exact ⟨_, fun b => exec_ladderTask e q b us s⟩
    obtain ⟨g, hg⟩ := hexec
    obtain ⟨hidle, hbusy, hfree⟩ := task_outcomes s e q us kind g
    simp only [hg]
    exact ⟨fun h b => congrArg _ (hidle h b), hbusy, hfree⟩
  · have hact : ∀ kind, s.get PIX_TASK_KIND e = kind → ¬ s.taskIdle e kind := fun kind hk h => by
      rcases h with h | ⟨h2, h3⟩
      · exact h hk
      · exact hrun.elim h2 h3
    exact ⟨fun hk hd => zoneTask_takes us (hact 1 hk) hx hd, fun hk => ladderTask_takes us (hact 2 hk) hx⟩
  · rw [exec_calGo v hh, exec_calAbort hh]
    refine ⟨fun h => if_pos h, fun hgo hb hm hr => ?_, fun hgo hb hm => ?_, fun hb => ?_⟩
    · rw [if_neg (by simp [hgo, hb]), if_pos hm, calEnd_idle hr (by decide)]
      refine ⟨_, rfl, ?_, ?_, OnlyEv_trans (A := [CHL_CAL_STAT.addr]) (B := []) (OnlyEv_of_regs (calShows_only s 4)) (raise_only ..)⟩
      · exact (State.get_raise _ _ _ _ CHL_CAL_STAT_RESULT 0 0 0 (by decide)).trans (calShows_result s (by decide))
      · exact (congrArg (· == 1) (State.get_raise _ _ _ _ CHL_CAL_STAT_BUSY 0 0 0 (by decide))).trans (calShows_busy s 4)
    · rw [if_neg (by simp [hgo, hb]), if_neg (by simp [hm])]
      refine ⟨_, rfl, State.on_put_same _ CHL_CAL_STAT_BUSY true 0 0 0 rfl (by decide), ?_, ?_, rfl⟩
      · exact State.get_set_bits _ CHL_CAL_STAT_BUSY CHL_CAL_STAT_RESULT _ 0 0 0 0 0 0 (by decide)
      · exact OnlyRegs_set s CHL_CAL_STAT_BUSY (b2n true) 0 0 0
    · rw [if_neg (by simp [hb])]
      exact ⟨_, rfl, State.get_set_same _ _ _ _ _ _ (by decide), OnlyRegs_set s CHL_CAL_STAT_RESULT 6 0 0 0⟩
  · refine ⟨fun hh hb => ?_, fun cols f w tn mean top => ⟨fun hk h0 => ?_, fun hk h0 hl hb => ?_, fun hk ht hf hover => ?_⟩⟩
    · rw [exec_calAbort hh, if_pos hb]
      obtain ⟨hbusy, hres, hrun, hcal, hpar⟩ := calEnd_fails (r := 5) hc (by decide) (by decide) hu hlen
      exact ⟨_, rfl, hbusy, hres, hrun, hcal, hpar⟩
    · rw [exec_calComplete _ _ _ _ _ _ hc, if_neg (by simp [hk]), h0, List.map_nil, calFlat_none]
      obtain ⟨hbusy, hres, -, hcal, hpar⟩ := calEnd_fails (r := 7) hc (by decide) (by decide) hu hlen
      exact ⟨_, rfl, hbusy, hres, hcal, hpar⟩
    · rw [exec_calComplete _ _ _ _ _ _ hc, if_neg (by simp [hk])]
      have hstore := calFlat_stores (cols.map fun p => p.map (·.toNat)) hc hu (by simpa using h0) hl fun p hp => by
        obtain ⟨p, hp', rfl⟩ := List.mem_map.1 hp
        exact bright_column (hb p hp')
      rw [List.length_map] at hstore
      exact ⟨_, rfl, hstore⟩
    · rw [exec_calComplete _ _ _ _ _ _ hc, if_pos hk, hf]
      exact ⟨_, rfl, calColour_over _ _ _ _ hc hu hlen ht mean.isLt hover⟩
  · exact ⟨exec_calComplete_idle cols f w tn mean top, calStale_only s⟩

end Sys2Proof.Machine

/-! PROOFS. What a head port sends (R261, R264, R269). -/

namespace Sys2Proof.Machine

open Sys2Proof.Safety

/-! ### The own state of a port -/

theorem hp_setHp_same (s : State) (p : Nat) (x : HPort) : (s.setHp p x).hp p = x := smGet_put_same ..

theorem hp_setHp_other (s : State) {p k : Nat} (x : HPort) (h : k ≠ p) : (s.setHp p x).hp k = s.hp k := smGet_put_other _ _ _ h

/-- Words put on the link of a port are its output, and nothing else of it or of another port changes. -/
theorem hp_sendFrame_same (s : State) (p kind flags spec : Nat) (data : List Dword) :
    (s.sendFrame p kind flags spec data).hp p = { s.hp p with out := frameWords kind flags spec data } := hp_setHp_same ..

theorem hp_sendFrame_other (s : State) {p k : Nat} (kind flags spec : Nat) (data : List Dword) (h : k ≠ p) :
    (s.sendFrame p kind flags spec data).hp k = s.hp k := hp_setHp_other _ _ h

theorem hp_set64 (s : State) (f : Fld) (z : Int) (i j k p : Nat) : (s.set64 f z i j k).hp p = s.hp p := rfl

theorem sendFrame_hport (s : State) (p kind flags spec : Nat) (data : List Dword) (m : SMap HPort) :
    { s.sendFrame p kind flags spec data with hport := m } = { s with hport := m } := rfl

/-- A change of registers, with the ports' own state besides. -/
theorem OnlyRegs_hport {A : List Nat} {s t : State} {m : SMap HPort} (h : OnlyRegs A { s with hport := m } t) :
    OnlyRegs A s { t with hport := s.hport } := by
  obtain ⟨hregs, heq⟩ := h
  refine ⟨hregs, ?_⟩
  rw [heq]

/-! ### Frames of lines and of the time -/

/-- A LINE frame that goes out leaves the line among the lines sent, and SENT and the next line after it (R261, R269). -/
theorem sendLine_sent (s : State) (p : Port) (x : Int) (flags : Nat) (w : List Dword) :
    let t := s.sendLine p x flags w
    (t.hp p).out = frameWords 1 flags (ux 32 x) w ∧ (t.hp p).sent = (s.hp p).sent ++ [⟨x, flags, w, 0⟩] ∧ (t.hp p).next = x + 1 ∧
      t.geti64 HPL_PORT_SENT_LO p = sx 64 (ux 64 (x + 1)) ∧
      OnlyRegs [HPL_PORT_SENT_LO.addr p, HPL_PORT_SENT_HI.addr p] s { t with hport := s.hport } ∧ ∀ k : Port, k ≠ p → t.hp k = s.hp k := by
  extract_lets t
  have hhi : HPL_PORT_SENT_HI.addr p = HPL_PORT_SENT_LO.addr p + 4 := by
    simp only [Fld.addr]
    omega
  refine ⟨?_, ?_, ?_, congrArg (sx 64) (State.get64_set64 ..), ?_, fun k hk => ?_⟩
  · simp only [t, State.sendLine, hp_sendFrame_same]
  · simp only [t, State.sendLine, hp_sendFrame_same, hp_set64, hp_setHp_same]
  · simp only [t, State.sendLine, hp_sendFrame_same, hp_set64, hp_setHp_same]
  · rw [hhi]
    simp only [t, State.sendLine, sendFrame_hport]
    exact OnlyRegs_hport (OnlyRegs_set64 _ HPL_PORT_SENT_LO (x + 1) p 0 0)
  · have hk : k.val ≠ p.val := fun h => hk (Fin.ext h)
    simp only [t, State.sendLine, hp_sendFrame_other _ _ _ _ _ hk, hp_set64, hp_setHp_other _ _ hk]

theorem exec_lineFrameSend (p : Port) (s : State) : exec (.lineFrameSend p) s = execLineFrameSend p s := rfl

/-- Nothing goes out unless the port may send lines and its next line is released and ready (R269). -/
theorem exec_lineFrameSend_idle {s : State} {p : Port}
    (h : ¬ (s.canLine p = true ∧ s.released p (s.nextSend p) = true ∧ s.lineReady p (s.nextSend p) = true)) :
    exec (.lineFrameSend p) s = .next s := by
  rw [exec_lineFrameSend]
  unfold execLineFrameSend
  dsimp only
  rw [if_neg (by simpa [and_assoc] using h)]

theorem exec_lineFrameSend_content {s : State} {p : Port}
    (h : s.canLine p = true ∧ s.released p (s.nextSend p) = true ∧ s.lineReady p (s.nextSend p) = true) :
    exec (.lineFrameSend p) s = .next (s.sendContent p (s.nextSend p)) := by
  rw [exec_lineFrameSend]
  unfold execLineFrameSend
  dsimp only
  rw [if_pos (by simpa [and_assoc] using h)]

/-- A line whose ring slot holds good words goes out with them (R261). -/
theorem sendContent_ring {s : State} {p : Nat} {x : Int} (hsub : s.subOf (s.get HPL_PORT_CFG_BAR p) x = none)
    (hbad : s.bad (s.slotAt p x) (8 * (s.ringWords p x).length) = false) (hodd : (s.ringWords p x).filter oddWord = []) :
    s.sendContent p x = s.sendLine p x 0 (s.ringWords p x) := by
  unfold State.sendContent
  simp only [hsub, hbad, hodd, List.length_nil, Bool.false_eq_true, if_true, if_false]

/-- A line substituted by BLANK goes out with flag 1 and no words (R261). -/
theorem sendContent_blank {s : State} {p d : Nat} {x : Int} (hsub : s.subOf (s.get HPL_PORT_CFG_BAR p) x = some (0, d)) :
    s.sendContent p x = s.sendLine p x 1 [] := by
  unfold State.sendContent
  simp only [hsub, if_true]

theorem exec_pingPeriod {s : State} {p : Port} (hc : s.canCtl p = true) (hp : s.get HPL_CTL_PING_PER ≠ 0) :
    exec (.pingPeriod p) s = .next (s.sendPing p) := by
  change execPingPeriod p s = _
  rw [execPingPeriod, if_pos (by simp [hc, hp])]

theorem exec_pingPeriod_idle {s : State} {p : Port} (hc : s.canCtl p = false) : exec (.pingPeriod p) s = .next s := by
  change execPingPeriod p s = _
  rw [execPingPeriod, if_neg (by simp [hc])]

theorem exec_timeSyncPeriod {s : State} {p : Port} (hc : s.canCtl p = true) (hp : s.get HPL_CTL_TIME_PER ≠ 0) :
    exec (.timeSyncPeriod p) s = .next ((s.setHp p { s.hp p with syncSeq := ((s.hp p).syncSeq + 1) % 65536 }).sendFrame p 3 0 (s.hp p).syncSeq
      [2, BitVec.ofNat 64 s.stamp, BitVec.ofInt 64 (s.barPos (s.get HPL_PORT_CFG_BAR p))]) := by
  change execTimeSyncPeriod p s = _
  unfold execTimeSyncPeriod
  rw [if_pos (by simp [hc, hp])]

theorem exec_timeSyncPeriod_idle {s : State} {p : Port} (hc : s.canCtl p = false) : exec (.timeSyncPeriod p) s = .next s := by
  change execTimeSyncPeriod p s = _
  unfold execTimeSyncPeriod
  rw [if_neg (by simp [hc])]

/-- Settles O42: each frame is one write of the port's own state, and a LINE frame writes SENT besides. -/
theorem headLinksSend : Obligations.HeadLinksSend := by
  unfold Obligations.HeadLinksSend
  intro s p x h may Sent
  refine ⟨fun hno => exec_lineFrameSend_idle hno, fun hmay hsub hbad hodd => ?_, fun d hmay hsub => ?_, fun hc hp => ?_, fun hc hp => ?_, fun hc => ?_⟩
  · exact ⟨_, by rw [exec_lineFrameSend_content hmay, sendContent_ring hsub hbad hodd], sendLine_sent ..⟩
  · exact ⟨_, by rw [exec_lineFrameSend_content hmay, sendContent_blank hsub], sendLine_sent ..⟩
  · refine ⟨_, exec_pingPeriod hc hp, ?_⟩
    simp only [State.sendPing, hp_sendFrame_same, hp_setHp_same]
    exact ⟨rfl, rfl, rfl, rfl⟩
  · refine ⟨_, exec_timeSyncPeriod hc hp, ?_⟩
    simp only [hp_sendFrame_same, hp_setHp_same]
    exact ⟨rfl, rfl, rfl, rfl⟩
  · exact ⟨exec_pingPeriod_idle hc, exec_timeSyncPeriod_idle hc⟩

end Sys2Proof.Machine

/-! PROOFS. What the host writes of the sequencers (R33, R83, R85, R99, R121 to R124). -/

namespace Sys2Proof.Machine

open Sys2Proof.Safety

theorem OnlyRegs_put (s : State) (f : Fld) (b : Bool) (i j k : Nat) : OnlyRegs [f.addr i j k] s (s.put f b i j k) := OnlyRegs_set ..

/-! ### Rows of the register tables -/

/-- A row of a register table whose registers all stand below an address. -/
def rowBelow (lim : Nat) (r : RegDef) : Bool :=
  match r.dims with
  | [] => decide (r.base < lim)
  | (st, n) :: _ => decide (0 < st) && decide (r.base + st * n ≤ lim)

/-- A row that ends below an address has no register at it or above. -/
theorem dimIndex_rowBelow {lim a : Nat} {r : RegDef} (h : rowBelow lim r = true) (ha : lim ≤ a) : dimIndex r.dims (a - r.base) 0 = none := by
  unfold rowBelow at h
  unfold dimIndex
  split <;> rename_i heq <;> simp only [heq, Bool.and_eq_true, decide_eq_true_eq] at h
  · rw [if_neg (by omega)]
  · obtain ⟨hst, hend⟩ := h
    rw [if_neg]
    rw [Nat.div_lt_iff_lt_mul hst, Nat.mul_comm]
    omega

/-- The rows of a table that end below an address do not matter for it. -/
theorem findIn_rowsBelow {lim a : Nat} (l m : List RegDef) (h : ∀ r ∈ l, rowBelow lim r = true) (ha : lim ≤ a) :
    findIn (l ++ m) a = findIn m a := by
  induction l with
  | nil => rfl
  | cons r l ih =>
    have ih := ih fun q hq => h q (List.mem_cons_of_mem _ hq)
    have hr := dimIndex_rowBelow (h r List.mem_cons_self) ha
    rw [List.cons_append, findIn, hr]
    split <;> exact ih

/-- The row of the general registers of the engines (R83). -/
def rowG : RegDef := ⟨0x90000, [(4096, 28), (4, 32)], [⟨0, 32, .RW, 0, 0, false⟩]⟩

theorem regFind_G {e r : Nat} (he : e < 28) (hr : r < 32) : regFind (ENG_G.addr e r) = some (rowG, r) := by
  have haddr : ENG_G.addr e r = 0x90000 + (4096 * e + 4 * r) := by
    simp only [Fld.addr]
    omega
  have htab : regsAt (ENG_G.addr e r) = regsSEQ := by
    unfold regsAt
    rw [haddr, if_neg (by omega), if_neg (by omega), if_neg (by omega), if_neg (by omega), if_pos (by omega)]
  have hsplit : regsSEQ = regsSEQ.take 30 ++ rowG :: regsSEQ.drop 31 := rfl
  have hbelow : ∀ q ∈ regsSEQ.take 30, rowBelow 0x90000 q = true := by decide
  have hbase : rowG.base = 0x90000 := rfl
  have hoff : ENG_G.addr e r - rowG.base = 4096 * e + 4 * r := by omega
  have hdim : dimIndex rowG.dims (4096 * e + 4 * r) 0 = some r := by
    change dimIndex [(4096, 28), (4, 32)] (4096 * e + 4 * r) 0 = some r
    simp only [dimIndex]
    rw [if_pos (by omega), if_pos (by omega), if_pos (by omega)]
    exact congrArg some (by omega)
  rw [regFind, htab, hsplit, findIn_rowsBelow _ _ hbelow (by omega), findIn, if_pos (by omega), hoff, hdim]

/-- A general register takes a written word whole. -/
theorem writeBits_G {e r : Nat} (he : e < 28) (hr : r < 32) (old v : Word) : writeBits (ENG_G.addr e r) old v = v := by
  have hmask : ∀ p : FieldDef → Bool, maskAt p (ENG_G.addr e r) = if p ⟨0, 32, .RW, 0, 0, false⟩ then BitVec.allOnes 32 else 0 := fun p => by
    simp only [maskAt, regFind_G he hr, rowG, fieldsMask]
    split <;> rfl
  have hones : ∀ x : Word, x &&& BitVec.allOnes 32 = x := fun x => BitVec.and_allOnes
  simp only [writeBits, hmask]
  simp [-BitVec.reduceAllOnes, hones]

/-! ### The latches of an engine (R99, R100) -/

/-- The latches 32 to 63 of an engine are the bits of ENG_EVLATCH1 (R99). -/
theorem latch_evlatch1 (s : State) (e : Nat) {k : Nat} (hk : k < 32) : s.latch e (32 + k) =
    if bitN (s.get ENG_EVLATCH1 e) k then
      { s with latchMore := smPut (fun _ => 0) s.latchMore e (putBit (smGet (fun _ => 0) s.latchMore e) (32 + k) true) }
    else s.set ENG_EVLATCH1 (putBit (s.get ENG_EVLATCH1 e) k true) e := by
  have hmod : (32 + k) % 32 = k := by omega
  simp only [State.latch, if_neg (show ¬ 32 + k < 32 by omega), if_pos (show 32 + k < 64 by omega), hmod]

/-- Setting a latch of ENG_EVLATCH1 sets that bit of that engine and no other. -/
theorem bitN_latch (s : State) (e x : Nat) {k j : Nat} (hk : k < 32) (hj : j < 32) :
    bitN ((s.latch e (32 + k)).get ENG_EVLATCH1 x) j = (bitN (s.get ENG_EVLATCH1 x) j || (decide (x = e) && decide (j = k))) := by
  rw [latch_evlatch1 s e hk]
  split
  · next hset =>
    change bitN (s.get ENG_EVLATCH1 x) j = _
    by_cases hx : x = e ∧ j = k
    · obtain ⟨rfl, rfl⟩ := hx
      simp [hset]
    · have : (decide (x = e) && decide (j = k)) = false := by simpa using hx
      rw [this, Bool.or_false]
  · by_cases hx : x = e
    · subst hx
      rw [State.get_set_same _ _ _ _ _ _ (by decide), bitN_testBit, bitN_testBit, Nat.testBit_mod_two_pow, testBit_putBit]
      by_cases hjk : j = k <;> simp [hj, hjk, hk]
    · rw [State.get_set_addr _ _ _ _ _ _ _ _ _ _ (by simp only [Fld.addr]; omega)]
      simp [hx]

theorem bitN_latchAll (s : State) {x k j : Nat} (hx : x < 28) (hk : k < 32) (hj : j < 32) :
    bitN ((s.latchAll (32 + k)).get ENG_EVLATCH1 x) j = (bitN (s.get ENG_EVLATCH1 x) j || decide (j = k)) := by
  have each : ∀ n : Nat, bitN ((s.each (List.range n) fun e s => s.latch e (32 + k)).get ENG_EVLATCH1 x) j =
      (bitN (s.get ENG_EVLATCH1 x) j || (decide (x < n) && decide (j = k))) := fun n => by
    induction n with
    | zero => simp [State.each_nil]
    | succ n ih =>
      rw [State.each_range_succ, bitN_latch _ _ _ hk hj, ih]
      rw [Bool.or_assoc, ← Bool.and_or_distrib_right, ← Bool.decide_or]
      simp only [Nat.lt_succ_iff_lt_or_eq]
  rw [State.latchAll, each 28]
  simp [hx]

/-- Latches set in every engine are bits of ENG_EVLATCH1 set in every engine. -/
theorem bitN_latchAlls (l : List Nat) (s : State) {x j : Nat} (hx : x < 28) (hl : ∀ t ∈ l, t < 24) (hj : j < 32) :
    bitN ((s.each l fun t s => s.latchAll (40 + t)).get ENG_EVLATCH1 x) j = (bitN (s.get ENG_EVLATCH1 x) j || decide (∃ t ∈ l, j = 8 + t)) := by
  induction l generalizing s with
  | nil => simp [State.each_nil]
  | cons t l ih =>
    have ht := hl t List.mem_cons_self
    rw [State.each_cons, ih _ fun q hq => hl q (List.mem_cons_of_mem _ hq), show 40 + t = 32 + (8 + t) by omega,
      bitN_latchAll s hx (by omega) hj]
    simp [Bool.or_assoc]

/-- Setting a latch in every engine neither marks the start trigger nor changes the mode. -/
theorem latchAll_mode (s : State) (n : Nat) : (s.latchAll n).startTrig = s.startTrig ∧ (s.latchAll n).mode = s.mode := by
  refine State.each_inv (fun t => t.startTrig = s.startTrig ∧ t.mode = s.mode) _ _ (fun e t _ ht => ?_) s ⟨rfl, rfl⟩
  obtain ⟨hregs, hrest⟩ := latch_frame t e n
  refine ⟨by rw [hrest, ← ht.1], ?_⟩
  rw [← ht.2]
  refine State.get_congr _ _ _ _ (hregs _ ?_ ?_ ?_)
  all_goals
    simp only [Fld.addr]
    omega

/-! ### The commands of the host -/

theorem exec_engDoorbell {s : State} (e : Eng) (h : Hears s) : exec (.engDoorbell e) s = .next (s.latch e 60) := heard_eq h _

theorem exec_hostTrig {s : State} (m : BitVec 16) (h : Hears s) :
    exec (.hostTrig m) s = .next (s.each ((List.range 16).filter fun t => bitN m.toNat t) fun t s => s.latchAll (40 + t)) := heard_eq h _

theorem exec_seqBindWrite {s : State} (k : Tn) (v : BitVec 32) (h : Hears s) : exec (.seqBindWrite k v) s =
    .next (if s.mode = 1 ∨ s.mode = 6 then s.hostWrite (SEQ_BIND.addr k) v else s.put SEQ_STAT_BIND_ERR true) := heard_eq h _

theorem exec_codeWrite {s : State} (c : Fin 16) (i : Fin 16384) (v : BitVec 32) (h : Hears s) :
    exec (.codeWrite c i v) s = .next (s.codeWrite c i v) := heard_eq h _

theorem exec_engRegWrite {s : State} (e : Eng) (r : Fin 1024) (v : BitVec 32) (h : Hears s) :
    exec (.engRegWrite e r v) s = .next (s.engRegWrite e r v) := heard_eq h _

/-- CMD_ERR set, the state of the engine and every other register as before (R119). -/
theorem cmdErr_gives (s : State) (e : Nat) : CmdErr s e (.next (s.cmdErr e)) := by
  refine ⟨_, rfl, State.on_put_same _ _ _ _ _ _ rfl (by decide), ?_, OnlyRegs_put s ENG_STAT_CMD_ERR true e 0 0⟩
  exact State.get_set_bits _ _ _ _ _ _ _ _ _ _ (by decide)

theorem latch_doorbell_only (s : State) (e : Nat) :
    OnlyRegs [ENG_EVLATCH1.addr e] s { s.latch e 60 with latchMore := s.latchMore } := by
  rw [show (60 : Nat) = 32 + 28 from rfl, latch_evlatch1 s e (by decide)]
  split
  · exact OnlyRegs_refl _ _
  · exact OnlyRegs_set s ENG_EVLATCH1 _ e 0 0

/-- A written word of code memory reads back, and every other word of every code memory stays (R85). -/
theorem setCode_word (s : State) (c i : Nat) (v : Word) (hi : i < 16384) :
    (s.setCode c (4 * i) v).code c (4 * i) = v ∧
      ∀ e' a : Nat, a < 0x10000 → (e' ≠ c ∨ a / 4 ≠ i) → (s.setCode c (4 * i) v).code e' a = s.code e' a := by
  refine ⟨by rw [code_setCode, if_pos rfl], fun e' a ha hne => ?_⟩
  rw [code_setCode, if_neg]
  omega

/-- A word of an engine's register window is written in OFF, HALTED and TRAP, G0 discarded (R122). -/
theorem engRegWrite_of_stopped {s : State} {e r : Nat} (v : Word) (hst : s.engState e ∈ [0, 1, 4]) (h0 : r ≠ 0) (hr : r < 256) :
    s.engRegWrite e r v = s.hostWrite (ENG_G.addr e 0 + 4 * r) v := by
  have hst : s.engState e = 0 ∨ s.engState e = 1 ∨ s.engState e = 4 := by simpa using hst
  rw [State.engRegWrite, if_pos ⟨hst, h0, .inr hr⟩]

theorem engRegWrite_refused {s : State} {e r : Nat} (v : Word) (h : s.engState e ∉ [0, 1, 4] ∨ r = 0) : s.engRegWrite e r v = s := by
  rw [State.engRegWrite, if_neg]
  rintro ⟨hst, h0, -⟩
  rcases h with h | h
  · exact h (by simpa using hst)
  · exact h0 h

/-- Settles O30: each write is one operation on latches, on code memory or on one register. -/
theorem hostWritesOfSequencerRegisters : Obligations.HostWritesOfSequencerRegisters := by
  unfold Obligations.HostWritesOfSequencerRegisters
  intro s e c i r k m v hh
  refine ⟨⟨_, exec_engDoorbell e hh, ?_, fun n hn hne => ?_, latch_doorbell_only s e⟩, ⟨_, exec_hostTrig m hh, ?_⟩, fun hm => ?_, fun hm => ?_,
    fun hopen => ?_, fun hopen => ?_, fun hst h0 hr => ?_, fun h => ?_⟩
  · rw [show (60 : Nat) = 32 + 28 from rfl, bitN_latch _ _ _ (by decide) (by decide)]
    simp
  · rw [show (60 : Nat) = 32 + 28 from rfl, bitN_latch _ _ _ (by decide) hn]
    simp [hne]
  · have hmode := State.each_inv (fun t => t.startTrig = s.startTrig ∧ t.mode = s.mode) ((List.range 16).filter fun t => bitN m.toNat t)
      (fun t s => s.latchAll (40 + t)) (fun n t _ ht => ⟨(latchAll_mode t _).1.trans ht.1, (latchAll_mode t _).2.trans ht.2⟩) s ⟨rfl, rfl⟩
    refine ⟨hmode.1, hmode.2, fun x hx n hn => ?_⟩
    have hlt : ∀ t ∈ (List.range 16).filter fun t => bitN m.toNat t, t < 24 := fun t ht => by
      have := List.mem_range.1 (List.mem_filter.1 ht).1
      omega
    rw [bitN_latchAlls _ _ hx hlt (by omega)]
    congr 1
    simp [hn, bitN_testBit, BitVec.getLsbD]
  · have hm : s.mode = 1 ∨ s.mode = 6 := by simpa using hm
    exact ⟨_, by rw [exec_seqBindWrite k v hh, if_pos hm]; rfl, OnlyRegs_wr .., State.rd_wr_same ..⟩
  · have hm : ¬ (s.mode = 1 ∨ s.mode = 6) := by simpa using hm
    refine ⟨_, by rw [exec_seqBindWrite k v hh, if_neg hm], ?_, OnlyRegs_put s SEQ_STAT_BIND_ERR true 0 0 0⟩
    exact State.on_put_same _ _ _ _ _ _ rfl (by decide)
  · obtain ⟨hsame, hother⟩ := setCode_word s c i v i.isLt
    exact ⟨_, by rw [exec_codeWrite c i v hh, State.codeWrite, if_pos hopen], hsame, rfl, hother⟩
  · rw [exec_codeWrite c i v hh, State.codeWrite, if_neg (by simp [hopen])]
    exact cmdErr_gives s c
  · refine ⟨_, by rw [exec_engRegWrite e r v hh, engRegWrite_of_stopped v hst h0 hr]; rfl, State.rd_wr_same .., OnlyRegs_wr .., fun hg => ?_⟩
    have haddr : ENG_G.addr e 0 + 4 * r = ENG_G.addr e r := by
      simp only [Fld.addr]
      omega
    rw [State.g, if_neg h0, haddr, State.rd_wr_same, writeBits_G e.isLt hg]
  · rw [exec_engRegWrite e r v hh, engRegWrite_refused v h]

end Sys2Proof.Machine

/-! PROOFS. The general inputs and outputs (R139 to R144). -/

namespace Sys2Proof.Machine

open Sys2Proof.Safety

/-- A whole register read as its word. -/
theorem State.get_word (s : State) (f : Fld) (i j k : Nat) (hl : f.lo = 0) (hw : f.width = 32) :
    s.get f i j k = (s.rd (f.addr i j k)).toNat := by
  rw [State.get, hl, hw, getBits_word]

/-! ### The output levels (R143) -/

theorem exec_gioSet {s : State} (m : BitVec 32) (h : Hears s) : exec (.gioSet m) s =
    .next (if s.engBarred then s else s.wr SEQ_GIO_OUT.addr (s.rd SEQ_GIO_OUT.addr ||| m)) := heard_eq h _

theorem exec_gioClr {s : State} (m : BitVec 32) (h : Hears s) : exec (.gioClr m) s =
    .next (if s.engBarred then s else s.wr SEQ_GIO_OUT.addr (s.rd SEQ_GIO_OUT.addr &&& ~~~m)) := heard_eq h _

/-- In SAFE neither SET nor CLR acts, heard or not (R143). -/
theorem exec_gio_safe {s : State} (m : BitVec 32) (h : s.mode = 7) :
    exec (.gioSet m) s = .next s ∧ exec (.gioClr m) s = .next s := by
  have hb : s.engBarred = true := by simp [State.engBarred, h]
  change execGioSet m s = _ ∧ execGioClr m s = _
  simp only [execGioSet, execGioClr, hb, if_true, State.heard, ite_self, and_self]

theorem engBarred_false {s : State} (h : Hears s) (h7 : s.mode ≠ 7) : s.engBarred = false := by
  simp [State.engBarred, mode_ne_zero h, h7]

/-- The output levels after a write of their word. -/
theorem gioOut_wr (s : State) (v : Word) (i : Nat) : bitN ((s.wr SEQ_GIO_OUT.addr v).get SEQ_GIO_OUT) i = v.getLsbD i := by
  rw [State.get_word _ _ _ _ _ rfl rfl, State.rd_wr_same, bitN_testBit, BitVec.getLsbD]

theorem gioOut_bit (s : State) (i : Nat) : bitN (s.get SEQ_GIO_OUT) i = (s.rd SEQ_GIO_OUT.addr).getLsbD i := by
  rw [State.get_word _ _ _ _ _ rfl rfl, bitN_testBit, BitVec.getLsbD]

/-! ### Directions, inversion and the inputs (R139, R144) -/

theorem exec_gioConfigWrite {s : State} (k : Tn) (v : BitVec 32) (h : Hears s) :
    exec (.gioConfigWrite k v) s = .next (s.gioConfig k v) := heard_eq h _

theorem gioIn_in (s : State) : s.gioIn.get SEQ_GIO_IN = (s.gioRaw ^^^ s.get SEQ_GIO_INV) % 2 ^ 32 :=
  State.get_set_same _ _ _ _ _ _ (by decide)

theorem gioIn_only (s : State) : OnlyRegs [SEQ_GIO_IN.addr] s s.gioIn := OnlyRegs_set ..

/-- Every input shows its sampled level XOR INV (R144). -/
theorem gioIn_bit (s : State) {i : Nat} (hi : i < 32) : bitN (s.gioIn.get SEQ_GIO_IN) i = (bitN s.gioRaw i != bitN (s.get SEQ_GIO_INV) i) := by
  simp only [gioIn_in, bitN_testBit, Nat.testBit_mod_two_pow, Nat.testBit_xor, hi, decide_true, Bool.true_and]

/-- The directions, INV or the safe codes written by their fields' types, and the inputs seen through INV (R139, R144). -/
theorem gioConfig_written {s : State} (k : Tn) (v : Word) (hm : s.mode ∈ [1, 6]) :
    let t := s.gioConfig k v
    OnlyRegs [SEQ_GIO_DIR.addr + 4 * k, SEQ_GIO_IN.addr] s t ∧
      t.rd (SEQ_GIO_DIR.addr + 4 * k) = writeBits (SEQ_GIO_DIR.addr + 4 * k) (s.rd (SEQ_GIO_DIR.addr + 4 * k)) v ∧
      t.get SEQ_GIO_IN = (s.gioRaw ^^^ t.get SEQ_GIO_INV) % 2 ^ 32 := by
  have hm : s.mode = 1 ∨ s.mode = 6 := by simpa using hm
  have hne : SEQ_GIO_DIR.addr + 4 * k ≠ SEQ_GIO_IN.addr := by
    simp only [Fld.addr]
    omega
  extract_lets t
  have ht : t = (s.hostWrite (SEQ_GIO_DIR.addr + 4 * k) v).gioIn := if_pos hm
  have hinv : t.get SEQ_GIO_INV = (s.hostWrite (SEQ_GIO_DIR.addr + 4 * k) v).get SEQ_GIO_INV :=
    ht ▸ OnlyRegs_get (gioIn_only _) _ _ _ _ (by decide)
  refine ⟨ht ▸ OnlyRegs_trans (OnlyRegs_wr ..) (gioIn_only _), ?_, ?_⟩
  · rw [ht, (gioIn_only _).1 _ (by simpa using hne)]
    exact State.rd_wr_same ..
  · rw [hinv, ht, gioIn_in]
    rfl

theorem exec_gioInputChange (n : Fin 32) (l : Bool) (s : State) : exec (.gioInputChange n l) s =
    .next (if bitN (s.get SEQ_GIO_DIR) n then s else ({ s with gioRaw := putBit s.gioRaw n l } : State).gioIn) := rfl

/-- A changed level shows at its pin, and every other pin as it was sampled (R144). -/
theorem gioIn_change (s : State) (n : Fin 32) (l : Bool) :
    let t := ({ s with gioRaw := putBit s.gioRaw n l } : State).gioIn
    bitN (t.get SEQ_GIO_IN) n = (l != bitN (s.get SEQ_GIO_INV) n) ∧
      (∀ i : Nat, i < 32 → i ≠ n → bitN (t.get SEQ_GIO_IN) i = (bitN s.gioRaw i != bitN (s.get SEQ_GIO_INV) i)) ∧
      OnlyRegs [SEQ_GIO_IN.addr] s { t with gioRaw := s.gioRaw } := by
  refine ⟨?_, fun i hi hne => ?_, OnlyRegs_set s SEQ_GIO_IN _ 0 0 0⟩
  · rw [gioIn_bit _ n.isLt, bitN_testBit (putBit _ _ _), testBit_putBit, if_pos rfl]
    rfl
  · rw [gioIn_bit _ hi, bitN_testBit (putBit _ _ _), testBit_putBit, if_neg hne, ← bitN_testBit]
    rfl

/-- Settles O33: each command writes one word bit by bit. -/
theorem generalInputsAndOutputs : Obligations.GeneralInputsAndOutputs := by
  unfold Obligations.GeneralInputsAndOutputs
  intro s m v k n l
  refine ⟨fun hh h7 => ⟨?_, ?_⟩, fun h7 => exec_gio_safe m h7, fun hh hm => ?_, fun hh hm => ?_, fun hdir => ?_, fun hdir => ?_⟩
  · refine ⟨_, by rw [exec_gioSet m hh, engBarred_false hh h7, if_neg Bool.false_ne_true], OnlyRegs_wr .., fun i _ => ?_⟩
    rw [gioOut_wr, gioOut_bit, BitVec.getLsbD_or]
  · refine ⟨_, by rw [exec_gioClr m hh, engBarred_false hh h7, if_neg Bool.false_ne_true], OnlyRegs_wr .., fun i hi => ?_⟩
    rw [gioOut_wr, gioOut_bit, BitVec.getLsbD_and, BitVec.getLsbD_not, decide_eq_true hi, Bool.true_and]
  · exact ⟨_, exec_gioConfigWrite k v hh, gioConfig_written k v hm⟩
  · have hm : ¬ (s.mode = 1 ∨ s.mode = 6) := by simpa using hm
    refine ⟨_, by rw [exec_gioConfigWrite k v hh, State.gioConfig, if_neg hm], ?_, OnlyRegs_put s SEQ_GIO_STAT_CFG_ERR true 0 0 0⟩
    exact State.on_put_same _ _ _ _ _ _ rfl (by decide)
  · rw [exec_gioInputChange, if_pos hdir]
  · obtain ⟨hpin, hother, honly⟩ := gioIn_change s n l
    exact ⟨_, by rw [exec_gioInputChange, if_neg (by simp [hdir])], hpin, fun i _ hne => hother i i.isLt (Fin.val_ne_of_ne hne), honly⟩

end Sys2Proof.Machine

/-! SUPPORT for the proofs. What the shared operations of units, queues, bars and engines leave of the press mode, of the points and of the pending
sheaves. -/

namespace Sys2Proof.Machine

open Sys2Proof.Safety

/-! ### Registers that the shared operations never write -/

/-- The press mode, the first FATAL cause and HOLD_CAUSE, the bars' modes, the line clocks, and NEXT and REPEAT of the points. -/
def keptReg (a : Nat) : Prop :=
  (0x104 ≤ a ∧ a ≤ 0x10c) ∨ (0x80240 ≤ a ∧ a ≤ 0x80244) ∨ (0x42000 ≤ a ∧ a < 0x42800) ∨
    (0x301000 ≤ a ∧ a < 0x302000 ∧ 8 ≤ a % 256 ∧ a % 256 ≤ 0x10)

/-- `t` has the registers `keptReg`, the pending sheaves and the points of `s`. -/
structure Keeps (s t : State) : Prop where
  regs : ∀ a, keptReg a → t.rd a = s.rd a
  sheaves : t.sheaves = s.sheaves
  point : t.point = s.point

namespace Keeps

theorem refl (s : State) : Keeps s s := ⟨fun _ _ => rfl, rfl, rfl⟩

theorem trans {s t u : State} (h : Keeps s t) (h' : Keeps t u) : Keeps s u :=
  ⟨fun a ha => (h'.regs a ha).trans (h.regs a ha), h'.sheaves.trans h.sheaves, h'.point.trans h.point⟩

theorem get {s t : State} (h : Keeps s t) (f : Fld) (i j k : Nat) (hf : keptReg (f.addr i j k)) : t.get f i j k = s.get f i j k :=
  State.get_congr _ _ _ _ (h.regs _ hf)

theorem cp {s t : State} (h : Keeps s t) (b : Nat) : t.cp b = s.cp b := by rw [State.cp, State.cp, h.point]

theorem set (s : State) (f : Fld) (v i j k : Nat) (hf : ¬ keptReg (f.addr i j k)) : Keeps s (s.set f v i j k) :=
  ⟨fun _ ha => s.rd_set_other _ _ _ _ _ _ fun h => hf (h ▸ ha), rfl, rfl⟩

theorem put (s : State) (f : Fld) (b : Bool) (i j k : Nat) (hf : ¬ keptReg (f.addr i j k)) : Keeps s (s.put f b i j k) := set _ _ _ _ _ _ hf

theorem cond {s t : State} {c : Bool} {f : State → State} (h : Keeps s t) (hf : c = true → Keeps t (f t)) : Keeps s (t.cond c f) := by
  unfold State.cond
  split
  · next hc => exact h.trans (hf hc)
  · exact h

theorem each {α : Type} {s t : State} {l : List α} {f : α → State → State} (h : Keeps s t) (hf : ∀ x u, x ∈ l → Keeps u (f x u)) :
    Keeps s (t.each l f) :=
  State.each_inv (Keeps s) l f (fun x u hx hu => hu.trans (hf x u hx)) t h

/-- A set of a kept register made alike on both sides. -/
theorem set_both {s t : State} (h : Keeps s t) (f : Fld) (v i j k : Nat) : Keeps (s.set f v i j k) (t.set f v i j k) := by
  refine ⟨fun a ha => ?_, h.sheaves, h.point⟩
  simp only [State.set, State.rd_wr]
  split
  · next heq => rw [h.regs _ (heq ▸ ha)]
  · exact h.regs a ha

theorem cond_both {s t : State} {c : Bool} {f g : State → State} (h : Keeps s t) (hf : c = true → Keeps (f s) (g t)) :
    Keeps (s.cond c f) (t.cond c g) := by
  unfold State.cond
  split
  · next hc => exact hf hc
  · exact h

end Keeps

theorem Keeps_setQu (s : State) (q : Nat) (x : Queue) : Keeps s (s.setQu q x) := ⟨fun _ _ => rfl, rfl, rfl⟩
theorem Keeps_causes (s : State) (c : SMap (List Nat)) : Keeps s { s with causes := c } := ⟨fun _ _ => rfl, rfl, rfl⟩
theorem Keeps_setEx (s : State) (e : Nat) (x : EngX) : Keeps s (s.setEx e x) := ⟨fun _ _ => rfl, rfl, rfl⟩
theorem Keeps_setHb (s : State) (b : Nat) (x : HBar) : Keeps s (s.setHb b x) := ⟨fun _ _ => rfl, rfl, rfl⟩

/-- No kept register is one that reporting writes. -/
theorem evReg_of_kept {a : Nat} (h : keptReg a) : evReg a = false := by
  simp [keptReg, evReg] at h ⊢
  omega

/-- A change of registers outside the kept ones, with reporting. -/
theorem Keeps_of_only {A : List Nat} {s t : State} (h : OnlyEv A s t) (hA : ∀ a ∈ A, ¬ keptReg a) : Keeps s t :=
  ⟨fun a ha => h.1 a (fun hm => hA a hm ha) (evReg_of_kept ha), OnlyEv_proj h State.sheaves fun _ _ _ _ _ => rfl,
    OnlyEv_proj h State.point fun _ _ _ _ _ => rfl⟩

/-! ### Events and entries of queues -/

theorem Keeps_raise (s : State) (e : Ev) (unit : Nat) (args : List Int) : Keeps s (s.raise e unit args) :=
  Keeps_of_only (raise_only ..) (by simp)

theorem Keeps_raiseLim (s : State) (e : Ev) (unit key period : Nat) (args : List Int) : Keeps s (s.raiseLim e unit key period args) :=
  Keeps_of_only (raiseLim_only ..) (by simp)

theorem Keeps_qWrite (s : State) {q : Nat} (e : Entry) (now : Bool) (hq : q < 64) : Keeps s (s.qWrite q e now) := by
  unfold State.qWrite
  refine Keeps.cond ((Keeps_setQu ..).trans (Keeps.set _ _ _ _ _ _ ?_)) fun _ =>
    Keeps_of_only (qSignal_only ..) (by simp)
  simp only [keptReg, Fld.addr]
  omega

theorem Keeps_qSend (s : State) {q : Nat} (e : Entry) (hq : q < 64) : Keeps s (s.qSend q e) := by
  unfold State.qSend
  split
  · exact Keeps_qWrite _ _ _ hq
  · refine (Keeps_setQu ..).trans (Keeps.put _ _ _ _ _ _ ?_)
    simp only [keptReg, Fld.addr]
    omega

/-! ### Unit states (R35 to R39) -/

theorem unitRegs_not_kept {n : Nat} (hn : n < 0x100) : ∀ a ∈ [GLB_UST.addr n, GLB_SKEW_MAP.addr (n / 32)], ¬ keptReg a := by
  simp only [List.mem_cons, List.not_mem_nil, or_false, keptReg, Fld.addr]
  omega

theorem Keeps_setRun (s : State) {n : Nat} (run cause : Nat) (hn : n < 0x100) : Keeps s (s.setRun n run cause) :=
  Keeps_of_only (setRun_only ..) (unitRegs_not_kept hn)

theorem Keeps_stall (s : State) {n : Nat} (cause : Nat) (hn : n < 0x100) : Keeps s (s.stall n cause) := by
  unfold State.stall
  dsimp only
  split_ifs
  · exact Keeps.refl s
  · exact Keeps_causes ..
  · exact (Keeps_causes s _).trans (Keeps_setRun _ _ _ hn)

theorem Keeps_unstall (s : State) {n : Nat} (cause base : Nat) (hn : n < 0x100) : Keeps s (s.unstall n cause base) := by
  unfold State.unstall
  dsimp only
  split_ifs
  · exact (Keeps_causes s _).trans (Keeps_setRun _ _ _ hn)
  · exact Keeps_causes ..
  · exact Keeps.refl s

/-! ### Bars and ports (R256) -/

theorem Keeps_refreshBar (s : State) {b : Nat} (hb : b < 16) : Keeps s (s.refreshBar b) := by
  have hb' : b < 0x100 := by omega
  unfold State.refreshBar
  extract_lets ps st s1 s2
  have h1 : Keeps s s1 := Keeps.put _ _ _ _ _ _ (by simp only [keptReg, Fld.addr]; omega)
  have h2 : Keeps s1 s2 := by
    simp only [s2]
    split
    · exact Keeps_stall _ _ hb'
    · exact Keeps_unstall _ _ _ hb'
  split
  · exact (h1.trans h2).trans (Keeps_setRun _ _ _ hb')
  · exact h1.trans h2

theorem port_bar_lt (s : State) (p : Nat) : s.get HPL_PORT_CFG_BAR p < 16 := State.get_lt ..

/-- The running view of a unit brought up to date where no cause of STALL is left. -/
theorem Keeps_settleRun (s : State) {n : Nat} (base : Nat) (hn : n < 0x100) :
    Keeps s (if (s.stallCauses n).isEmpty then s.setRun n base else s) := by
  split
  · exact Keeps_setRun _ _ _ hn
  · exact Keeps.refl s

theorem Keeps_refreshPort (s : State) {p : Nat} (hp : p < 128) : Keeps s (s.refreshPort p) := by
  have hn : portUnit p < 0x100 := by
    unfold portUnit
    omega
  unfold State.refreshPort
  dsimp only
  refine Keeps.trans ?_ (Keeps_refreshBar _ (port_bar_lt _ p))
  split
  · exact (Keeps_causes s _).trans (Keeps_setRun _ _ _ hn)
  · refine Keeps.trans ?_ (Keeps_settleRun _ _ hn)
    split
    · exact Keeps_unstall _ _ _ hn
    · exact Keeps_stall _ _ hn

theorem Keeps_refreshBars (s : State) : Keeps s s.refreshBars :=
  Keeps.each (Keeps.each (Keeps.refl s) fun _ u hp => Keeps.cond (Keeps.refl u) fun _ => Keeps_refreshPort u (List.mem_range.1 hp))
    fun _ u hb => Keeps_refreshBar u (List.mem_range.1 hb)

theorem portsOf_lt {s : State} {b p : Nat} (h : p ∈ s.portsOf b) : p < 128 := by
  unfold State.portsOf State.portsFound at h
  split at h
  · simp at h
  · exact List.mem_range.1 (List.mem_filter.1 h).1

/-! ### Engines (R117, R118) -/

theorem Keeps_latch (s : State) {e : Nat} (n : Nat) (he : e < 28) : Keeps s (s.latch e n) := by
  obtain ⟨hregs, hrest⟩ := latch_frame s e n
  refine ⟨fun a ha => hregs a ?_ ?_ ?_, by rw [hrest], by rw [hrest]⟩
  all_goals
    simp only [keptReg, Fld.addr] at ha ⊢
    omega

theorem Keeps_latchAll (s : State) (n : Nat) : Keeps s (s.latchAll n) :=
  Keeps.each (Keeps.refl s) fun _ u he => Keeps_latch u n (List.mem_range.1 he)

theorem Keeps_engSet (s : State) {e : Nat} {f : Fld} (v : Nat) (hf : f.addr e = ENG_STAT.addr e) (he : e < 28) : Keeps s (s.set f v e) := by
  refine Keeps.set _ _ _ _ _ _ ?_
  rw [hf]
  simp only [keptReg, Fld.addr]
  omega

theorem Keeps_setEng (s : State) {e : Nat} (st cause : Nat) (he : e < 28) : Keeps s (s.setEng e st cause) := by
  have hn : engUnit e < 0x100 := by
    unfold engUnit
    omega
  exact (Keeps_engSet s (f := ENG_STAT_STATE) st rfl he).trans (Keeps_setRun _ _ _ hn)

theorem Keeps_haltEng (s : State) {e : Nat} (he : e < 28) : Keeps s (s.haltEng e) :=
  (Keeps_setEx ..).trans (Keeps_setEng _ _ _ he)

theorem Keeps_clearWait (s : State) {e : Nat} (he : e < 28) : Keeps s (s.clearWait e) :=
  ((Keeps_setEx ..).trans (Keeps_engSet _ (f := ENG_STAT_WAIT_KIND) 0 rfl he)).trans (Keeps_engSet _ (f := ENG_STAT_WAIT_UNIT) 0 rfl he)

theorem Keeps_stopEng (s : State) {e : Nat} (he : e < 28) : Keeps s (s.stopEng e) := by
  unfold State.stopEng
  split
  · split
    · split
      · exact Keeps_setEx ..
      · exact (Keeps_clearWait s he).trans (Keeps_haltEng _ he)
    · exact Keeps_haltEng s he
  · exact Keeps_haltEng s he

theorem Keeps_safeEngines (s : State) : Keeps s s.safeEngines := by
  refine Keeps.each (Keeps.refl s) fun e u he => ?_
  have he := List.mem_range.1 he
  split
  · exact (Keeps_stopEng u he).trans (Keeps_engSet _ (f := ENG_STAT_SAFE_HALT) 1 rfl he)
  · exact Keeps.refl u

end Sys2Proof.Machine

/-! SUPPORT for the proofs. What a change of the press mode shows and what it brings with it (R27, R30, R130, R199, R274). -/

namespace Sys2Proof.Machine

open Sys2Proof.Safety

/-! ### The modes of the bars (R130) -/

theorem barMode_setBarMode (s : State) {b c : Nat} (m : Nat) (hb : b < 16) (hc : c < 16) :
    (s.setBarMode b m).barMode c = if c = b then m % 16 else s.barMode c := by
  unfold State.setBarMode State.barMode
  by_cases hb8 : b < 8 <;> by_cases hc8 : c < 8 <;> simp only [hb8, hc8, if_true, if_false]
  · split
    · next h =>
      subst h
      exact State.get_set_same _ _ _ _ _ _ (by simp only [Fld.sh]; omega)
    · exact State.get_set_bits _ _ _ _ _ _ _ _ _ _ (by simp only [Fld.sh]; omega)
  · rw [if_neg (by omega)]
    exact State.get_set_addr _ _ _ _ _ _ _ _ _ _ (by simp [Fld.addr, Fld.sh])
  · rw [if_neg (by omega)]
    exact State.get_set_addr _ _ _ _ _ _ _ _ _ _ (by simp [Fld.addr, Fld.sh])
  · split
    · next h =>
      subst h
      exact State.get_set_same _ _ _ _ _ _ (by simp only [Fld.sh]; omega)
    · exact State.get_set_bits _ _ _ _ _ _ _ _ _ _ (by simp only [Fld.sh]; omega)

/-- A bar's mode stands in SEQ_BAR_MODE0 and SEQ_BAR_MODE1. -/
theorem barMode_congr {s t : State} (h0 : t.rd SEQ_BAR_MODE0.addr = s.rd SEQ_BAR_MODE0.addr) (h1 : t.rd SEQ_BAR_MODE1.addr = s.rd SEQ_BAR_MODE1.addr)
    (b : Nat) : t.barMode b = s.barMode b := by
  unfold State.barMode
  split
  · exact State.get_congr _ _ _ _ h0
  · exact State.get_congr _ _ _ _ h1

theorem rd_setBarMode (s : State) (b m : Nat) {a : Nat} (h0 : a ≠ SEQ_BAR_MODE0.addr) (h1 : a ≠ SEQ_BAR_MODE1.addr) :
    (s.setBarMode b m).rd a = s.rd a := by
  unfold State.setBarMode
  split
  · exact State.rd_set_other _ _ _ _ _ _ _ h0
  · exact State.rd_set_other _ _ _ _ _ _ _ h1

/-- Every bar entry made `m`. -/
theorem barMode_setBarModes (s : State) {b : Nat} (m : Nat) (hb : b < 16) :
    (s.each (List.range 16) fun b s => s.setBarMode b m).barMode b = m % 16 := by
  have each : ∀ n : Nat, n ≤ 16 → b < n → (s.each (List.range n) fun b s => s.setBarMode b m).barMode b = m % 16 := fun n hn hbn => by
    induction n with
    | zero => omega
    | succ n ih =>
      rw [State.each_range_succ, barMode_setBarMode _ _ (by omega) hb]
      split
      · rfl
      · exact ih (by omega) (by omega)
  exact each 16 (by decide) hb

theorem rd_setBarModes (s : State) (f : Nat → Nat) {a : Nat} (h0 : a ≠ SEQ_BAR_MODE0.addr) (h1 : a ≠ SEQ_BAR_MODE1.addr) :
    (s.each (List.range 16) fun b s => s.setBarMode b (f b)).rd a = s.rd a :=
  State.each_inv (fun t => t.rd a = s.rd a) _ _ (fun _ t _ ht => (rd_setBarMode t _ _ h0 h1).trans ht) s rfl

/-! ### Sheaves, points and ports when a mode is left (R27, R199, R274) -/

theorem Keeps_refreshSheaves (s : State) : Keeps s s.refreshSheaves := by
  refine Keeps.each (Keeps.set _ _ _ _ _ _ (by simp only [keptReg, Fld.addr]; omega)) fun j u hj => Keeps.put _ _ _ _ _ _ ?_
  have := List.mem_range.1 hj
  simp only [keptReg, Fld.addr]
  omega

/-- Every pending sheaf is discarded (R199). -/
theorem Keeps_discardSheaves (s : State) : Keeps { s with sheaves := [] } s.discardSheaves := by
  unfold State.discardSheaves
  extract_lets l s1 s2
  have h1 : Keeps { s with sheaves := [] } s1 :=
    Keeps.each (Keeps.refl _) fun _ u _ => (Keeps_raise u _ _ _).trans (Keeps_qSend _ _ (by decide))
  have h2 : Keeps s1 s2 := Keeps.cond (Keeps.refl s1) fun _ => Keeps.trans (t := { s1 with chlPend := [] }) ⟨fun _ _ => rfl, rfl, rfl⟩
    (Keeps.put _ _ _ _ _ _ (by simp only [keptReg, Fld.addr]; omega))
  exact (h1.trans h2).trans (Keeps_refreshSheaves s2)

/-- The points without a job. -/
@[irreducible] def emptyPoints (m : SMap Point) : SMap Point := (List.range 16).foldl (fun m b => smPut (fun _ => Point.empty) m b Point.empty) m

theorem smGet_emptyPoints (m : SMap Point) {b : Nat} (hb : b < 16) : smGet (fun _ => Point.empty) (emptyPoints m) b = Point.empty := by
  have each : ∀ n : Nat, b < n → smGet (fun _ => Point.empty) ((List.range n).foldl (fun m b => smPut (fun _ => Point.empty) m b Point.empty) m) b =
      Point.empty := fun n hn => by
    induction n with
    | zero => omega
    | succ n ih =>
      rw [List.range_succ, List.foldl_append, List.foldl_cons, List.foldl_nil, smGet_put]
      split
      · rfl
      · exact ih (by omega)
  rw [emptyPoints]
  exact each 16 hb

/-- The composed lines of every point go, and no job runs (R27). -/
theorem Keeps_clearPoints (s : State) : Keeps { s with point := emptyPoints s.point } s.clearPoints := by
  let clear (b : Nat) (s : State) : State :=
    (({ s with point := smPut (fun _ => Point.empty) s.point b Point.empty } : State).set CMP_CP_STAT_STATE 0 b).set CMP_CP_POOL_HELD 0 b
  have hclear : ∀ n : Nat, n ≤ 16 → Keeps
      { s with point := (List.range n).foldl (fun m b => smPut (fun _ => Point.empty) m b Point.empty) s.point }
      (s.each (List.range n) clear) := fun n hn => by
    induction n with
    | zero => exact Keeps.refl s
    | succ n ih =>
      obtain ⟨hregs, hsheaves, hpoint⟩ := ih (by omega)
      rw [State.each_range_succ, List.range_succ, List.foldl_append]
      generalize s.each (List.range n) clear = u at hregs hsheaves hpoint
      refine Keeps.trans (t := { u with point := smPut (fun _ => Point.empty) u.point n Point.empty }) ⟨hregs, hsheaves, ?_⟩
        ((Keeps.set _ CMP_CP_STAT_STATE _ _ _ _ ?_).trans (Keeps.set _ CMP_CP_POOL_HELD _ _ _ _ ?_))
      · simp only [hpoint, List.foldl_cons, List.foldl_nil]
      · simp only [keptReg, Fld.addr]
        omega
      · simp only [keptReg, Fld.addr]
        omega
  rw [emptyPoints]
  refine Keeps.each ((hclear 16 (by decide)).trans (Keeps.set _ _ _ _ _ _ (by simp only [keptReg, Fld.addr]; omega))) fun j u hj =>
    Keeps.put _ _ _ _ _ _ ?_
  have := List.mem_range.1 hj
  simp only [keptReg, Fld.addr]
  omega

theorem Keeps_dropBarLat (s : State) : Keeps s s.dropBarLat := Keeps.each (Keeps.refl s) fun _ _ _ => Keeps_setHb ..

theorem Keeps_clearPorts (s : State) : Keeps s s.clearPorts := ⟨fun _ _ => rfl, rfl, rfl⟩

theorem Keeps_fixBarLat (s : State) : Keeps s s.fixBarLat := by
  refine Keeps.each (Keeps.refl s) fun b u hb => ?_
  have hb := List.mem_range.1 hb
  split
  · exact Keeps.refl u
  · refine Keeps.each ((Keeps.set _ HPL_BAR_LAT _ _ _ _ ?_).trans (Keeps_setHb ..)) fun p v hp => ?_
    · simp only [keptReg, Fld.addr]
      omega
    · have hp := portsOf_lt hp
      split
      · refine (Keeps.put _ HPL_PORT_STAT_LAT_FIT _ _ _ _ ?_).trans (Keeps_unstall _ _ _ ?_)
        · simp only [keptReg, Fld.addr]
          omega
        · unfold portUnit
          omega
      · exact Keeps.refl v

theorem Keeps_leaveHold (s : State) : Keeps s s.leaveHold :=
  Keeps.each (Keeps.refl s) fun _ u hb => Keeps_unstall u _ _ (by have := List.mem_range.1 hb; omega)

/-! ### Units that follow the mode (R356, R396) -/

theorem Keeps_refreshPats (s : State) : Keeps s s.refreshPats := Keeps.each (Keeps.refl s) fun _ _ _ => ⟨fun _ _ => rfl, rfl, rfl⟩

theorem Keeps_setActive (s : State) (a : Bool) : Keeps s (s.setActive a) := by
  have hsw : Keeps s (s.cond (s.twn.twnSwitch && !a) fun s => ({ s with twn.twnSwitch := false } : State).set TWN_SWITCH_STAT_RESULT 3) :=
    Keeps.cond (Keeps.refl s) fun _ => Keeps.trans (t := { s with twn.twnSwitch := false }) ⟨fun _ _ => rfl, rfl, rfl⟩
      (Keeps.set _ _ _ _ _ _ (by simp only [keptReg, Fld.addr]; omega))
  obtain ⟨hregs, hsheaves, hpoint⟩ := hsw.trans (Keeps.put _ TWN_STAT_ACTIVE a 0 0 0 (by simp only [keptReg, Fld.addr]; omega))
  exact ⟨hregs, hsheaves, hpoint⟩

theorem Keeps_twinMode (s : State) (old m : Nat) : Keeps s (s.twinMode old m) := by
  refine Keeps.trans (Keeps.cond (Keeps.refl s) fun _ => ?_) (Keeps_setActive _ _)
  exact Keeps.trans (t := { s with twn.twnJoin := 0, twn.twnShSkew := false }) ⟨fun _ _ => rfl, rfl, rfl⟩
    (Keeps.put _ _ _ _ _ _ (by simp only [keptReg, Fld.addr]; omega))

/-! ### What a change of mode brings with it -/

/-- What of the mode's own side effects stands in the kept registers, the sheaves and the points: sheaves and points cleared (R27, R199), HOLD_CAUSE
and the first FATAL cause acknowledged (R34, R46). -/
def State.modeBase (s : State) (old m : Nat) : State :=
  let s := s.cond (m == 1 || m == 7 || (m == 2 && (old == 3 || old == 4))) fun s => { s with sheaves := [] }
  let s := s.cond (m == 1) fun s => { s with point := emptyPoints s.point }
  let s := s.cond (old == 4 && m == 2) fun s => s.put GLB_HOLD_CAUSE_PENDING false
  s.cond (old == 7 && m != 7) fun s => s.put GLB_FATAL_FIRST_VALID false

/-- The points cleared alike on both sides, with the ports' and bars' own parts of the job (R27, R274). -/
theorem Keeps_clear_both {s t : State} (h : Keeps s t) :
    Keeps { s with point := emptyPoints s.point } t.dropBarLat.clearPoints.clearPorts := by
  have hdrop := h.trans (Keeps_dropBarLat t)
  generalize t.dropBarLat = u at hdrop ⊢
  have hbase : Keeps { s with point := emptyPoints s.point } { u with point := emptyPoints u.point } :=
    ⟨hdrop.regs, hdrop.sheaves, congrArg emptyPoints hdrop.point⟩
  exact (hbase.trans (Keeps_clearPoints u)).trans (Keeps_clearPorts _)

theorem Keeps_modeEffects (s : State) (old m : Nat) : Keeps (s.modeBase old m) (s.modeEffects old m) := by
  unfold State.modeEffects State.modeBase
  extract_lets b1 b2 b3 s1 s2 s3 s4 s5 s6 s7
  have h1 : Keeps b1 s1 := Keeps.cond_both (Keeps.refl s) fun _ => Keeps_discardSheaves s
  have h2 : Keeps b2 s2 := Keeps.cond_both h1 fun _ => Keeps_clear_both h1
  have h3 : Keeps b2 s3 := Keeps.cond h2 fun _ => Keeps_fixBarLat s2
  have h4 : Keeps b2 s4 := Keeps.cond h3 fun _ => Keeps_leaveHold s3
  have h5 : Keeps b3 s5 := Keeps.cond_both h4 fun _ => h4.set_both ..
  have h6 : Keeps b3 s6 := Keeps.cond h5 fun _ => ⟨fun _ _ => rfl, rfl, rfl⟩
  have h7 : Keeps (b3.cond (old == 7 && m != 7) fun s => s.put GLB_FATAL_FIRST_VALID false) s7 :=
    Keeps.cond_both h6 fun _ => h6.set_both GLB_FATAL_FIRST_VALID 0 0 0 0
  exact ((h7.trans (Keeps_twinMode _ _ _)).trans (Keeps_refreshPats _)).trans (Keeps_refreshBars _)

end Sys2Proof.Machine

/-! PROOFS. Requests for a mode, and the modes they give (R27 to R34). -/

namespace Sys2Proof.Machine

open Sys2Proof.Safety

/-! ### What a change of mode shows (R27, R130) -/

namespace Keeps

theorem put_both {s t : State} (h : Keeps s t) (f : Fld) (b : Bool) (i j k : Nat) : Keeps (s.put f b i j k) (t.put f b i j k) := h.set_both ..

theorem each_both {α : Type} {s t : State} (l : List α) (f : α → State → State) (h : Keeps s t)
    (hf : ∀ x u v, Keeps u v → Keeps (f x u) (f x v)) : Keeps (s.each l f) (t.each l f) := by
  induction l generalizing s t with
  | nil => exact h
  | cons x l ih => exact ih (hf x s t h)

theorem setBarMode_both {s t : State} (h : Keeps s t) (b m : Nat) : Keeps (s.setBarMode b m) (t.setBarMode b m) := by
  unfold State.setBarMode
  split
  · exact h.set_both ..
  · exact h.set_both ..

theorem modeBase_both {s t : State} (h : Keeps s t) (old m : Nat) : Keeps (s.modeBase old m) (t.modeBase old m) := by
  unfold State.modeBase
  extract_lets b1 b2 b3 c1 c2 c3
  have h1 : Keeps b1 c1 := cond_both h fun _ => ⟨h.regs, rfl, h.point⟩
  have h2 : Keeps b2 c2 := cond_both h1 fun _ => ⟨h1.regs, h1.sheaves, congrArg emptyPoints h1.point⟩
  have h3 : Keeps b3 c3 := cond_both h2 fun _ => h2.put_both GLB_HOLD_CAUSE_PENDING false 0 0 0
  exact cond_both h3 fun _ => h3.put_both GLB_FATAL_FIRST_VALID false 0 0 0

end Keeps

/-- MODE, CAUSE and every bar entry written. -/
def State.writeModes (s : State) (m cause : Nat) : State :=
  ((s.set GLB_MODE_STAT_MODE m).set GLB_MODE_STAT_CAUSE cause).each (List.range 16) fun b s => s.setBarMode b m

theorem Keeps_nhIdle (s : State) : Keeps s s.nhIdle := by
  unfold State.nhIdle
  refine Keeps.each (s := s) (t := { s with nhRuns := [], nhKept := [] }) ⟨fun _ _ => rfl, rfl, rfl⟩ fun n u hn => Keeps.set _ _ _ _ _ _ ?_
  have := List.mem_range.1 hn
  simp only [keptReg, Fld.addr]
  omega

/-- A change to another mode than PRINT: the modes written, and what the mode brings with it. -/
theorem Keeps_setMode (s : State) {m : Nat} (cause rep : Nat) (hm : m ≠ 3) :
    Keeps ((s.writeModes m cause).modeBase s.mode m) (s.setMode m cause rep) := by
  unfold State.setMode
  extract_lets old s1 s2 s3 s4 s5
  have h1 : Keeps s s1 := Keeps.cond (Keeps.refl s) fun h => by simp [hm] at h
  have h2 : Keeps s s2 := Keeps.cond h1 fun _ => Keeps_nhIdle s1
  have h4 : Keeps (s.writeModes m cause) s4 :=
    Keeps.each_both _ _ ((h2.set_both GLB_MODE_STAT_MODE m 0 0 0).set_both GLB_MODE_STAT_CAUSE cause 0 0 0) fun b _ _ h => h.setBarMode_both b m
  have h5 : Keeps (s.writeModes m cause) s5 := (h4.trans (Keeps_latchAll _ _)).trans (Keeps_raise _ _ _ _)
  exact (h5.modeBase_both old m).trans (Keeps_modeEffects s5 old m)

theorem rd_writeModes (s : State) (m cause : Nat) {a : Nat} (h : a ≠ GLB_MODE_STAT.addr) (h0 : a ≠ SEQ_BAR_MODE0.addr) (h1 : a ≠ SEQ_BAR_MODE1.addr) :
    (s.writeModes m cause).rd a = s.rd a := by
  rw [State.writeModes, rd_setBarModes _ (fun _ => m) h0 h1, State.rd_set_other _ GLB_MODE_STAT_CAUSE _ _ _ _ _ h,
    State.rd_set_other _ GLB_MODE_STAT_MODE _ _ _ _ _ h]

/-- What GLB_MODE_STAT and the bar entries show once the modes are written. -/
theorem writeModes_shows (s : State) {m cause : Nat} (hm : m < 16) (hc : cause < 16) :
    let t := s.writeModes m cause
    t.mode = m ∧ (∀ b < 16, t.barMode b = m) ∧ t.get GLB_MODE_STAT_TAG = s.get GLB_MODE_STAT_TAG ∧
      t.get GLB_MODE_STAT_RESULT = s.get GLB_MODE_STAT_RESULT ∧ t.get GLB_MODE_STAT_CAUSE = cause := by
  have hreg : ∀ f : Fld, f.addr = GLB_MODE_STAT.addr → (s.writeModes m cause).get f =
      ((s.set GLB_MODE_STAT_MODE m).set GLB_MODE_STAT_CAUSE cause).get f := fun f hf =>
    State.get_congr _ _ _ _ (rd_setBarModes _ (fun _ => m) (by rw [hf]; decide) (by rw [hf]; decide))
  refine ⟨?_, fun b hb => ?_, ?_, ?_, ?_⟩
  · rw [State.mode, hreg GLB_MODE_STAT_MODE rfl, State.get_set_bits _ _ _ _ _ _ _ _ _ _ (by decide), State.get_set_same _ _ _ _ _ _ (by decide)]
    exact Nat.mod_eq_of_lt hm
  · rw [State.writeModes, barMode_setBarModes _ _ hb, Nat.mod_eq_of_lt hm]
  · rw [hreg GLB_MODE_STAT_TAG rfl, State.get_set_bits _ _ _ _ _ _ _ _ _ _ (by decide), State.get_set_bits _ _ _ _ _ _ _ _ _ _ (by decide)]
  · rw [hreg GLB_MODE_STAT_RESULT rfl, State.get_set_bits _ _ _ _ _ _ _ _ _ _ (by decide), State.get_set_bits _ _ _ _ _ _ _ _ _ _ (by decide)]
  · rw [hreg GLB_MODE_STAT_CAUSE rfl, State.get_set_same _ _ _ _ _ _ (by decide)]
    exact Nat.mod_eq_of_lt hc

theorem State.rd_cond_put (s : State) (c : Bool) (f : Fld) (b : Bool) {a : Nat} (h : c = true → a ≠ f.addr) :
    (s.cond c fun s => s.put f b).rd a = s.rd a := by
  unfold State.cond
  split
  · next hc => exact State.rd_set_other _ _ _ _ _ _ _ (h hc)
  · rfl

/-- The registers that the mode's own side effects leave alone. -/
theorem rd_modeBase (s : State) (old m : Nat) {a : Nat} (hh : a ≠ GLB_HOLD_CAUSE.addr)
    (hf : (old == 7 && m != 7) = true → a ≠ GLB_FATAL_FIRST.addr) :
    (s.modeBase old m).rd a = s.rd a := by
  unfold State.modeBase
  extract_lets b1 b2 b3
  have h1 : b1.rd a = s.rd a := by
    simp only [b1, State.cond]
    split <;> rfl
  have h2 : b2.rd a = b1.rd a := by
    simp only [b2, State.cond]
    split <;> rfl
  rw [State.rd_cond_put _ _ GLB_FATAL_FIRST_VALID _ hf, State.rd_cond_put _ _ GLB_HOLD_CAUSE_PENDING _ fun _ => hh, h2, h1]

/-- A change of mode shows in MODE, CAUSE and every bar entry, and leaves TAG and RESULT (R27, R30, R130). -/
theorem setMode_shows (s : State) {m cause : Nat} (rep : Nat) (hm3 : m ≠ 3) (hm : m < 16) (hc : cause < 16) :
    let t := s.setMode m cause rep
    t.mode = m ∧ (∀ b < 16, t.barMode b = m) ∧ t.get GLB_MODE_STAT_TAG = s.get GLB_MODE_STAT_TAG ∧
      t.get GLB_MODE_STAT_RESULT = s.get GLB_MODE_STAT_RESULT ∧ t.get GLB_MODE_STAT_CAUSE = cause := by
  have hkeep := Keeps_setMode s cause rep hm3
  have hrd : ∀ a ∈ [GLB_MODE_STAT.addr, SEQ_BAR_MODE0.addr, SEQ_BAR_MODE1.addr], (s.setMode m cause rep).rd a = (s.writeModes m cause).rd a := by
    intro a ha
    have hkept : keptReg a ∧ a ≠ GLB_HOLD_CAUSE.addr ∧ a ≠ GLB_FATAL_FIRST.addr := by
      simp only [List.mem_cons, List.not_mem_nil, or_false, Fld.addr] at ha
      simp only [keptReg, Fld.addr]
      omega
    obtain ⟨hk, hh, hf⟩ := hkept
    exact (hkeep.regs a hk).trans (rd_modeBase _ _ _ hh fun _ => hf)
  have hget : ∀ f : Fld, f.addr = GLB_MODE_STAT.addr → (s.setMode m cause rep).get f = (s.writeModes m cause).get f := fun f hf =>
    State.get_congr _ _ _ _ (hrd _ (by simp [hf]))
  obtain ⟨hmode, hbars, htag, hres, hcause⟩ := writeModes_shows s hm hc
  refine ⟨(hget GLB_MODE_STAT_MODE rfl).trans hmode, fun b hb => ?_, (hget GLB_MODE_STAT_TAG rfl).trans htag,
    (hget GLB_MODE_STAT_RESULT rfl).trans hres, (hget GLB_MODE_STAT_CAUSE rfl).trans hcause⟩
  rw [barMode_congr (hrd _ (by simp)) (hrd _ (by simp)), hbars b hb]

end Sys2Proof.Machine

/-! PROOFS. Host requests for a mode that are turned away or taken at once (R27 to R32). -/

namespace Sys2Proof.Machine

open Sys2Proof.Safety

/-! ### How a host request is judged (R29, R30) -/

theorem hostReq_busy {s : State} (tag : Nat) (row ok : Bool) (act : State → State) (ht : s.startTrig = false) (hp : s.tr.isSome = true) :
    s.hostReq tag row ok act = s.refuseReq tag 3 := by simp [State.hostReq, ht, hp]

theorem hostReq_noRow {s : State} (tag : Nat) (ok : Bool) (act : State → State) (h : Free s) : s.hostReq tag false ok act = s.refuseReq tag 2 := by
  simp [State.hostReq, h.1, h.2]

theorem hostReq_notMet {s : State} (tag : Nat) (act : State → State) (h : Free s) : s.hostReq tag true false act = s.refuseReq tag 5 := by
  simp [State.hostReq, h.1, h.2]

theorem hostReq_accepted {s : State} (tag : Nat) (act : State → State) (h : Free s) : s.hostReq tag true true act = act s := by
  simp [State.hostReq, h.1, h.2]

theorem showResult_mode (s : State) (tag result : Nat) : (s.showResult tag result).mode = s.mode := by
  rw [State.mode, State.showResult, State.get_set_bits _ _ _ _ _ _ _ _ _ _ (by decide), State.get_set_bits _ _ _ _ _ _ _ _ _ _ (by decide)]
  rfl

/-- TAG and RESULT of a request shown; the rest of GLB_MODE_STAT stays (R30). -/
theorem showResult_shows (s : State) {tag result : Nat} (ht : tag < 256) (hr : result < 8) :
    let t := s.showResult tag result
    t.get GLB_MODE_STAT_TAG = tag ∧ t.get GLB_MODE_STAT_RESULT = result ∧ t.get GLB_MODE_STAT_PENDING = s.get GLB_MODE_STAT_PENDING ∧
      t.mode = s.mode := by
  refine ⟨?_, ?_, ?_, showResult_mode ..⟩
  · rw [State.showResult, State.get_set_bits _ _ _ _ _ _ _ _ _ _ (by decide), State.get_set_same _ _ _ _ _ _ (by decide)]
    exact Nat.mod_eq_of_lt ht
  · rw [State.showResult, State.get_set_same _ _ _ _ _ _ (by decide)]
    exact Nat.mod_eq_of_lt hr
  · rw [State.showResult, State.get_set_bits _ _ _ _ _ _ _ _ _ _ (by decide), State.get_set_bits _ _ _ _ _ _ _ _ _ _ (by decide)]

theorem showResult_only (s : State) (tag result : Nat) : OnlyRegs [GLB_MODE_STAT.addr] s (s.showResult tag result) :=
  OnlyRegs_mono (OnlyRegs_trans (OnlyRegs_set s GLB_MODE_STAT_TAG tag 0 0 0) (OnlyRegs_set _ GLB_MODE_STAT_RESULT result 0 0 0)) (by decide)

/-- A refused request is turned away: only its TAG and RESULT show, and with REFUSED an event is raised (R30). -/
theorem refuseReq_turnedAway (s : State) {tag result : Nat} (ht : tag < 256) (hr : result < 8) :
    TurnedAway s tag result (.next (s.refuseReq tag result)) := by
  obtain ⟨htag, hres, hpend, hmode⟩ := showResult_shows s ht hr
  have honly := showResult_only s tag result
  have hbars : ∀ b, (s.showResult tag result).barMode b = s.barMode b := barMode_congr (honly.1 _ (by decide)) (honly.1 _ (by decide))
  by_cases h5 : result = 5
  · have heq : s.refuseReq tag result = (s.showResult tag result).raise EV_MODE_REFUSED := by simp [State.refuseReq, State.cond, h5]
    have hget : ∀ f : Fld, f.addr = GLB_MODE_STAT.addr → ((s.showResult tag result).raise EV_MODE_REFUSED).get f = (s.showResult tag result).get f :=
      fun f hf => State.get_raise _ _ _ _ _ _ _ _ (by rw [hf]; decide)
    refine ⟨_, by rw [heq], ⟨(hget GLB_MODE_STAT_TAG rfl).trans htag, (hget GLB_MODE_STAT_RESULT rfl).trans hres,
      (hget GLB_MODE_STAT_PENDING rfl).trans hpend⟩,
      (hget GLB_MODE_STAT_MODE rfl).trans hmode, fun b _ => ?_, ?_, fun h => absurd h5 h⟩
    · rw [barMode_congr (State.rd_raise _ _ _ _ (by decide)) (State.rd_raise _ _ _ _ (by decide)), hbars]
    · exact OnlyEv_mono (OnlyEv_trans (OnlyEv_of_regs honly) (raise_only _ _ _ _)) (by simp)
  · have heq : s.refuseReq tag result = s.showResult tag result := by simp [State.refuseReq, State.cond, h5]
    exact ⟨_, by rw [heq], ⟨htag, hres, hpend⟩, hmode, fun b _ => hbars b, OnlyEv_of_regs honly, fun _ => honly⟩

/-! ### Requests turned away (R27, R29) -/

theorem tag_lt (g : BitVec 8) : g.toNat < 256 := g.isLt

theorem busy_turnedAway {s : State} (g : BitVec 8) (row ok : Bool) (act : State → State) (ht : s.startTrig = false) (hp : s.tr.isSome = true) :
    TurnedAway s g.toNat 3 (.next (s.hostReq g.toNat row ok act)) := by
  rw [hostReq_busy _ _ _ _ ht hp]
  exact refuseReq_turnedAway s (tag_lt g) (by decide)

/-- A request without a row of R27 from the current mode. -/
theorem noRow_turnedAway {s : State} (g : BitVec 8) {row : Bool} (ok : Bool) (act : State → State) (h : Free s) (hrow : row = false) :
    TurnedAway s g.toNat 2 (.next (s.hostReq g.toNat row ok act)) := by
  rw [hrow, hostReq_noRow _ _ _ h]
  exact refuseReq_turnedAway s (tag_lt g) (by decide)

/-- A request whose row exists but whose condition is not met. -/
theorem notMet_turnedAway {s : State} (g : BitVec 8) {row ok : Bool} (act : State → State) (h : Free s) (hrow : row = true) (hok : ok = false) :
    TurnedAway s g.toNat 5 (.next (s.hostReq g.toNat row ok act)) := by
  rw [hrow, hok, hostReq_notMet _ _ h]
  exact refuseReq_turnedAway s (tag_lt g) (by decide)

/-- Settles O19: every request is judged by one operation, whose refusals differ in their RESULT alone. -/
theorem modeRequestsTurnedAway : Obligations.ModeRequestsTurnedAway := by
  unfold Obligations.ModeRequestsTurnedAway
  intro s g same m lcs htrig
  refine ⟨fun hp c hc => ?_, fun hp => ?_⟩
  · have busy := fun row ok act => busy_turnedAway g row ok act htrig hp
    simp only [List.mem_cons, List.not_mem_nil, or_false] at hc
    obtain rfl | rfl | rfl | rfl | rfl | rfl | rfl | rfl := hc <;> exact busy _ _ _
  · have hfree : Free s := ⟨htrig, hp⟩
    refine ⟨fun h => noRow_turnedAway g _ _ hfree ?_, fun h => noRow_turnedAway g _ _ hfree ?_, fun h => noRow_turnedAway g _ _ hfree ?_,
      fun h => ⟨noRow_turnedAway g _ _ hfree ?_, noRow_turnedAway g _ _ hfree ?_⟩,
      fun h => ⟨noRow_turnedAway g _ _ hfree ?_, noRow_turnedAway g _ _ hfree ?_⟩,
      noRow_turnedAway g _ _ hfree rfl, fun h hc => notMet_turnedAway g _ hfree ?_ ?_, fun h hc => notMet_turnedAway g _ hfree ?_ ?_,
      fun h hc => notMet_turnedAway g _ hfree ?_ ?_, fun h hc => notMet_turnedAway g _ hfree ?_ ?_, fun h hc => notMet_turnedAway g _ hfree ?_ ?_⟩
    all_goals simp_all

end Sys2Proof.Machine

/-! PROOFS. Requests for a mode that take effect at once (R27, R30, R32, R34, R130, R199). -/

namespace Sys2Proof.Machine

open Sys2Proof.Safety

/-! ### A transition at once and its side effects (R27, R30) -/

theorem atOnce_takesMode (s : State) {m tag : Nat} (hm3 : m ≠ 3) (hm : m < 16) (ht : tag < 256) : TakesMode m tag (s.atOnce m tag) := by
  obtain ⟨hmode, hbars, htag, hres, hcause⟩ := setMode_shows (s.showResult tag 0) 0 hm3 hm (show 0 < 16 by decide)
  obtain ⟨htag', hres', -, -⟩ := showResult_shows s ht (show 0 < 8 by decide)
  exact ⟨hmode, hbars, htag.trans htag', hres.trans hres', hcause⟩

/-- The mode's own side effects of a transition at once. -/
theorem Keeps_atOnce (s : State) {m tag : Nat} (hm3 : m ≠ 3) (ht : tag < 256) :
    Keeps (((s.showResult tag 0).writeModes m 0).modeBase s.mode m) (s.atOnce m tag) := by
  have hkeep := Keeps_setMode (s.showResult tag 0) 0 0 hm3
  obtain ⟨-, -, -, hmode⟩ := showResult_shows s ht (show 0 < 8 by decide)
  rwa [hmode] at hkeep

theorem State.cond_put_point (s : State) (c : Bool) (f : Fld) (b : Bool) :
    (s.cond c fun s => s.put f b).sheaves = s.sheaves ∧ (s.cond c fun s => s.put f b).point = s.point := by
  unfold State.cond
  split <;> exact ⟨rfl, rfl⟩

/-- No sheaf is pending in IDLE, in SAFE, and in READY after PRINT or HOLD (R199). -/
theorem modeBase_sheaves (s : State) {old m : Nat} (h : (m == 1 || m == 7 || (m == 2 && (old == 3 || old == 4))) = true) :
    (s.modeBase old m).sheaves = [] := by
  unfold State.modeBase
  extract_lets b1 b2 b3
  have h1 : b1.sheaves = [] := by simp only [b1, State.cond, h, if_true]
  have h2 : b2.sheaves = b1.sheaves := by
    simp only [b2, State.cond]
    split <;> rfl
  rw [(State.cond_put_point ..).1, (State.cond_put_point ..).1, h2, h1]

/-- In IDLE no point holds composed lines (R27). -/
theorem modeBase_cp (s : State) (old : Nat) {b : Nat} (hb : b < 16) : (s.modeBase old 1).cp b = Point.empty := by
  unfold State.modeBase
  extract_lets b1 b2 b3
  have h2 : b2.cp b = Point.empty := smGet_emptyPoints _ hb
  rw [State.cp, (State.cond_put_point ..).2, (State.cond_put_point ..).2]
  exact h2

/-- Leaving SAFE acknowledges the first FATAL cause (R46). -/
theorem modeBase_fatal (s : State) {m : Nat} (hm : m ≠ 7) : (s.modeBase 7 m).on GLB_FATAL_FIRST_VALID = false := by
  have hc : ((7 : Nat) == 7 && m != 7) = true := by simp [hm]
  simp only [State.modeBase, State.cond, hc, if_true]
  exact State.on_put_same _ _ _ _ _ _ rfl (by decide)

/-- Leaving HOLD for READY acknowledges its cause (R34). -/
theorem modeBase_hold (s : State) : (s.modeBase 4 2).on GLB_HOLD_CAUSE_PENDING = false := by
  simp only [State.modeBase, State.cond, beq_self_eq_true, Bool.and_true, if_true, show ((4 : Nat) == 7) = false from rfl, Bool.false_and,
    Bool.false_eq_true, if_false]
  exact State.on_put_same _ _ _ _ _ _ rfl (by decide)

theorem Keeps.on {s t : State} (h : Keeps s t) (f : Fld) (hf : keptReg f.addr) : t.on f = s.on f := by
  rw [State.on, State.on, h.get f 0 0 0 hf]

/-- A request for IDLE taken at once. -/
theorem atOnce_idle (s : State) {tag : Nat} (ht : tag < 256) :
    let t := s.atOnce 1 tag
    TakesMode 1 tag t ∧ t.sheaves = [] ∧ (∀ b < 16, t.cp b = Point.empty) ∧ (s.mode = 7 → t.on GLB_FATAL_FIRST_VALID = false) := by
  have hkeep := Keeps_atOnce s (m := 1) (by decide) ht
  refine ⟨atOnce_takesMode s (by decide) (by decide) ht, ?_, fun b hb => ?_, fun h7 => ?_⟩
  · exact hkeep.sheaves.trans (modeBase_sheaves _ rfl)
  · exact (hkeep.cp b).trans (modeBase_cp _ _ hb)
  · rw [h7] at hkeep
    exact (hkeep.on GLB_FATAL_FIRST_VALID (by simp [keptReg, Fld.addr])).trans (modeBase_fatal _ (by decide))

/-- A request for READY taken at once from HOLD. -/
theorem atOnce_ready {s : State} {tag : Nat} (ht : tag < 256) (hm : s.mode = 4) :
    let t := s.atOnce 2 tag
    TakesMode 2 tag t ∧ t.sheaves = [] ∧ t.on GLB_HOLD_CAUSE_PENDING = false := by
  have hkeep := Keeps_atOnce s (m := 2) (by decide) ht
  rw [hm] at hkeep
  refine ⟨atOnce_takesMode s (by decide) (by decide) ht, hkeep.sheaves.trans (modeBase_sheaves _ rfl), ?_⟩
  exact (hkeep.on GLB_HOLD_CAUSE_PENDING (by simp [keptReg, Fld.addr])).trans (modeBase_hold _)

/-! ### The requests -/

theorem exec_modeReqIdle {s : State} (g : BitVec 8) (h : Free s) (hm : s.mode ∈ [2, 5, 6] ∨ (s.mode = 7 ∧ s.safeLeave = true)) :
    exec (.modeReqIdle g) s = .next (s.atOnce 1 g.toNat) := by
  change execModeReqIdle g s = _
  unfold execModeReqIdle
  have hrow : (s.mode == 2 || s.mode == 5 || s.mode == 6 || s.mode == 7) = true := by
    rcases hm with hm | hm
    · simp only [List.mem_cons, List.not_mem_nil, or_false] at hm
      rcases hm with hm | hm | hm <;> simp [hm]
    · simp [hm.1]
  have hok : (s.mode != 7 || s.safeLeave) = true := by
    rcases hm with hm | hm
    · simp only [List.mem_cons, List.not_mem_nil, or_false] at hm
      rcases hm with hm | hm | hm <;> simp [hm]
    · simp [hm.2]
  simp only [hrow, hok, hostReq_accepted _ _ h]

theorem exec_modeReqReady_hold {s : State} (g : BitVec 8) (h : Free s) (hm : s.mode = 4) :
    exec (.modeReqReady g) s = .next (s.atOnce 2 g.toNat) := by
  change execModeReqReady g s = _
  have hrow : ((4 : Nat) == 1 || (4 : Nat) == 3 || (4 : Nat) == 4) = true := rfl
  have hok : ((4 : Nat) != 1 || s.readyOk) = true := rfl
  simp only [execModeReqReady, hm, hrow, hok, hostReq_accepted _ _ h, if_true]

theorem exec_modeReqService {s : State} (g : BitVec 8) (h : Free s) (hm : s.mode = 1) (hj : s.startJob = none) :
    exec (.modeReqService g) s = .next (s.atOnce 6 g.toNat) := by
  change execModeReqService g s = _
  simp only [execModeReqService, hm, hj, beq_self_eq_true, Option.isNone_none, hostReq_accepted _ _ h]

theorem exec_modeReqShadow {s : State} (g : BitVec 8) (m : CopyImg) (lcs : List JoinLc) (h : Free s) (hm : s.mode = 1)
    (hlink : s.get TWN_STAT_LINK = 3) (hpm : s.get TWN_STAT_PMODE ∈ [2, 3, 4]) (hj : s.startJob.isSome = true) :
    exec (.modeReqShadow g true m lcs) s = .next (((s.atOnce 5 g.toNat).join m lcs).judgeReady) := by
  change execModeReqShadow g true m lcs s = _
  have hpm : (s.get TWN_STAT_PMODE == 2 || s.get TWN_STAT_PMODE == 3 || s.get TWN_STAT_PMODE == 4) = true := by simpa [or_assoc] using hpm
  simp only [execModeReqShadow, hm, hlink, hpm, hj, beq_self_eq_true, Bool.and_true, hostReq_accepted _ _ h]

/-! ### A warm start on request (R32, R446) -/

theorem State.each_proj {α β : Type} (p : State → β) (l : List α) (f : α → State → State) (hf : ∀ x u, p (f x u) = p u) (s : State) :
    p (s.each l f) = p s :=
  State.each_inv (fun t => p t = p s) l f (fun x u _ hu => (hf x u).trans hu) s rfl

/-- `t` has the firmware's own state and the commands that wait of `s`. -/
def KeepsStart (s t : State) : Prop := t.mgt = s.mgt ∧ t.pending = s.pending

namespace KeepsStart

theorem set {s t : State} (h : KeepsStart s t) (f : Fld) (v i j k : Nat) : KeepsStart s (t.set f v i j k) := h

theorem put {s t : State} (h : KeepsStart s t) (f : Fld) (b : Bool) (i j k : Nat) : KeepsStart s (t.put f b i j k) := h

theorem set64 {s t : State} (h : KeepsStart s t) (f : Fld) (z : Int) (i j k : Nat) : KeepsStart s (t.set64 f z i j k) := h

theorem each {α : Type} {s t : State} {l : List α} {f : α → State → State} (h : KeepsStart s t) (hf : ∀ x u, KeepsStart u (f x u)) :
    KeepsStart s (t.each l f) :=
  State.each_inv (KeepsStart s) l f (fun x u _ hu => ⟨(hf x u).1.trans hu.1, (hf x u).2.trans hu.2⟩) t h

end KeepsStart

theorem bare_start (s : State) (m : MgtSt) : (s.bare m).mgt.start = m.start := rfl

theorem bare_pending (s : State) (m : MgtSt) : (s.bare m).pending = s.pending := rfl

/-- What the start registers show when a warm start begins (R449). -/
def State.startShown (u : State) (cause : Nat) : State :=
  (((((u.set GLB_START_STAT_KIND 2).put GLB_START_STAT_DONE false).set GLB_START_STAT_STEP 0).set GLB_START_STAT_RESULT 0).set
    GLB_START_STAT_CAUSE cause).put GLB_START_STAT_RECOVERY false

theorem keepsStart_startShown (u : State) (cause : Nat) : KeepsStart u (u.startShown cause) :=
  have h0 : KeepsStart u u := ⟨rfl, rfl⟩
  (((((h0.set _ _ _ _ _).put _ _ _ _ _).set _ _ _ _ _).set _ _ _ _ _).set _ _ _ _ _).put _ _ _ _ _

theorem startShown_mode (u : State) (cause : Nat) : (u.startShown cause).mode = u.mode := by
  have hset : ∀ (u : State) (f : Fld) (v : Nat), f.addr = GLB_START_STAT.addr → (u.set f v).mode = u.mode := fun u f v hf =>
    State.get_set_addr _ _ _ _ _ _ _ _ _ _ (by rw [hf]; decide)
  simp only [State.startShown, State.put, hset _ GLB_START_STAT_RECOVERY _ rfl, hset _ GLB_START_STAT_CAUSE _ rfl,
    hset _ GLB_START_STAT_RESULT _ rfl, hset _ GLB_START_STAT_STEP _ rfl, hset _ GLB_START_STAT_DONE _ rfl, hset _ GLB_START_STAT_KIND _ rfl]

/-- A warm start in progress, and the commands that wait, after its reset (R448, R449). -/
theorem warmReset_start (s : State) (cause : Nat) :
    (s.warmReset cause).mgt.start = some ⟨2, cause, false, []⟩ ∧ (s.warmReset cause).pending = s.pending := by
  unfold State.warmReset
  extract_lets servo mgt0 bare trk0 domains kept clock times boot units
  have hkept : KeepsStart domains kept := KeepsStart.each ⟨rfl, rfl⟩ fun _ _ => ⟨rfl, rfl⟩
  have hboot : KeepsStart domains boot := (((((((hkept.set _ _ _ _ _).set _ _ _ _ _).set _ _ _ _ _).set64 _ _ _ _ _).set _ _ _ _ _).set _ _ _ _ _).set
    _ _ _ _ _).put _ _ _ _ _
  have hunits : KeepsStart domains units := hboot.each fun _ _ =>
    KeepsStart.set (KeepsStart.set (KeepsStart.set ⟨rfl, rfl⟩ _ _ _ _ _) _ _ _ _ _) _ _ _ _ _
  obtain ⟨hmgt, hpend⟩ := keepsStart_startShown units cause
  have hdom : domains.mgt.start = some ⟨2, cause, false, []⟩ := by simp only [domains, bare, bare_start]
  have hdomPend : domains.pending = s.pending := by simp only [domains, bare, bare_pending]
  exact ⟨(congrArg MgtSt.start (hmgt.trans hunits.1)).trans hdom, (hpend.trans hunits.2).trans hdomPend⟩

/-- The reset of a warm start leaves the device in BOOT (R448). -/
theorem warmReset_mode (s : State) (cause : Nat) : (s.warmReset cause).mode = 0 := by
  unfold State.warmReset
  extract_lets servo mgt0 bare trk0 domains kept clock times boot units
  have hmode : boot.mode = 0 :=
    (State.get_set_addr (times.set GLB_MODE_STAT_MODE 0) MEM_STAT_READY GLB_MODE_STAT_MODE 0 0 0 0 0 0 0 (by decide)).trans
      (State.get_set_same times GLB_MODE_STAT_MODE 0 0 0 0 (by decide))
  have hunits : units.mode = boot.mode := State.each_proj State.mode _ _ (fun n u => by
    have hne : GLB_MODE_STAT_MODE.addr ≠ GLB_UST.addr n := by
      simp only [Fld.addr]
      omega
    rw [State.mode, State.mode, State.get_set_addr _ GLB_UST_STATE _ _ _ _ _ _ _ _ hne, State.get_set_addr _ GLB_UST_PERMIT _ _ _ _ _ _ _ _ hne,
      State.get_set_addr _ GLB_UST_RUNSTATE _ _ _ _ _ _ _ _ hne]) boot
  exact ((startShown_mode units cause).trans hunits).trans hmode

theorem leaveMode_pending (s : State) : s.leaveMode.pending = s.pending := by
  unfold State.leaveMode
  split
  · rfl
  · exact OnlyEv_proj (raise_only ..) State.pending fun _ _ _ _ _ => rfl

theorem exec_modeReqBoot {s : State} (g : BitVec 8) (hs : s.mgt.start = none) (ht : s.mgt.thermTrip = false) :
    exec (.modeReqBoot g) s = .next (s.leaveMode.warmReset 2) := by
  change execModeReqBoot g s = _
  simp only [execModeReqBoot, State.beginStart, hs, ht, Option.isSome_none, Bool.or_self, Bool.false_eq_true, if_false, if_true]

/-- Settles O20: what a mode brings with it leaves the mode registers alone, so the request shows what it wrote. -/
theorem modeRequestsTakenAtOnce : Obligations.ModeRequestsTakenAtOnce := by
  unfold Obligations.ModeRequestsTakenAtOnce
  intro s g m lcs
  refine ⟨fun hfree => ⟨fun hm => ?_, fun hm => ?_, fun hm hj => ?_, fun hm hlink hpm hj => ⟨?_, ?_⟩⟩, fun hs ht => ?_⟩
  · exact ⟨_, exec_modeReqIdle g hfree hm, atOnce_idle s (tag_lt g)⟩
  · exact ⟨_, exec_modeReqReady_hold g hfree hm, atOnce_ready (tag_lt g) hm⟩
  · exact ⟨_, exec_modeReqService g hfree hm hj, atOnce_takesMode s (by decide) (by decide) (tag_lt g)⟩
  · exact exec_modeReqShadow g m lcs hfree hm hlink hpm hj
  · exact atOnce_takesMode s (by decide) (by decide) (tag_lt g)
  · obtain ⟨hstart, hpend⟩ := warmReset_start s.leaveMode 2
    exact ⟨_, exec_modeReqBoot g hs ht, warmReset_mode .., hstart, hpend.trans (leaveMode_pending s)⟩

end Sys2Proof.Machine

/-! PROOFS. Staged transitions and the start trigger (R27, R28, R30, R33, R130, R498). -/

namespace Sys2Proof.Machine

open Sys2Proof.Safety

/-! ### The bars of the start job (R27, R430, R431) -/

/-- `t` has the store and, apart from GLB_MODE_STAT, the registers of `s`. -/
structure SameJobs (s t : State) : Prop where
  regs : ∀ a, a ≠ GLB_MODE_STAT.addr → t.rd a = s.rd a
  store : t.store = s.store
  poison : t.poison = s.poison
  fresh : t.fresh = s.fresh

namespace SameJobs

theorem of_only {s t : State} (h : OnlyRegs [GLB_MODE_STAT.addr] s { t with tr := s.tr }) : SameJobs s t :=
  have hproj {α : Type} (p : State → α) := OnlyEv_proj (OnlyEv_of_regs h) p
  ⟨fun a ha => h.1 a (by simpa using ha), hproj State.store fun _ _ _ _ _ => rfl, hproj State.poison fun _ _ _ _ _ => rfl,
    hproj State.fresh fun _ _ _ _ _ => rfl⟩

theorem get {s t : State} (h : SameJobs s t) (f : Fld) (i j k : Nat) (hf : f.addr i j k ≠ 0x104) : t.get f i j k = s.get f i j k :=
  State.get_congr _ _ _ _ (h.regs _ hf)

theorem on {s t : State} (h : SameJobs s t) (f : Fld) (i j k : Nat) (hf : f.addr i j k ≠ 0x104) : t.on f i j k = s.on f i j k := by
  rw [State.on, State.on, h.get _ _ _ _ hf]

theorem get64 {s t : State} (h : SameJobs s t) (f : Fld) (i j k : Nat) (hf : 0x104 < f.addr i j k) : t.get64 f i j k = s.get64 f i j k :=
  State.get64_congr f i j k (h.regs _ (by simp only [Fld.addr] at hf ⊢; omega)) (h.regs _ (by simp only [Fld.addr] at hf ⊢; omega))

theorem poisoned {s t : State} (h : SameJobs s t) (b : Nat) : t.poisoned b = s.poisoned b := by
  have hsc : t.scOf (64 * b) = s.scOf (64 * b) := by rw [State.scOf, State.scOf, State.memN, State.memN, h.get MEM_CFG_POP _ _ _ (by decide)]
  have hbad : ∀ n, t.scBad n = s.scBad n := fun n => by
    have hn : MEM_SC_STAT.addr n ≠ 0x104 := by
      simp only [Fld.addr]
      omega
    rw [State.scBad, State.scBad, h.on MEM_SC_STAT_FENCED n 0 0 hn, h.on MEM_SC_STAT_FAILED n 0 0 hn]
  simp only [State.poisoned, hsc, hbad, h.poison, h.on MEM_STAT_READY 0 0 0 (by decide)]

theorem ld {s t : State} (h : SameJobs s t) (a n : Nat) : t.ld a n = s.ld a n := by
  have hcap : t.memCap = s.memCap := h.get64 MEM_CAP_LO 0 0 0 (by decide)
  have hready := h.on MEM_STAT_READY 0 0 0 (by decide)
  simp only [State.ld, State.ldByte, hcap, hready, h.poisoned, h.store, h.fresh]

theorem startJob {s t : State} (h : SameJobs s t) : t.startJob = s.startJob := by
  have hvalid : ∀ j, t.on HIF_JOB_STAT_VALID j = s.on HIF_JOB_STAT_VALID j := fun j => h.on _ _ _ _ (by simp only [Fld.addr]; omega)
  have hstart : ∀ j, t.on HIF_JOB_STAT_START j = s.on HIF_JOB_STAT_START j := fun j => h.on _ _ _ _ (by simp only [Fld.addr]; omega)
  have hdesc : ∀ j, t.get64 HIF_JOB_DESC_LO j = s.get64 HIF_JOB_DESC_LO j := fun j => h.get64 _ _ _ _ (by simp only [Fld.addr]; omega)
  simp only [State.startJob, State.jobSlots, State.jobAt, State.jobBytes, State.ldN, h.ld, hvalid, hstart, hdesc]

theorem stagedBars {s t : State} (h : SameJobs s t) : t.stagedBars = s.stagedBars := by
  have hrun : ∀ b, t.on GEK_LC_CTL_EN b = s.on GEK_LC_CTL_EN b := fun b => h.on _ _ _ _ (by simp only [Fld.addr]; omega)
  simp only [State.stagedBars, h.startJob, hrun]

end SameJobs

/-! ### A transition begins (R30) -/

/-- A transition in progress, with its target shown. -/
def State.beginTr (s : State) (x : ModeTr) : State := ({ s with tr := some x } : State).set GLB_MODE_STAT_PENDING x.target

theorem beginTr_shows (s : State) {x : ModeTr} (hx : x.target < 16) :
    let t := s.beginTr x
    t.get GLB_MODE_STAT_PENDING = x.target ∧ t.mode = s.mode := by
  refine ⟨?_, ?_⟩
  · rw [State.beginTr, State.get_set_same _ _ _ _ _ _ (by decide)]
    exact Nat.mod_eq_of_lt hx
  · rw [State.mode, State.beginTr, State.get_set_bits _ _ _ _ _ _ _ _ _ _ (by decide)]
    rfl

/-- A change of GLB_MODE_STAT leaves the transition of a state as it is. -/
theorem OnlyRegs_tr {A : List Nat} {s t u : State} (h : OnlyRegs A s { t with tr := s.tr }) (h' : OnlyRegs A t u) : OnlyRegs A s { u with tr := s.tr } := by
  obtain ⟨hregs, heq⟩ := h
  obtain ⟨hregs', heq'⟩ := h'
  refine ⟨fun a ha => (hregs' a ha).trans (hregs a ha), ?_⟩
  rw [heq']
  exact congrArg (fun z : State => { z with regs := u.regs }) heq

theorem beginTr_only (s : State) (x : ModeTr) : OnlyRegs [GLB_MODE_STAT.addr] s { s.beginTr x with tr := s.tr } :=
  OnlyRegs_tr (t := { s with tr := some x }) (OnlyRegs_refl _ _) (OnlyRegs_set _ GLB_MODE_STAT_PENDING _ _ _ _)

/-- A transition that has bars to wait for: with its target shown nothing else changes. -/
theorem startTr_beginTr {s : State} {x : ModeTr} (hbars : s.stagedBars ≠ []) (htag : x.tag = none) : s.startTr x = s.beginTr x := by
  have hsame : (s.beginTr x).stagedBars = s.stagedBars := (SameJobs.of_only (beginTr_only s x)).stagedBars
  have hne : (s.beginTr x).stagedBars.isEmpty = false := by simpa [hsame] using hbars
  unfold State.startTr
  rw [htag]
  exact if_neg (by rw [← State.beginTr, hne]; decide)

/-- A host request's transition that has bars to wait for shows the request besides. -/
theorem startTr_request {s : State} {x : ModeTr} {g : Nat} (hbars : s.stagedBars ≠ []) (htag : x.tag = some g) :
    s.startTr x = (s.beginTr x).showResult g 1 := by
  have honly := OnlyRegs_tr (beginTr_only s x) (showResult_only (s.beginTr x) g 1)
  have hne : ((s.beginTr x).showResult g 1).stagedBars.isEmpty = false := by simpa [(SameJobs.of_only honly).stagedBars] using hbars
  unfold State.startTr
  rw [htag]
  exact if_neg (by rw [← State.beginTr, hne]; decide)

/-- What a request's transition shows while it waits (R30). -/
theorem request_shows (s : State) {x : ModeTr} {g : Nat} (hx : x.target < 16) (hg : g < 256) :
    let t := (s.beginTr x).showResult g 1
    Shows t g 1 x.target ∧ t.mode = s.mode ∧ t.tr = some x ∧ OnlyRegs [GLB_MODE_STAT.addr] s { t with tr := s.tr } := by
  obtain ⟨htag, hres, hpend, hmode⟩ := showResult_shows (s.beginTr x) hg (show 1 < 8 by decide)
  obtain ⟨hpend', hmode'⟩ := beginTr_shows s hx
  have honly := showResult_only (s.beginTr x) g 1
  exact ⟨⟨htag, hres, hpend.trans hpend'⟩, hmode.trans hmode', congrArg State.tr honly.2, OnlyRegs_tr (beginTr_only s x) honly⟩

theorem startTr_staged {s : State} {x : ModeTr} {g : Nat} (hbars : s.stagedBars ≠ []) (htag : x.tag = some g) (hx : x.target < 16) (hg : g < 256) :
    Staged s g x (.next (s.startTr x)) :=
  ⟨_, by rw [startTr_request hbars htag], request_shows s hx hg⟩

/-- A request accepted whose row begins a staged transition. -/
theorem request_staged {s : State} (g : BitVec 8) {row ok : Bool} {x : ModeTr} (hfree : Free s) (hbars : s.stagedBars ≠ []) (hrow : row = true)
    (hok : ok = true) (htag : x.tag = some g.toNat) (hx : x.target < 16) :
    Staged s g.toNat x (.next (s.hostReq g.toNat row ok fun s => s.startTr x)) := by
  rw [hrow, hok, hostReq_accepted _ _ hfree]
  exact startTr_staged hbars htag hx (tag_lt g)

/-! ### IDLE to READY (R27, R28) -/

theorem readyOk_job {s : State} (h : s.readyOk = true) : ∃ j, s.startJob = some j := by
  cases hj : s.startJob with
  | none => simp [State.readyOk, hj] at h
  | some j => exact ⟨j, rfl⟩

/-- READY requested in IDLE: the composition points of the job start under the transition. -/
theorem exec_modeReqReady_idle {s : State} (g : BitVec 8) {j : JobD} (hfree : Free s) (hm : s.mode = 1) (hok : s.readyOk = true)
    (hj : s.startJob = some j) :
    exec (.modeReqReady g) s =
      .next ((((s.beginTr ⟨2, 0, some g.toNat, false, none, []⟩).showResult g.toNat 1).startJobPoints j).leadDone) := by
  obtain ⟨-, -, -, honly⟩ := request_shows s (x := ⟨2, 0, some g.toNat, false, none, []⟩) (by decide : 2 < 16) (tag_lt g)
  have hjob := (SameJobs.of_only honly).startJob.trans hj
  change execModeReqReady g s = _
  simp only [execModeReqReady, hm, hok]
  rw [show ((1 : Nat) == 1 || (1 : Nat) == 3 || (1 : Nat) == 4) = true from rfl, Bool.or_true, hostReq_accepted _ _ hfree]
  rw [if_neg (by decide), if_neg (by decide)]
  simp only [State.beginTr] at hjob
  rw [hjob]
  rfl

/-! ### The start trigger (R33) -/

theorem OnlyRegs_startTrig {A : List Nat} {s t : State} {b : Bool} (h : OnlyRegs A { s with startTrig := b } t) :
    OnlyRegs A s { t with startTrig := s.startTrig } := by
  obtain ⟨hregs, heq⟩ := h
  refine ⟨hregs, ?_⟩
  rw [heq]

theorem OnlyEv_startTrig {A : List Nat} {s t : State} {b : Bool} (h : OnlyEv A { s with startTrig := b } t) :
    OnlyEv A s { t with startTrig := s.startTrig } := by
  obtain ⟨hregs, heq⟩ := h
  refine ⟨hregs, ?_⟩
  rw [heq]

theorem exec_startTrigger {s : State} (h : s.startTrig = true) : exec .startTrigger s = .next s.takeTrigger := by
  change execStartTrigger s = _
  rw [execStartTrigger, if_pos h]

theorem takeTrigger_refused {s : State} (hm : s.mode = 2) (ht : s.tr.isSome = true) :
    s.takeTrigger = ({ s with startTrig := false } : State).raise EV_MODE_REFUSED 255 [8] := by
  have hm' : ({ s with startTrig := false } : State).mode = 2 := hm
  simp [State.takeTrigger, hm', ht]

theorem takeTrigger_begins {s : State} (hm : s.mode = 2) (ht : s.tr = none) (hbars : s.stagedBars ≠ []) :
    s.takeTrigger = ({ s with startTrig := false } : State).beginTr ⟨3, 8, none, false, none, []⟩ := by
  have hm' : ({ s with startTrig := false } : State).mode = 2 := hm
  have hsame : SameJobs s { s with startTrig := false } := ⟨fun _ _ => rfl, rfl, rfl, rfl⟩
  have ht' : ({ s with startTrig := false } : State).tr.isSome = false := congrArg Option.isSome ht
  rw [← startTr_beginTr (hsame.stagedBars ▸ hbars) rfl]
  simp only [State.takeTrigger, hm', ht', bne_self_eq_false, Bool.false_eq_true, if_false]

theorem takeTrigger_other {s : State} (hm : s.mode ≠ 2) : s.takeTrigger = { s with startTrig := false } := by
  have hm' : ({ s with startTrig := false } : State).mode ≠ 2 := hm
  simp [State.takeTrigger, hm']

/-- The start trigger taken in READY begins READY to PRINT with CAUSE 8. -/
theorem takeTrigger_shows {s : State} (hm : s.mode = 2) (ht : s.tr = none) (hbars : s.stagedBars ≠ []) :
    let t := s.takeTrigger
    t.startTrig = false ∧ t.tr = some ⟨3, 8, none, false, none, []⟩ ∧ t.mode = 2 ∧ t.get GLB_MODE_STAT_PENDING = 3 ∧
      OnlyRegs [GLB_MODE_STAT.addr] s { t with tr := s.tr, startTrig := s.startTrig } := by
  intro t
  have heq : t = _ := takeTrigger_begins hm ht hbars
  obtain ⟨hpend, hmode⟩ := beginTr_shows ({ s with startTrig := false } : State) (x := ⟨3, 8, none, false, none, []⟩) (by decide : 3 < 16)
  have honly := OnlyRegs_startTrig (beginTr_only ({ s with startTrig := false } : State) ⟨3, 8, none, false, none, []⟩)
  rw [heq]
  exact ⟨rfl, rfl, hmode.trans hm, hpend, honly⟩

/-- The start trigger taken while a transition is pending is refused with MODE_REFUSED. -/
theorem takeTrigger_raises {s : State} (hm : s.mode = 2) (ht : s.tr.isSome = true) :
    let t := s.takeTrigger
    t.startTrig = false ∧ t.tr = s.tr ∧ t.mode = 2 ∧ OnlyEv [] s { t with startTrig := s.startTrig } := by
  intro t
  have heq : t = _ := takeTrigger_refused hm ht
  have honly : OnlyEv [] { s with startTrig := false } t := heq ▸ raise_only ..
  exact ⟨OnlyEv_proj honly State.startTrig fun _ _ _ _ _ => rfl, OnlyEv_proj honly State.tr fun _ _ _ _ _ => rfl,
    (OnlyEv_get honly GLB_MODE_STAT_MODE 0 0 0 (by simp) (by decide)).trans hm, OnlyEv_startTrig honly⟩

/-- Settles O21: a transition with bars to wait for only shows its request and its target. -/
theorem stagedTransitionsBegin : Obligations.StagedTransitionsBegin := by
  unfold Obligations.StagedTransitionsBegin
  intro s g
  refine ⟨fun hfree hbars => ⟨fun hm => ?_, fun hm => ⟨?_, ?_, ?_⟩⟩, fun hfree hm hok => ?_,
    fun htrig => ⟨fun hm ht hbars => ?_, fun hm ht => ?_, fun hm => ?_⟩⟩
  · refine request_staged g hfree hbars ?_ ?_ rfl (by decide : 3 < 16)
    · rcases hm with hm | ⟨hm, -⟩ <;> simp [hm]
    · rcases hm with hm | ⟨hm, hc⟩
      · simp [hm]
      · simp [hc]
  · exact request_staged g hfree hbars (by simp [hm]) rfl rfl (by decide : 4 < 16)
  · exact request_staged g hfree hbars (by simp [hm]) rfl rfl (by decide : 4 < 16)
  · change Staged s _ _ (execModeReqReady g s)
    simp only [execModeReqReady, hm]
    rw [show ((3 : Nat) == 1 || (3 : Nat) == 3 || (3 : Nat) == 4) = true from rfl, show ((3 : Nat) != 1 || s.readyOk) = true from rfl,
      hostReq_accepted _ _ hfree, if_neg (by decide), if_pos trivial]
    exact startTr_staged hbars rfl (by decide : 2 < 16) (tag_lt g)
  · obtain ⟨j, hj⟩ := readyOk_job hok
    obtain ⟨hshows, hmode, htr, honly⟩ := request_shows s (x := ⟨2, 0, some g.toNat, false, none, []⟩) (by decide : 2 < 16) (tag_lt g)
    exact ⟨j, _, hj, htr, hshows, hmode.trans hm, honly, exec_modeReqReady_idle g hfree hm hok hj⟩
  · exact ⟨_, exec_startTrigger htrig, takeTrigger_shows hm ht hbars⟩
  · exact ⟨_, exec_startTrigger htrig, takeTrigger_raises hm ht⟩
  · rw [exec_startTrigger htrig, takeTrigger_other hm]

end Sys2Proof.Machine

/-! PROOFS. Acknowledgements, stop points of fenced units, SKEW_TIMEOUT and EVENT_LOST (R34, R36, R38, R40, R42, R45, R46). -/

namespace Sys2Proof.Machine

open Sys2Proof.Safety

/-! ### Acknowledgements (R34, R46) -/

theorem holdCauseAck_index {s : State} (hp : s.on GLB_HOLD_CAUSE_PENDING = true) (hk : s.get GLB_HOLD_CAUSE_KIND = 1) :
    exec .holdCauseAck s = .next ((s.put GLB_HOLD_CAUSE_PENDING false).set GEK_TRK_STAT_CONSEC 0 (s.get GLB_HOLD_CAUSE_TRK)) := by
  change execHoldCauseAck s = _
  simp only [execHoldCauseAck, hp, hk, Bool.not_true, Bool.false_eq_true, if_false, if_true]

theorem holdCauseAck_fenced {s : State} (hp : s.on GLB_HOLD_CAUSE_PENDING = true) (hk : s.get GLB_HOLD_CAUSE_KIND ≠ 1)
    (hf : s.on MEM_SC_STAT_FENCED (s.get GLB_HOLD_CAUSE_SC) = true) : exec .holdCauseAck s = .next s := by
  change execHoldCauseAck s = _
  simp only [execHoldCauseAck, hp, hk, hf, Bool.not_true, Bool.false_eq_true, if_false, if_true]

theorem holdCauseAck_unfenced {s : State} (hp : s.on GLB_HOLD_CAUSE_PENDING = true) (hk : s.get GLB_HOLD_CAUSE_KIND ≠ 1)
    (hf : s.on MEM_SC_STAT_FENCED (s.get GLB_HOLD_CAUSE_SC) = false) : exec .holdCauseAck s = .next (s.put GLB_HOLD_CAUSE_PENDING false) := by
  change execHoldCauseAck s = _
  simp only [execHoldCauseAck, hp, hk, hf, Bool.not_true, Bool.false_eq_true, if_false]

/-- Index faults acknowledged (R34). -/
theorem holdCauseAck_clears (s : State) (k : Nat) :
    let t := (s.put GLB_HOLD_CAUSE_PENDING false).set GEK_TRK_STAT_CONSEC 0 k
    t.on GLB_HOLD_CAUSE_PENDING = false ∧ t.get GEK_TRK_STAT_CONSEC k = 0 ∧ OnlyRegs [GLB_HOLD_CAUSE.addr, GEK_TRK_STAT.addr k] s t := by
  have hne : GLB_HOLD_CAUSE_PENDING.addr ≠ GEK_TRK_STAT_CONSEC.addr k := by
    simp only [Fld.addr]
    omega
  refine ⟨?_, (State.get_set_same _ GEK_TRK_STAT_CONSEC 0 k 0 0 (by decide)).trans (Nat.zero_mod _),
    OnlyRegs_trans (OnlyRegs_set s GLB_HOLD_CAUSE_PENDING 0 0 0 0) (OnlyRegs_set _ GEK_TRK_STAT_CONSEC 0 k 0 0)⟩
  rw [State.on, State.get_set_addr _ GEK_TRK_STAT_CONSEC GLB_HOLD_CAUSE_PENDING _ _ _ _ _ _ _ hne]
  exact State.on_put_same s GLB_HOLD_CAUSE_PENDING false 0 0 0 rfl (by decide)

/-! ### The views of a unit (R35 to R40) -/

/-- Unit `n` shows the running view `run`, the permission view `permit` and what follows from both (R36, R39). -/
structure ShowsViews (n run permit : Nat) (t : State) : Prop where
  runs : t.get GLB_UST_RUNSTATE n = run
  permits : t.get GLB_UST_PERMIT n = permit
  combines : t.get GLB_UST_STATE n = combineState run permit

namespace ShowsViews

theorem congr {n run permit : Nat} {s t : State} (h : ShowsViews n run permit s) (hr : t.rd (GLB_UST.addr n) = s.rd (GLB_UST.addr n)) :
    ShowsViews n run permit t :=
  ⟨(State.get_congr GLB_UST_RUNSTATE n 0 0 hr).trans h.runs, (State.get_congr GLB_UST_PERMIT n 0 0 hr).trans h.permits,
    (State.get_congr GLB_UST_STATE n 0 0 hr).trans h.combines⟩

/-- SKEW, CAUSE and CHANGES stand above the views. -/
theorem set {n run permit : Nat} {t : State} (h : ShowsViews n run permit t) (f : Fld) (v : Nat) (hf : 11 ≤ f.lo) :
    ShowsViews n run permit (t.set f v n) := by
  have hget : ∀ g : Fld, g.lo + g.width ≤ 11 → (t.set f v n).get g n = t.get g n := fun g hg =>
    State.get_set_bits _ _ _ _ _ _ _ _ _ _ (Or.inl (hg.trans hf))
  exact ⟨(hget _ (by decide)).trans h.runs, (hget _ (by decide)).trans h.permits, (hget _ (by decide)).trans h.combines⟩

theorem cond {n run permit : Nat} {t : State} {c : Bool} {f : State → State} (h : ShowsViews n run permit t)
    (hf : ∀ u, ShowsViews n run permit u → ShowsViews n run permit (f u)) : ShowsViews n run permit (t.cond c f) := by
  unfold State.cond
  split
  · exact hf t h
  · exact h

end ShowsViews

theorem combineState_lt {run permit : Nat} (h : run < 8) : combineState run permit < 8 := by
  unfold combineState
  split_ifs <;> omega

/-- The views written. -/
theorem writeViews_shows (s : State) {n run permit : Nat} (hrun : run < 8) (hpermit : permit < 8) :
    ShowsViews n run permit (((s.set GLB_UST_RUNSTATE run n).set GLB_UST_PERMIT permit n).set GLB_UST_STATE (combineState run permit) n) := by
  refine ⟨?_, ?_, ?_⟩
  · rw [State.get_set_bits _ _ _ _ _ _ _ _ _ _ (by decide), State.get_set_bits _ _ _ _ _ _ _ _ _ _ (by decide),
      State.get_set_same _ _ _ _ _ _ (by decide)]
    exact Nat.mod_eq_of_lt hrun
  · rw [State.get_set_bits _ _ _ _ _ _ _ _ _ _ (by decide), State.get_set_same _ _ _ _ _ _ (by decide)]
    exact Nat.mod_eq_of_lt hpermit
  · rw [State.get_set_same _ _ _ _ _ _ (by decide)]
    exact Nat.mod_eq_of_lt (combineState_lt hrun)

theorem evReg_ust {n : Nat} (hn : n < 0x100) : evReg (GLB_UST.addr n) = false := by
  simp [evReg, Fld.addr]
  omega

/-- The two views of a unit made: it shows them, their combination and their skew (R36, R39). -/
theorem setViews_shows (s : State) {n run permit : Nat} (cause : Nat) (hn : n < 0x100) (hrun : run < 8) (hpermit : permit < 8) :
    ShowsViews n run permit (s.setViews n run permit cause) ∧ (s.setViews n run permit cause).on GLB_UST_SKEW n = viewSkew run permit := by
  unfold State.setViews
  extract_lets old new sk0 sk s1 s2 s3
  have h2 : ShowsViews n run permit s2 := (writeViews_shows s hrun hpermit).cond fun u hu =>
    (hu.set GLB_UST_CHANGES _ (by decide)).cond fun w hw => hw.set GLB_UST_CAUSE _ (by decide)
  have hmap : GLB_UST.addr n ≠ GLB_SKEW_MAP.addr (n / 32) := by
    simp only [Fld.addr]
    omega
  have h3 : ShowsViews n run permit s3 ∧ s3.on GLB_UST_SKEW n = sk :=
    ⟨(h2.set GLB_UST_SKEW _ (by decide)).congr (State.rd_set_other _ GLB_SKEW_MAP _ _ _ _ _ hmap), by
      rw [State.on, State.get_set_addr _ GLB_SKEW_MAP GLB_UST_SKEW _ _ _ _ _ _ _ hmap]
      exact State.on_put_same s2 GLB_UST_SKEW sk n 0 0 rfl (by decide)⟩
  have hraise : ∀ e : Ev, ShowsViews n run permit (s3.raise e n) ∧ (s3.raise e n).on GLB_UST_SKEW n = sk := fun e =>
    ⟨h3.1.congr (State.rd_raise _ _ _ _ (evReg_ust hn)), by rw [State.on, State.get_raise _ _ _ _ GLB_UST_SKEW _ _ _ (evReg_ust hn)]; exact h3.2⟩
  split_ifs
  · exact hraise _
  · exact hraise _
  · exact h3

theorem OnlyEv_causes {A : List Nat} {s t : State} {c : SMap (List Nat)} (h : OnlyEv A { s with causes := c } t) :
    OnlyEv A s { t with causes := s.causes } := by
  obtain ⟨hregs, heq⟩ := h
  refine ⟨hregs, ?_⟩
  rw [heq]

/-- A fenced camera that runs at its stop point: its block keeps nothing of its own, so its running view alone changes (R40). -/
theorem exec_unitStopPoint_camera {s : State} {n : Fin 0xD8} (hlo : 0x90 ≤ n.val) (hhi : n.val < 0x98) (hp : s.get GLB_UST_PERMIT n = 4)
    (hr : s.get GLB_UST_RUNSTATE n = 2) :
    exec (.unitStopPoint n) s = .next (({ s with causes := smPut (fun _ => []) s.causes n [] } : State).setViews n 0 4 0xFF) := by
  have heff : s.stopEffects n = s := by
    rw [State.stopEffects, if_neg (by omega), if_neg (by omega), if_neg (by omega)]
  change execUnitStopPoint n s = _
  rw [execUnitStopPoint, if_neg (by omega)]
  simp only [State.stopUnit, hr, hp, heff, true_and, or_true, true_or, if_true]
  rw [if_neg (by omega), if_neg (by omega)]

/-! ### FATAL events (R45, R46) -/

theorem preempt_rd (s : State) {a : Nat} (h : a ≠ GLB_MODE_STAT.addr) : s.preempt.rd a = s.rd a := by
  unfold State.preempt
  split
  · rfl
  · next t _ =>
    have hpend := State.rd_set_other { s with tr := none, twn.tkBars := none, twn.tkNext := none } GLB_MODE_STAT_PENDING 0xF 0 0 0 a h
    dsimp only
    split
    · exact ((showResult_only ..).1 a (by simpa using h)).trans hpend
    · exact hpend

theorem Keeps_huskAbort (s : State) : Keeps s s.huskAbort := by
  unfold State.huskAbort
  split
  · have h0 : Keeps s { s with husk := none } := ⟨fun _ _ => rfl, rfl, rfl⟩
    have h1 := h0.trans (Keeps.put _ HSK_STAT_BUSY false 0 0 0 (by simp only [keptReg, Fld.addr]; omega))
    exact (h1.trans (Keeps.set _ HSK_STAT_RESULT 4 0 0 0 (by simp only [keptReg, Fld.addr]; omega))).trans (Keeps_raise ..)
  · exact Keeps.refl s

theorem Keeps_safeLamps (s : State) : Keeps s s.safeLamps := by
  unfold State.safeLamps
  extract_lets u l
  have hu : Keeps s u := Keeps.each (Keeps.refl s) fun n u hn => Keeps.cond (Keeps.refl u) fun _ => Keeps.set _ LS_STAT_STATE _ _ _ _ (by
    simp only [keptReg, Fld.addr]
    omega)
  exact hu.trans ⟨fun _ _ => rfl, rfl, rfl⟩

/-- The press enters SAFE: the mode with every bar entry, the cause; the first FATAL cause stays. -/
theorem enterSafe_shows (s : State) :
    let t := s.enterSafe
    t.mode = 7 ∧ (∀ b < 16, t.barMode b = 7) ∧ t.get GLB_MODE_STAT_CAUSE = 2 ∧ t.rd GLB_FATAL_FIRST.addr = s.rd GLB_FATAL_FIRST.addr := by
  obtain ⟨hmode, hbars, -, -, hcause⟩ := setMode_shows s.preempt.safeEngines.huskAbort.safeLamps (m := 7) (cause := 2) 0
    (by decide) (by decide) (by decide)
  refine ⟨hmode, hbars, hcause, ?_⟩
  have hkept : keptReg GLB_FATAL_FIRST.addr := by simp [keptReg, Fld.addr]
  have hpre := ((Keeps_safeEngines s.preempt).trans (Keeps_huskAbort _)).trans (Keeps_safeLamps _)
  have hset := (Keeps_setMode s.preempt.safeEngines.huskAbort.safeLamps 2 0 (by decide : 7 ≠ 3)).regs _ hkept
  rw [State.enterSafe, hset, rd_modeBase _ _ _ (by decide) (by simp), rd_writeModes _ _ _ (by decide) (by decide) (by decide), hpre.regs _ hkept,
    preempt_rd _ (by decide)]

theorem State.get_put_bits (s : State) (f g : Fld) (b : Bool) (i j k : Nat) (h : g.lo + g.width ≤ f.lo ∨ f.lo + f.width ≤ g.lo) :
    (s.put f b i j k).get g i j k = s.get g i j k :=
  State.get_set_bits s f g _ _ _ _ _ _ _ h

/-- The cause of a FATAL event kept, unless an earlier one is (R46). -/
def State.keepFatal (s : State) (code unit : Nat) : State :=
  s.cond (!(s.on GLB_FATAL_FIRST_VALID)) fun s => ((s.set GLB_FATAL_FIRST_CODE code).set GLB_FATAL_FIRST_UNIT unit).put GLB_FATAL_FIRST_VALID true

theorem keepFatal_rd (s : State) (code unit : Nat) {a : Nat} (h : a ≠ GLB_FATAL_FIRST.addr) : (s.keepFatal code unit).rd a = s.rd a := by
  unfold State.keepFatal State.cond
  split
  · dsimp only [State.put]
    rw [State.rd_set_other _ GLB_FATAL_FIRST_VALID _ _ _ _ _ h, State.rd_set_other _ GLB_FATAL_FIRST_UNIT _ _ _ _ _ h,
      State.rd_set_other _ GLB_FATAL_FIRST_CODE _ _ _ _ _ h]
  · rfl

theorem keepFatal_shows (s : State) {code unit : Nat} (hc : code < 2 ^ 16) (hu : unit < 2 ^ 8) :
    let t := s.keepFatal code unit
    t.on GLB_FATAL_FIRST_VALID = true ∧
      (s.on GLB_FATAL_FIRST_VALID = false → t.get GLB_FATAL_FIRST_CODE = code ∧ t.get GLB_FATAL_FIRST_UNIT = unit) := by
  cases hv : s.on GLB_FATAL_FIRST_VALID with
  | true => simp [State.keepFatal, State.cond, hv]
  | false =>
    simp only [State.keepFatal, State.cond, hv, Bool.not_false, if_true]
    refine ⟨State.on_put_same _ _ _ _ _ _ rfl (by decide), fun _ => ⟨?_, ?_⟩⟩
    · rw [State.get_put_bits _ GLB_FATAL_FIRST_VALID _ _ _ _ _ (by decide), State.get_set_bits _ _ _ _ _ _ _ _ _ _ (by decide),
        State.get_set_same _ _ _ _ _ _ (by decide)]
      exact Nat.mod_eq_of_lt hc
    · rw [State.get_put_bits _ GLB_FATAL_FIRST_VALID _ _ _ _ _ (by decide), State.get_set_same _ _ _ _ _ _ (by decide)]
      exact Nat.mod_eq_of_lt hu

/-- A FATAL event outside BOOT and SAFE: kept unless an earlier one is, reported, and SAFE entered (R27, R45, R46). -/
theorem fatal_entersSafe {s : State} (e : Ev) (unit : Nat) (hm : s.mode ∉ [0, 7]) :
    s.fatal e unit = (((s.keepFatal e.code unit).raise e unit []).logRec 1 [e.code, unit]).enterSafe := by
  have hmode : (((s.keepFatal e.code unit).raise e unit []).logRec 1 [e.code, unit]).mode = s.mode :=
    (State.get_raise _ _ _ _ GLB_MODE_STAT_MODE 0 0 0 (by decide)).trans (State.get_congr GLB_MODE_STAT_MODE 0 0 0 (keepFatal_rd _ _ _ (by decide)))
  have hc : (s.mode != 0 && s.mode != 7) = true := by simpa using hm
  rw [← hmode] at hc
  exact if_pos hc

theorem fatal_shows {s : State} (e : Ev) {unit : Nat} (hm : s.mode ∉ [0, 7]) (hc : e.code < 2 ^ 16) (hu : unit < 2 ^ 8) :
    let t := s.fatal e unit
    t.mode = 7 ∧ (∀ b < 16, t.barMode b = 7) ∧ t.get GLB_MODE_STAT_CAUSE = 2 ∧ t.on GLB_FATAL_FIRST_VALID = true ∧
      (s.on GLB_FATAL_FIRST_VALID = false → t.get GLB_FATAL_FIRST_CODE = e.code ∧ t.get GLB_FATAL_FIRST_UNIT = unit) := by
  intro t
  have heq : t = _ := fatal_entersSafe e unit hm
  obtain ⟨hmode, hbars, hcause, hfirst⟩ := enterSafe_shows (((s.keepFatal e.code unit).raise e unit []).logRec 1 [e.code, unit])
  rw [← heq] at hmode hbars hcause hfirst
  have hreg : t.rd GLB_FATAL_FIRST.addr = (s.keepFatal e.code unit).rd GLB_FATAL_FIRST.addr :=
    hfirst.trans (State.rd_raise (s.keepFatal e.code unit) e unit [] (by decide))
  have hget : ∀ f : Fld, f.addr = GLB_FATAL_FIRST.addr → t.get f = (s.keepFatal e.code unit).get f := fun f hf =>
    State.get_congr _ _ _ _ (by rw [hf]; exact hreg)
  obtain ⟨hvalid, hcode⟩ := keepFatal_shows s hc hu
  refine ⟨hmode, hbars, hcause, ?_, fun h => ⟨(hget GLB_FATAL_FIRST_CODE rfl).trans (hcode h).1, (hget GLB_FATAL_FIRST_UNIT rfl).trans (hcode h).2⟩⟩
  rw [State.on, hget GLB_FATAL_FIRST_VALID rfl]
  exact hvalid

/-! ### An entry written to a queue (R418, R433) -/

theorem State.qu_setQu (s : State) (q : Nat) (x : Queue) : (s.setQu q x).qu q = x := smGet_put_same ..

theorem signal_qu (s : State) (v q : Nat) : (s.signal v).qu q = s.qu q := by
  unfold State.signal
  split <;> rfl

theorem signal_rd (s : State) {v a : Nat} (ha : a < MSIX_PBA.addr) : (s.signal v).rd a = s.rd a := by
  unfold State.signal
  split
  · refine State.rd_set_other _ _ _ _ _ _ _ ?_
    simp only [Fld.addr, Fld.sh] at ha ⊢
    omega
  · rfl

/-- An entry written: it is the last of its queue, PI moves by 1, and the count of lost events stays. -/
theorem qWrite_shows (s : State) {q : Nat} (e : Entry) (now : Bool) (hq : q < 64) :
    ((s.qWrite q e now).qu q).lost = (s.qu q).lost ∧ (∃ p, ((s.qWrite q e now).qu q).ring = (s.qu q).ring ++ [{ e with phase := p }]) ∧
      (s.qWrite q e now).get HIF_Q_PI q = (s.get HIF_Q_PI q + 1) % 2 ^ 32 := by
  unfold State.qWrite
  extract_lets pi qu e' n u cnt tm
  have hqu : u.qu q = { qu with ring := qu.ring ++ [e'], unsig := n } := State.qu_setQu s q _
  have hpi : u.get HIF_Q_PI q = (s.get HIF_Q_PI q + 1) % 2 ^ 32 := State.get_set_same _ _ _ _ _ _ (by decide)
  have hlt : HIF_Q_PI.addr q < MSIX_PBA.addr := by
    simp only [Fld.addr]
    omega
  unfold State.cond
  split
  · unfold State.qSignal
    refine ⟨?_, ⟨pi / s.qSize q % 2 == 0, ?_⟩, (State.get_congr _ _ _ _ (signal_rd _ hlt)).trans hpi⟩
    · rw [signal_qu, State.qu_setQu, hqu]
    · rw [signal_qu, State.qu_setQu, hqu]
  · exact ⟨by rw [hqu], ⟨_, by rw [hqu]⟩, hpi⟩

/-- The EVENT_LOST record of a queue (R46): its count starts again, and the record is the last of the ring. -/
theorem exec_eventLost {s : State} {q : Fin 8} (hl : (s.qu (32 + q)).lost ≠ 0) (hr : s.qRoom (32 + q) = true) :
    exec (.eventLost q) s = .next ((s.setQu (32 + q) { s.qu (32 + q) with lost := 0 }).qWrite (32 + q)
      (s.evEntry EV_EVENT_LOST 255 [((s.qu (32 + q)).lost : Int)]) false) := by
  change execEventLost q s = _
  rw [execEventLost, if_pos ⟨hl, hr⟩]

theorem eventLost_writes (s : State) (q : Fin 8) :
    let t := (s.setQu (32 + q) { s.qu (32 + q) with lost := 0 }).qWrite (32 + q) (s.evEntry EV_EVENT_LOST 255 [((s.qu (32 + q)).lost : Int)]) false
    (t.qu (32 + q)).lost = 0 ∧ t.get HIF_Q_PI (32 + q.val) = (s.get HIF_Q_PI (32 + q.val) + 1) % 2 ^ 32 ∧ OnlyEv [] s t ∧
      ∃ x ∈ (t.qu (32 + q)).ring, x.kind = 2 ∧ x.status = EV_EVENT_LOST.code ∧ x.body.drop 2 = [BitVec.ofNat 32 (s.qu (32 + q)).lost] := by
  obtain ⟨hlost, ⟨p, hring⟩, hpi⟩ := qWrite_shows (s.setQu (32 + q) { s.qu (32 + q) with lost := 0 })
    (s.evEntry EV_EVENT_LOST 255 [((s.qu (32 + q)).lost : Int)]) false (show 32 + q.val < 64 by omega)
  rw [State.qu_setQu] at hlost
  refine ⟨hlost, hpi, OnlyEv_trans (A := []) (B := []) (OnlyEv_setQu ..) (qWrite_only _ _ _ _ (by omega)), ?_⟩
  refine ⟨_, hring ▸ List.mem_append_right _ (List.mem_singleton_self _), rfl, rfl, ?_⟩
  simp [State.evEntry]

/-- Settles O22: each acknowledgement writes its own field; a stop writes the views, a FATAL event SAFE, a record its queue. -/
theorem acknowledgementsAndFences : Obligations.AcknowledgementsAndFences := by
  unfold Obligations.AcknowledgementsAndFences
  intro s n q
  refine ⟨fun hp => ⟨fun hk => ?_, fun hk hf => holdCauseAck_fenced hp hk hf, fun hk hf => ?_⟩, ?_,
    fun hlo hhi hp hr => ?_, fun hs hm => ?_, fun hl hr => ?_⟩
  · exact ⟨_, holdCauseAck_index hp hk, holdCauseAck_clears s _⟩
  · exact ⟨_, holdCauseAck_unfenced hp hk hf, State.on_put_same _ _ _ _ _ _ rfl (by decide),
      OnlyRegs_set s GLB_HOLD_CAUSE_PENDING 0 0 0 0⟩
  · refine ⟨_, rfl, State.on_put_same _ _ _ _ _ _ rfl (by decide), ?_, ?_, OnlyRegs_set s GLB_FATAL_FIRST_VALID 0 0 0 0⟩
    · exact State.get_set_bits s GLB_FATAL_FIRST_VALID _ _ _ _ _ _ _ _ (by decide)
    · exact State.get_set_bits s GLB_FATAL_FIRST_VALID _ _ _ _ _ _ _ _ (by decide)
  · have hn : n.val < 0x100 := by omega
    obtain ⟨⟨hrun, hpermit, hstate⟩, hskew⟩ := setViews_shows ({ s with causes := smPut (fun _ => []) s.causes n [] } : State) 0xFF hn
      (by decide : 0 < 8) (by decide : 4 < 8)
    exact ⟨_, exec_unitStopPoint_camera hlo hhi hp hr, hrun, hpermit, hstate, hskew, OnlyEv_causes (setViews_only ..)⟩
  · refine ⟨_, ?_, fatal_shows EV_SKEW_TIMEOUT (unit := n) hm (by decide) (by omega)⟩
    change execSkewTimeout n s = _
    rw [execSkewTimeout, if_pos hs]
  · exact ⟨_, exec_eventLost hl hr, eventLost_writes s q⟩

end Sys2Proof.Machine

/-! SUPPORT for the proofs. What the composition of a line keeps of its point: its number and repeat, its position, its pitch, the lines composed before,
and the bars' line clocks (R180 to R193). -/

namespace Sys2Proof.Machine

open Sys2Proof.Safety

/-! ### More operations that keep the points -/

namespace Keeps

theorem wr (s : State) {a : Nat} (v : Word) (ha : ¬ keptReg a) : Keeps s (s.wr a v) :=
  ⟨fun _ hx => State.rd_wr_other _ _ fun h => ha (h ▸ hx), rfl, rfl⟩

theorem set64 (s : State) (f : Fld) (z : Int) (i j k : Nat) (h0 : ¬ keptReg (f.addr i j k)) (h1 : ¬ keptReg (f.addr i j k + 4)) :
    Keeps s (s.set64 f z i j k) :=
  (wr s _ h0).trans (wr _ _ h1)

theorem addSat (s : State) (f : Fld) (n i j k : Nat) (hf : ¬ keptReg (f.addr i j k)) : Keeps s (s.addSat f n i j k) := set _ _ _ _ _ _ hf

theorem addWrap (s : State) (f : Fld) (n i j k : Nat) (hf : ¬ keptReg (f.addr i j k)) : Keeps s (s.addWrap f n i j k) := set _ _ _ _ _ _ hf

end Keeps

/-- The store and its controller's registers stand apart. -/
theorem Keeps_of_mem {s t : State} (h : OnlyMem s t) : Keeps s t :=
  ⟨fun a ha => h.1 a (by simp [memReg]; simp only [keptReg] at ha; omega), OnlyMem_proj h State.sheaves fun _ _ _ _ => rfl,
    OnlyMem_proj h State.point fun _ _ _ _ => rfl⟩

theorem Keeps_gather (s : State) (m : SMap (Option (Int × Int × Int × Nat))) : Keeps s { s with gather := m } := ⟨fun _ _ => rfl, rfl, rfl⟩

theorem Keeps_feed (s : State) (f : Feed) : Keeps s { s with feed := f } := ⟨fun _ _ => rfl, rfl, rfl⟩

/-! ### The reject list (R137) -/

theorem Keeps_rejWrite (s : State) (cause bar trk : Nat) (start : Int) (len : Nat) : Keeps s (s.rejWrite cause bar trk start len) := by
  unfold State.rejWrite
  extract_lets k i s1 s2
  have hi : i < 64 := Nat.mod_lt _ (by decide)
  have hreg : ∀ a, 0x80300 ≤ a → a < 0x81000 → ¬ keptReg a := fun a h0 h1 => by
    simp only [keptReg]
    omega
  have h1 : Keeps s s1 := (Keeps.set64 s SEQ_REJ_START_LO start i 0 0
    (hreg _ (by simp only [Fld.addr]; omega) (by simp only [Fld.addr]; omega))
    (hreg _ (by simp only [Fld.addr]; omega) (by simp only [Fld.addr]; omega))).trans
    (Keeps.set _ SEQ_REJ_LEN len i 0 0 (hreg _ (by simp only [Fld.addr]; omega) (by simp only [Fld.addr]; omega)))
  have h2 : Keeps s1 s2 := Keeps.set _ SEQ_REJ_INFO _ i 0 0 (hreg _ (by simp only [Fld.addr]; omega) (by simp only [Fld.addr]; omega))
  exact (h1.trans h2).trans (Keeps.set _ SEQ_REJ_WR _ 0 0 0 (hreg _ (by decide) (by decide)))

theorem Keeps_rejSplit (fuel : Nat) : ∀ (s : State) (cause bar trk : Nat) (start : Int) (len : Nat), Keeps s (s.rejSplit cause bar trk start len fuel) := by
  induction fuel with
  | zero => exact fun s _ _ _ _ _ => Keeps.refl s
  | succ n ih =>
    intro s cause bar trk start len
    unfold State.rejSplit
    split_ifs
    · exact Keeps.refl s
    · exact Keeps_rejWrite ..
    · exact (Keeps_rejWrite ..).trans (ih ..)

theorem Keeps_reject (s : State) (cause bar trk : Nat) (start stop : Int) : Keeps s (s.reject cause bar trk start stop) := by
  unfold State.reject
  split
  · exact Keeps_rejSplit ..
  · exact Keeps.refl s

theorem Keeps_rejLines (s : State) (cause b : Nat) (x y : Int) : Keeps s (s.rejLines cause b x y) := by
  unfold State.rejLines
  split
  · split
    · exact Keeps_gather ..
    · split
      · exact Keeps_gather ..
      · exact (Keeps_rejSplit ..).trans (Keeps_gather ..)
  · exact Keeps.refl s

/-! ### A point while it composes a line -/

/-- Point `b` stands at the same line of the same repeat, with the same lines composed. -/
structure SameLine (b : Nat) (s t : State) : Prop where
  regs : ∀ a, keptReg a → t.rd a = s.rd a
  cpos : (t.cp b).cpos = (s.cp b).cpos
  cpitch : (t.cp b).cpitch = (s.cp b).cpitch
  lines : (t.cp b).lines = (s.cp b).lines

theorem State.cp_setCp (s : State) (b : Nat) (x : Point) : (s.setCp b x).cp b = x := smGet_put_same ..

theorem State.rd_setCp (s : State) (b : Nat) (x : Point) (a : Nat) : (s.setCp b x).rd a = s.rd a := rfl

namespace SameLine

variable {b : Nat}

theorem refl (s : State) : SameLine b s s := ⟨fun _ _ => rfl, rfl, rfl, rfl⟩

theorem trans {s t u : State} (h : SameLine b s t) (h' : SameLine b t u) : SameLine b s u :=
  ⟨fun a ha => (h'.regs a ha).trans (h.regs a ha), h'.cpos.trans h.cpos, h'.cpitch.trans h.cpitch, h'.lines.trans h.lines⟩

theorem of_keeps {s t : State} (h : Keeps s t) : SameLine b s t := by
  have hcp := h.cp b
  exact ⟨h.regs, by rw [hcp], by rw [hcp], by rw [hcp]⟩

theorem setCp (s : State) {x : Point} (hpos : x.cpos = (s.cp b).cpos) (hpitch : x.cpitch = (s.cp b).cpitch) (hlines : x.lines = (s.cp b).lines) :
    SameLine b s (s.setCp b x) :=
  ⟨fun _ _ => rfl, by rw [State.cp_setCp, hpos], by rw [State.cp_setCp, hpitch], by rw [State.cp_setCp, hlines]⟩

theorem each {α : Type} (s : State) (l : List α) (f : α → State → State) (hf : ∀ x u, SameLine b u (f x u)) : SameLine b s (s.each l f) :=
  State.each_inv (SameLine b s) l f (fun x u _ hu => hu.trans (hf x u)) s (refl s)

end SameLine

/-! ### The steps of a line (R189 to R193, R206, R223) -/

theorem SameLine_feedCheck (s : State) (c : Nat) (d : LayerD) (r i : Nat) : SameLine c s (s.feedCheck c d r i) := by
  unfold State.feedCheck
  extract_lets p n marked bad
  split
  extract_lets s1 x s2
  have h1 : SameLine c s s1 := SameLine.of_keeps (Keeps.cond (Keeps.refl s) fun _ =>
    ((Keeps_feed s _).trans (Keeps.addSat _ CMP_FEED_MISS 1 0 0 0 (by simp only [keptReg, Fld.addr]; omega))).trans (Keeps_raise ..))
  have h2 : SameLine c s1 s2 := SameLine.of_keeps (Keeps_reject ..)
  split
  · exact (h1.trans h2).trans (SameLine.setCp s2 rfl rfl rfl)
  · exact h1

theorem SameLine_feedChecks (s : State) (c r : Nat) (l : Int) : SameLine c s (s.feedChecks c r l) :=
  SameLine.each _ _ _ fun _ _ => SameLine.each _ _ _ fun _ _ => SameLine.each _ _ _ fun _ u => SameLine_feedCheck u ..

theorem SameLine_dropSpan (s : State) (c : Nat) (x : Int) : SameLine c s (s.dropSpan c x) := by
  unfold State.dropSpan
  split
  · exact SameLine.refl s
  · exact SameLine.setCp s rfl rfl rfl

theorem Keeps_sourceErrors (s : State) (c r : Nat) (l x : Int) : Keeps s (s.sourceErrors c r l x).1 := by
  unfold State.sourceErrors
  extract_lets res use a z s1 code
  have h1 : Keeps s s1 := Keeps.each (Keeps.refl s) fun e u _ => by
    obtain ⟨k, n, m⟩ := e
    refine Keeps.cond (Keeps.cond (Keeps.refl u) fun _ => ?_) fun _ => ?_
    · exact (Keeps.addSat u CMP_POISON_CNT n 0 0 0 (by simp only [keptReg, Fld.addr]; omega)).trans (Keeps_raiseLim ..)
    · exact (Keeps.addSat _ HSK_SEG_BAD_CNT m 0 0 0 (by simp only [keptReg, Fld.addr]; omega)).trans (Keeps_raiseLim ..)
  change Keeps s (s1.cond code fun s => (s.raise EV_CODE_MISSING c (rangeArgs [c] a z)).rejLines 7 c x (x + 1))
  refine Keeps.cond h1 fun _ => ?_
  exact (Keeps_raise ..).trans (Keeps_rejLines ..)

theorem Keeps_fresh (s : State) (n : Nat) : Keeps s { s with fresh := n } := ⟨fun _ _ => rfl, rfl, rfl⟩

theorem SameLine_proofLine (s : State) {c : Nat} (x : Int) (px : List Nat) (flags : Nat) (hc : c < 16) : SameLine c s (s.proofLine c x px flags) := by
  unfold State.proofLine
  extract_lets depth rx ry k p s1 slot s2
  split
  split
  · exact SameLine.setCp s rfl rfl rfl
  · extract_lets bytes s3 s4
    have h1 : SameLine c s s1 := SameLine.setCp s rfl rfl rfl
    have h4 : Keeps s1 s4 := ((Keeps_fresh s1 _).trans (Keeps_of_mem (st_onlyMem ..))).trans (Keeps_of_mem (st_onlyMem ..))
    split
    · exact h1
    · exact h1.trans (SameLine.of_keeps (h4.trans (Keeps.addWrap _ CMP_CP_PROOF_WR 1 c 0 0 (by simp only [keptReg, Fld.addr]; omega))))

theorem Keeps_feedRelease (fuel : Nat) : ∀ s : State, Keeps s (s.feedRelease fuel) := by
  induction fuel with
  | zero => exact Keeps.refl
  | succ n ih =>
    intro s
    unfold State.feedRelease
    dsimp only
    split
    · exact ((Keeps_feed s _).trans (Keeps.addWrap _ CMP_FEED_DONE 1 0 0 0 (by simp only [keptReg, Fld.addr]; omega))).trans (ih _)
    · exact Keeps.refl s

theorem Keeps_feedPass (s : State) (c r : Nat) (l : Int) (ends : Bool) : Keeps s (s.feedPass c r l ends) := by
  unfold State.feedPass
  extract_lets p ds recs passed s1
  have h1 : Keeps s s1 := Keeps_feed ..
  split
  · exact h1
  · exact h1.trans (Keeps_feedRelease ..)

/-- Point `b` has composed the line it stands at: one line of that number and repeat, fired at the bar's present line, joins its lines. -/
structure Composed (b : Nat) (s t : State) : Prop where
  regs : ∀ a, keptReg a → t.rd a = s.rd a
  cpos : (t.cp b).cpos = (s.cp b).cpos
  cpitch : (t.cp b).cpitch = (s.cp b).cpitch
  joins : ∃ y : CLine, (t.cp b).lines = (s.cp b).lines ++ [y] ∧ y.line = s.nextLine b ∧ y.rep = s.get CMP_CP_REPEAT b ∧ y.cAt = s.line b

theorem line_congr {s t : State} {b : Nat} (h : ∀ a, keptReg a → t.rd a = s.rd a) (hb : b < 16) : t.line b = s.line b := by
  refine congrArg (sx 64) (State.get64_congr GEK_LC_LINE_LO b 0 0 (h _ ?_) (h _ ?_))
  all_goals
    simp only [keptReg, Fld.addr]
    omega

theorem nextLine_congr {s t : State} {b : Nat} (h : ∀ a, 0x301000 ≤ a → keptReg a → t.rd a = s.rd a) (hb : b < 16) : t.nextLine b = s.nextLine b := by
  refine congrArg (sx 64) (State.get64_congr CMP_CP_NEXT_LO b 0 0 (h _ ?_ ?_) (h _ ?_ ?_))
  all_goals
    simp only [keptReg, Fld.addr]
    omega

theorem composeAt_composed (s : State) {b : Nat} (hb : b < 16) : Composed b s (s.composeAt b) := by
  unfold State.composeAt
  extract_lets x r l s1
  have h1 : SameLine b s s1 := (SameLine_feedChecks s b r l).trans (SameLine_dropSpan ..)
  have h2 := h1.trans (SameLine.of_keeps (Keeps_sourceErrors s1 b r l x))
  split
  next s2 bad heq =>
  rw [heq] at h2
  extract_lets miss px fl s3 p
  have h3 : SameLine b s s3 := h2.trans (SameLine_proofLine s2 x px fl hb)
  have hpass := Keeps_feedPass (s3.setCp b { p with lines := p.lines ++ [⟨x, r, s3.line b, px, p.tset⟩] }) b r l false
  have hcp := (hpass.cp b).trans (State.cp_setCp s3 b _)
  have hline : s3.line b = s.line b := line_congr h3.regs hb
  clear_value s3
  refine ⟨fun a ha => (hpass.regs a ha).trans ((State.rd_setCp ..).trans (h3.regs a ha)), ?_, ?_, ⟨x, r, s3.line b, px, p.tset⟩, ?_, rfl, rfl, hline⟩
  · rw [hcp]
    exact h3.cpos
  · rw [hcp]
    exact h3.cpitch
  · rw [hcp]
    exact congrArg (· ++ _) h3.lines

end Sys2Proof.Machine

/-! PROOFS. A point composes its next line (R180, R198, R432). -/

namespace Sys2Proof.Machine

open Sys2Proof.Safety

theorem Keeps_refreshPoint (s : State) {b : Nat} (hb : b < 16) : Keeps s (s.refreshPoint b) := by
  have hset : ∀ (u : State) (f : Fld) (v : Nat), f.addr b = CMP_CP_STAT.addr b → Keeps u (u.set f v b) := fun u f v hf =>
    Keeps.set _ _ _ _ _ _ (by
      rw [hf]
      simp only [keptReg, Fld.addr]
      omega)
  unfold State.refreshPoint
  extract_lets p lead behind st low s1 s2 s3 s4
  split
  · exact hset _ _ _ rfl
  · have h1 : Keeps s s1 := Keeps.cond (Keeps.refl s) fun _ =>
      (Keeps.addSat s CMP_CP_CNT_LEADLOW 1 b 0 0 (by simp only [keptReg, Fld.addr]; omega)).trans (Keeps_raise ..)
    have h2 : Keeps s1 s2 := hset s1 CMP_CP_STAT_LEAD_LOW _ rfl
    have h3 : Keeps s2 s3 := hset s2 CMP_CP_STAT_CATCHUP _ rfl
    have h4 : Keeps s3 s4 := hset s3 CMP_CP_STAT_LEAD _ rfl
    exact (((h1.trans h2).trans h3).trans h4).trans (hset s4 CMP_CP_STAT_STATE _ rfl)

/-! ### The first lead composed (R27, R28) -/

/-- The points stand as they stood: NEXT and REPEAT, and what each keeps beside them. -/
structure PointsStay (s t : State) : Prop where
  regs : ∀ a, 0x301000 ≤ a → keptReg a → t.rd a = s.rd a
  point : t.point = s.point

namespace PointsStay

theorem refl (s : State) : PointsStay s s := ⟨fun _ _ _ => rfl, rfl⟩

theorem trans {s t u : State} (h : PointsStay s t) (h' : PointsStay t u) : PointsStay s u :=
  ⟨fun a h0 ha => (h'.regs a h0 ha).trans (h.regs a h0 ha), h'.point.trans h.point⟩

theorem of_keeps {s t : State} (h : Keeps s t) : PointsStay s t := ⟨fun a _ ha => h.regs a ha, h.point⟩

theorem set (s : State) (f : Fld) (v i j k : Nat) (hf : f.addr i j k < 0x301000) : PointsStay s (s.set f v i j k) :=
  ⟨fun a h0 _ => s.rd_set_other _ _ _ _ _ _ (by omega), rfl⟩

theorem cp {s t : State} (h : PointsStay s t) (b : Nat) : t.cp b = s.cp b := by rw [State.cp, State.cp, h.point]

theorem nextLine {s t : State} (h : PointsStay s t) {b : Nat} (hb : b < 16) : t.nextLine b = s.nextLine b := nextLine_congr h.regs hb

end PointsStay

theorem setBarMode_stays (s : State) (b m : Nat) : PointsStay s (s.setBarMode b m) := by
  refine ⟨fun a h0 _ => rd_setBarMode s b m ?_ ?_, ?_⟩
  · simp only [Fld.addr]
    omega
  · simp only [Fld.addr]
    omega
  · unfold State.setBarMode
    split <;> exact State.set_point ..

theorem showResult_stays (s : State) (tag result : Nat) : PointsStay s (s.showResult tag result) :=
  (PointsStay.set s GLB_MODE_STAT_TAG tag 0 0 0 (by decide)).trans (PointsStay.set _ GLB_MODE_STAT_RESULT result 0 0 0 (by decide))

/-- The entry to READY from IDLE discards no sheaf and clears no point. -/
theorem modeBase_idle_ready (s : State) : s.modeBase 1 2 = s := rfl

theorem modeEffects_stays (s : State) : PointsStay s (s.modeEffects 1 2) :=
  PointsStay.of_keeps ((modeBase_idle_ready s) ▸ Keeps_modeEffects s 1 2)

theorem PointsStay.each {α : Type} (s : State) (l : List α) (f : α → State → State) (hf : ∀ x u, PointsStay u (f x u)) : PointsStay s (s.each l f) :=
  State.each_inv (PointsStay s) l f (fun x u _ hu => hu.trans (hf x u)) s (PointsStay.refl s)

theorem beginTr_stays (s : State) (x : ModeTr) : PointsStay s (s.beginTr x) :=
  PointsStay.trans (t := { s with tr := some x }) ⟨fun _ _ _ => rfl, rfl⟩ (PointsStay.set _ GLB_MODE_STAT_PENDING x.target 0 0 0 (by decide))

/-- IDLE to READY completes: the points stand as they stood. -/
theorem finishTr_stays {s : State} {x : ModeTr} (hm : s.mode = 1) (hx : x.target = 2) : PointsStay s (s.finishTr x) := by
  unfold State.finishTr
  extract_lets s1 s2 old s3 s4 s5 s6 s7 next twn s8
  have h1 : PointsStay s s1 := PointsStay.trans (t := { s with tr := none }) ⟨fun _ _ _ => rfl, rfl⟩
    (PointsStay.set _ GLB_MODE_STAT_PENDING 0xF 0 0 0 (by decide))
  have hmode1 : s1.mode = s.mode := State.get_set_bits { s with tr := none } GLB_MODE_STAT_PENDING GLB_MODE_STAT_MODE _ _ _ _ _ _ _ (by decide)
  have h2 : PointsStay s1 s2 ∧ s2.mode = s1.mode := by
    simp only [s2]
    split
    · exact ⟨showResult_stays .., showResult_mode ..⟩
    · exact ⟨PointsStay.refl _, rfl⟩
  have hold : old = 1 := (h2.2.trans hmode1).trans hm
  have h3 : s3 = s2 := by simp [s3, State.cond, hx]
  have h4 : PointsStay s3 s4 := (PointsStay.set s3 GLB_MODE_STAT_MODE _ 0 0 0 (by decide)).trans (PointsStay.set _ GLB_MODE_STAT_CAUSE _ 0 0 0 (by decide))
  have h5 : PointsStay s4 s5 := PointsStay.each _ _ _ fun b u => setBarMode_stays u b _
  have h6 : s6 = s5 := by simp [s6, State.cond, hx]
  have h7 : PointsStay s6 s7 := by
    simp only [s7, hold, hx]
    exact (PointsStay.of_keeps (Keeps_raise s6 EV_MODE_CHANGE 255 _)).trans (modeEffects_stays (s6.raise EV_MODE_CHANGE 255 _))
  have hall : PointsStay s s7 := by
    rw [h6] at h7
    rw [h3] at h4
    exact (((h1.trans h2.1).trans h4).trans h5).trans h7
  clear_value s7
  have h8 : PointsStay s s8 := hall.trans ⟨fun _ _ _ => rfl, rfl⟩
  clear_value next s8
  cases next with
  | none => exact h8
  | some n =>
    exact h8.trans (beginTr_stays s8 ⟨n.1, x.cause, none, false, some n.2, s8.stagedBars.filter fun b => s8.barMode b == n.1⟩)

/-- The end of the first lead moves the press, and no point. -/
theorem leadDone_stays (s : State) : PointsStay s s.leadDone := by
  unfold State.leadDone
  split
  · dsimp only
    split
    · next t _ hc =>
      obtain ⟨htarget, hmode, -⟩ := hc
      have hlatch := Keeps_latchAll s 61
      have hmode' : (s.latchAll 61).mode = 1 := (hlatch.get GLB_MODE_STAT_MODE 0 0 0 (by simp only [keptReg, Fld.addr]; omega)).trans hmode
      exact (PointsStay.of_keeps hlatch).trans (finishTr_stays hmode' htarget)
    · exact PointsStay.refl s
  · exact PointsStay.refl s

/-! ### A line composed or passed over -/

/-- A point that ends its line shows where it stands, and the first lead may be complete. -/
theorem endLine_stays (s : State) {b : Nat} (hb : b < 16) : PointsStay s (s.refreshPoint b).leadDone :=
  (PointsStay.of_keeps (Keeps_refreshPoint s hb)).trans (leadDone_stays _)

theorem pointEnds_boundary {s : State} {b : Nat} (h : s.boundary b = none) : s.pointEnds b = false := by simp [State.pointEnds, h]

theorem exec_composeLine_idle {s : State} {b : Bar} (h : s.composing = false ∨ s.canCompose b = false) : exec (.composeLine b) s = .next s := by
  change execComposeLine b s = _
  rcases h with h | h <;> simp [execComposeLine, h]

/-- The point's NEXT moves by one line and its position by its pitch. -/
def State.passLine (s : State) (b : Nat) : State :=
  (s.setCp b { s.cp b with cpos := (s.cp b).cpos + (s.cp b).cpitch }).set64 CMP_CP_NEXT_LO (s.nextLine b + 1) b

theorem exec_composeLine_line {s : State} {b : Bar} (hc : s.composing = true) (hcan : s.canCompose b = true) (hb : s.boundary b = none) :
    exec (.composeLine b) s = .next ((((if s.cpOn b then s.composeAt b else s).passLine b).refreshPoint b).leadDone) := by
  change execComposeLine b s = _
  simp only [execComposeLine, hc, hcan, pointEnds_boundary hb, hb, Bool.and_self, if_true, Bool.false_eq_true, if_false]
  rfl

theorem exec_composeLine_end {s : State} {b : Bar} (hc : s.composing = true) (hcan : s.canCompose b = true) (he : s.pointEnds b = true) :
    exec (.composeLine b) s = .next ((s.setCp b { s.cp b with endLine := some (s.nextLine b) }).refreshPoint b).leadDone := by
  change execComposeLine b s = _
  simp only [execComposeLine, hc, hcan, he, Bool.and_self, if_true]

theorem passLine_shows (s : State) (b : Nat) :
    (s.passLine b).nextLine b = sx 64 (ux 64 (s.nextLine b + 1)) ∧
      (s.passLine b).cp b = { s.cp b with cpos := (s.cp b).cpos + (s.cp b).cpitch } :=
    ⟨congrArg (sx 64) (State.get64_set64 _ CMP_CP_NEXT_LO _ b 0 0), State.cp_setCp s b _⟩

theorem Composed.nextLine {s t : State} {b : Nat} (h : Composed b s t) (hb : b < 16) : t.nextLine b = s.nextLine b :=
  nextLine_congr (fun a _ ha => h.regs a ha) hb

/-- What a point shows after a line: NEXT moved by 1, the position by the pitch, and when enabled one composed line more. -/
structure TakesLine (s : State) (b : Nat) (t : State) : Prop where
  next : t.nextLine b = sx 64 (ux 64 (s.nextLine b + 1))
  cpos : (t.cp b).cpos = (s.cp b).cpos + (s.cp b).cpitch
  joins : s.cpOn b = true → ∃ y : CLine,
    (t.cp b).lines = (s.cp b).lines ++ [y] ∧ y.line = s.nextLine b ∧ y.rep = s.get CMP_CP_REPEAT b ∧ y.cAt = s.line b
  stays : s.cpOn b = false → (t.cp b).lines = (s.cp b).lines

theorem TakesLine.stay {s t u : State} {b : Nat} (h : TakesLine s b t) (h' : PointsStay t u) (hb : b < 16) : TakesLine s b u := by
  have hcp := h'.cp b
  exact ⟨(h'.nextLine hb).trans h.next, by rw [hcp]; exact h.cpos, by rw [hcp]; exact h.joins, by rw [hcp]; exact h.stays⟩

/-- An enabled point composes its line and passes it. -/
theorem composed_takesLine (s : State) {b : Nat} (hb : b < 16) (hon : s.cpOn b = true) : TakesLine s b ((s.composeAt b).passLine b) := by
  have hcomp := composeAt_composed s hb
  obtain ⟨hnext, hcp⟩ := passLine_shows (s.composeAt b) b
  refine ⟨?_, ?_, fun _ => ?_, fun h => by simp [hon] at h⟩
  · rw [hnext, hcomp.nextLine hb]
  · rw [hcp]
    dsimp only
    rw [hcomp.cpos, hcomp.cpitch]
  · rw [hcp]
    dsimp only
    exact hcomp.joins

/-- A disabled point passes its line. -/
theorem passed_takesLine (s : State) {b : Nat} (hoff : s.cpOn b = false) : TakesLine s b (s.passLine b) := by
  obtain ⟨hnext, hcp⟩ := passLine_shows s b
  exact ⟨hnext, by rw [hcp], fun h => by simp [hoff] at h, fun _ => by rw [hcp]⟩

/-- A point that can compose and is at no boundary takes one line (R180, R198). -/
theorem composeLine_takesLine {s : State} {b : Bar} (hc : s.composing = true) (hcan : s.canCompose b = true) (hb : s.boundary b = none) :
    Gives (exec (.composeLine b) s) (TakesLine s b) := by
  refine ⟨_, exec_composeLine_line hc hcan hb, TakesLine.stay ?_ (endLine_stays _ b.isLt) b.isLt⟩
  cases hon : s.cpOn b with
  | true =>
    rw [if_pos rfl]
    exact composed_takesLine s b.isLt hon
  | false =>
    rw [if_neg (by decide)]
    exact passed_takesLine s hon

theorem nextLine_setCp (s : State) (b : Nat) (x : Point) : (s.setCp b x).nextLine b = s.nextLine b :=
  congrArg (sx 64) (State.get64_congr CMP_CP_NEXT_LO b 0 0 (State.rd_setCp ..) (State.rd_setCp ..))

/-- At the end of its job a point keeps NEXT and marks its last line (R432). -/
theorem composeLine_ends {s : State} {b : Bar} (hc : s.composing = true) (hcan : s.canCompose b = true) (he : s.pointEnds b = true) :
    Gives (exec (.composeLine b) s) fun t => (t.cp b).endLine = some (s.nextLine b) ∧ t.nextLine b = s.nextLine b ∧ (t.cp b).lines = (s.cp b).lines := by
  have hstay := endLine_stays (s.setCp b { s.cp b with endLine := some (s.nextLine b) }) b.isLt
  have hcp := (hstay.cp b).trans (State.cp_setCp s b _)
  exact ⟨_, exec_composeLine_end hc hcan he, by rw [hcp], (hstay.nextLine b.isLt).trans (nextLine_setCp ..), by rw [hcp]⟩

end Sys2Proof.Machine

/-! PROOFS. Sheaves of the press and of the display are judged, frames and underruns counted (R195, R199, R202, R208, R209, R211, R426). -/

namespace Sys2Proof.Machine

open Sys2Proof.Safety

/-! ### What an entry for a queue leaves alone (R418, R428, R433) -/

/-- `t` differs from `s` at most in queue `q`, in the queues' registers and in what signals an interrupt. -/
structure QueueOnly (q : Nat) (s t : State) : Prop where
  regs : ∀ a, 0x30000 ≤ a → t.rd a = s.rd a
  others : ∀ p, p ≠ q → t.qu p = s.qu p
  sheaves : t.sheaves = s.sheaves
  dsheaves : t.dsheaves = s.dsheaves

namespace QueueOnly

variable {q : Nat}

theorem trans {s t u : State} (h : QueueOnly q s t) (h' : QueueOnly q t u) : QueueOnly q s u :=
  ⟨fun a ha => (h'.regs a ha).trans (h.regs a ha), fun p hp => (h'.others p hp).trans (h.others p hp), h'.sheaves.trans h.sheaves,
    h'.dsheaves.trans h.dsheaves⟩

theorem set (s : State) (f : Fld) (v i j k : Nat) (hf : f.addr i j k < 0x30000) : QueueOnly q s (s.set f v i j k) :=
  ⟨fun _ ha => s.rd_set_other _ _ _ _ _ _ (by omega), fun _ _ => rfl, State.set_sheaves .., State.set_dsheaves ..⟩

theorem setQu (s : State) (x : Queue) : QueueOnly q s (s.setQu q x) :=
  ⟨fun _ _ => rfl, fun p hp => by simp [State.qu, State.setQu, smGet_put, hp], rfl, rfl⟩

theorem get {s t : State} (h : QueueOnly q s t) (f : Fld) (i j k : Nat) (hf : 0x30000 ≤ f.addr i j k) : t.get f i j k = s.get f i j k :=
  State.get_congr _ _ _ _ (h.regs _ hf)

end QueueOnly

theorem signal_queueOnly (q : Nat) (s : State) {v : Nat} (hv : v < 64) : QueueOnly q s (s.signal v) := by
  unfold State.signal
  split
  · exact QueueOnly.set _ _ _ _ _ _ (by simp only [Fld.addr, Fld.sh]; omega)
  · exact ⟨fun _ _ => rfl, fun _ _ => rfl, rfl, rfl⟩

theorem qWrite_queueOnly (s : State) {q : Nat} (e : Entry) (now : Bool) (hq : q < 64) : QueueOnly q s (s.qWrite q e now) := by
  unfold State.qWrite
  extract_lets pi qu e' n u cnt tm
  have hu : QueueOnly q s u := (QueueOnly.setQu s _).trans (QueueOnly.set _ HIF_Q_PI _ q 0 0 (by simp only [Fld.addr]; omega))
  unfold State.cond
  split
  · exact hu.trans ((QueueOnly.setQu u _).trans (signal_queueOnly q _ (State.get_lt ..)))
  · exact hu

theorem qSend_queueOnly (s : State) {q : Nat} (e : Entry) (hq : q < 64) : QueueOnly q s (s.qSend q e) := by
  unfold State.qSend
  split
  · exact qWrite_queueOnly s e false hq
  · exact (QueueOnly.setQu s _).trans (QueueOnly.set _ HIF_Q_STAT_STALL _ q 0 0 (by simp only [Fld.addr]; omega))

/-! ### A submission judged (R195, R202) -/

/-- The status and the counts of submissions, and the queues, of `s`. -/
structure KeepsJudged (s t : State) : Prop where
  counts : t.rd CMP_SHEAF_CNT.addr = s.rd CMP_SHEAF_CNT.addr
  last : t.get CMP_STAT_LAST = s.get CMP_STAT_LAST
  queues : t.queues = s.queues

namespace KeepsJudged

theorem refl (s : State) : KeepsJudged s s := ⟨rfl, rfl, rfl⟩

theorem trans {s t u : State} (h : KeepsJudged s t) (h' : KeepsJudged t u) : KeepsJudged s u :=
  ⟨h'.counts.trans h.counts, h'.last.trans h.last, h'.queues.trans h.queues⟩

theorem set (s : State) (f : Fld) (v i j k : Nat) (h0 : f.addr i j k ≠ 0x300000) (h4 : f.addr i j k ≠ 0x300004) : KeepsJudged s (s.set f v i j k) :=
  ⟨s.rd_set_other _ _ _ _ _ _ h4.symm, State.get_set_addr s f CMP_STAT_LAST _ _ _ _ _ _ _ h0.symm, State.set_queues ..⟩

theorem set64 (s : State) (f : Fld) (z : Int) (i j k : Nat) (h : 0x300004 < f.addr i j k) : KeepsJudged s (s.set64 f z i j k) := by
  have hreg : ∀ a, a ≤ 0x300004 → (s.set64 f z i j k).rd a = s.rd a := fun a ha => State.rd_set64_other _ _ _ _ _ _ (by omega) (by omega)
  exact ⟨hreg _ (by decide), State.get_congr CMP_STAT_LAST 0 0 0 (hreg _ (by decide)), rfl⟩

end KeepsJudged

theorem refreshSheaves_judged (s : State) : KeepsJudged s s.refreshSheaves := by
  have hpend : KeepsJudged s (s.set CMP_STAT_PENDING s.sheaves.length) :=
    ⟨s.rd_set_other CMP_STAT_PENDING _ _ _ _ _ (by decide),
      State.get_set_bits s CMP_STAT_PENDING CMP_STAT_LAST _ _ _ _ _ _ _ (by decide), State.set_queues ..⟩
  refine State.each_inv (KeepsJudged s) _ _ (fun j u hj hu => hu.trans ?_) _ hpend
  have := List.mem_range.1 hj
  exact KeepsJudged.set u HIF_JOB_STAT_CHAINED _ j 0 0 (by simp only [Fld.addr]; omega) (by simp only [Fld.addr]; omega)

/-- What a submission judged shows: its status, its count, and no sheaf joins when it is refused. -/
structure Judged (s : State) (r : State × Nat) : Prop where
  last : r.1.get CMP_STAT_LAST = r.2 % 8
  refused : r.2 ≠ 0 → r.1.get CMP_SHEAF_CNT_REFUSED = (s.get CMP_SHEAF_CNT_REFUSED + 1) % 65536 ∧ r.1.sheaves = s.sheaves
  accepted : r.2 = 0 → r.1.get CMP_SHEAF_CNT_ACCEPTED = (s.get CMP_SHEAF_CNT_ACCEPTED + 1) % 65536
  queues : r.1.queues = s.queues

/-- A status shown and counted. -/
theorem counted (s : State) (f : Fld) (st : Nat) (hf : f.addr = CMP_SHEAF_CNT.addr) (hw : f.lo + f.width ≤ 32) :
    let t := (s.set CMP_STAT_LAST st).addWrap f 1
    t.get CMP_STAT_LAST = st % 8 ∧ t.get f = (s.get f + 1) % 2 ^ f.width := by
  have hne : CMP_STAT_LAST.addr ≠ f.addr := by
    rw [hf]
    decide
  refine ⟨?_, ?_⟩
  · rw [State.addWrap, State.get_set_addr _ _ _ _ _ _ _ _ _ _ hne, State.get_set_same _ _ _ _ _ _ (by decide)]
    rfl
  · rw [State.addWrap, State.get_set_same _ _ _ _ _ _ hw, State.get_set_addr _ _ _ _ _ _ _ _ _ _ hne.symm]

/-- A refused sheaf is counted and does not join. -/
theorem submitH_refused {s : State} {h : Option Sheaf} {origin : Nat} (hst : s.sheafStatus h origin ≠ 0) : Judged s (s.submitH h origin) := by
  have heq : s.submitH h origin = (((s.set CMP_STAT_LAST (s.sheafStatus h origin)).addWrap CMP_SHEAF_CNT_REFUSED 1), s.sheafStatus h origin) := by
    rw [State.submitH]
    exact if_pos hst
  obtain ⟨hlast, hcnt⟩ := counted s CMP_SHEAF_CNT_REFUSED (s.sheafStatus h origin) rfl (by decide)
  rw [heq]
  exact ⟨hlast, fun _ => ⟨hcnt, rfl⟩, fun h => absurd h hst, rfl⟩

/-- The first line of a job shown where it is known (R202). -/
theorem jobStart_judged (s : State) (c : Bool) (rep : Nat) (first : Option Int) :
    KeepsJudged s (s.cond c fun s =>
      let s := (s.set CMP_JOB_START_REP rep).put CMP_JOB_START_STAT_VALID first.isSome
      match first with
      | some x => s.set64 CMP_JOB_START_LO x
      | none => s) := by
  have hrep : KeepsJudged s ((s.set CMP_JOB_START_REP rep).put CMP_JOB_START_STAT_VALID first.isSome) :=
    (KeepsJudged.set s CMP_JOB_START_REP rep 0 0 0 (by decide) (by decide)).trans
      (KeepsJudged.set _ CMP_JOB_START_STAT_VALID (b2n first.isSome) 0 0 0 (by decide) (by decide))
  unfold State.cond
  split
  · cases first with
    | none => exact hrep
    | some x => exact hrep.trans (KeepsJudged.set64 _ CMP_JOB_START_LO x 0 0 0 (by decide))
  · exact KeepsJudged.refl s

theorem submitH_accepted {s : State} {h : Option Sheaf} {origin : Nat} (hst : s.sheafStatus h origin = 0) : Judged s (s.submitH h origin) := by
  obtain ⟨hlast, hcnt⟩ := counted s CMP_SHEAF_CNT_ACCEPTED 0 rfl (by decide)
  cases h with
  | none => simp [State.sheafStatus] at hst
  | some x =>
    have heq : KeepsJudged ((s.set CMP_STAT_LAST 0).addWrap CMP_SHEAF_CNT_ACCEPTED 1) (s.submitH (some x) origin).1 ∧
        (s.submitH (some x) origin).2 = 0 := by
      simp only [State.submitH, hst, ne_eq, not_true_eq_false, if_false, and_true]
      generalize (s.set CMP_STAT_LAST 0).addWrap CMP_SHEAF_CNT_ACCEPTED 1 = u
      have hjoin : KeepsJudged u ({ u with sheaves := placeSheaf x u.sheaves } : State).refreshSheaves :=
        KeepsJudged.trans (t := { u with sheaves := placeSheaf x u.sheaves }) ⟨rfl, rfl, rfl⟩ (refreshSheaves_judged _)
      exact hjoin.trans (jobStart_judged _ _ _ _)
    obtain ⟨⟨hcounts, hlast', hqueues⟩, hst'⟩ := heq
    refine ⟨by rw [hlast', hlast, hst'], fun h => absurd hst' h, fun _ => ?_, hqueues⟩
    exact (State.get_congr CMP_SHEAF_CNT_ACCEPTED 0 0 0 hcounts).trans hcnt

theorem submitH_judged (s : State) (h : Option Sheaf) (origin : Nat) : Judged s (s.submitH h origin) := by
  by_cases hst : s.sheafStatus h origin = 0
  · exact submitH_accepted hst
  · exact submitH_refused hst

theorem saw_onlyMem (s : State) (a n : Nat) : OnlyMem s (s.saw a n) := each_onlyMem _ _ (fun b t => sawBurst_onlyMem t b) s

/-- A sheaf that stands in the store judged: reading it counts in the store's controller alone. -/
theorem submit_judged (s : State) (a origin : Nat) : Judged s (s.submit a origin) := by
  have hsaw := saw_onlyMem s a 32
  obtain ⟨hlast, hrefused, haccepted, hqueues⟩ := submitH_judged (s.saw a 32) (s.readSheaf a origin) origin
  refine ⟨hlast, fun h => ⟨?_, ?_⟩, fun h => ?_, ?_⟩
  · exact (hrefused h).1.trans (by rw [OnlyMem_get hsaw CMP_SHEAF_CNT_REFUSED 0 0 0 (by decide)])
  · exact (hrefused h).2.trans (OnlyMem_proj hsaw State.sheaves fun _ _ _ _ => rfl)
  · exact (haccepted h).trans (by rw [OnlyMem_get hsaw CMP_SHEAF_CNT_ACCEPTED 0 0 0 (by decide)])
  · exact hqueues.trans (OnlyMem_proj hsaw State.queues fun _ _ _ _ => rfl)

/-- The submission status of a sheaf (R426). -/
def State.submitEntry (s : State) (a st : Nat) : Entry :=
  ⟨6, st, 0, 0, s.ldN (a + 0x18) 8, false, [BitVec.ofNat 32 (s.ldN (a + 8) 4)]⟩

theorem exec_sheafSubmit {s : State} {x : Sub} {l : List Sub} (h : (s.qu 52).fetched = x :: l) :
    let r := (s.setQu 52 { s.qu 52 with fetched := l }).submit (subF64 x 0x18) 0
    exec .sheafSubmit s = .next (r.1.qSend 54 (r.1.submitEntry (subF64 x 0x18) r.2)) := by
  change execSheafSubmit s = _
  simp only [execSheafSubmit, State.takeSub, h]
  rfl

theorem exec_sheafSubmit_none {s : State} (h : (s.qu 52).fetched = []) : exec .sheafSubmit s = .next s := by
  change execSheafSubmit s = _
  simp only [execSheafSubmit, State.takeSub, h]

/-- The oldest submission of Q52 leaves its queue and is judged (R195, R426). -/
theorem sheafSubmit_judges {s : State} {x : Sub} {l : List Sub} (h : (s.qu 52).fetched = x :: l) :
    let r := (s.setQu 52 { s.qu 52 with fetched := l }).submit (subF64 x 0x18) 0
    Gives (exec .sheafSubmit s) fun t => (t.qu 52).fetched = l ∧ t.get CMP_STAT_LAST = r.2 % 8 ∧
      (r.2 ≠ 0 → t.get CMP_SHEAF_CNT_REFUSED = (s.get CMP_SHEAF_CNT_REFUSED + 1) % 65536 ∧ t.sheaves = s.sheaves) ∧
      (r.2 = 0 → t.get CMP_SHEAF_CNT_ACCEPTED = (s.get CMP_SHEAF_CNT_ACCEPTED + 1) % 65536 ∧ t.sheaves = r.1.sheaves) := by
  intro r
  obtain ⟨hlast, hrefused, haccepted, hqueues⟩ : Judged (s.setQu 52 { s.qu 52 with fetched := l }) r := submit_judged ..
  have hexec : exec .sheafSubmit s = .next (r.1.qSend 54 (r.1.submitEntry (subF64 x 0x18) r.2)) := exec_sheafSubmit h
  have hsend := qSend_queueOnly r.1 (r.1.submitEntry (subF64 x 0x18) r.2) (by decide : 54 < 64)
  have hqu : r.1.qu 52 = { s.qu 52 with fetched := l } :=
    (congrArg (fun m => smGet (fun _ => Queue.empty) m 52) hqueues).trans (State.qu_setQu s 52 _)
  refine ⟨_, hexec, ?_, (hsend.get CMP_STAT_LAST 0 0 0 (by decide)).trans hlast, fun h0 => ⟨?_, ?_⟩, fun h0 => ⟨?_, hsend.sheaves⟩⟩
  · rw [hsend.others 52 (by decide), hqu]
  · exact (hsend.get CMP_SHEAF_CNT_REFUSED 0 0 0 (by decide)).trans (hrefused h0).1
  · exact hsend.sheaves.trans (hrefused h0).2
  · exact (hsend.get CMP_SHEAF_CNT_ACCEPTED 0 0 0 (by decide)).trans (haccepted h0)

/-! ### Sheaves of the display (R208, R426) -/

theorem placeSheaf_length (h : Sheaf) (l : List Sheaf) : (placeSheaf h l).length = l.length + 1 := by
  induction l with
  | nil => rfl
  | cons g r ih =>
    unfold placeSheaf
    split
    · rfl
    · rw [List.length_cons, ih, List.length_cons]

theorem mem_placeSheaf {g h : Sheaf} {l : List Sheaf} (hg : g ∈ l) : g ∈ placeSheaf h l := by
  induction l with
  | nil => cases hg
  | cons k r ih =>
    unfold placeSheaf
    split
    · exact List.mem_cons_of_mem _ hg
    · rcases List.mem_cons.1 hg with rfl | hr
      · exact List.mem_cons_self
      · exact List.mem_cons_of_mem _ (ih hr)

/-- A display sheaf at a store address is bad (R208). -/
def State.dspBad (s : State) (a : Nat) : Bool := s.ldN a 4 != 0x31464853 || decide (256 < s.ldN (a + 4) 2) || !(bitN (s.ldN (a + 6) 2) 1)

/-- Its status: bad, too many that wait, or accepted. -/
def State.dspStatus (s : State) (a : Nat) : Nat := if s.dspBad a then 3 else if 4 ≤ s.dsheaves.length then 1 else 0

/-- The display sheaf joins those that wait when it is accepted. -/
def State.dspJoin (s : State) (a : Nat) : State :=
  if s.dspStatus a = 0 then
    { s with dsheaves := placeSheaf ⟨s.ldN (a + 8) 4, 0, none, s.items (a + 32) (s.ldN (a + 4) 2), s.ldN (a + 0x18) 8, 0, 0, 0, false⟩ s.dsheaves }
  else s

theorem exec_displaySheafSubmit {s : State} {x : Sub} {l : List Sub} (h : (s.qu 53).fetched = x :: l) :
    let u := s.setQu 53 { s.qu 53 with fetched := l }
    let t := u.dspJoin (subF64 x 0x18)
    exec .displaySheafSubmit s =
      .next ((t.set CMP_STAT_DSP_PENDING t.dsheaves.length).qSend 55 (u.submitEntry (subF64 x 0x18) (u.dspStatus (subF64 x 0x18)))) := by
  change execDisplaySheafSubmit s = _
  simp only [execDisplaySheafSubmit, State.takeSub, h]
  rfl

theorem exec_displaySheafSubmit_none {s : State} (h : (s.qu 53).fetched = []) : exec .displaySheafSubmit s = .next s := by
  change execDisplaySheafSubmit s = _
  simp only [execDisplaySheafSubmit, State.takeSub, h]

theorem dspJoin_queues (s : State) (a : Nat) : (s.dspJoin a).queues = s.queues := by
  unfold State.dspJoin
  split <;> rfl

theorem dspJoin_refused {s : State} {a : Nat} (h : s.ldN a 4 ≠ 0x31464853 ∨ 4 ≤ s.dsheaves.length) : (s.dspJoin a).dsheaves = s.dsheaves := by
  have hst : s.dspStatus a ≠ 0 := by
    unfold State.dspStatus
    rcases h with h | h
    · simp [State.dspBad, h]
    · split_ifs <;> decide
  rw [State.dspJoin, if_neg hst]

theorem dspJoin_accepted {s : State} {a : Nat} (hmagic : s.ldN a 4 = 0x31464853) (hn : s.ldN (a + 4) 2 ≤ 256) (hfl : bitN (s.ldN (a + 6) 2) 1 = true)
    (hroom : s.dsheaves.length < 4) :
    (s.dspJoin a).dsheaves.length = s.dsheaves.length + 1 ∧ ∀ h ∈ s.dsheaves, h ∈ (s.dspJoin a).dsheaves := by
  have hst : s.dspStatus a = 0 := by simp [State.dspStatus, State.dspBad, hmagic, hfl, Nat.not_lt.2 hn, Nat.not_le.2 hroom]
  rw [State.dspJoin, if_pos hst]
  exact ⟨placeSheaf_length .., fun h hh => mem_placeSheaf hh⟩

/-- The oldest submission of Q53 leaves its queue and is judged (R208, R426). -/
theorem displaySheafSubmit_judges {s : State} {x : Sub} {l : List Sub} (h : (s.qu 53).fetched = x :: l) :
    Gives (exec .displaySheafSubmit s) fun t => (t.qu 53).fetched = l ∧ t.get CMP_STAT_DSP_PENDING = t.dsheaves.length % 8 ∧
      (s.ldN (subF64 x 0x18) 4 ≠ 0x31464853 ∨ 4 ≤ s.dsheaves.length → t.dsheaves = s.dsheaves) ∧
      (s.ldN (subF64 x 0x18) 4 = 0x31464853 → s.ldN (subF64 x 0x18 + 4) 2 ≤ 256 → bitN (s.ldN (subF64 x 0x18 + 6) 2) 1 = true →
        s.dsheaves.length < 4 → t.dsheaves.length = s.dsheaves.length + 1 ∧ ∀ h ∈ s.dsheaves, h ∈ t.dsheaves) := by
  have hexec := exec_displaySheafSubmit h
  dsimp only at hexec
  have hld : ∀ a n, (s.setQu 53 { s.qu 53 with fetched := l }).ldN a n = s.ldN a n := fun _ _ => rfl
  have hqu : (s.setQu 53 { s.qu 53 with fetched := l }).qu 53 = { s.qu 53 with fetched := l } := State.qu_setQu ..
  have hds : (s.setQu 53 { s.qu 53 with fetched := l }).dsheaves = s.dsheaves := rfl
  generalize s.setQu 53 { s.qu 53 with fetched := l } = u at hexec hld hqu hds
  have hqueues := dspJoin_queues u (subF64 x 0x18)
  have hsend := qSend_queueOnly ((u.dspJoin (subF64 x 0x18)).set CMP_STAT_DSP_PENDING (u.dspJoin (subF64 x 0x18)).dsheaves.length)
    (u.submitEntry (subF64 x 0x18) (u.dspStatus (subF64 x 0x18))) (by decide : 55 < 64)
  have hdst := hsend.dsheaves.trans (State.set_dsheaves ..)
  refine ⟨_, hexec, ?_, ?_, fun hr => ?_, fun hmagic hn hfl hroom => ?_⟩
  · rw [hsend.others 53 (by decide), State.qu, State.set_queues, hqueues, ← State.qu, hqu]
  · rw [hdst]
    exact (hsend.get CMP_STAT_DSP_PENDING 0 0 0 (by decide)).trans (State.get_set_same _ CMP_STAT_DSP_PENDING _ 0 0 0 (by decide))
  · rw [hdst, dspJoin_refused (by rwa [hld, hds]), hds]
  · rw [hdst, ← hds]
    exact dspJoin_accepted ((hld _ _).trans hmagic) ((hld _ _).le.trans hn) (by rw [hld]; exact hfl) (by rwa [hds])

end Sys2Proof.Machine

/-! PROOFS. Frames and underruns of the display (R199, R208, R209), and the composer's lines and sheaves together. -/

namespace Sys2Proof.Machine

open Sys2Proof.Safety

/-- A frame counts, and the sheaves that wait are shown. -/
def State.countFrame (s : State) (k : Nat) : State := (s.set CMP_STAT_DSP_PENDING s.dsheaves.length).set CMP_DSP_FRAME k

theorem countFrame_shows (s : State) {k : Nat} (hk : k < 2 ^ 32) :
    (s.countFrame k).get CMP_DSP_FRAME = k ∧ (s.countFrame k).dsheaves = s.dsheaves ∧
      (s.countFrame k).get CMP_STAT_DSP_PENDING = (s.countFrame k).dsheaves.length % 8 := by
  have hds : (s.countFrame k).dsheaves = s.dsheaves := (State.set_dsheaves ..).trans (State.set_dsheaves ..)
  refine ⟨(State.get_set_same _ CMP_DSP_FRAME k 0 0 0 (by decide)).trans (Nat.mod_eq_of_lt hk), hds, ?_⟩
  rw [hds, State.countFrame, State.get_set_addr _ CMP_DSP_FRAME CMP_STAT_DSP_PENDING _ _ _ _ _ _ _ (by decide)]
  exact State.get_set_same s CMP_STAT_DSP_PENDING _ 0 0 0 (by decide)

theorem countFrame_only (s : State) (k : Nat) : OnlyRegs [CMP_DSP_FRAME.addr, CMP_STAT.addr] s (s.countFrame k) :=
  OnlyRegs_mono (OnlyRegs_trans (OnlyRegs_set s CMP_STAT_DSP_PENDING _ 0 0 0) (OnlyRegs_set _ CMP_DSP_FRAME k 0 0 0)) (by decide)

/-- The display sheaves left when those due at frame `k` have gone. -/
def State.dropDue (s : State) (k : Nat) : State := { s with dsheaves := s.dsheaves.filter fun h => !(decide (repDiff h.rep k ≤ 0)) }

theorem dropDue_dsheaves (s : State) (k : Nat) : (s.dropDue k).dsheaves = s.dsheaves.filter fun h => decide (0 < repDiff h.rep k) := by
  refine List.filter_congr fun h _ => ?_
  rw [← decide_not, decide_eq_decide]
  exact not_le

theorem dropDue_none {s : State} {k : Nat} (h : ∀ h ∈ s.dsheaves, 0 < repDiff h.rep k) : s.dropDue k = s := by
  have hall : (s.dsheaves.filter fun h => !(decide (repDiff h.rep k ≤ 0))) = s.dsheaves :=
    List.filter_eq_self.2 fun x hx => by simpa using h x hx
  rw [State.dropDue, hall]

/-- The vertical blank before frame `k`: what waits after it, and nothing but the count where no sheaf is due. -/
theorem exec_verticalBlank (s : State) :
    let k := (s.get CMP_DSP_FRAME + 1) % 2 ^ 32
    ∃ u, exec .verticalBlank s = .next (u.countFrame k) ∧ u.dsheaves = (s.dropDue k).dsheaves ∧
      ((∀ h ∈ s.dsheaves, 0 < repDiff h.rep k) → u = s) := by
  intro k
  change ∃ u, execVerticalBlank s = _ ∧ _
  unfold execVerticalBlank
  extract_lets due s1 s2 s3
  have h2 : s2.dsheaves = s1.dsheaves := State.each_proj State.dsheaves due _ (fun h u => by
    refine (qSend_queueOnly _ _ (by decide : 55 < 64)).dsheaves.trans (State.each_proj State.dsheaves _ _ (fun n u => ?_) u)
    split
    · split
      · exact State.wr_dsheaves ..
      · exact OnlyEv_proj (raise_only ..) State.dsheaves fun _ _ _ _ _ => rfl
    · rfl) s1
  have h3 : s3.dsheaves = s2.dsheaves := by
    simp only [s3, State.cond]
    split
    · exact State.each_proj State.dsheaves _ _ (by intros; rfl) s2
    · rfl
  refine ⟨s3, rfl, h3.trans h2, fun hnone => ?_⟩
  have hdue : due = [] := List.filter_eq_nil_iff.2 fun x hx => by simpa using hnone x hx
  have hs1 : s1 = s := dropDue_none hnone
  simp only [s3, s2, hdue, State.each_nil, hs1]
  rfl

/-- A vertical blank counts the frame and takes every due display sheaf (R208). -/
theorem verticalBlank_counts (s : State) :
    let k := (s.get CMP_DSP_FRAME + 1) % 2 ^ 32
    Gives (exec .verticalBlank s) fun t => t.get CMP_DSP_FRAME = k ∧ t.dsheaves = s.dsheaves.filter (fun h => decide (0 < repDiff h.rep k)) ∧
      t.get CMP_STAT_DSP_PENDING = t.dsheaves.length % 8 ∧
      ((∀ h ∈ s.dsheaves, 0 < repDiff h.rep k) → OnlyRegs [CMP_DSP_FRAME.addr, CMP_STAT.addr] s t) := by
  intro k
  obtain ⟨u, hexec, hds, hnone⟩ := exec_verticalBlank s
  obtain ⟨hframe, hkept, hpend⟩ := countFrame_shows u (Nat.mod_lt _ (by decide) : k < 2 ^ 32)
  exact ⟨_, hexec, hframe, (hkept.trans hds).trans (dropDue_dsheaves s k), hpend, fun h => by rw [hnone h]; exact countFrame_only s _⟩

/-- A display underrun counts (R209). -/
theorem dspUnderrun_counts (s : State) :
    Gives (exec .dspUnderrun s) fun t => t.get CMP_DSP_UNDERRUN = min (s.get CMP_DSP_UNDERRUN + 1) (2 ^ 32 - 1) ∧ OnlyEv [CMP_DSP_UNDERRUN.addr] s t := by
  have hev := raiseLim_only (s.addSat CMP_DSP_UNDERRUN 1) EV_DSP_UNDERRUN 255 0 sec1 []
  refine ⟨_, rfl, ?_, ?_⟩
  · exact (OnlyEv_get hev CMP_DSP_UNDERRUN 0 0 0 (by simp) (by decide)).trans (State.get_addSat s CMP_DSP_UNDERRUN 1 0 0 0 (by decide))
  · exact OnlyEv_trans (OnlyEv_set s CMP_DSP_UNDERRUN _ 0 0 0) hev

/-- Settles O36: a line leaves its point's number, position and lines alone until the line itself is passed; a submission is judged by one operation. -/
theorem pointsComposeAndSheavesAreJudged : Obligations.PointsComposeAndSheavesAreJudged := by
  unfold Obligations.PointsComposeAndSheavesAreJudged
  intro s b x l
  refine ⟨exec_composeLine_idle, fun hc hcan => ⟨fun hb => ?_, fun he => composeLine_ends hc hcan he⟩, sheafSubmit_judges, exec_sheafSubmit_none,
    displaySheafSubmit_judges, exec_displaySheafSubmit_none, verticalBlank_counts s, dspUnderrun_counts s⟩
  obtain ⟨t, hexec, hnext, hcpos, hjoins, hstays⟩ := composeLine_takesLine hc hcan hb
  exact ⟨t, hexec, hnext, hcpos, hjoins, hstays⟩

end Sys2Proof.Machine

/-! SUPPORT for the proofs. What a host write leaves bit by bit in a register (R9). -/

namespace Sys2Proof.Machine

open Sys2Proof.Safety

/-- The bits of the register at `a` that a host write sets to what it writes. -/
def takenMask (a : Nat) : Word := maskAt (fun f => f.ty == .RW || f.ty == .RWS) a

/-- The bits of the register at `a` that a host write of 1 clears. -/
def clearedMask (a : Nat) : Word := maskAt (fun f => f.ty == .W1C) a

theorem writeBits_eq (a : Nat) (old v : Word) : writeBits a old v =
    (old &&& ~~~takenMask a &&& ~~~(clearedMask a &&& v)) ||| (v &&& takenMask a) ||| (v &&& maskAt (fun f => f.ty == .W1S) a) := rfl

/-- A bit of a field of type RW or RWS takes what is written. -/
theorem getLsbD_writeBits_taken {a i : Nat} (old v : Word) (h : (takenMask a).getLsbD i = true) :
    (writeBits a old v).getLsbD i = v.getLsbD i := by
  rw [writeBits_eq]
  simp only [BitVec.getLsbD_or, BitVec.getLsbD_and, BitVec.getLsbD_not, h]
  cases v.getLsbD i <;> simp

/-- A bit of a field that writes of 1 do not clear stays when it is written as it stands. -/
theorem getLsbD_writeBits_same {a i : Nat} {old v : Word} (hc : (clearedMask a).getLsbD i = false) (hv : v.getLsbD i = old.getLsbD i) :
    (writeBits a old v).getLsbD i = old.getLsbD i := by
  by_cases hi : i < 32
  · rw [writeBits_eq]
    simp only [BitVec.getLsbD_or, BitVec.getLsbD_and, BitVec.getLsbD_not, hc, hv, hi]
    cases old.getLsbD i <;> cases (takenMask a).getLsbD i <;> rfl
  · rw [BitVec.getLsbD_of_ge _ _ (by omega), BitVec.getLsbD_of_ge _ _ (by omega)]

/-- A field depends on its own bits alone. -/
theorem getBits_congr {x y : Word} {lo w : Nat} (h : ∀ i, lo ≤ i → i < lo + w → x.getLsbD i = y.getLsbD i) : getBits x lo w = getBits y lo w := by
  apply Nat.eq_of_testBit_eq
  intro i
  rw [testBit_getBits, testBit_getBits]
  by_cases hi : i < w
  · rw [h (lo + i) (by omega) (by omega)]
  · simp [hi]

/-- A field whose bits all take what is written reads what was written there. -/
theorem getBits_writeBits_taken {a lo w : Nat} (old v : Word) (h : ∀ i, lo ≤ i → i < lo + w → (takenMask a).getLsbD i = true) :
    getBits (writeBits a old v) lo w = getBits v lo w :=
  getBits_congr fun i hlo hhi => getLsbD_writeBits_taken old v (h i hlo hhi)

theorem OnlyRegs_hostWrite (s : State) (a : Nat) (v : Word) : OnlyRegs [a] s (s.hostWrite a v) := OnlyRegs_wr ..

theorem State.rd_hostWrite (s : State) (a : Nat) (v : Word) : (s.hostWrite a v).rd a = writeBits a (s.rd a) v := State.rd_wr_same ..

end Sys2Proof.Machine

/-! PROOFS. Host writes of the composer's registers, and the read of the pool (R75, R199, R211, R491). -/

namespace Sys2Proof.Machine

open Sys2Proof.Safety

/-- The host's write of a register with shadowed fields: a line clock that stands takes its own at once (R75). -/
theorem exec_rwsWrite {s : State} {a : Nat} (v : Word) (h : Hears s) (ha : rwsMask a ≠ 0) : exec (.rwsWrite a v) s =
    .next (if isLcField a && !(s.on GEK_LC_CTL_EN ((a - 0x42000) / 128)) then (s.hostWrite a v).putAp a (writeBits a (s.rd a) v)
      else s.hostWrite a v) := by
  have hctl : isLcField a = true → (s.hostWrite a v).on GEK_LC_CTL_EN ((a - 0x42000) / 128) = s.on GEK_LC_CTL_EN ((a - 0x42000) / 128) := fun hlc => by
    have hne : GEK_LC_CTL_EN.addr ((a - 0x42000) / 128) ≠ a := by
      simp only [isLcField, Fld.addr, Bool.and_eq_true, decide_eq_true_eq] at hlc ⊢
      omega
    rw [State.on, State.on, State.get_congr _ _ _ _ ((OnlyRegs_hostWrite s a v).1 _ (by simpa using hne))]
  refine (heard_eq h _).trans ?_
  rw [if_neg ha, State.rd_hostWrite]
  by_cases hlc : isLcField a = true
  · rw [hctl hlc]
    split <;> rfl
  · simp [hlc]

theorem exec_cpCtlWrite {s : State} (b : Bar) (v : Word) (h : Hears s) : exec (.cpCtlWrite b v) s = .next (s.hostWrite (CMP_CP_CTL.addr b)
    (if (s.mode == 1 || s.mode == 6) && !(s.get GLB_COMPAT_LEVEL == 1 && decide (7 < getBits v 1 4)) then v
      else putBits (s.rd (CMP_CP_CTL.addr b)) 0 1 (getBits v 0 1))) := heard_eq h _

theorem exec_poolPeakRead {s : State} (h : Hears s) : exec .poolPeakRead s = .next (s.set CMP_POOL_PEAK 0) := heard_eq h _

theorem cpCtl_taken (b : Bar) : (takenMask (CMP_CP_CTL.addr b)).getLsbD 0 = true := by
  revert b
  decide +kernel

theorem cpCtl_cleared (b : Bar) : clearedMask (CMP_CP_CTL.addr b) = 0 := by
  revert b
  decide +kernel

/-- A write of a point's control register with EN alone changed leaves every other field. -/
theorem cpCtl_enable_only (b : Bar) (old : Word) (n : Nat) {lo w : Nat} (hlo : 1 ≤ lo) :
    getBits (writeBits (CMP_CP_CTL.addr b) old (putBits old 0 1 n)) lo w = getBits old lo w := by
  refine getBits_congr fun i hi _ => getLsbD_writeBits_same (by simp [cpCtl_cleared]) ?_
  by_cases h32 : i < 32
  · rw [getLsbD_putBits _ _ _ _ _ h32, if_neg (by omega)]
  · rw [BitVec.getLsbD_of_ge _ _ (by omega), BitVec.getLsbD_of_ge _ _ (by omega)]

theorem cpCtl_enable (b : Bar) (old v : Word) : getBits (writeBits (CMP_CP_CTL.addr b) old (putBits old 0 1 (getBits v 0 1))) 0 1 = getBits v 0 1 := by
  rw [getBits_writeBits_taken old _ fun i _ hi => by rw [show i = 0 by omega, cpCtl_taken], getBits_putBits_same _ _ (by decide)]
  exact Nat.mod_eq_of_lt (getBits_lt v 0 1)

/-- A write of a register's applied value beside the register itself. -/
theorem OnlyRegs_applied {A : List Nat} {s t : State} {m : SMap Word} (h : OnlyRegs A s t) : OnlyRegs A s { { t with applied := m } with applied := s.applied } :=
  ⟨h.1, by rw [h.2]⟩

/-- Settles O37: each write is one host write, and the applied value follows only at a line clock that stands. -/
theorem composerRegistersAreShadowed : Obligations.ComposerRegistersAreShadowed := by
  unfold Obligations.ComposerRegistersAreShadowed
  intro s a v b hh
  refine ⟨fun ha => ⟨_, exec_rwsWrite v hh ha, ?_⟩, fun hm hl => ?_, fun hm => ?_, ⟨_, exec_poolPeakRead hh, ?_, ?_, OnlyRegs_set s CMP_POOL_PEAK 0 0 0 0⟩⟩
  · by_cases hc : isLcField a = true ∧ s.on GEK_LC_CTL_EN ((a - 0x42000) / 128) = false
    · rw [if_pos hc, if_pos (by simp [hc])]
      exact ⟨State.rd_hostWrite .., fun x hx => State.ap_putAp_other _ _ hx, State.ap_putAp_same .., OnlyRegs_applied (OnlyRegs_hostWrite s a v)⟩
    · rw [if_neg hc, if_neg (by simpa using hc)]
      exact ⟨State.rd_hostWrite .., fun _ _ => rfl, rfl, OnlyRegs_applied (OnlyRegs_hostWrite s a v)⟩
  · have hm : s.mode = 1 ∨ s.mode = 6 := by simpa using hm
    refine ⟨_, exec_cpCtlWrite b v hh, ?_, OnlyRegs_hostWrite ..⟩
    rw [if_pos (by simpa [hl] using hm), State.rd_hostWrite]
  · have hm : ¬(s.mode = 1 ∨ s.mode = 6) := by simpa using hm
    have hold : ∀ f : Fld, f.addr b = CMP_CP_CTL.addr b → (s.hostWrite (CMP_CP_CTL.addr b) (putBits (s.rd (CMP_CP_CTL.addr b)) 0 1 (getBits v 0 1))).get f b =
        getBits (writeBits (CMP_CP_CTL.addr b) (s.rd (CMP_CP_CTL.addr b)) (putBits (s.rd (CMP_CP_CTL.addr b)) 0 1 (getBits v 0 1))) f.lo f.width :=
      fun f hf => by rw [State.get, hf, State.rd_hostWrite]
    refine ⟨_, by rw [exec_cpCtlWrite b v hh, if_neg (by simp [hm])], ?_, ?_, ?_, ?_, OnlyRegs_hostWrite ..⟩
    · rw [hold CMP_CP_CTL_EN rfl]
      exact cpCtl_enable b _ v
    · exact (hold CMP_CP_CTL_PS rfl).trans (cpCtl_enable_only b _ _ (by decide))
    · exact (hold CMP_CP_CTL_CSTEP rfl).trans (cpCtl_enable_only b _ _ (by decide))
    · exact (hold CMP_CP_CTL_CPHASE rfl).trans (cpCtl_enable_only b _ _ (by decide))
  · exact State.get_set_same s CMP_POOL_PEAK 0 0 0 0 (by decide)
  · exact State.get_set_bits s CMP_POOL_PEAK CMP_POOL_FREE 0 0 0 0 0 0 0 (by decide)

end Sys2Proof.Machine

/-! SUPPORT for the proofs. What the rest of the device leaves of the web-position block: its registers, its trackers, the clock; no operation here
takes an engine's latch away. -/

namespace Sys2Proof.Machine

open Sys2Proof.Safety

/-- The registers of the web-position block (R81). -/
def webReg (a : Nat) : Prop := 0x40000 ≤ a ∧ a < 0x43000

/-- A register of neither the web-position block nor the engines. -/
def farReg (a : Nat) : Prop := a < 0x40000 ∨ (0x43000 ≤ a ∧ a < 0x81000) ∨ 0x83000 ≤ a

/-- A field whose registers all lie there, at every index. -/
def farFld (f : Fld) : Bool :=
  decide (0x83000 ≤ f.base) ||
    decide (f.s1 = 0 ∧ f.s2 = 0 ∧ f.s3 = 0 ∧ (f.base + 8 ≤ 0x40000 ∨ 0x43000 ≤ f.base ∧ f.base + 8 ≤ 0x81000))

theorem farFld_addr {f : Fld} (hf : farFld f = true) (i j k : Nat) : farReg (f.addr i j k) ∧ farReg (f.addr i j k + 4) := by
  simp only [farFld, Bool.or_eq_true, decide_eq_true_eq] at hf
  simp only [farReg, Fld.addr]
  rcases hf with hbase | ⟨h1, h2, h3, hbase⟩
  · omega
  · simp only [h1, h2, h3]
    omega

/-- `t` has the clock of `s`, the bits `R` of its web-position registers and its trackers `K`, and every latch that is set in `s`. -/
structure WebKeeps (R : Nat → Nat → Prop) (K : Nat → Prop) (s t : State) : Prop where
  bits : ∀ a i, webReg a → R a i → (t.rd a).getLsbD i = (s.rd a).getLsbD i
  tk : ∀ k, K k → t.tk k = s.tk k
  clk : t.clk = s.clk
  latches : ∀ a i, 0x81000 ≤ a → a < 0x83000 → (s.rd a).getLsbD i = true → (t.rd a).getLsbD i = true

namespace WebKeeps

variable {R : Nat → Nat → Prop} {K : Nat → Prop} {s t u : State}

theorem refl (s : State) : WebKeeps R K s s := ⟨fun _ _ _ _ => rfl, fun _ _ => rfl, rfl, fun _ _ _ _ h => h⟩

theorem trans (h : WebKeeps R K s t) (h' : WebKeeps R K t u) : WebKeeps R K s u :=
  ⟨fun a i ha hR => (h'.bits a i ha hR).trans (h.bits a i ha hR), fun k hk => (h'.tk k hk).trans (h.tk k hk), h'.clk.trans h.clk,
    fun a i h0 h1 hs => h'.latches a i h0 h1 (h.latches a i h0 h1 hs)⟩

theorem mono {R' : Nat → Nat → Prop} {K' : Nat → Prop} (h : WebKeeps R K s t) (hR : ∀ a i, webReg a → R' a i → R a i) (hK : ∀ k, K' k → K k) :
    WebKeeps R' K' s t :=
  ⟨fun a i ha hr => h.bits a i ha (hR a i ha hr), fun k hk => h.tk k (hK k hk), h.clk, h.latches⟩

/-! ### What is read -/

theorem rd (h : WebKeeps R K s t) {a : Nat} (ha : webReg a) (hR : ∀ i, i < 32 → R a i) : t.rd a = s.rd a :=
  BitVec.eq_of_getLsbD_eq fun i hi => h.bits a i ha (hR i hi)

theorem get (h : WebKeeps R K s t) (f : Fld) (i j k : Nat) (ha : webReg (f.addr i j k)) (hR : ∀ n, f.lo ≤ n → n < f.lo + f.width → R (f.addr i j k) n) :
    t.get f i j k = s.get f i j k :=
  getBits_congr fun n hlo hhi => h.bits _ n ha (hR n hlo hhi)

/-! ### Changes elsewhere -/

/-- A change of neither registers nor trackers nor the clock. -/
theorem same (h : WebKeeps R K s t) (hu : u.regs = t.regs ∧ u.trk = t.trk ∧ u.clk = t.clk) : WebKeeps R K s u := by
  obtain ⟨hr, ht, hc⟩ := hu
  have hrd : ∀ a, u.rd a = t.rd a := fun a => by rw [State.rd, State.rd, hr]
  exact h.trans ⟨fun a i _ _ => by rw [hrd], fun k _ => by rw [State.tk, State.tk, ht], hc, fun a i _ _ hs => by rwa [hrd]⟩

/-- A change of registers of other blocks. -/
theorem far {A : List Nat} (h : WebKeeps R K s t) (hA : ∀ a ∈ A, farReg a) (hrd : ∀ a, a ∉ A → 0x40000 ≤ a → a < 0x83000 → u.rd a = t.rd a)
    (ht : u.trk = t.trk) (hc : u.clk = t.clk) : WebKeeps R K s u := by
  have hout : ∀ a, ¬ farReg a → u.rd a = t.rd a := fun a ha => hrd a (fun hm => ha (hA a hm)) (by simp only [farReg] at ha; omega) (by
    simp only [farReg] at ha
    omega)
  exact h.trans ⟨fun a i ha _ => by rw [hout a (by simp only [farReg, webReg] at ha ⊢; omega)], fun k _ => by rw [State.tk, State.tk, ht], hc,
    fun a i h0 h1 hs => by rwa [hout a (by simp only [farReg]; omega)]⟩

theorem wr (h : WebKeeps R K s t) (a : Nat) (v : Word) (ha : farReg a) : WebKeeps R K s (t.wr a v) :=
  h.far (A := [a]) (by simpa using ha) (fun _ hb _ _ => t.rd_wr_other _ (by simpa using hb)) rfl rfl

theorem setAt (h : WebKeeps R K s t) (f : Fld) (v i j k : Nat) (hf : farReg (f.addr i j k)) : WebKeeps R K s (t.set f v i j k) := h.wr _ _ hf

theorem set (h : WebKeeps R K s t) (f : Fld) (v i j k : Nat) (hf : farFld f = true) : WebKeeps R K s (t.set f v i j k) :=
  h.setAt _ _ _ _ _ (farFld_addr hf i j k).1

theorem put (h : WebKeeps R K s t) (f : Fld) (b : Bool) (i j k : Nat) (hf : farFld f = true) : WebKeeps R K s (t.put f b i j k) := h.set _ _ _ _ _ hf

theorem addSat (h : WebKeeps R K s t) (f : Fld) (n i j k : Nat) (hf : farFld f = true) : WebKeeps R K s (t.addSat f n i j k) := h.set _ _ _ _ _ hf

theorem addWrap (h : WebKeeps R K s t) (f : Fld) (n i j k : Nat) (hf : farFld f = true) : WebKeeps R K s (t.addWrap f n i j k) := h.set _ _ _ _ _ hf

theorem set64 (h : WebKeeps R K s t) (f : Fld) (z : Int) (i j k : Nat) (hf : farFld f = true) : WebKeeps R K s (t.set64 f z i j k) :=
  (h.wr _ _ (farFld_addr hf i j k).1).wr _ _ (farFld_addr hf i j k).2

theorem cond (h : WebKeeps R K s t) {c : Bool} {f : State → State} (hf : c = true → WebKeeps R K s (f t)) : WebKeeps R K s (t.cond c f) := by
  unfold State.cond
  split
  · exact hf ‹_›
  · exact h

/-- Where `c` holds, a change of neither registers nor trackers nor the clock. -/
theorem condSame (h : WebKeeps R K s t) {c : Bool} {f : State → State}
    (hf : (f t).regs = t.regs ∧ (f t).trk = t.trk ∧ (f t).clk = t.clk) : WebKeeps R K s (t.cond c f) :=
  h.cond fun _ => h.same hf

theorem each {α : Type} (h : WebKeeps R K s t) {l : List α} {f : α → State → State} (hf : ∀ x u, x ∈ l → WebKeeps R K s u → WebKeeps R K s (f x u)) :
    WebKeeps R K s (t.each l f) :=
  State.each_inv (WebKeeps R K s) l f hf t h

/-- A change of registers of other blocks, with reporting. -/
theorem only {A : List Nat} (h : WebKeeps R K s t) (ho : OnlyEv A t u) (hA : ∀ a ∈ A, farReg a) : WebKeeps R K s u :=
  h.far hA (fun a ha h0 _ => ho.1 a ha (evReg_above (by omega))) (OnlyEv_proj ho State.trk fun _ _ _ _ _ => rfl)
    (OnlyEv_proj ho State.clk fun _ _ _ _ _ => rfl)

/-- A change of the store and its controller. -/
theorem mem (h : WebKeeps R K s t) (hm : OnlyMem t u) : WebKeeps R K s u :=
  h.far (A := []) (by simp) (fun a _ _ h1 => hm.1 a (by simp [memReg]; omega)) (OnlyMem_proj hm State.trk fun _ _ _ _ => rfl)
    (OnlyMem_proj hm State.clk fun _ _ _ _ => rfl)

/-! ### Events, queues, unit states -/

theorem raise (h : WebKeeps R K s t) (e : Ev) (unit : Nat) (args : List Int) : WebKeeps R K s (t.raise e unit args) :=
  h.only (raise_only ..) (by simp)

theorem raiseLim (h : WebKeeps R K s t) (e : Ev) (unit key period : Nat) (args : List Int) : WebKeeps R K s (t.raiseLim e unit key period args) :=
  h.only (raiseLim_only ..) (by simp)

theorem qWrite (h : WebKeeps R K s t) {q : Nat} (e : Entry) (now : Bool) (hq : q < 64) : WebKeeps R K s (t.qWrite q e now) := by
  unfold State.qWrite
  extract_lets pi qu e' n s1 cnt tm
  have hpi : WebKeeps R K s s1 := (h.same ⟨by rfl, by rfl, by rfl⟩).setAt HIF_Q_PI _ q 0 0 (by simp only [farReg, Fld.addr]; omega)
  exact hpi.cond fun _ => hpi.only (qSignal_only ..) (by simp)

theorem qSend (h : WebKeeps R K s t) {q : Nat} (e : Entry) (hq : q < 64) : WebKeeps R K s (t.qSend q e) := by
  unfold State.qSend
  split
  · exact h.qWrite _ _ hq
  · exact (h.same ⟨by rfl, by rfl, by rfl⟩).setAt HIF_Q_STAT_STALL _ q 0 0 (by simp only [farReg, Fld.addr]; omega)

theorem setRun (h : WebKeeps R K s t) {n : Nat} (run cause : Nat) (hn : n < 0x100) : WebKeeps R K s (t.setRun n run cause) :=
  h.only (setRun_only ..) (by
    simp only [List.mem_cons, List.not_mem_nil, or_false, farReg, Fld.addr]
    omega)

theorem stall (h : WebKeeps R K s t) {n : Nat} (cause : Nat) (hn : n < 0x100) : WebKeeps R K s (t.stall n cause) := by
  unfold State.stall
  dsimp only
  split_ifs
  · exact h
  · exact h.same ⟨rfl, rfl, rfl⟩
  · exact (h.same ⟨by rfl, by rfl, by rfl⟩).setRun _ _ hn

theorem unstall (h : WebKeeps R K s t) {n : Nat} (cause base : Nat) (hn : n < 0x100) : WebKeeps R K s (t.unstall n cause base) := by
  unfold State.unstall
  dsimp only
  split_ifs
  · exact (h.same ⟨by rfl, by rfl, by rfl⟩).setRun _ _ hn
  · exact h.same ⟨rfl, rfl, rfl⟩
  · exact h

theorem barRun (h : WebKeeps R K s t) {b : Nat} (cause : Nat) (hb : b < 16) : WebKeeps R K s (t.barRun b cause) := h.unstall _ _ (by omega)

/-- The running view of a unit brought up to date where no cause of STALL is left. -/
theorem settleRun (h : WebKeeps R K s t) {n : Nat} (base : Nat) (hn : n < 0x100) :
    WebKeeps R K s (if (t.stallCauses n).isEmpty then t.setRun n base else t) := by
  split
  · exact h.setRun _ _ hn
  · exact h

theorem refreshBar (h : WebKeeps R K s t) {b : Nat} (hb : b < 16) : WebKeeps R K s (t.refreshBar b) := by
  unfold State.refreshBar
  dsimp only
  refine settleRun ?_ _ (by omega)
  split
  · exact (h.put HPL_BAR_STAT_STALL _ b 0 0 rfl).stall _ (by omega)
  · exact (h.put HPL_BAR_STAT_STALL _ b 0 0 rfl).barRun _ hb

theorem refreshPort (h : WebKeeps R K s t) {p : Nat} (hp : p < 128) : WebKeeps R K s (t.refreshPort p) := by
  have hn : portUnit p < 0x100 := by
    unfold portUnit
    omega
  unfold State.refreshPort
  dsimp only
  refine refreshBar ?_ (port_bar_lt _ p)
  split
  · exact (h.same ⟨by rfl, by rfl, by rfl⟩).setRun _ _ hn
  · refine settleRun ?_ _ hn
    split
    · exact h.unstall _ _ hn
    · exact h.stall _ hn

theorem refreshBars (h : WebKeeps R K s t) : WebKeeps R K s t.refreshBars :=
  (h.each fun _ _ hp hu => hu.cond fun _ => hu.refreshPort (List.mem_range.1 hp)).each fun _ _ hb hu => hu.refreshBar (List.mem_range.1 hb)

/-! ### Latches (R99, R100) -/

/-- A latch that is set does not take another away. -/
theorem latch (h : WebKeeps R K s t) (e n : Nat) (he : e < 28) : WebKeeps R K s (t.latch e n) := by
  unfold State.latch
  extract_lets f w m
  have hlo : f.lo = 0 ∧ f.width = 32 ∧ 0x81000 ≤ f.addr e ∧ f.addr e < 0x83000 := by
    simp only [f]
    split_ifs
    all_goals
      refine ⟨rfl, rfl, ?_⟩
      simp only [Fld.addr]
      omega
  clear_value f
  obtain ⟨hlo, hwidth, haddr, haddr'⟩ := hlo
  split
  · exact h.same ⟨rfl, rfl, rfl⟩
  · refine h.trans ⟨fun a i ha _ => ?_, fun _ _ => rfl, rfl, fun a i _ _ hs => ?_⟩
    · rw [State.rd_set_other _ _ _ _ _ _ _ (by simp only [webReg] at ha; omega)]
    · rw [State.set, State.rd_wr]
      split
      · next heq =>
        subst heq
        have hi : i < 32 := by
          by_contra hge
          rw [BitVec.getLsbD_of_ge _ _ (by omega)] at hs
          cases hs
        rw [getLsbD_putBits _ _ _ _ _ hi, if_pos (by omega), testBit_putBit]
        split
        · rfl
        · simp only [w, State.get, testBit_getBits, hlo, hwidth]
          simpa [hi] using hs
      · exact hs

theorem latchAll (h : WebKeeps R K s t) (n : Nat) : WebKeeps R K s (t.latchAll n) :=
  h.each fun e _ he hu => hu.latch e n (List.mem_range.1 he)

/-! ### The reject list and lines that retire (R137, R262) -/

theorem rejWrite (h : WebKeeps R K s t) (cause bar trk : Nat) (start : Int) (len : Nat) : WebKeeps R K s (t.rejWrite cause bar trk start len) := by
  unfold State.rejWrite
  extract_lets k i s1 s2
  have hi : i < 64 := Nat.mod_lt _ (by decide)
  have hslot : ∀ f : Fld, 0x80400 ≤ f.base ∧ f.base + 4 < 0x80414 ∧ f.s1 = 16 ∧ f.s2 = 0 ∧ f.s3 = 0 →
      farReg (f.addr i) ∧ farReg (f.addr i + 4) := fun f hf => by
    obtain ⟨_, _, h1, h2, h3⟩ := hf
    simp only [farReg, Fld.addr, h1, h2, h3]
    omega
  obtain ⟨hlo, hhi⟩ := hslot SEQ_REJ_START_LO (by decide)
  have hstart : WebKeeps R K s (t.set64 SEQ_REJ_START_LO start i) := (h.wr _ _ hlo).wr _ _ hhi
  exact ((hstart.setAt SEQ_REJ_LEN len i 0 0 (hslot _ (by decide)).1).setAt SEQ_REJ_INFO _ i 0 0 (hslot _ (by decide)).1).set SEQ_REJ_WR _ 0 0 0 rfl

theorem rejSplit {cause bar trk : Nat} (fuel : Nat) : ∀ {t : State} (start : Int) (len : Nat), WebKeeps R K s t →
    WebKeeps R K s (t.rejSplit cause bar trk start len fuel) := by
  induction fuel with
  | zero => exact fun _ _ h => h
  | succ n ih =>
    intro t start len h
    unfold State.rejSplit
    split_ifs
    · exact h
    · exact h.rejWrite ..
    · exact ih _ _ (h.rejWrite ..)

theorem reject (h : WebKeeps R K s t) (cause bar trk : Nat) (start stop : Int) : WebKeeps R K s (t.reject cause bar trk start stop) := by
  unfold State.reject
  split
  · exact rejSplit _ _ _ h
  · exact h

theorem rejLines (h : WebKeeps R K s t) (cause b : Nat) (x y : Int) : WebKeeps R K s (t.rejLines cause b x y) := by
  unfold State.rejLines
  split
  · split
    · exact h.same ⟨rfl, rfl, rfl⟩
    · split
      · exact h.same ⟨rfl, rfl, rfl⟩
      · exact (rejSplit _ _ _ h).same ⟨rfl, rfl, rfl⟩
  · exact h

theorem retireAt (h : WebKeeps R K s t) (p : Nat) (x : Int) : WebKeeps R K s (t.retireAt p x) := by
  unfold State.retireAt
  dsimp only
  split
  · exact h.same ⟨rfl, rfl, rfl⟩
  · exact h

theorem retireLines (h : WebKeeps R K s t) (b : Nat) (x : Int) (n : Nat) : WebKeeps R K s (t.retireLines b x n) :=
  h.each fun _ _ _ hu => hu.each fun _ _ _ hv => hv.retireAt ..

/-! ### Sheaves, points and ports at a change of mode (R27, R199, R274) -/

theorem refreshSheaves (h : WebKeeps R K s t) : WebKeeps R K s t.refreshSheaves :=
  (h.set CMP_STAT_PENDING _ 0 0 0 rfl).each fun j _ hj hu => by
    have := List.mem_range.1 hj
    exact hu.setAt HIF_JOB_STAT_CHAINED _ j 0 0 (by simp only [farReg, Fld.addr]; omega)

theorem discardSheaves (h : WebKeeps R K s t) : WebKeeps R K s t.discardSheaves := by
  unfold State.discardSheaves
  extract_lets l s1 s2
  have h1 : WebKeeps R K s s1 := (h.same ⟨rfl, rfl, rfl⟩ (u := { t with sheaves := [] })).each fun _ _ _ hu => (hu.raise ..).qSend _ (by decide)
  have h2 : WebKeeps R K s s2 := h1.cond fun _ => (h1.same ⟨rfl, rfl, rfl⟩ (u := { s1 with chlPend := [] })).put CHL_SHEAF_PENDING _ 0 0 0 rfl
  exact h2.refreshSheaves

theorem clearPoints (h : WebKeeps R K s t) : WebKeeps R K s t.clearPoints := by
  have hpoints : WebKeeps R K s (t.each (List.range 16) fun b s =>
      (({ s with point := smPut (fun _ => Point.empty) s.point b Point.empty } : State).set CMP_CP_STAT_STATE 0 b).set CMP_CP_POOL_HELD 0 b) :=
    h.each fun b _ _ hu => ((hu.same ⟨by rfl, by rfl, by rfl⟩).set CMP_CP_STAT_STATE _ b 0 0 rfl).set CMP_CP_POOL_HELD _ b 0 0 rfl
  exact (hpoints.set CMP_POOL_FREE _ 0 0 0 rfl).each fun j _ hj hu => by
    have := List.mem_range.1 hj
    exact hu.setAt HIF_JOB_STAT_RUNNING _ j 0 0 (by simp only [farReg, Fld.addr]; omega)

theorem dropBarLat (h : WebKeeps R K s t) : WebKeeps R K s t.dropBarLat := h.each fun _ _ _ hu => hu.same ⟨rfl, rfl, rfl⟩

theorem clearPorts (h : WebKeeps R K s t) : WebKeeps R K s t.clearPorts := h.same ⟨rfl, rfl, rfl⟩

theorem fixBarLat (h : WebKeeps R K s t) : WebKeeps R K s t.fixBarLat := by
  refine h.each fun b u hb hu => ?_
  split
  · exact hu
  · refine ((hu.set HPL_BAR_LAT _ b 0 0 rfl).same ⟨by rfl, by rfl, by rfl⟩).each fun p v hp hv => ?_
    have hn : portUnit p < 0x100 := by
      have := portsOf_lt hp
      unfold portUnit
      omega
    split
    · exact (hv.put HPL_PORT_STAT_LAT_FIT _ p 0 0 rfl).unstall _ _ hn
    · exact hv

theorem leaveHold (h : WebKeeps R K s t) : WebKeeps R K s t.leaveHold := h.each fun _ _ hb hu => hu.barRun _ (List.mem_range.1 hb)

theorem refreshPats (h : WebKeeps R K s t) : WebKeeps R K s t.refreshPats := h.each fun _ _ _ hu => hu.same ⟨rfl, rfl, rfl⟩

theorem setActive (h : WebKeeps R K s t) (a : Bool) : WebKeeps R K s (t.setActive a) :=
  ((h.cond fun _ => (h.same ⟨rfl, rfl, rfl⟩ (u := { t with twn.twnSwitch := false })).set TWN_SWITCH_STAT_RESULT 3 0 0 0 rfl).put
    TWN_STAT_ACTIVE a 0 0 0 rfl).same ⟨rfl, rfl, rfl⟩

theorem twinMode (h : WebKeeps R K s t) (old m : Nat) : WebKeeps R K s (t.twinMode old m) :=
  (h.cond fun _ => (h.same ⟨rfl, rfl, rfl⟩ (u := { t with twn.twnJoin := 0, twn.twnShSkew := false })).put TWN_STAT_SB_READY false 0 0 0 rfl).setActive _

theorem modeEffects (h : WebKeeps R K s t) (old m : Nat) : WebKeeps R K s (t.modeEffects old m) := by
  unfold State.modeEffects
  extract_lets s1 s2 s3 s4 s5 s6 s7
  have h1 : WebKeeps R K s s1 := h.cond fun _ => h.discardSheaves
  have h2 : WebKeeps R K s s2 := h1.cond fun _ => h1.dropBarLat.clearPoints.clearPorts
  have h3 : WebKeeps R K s s3 := h2.cond fun _ => h2.fixBarLat
  have h4 : WebKeeps R K s s4 := h3.cond fun _ => h3.leaveHold
  have h5 : WebKeeps R K s s5 := h4.cond fun _ => h4.put GLB_HOLD_CAUSE_PENDING _ 0 0 0 rfl
  have h6 : WebKeeps R K s s6 := h5.cond fun _ => h5.same ⟨rfl, rfl, rfl⟩
  have h7 : WebKeeps R K s s7 := h6.cond fun _ => h6.put GLB_FATAL_FIRST_VALID _ 0 0 0 rfl
  exact ((h7.twinMode _ _).refreshPats).refreshBars

/-! ### Nozzle health at entry to PRINT (R333 to R335) -/

theorem nzPut (h : WebKeeps R K s t) (j : Nat) (w : Word) : WebKeeps R K s (t.nzPut j w) :=
  (((h.wr (NZT.addr j) w (farFld_addr rfl j 0 0).1).set TIL_PORT_NZ_WEAK _ (j / 12288) 0 0 rfl).set TIL_PORT_NZ_DEAD _ (j / 12288) 0 0 rfl).same ⟨rfl, rfl, rfl⟩

theorem nzu (h : WebKeeps R K s t) (p n expect new : Nat) (gain : Option Nat) : WebKeeps R K s (t.nzu p n expect new gain).1 := by
  unfold State.nzu
  extract_lets j old st r s1
  have h1 : WebKeeps R K s s1 := h.set TIL_NZU_STAT_RESULT _ 0 0 0 rfl
  split
  · have h2 : ∀ w e l, WebKeeps R K s ((((s1.nzPut j w).set64 TIL_NZU_EFF_LO e).addWrap TIL_NZU_CNT_DONE 1).raise EV_NOZZLE_STATE 255 l) := fun w e l =>
      (((h1.nzPut j w).set64 TIL_NZU_EFF_LO e 0 0 0 rfl).addWrap TIL_NZU_CNT_DONE 1 0 0 0 rfl).raise ..
    dsimp only
    exact (h2 _ _ _).condSame ⟨rfl, rfl, rfl⟩
  · exact h1.addWrap TIL_NZU_CNT_REFUSED 1 0 0 0 rfl

theorem nhChange (h : WebKeeps R K s t) (p n expect new : Nat) : WebKeeps R K s (t.nhChange p n expect new).1 := by
  unfold State.nhChange
  extract_lets j b grows s1 frm
  split
  · split
    · exact h
    · exact (h.same ⟨by rfl, by rfl, by rfl⟩).raise ..
  · have h1 : WebKeeps R K s (s1.nzu p n expect new none).1 := nzu (h.cond fun _ => h.same ⟨rfl, rfl, rfl⟩) ..
    dsimp only
    split
    · exact h1
    · split
      · exact h1.addWrap CHL_NH_CNT_RESTORED 1 0 0 0 rfl
      · exact ((h1.same ⟨by rfl, by rfl, by rfl⟩).addWrap CHL_NH_CNT_MARKED 1 0 0 0 rfl).raise ..

theorem nhEnter (h : WebKeeps R K s t) : WebKeeps R K s t.nhEnter := by
  refine (h.same ⟨by rfl, by rfl, by rfl⟩).each fun x u _ hu => ?_
  split
  · unfold State.nhFast
    dsimp only
    split_ifs
    · exact hu.nhChange ..
    · exact hu.nhChange ..
    · exact hu
  · exact hu

/-! ### Modes and transitions (R27, R30, R498) -/

theorem setBarMode (h : WebKeeps R K s t) (b m : Nat) : WebKeeps R K s (t.setBarMode b m) := by
  unfold State.setBarMode
  split
  · exact h.set _ m 0 0 0 rfl
  · exact h.set _ m 0 0 0 rfl

theorem showResult (h : WebKeeps R K s t) (tag result : Nat) : WebKeeps R K s (t.showResult tag result) :=
  (h.set GLB_MODE_STAT_TAG _ 0 0 0 rfl).set GLB_MODE_STAT_RESULT _ 0 0 0 rfl

theorem preempt (h : WebKeeps R K s t) : WebKeeps R K s t.preempt := by
  unfold State.preempt
  split
  · exact h
  · dsimp only
    split
    · exact ((h.same ⟨by rfl, by rfl, by rfl⟩).set GLB_MODE_STAT_PENDING 0xF 0 0 0 rfl).showResult _ _
    · exact (h.same ⟨by rfl, by rfl, by rfl⟩).set GLB_MODE_STAT_PENDING 0xF 0 0 0 rfl

theorem setMode (h : WebKeeps R K s t) (m cause rep : Nat) : WebKeeps R K s (t.setMode m cause rep) := by
  unfold State.setMode
  extract_lets old s1 s2 s3 s4 s5
  have h1 : WebKeeps R K s s1 := h.cond fun _ => h.nhEnter
  have h2 : WebKeeps R K s s2 := h1.cond fun _ => (h1.same ⟨by rfl, by rfl, by rfl⟩).each fun n _ _ hu => hu.set CHL_CH_JUDGED _ n 0 0 rfl
  have h3 : WebKeeps R K s s3 := (h2.set GLB_MODE_STAT_MODE _ 0 0 0 rfl).set GLB_MODE_STAT_CAUSE _ 0 0 0 rfl
  have h4 : WebKeeps R K s s4 := h3.each fun _ _ _ hu => hu.setBarMode ..
  exact ((h4.latchAll 61).raise ..).modeEffects ..

theorem finishTr (h : WebKeeps R K s t) (x : ModeTr) : WebKeeps R K s (t.finishTr x) := by
  unfold State.finishTr
  extract_lets s1 s2 old s3 s4 s5 s6 s7 next twn s8
  have h1 : WebKeeps R K s s1 := (h.same ⟨by rfl, by rfl, by rfl⟩).set GLB_MODE_STAT_PENDING 0xF 0 0 0 rfl
  have h2 : WebKeeps R K s s2 := by
    simp only [s2]
    split
    · exact h1.showResult ..
    · exact h1
  have h3 : WebKeeps R K s s3 := h2.cond fun _ => h2.nhEnter
  have h4 : WebKeeps R K s s4 := (h3.set GLB_MODE_STAT_MODE _ 0 0 0 rfl).set GLB_MODE_STAT_CAUSE _ 0 0 0 rfl
  have h5 : WebKeeps R K s s5 := h4.each fun _ _ _ hu => hu.setBarMode ..
  have h6 : WebKeeps R K s s6 := h5.cond fun _ => h5.same ⟨rfl, rfl, rfl⟩
  have h7 : WebKeeps R K s s7 := (h6.raise ..).modeEffects ..
  have h8 : WebKeeps R K s s8 := h7.same ⟨rfl, rfl, rfl⟩
  clear_value next s8
  cases next with
  | none => exact h8
  | some n => exact (h8.same ⟨by rfl, by rfl, by rfl⟩).set GLB_MODE_STAT_PENDING _ 0 0 0 rfl

theorem startTr (h : WebKeeps R K s t) (x : ModeTr) : WebKeeps R K s (t.startTr x) := by
  unfold State.startTr
  extract_lets s1 s2
  have h1 : WebKeeps R K s s1 := (h.same ⟨by rfl, by rfl, by rfl⟩).set GLB_MODE_STAT_PENDING _ 0 0 0 rfl
  have h2 : WebKeeps R K s s2 := by
    simp only [s2]
    split
    · exact h1.showResult ..
    · exact h1
  split
  · exact (h2.latchAll 61).finishTr x
  · exact h2

theorem faultHold (h : WebKeeps R K s t) (kind cause trk sc : Nat) : WebKeeps R K s (t.faultHold kind cause trk sc) := by
  unfold State.faultHold
  split
  · extract_lets s1 s2
    have h1 : WebKeeps R K s s1 := (h.put GLB_HOLD_CAUSE_PENDING true 0 0 0 rfl).set GLB_HOLD_CAUSE_KIND kind 0 0 0 rfl
    have h2 : WebKeeps R K s s2 := by
      simp only [s2]
      split
      · exact h1.set GLB_HOLD_CAUSE_TRK _ 0 0 0 rfl
      · exact h1.set GLB_HOLD_CAUSE_SC _ 0 0 0 rfl
    exact h2.preempt.startTr _
  · exact h

end WebKeeps

end Sys2Proof.Machine

/-! SUPPORT for the proofs. What the operations of the web-position block do to its own registers: a tracker leaves the other trackers, and all but what
sets a position leaves the position (R56 to R70). -/

namespace Sys2Proof.Machine

open Sys2Proof.Safety

namespace WebKeeps

variable {R : Nat → Nat → Prop} {K : Nat → Prop} {s t u : State}

/-- A field of the block whose bits are not among those kept. -/
theorem setOwn (h : WebKeeps R K s t) (f : Fld) (v i j k : Nat) (ha : f.addr i j k < 0x81000)
    (hf : ∀ n, f.lo ≤ n → n < f.lo + f.width → ¬ R (f.addr i j k) n) : WebKeeps R K s (t.set f v i j k) := by
  refine h.trans ⟨fun a n _ hR => ?_, fun _ _ => rfl, rfl, fun a n h0 _ hs => ?_⟩
  · rw [State.set, State.rd_wr]
    split
    · next heq =>
      subst heq
      by_cases hn : n < 32
      · rw [getLsbD_putBits _ _ _ _ _ hn, if_neg fun hin => hf n hin.1 hin.2 hR]
      · rw [BitVec.getLsbD_of_ge _ _ (by omega), BitVec.getLsbD_of_ge _ _ (by omega)]
    · rfl
  · rwa [State.rd_set_other _ _ _ _ _ _ _ (by omega)]

theorem wrOwn (h : WebKeeps R K s t) (a : Nat) (v : Word) (hR : ∀ n, ¬ R a n) (ha : a < 0x81000) :
    WebKeeps R K s (t.wr a v) := by
  refine h.trans ⟨fun b n _ hb => ?_, fun _ _ => rfl, rfl, fun b n h0 _ hs => ?_⟩
  · rw [State.rd_wr_other _ _ fun heq => hR n (by rwa [heq] at hb)]
  · rwa [State.rd_wr_other _ _ (by omega)]

theorem set64Own (h : WebKeeps R K s t) (f : Fld) (z : Int) (i j k : Nat) (ha : f.addr i j k + 4 < 0x81000) (hlo : ∀ n, ¬ R (f.addr i j k) n)
    (hhi : ∀ n, ¬ R (f.addr i j k + 4) n) : WebKeeps R K s (t.set64 f z i j k) :=
  (h.wrOwn _ _ hlo (by omega)).wrOwn _ _ hhi ha

theorem setTk (h : WebKeeps R K s t) {k : Nat} (x : Trk) (hk : ¬ K k) : WebKeeps R K s (t.setTk k x) :=
  h.trans ⟨fun _ _ _ _ => rfl, fun _ hj => smGet_put_other _ _ _ fun heq => hk (heq ▸ hj), rfl, fun _ _ _ _ hs => hs⟩

theorem trkBars_lt {k b : Nat} (hb : b ∈ t.trkBars k) : b < 16 := List.mem_range.1 (List.mem_filter.1 hb).1

/-- BACK of the line clocks follows (R22). -/
theorem refreshBack (h : WebKeeps R K s t) (k : Nat) (hR : ∀ b < 16, ¬ R (GEK_LC_STAT.addr b) 0) : WebKeeps R K s (t.refreshBack k) := by
  refine h.each fun b u hb hu => ?_
  have hb := trkBars_lt hb
  refine hu.setOwn GEK_LC_STAT_BACK _ b 0 0 (by simp only [Fld.addr]; omega) fun n _ (h1 : n < 0 + 1) => ?_
  obtain rfl : n = 0 := by omega
  exact hR b hb

/-- A bar's line clock and its discarded ranges (R79). -/
theorem checkOvf (h : WebKeeps R K s t) {b : Nat} (hb : b < 16) : WebKeeps R K s (t.checkOvf b) := by
  unfold State.checkOvf
  dsimp only
  split
  · exact (h.same ⟨by rfl, by rfl, by rfl⟩).stall _ (by omega)
  · exact (h.same ⟨by rfl, by rfl, by rfl⟩).barRun _ hb

/-! ### The source of a tracker (R56, R57) -/

theorem trkLoss (h : WebKeeps R K s t) {k : Nat} (hk : k < 4) (hstat : ∀ n, ¬ R (GEK_TRK_STAT.addr k) n) (hspeed : ∀ n, ¬ R (GEK_TRK_SPEED.addr k) n) :
    WebKeeps R K s (t.trkLoss k) := by
  have hlow : GEK_TRK_STAT.addr k < 0x81000 := by
    simp only [Fld.addr]
    omega
  unfold State.trkLoss
  split
  · exact h
  · exact ((((h.setOwn GEK_TRK_STAT_LOSS _ k 0 0 hlow fun n _ _ => hstat n).setOwn GEK_TRK_SPEED _ k 0 0 (by simp only [Fld.addr]; omega) fun n _ _ =>
      hspeed n).setOwn GEK_TRK_STAT_SPEED_VALID _ k 0 0 hlow fun n _ _ => hstat n).raise ..).each fun b _ hb hu => hu.stall _ (by have := trkBars_lt hb; omega)

theorem trkSource (h : WebKeeps R K s t) {k : Nat} (hk : k < 4) (hstat : ∀ n, ¬ R (GEK_TRK_STAT.addr k) n) (hspeed : ∀ n, ¬ R (GEK_TRK_SPEED.addr k) n)
    (hfall : ∀ n, 12 ≤ n → n < 16 → ¬ R GEK_STAT.addr n) : WebKeeps R K s (t.trkSource k) := by
  have hput : ∀ (u : State) (f : Fld) (b : Bool), f.addr k = GEK_TRK_STAT.addr k → WebKeeps R K s u → WebKeeps R K s (u.put f b k) := fun u f b hf hu =>
    hu.setOwn f _ k 0 0 (by rw [hf]; simp only [Fld.addr]; omega) fun n _ _ => by rw [hf]; exact hstat n
  unfold State.trkSource
  dsimp only
  split_ifs
  · exact h
  · exact h.trkLoss hk hstat hspeed
  · exact hput t GEK_TRK_STAT_LOSS _ rfl h
  · exact hput t GEK_TRK_STAT_LOSS _ rfl h
  · have hboth := hput _ GEK_TRK_STAT_FALLBACK true rfl (hput t GEK_TRK_STAT_LOSS false rfl h)
    exact (hboth.setOwn GEK_STAT_FALLBACK _ 0 0 0 (by decide) fun n h0 h1 => hfall n h0 h1).raise ..
  · exact h.trkLoss hk hstat hspeed

end WebKeeps

/-! ### Registers by tracker -/

/-- The registers of tracker `k`. -/
def trkPage (k a : Nat) : Prop := 0x41000 + 256 * k ≤ a ∧ a < 0x41100 + 256 * k

/-- A field of the trackers' registers, and of the one after it. -/
def trkFld (f : Fld) : Bool := decide (0x41000 ≤ f.base ∧ f.base + 4 < 0x41100 ∧ f.s1 = 256 ∧ f.s2 = 0 ∧ f.s3 = 0)

theorem trkFld_addr {f : Fld} (hf : trkFld f = true) (k : Nat) : trkPage k (f.addr k) ∧ trkPage k (f.addr k + 4) := by
  obtain ⟨h0, h1, hs1, hs2, hs3⟩ := of_decide_eq_true hf
  simp only [trkPage, Fld.addr, hs1, hs2, hs3]
  omega

/-- A field of the trackers' registers that is not of the position. -/
def besidePos (f : Fld) : Bool := trkFld f && decide (f.base ≠ 0x41018 ∧ f.base ≠ 0x4101c)

theorem besidePos_addr {f : Fld} (hf : besidePos f = true) (k : Nat) :
    trkPage k (f.addr k) ∧ f.addr k ≠ 0x41018 + 256 * k ∧ f.addr k ≠ 0x4101c + 256 * k := by
  obtain ⟨htrk, hpos⟩ := (Bool.and_eq_true _ _).mp hf
  obtain ⟨h0, h1, hs1, hs2, hs3⟩ := of_decide_eq_true htrk
  have hpos := of_decide_eq_true hpos
  refine ⟨(trkFld_addr htrk k).1, ?_⟩
  simp only [Fld.addr, hs1, hs2, hs3]
  omega

/-- The inputs' registers and the other trackers', without the bits that show fall-back. -/
def besideTrk (k a i : Nat) : Prop := a < 0x42000 ∧ ¬ trkPage k a ∧ ¬(a = 0x40004 ∧ 12 ≤ i)

/-- Those, and the position of tracker `k`. -/
def posOrBeside (k a i : Nat) : Prop := besideTrk k a i ∨ a = 0x41018 + 256 * k ∨ a = 0x4101c + 256 * k

/-- What tracker `k` is judged by: the inputs' registers and its own. -/
def trkView (k a i : Nat) : Prop := (a < 0x41000 ∧ ¬(a = 0x40004 ∧ 12 ≤ i)) ∨ trkPage k a

/-- `t` has the inputs and the trackers of `s` but for tracker `k`. -/
abbrev KeepsOthers (k : Nat) (s t : State) : Prop := WebKeeps (besideTrk k) (· ≠ k) s t

/-- `t` has the inputs and the trackers of `s` but for tracker `k`, whose position stands. -/
abbrev KeepsPos (k : Nat) (s t : State) : Prop := WebKeeps (posOrBeside k) (· ≠ k) s t

/-- `t` has the inputs and tracker `k` of `s`. -/
abbrev KeepsTrk (k : Nat) (s t : State) : Prop := WebKeeps (trkView k) (· = k) s t

/-- `t` has tracker `k` of `s`. -/
abbrev KeepsPage (k : Nat) (s t : State) : Prop := WebKeeps (fun a _ => trkPage k a) (· = k) s t

theorem KeepsTrk.page {k : Nat} {s t : State} (h : KeepsTrk k s t) : KeepsPage k s t := h.mono (fun _ _ _ => Or.inr) fun _ => id

theorem KeepsPos.others {k : Nat} {s t : State} (h : KeepsPos k s t) : KeepsOthers k s t := h.mono (fun _ _ _ => Or.inl) fun _ => id

/-- What leaves the rest alone leaves another tracker alone. -/
theorem KeepsOthers.view {j k : Nat} {s t : State} (h : KeepsOthers j s t) (hj : j < 4) (hk : k < 4) (hjk : j ≠ k) : KeepsTrk k s t := by
  refine h.mono (fun a i _ ha => ?_) fun x hx => by omega
  simp only [trkView, besideTrk, trkPage] at ha ⊢
  omega

/-- Each tracker in turn: tracker `k` sees its own step alone, at a state that has the inputs and tracker `k` as they were. -/
theorem each_trackers {f : Nat → State → State} (hf : ∀ j < 4, ∀ u, KeepsOthers j u (f j u)) {k : Nat} (hk : k < 4) (s : State) :
    ∃ u, KeepsTrk k s u ∧ KeepsTrk k (f k u) (s.each (List.range 4) f) := by
  have before : ∀ n ≤ k, KeepsTrk k s (s.each (List.range n) f) := fun n hn => by
    induction n with
    | zero => exact WebKeeps.refl s
    | succ n ih =>
      rw [State.each_range_succ]
      exact (ih (by omega)).trans ((hf n (by omega) _).view (by omega) hk (by omega))
  have after : ∀ n, k + 1 + n ≤ 4 → KeepsTrk k (f k (s.each (List.range k) f)) (s.each (List.range (k + 1 + n)) f) := fun n hn => by
    induction n with
    | zero =>
      rw [Nat.add_zero, State.each_range_succ]
      exact WebKeeps.refl _
    | succ n ih =>
      rw [← Nat.add_assoc, State.each_range_succ]
      exact (ih (by omega)).trans ((hf _ (by omega) _).view (by omega) hk (by omega))
  refine ⟨s.each (List.range k) f, before k (Nat.le_refl k), ?_⟩
  have h := after (3 - k) (by omega)
  rwa [show k + 1 + (3 - k) = 4 by omega] at h

namespace KeepsPos

variable {k : Nat} {s t : State}

theorem set (h : KeepsPos k s t) (hk : k < 4) (f : Fld) (v : Nat) (hf : besidePos f = true) : KeepsPos k s (t.set f v k) := by
  obtain ⟨hpage, hlo, hhi⟩ := besidePos_addr hf k
  refine h.setOwn f v k 0 0 (by simp only [trkPage] at hpage; omega) fun n _ _ => ?_
  simp only [posOrBeside, besideTrk, trkPage] at hpage ⊢
  omega

theorem put (h : KeepsPos k s t) (hk : k < 4) (f : Fld) (b : Bool) (hf : besidePos f = true) : KeepsPos k s (t.put f b k) := h.set hk f _ hf

theorem setTk (h : KeepsPos k s t) (x : Trk) : KeepsPos k s (t.setTk k x) := WebKeeps.setTk h x (by simp)

theorem refreshBack (h : KeepsPos k s t) (j : Nat) (_ : k < 4) : KeepsPos k s (t.refreshBack j) :=
  WebKeeps.refreshBack h j fun b _ => by
    simp only [posOrBeside, besideTrk, Fld.addr]
    omega

theorem trkSource (h : KeepsPos k s t) (hk : k < 4) : KeepsPos k s (t.trkSource k) := by
  refine WebKeeps.trkSource h hk (fun n => ?_) (fun n => ?_) fun n h0 h1 => ?_
  all_goals
    simp only [posOrBeside, besideTrk, trkPage, Fld.addr, true_and]
    omega

theorem noSpeed (h : KeepsPos k s t) (hk : k < 4) : KeepsPos k s (t.noSpeed k) := (h.set hk GEK_TRK_SPEED 0 rfl).put hk GEK_TRK_STAT_SPEED_VALID false rfl

theorem measured (h : KeepsPos k s t) (hk : k < 4) (num : Int) (den period : Nat) : KeepsPos k s (t.measured k num den period) :=
  (((h.setTk _).set hk GEK_TRK_SPEED _ rfl).put hk GEK_TRK_STAT_SPEED_VALID true rfl).put hk GEK_TRK_STAT_REVERSAL false rfl

theorem speedCount (h : KeepsPos k s t) (hk : k < 4) (d : Int) : KeepsPos k s (t.speedCount k d) := by
  unfold State.speedCount
  extract_lets x back turned still gap s1 x' s2 s3 s4 s5
  have h1 : KeepsPos k s s1 := (h.put hk GEK_TRK_STAT_DIR _ rfl).put hk GEK_TRK_STAT_STILL _ rfl
  split
  · have h3 : KeepsPos k s s3 := (((h1.setTk _).noSpeed hk).put hk GEK_TRK_STAT_REVERSAL _ rfl).put hk GEK_TRK_STAT_GATE_MODE _ rfl
    exact (h3.set hk GEK_TRK_REV_CNT _ rfl).raiseLim ..
  · split
    · exact (h1.setTk _).noSpeed hk
    · have h4 : KeepsPos k s s4 := h1.setTk _
      split
      · exact h4
      · have h5 : KeepsPos k s s5 := h4.measured hk ..
        split
        · exact (h5.put hk GEK_TRK_STAT_GATE_MODE _ rfl).setTk _
        · exact h5

theorem indexBad (h : KeepsPos k s t) (hk : k < 4) : KeepsPos k s (t.indexBad k) := by
  unfold State.indexBad
  extract_lets s1 s2
  have h1 : KeepsPos k s s1 := (h.set hk GEK_TRK_IDX_CNT_FAULTS _ rfl).set hk GEK_TRK_STAT_CONSEC _ rfl
  split
  · refine WebKeeps.faultHold (WebKeeps.each (h1.raise ..) fun b _ hb hu => hu.stall _ ?_) ..
    have := WebKeeps.trkBars_lt hb
    omega
  · exact h1

theorem passChecks (h : KeepsPos k s t) (hk : k < 4) : KeepsPos k s (t.passChecks k) := by
  unfold State.passChecks
  extract_lets s1 m p x tk n
  have h1 : KeepsPos k s s1 := h.each fun b u hb hu => by
    split
    · exact hu
    · exact hu.checkOvf (WebKeeps.trkBars_lt hb)
  split
  · split
    · split
      · exact (h1.setTk _).raise ..
      · exact h1
    · exact h1
  · split
    · refine indexBad (WebKeeps.set64Own (h1.raise ..) GEK_TRK_NEXT_LO _ k 0 0 (by simp only [Fld.addr]; omega) (fun n => ?_) fun n => ?_) hk
      all_goals
        simp only [posOrBeside, besideTrk, trkPage, Fld.addr]
        omega
    · exact h1

end KeepsPos

/-- A position set is the tracker's own. -/
theorem KeepsOthers.setPos {k : Nat} {s t : State} (h : KeepsOthers k s t) (hk : k < 4) (z ahead : Int) : KeepsOthers k s (t.setPos k z ahead) := by
  refine WebKeeps.setTk (WebKeeps.set64Own h GEK_TRK_POS_LO _ k 0 0 (by simp only [Fld.addr]; omega) (fun n => ?_) fun n => ?_) _ (by simp)
  all_goals
    simp only [besideTrk, trkPage, Fld.addr]
    omega

theorem KeepsOthers.trkCount {k : Nat} {s t : State} (h : KeepsOthers k s t) (hk : k < 4) (n : Int) : KeepsOthers k s (t.trkCount k n) := by
  unfold State.trkCount
  extract_lets d s1
  split
  · exact h
  · have h1 : KeepsOthers k s s1 := h.setPos hk _ _
    refine h1.trans (KeepsPos.others (KeepsPos.passChecks (KeepsPos.refreshBack ?_ _ hk) hk))
    split
    · exact WebKeeps.refl _
    · exact KeepsPos.speedCount (WebKeeps.refl _) hk _

theorem pos_setPos (s : State) (k : Nat) (z ahead : Int) : (s.setPos k z ahead).pos k = sx 64 (ux 64 (z / 2 ^ 32)) := by
  show sx 64 ((s.set64 GEK_TRK_POS_LO (z / 2 ^ 32) k).get64 GEK_TRK_POS_LO k) = _
  rw [State.get64_set64]

theorem State.geti64_congr {s t : State} (f : Fld) (i j k : Nat) (hl : t.rd (f.addr i j k) = s.rd (f.addr i j k))
    (hh : t.rd (f.addr i j k + 4) = s.rd (f.addr i j k + 4)) : t.geti64 f i j k = s.geti64 f i j k := by
  rw [State.geti64, State.geti64, State.get64_congr _ _ _ _ hl hh]

theorem KeepsPos.pos {k : Nat} {s t : State} (h : KeepsPos k s t) (hk : k < 4) : t.pos k = s.pos k := by
  refine State.geti64_congr _ _ _ _ (h.rd ?_ fun i _ => ?_) (h.rd ?_ fun i _ => ?_)
  all_goals
    simp only [webReg, posOrBeside, Fld.addr]
    omega

namespace KeepsPage

variable {k : Nat} {s t : State}

theorem get (h : KeepsPage k s t) (f : Fld) (hf : trkFld f = true) (hk : k < 4) :
    t.get f k = s.get f k :=
  have ha := (trkFld_addr hf k).1
  WebKeeps.get h f k 0 0 (by simp only [trkPage, webReg] at ha ⊢; omega) fun _ _ _ => ha

theorem on (h : KeepsPage k s t) (f : Fld) (hf : trkFld f = true) (hk : k < 4) :
    t.on f k = s.on f k := by rw [State.on, State.on, h.get f hf hk]

theorem geti64 (h : KeepsPage k s t) (f : Fld) (hf : trkFld f = true) (hk : k < 4) : t.geti64 f k = s.geti64 f k :=
  have ⟨ha, ha'⟩ := trkFld_addr hf k
  State.geti64_congr _ _ _ _ (h.rd (by simp only [trkPage, webReg] at ha ⊢; omega) fun _ _ => ha)
    (h.rd (by simp only [trkPage, webReg] at ha' ⊢; omega) fun _ _ => ha')

theorem pos (h : KeepsPage k s t) (hk : k < 4) : t.pos k = s.pos k := h.geti64 GEK_TRK_POS_LO rfl hk

theorem trkStep (h : KeepsPage k s t) (hk : k < 4) : t.trkStep k = s.trkStep k := by
  rw [State.trkStep, State.trkStep, h.on GEK_TRK_STAT_FALLBACK rfl hk, h.geti64 GEK_TRK_SSTEP_FRAC rfl hk, h.geti64 GEK_TRK_STEP_FRAC rfl hk]

theorem posFine (h : KeepsPage k s t) (hk : k < 4) : t.posFine k = s.posFine k := by
  rw [State.posFine, State.posFine, h.pos hk, h.tk k rfl]

theorem fedBy (h : KeepsPage k s t) (hk : k < 4) (abs : Bool) (n : Nat) : t.fedBy k abs n = s.fedBy k abs n := by
  rw [State.fedBy, State.fedBy, h.on GEK_TRK_CTL_EN rfl hk, h.on GEK_TRK_STAT_FALLBACK rfl hk, h.on GEK_TRK_CTL_SEC_ABS rfl hk, h.get GEK_TRK_CTL_SEC rfl hk,
    h.on GEK_TRK_CTL_SRC_ABS rfl hk, h.get GEK_TRK_CTL_SRC rfl hk]

end KeepsPage

/-- A tracker that counts stands at the counted position, moved by its steps (R56, R58). -/
theorem pos_trkCount (s : State) {k : Nat} (hk : k < 4) (n : Int) (hl : s.on GEK_TRK_STAT_LOSS k = false) :
    (s.trkCount k n).pos k = sx 64 (ux 64 ((s.posFine k - (s.tk k).ahead + n * s.trkStep k) / 2 ^ 32)) := by
  unfold State.trkCount
  extract_lets d s1
  rw [if_neg (by simp [hl]), ← pos_setPos s k _ 0]
  refine KeepsPos.pos (KeepsPos.passChecks (KeepsPos.refreshBack ?_ _ hk) hk) hk
  split
  · exact WebKeeps.refl _
  · exact KeepsPos.speedCount (WebKeeps.refl _) hk _

end Sys2Proof.Machine

/-! PROOFS. Encoder inputs: their edges, their LOSS, and the trackers on them (R48 to R51, R56 to R59). -/

namespace Sys2Proof.Machine

open Sys2Proof.Safety

/-! ### An edge (R48 to R50) -/

/-- The levels of input `n` shown. -/
def State.encShow (s : State) (n : Nat) (a b zl : Bool) : State := s.set GEK_ENC_STAT_LEVEL (b2n a + 2 * b2n b + 4 * b2n zl) n

/-- Input `n` counts `c`, and the trackers it feeds count with it. -/
def State.encCount (s : State) (n : Nat) (c : Int) : State :=
  (s.seti GEK_ENC_COUNT (s.geti GEK_ENC_COUNT n + c) n).each (List.range 4) fun k s => if s.fedBy k false n then s.trkCount k c else s

/-- Two changes at once at input `n`. -/
def State.encError (s : State) (n : Nat) : State := (s.addSat GEK_ENC_ERR_QERR 1 n).raiseLim EV_ENC_QERR 255 n sec1

/-- Levels `a` and `b` after SWAP, with no rise of Z: what the old levels `old` make of them. -/
def State.encStep (s : State) (n old : Nat) (a b : Bool) : State :=
  if bitN old 0 != a && bitN old 1 != b then s.encError n
  else if bitN old 0 != a || bitN old 1 != b then s.encCount n (if (if bitN old 0 != a then a != b else a == b) then 1 else -1)
  else s

theorem exec_encEdge_off {s : State} {n : Fin 8} (a b zl : Bool) {dt : Nat} (h : (s.elapse dt).on GEK_ENC_CTL_EN n = false) :
    exec (.encEdge n a b zl dt) s = .next (s.elapse dt) := by
  show execEncEdge n a b zl dt s = _
  simp [execEncEdge, h]

theorem exec_encEdge {s : State} {n : Fin 8} (a b : Bool) {zl : Bool} {dt : Nat} (h : (s.elapse dt).on GEK_ENC_CTL_EN n = true)
    (hz : zl = false ∨ bitN ((s.elapse dt).get GEK_ENC_STAT_LEVEL n) 2 = true) :
    let z := s.elapse dt
    let a' := if z.on GEK_ENC_CTL_SWAP n then b else a
    let b' := if z.on GEK_ENC_CTL_SWAP n then a else b
    exec (.encEdge n a b zl dt) s = .next ((z.encShow n a' b' zl).encStep n (z.get GEK_ENC_STAT_LEVEL n) a' b') := by
  show execEncEdge n a b zl dt s = _
  unfold execEncEdge
  generalize s.elapse dt = z at h hz ⊢
  have hrise : (zl && !(bitN (z.get GEK_ENC_STAT_LEVEL n) 2)) = false := by
    rcases hz with hz | hz <;> simp [hz]
  cases hsw : z.on GEK_ENC_CTL_SWAP n
  all_goals
    simp only [h, hsw, hrise, Bool.not_true, Bool.false_and, Bool.false_eq_true, if_false, if_true]
    rfl

theorem encError_shows (s : State) (n : Fin 8) : (s.encError n).get GEK_ENC_ERR_QERR n = min (s.get GEK_ENC_ERR_QERR n + 1) 65535 ∧
    OnlyEv [GEK_ENC_ERR.addr n] s (s.encError n) := by
  have hev := raiseLim_only (s.addSat GEK_ENC_ERR_QERR 1 n) EV_ENC_QERR 255 n sec1 []
  refine ⟨?_, OnlyEv_trans (OnlyEv_set s GEK_ENC_ERR_QERR _ n 0 0) hev⟩
  rw [State.encError, OnlyEv_get hev GEK_ENC_ERR_QERR n 0 0 (by simp) (evReg_above (by simp only [Fld.addr]; omega))]
  exact State.get_addSat s GEK_ENC_ERR_QERR 1 n 0 0 (by decide)

/-- A tracker counts where the input feeds it. -/
theorem KeepsOthers.fedCount {n k : Nat} (hk : k < 4) (c : Int) (u : State) :
    KeepsOthers k u (if u.fedBy k false n then u.trkCount k c else u) := by
  split
  · exact KeepsOthers.trkCount (WebKeeps.refl u) hk c
  · exact WebKeeps.refl u

/-- The bits of a word after a signed step of its value. -/
theorem ofNat_ux_sx_add (x : Word) (c : Int) : BitVec.ofNat 32 (ux 32 (sx 32 x.toNat + c)) = x + BitVec.ofInt 32 c := by
  apply BitVec.eq_of_toNat_eq
  have hx := x.isLt
  rw [BitVec.toNat_ofNat, BitVec.toNat_add, BitVec.toNat_ofInt]
  unfold ux sx
  split <;> omega

theorem rd_encCounted (s : State) (n : Nat) (c : Int) :
    (s.seti GEK_ENC_COUNT (s.geti GEK_ENC_COUNT n + c) n).rd (GEK_ENC_COUNT.addr n) = s.rd (GEK_ENC_COUNT.addr n) + BitVec.ofInt 32 c := by
  rw [State.seti, State.set, State.rd_wr_same, putBits_word, State.geti, State.get, getBits_word, ofNat_ux_sx_add]

/-- An input's registers are left by the trackers' counts. -/
theorem encCount_rd (s : State) (n : Nat) (c : Int) {a : Nat} (ha : webReg a) (hlow : a < 0x41000) (hne : a ≠ 0x40004) :
    (s.encCount n c).rd a = (s.seti GEK_ENC_COUNT (s.geti GEK_ENC_COUNT n + c) n).rd a := by
  obtain ⟨u, hbefore, hafter⟩ := each_trackers (k := 0) (fun j hj u => KeepsOthers.fedCount (n := n) hj c u) (by decide)
    (s.seti GEK_ENC_COUNT (s.geti GEK_ENC_COUNT n + c) n)
  have hview : ∀ i, i < 32 → trkView 0 a i := fun i _ => Or.inl ⟨hlow, fun h => hne h.1⟩
  rw [State.encCount, hafter.rd ha hview, ← hbefore.rd ha hview]
  exact (KeepsOthers.fedCount (by decide) c u).rd ha fun i _ => by
    simp only [besideTrk, trkPage]
    omega

theorem one_of_two_changes {x y p q : Bool} (h : (x ≠ p) ≠ (y ≠ q)) : (x != p && y != q) = false ∧ (x != p || y != q) = true := by
  revert x y p q
  decide

/-- A tracker after an input's count: moved by its own steps where the input feeds it, else where it was. -/
theorem encCount_pos {z s : State} {n : Nat} (c : Int) {k : Nat} (hk : k < 4)
    (h : KeepsPage k z (s.seti GEK_ENC_COUNT (s.geti GEK_ENC_COUNT n + c) n)) :
    if z.fedBy k false n = true ∧ z.on GEK_TRK_STAT_LOSS k = false
      then (s.encCount n c).pos k = sx 64 (ux 64 ((z.posFine k - (z.tk k).ahead + c * z.trkStep k) / 2 ^ 32))
      else (s.encCount n c).pos k = z.pos k := by
  obtain ⟨u, hbefore, hafter⟩ := each_trackers (fun j hj u => KeepsOthers.fedCount (n := n) hj c u) hk
    (s.seti GEK_ENC_COUNT (s.geti GEK_ENC_COUNT n + c) n)
  have hu : KeepsPage k z u := h.trans hbefore.page
  have hloss : u.on GEK_TRK_STAT_LOSS k = z.on GEK_TRK_STAT_LOSS k := hu.on GEK_TRK_STAT_LOSS rfl hk
  rw [State.encCount, hafter.page.pos hk, hu.fedBy hk]
  split
  · next hmoves =>
    obtain ⟨hfed, hl⟩ := hmoves
    rw [if_pos hfed, pos_trkCount u hk c (hloss.trans hl), hu.posFine hk, hu.tk k rfl, hu.trkStep hk]
  · next hstays =>
    split
    · next hfed =>
      have hl : u.on GEK_TRK_STAT_LOSS k = true := by
        rw [hloss]
        simpa [hfed] using hstays
      rw [State.trkCount, if_pos hl, hu.pos hk]
    · exact hu.pos hk

/-- An input's levels and its count are no tracker's. -/
theorem encCount_page (z : State) (n : Fin 8) (a b zl : Bool) (c : Int) {k : Nat} (hk : k < 4) :
    KeepsPage k z ((z.encShow n a b zl).seti GEK_ENC_COUNT ((z.encShow n a b zl).geti GEK_ENC_COUNT n + c) n) := by
  refine ((WebKeeps.refl z).setOwn GEK_ENC_STAT_LEVEL _ n 0 0 (by simp only [Fld.addr]; omega)
    fun i _ _ => ?_).setOwn GEK_ENC_COUNT _ n 0 0 (by simp only [Fld.addr]; omega) fun i _ _ => ?_
  all_goals
    simp only [trkPage, Fld.addr]
    omega

theorem encShow_level (z : State) (n : Nat) (a b zl : Bool) : (z.encShow n a b zl).get GEK_ENC_STAT_LEVEL n = b2n a + 2 * b2n b + 4 * b2n zl := by
  rw [State.encShow, State.get_set_same _ _ _ _ _ _ (by decide)]
  cases a <;> cases b <;> cases zl <;> rfl

/-- Settles O23: an edge is one of an error, a count and nothing, and each tracker counts for itself. -/
theorem encoderEdgesCountAndMoveTrackers : Obligations.EncoderEdgesCountAndMoveTrackers := by
  unfold Obligations.EncoderEdgesCountAndMoveTrackers
  intro s n a b zl dt z old sw a' b' c
  refine ⟨exec_encEdge_off a b zl, fun hen hz => ?_⟩
  have hexec : exec (.encEdge n a b zl dt) s = .next ((z.encShow n a' b' zl).encStep n old a' b') := exec_encEdge a b hen hz
  have hshow := OnlyRegs_set z GEK_ENC_STAT_LEVEL (b2n a' + 2 * b2n b' + 4 * b2n zl) n 0 0
  refine ⟨fun ha hb => ⟨_, hexec, ?_⟩, fun hone => ⟨_, hexec, ?_⟩, fun ha hb => ⟨_, hexec, ?_⟩⟩
  · rw [State.encStep, if_pos (by simp [ha, hb])]
    obtain ⟨hcount, honly⟩ := encError_shows (z.encShow n a' b' zl) n
    refine ⟨hcount.trans ?_, OnlyEv_trans (OnlyEv_of_regs hshow) honly⟩
    rw [State.encShow, OnlyRegs_get hshow GEK_ENC_ERR_QERR n 0 0 (by simp [Fld.addr])]
  · obtain ⟨htwo, hsome⟩ := one_of_two_changes hone
    rw [State.encStep, if_neg (by simp [htwo]), if_pos hsome]
    have hrd : ∀ {x : Nat}, 0x40100 ≤ x → x < 0x40200 → ((z.encShow n a' b' zl).encCount n c).rd x =
        ((z.encShow n a' b' zl).seti GEK_ENC_COUNT ((z.encShow n a' b' zl).geti GEK_ENC_COUNT n + c) n).rd x := fun hlo hhi =>
      encCount_rd _ n c (by simp only [webReg]; omega) (by omega) (by omega)
    have hshown : (z.encShow n a' b' zl).rd (GEK_ENC_COUNT.addr n) = z.rd (GEK_ENC_COUNT.addr n) := hshow.1 _ (by simp [Fld.addr])
    refine ⟨?_, ?_, ?_, fun k hk => encCount_pos c hk (encCount_page z n a' b' zl c hk)⟩
    · rw [hrd (by simp only [Fld.addr]; omega) (by simp only [Fld.addr]; omega), rd_encCounted, hshown]
    · rw [State.get_congr GEK_ENC_STAT_LEVEL n 0 0 (hrd (by simp only [Fld.addr]; omega) (by simp only [Fld.addr]; omega)), State.seti,
        State.get_set_addr _ _ _ _ _ _ _ _ _ _ (by simp [Fld.addr]), encShow_level]
    · rw [State.get_congr GEK_ENC_ERR_QERR n 0 0 (hrd (by simp only [Fld.addr]; omega) (by simp only [Fld.addr]; omega)), State.seti,
        State.get_set_addr _ _ _ _ _ _ _ _ _ _ (by simp [Fld.addr]), State.encShow, OnlyRegs_get hshow GEK_ENC_ERR_QERR n 0 0 (by simp [Fld.addr])]
  · rw [State.encStep, if_neg (by simp [ha]), if_neg (by simp [ha, hb])]
    exact ⟨encShow_level .., hshow⟩

/-! ### LOSS of an input (R51, R57) -/

/-- LOSS of input `n` shown, or its end. -/
def State.encLoss (s : State) (n : Nat) (b : Bool) : State := s.set GEK_STAT_ENC_LOSS (putBit (s.get GEK_STAT_ENC_LOSS) n b)

theorem encLoss_bit (s : State) (n : Fin 8) (b : Bool) : bitN ((s.encLoss n b).get GEK_STAT_ENC_LOSS) n = b := by
  rw [State.encLoss, State.get_set_same _ _ _ _ _ _ (by decide), bitN_testBit, Nat.testBit_mod_two_pow, testBit_putBit]
  simp

theorem exec_encLossDetect {s : State} {n : Fin 8} (hen : s.on GEK_ENC_CTL_EN n = true) (hl : s.on GEK_ENC_STAT_LOSS n = false) :
    exec (.encLossDetect n) s = .next (((s.put GEK_ENC_STAT_LOSS true n).put GEK_ENC_STAT_LOSS_SEEN true n).encLoss n true).trkSources :=
  if_pos (by simp [hen, hl])

theorem exec_encLossDetect_declared {s : State} {n : Fin 8} (hl : s.on GEK_ENC_STAT_LOSS n = true) : exec (.encLossDetect n) s = .next s :=
  if_neg (by simp [hl])

theorem exec_encLossClear (s : State) (n : Fin 8) :
    exec (.encLossClear n) s = .next ((s.put GEK_ENC_STAT_LOSS false n).encLoss n false).trkSources := rfl

theorem exec_encClr {s : State} (n : Fin 8) (h : Hears s) : exec (.encClr n) s = .next ((s.set GEK_ENC_ERR_QERR 0 n).set GEK_ENC_ERR_ZCNT 0 n) :=
  heard_eq h _

/-! ### What the sources judged again show -/

theorem KeepsTrk.inputLoss {k : Nat} {s t : State} (h : KeepsTrk k s t) (abs : Bool) {m : Nat} (hm : m < 8) :
    t.inputLoss abs m = s.inputLoss abs m := by
  have hfield : ∀ f : Fld, 0x40100 ≤ f.addr m → f.addr m < 0x41000 → t.on f m = s.on f m := fun f h0 h1 => by
    rw [State.on, State.on, h.get f m 0 0 (by simp only [webReg]; omega) fun n _ _ => Or.inl ⟨h1, by omega⟩]
  cases abs
  · exact hfield GEK_ENC_STAT_LOSS (by simp only [Fld.addr]; omega) (by simp only [Fld.addr]; omega)
  · exact hfield GEK_ABS_ERR_LOSS (by simp only [Fld.addr]; omega) (by simp only [Fld.addr]; omega)

/-- Sources judged again leave the inputs as they are. -/
theorem trkSources_inputs (s : State) : WebKeeps (fun a i => a < 0x41000 ∧ ¬(a = 0x40004 ∧ 12 ≤ i)) (fun _ => True) s s.trkSources := by
  refine (WebKeeps.refl s).each fun k u hk hu => ?_
  have hk := List.mem_range.1 hk
  refine hu.trkSource hk (fun n => ?_) (fun n => ?_) fun n h0 h1 => ?_
  all_goals
    simp only [Fld.addr, true_and]
    omega

/-- Each tracker's source judged for itself. -/
theorem trkSources_at (s : State) {k : Nat} (hk : k < 4) : ∃ u, KeepsTrk k s u ∧ KeepsTrk k (u.trkSource k) s.trkSources :=
  each_trackers (fun _ hj u => KeepsPos.others (KeepsPos.trkSource (WebKeeps.refl u) hj)) hk s

theorem trkSource_lost {u : State} {k : Nat} (hen : u.on GEK_TRK_CTL_EN k = true) (hfb : u.on GEK_TRK_STAT_FALLBACK k = false)
    (hpri : u.inputLoss (u.on GEK_TRK_CTL_SRC_ABS k) (u.get GEK_TRK_CTL_SRC k) = true) (hsec : u.on GEK_TRK_CTL_SEC_EN k = false) :
    u.trkSource k = u.trkLoss k := by
  simp [State.trkSource, hen, hfb, hpri, hsec]

theorem trkSource_fallsBack {u : State} {k : Nat} (hen : u.on GEK_TRK_CTL_EN k = true) (hfb : u.on GEK_TRK_STAT_FALLBACK k = false)
    (hpri : u.inputLoss (u.on GEK_TRK_CTL_SRC_ABS k) (u.get GEK_TRK_CTL_SRC k) = true) (hsec : u.on GEK_TRK_CTL_SEC_EN k = true)
    (hgood : u.inputLoss (u.on GEK_TRK_CTL_SEC_ABS k) (u.get GEK_TRK_CTL_SEC k) = false) :
    let v := (u.put GEK_TRK_STAT_LOSS false k).put GEK_TRK_STAT_FALLBACK true k
    u.trkSource k = (v.set GEK_STAT_FALLBACK (putBit (v.get GEK_STAT_FALLBACK) k true)).raise EV_ENC_FALLBACK 255 := by
  simp [State.trkSource, hen, hfb, hpri, hsec, hgood]

theorem trkSource_good {u : State} {k : Nat} (hen : u.on GEK_TRK_CTL_EN k = true) (hfb : u.on GEK_TRK_STAT_FALLBACK k = false)
    (hpri : u.inputLoss (u.on GEK_TRK_CTL_SRC_ABS k) (u.get GEK_TRK_CTL_SRC k) = false) :
    u.trkSource k = u.put GEK_TRK_STAT_LOSS false k := by
  simp [State.trkSource, hen, hfb, hpri]

theorem noSpeed_shows (s : State) (k : Nat) : (s.noSpeed k).get GEK_TRK_SPEED k = 0 ∧ (s.noSpeed k).on GEK_TRK_STAT_SPEED_VALID k = false := by
  refine ⟨?_, State.on_put_same _ _ _ _ _ _ rfl (by decide)⟩
  rw [State.noSpeed, State.put, State.get_set_addr _ _ _ _ _ _ _ _ _ _ (by simp only [Fld.addr]; omega), State.get_set_same _ _ _ _ _ _ (by decide)]
  rfl

theorem State.on_put_bits (s : State) (f g : Fld) (b : Bool) (i j k : Nat) (h : g.lo + g.width ≤ f.lo ∨ f.lo + f.width ≤ g.lo) :
    (s.put f b i j k).on g i j k = s.on g i j k := by rw [State.on, State.on, State.get_put_bits _ _ _ _ _ _ _ h]

theorem trkLoss_shows (u : State) {k : Nat} (hk : k < 4) (hl : u.on GEK_TRK_STAT_LOSS k = false) :
    (u.trkLoss k).on GEK_TRK_STAT_LOSS k = true ∧ (u.trkLoss k).get GEK_TRK_SPEED k = 0 ∧ (u.trkLoss k).on GEK_TRK_STAT_SPEED_VALID k = false := by
  obtain ⟨hspeed, hvalid⟩ := noSpeed_shows (u.put GEK_TRK_STAT_LOSS true k) k
  have hloss : ((u.put GEK_TRK_STAT_LOSS true k).noSpeed k).on GEK_TRK_STAT_LOSS k = true := by
    rw [State.noSpeed, State.on_put_bits _ _ _ _ _ _ _ (by decide), State.on,
      State.get_set_addr _ _ _ _ _ _ _ _ _ _ (by simp only [Fld.addr]; omega)]
    exact State.on_put_same u GEK_TRK_STAT_LOSS true k 0 0 rfl (by decide)
  have hpage : KeepsPage k ((u.put GEK_TRK_STAT_LOSS true k).noSpeed k) (u.trkLoss k) := by
    rw [State.trkLoss, if_neg (by simp [hl])]
    exact ((WebKeeps.refl _).raise ..).each fun b _ hb hv => hv.stall _ (by have := WebKeeps.trkBars_lt hb; omega)
  exact ⟨(hpage.on GEK_TRK_STAT_LOSS rfl hk).trans hloss, (hpage.get GEK_TRK_SPEED rfl hk).trans hspeed, (hpage.on GEK_TRK_STAT_SPEED_VALID rfl hk).trans hvalid⟩

theorem fallBack_shows (u : State) {k : Nat} (hk : k < 4) :
    let v := (u.put GEK_TRK_STAT_LOSS false k).put GEK_TRK_STAT_FALLBACK true k
    let w := (v.set GEK_STAT_FALLBACK (putBit (v.get GEK_STAT_FALLBACK) k true)).raise EV_ENC_FALLBACK 255
    w.on GEK_TRK_STAT_FALLBACK k = true ∧ w.on GEK_TRK_STAT_LOSS k = false := by
  intro v w
  have hpage : KeepsPage k v w := ((WebKeeps.refl v).setOwn GEK_STAT_FALLBACK _ 0 0 0 (by simp only [Fld.addr]; omega) fun n _ _ => by
    simp only [trkPage, Fld.addr]
    omega).raise ..
  refine ⟨(hpage.on GEK_TRK_STAT_FALLBACK rfl hk).trans (State.on_put_same _ _ _ _ _ _ rfl (by decide)), (hpage.on GEK_TRK_STAT_LOSS rfl hk).trans ?_⟩
  rw [State.on_put_bits _ _ _ _ _ _ _ (by decide)]
  exact State.on_put_same u GEK_TRK_STAT_LOSS false k 0 0 rfl (by decide)

/-- What the source of an enabled tracker outside fall-back is judged by. -/
structure OnInput (s : State) (k n : Nat) : Prop where
  en : s.on GEK_TRK_CTL_EN k = true
  primary : s.on GEK_TRK_STAT_FALLBACK k = false
  enc : s.on GEK_TRK_CTL_SRC_ABS k = false
  src : s.get GEK_TRK_CTL_SRC k = n

theorem OnInput.keep {s t : State} {k n : Nat} (h : OnInput s k n) (hp : KeepsPage k s t) (hk : k < 4) : OnInput t k n :=
  ⟨(hp.on GEK_TRK_CTL_EN rfl hk).trans h.en, (hp.on GEK_TRK_STAT_FALLBACK rfl hk).trans h.primary, (hp.on GEK_TRK_CTL_SRC_ABS rfl hk).trans h.enc,
    (hp.get GEK_TRK_CTL_SRC rfl hk).trans h.src⟩

theorem OnInput.loss {s : State} {k n : Nat} (h : OnInput s k n) :
    s.inputLoss (s.on GEK_TRK_CTL_SRC_ABS k) (s.get GEK_TRK_CTL_SRC k) = s.on GEK_ENC_STAT_LOSS n := by
  rw [h.enc, h.src]
  rfl

/-- The input's own registers are no tracker's. -/
theorem KeepsPage.input {s t : State} {k : Nat} (h : KeepsPage k s t) (f : Fld) (v i : Nat) (hf : f.addr i < 0x41000) : KeepsPage k s (t.set f v i) :=
  h.setOwn f v i 0 0 (by omega) fun n _ _ => by simp only [trkPage]; omega

theorem State.inputLoss_encLoss (s : State) (n : Nat) (b abs : Bool) (m : Nat) : (s.encLoss n b).inputLoss abs m = s.inputLoss abs m := by
  have hfield : ∀ f : Fld, 0x40100 ≤ f.addr m → (s.encLoss n b).on f m = s.on f m := fun f hf => by
    rw [State.on, State.on, State.encLoss, State.get_set_addr _ _ _ _ _ _ _ _ _ _ (by simp only [Fld.addr] at hf ⊢; omega)]
  cases abs
  · exact hfield GEK_ENC_STAT_LOSS (by simp only [Fld.addr]; omega)
  · exact hfield GEK_ABS_ERR_LOSS (by simp only [Fld.addr]; omega)

/-- Another input's LOSS does not depend on input `n`'s. -/
theorem inputLoss_other (s : State) {n : Nat} (f : Fld) (b : Bool) {abs : Bool} {m : Nat} (hf : f.addr n = GEK_ENC_STAT.addr n)
    (h : abs = true ∨ m ≠ n) : (s.put f b n).inputLoss abs m = s.inputLoss abs m := by
  have hfield : ∀ g : Fld, g.addr m ≠ GEK_ENC_STAT.addr n → (s.put f b n).on g m = s.on g m := fun g hg => by
    rw [State.on, State.on, State.put, State.get_set_addr _ _ _ _ _ _ _ _ _ _ (by rwa [hf])]
  cases abs
  · refine hfield GEK_ENC_STAT_LOSS ?_
    simp only [Bool.false_eq_true, false_or] at h
    simp only [Fld.addr]
    omega
  · refine hfield GEK_ABS_ERR_LOSS ?_
    simp only [Fld.addr]
    omega

/-! ### LOSS declared and cleared -/

/-- Input `n` in LOSS. -/
def State.encLost (s : State) (n : Nat) : State := ((s.put GEK_ENC_STAT_LOSS true n).put GEK_ENC_STAT_LOSS_SEEN true n).encLoss n true

theorem encLost_inputs (s : State) (n : Fin 8) :
    (s.encLost n).on GEK_ENC_STAT_LOSS n = true ∧ (s.encLost n).on GEK_ENC_STAT_LOSS_SEEN n = true ∧ bitN ((s.encLost n).get GEK_STAT_ENC_LOSS) n = true := by
  have hfield : ∀ f : Fld, f.addr n = GEK_ENC_STAT.addr n → (s.encLost n).on f n =
      ((s.put GEK_ENC_STAT_LOSS true n).put GEK_ENC_STAT_LOSS_SEEN true n).on f n := fun f hf => by
    rw [State.on, State.on, State.encLost, State.encLoss, State.get_set_addr _ _ _ _ _ _ _ _ _ _ (by rw [hf]; simp only [Fld.addr]; omega)]
  refine ⟨?_, ?_, encLoss_bit ..⟩
  · rw [hfield GEK_ENC_STAT_LOSS rfl, State.on_put_bits _ _ _ _ _ _ _ (by decide)]
    exact State.on_put_same s GEK_ENC_STAT_LOSS true n 0 0 rfl (by decide)
  · rw [hfield GEK_ENC_STAT_LOSS_SEEN rfl]
    exact State.on_put_same _ GEK_ENC_STAT_LOSS_SEEN true n 0 0 rfl (by decide)

theorem encLost_page (s : State) (n : Fin 8) (k : Nat) : KeepsPage k s (s.encLost n) := by
  refine KeepsPage.input (KeepsPage.input (KeepsPage.input (WebKeeps.refl s) GEK_ENC_STAT_LOSS _ n ?_) GEK_ENC_STAT_LOSS_SEEN _ n ?_) GEK_STAT_ENC_LOSS _ 0 ?_
  all_goals
    simp only [Fld.addr]
    omega

theorem encLost_inputLoss (s : State) (n : Fin 8) {abs : Bool} {m : Nat} (h : abs = true ∨ m ≠ n) :
    (s.encLost n).inputLoss abs m = s.inputLoss abs m := by
  rw [State.encLost, State.inputLoss_encLoss, inputLoss_other _ GEK_ENC_STAT_LOSS_SEEN true rfl h, inputLoss_other _ GEK_ENC_STAT_LOSS true rfl h]

/-- A tracker on an input that is lost, judged: in LOSS without fall-back, in fall-back on a good secondary. -/
theorem encLost_tracker {s : State} {n : Fin 8} {k : Nat} (hk : k < 4) (hon : OnInput s k n) (hl : s.on GEK_TRK_STAT_LOSS k = false) :
    let t := (s.encLost n).trkSources
    (s.on GEK_TRK_CTL_SEC_EN k = false →
      t.on GEK_TRK_STAT_LOSS k = true ∧ t.get GEK_TRK_SPEED k = 0 ∧ t.on GEK_TRK_STAT_SPEED_VALID k = false ∧ t.pos k = s.pos k) ∧
    (s.on GEK_TRK_CTL_SEC_EN k = true → s.inputLoss (s.on GEK_TRK_CTL_SEC_ABS k) (s.get GEK_TRK_CTL_SEC k) = false →
      (s.on GEK_TRK_CTL_SEC_ABS k = true ∨ s.get GEK_TRK_CTL_SEC k ≠ n) →
      t.on GEK_TRK_STAT_FALLBACK k = true ∧ t.on GEK_TRK_STAT_LOSS k = false ∧ t.pos k = s.pos k) := by
  intro t
  obtain ⟨u, hbefore, hafter⟩ := trkSources_at (s.encLost n) hk
  have hu : KeepsPage k s u := (encLost_page s n k).trans hbefore.page
  have hsrc := hon.keep hu hk
  have hpri : u.inputLoss (u.on GEK_TRK_CTL_SRC_ABS k) (u.get GEK_TRK_CTL_SRC k) = true := by
    rw [hsrc.loss]
    exact (hbefore.inputLoss false n.isLt).trans (encLost_inputs s n).1
  have hpos : t.pos k = s.pos k := ((hafter.page.pos hk).trans (KeepsPos.pos (KeepsPos.trkSource (WebKeeps.refl u) hk) hk)).trans (hu.pos hk)
  refine ⟨fun hsec => ?_, fun hsec hgood hother => ?_⟩
  · have hstep := trkSource_lost hsrc.en hsrc.primary hpri ((hu.on GEK_TRK_CTL_SEC_EN rfl hk).trans hsec)
    obtain ⟨hloss, hspeed, hvalid⟩ := trkLoss_shows u hk ((hu.on GEK_TRK_STAT_LOSS rfl hk).trans hl)
    rw [hstep] at hafter
    exact ⟨(hafter.page.on GEK_TRK_STAT_LOSS rfl hk).trans hloss, (hafter.page.get GEK_TRK_SPEED rfl hk).trans hspeed,
      (hafter.page.on GEK_TRK_STAT_SPEED_VALID rfl hk).trans hvalid, hpos⟩
  · have hgood' : u.inputLoss (u.on GEK_TRK_CTL_SEC_ABS k) (u.get GEK_TRK_CTL_SEC k) = false := by
      rw [hbefore.inputLoss _ (State.get_lt u GEK_TRK_CTL_SEC k 0 0), hu.on GEK_TRK_CTL_SEC_ABS rfl hk, hu.get GEK_TRK_CTL_SEC rfl hk, encLost_inputLoss s n hother, hgood]
    have hstep := trkSource_fallsBack hsrc.en hsrc.primary hpri ((hu.on GEK_TRK_CTL_SEC_EN rfl hk).trans hsec) hgood'
    obtain ⟨hfall, hloss⟩ := fallBack_shows u hk
    rw [hstep] at hafter
    exact ⟨(hafter.page.on GEK_TRK_STAT_FALLBACK rfl hk).trans hfall, (hafter.page.on GEK_TRK_STAT_LOSS rfl hk).trans hloss, hpos⟩

/-- Input `n` good again. -/
def State.encGood (s : State) (n : Nat) : State := (s.put GEK_ENC_STAT_LOSS false n).encLoss n false

theorem encGood_inputs (s : State) (n : Fin 8) : (s.encGood n).on GEK_ENC_STAT_LOSS n = false ∧ bitN ((s.encGood n).get GEK_STAT_ENC_LOSS) n = false := by
  refine ⟨?_, encLoss_bit ..⟩
  rw [State.on, State.encGood, State.encLoss, State.get_set_addr _ _ _ _ _ _ _ _ _ _ (by simp only [Fld.addr]; omega)]
  exact State.on_put_same s GEK_ENC_STAT_LOSS false n 0 0 rfl (by decide)

/-- A tracker on an input that is good again has no LOSS. -/
theorem encGood_tracker {s : State} {n : Fin 8} {k : Nat} (hk : k < 4) (hon : OnInput s k n) : (s.encGood n).trkSources.on GEK_TRK_STAT_LOSS k = false := by
  obtain ⟨u, hbefore, hafter⟩ := trkSources_at (s.encGood n) hk
  have hpage : KeepsPage k s (s.encGood n) := KeepsPage.input (KeepsPage.input (WebKeeps.refl s) GEK_ENC_STAT_LOSS _ n (by simp only [Fld.addr]; omega))
    GEK_STAT_ENC_LOSS _ 0 (by decide)
  have hsrc := hon.keep (hpage.trans hbefore.page) hk
  rw [trkSource_good hsrc.en hsrc.primary (hsrc.loss.trans ((hbefore.inputLoss false n.isLt).trans (encGood_inputs s n).1))] at hafter
  exact (hafter.page.on GEK_TRK_STAT_LOSS rfl hk).trans (State.on_put_same u GEK_TRK_STAT_LOSS false k 0 0 rfl (by decide))

/-- Fields of an input, and the LOSS bits of all inputs, once the sources have been judged. -/
theorem trkSources_get (s : State) (f : Fld) (i : Nat) (hf : f.addr i < 0x41000) (hlo : 0x40000 ≤ f.addr i) (hw : f.lo + f.width ≤ 12) :
    s.trkSources.get f i = s.get f i :=
  (trkSources_inputs s).get f i 0 0 (by simp only [webReg]; omega) fun n _ hn => ⟨hf, by omega⟩

theorem trkSources_on (s : State) (f : Fld) (n : Fin 8) (hf : f.addr n = GEK_ENC_STAT.addr n) (hw : f.lo + f.width ≤ 12) :
    s.trkSources.on f n = s.on f n := by
  rw [State.on, State.on, trkSources_get s f n _ _ hw]
  all_goals
    rw [hf]
    simp only [Fld.addr]
    omega

/-- Settles O24: the inputs show the LOSS, and each tracker's source is judged for itself. -/
theorem lossOfAnEncoderAndItsTrackers : Obligations.LossOfAnEncoderAndItsTrackers := by
  unfold Obligations.LossOfAnEncoderAndItsTrackers
  intro s n
  refine ⟨fun hen hl => ⟨_, exec_encLossDetect hen hl, ?_⟩, exec_encLossDetect_declared, ⟨_, exec_encLossClear s n, ?_⟩, fun hh => ⟨_, exec_encClr n hh, ?_⟩⟩
  · obtain ⟨hloss, hseen, hbit⟩ := encLost_inputs s n
    refine ⟨(trkSources_on _ GEK_ENC_STAT_LOSS n rfl (by decide)).trans hloss, (trkSources_on _ GEK_ENC_STAT_LOSS_SEEN n rfl (by decide)).trans hseen, ?_,
      fun k hk hen hfb habs hsrc hl => encLost_tracker hk ⟨hen, hfb, habs, hsrc⟩ hl⟩
    rw [trkSources_get _ GEK_STAT_ENC_LOSS 0 (by decide) (by decide) (by decide)]
    exact hbit
  · obtain ⟨hloss, hbit⟩ := encGood_inputs s n
    refine ⟨(trkSources_on _ GEK_ENC_STAT_LOSS n rfl (by decide)).trans hloss, ?_, fun k hk hen hfb habs hsrc => encGood_tracker hk ⟨hen, hfb, habs, hsrc⟩⟩
    rw [trkSources_get _ GEK_STAT_ENC_LOSS 0 (by decide) (by decide) (by decide)]
    exact hbit
  · refine ⟨?_, State.get_set_same _ GEK_ENC_ERR_ZCNT 0 n 0 0 (by decide), OnlyRegs_mono (OnlyRegs_trans (OnlyRegs_set ..) (OnlyRegs_set ..)) (by simp [Fld.addr])⟩
    rw [State.get_set_bits _ _ _ _ _ _ _ _ _ _ (by decide)]
    exact State.get_set_same s GEK_ENC_ERR_QERR 0 n 0 0 (by decide)

end Sys2Proof.Machine

/-! PROOFS. Speed at a gate's end and at a standstill, and the host's commands to a tracker (R57, R59 to R64, R67, R81). -/

namespace Sys2Proof.Machine

open Sys2Proof.Safety

theorem State.tk_setTk (s : State) (k : Nat) (x : Trk) : (s.setTk k x).tk k = x := smGet_put_same ..

/-- A change of registers beside the trackers. -/
theorem OnlyRegs_trk {A : List Nat} {s t : State} {m : SMap Trk} (h : OnlyRegs A { s with trk := m } t) : OnlyRegs A s { t with trk := s.trk } :=
  ⟨h.1, by rw [h.2]⟩

/-! ### The gate (R60, R61) -/

/-- A measured speed shows, and the tracker keeps it. -/
theorem measured_shows (s : State) (k : Nat) (num : Int) (den period : Nat) :
    (s.measured k num den period).get GEK_TRK_SPEED k = ux 32 (speedOf num den) ∧ (s.measured k num den period).on GEK_TRK_STAT_SPEED_VALID k = true ∧
      (s.measured k num den period).tk k = { s.tk k with spNum := num, spDen := den, period } ∧
      OnlyRegs [GEK_TRK_STAT.addr k, GEK_TRK_SPEED.addr k] (s.setTk k { s.tk k with spNum := num, spDen := den, period }) (s.measured k num den period) := by
  unfold State.measured
  dsimp only
  generalize hu : s.setTk k { s.tk k with spNum := num, spDen := den, period } = u
  have hspeed : (u.seti GEK_TRK_SPEED (speedOf num den) k).get GEK_TRK_SPEED k = ux 32 (speedOf num den) := by
    rw [State.seti, State.get_set_same _ _ _ _ _ _ (by decide)]
    refine Nat.mod_eq_of_lt ?_
    unfold ux
    omega
  refine ⟨?_, ?_, ?_, ?_⟩
  · rw [State.put, State.get_set_addr _ _ _ _ _ _ _ _ _ _ (by simp only [Fld.addr]; omega), State.put,
      State.get_set_addr _ _ _ _ _ _ _ _ _ _ (by simp only [Fld.addr]; omega), hspeed]
  · rw [State.on_put_bits _ _ _ _ _ _ _ (by decide)]
    exact State.on_put_same _ _ _ _ _ _ rfl (by decide)
  · exact hu ▸ State.tk_setTk ..
  · exact OnlyRegs_mono (OnlyRegs_trans (OnlyRegs_trans (OnlyRegs_set u GEK_TRK_SPEED _ k 0 0) (OnlyRegs_put _ GEK_TRK_STAT_SPEED_VALID true k 0 0))
      (OnlyRegs_put _ GEK_TRK_STAT_REVERSAL false k 0 0)) (by simp [Fld.addr])

/-- The steps of a gate of `n` counts, in the direction of travel. -/
def State.gateSteps (s : State) (k n : Nat) : Int :=
  if s.on GEK_TRK_STAT_DIR k then -((s.trkStep k).natAbs * (n - 1) : Int) else (s.trkStep k).natAbs * (n - 1)

/-- The gate's count begins anew. -/
def State.gateAnew (s : State) (k : Nat) : State := s.setTk k { s.tk k with gN := 0 }

/-- A gate of at least two counts measures. -/
def State.gateMeasured (s : State) (k : Nat) : State :=
  let g := s.tk k
  (s.gateAnew k).measured k (s.gateSteps k g.gN) (g.gLast - g.gFirst) ((g.gLast - g.gFirst) / (g.gN - 1))

theorem exec_speedGate_few {s : State} {k : Tn} {dt : Nat} (hen : (s.elapse dt).on GEK_TRK_CTL_EN k = true)
    (hg : (s.elapse dt).on GEK_TRK_STAT_GATE_MODE k = true) (hn : ((s.elapse dt).tk k).gN < 2) :
    exec (.speedGate k dt) s = .next (((s.elapse dt).gateAnew k).put GEK_TRK_STAT_GATE_MODE false k) := by
  show execSpeedGate k dt s = _
  simp only [execSpeedGate, hen, hg, hn, Bool.and_self, Bool.not_true, Bool.false_eq_true, if_false, if_true]
  rfl

/-- A gate that ends with counts enough measures; at a low speed the tracker goes back to period mode. -/
theorem exec_speedGate_many {s : State} {k : Tn} {dt : Nat} (hen : (s.elapse dt).on GEK_TRK_CTL_EN k = true)
    (hg : (s.elapse dt).on GEK_TRK_STAT_GATE_MODE k = true) (hn : 2 ≤ ((s.elapse dt).tk k).gN) :
    let z := s.elapse dt
    let t := z.gateMeasured k
    exec (.speedGate k dt) s = .next (if ((z.tk k).gN - 1) * sec1 < t.get GEK_TRK_SPD_LOW k * ((z.tk k).gLast - (z.tk k).gFirst)
      then t.put GEK_TRK_STAT_GATE_MODE false k else t) := by
  show execSpeedGate k dt s = _
  simp only [execSpeedGate, hen, hg, show ¬ ((s.elapse dt).tk k).gN < 2 by omega, Bool.and_self, Bool.not_true, Bool.false_eq_true, if_false]
  rfl

/-- What a gate that ends shows in either case. -/
structure GateShows (z : State) (k : Nat) (t : State) : Prop where
  speed : t.get GEK_TRK_SPEED k = ux 32 (speedOf (z.gateSteps k (z.tk k).gN) ((z.tk k).gLast - (z.tk k).gFirst))
  valid : t.on GEK_TRK_STAT_SPEED_VALID k = true
  anew : (t.tk k).gN = 0
  only : OnlyRegs [GEK_TRK_STAT.addr k, GEK_TRK_SPEED.addr k] z { t with trk := z.trk }

theorem gateMeasured_shows (z : State) (k : Nat) : GateShows z k (z.gateMeasured k) := by
  obtain ⟨hspeed, hvalid, htk, honly⟩ := measured_shows (z.gateAnew k) k (z.gateSteps k (z.tk k).gN) ((z.tk k).gLast - (z.tk k).gFirst)
    (((z.tk k).gLast - (z.tk k).gFirst) / ((z.tk k).gN - 1))
  refine ⟨hspeed, hvalid, ?_, OnlyRegs_trk (s := z) honly⟩
  rw [State.gateMeasured, htk, State.gateAnew, State.tk_setTk]

theorem GateShows.periodMode {z t : State} {k : Nat} (h : GateShows z k t) : GateShows z k (t.put GEK_TRK_STAT_GATE_MODE false k) := by
  refine ⟨?_, (State.on_put_bits _ _ _ _ _ _ _ (by decide)).trans h.valid, h.anew, ?_⟩
  · rw [State.put, State.get_set_addr _ _ _ _ _ _ _ _ _ _ (by simp only [Fld.addr]; omega)]
    exact h.speed
  · exact OnlyRegs_mono (OnlyRegs_trans h.only (OnlyRegs_put { t with trk := z.trk } GEK_TRK_STAT_GATE_MODE false k 0 0)) (by simp [Fld.addr])

theorem exec_speedGate_measures {s : State} {k : Tn} {dt : Nat} (hen : (s.elapse dt).on GEK_TRK_CTL_EN k = true)
    (hg : (s.elapse dt).on GEK_TRK_STAT_GATE_MODE k = true) (hn : 2 ≤ ((s.elapse dt).tk k).gN) :
    Gives (exec (.speedGate k dt) s) (GateShows (s.elapse dt) k) := by
  refine ⟨_, exec_speedGate_many hen hg hn, ?_⟩
  split
  · exact (gateMeasured_shows ..).periodMode
  · exact gateMeasured_shows ..

/-! ### Standstill (R62) -/

/-- A standstill's registers. -/
def State.standStill (s : State) (k : Nat) : State := ((s.noSpeed k).put GEK_TRK_STAT_STILL true k).put GEK_TRK_STAT_GATE_MODE false k

theorem exec_standstill {s : State} {k : Tn} (hen : s.on GEK_TRK_CTL_EN k = true) (hst : s.get GEK_TRK_STILL k ≠ 0)
    (hno : s.on GEK_TRK_STAT_STILL k = false) : exec (.standstill k) s = .next ((s.standStill k).raise EV_STANDSTILL 255) :=
  if_pos (by simp [hen, hst, hno])

theorem standStill_shows (s : State) (k : Nat) :
    (s.standStill k).get GEK_TRK_SPEED k = 0 ∧ (s.standStill k).on GEK_TRK_STAT_SPEED_VALID k = false ∧ (s.standStill k).on GEK_TRK_STAT_STILL k = true ∧
      (s.standStill k).on GEK_TRK_STAT_GATE_MODE k = false ∧ OnlyRegs [GEK_TRK_STAT.addr k, GEK_TRK_SPEED.addr k] s (s.standStill k) := by
  obtain ⟨hspeed, hvalid⟩ := noSpeed_shows s k
  refine ⟨?_, ?_, ?_, State.on_put_same _ _ _ _ _ _ rfl (by decide), ?_⟩
  · rw [State.standStill, State.put, State.get_set_addr _ _ _ _ _ _ _ _ _ _ (by simp only [Fld.addr]; omega), State.put,
      State.get_set_addr _ _ _ _ _ _ _ _ _ _ (by simp only [Fld.addr]; omega), hspeed]
  · rw [State.standStill, State.on_put_bits _ _ _ _ _ _ _ (by decide), State.on_put_bits _ _ _ _ _ _ _ (by decide), hvalid]
  · rw [State.standStill, State.on_put_bits _ _ _ _ _ _ _ (by decide)]
    exact State.on_put_same _ GEK_TRK_STAT_STILL true _ _ _ rfl (by decide)
  · exact OnlyRegs_mono (OnlyRegs_trans (OnlyRegs_trans (OnlyRegs_trans (OnlyRegs_set s GEK_TRK_SPEED 0 k 0 0)
      (OnlyRegs_put _ GEK_TRK_STAT_SPEED_VALID false k 0 0)) (OnlyRegs_put _ GEK_TRK_STAT_STILL true k 0 0))
      (OnlyRegs_put _ GEK_TRK_STAT_GATE_MODE false k 0 0)) (by simp [Fld.addr])

/-! ### LOAD and ARM (R59, R64) -/

theorem exec_trackerLoad {s : State} (k : Tn) (h : Hears s) : exec (.trackerLoad k) s = .next (s.trkLoad k) := heard_eq h _

theorem exec_trackerArm {s : State} (k : Tn) (h : Hears s) : exec (.trackerArm k) s = .next (s.trkArm k) := heard_eq h _

theorem sx_ux_sx (n : Nat) : sx 64 (ux 64 (sx 64 n)) = sx 64 n := by
  unfold sx ux
  split <;> split <;> omega

/-- A load where the mode allows it: P is the load value, without a fraction. -/
theorem trkLoad_loads {s : State} {k : Nat} (hk : k < 4) (hm : s.mode = 1 ∨ s.mode = 2 ∨ s.mode = 6) :
    (s.trkLoad k).pos k = s.geti64 GEK_TRK_LOAD_LO k ∧ ((s.trkLoad k).tk k).frac = 0 := by
  have hpage : KeepsPage k (s.setPos k (s.geti64 GEK_TRK_LOAD_LO k * 2 ^ 32) 0) (s.trkLoad k) := by
    rw [State.trkLoad, if_pos hm]
    refine WebKeeps.refreshBack ((WebKeeps.refl _).raise ..) k fun b _ => ?_
    simp only [trkPage, Fld.addr]
    omega
  refine ⟨?_, ?_⟩
  · rw [hpage.pos hk, pos_setPos, Int.mul_ediv_cancel _ (by decide), State.geti64, sx_ux_sx]
  · rw [hpage.tk k rfl, State.setPos, State.tk_setTk]
    simp

/-! ### The control register written (R57, R67, R81) -/

/-- Fall-back of tracker `k` ends. -/
def State.endFallBack (s : State) (k : Nat) : State :=
  (s.put GEK_TRK_STAT_FALLBACK false k).set GEK_STAT_FALLBACK (putBit (s.get GEK_STAT_FALLBACK) k false)

/-- What a write of the control register that left `t` brings, `s` the state before it: fall-back ends with EN changed or SEC_EN cleared, NEXT is
not established when EN is set. -/
def State.ctlChanged (s t : State) (k : Nat) : State :=
  let u := if s.on GEK_TRK_CTL_EN k != t.on GEK_TRK_CTL_EN k || (s.on GEK_TRK_CTL_SEC_EN k && !(t.on GEK_TRK_CTL_SEC_EN k)) then t.endFallBack k else t
  if !(s.on GEK_TRK_CTL_EN k) && t.on GEK_TRK_CTL_EN k then u.setTk k { u.tk k with est := false } else u

/-- Two bits of a word that read 0. -/
theorem getLsbD_of_getBits_zero {v : Word} {lo w i : Nat} (h : getBits v lo w = 0) (hlo : lo ≤ i) (hi : i < lo + w) : v.getLsbD i = false := by
  have hbit := testBit_getBits v lo w (i - lo)
  rw [h, Nat.zero_testBit, show lo + (i - lo) = i by omega, decide_eq_true (show i - lo < w by omega), Bool.true_and] at hbit
  exact hbit.symm

theorem putBits_zero {v : Word} {lo w : Nat} (h : getBits v lo w = 0) : putBits v lo w 0 = v := by
  refine BitVec.eq_of_getLsbD_eq fun i hi => ?_
  rw [getLsbD_putBits _ _ _ _ _ hi]
  split
  · next hin => rw [Nat.zero_testBit, getLsbD_of_getBits_zero h hin.1 hin.2]
  · rfl

theorem exec_trackerCtlWrite {s : State} (k : Tn) {v : BitVec 32} (h : Hears s) (hv : getBits v 20 2 = 0) : exec (.trackerCtlWrite k v) s =
    .next ((s.ctlChanged (s.hostWrite (GEK_TRK_CTL.addr k) v) k).trkSource k) := by
  have hpart : ∀ lo, 20 ≤ lo → lo < 22 → getBits v lo 1 = 0 := fun lo h0 h1 => by
    refine Nat.eq_of_testBit_eq fun i => ?_
    rw [testBit_getBits, Nat.zero_testBit]
    by_cases hi : i < 1
    · rw [getLsbD_of_getBits_zero hv (by omega) (by omega), Bool.and_false]
    · simp [hi]
  refine (heard_eq h _).trans ?_
  rw [putBits_zero (hpart 20 (by decide) (by decide)), hpart 20 (by decide) (by decide), hpart 21 (by decide) (by decide)]
  rfl

theorem trkCtl_taken (k : Tn) : (takenMask (GEK_TRK_CTL.addr k)).getLsbD 0 = true := by
  revert k
  decide +kernel

theorem trkCtl_en (k : Tn) (s : State) (v : Word) : (s.hostWrite (GEK_TRK_CTL.addr k) v).get GEK_TRK_CTL_EN k = getBits v 0 1 := by
  show getBits ((s.hostWrite (GEK_TRK_CTL.addr k) v).rd (GEK_TRK_CTL.addr k)) 0 1 = _
  rw [State.rd_hostWrite]
  exact getBits_writeBits_taken _ v fun i _ hi => by rw [show i = 0 by omega, trkCtl_taken]

/-- The control register and the position of tracker `k`. -/
def ctlOrPos (k a : Nat) : Prop := a = 0x41000 + 256 * k ∨ a = 0x41018 + 256 * k ∨ a = 0x4101c + 256 * k

theorem endFallBack_keeps (s : State) {k : Nat} (hk : k < 4) : WebKeeps (fun a _ => ctlOrPos k a) (fun _ => False) s (s.endFallBack k) := by
  refine ((WebKeeps.refl s).setOwn GEK_TRK_STAT_FALLBACK _ k 0 0 (by simp only [Fld.addr]; omega)
    fun n _ _ => ?_).setOwn GEK_STAT_FALLBACK _ 0 0 0 (by simp only [Fld.addr]; omega) fun n _ _ => ?_
  all_goals
    simp only [ctlOrPos, Fld.addr]
    omega

theorem ctlChanged_keeps (s t : State) {k : Nat} (hk : k < 4) : WebKeeps (fun a _ => ctlOrPos k a) (fun _ => False) t (s.ctlChanged t k) := by
  unfold State.ctlChanged
  extract_lets u
  have hu : WebKeeps (fun a _ => ctlOrPos k a) (fun _ => False) t u := by
    simp only [u]
    split
    · exact endFallBack_keeps t hk
    · exact WebKeeps.refl t
  split
  · exact hu.setTk _ not_false
  · exact hu

/-- The control register and the position stand through what a write brings. -/
theorem ctlWritten_keeps (s t : State) {k : Nat} (hk : k < 4) : WebKeeps (fun a _ => ctlOrPos k a) (fun _ => False) t ((s.ctlChanged t k).trkSource k) := by
  refine (ctlChanged_keeps s t hk).trkSource hk (fun n => ?_) (fun n => ?_) fun n _ _ => ?_
  all_goals
    simp only [ctlOrPos, Fld.addr]
    omega

/-- With EN cleared the tracker is not judged, and fall-back has ended. -/
theorem ctlWritten_off {s t : State} {k : Nat} (hk : k < 4) (hen : s.on GEK_TRK_CTL_EN k = true) (hoff : t.on GEK_TRK_CTL_EN k = false) :
    ((s.ctlChanged t k).trkSource k).on GEK_TRK_STAT_FALLBACK k = false := by
  have hchanged : s.ctlChanged t k = t.endFallBack k := by simp [State.ctlChanged, hen, hoff]
  have hoff' : (t.endFallBack k).on GEK_TRK_CTL_EN k = false := by
    rw [State.on, (endFallBack_keeps t hk).get GEK_TRK_CTL_EN k 0 0 (by simp only [webReg, Fld.addr]; omega) fun n _ _ => Or.inl (by simp [Fld.addr])]
    exact hoff
  rw [hchanged, State.trkSource, if_pos (by simp [hoff']), State.on, State.endFallBack,
    State.get_set_addr _ _ _ _ _ _ _ _ _ _ (by simp only [Fld.addr]; omega)]
  exact State.on_put_same t GEK_TRK_STAT_FALLBACK false k 0 0 rfl (by decide)

/-- Settles O26: a gate and a standstill write the tracker's speed and status, a load its position, and a write of its control register that register. -/
theorem speedStandstillAndTrackerCommands : Obligations.SpeedStandstillAndTrackerCommands := by
  unfold Obligations.SpeedStandstillAndTrackerCommands
  intro s k dt v
  refine ⟨fun hen hg => ⟨fun hn => ⟨_, exec_speedGate_few hen hg hn, ?_⟩, fun hn => ?_⟩, fun hen hst hno => ⟨_, exec_standstill hen hst hno, ?_⟩,
    fun hh => ⟨fun hm => ⟨_, exec_trackerLoad k hh, ?_⟩, fun hm => ⟨_, exec_trackerLoad k hh, ?_⟩, ⟨_, exec_trackerArm k hh, ?_⟩,
      fun hv => ⟨_, exec_trackerCtlWrite k hh hv, ?_⟩⟩⟩
  · refine ⟨State.on_put_same _ _ _ _ _ _ rfl (by decide), ?_, ?_, OnlyRegs_trk (s := s.elapse dt) (OnlyRegs_put _ GEK_TRK_STAT_GATE_MODE false k 0 0)⟩
    · rw [State.put, State.get_set_addr _ _ _ _ _ _ _ _ _ _ (by simp only [Fld.addr]; omega)]
      rfl
    · exact congrArg Trk.gN (State.tk_setTk ..)
  · obtain ⟨t, hexec, hspeed, hvalid, hanew, honly⟩ := exec_speedGate_measures hen hg hn
    exact ⟨t, hexec, hspeed, hvalid, hanew, honly⟩
  · obtain ⟨hspeed, hvalid, hstill, hgate, honly⟩ := standStill_shows s k
    have hraise : KeepsPage k (s.standStill k) ((s.standStill k).raise EV_STANDSTILL 255) := (WebKeeps.refl _).raise ..
    have hk := k.isLt
    exact ⟨(hraise.get GEK_TRK_SPEED rfl hk).trans hspeed, (hraise.on GEK_TRK_STAT_SPEED_VALID rfl hk).trans hvalid, (hraise.on GEK_TRK_STAT_STILL rfl hk).trans hstill,
      (hraise.on GEK_TRK_STAT_GATE_MODE rfl hk).trans hgate, OnlyEv_mono (OnlyEv_trans (OnlyEv_of_regs honly) (raise_only ..)) (by simp)⟩
  · exact trkLoad_loads k.isLt (by simpa using hm)
  · have hm : ¬(s.mode = 1 ∨ s.mode = 2 ∨ s.mode = 6) := by simpa using hm
    rw [State.trkLoad, if_neg hm]
    have honly := OnlyRegs_put s GEK_TRK_STAT_LOAD_ERR true k 0 0
    exact ⟨State.on_put_same _ _ _ _ _ _ rfl (by decide),
      State.geti64_congr _ _ _ _ (honly.1 _ (by simp [Fld.addr])) (honly.1 _ (by simp [Fld.addr]; omega)), honly⟩
  · refine ⟨?_, State.on_put_same _ _ _ _ _ _ rfl (by decide),
      OnlyRegs_mono (OnlyRegs_trans (OnlyRegs_put s GEK_TRK_CTL_ARM true k 0 0) (OnlyRegs_put _ GEK_TRK_STAT_ARMED true k 0 0)) (by simp [Fld.addr])⟩
    rw [State.on, State.trkArm, State.put, State.get_set_addr _ _ _ _ _ _ _ _ _ _ (by simp only [Fld.addr]; omega)]
    exact State.on_put_same s GEK_TRK_CTL_ARM true k 0 0 rfl (by decide)
  · have hkeeps := ctlWritten_keeps s (s.hostWrite (GEK_TRK_CTL.addr k) v) k.isLt
    have hother := (OnlyRegs_hostWrite s (GEK_TRK_CTL.addr k) v).1
    refine ⟨?_, ?_, fun hen hoff => ctlWritten_off k.isLt hen (by simp [State.on, trkCtl_en, hoff])⟩
    · rw [hkeeps.rd (by simp only [webReg, Fld.addr]; omega) fun _ _ => Or.inl (by simp [Fld.addr]), State.rd_hostWrite]
    · refine State.geti64_congr _ _ _ _ ((hkeeps.rd (by simp only [webReg, Fld.addr]; omega) fun _ _ => ?_).trans (hother _ (by simp [Fld.addr])))
        ((hkeeps.rd (by simp only [webReg, Fld.addr]; omega) fun _ _ => ?_).trans (hother _ (by simp [Fld.addr]; omega)))
      · exact Or.inr (Or.inl (by simp [Fld.addr]))
      · exact Or.inr (Or.inr (by simp only [Fld.addr]; omega))

end Sys2Proof.Machine

/-! SUPPORT for the proofs. What a hit of a line clock brings leaves the clocks' own registers: lines sent, late and retired, boundaries and transitions,
sheaves, corrections (R21, R27, R70, R75, R198, R269, R405). -/

namespace Sys2Proof.Machine

open Sys2Proof.Safety

/-! ### Bits of the line clocks' registers -/

/-- Every bit but BACK and SPREADING of the line clocks. -/
def quietBit (a i : Nat) : Prop := ¬(0x42000 ≤ a ∧ a < 0x42800 ∧ a % 128 = 4 ∧ (i = 0 ∨ i = 2))

/-- DELAYED of the line clocks. -/
def delayedBit (a i : Nat) : Prop := 0x42000 ≤ a ∧ a < 0x42800 ∧ a % 128 = 4 ∧ i = 1

/-- COMPARE, LINE, the high-water mark, MINGAP and SKIP of line clock `b`. -/
def countWord (b a : Nat) : Prop := 0x42018 + 128 * b ≤ a ∧ a < 0x4203c + 128 * b

/-- Those of line clock `b`, and DELAYED of all. -/
def hitBit (b a i : Nat) : Prop := delayedBit a i ∨ countWord b a

/-- COMPARE has three registers. -/
theorem compare_congr {s t : State} {b : Nat} (h : ∀ a, 0x42018 + 128 * b ≤ a → a ≤ 0x42020 + 128 * b → t.rd a = s.rd a) : t.compare b = s.compare b := by
  rw [State.compare, State.compare, State.get_congr GEK_LC_CMP_FRAC b 0 0 (h _ ?_ ?_), State.get_congr GEK_LC_CMP_LO b 0 0 (h _ ?_ ?_),
    State.get_congr GEK_LC_CMP_HI b 0 0 (h _ ?_ ?_)]
  all_goals
    simp only [Fld.addr]
    omega

namespace WebKeeps

variable {R : Nat → Nat → Prop} {K : Nat → Prop} {s t u : State}

/-- What a line clock shows stands with its registers. -/
theorem counts (h : WebKeeps R K s t) {b : Nat} (hb : b < 16) (hR : ∀ a i, countWord b a → R a i) :
    t.line b = s.line b ∧ t.compare b = s.compare b ∧ t.get GEK_LC_SKIP b = s.get GEK_LC_SKIP b ∧ t.geti64 GEK_LC_HWM_LO b = s.geti64 GEK_LC_HWM_LO b := by
  have hrd : ∀ a, countWord b a → t.rd a = s.rd a := fun a ha => h.rd (by simp only [countWord, webReg] at ha ⊢; omega) fun i _ => hR a i ha
  refine ⟨State.geti64_congr _ _ _ _ (hrd _ ?_) (hrd _ ?_), compare_congr fun a h0 h1 => hrd a ?_, State.get_congr _ _ _ _ (hrd _ ?_),
    State.geti64_congr _ _ _ _ (hrd _ ?_) (hrd _ ?_)⟩
  all_goals
    simp only [countWord, Fld.addr] at *
    omega

theorem delayed (h : WebKeeps R K s t) {b : Nat} (hb : b < 16) (hR : ∀ a i, delayedBit a i → R a i) :
    t.on GEK_LC_STAT_DELAYED b = s.on GEK_LC_STAT_DELAYED b := by
  rw [State.on, State.on, h.get GEK_LC_STAT_DELAYED b 0 0 (by simp only [webReg, Fld.addr]; omega) fun n (h0 : 1 ≤ n) (h1 : n < 1 + 1) => hR _ _ ?_]
  obtain rfl : n = 1 := by omega
  simp only [delayedBit, Fld.addr, and_true]
  omega

/-! ### Corrections (R70, R75) -/

theorem setOffCorr (h : WebKeeps R K s t) (hq : ∀ a i, R a i → quietBit a i) {b : Nat} (c : Int) (n : Nat) (hb : b < 16) :
    WebKeeps R K s (t.setOffCorr b c n) :=
  (h.same ⟨rfl, rfl, rfl⟩ (u := t.setLk b { t.lk b with offC := c, offK := n })).setOwn GEK_LC_STAT_SPREADING _ b 0 0
    (by simp only [Fld.addr]; omega) fun i (h0 : 2 ≤ i) (h1 : i < 2 + 1) hR => by
    have := hq _ _ hR
    simp only [quietBit, Fld.addr] at this
    omega

theorem quietBack (h : WebKeeps R K s t) (hq : ∀ a i, R a i → quietBit a i) (k : Nat) : WebKeeps R K s (t.refreshBack k) :=
  h.refreshBack k fun b hb hR => by
    have := hq _ _ hR
    simp only [quietBit, Fld.addr, true_or, and_true] at this
    omega

theorem moveOffset (h : WebKeeps R K s t) (hq : ∀ a i, R a i → quietBit a i) (b : Nat) (q : Int) : WebKeeps R K s (t.moveOffset b q) :=
  quietBack (h.same ⟨by rfl, by rfl, by rfl⟩) hq _

theorem offStep (h : WebKeeps R K s t) (hq : ∀ a i, R a i → quietBit a i) {b : Nat} (hb : b < 16) : WebKeeps R K s (t.offStep b) := by
  unfold State.offStep
  dsimp only
  split
  · exact h
  · exact (h.setOffCorr hq _ _ hb).moveOffset hq _ _

/-- A step of a tracker's correction writes the tracker's own registers, and BACK. -/
theorem corrStep (h : WebKeeps R K s t) (hq : ∀ a i, R a i → quietBit a i) {k : Nat} (hk : k < 4) (hR : ∀ a i, trkPage k a → ¬ R a i) (hK : ¬ K k) :
    WebKeeps R K s (t.corrStep k) := by
  have hpage : ∀ {f : Fld}, trkPage k (f.addr k) → ∀ i, ¬ R (f.addr k) i := fun hf i => hR _ i hf
  unfold State.corrStep
  extract_lets n c q
  split
  · exact h
  · have hpos : ∀ z a, WebKeeps R K s (t.setPos k z a) := fun z a =>
      (h.set64Own GEK_TRK_POS_LO _ k 0 0 (by simp only [Fld.addr]; omega)
        (hpage (by simp only [trkPage, Fld.addr]; omega)) (fun i => hR _ i (by simp only [trkPage, Fld.addr]; omega))).setTk _ hK
    refine quietBack (setTk (setOwn (setOwn (hpos _ _) GEK_TRK_CORR_REM _ k 0 0
      (by simp only [Fld.addr]; omega) fun i _ _ => ?_) GEK_TRK_STAT_SPREADING _ k 0 0 (by simp only [Fld.addr]; omega)
      fun i _ _ => ?_) _ hK) hq _
    all_goals exact hpage (by simp only [trkPage, Fld.addr]; omega) i

/-- Sheet edges that retire change the tracker's queue of them. -/
theorem retireEdges (h : WebKeeps R K s t) {k : Nat} (hk : k < 4) (hR : ∀ a i, trkPage k a → ¬ R a i) (hK : ¬ K k) : WebKeeps R K s (t.retireEdges k) :=
  (h.setTk _ hK).setOwn GEK_TRK_SHEET_Q_LEVEL _ k 0 0 (by simp only [Fld.addr]; omega) fun i _ _ => hR _ i (by simp only [trkPage, Fld.addr]; omega)

/-! ### Lines sent and late (R21, R262, R269, R279) -/

theorem sendLine (h : WebKeeps R K s t) (p : Nat) (x : Int) (flags : Nat) (words : List Dword) : WebKeeps R K s (t.sendLine p x flags words) := by
  unfold State.sendLine
  extract_lets hp gap
  exact ((h.same ⟨rfl, rfl, rfl⟩ (u := t.setHp p _)).set64 HPL_PORT_SENT_LO (x + 1) p 0 0 rfl).same ⟨rfl, rfl, rfl⟩

theorem sendContent (h : WebKeeps R K s t) (p : Nat) (x : Int) : WebKeeps R K s (t.sendContent p x) := by
  unfold State.sendContent
  split
  · split
    · exact h.sendLine ..
    · exact h.sendLine ..
  · extract_lets hp a ws odd
    split_ifs
    · exact (h.mem (saw_onlyMem t a (8 * ws.length))).same ⟨rfl, rfl, rfl⟩
    · exact h.sendLine ..
    · exact ((h.addSat HPL_PORT_CNT_PARITY odd p 0 0 rfl).raiseLim EV_RING_PARITY (portUnit p) p sec1 []).same ⟨rfl, rfl, rfl⟩

theorem sendWaiting {p : Nat} {y : Int} (fuel : Nat) : ∀ {t : State}, WebKeeps R K s t → WebKeeps R K s (t.sendWaiting p y fuel) := by
  induction fuel with
  | zero => exact fun h => h
  | succ n ih =>
    intro t h
    unfold State.sendWaiting
    dsimp only
    split
    · exact ih (h.sendContent ..)
    · exact h

theorem fillLine (h : WebKeeps R K s t) (p : Nat) (y : Int) : WebKeeps R K s (t.fillLine p y) :=
  ((sendWaiting 16 h).addSat HPL_PORT_CNT_LATE 1 p 0 0 rfl).sendLine ..

theorem portUnit_lt {b p : Nat} (hp : p ∈ t.portsOf b) : portUnit p < 0x100 := by
  have := portsOf_lt hp
  unfold portUnit
  omega

theorem deadline (h : WebKeeps R K s t) {b : Nat} (y : Int) (hb : b < 16) : WebKeeps R K s (t.deadline b y) := by
  unfold State.deadline
  extract_lets m ps late twn s1 s2
  split
  · exact h
  · have h1 : WebKeeps R K s s1 := h.each fun _ _ _ hu => hu.fillLine ..
    have h2 : WebKeeps R K s s2 := by
      simp only [s2]
      split_ifs
      · exact (h.same ⟨rfl, rfl, rfl⟩ (u := { t with twn.tkGap := smPut (fun _ => false) t.twn.tkGap b false })).barRun 3 hb
      · exact ((h1.addSat TWN_GAP_N_LINES 1 b 0 0 rfl).rejLines ..).stall 3 (by omega)
      · exact ((h1.raise ..).rejLines ..).stall 3 (by omega)
    refine (h2.each fun p u hp hu => ?_).refreshBar hb
    have hn := portUnit_lt hp
    split
    · exact hu.stall _ hn
    · exact hu.unstall _ _ hn

theorem gapLine (h : WebKeeps R K s t) (b : Nat) (x : Int) : WebKeeps R K s (t.gapLine b x) := by
  refine (h.cond fun _ => h.rejLines ..).each fun p u _ hu => ?_
  split
  · split
    · exact hu.same ⟨rfl, rfl, rfl⟩
    · exact hu
  · exact hu

theorem spanCheck (h : WebKeeps R K s t) {b : Nat} (x : Int) (hb : b < 16) : WebKeeps R K s (t.spanCheck b x) := by
  unfold State.spanCheck
  extract_lets p s1 fires
  have h1 : WebKeeps R K s s1 := h.same ⟨rfl, rfl, rfl⟩
  refine h1.each fun c u _ hu => ?_
  split
  · exact hu.stall _ (by omega)
  · exact hu.barRun _ hb

/-! ### Boundaries, staged transitions, the end of a job (R27, R130, R405, R432) -/

theorem takeOverBar (h : WebKeeps R K s t) (b : Nat) : WebKeeps R K s (t.takeOverBar b) := by
  unfold State.takeOverBar
  extract_lets x s1
  have h1 : WebKeeps R K s s1 := h.each fun _ _ _ hu => hu.same ⟨rfl, rfl, rfl⟩
  split
  · exact (h1.set TWN_GAP_FIRST_LINE _ b 0 0 rfl).set TWN_GAP_N_LINES _ b 0 0 rfl
  · extract_lets f s2 twn s3
    have h2 : WebKeeps R K s s2 := (h1.set TWN_GAP_FIRST_LINE _ b 0 0 rfl).set TWN_GAP_N_LINES _ b 0 0 rfl
    exact (h2.same ⟨rfl, rfl, rfl⟩ (u := s3)).rejLines ..

theorem moveBar (h : WebKeeps R K s t) (x : ModeTr) {b : Nat} (hb : b < 16) : WebKeeps R K s (t.moveBar x b) := by
  unfold State.moveBar
  extract_lets s1 s2 x' s3
  have h1 : WebKeeps R K s s1 := h.cond fun _ => h.nhEnter
  have h2 : WebKeeps R K s s2 := (h1.setBarMode ..).latchAll _
  split
  · exact h2.finishTr x'
  · have h3 : WebKeeps R K s s3 := h2.same ⟨rfl, rfl, rfl⟩
    exact (h3.each fun p u hp hu => hu.refreshPort (portsOf_lt hp)).refreshBar hb

theorem moveBarAt (h : WebKeeps R K s t) (x : ModeTr) {b : Nat} (p : Int) (hb : b < 16) : WebKeeps R K s (t.moveBarAt x b p) := by
  unfold State.moveBarAt
  extract_lets up old s1 s2
  have h1 : WebKeeps R K s s1 := by
    simp only [s1]
    split
    · exact h.same ⟨rfl, rfl, rfl⟩
    · exact h
  have h2 : WebKeeps R K s s2 := by
    simp only [s2]
    split
    · split
      · exact (h1.same ⟨rfl, rfl, rfl⟩ (u := { s1 with holdAt := none })).reject ..
      · exact h1
    · exact h1
  exact (h2.cond fun _ => h2.takeOverBar b).moveBar x hb

theorem stage (h : WebKeeps R K s t) {b : Nat} (x : Int) (bs : List (Int × Nat)) (hb : b < 16) : WebKeeps R K s (t.stage b x bs) := by
  unfold State.stage
  split
  · exact h
  · next tr _ =>
    split
    · exact h
    · split
      · exact h.moveBarAt _ _ hb
      · extract_lets tr' s1
        have h1 : WebKeeps R K s s1 := h.same ⟨rfl, rfl, rfl⟩
        split
        · split
          · exact h1.moveBarAt _ _ hb
          · exact h1
        · exact h1

theorem barEnds (h : WebKeeps R K s t) (b : Nat) : WebKeeps R K s (t.barEnds b) := by
  unfold State.barEnds
  extract_lets s1
  have h1 : WebKeeps R K s s1 := h.same ⟨rfl, rfl, rfl⟩
  split_ifs
  · exact h
  · exact h1.preempt.setMode ..
  · exact h1

/-! ### Points and sheaves (R20, R198, R322) -/

theorem refreshPoint (h : WebKeeps R K s t) (b : Nat) : WebKeeps R K s (t.refreshPoint b) := by
  unfold State.refreshPoint
  extract_lets p lead behind st low s1 s2 s3 s4
  split
  · exact h.set CMP_CP_STAT_STATE 0 b 0 0 rfl
  · have h1 : WebKeeps R K s s1 := h.cond fun _ => (h.addSat CMP_CP_CNT_LEADLOW 1 b 0 0 rfl).raise ..
    have h2 : WebKeeps R K s s2 := h1.put CMP_CP_STAT_LEAD_LOW _ b 0 0 rfl
    have h3 : WebKeeps R K s s3 := h2.put CMP_CP_STAT_CATCHUP _ b 0 0 rfl
    have h4 : WebKeeps R K s s4 := h3.set CMP_CP_STAT_LEAD _ b 0 0 rfl
    exact h4.set CMP_CP_STAT_STATE _ b 0 0 rfl

theorem loopRetired (h : WebKeeps R K s t) (rep : Nat) : WebKeeps R K s (t.loopRetired rep) := by
  unfold State.loopRetired
  extract_lets s1
  have h1 : WebKeeps R K s s1 := h.each fun ch u _ hu => by
    have hcur := (hu.set64 CHL_CH_CUR_LO (if u.get64 CHL_CH_CUR_LO ch = u.get64 CHL_CH_BUF_LO ch then (u.get64 CHL_CH_BUF_LO ch + 4096 : Nat)
      else (u.get64 CHL_CH_BUF_LO ch : Nat)) ch 0 0 rfl).set CHL_CH_APPLIED rep ch 0 0 rfl
    exact hcur.cond fun _ => hcur.set CHL_CH_STAT_STATE 3 ch 0 0 rfl
  exact (h1.same ⟨rfl, rfl, rfl⟩ (u := { s1 with chlPend := [] })).put CHL_SHEAF_PENDING false 0 0 0 rfl

theorem retireSheaves (h : WebKeeps R K s t) : WebKeeps R K s t.retireSheaves := by
  unfold State.retireSheaves
  extract_lets off l gone s1
  have h1 : WebKeeps R K s s1 := (h.same ⟨rfl, rfl, rfl⟩ (u := { t with sheaves := l.filter fun h => (h.applied ||| h.skipped) != h.mask })).each fun x u _ hu =>
    (hu.cond fun _ => hu.loopRetired x.rep).qSend _ (by decide)
  exact h1.refreshSheaves

end WebKeeps

end Sys2Proof.Machine

/-! PROOFS. A line clock's hit (R71 to R75, R99): O27. -/

namespace Sys2Proof.Machine

open Sys2Proof.Safety

/-! ### LINE and COMPARE in their registers -/

theorem sx_ux_of_mem {z : Int} (hlo : -2 ^ 63 ≤ z) (hhi : z < 2 ^ 63) : sx 64 (ux 64 z) = z := by
  unfold sx ux
  split <;> omega

theorem neg_le_sx (n : Nat) : -2 ^ 63 ≤ sx 64 n := by
  unfold sx
  split <;> omega

theorem compare_setCompare (s : State) (b : Nat) (z : Int) : (s.setCompare b z).compare b = sx 96 (ux 96 z) := by
  have hn : ux 96 z < 2 ^ 96 := by
    unfold ux
    omega
  unfold State.compare State.setCompare
  dsimp only
  generalize ux 96 z = n at hn ⊢
  have hfrac : (((s.set GEK_LC_CMP_FRAC n b).set GEK_LC_CMP_LO (n / 2 ^ 32) b).set GEK_LC_CMP_HI (n / 2 ^ 64) b).get GEK_LC_CMP_FRAC b = n % 2 ^ 32 := by
    rw [State.get_set_addr _ _ _ _ _ _ _ _ _ _ (by simp [Fld.addr]), State.get_set_addr _ _ _ _ _ _ _ _ _ _ (by simp [Fld.addr]),
      State.get_set_same _ _ _ _ _ _ (by decide)]
  have hlo : (((s.set GEK_LC_CMP_FRAC n b).set GEK_LC_CMP_LO (n / 2 ^ 32) b).set GEK_LC_CMP_HI (n / 2 ^ 64) b).get GEK_LC_CMP_LO b =
      n / 2 ^ 32 % 2 ^ 32 := by
    rw [State.get_set_addr _ _ _ _ _ _ _ _ _ _ (by simp [Fld.addr]), State.get_set_same _ _ _ _ _ _ (by decide)]
  rw [hfrac, hlo, State.get_set_same _ GEK_LC_CMP_HI _ _ _ _ (by decide)]
  congr 1
  change n % 2 ^ 32 + 2 ^ 32 * (n / 2 ^ 32 % 2 ^ 32) + 2 ^ 64 * (n / 2 ^ 64 % 2 ^ 32) = n
  omega

/-- COMPARE written changes its registers. -/
theorem OnlyRegs_setCompare (s : State) (b : Nat) (z : Int) :
    OnlyRegs [GEK_LC_CMP_FRAC.addr b, GEK_LC_CMP_LO.addr b, GEK_LC_CMP_HI.addr b] s (s.setCompare b z) :=
  OnlyRegs_trans (OnlyRegs_trans (OnlyRegs_set ..) (OnlyRegs_set ..)) (OnlyRegs_set ..)

/-- Line clock `b` passes `k` compares under the pitch in force. -/
def State.passCompares (s : State) (b k : Nat) : State := (s.set64 GEK_LC_LINE_LO (s.line b + k) b).setCompare b (s.compare b + k * s.lcPitch b)

theorem compare_passCompares (s : State) (b k : Nat) : (s.passCompares b k).compare b = sx 96 (ux 96 (s.compare b + k * s.lcPitch b)) :=
  compare_setCompare ..

theorem line_passCompares (s : State) {b k : Nat} (hk : s.line b + k < 2 ^ 63) : (s.passCompares b k).line b = s.line b + k := by
  have hlo := neg_le_sx (s.get64 GEK_LC_LINE_LO b)
  have hother := (OnlyRegs_setCompare (s.set64 GEK_LC_LINE_LO (s.line b + k) b) b (s.compare b + k * s.lcPitch b)).1
  rw [State.line, State.passCompares, State.geti64_congr _ _ _ _ (hother _ (by simp [Fld.addr])) (hother _ (by simp [Fld.addr]; omega)), State.geti64,
    State.get64_set64, sx_ux_of_mem _ hk]
  change -2 ^ 63 ≤ sx 64 (s.get64 GEK_LC_LINE_LO b) + k
  omega

theorem skip_passCompares (s : State) (b k : Nat) : (s.passCompares b k).get GEK_LC_SKIP b = s.get GEK_LC_SKIP b := by
  refine State.get_congr _ _ _ _ ?_
  rw [State.passCompares, (OnlyRegs_setCompare _ b _).1 _ (by simp [Fld.addr]), State.rd_set64_other _ _ _ _ _ _ (by simp [Fld.addr])
    (by simp [Fld.addr]; omega)]

/-- With nothing due on the fire side and pitches above 0, the clock passes every compare that B has reached at once (R71, R72). -/
theorem advance_passCompares {s : State} {b : Nat} {bp : Int} (hf : (s.cp b).fire = []) (hp : 0 < s.lcPitch b) (hc : s.compare b ≤ bp)
    (hk : 1 + ((bp - s.compare b) / s.lcPitch b).toNat ≤ 2 ^ 64) :
    s.advance b bp (2 ^ 64) 1 = s.passCompares b (1 + ((bp - s.compare b) / s.lcPitch b).toNat) := by
  have htake : s.fireTake b (s.line b) = s := by simp [State.fireTake, hf]
  have hmin : min (((bp - s.compare b) / s.lcPitch b).toNat + 1) (2 ^ 64) = 1 + ((bp - s.compare b) / s.lcPitch b).toNat := by omega
  unfold State.advance
  simp only [htake, hf, List.map_nil, List.foldl_nil, if_neg (show ¬(bp < s.compare b ∨ 2 ^ 64 = 0) by omega), if_neg (show ¬ s.lcPitch b = 0 by omega), hmin]
  rfl

/-! ### Latches of every engine (R99) -/

/-- The latches 0 to 31 of an engine are the bits of ENG_EVLATCH0. -/
theorem latch_evlatch0 (s : State) (e : Nat) {k : Nat} (hk : k < 32) : s.latch e k =
    if bitN (s.get ENG_EVLATCH0 e) k then
      { s with latchMore := smPut (fun _ => 0) s.latchMore e (putBit (smGet (fun _ => 0) s.latchMore e) k true) }
    else s.set ENG_EVLATCH0 (putBit (s.get ENG_EVLATCH0 e) k true) e := by
  simp only [State.latch, if_pos hk, Nat.mod_eq_of_lt hk]

/-- A latch that is set shows. -/
theorem bitN_latch_self (s : State) (e : Nat) {k : Nat} (hk : k < 32) : bitN ((s.latch e k).get ENG_EVLATCH0 e) k = true := by
  rw [latch_evlatch0 s e hk]
  split
  · assumption
  · rw [State.get_set_same _ _ _ _ _ _ (by decide), bitN_testBit, Nat.testBit_mod_two_pow, testBit_putBit]
    simp [hk]

theorem bitN_get_evlatch0 (s : State) (e k : Nat) : bitN (s.get ENG_EVLATCH0 e) k = (s.rd (ENG_EVLATCH0.addr e)).getLsbD k := by
  rw [bitN_testBit, State.get, getBits_word, BitVec.getLsbD]

/-- A latch that is set stays, whatever of the above follows. -/
theorem WebKeeps.evlatch0 {R : Nat → Nat → Prop} {K : Nat → Prop} {s t : State} (h : WebKeeps R K s t) {e k : Nat} (he : e < 28)
    (hs : bitN (s.get ENG_EVLATCH0 e) k = true) : bitN (t.get ENG_EVLATCH0 e) k = true := by
  rw [bitN_get_evlatch0] at hs ⊢
  exact h.latches _ _ (by simp only [Fld.addr]; omega) (by simp only [Fld.addr]; omega) hs

theorem bitN_latchAll_evlatch0 (s : State) {e k : Nat} (he : e < 28) (hk : k < 32) : bitN ((s.latchAll k).get ENG_EVLATCH0 e) k = true := by
  have each : ∀ n ≤ 28, ∀ x < n, bitN ((s.each (List.range n) fun e s => s.latch e k).get ENG_EVLATCH0 x) k = true := fun n => by
    induction n with
    | zero => exact fun _ x hx => absurd hx (Nat.not_lt_zero x)
    | succ n ih =>
      intro hn x hx
      rw [State.each_range_succ]
      by_cases heq : x = n
      · exact heq ▸ bitN_latch_self _ _ hk
      · exact ((WebKeeps.refl (R := fun _ _ => False) (K := fun _ => False) _).latch n k (by omega)).evlatch0 (by omega) (ih (by omega) x (by omega))
  exact each 28 (Nat.le_refl _) e he

/-! ### The hit -/

/-- LINE and COMPARE advanced as far as one hit takes them. -/
def State.hitLines (s : State) (b : Nat) (bp : Int) : State :=
  s.advance b bp (if s.on GEK_LC_CTL_SHEET b then s.get GEK_LC_SHEET_LINES b - (s.lk b).done else 2 ^ 64) ((s.cp b).fire.length + 1)

/-- The high-water mark and SKIP after a hit of `k` lines. -/
def State.hitCounts (s : State) (b : Nat) (bp : Int) (k : Nat) : State :=
  (s.set64 GEK_LC_HWM_LO (bp / 2 ^ 32) b).cond (decide (1 < k)) fun s => s.addSat GEK_LC_SKIP (k - 1) b

theorem hitBit_quiet {b : Nat} : ∀ a i, hitBit b a i → quietBit a i := by
  simp only [hitBit, delayedBit, countWord, quietBit]
  omega

theorem hit_still {s : State} {b : Nat} {bp : Int} (h : ((s.hitLines b bp).line b - s.line b).toNat = 0) : s.hit b bp = s.hitLines b bp := by
  unfold State.hit
  extract_lets x sheet left s1 y k
  exact if_pos h

/-- A count raised in two states that agree on it. -/
theorem WebKeeps.addSatBoth {R : Nat → Nat → Prop} {K : Nat → Prop} {s t : State} (h : WebKeeps R K s t) (f : Fld) (n i j k : Nat)
    (hR : ∀ m, m < 32 → R (f.addr i j k) m) (ha : webReg (f.addr i j k)) : WebKeeps R K (s.addSat f n i j k) (t.addSat f n i j k) := by
  have hrd := h.rd ha hR
  refine ⟨fun a m hw hr => ?_, h.tk, h.clk, fun a m h0 h1 hs => ?_⟩
  · rw [State.addSat, State.addSat, State.set, State.set, State.rd_wr, State.rd_wr, State.get, State.get, hrd]
    split
    · rfl
    · exact h.bits a m hw hr
  · have hne : a ≠ f.addr i j k := by
      simp only [webReg] at ha
      omega
    rw [State.addSat, State.rd_set_other _ _ _ _ _ _ _ hne] at hs ⊢
    exact h.latches a m h0 h1 hs

/-- What a hit of `k` lines brings changes none of what the clock shows but the high-water mark and SKIP; the bar's latch is set in every engine. -/
theorem hit_keeps {s : State} {b k : Nat} (hb : b < 16) {bp : Int} (hk : ((s.hitLines b bp).line b - s.line b).toNat = k) (hk0 : k ≠ 0) :
    WebKeeps (hitBit b) (fun _ => False) ((s.hitLines b bp).hitCounts b bp k) (s.hit b bp) ∧
      ∀ e < 28, bitN ((s.hit b bp).get ENG_EVLATCH0 e) (8 + b) = true := by
  have hq := hitBit_quiet (b := b)
  subst hk
  unfold State.hit
  extract_lets x sheet left s1 y k s2 l bs first s3 s4 s5 s6 s7 s8 s9 s10 s11 s12 s13 s14 s15 s16 s17 s18
  rw [show (if k = 0 then s1 else _) = _ from if_neg hk0]
  have hclk : WebKeeps (hitBit b) (fun _ => False) s2 s3 := (WebKeeps.refl s2).same ⟨rfl, rfl, rfl⟩
  have hcounts : WebKeeps (hitBit b) (fun _ => False) (s1.hitCounts b bp k) s5 := by
    simp only [s5]
    split
    · next h1 =>
      have hsat := (hclk.raise EV_LINE_SKIP b (rangeArgs [] (s3.linePos b x) (s3.linePos b (y - 1)))).addSatBoth GEK_LC_SKIP (k - 1) b 0 0
        (fun _ _ => Or.inr (by simp only [countWord, Fld.addr]; omega)) (by simp only [webReg, Fld.addr]; omega)
      rw [State.hitCounts, State.cond, if_pos (decide_eq_true h1)]
      exact ((hsat.retireLines ..).rejLines ..).stall 4 (by omega)
    · next h1 =>
      rw [State.hitCounts, State.cond, if_neg (by simpa using h1)]
      exact hclk.barRun 4 hb
  have hlatch : WebKeeps (hitBit b) (fun _ => False) s5 s8 := by
    have h6 : WebKeeps (hitBit b) (fun _ => False) s5 s6 := (WebKeeps.refl s5).cond fun _ => (WebKeeps.refl s5).barRun 7 hb
    refine WebKeeps.latchAll (t := s7) ?_ _
    simp only [s7]
    split
    · exact h6
    · exact h6.barRun 5 hb
  have hmove : WebKeeps (hitBit b) (fun _ => False) s8 s11 := by
    have h10 : WebKeeps (hitBit b) (fun _ => False) s8 s10 := (((WebKeeps.refl s8).cond fun _ => (WebKeeps.refl s8).latchAll _).stage _ _ hb).quietBack hq _
    exact h10.cond fun _ => h10.retireLines ..
  have hsend : WebKeeps (hitBit b) (fun _ => False) s8 s14 :=
    ((hmove.each fun _ _ _ hu => hu.gapLine ..).each fun _ _ _ hu => hu.deadline _ hb).spanCheck _ hb
  have hpage : ∀ j < 4, ∀ a i, trkPage j a → ¬ hitBit b a i := fun j hj a i ha hR => by
    simp only [hitBit, delayedBit, countWord, trkPage] at hR ha
    omega
  have htrk : s14.get GEK_LC_CTL_TRK b < 4 := State.get_lt ..
  have hsheet : WebKeeps (hitBit b) (fun _ => False) s8 s15 := hsend.cond fun _ =>
    (hsend.setOwn GEK_LC_STAT_WAIT_SHEET _ b 0 0 (by simp only [Fld.addr]; omega) fun i (h0 : 3 ≤ i) (h1 : i < 3 + 1) hR => by
      simp only [hitBit, delayedBit, countWord, Fld.addr] at hR
      omega).retireEdges htrk (hpage _ htrk) id
  have hcorr : WebKeeps (hitBit b) (fun _ => False) s8 s16 := hsheet.each fun j _ hj hu => by
    have hj := List.mem_range.1 (List.mem_filter.1 hj).1
    exact hu.corrStep hq hj (hpage j hj) id
  have hsheaves : WebKeeps (hitBit b) (fun _ => False) s8 s18 := (((hcorr.offStep hq hb).checkOvf hb).refreshPoint b).retireSheaves
  suffices hend : WebKeeps (hitBit b) (fun _ => False) s8 _ from
    ⟨(hcounts.trans hlatch).trans hend, fun e he => hend.evlatch0 he (bitN_latchAll_evlatch0 s7 he (by omega))⟩
  split
  · split
    · exact hsheaves.barEnds b
    · exact hsheaves
  · exact hsheaves

/-! ### DELAYED and the clock, whatever the hit brings -/

namespace WebKeeps

variable {R : Nat → Nat → Prop} {K : Nat → Prop} {s t : State}

/-- Fire-side fields taken change applied values, and SPREADING and BACK of the clocks. -/
theorem fireTake (h : WebKeeps R K s t) (hq : ∀ a i, R a i → quietBit a i) {b : Nat} (x : Int) (hb : b < 16) :
    WebKeeps R K s (t.fireTake b x) := by
  unfold State.fireTake
  extract_lets p due s1 lo old word new s2 c n
  have h2 : WebKeeps R K s s2 := (h.same ⟨rfl, rfl, rfl⟩ (u := s1)).each fun _ _ _ hu => hu.same ⟨rfl, rfl, rfl⟩
  split
  · exact h
  · split
    · exact h2
    · split
      · exact (h2.moveOffset hq b c).setOffCorr hq 0 0 hb
      · exact h2.setOffCorr hq c n hb

theorem setCompare (h : WebKeeps R K s t) {b : Nat} (z : Int) (hR : ∀ a i, R a i → ¬ countWord b a) (hb : b < 16) :
    WebKeeps R K s (t.setCompare b z) := by
  refine ((h.setOwn GEK_LC_CMP_FRAC _ b 0 0 (by simp only [Fld.addr]; omega)
    fun i _ _ hr => hR _ _ hr ?_).setOwn GEK_LC_CMP_LO _ b 0 0 (by simp only [Fld.addr]; omega)
    fun i _ _ hr => hR _ _ hr ?_).setOwn
    GEK_LC_CMP_HI _ b 0 0 (by simp only [Fld.addr]; omega) fun i _ _ hr => hR _ _ hr ?_
  all_goals
    simp only [countWord, Fld.addr]
    omega

theorem setLine (h : WebKeeps R K s t) {b : Nat} (z : Int) (hR : ∀ a i, R a i → ¬ countWord b a) (hb : b < 16) :
    WebKeeps R K s (t.set64 GEK_LC_LINE_LO z b) := by
  refine h.set64Own GEK_LC_LINE_LO _ b 0 0 (by simp only [Fld.addr]; omega) (fun i hr => hR _ _ hr ?_) fun i hr => hR _ _ hr ?_
  all_goals
    simp only [countWord, Fld.addr]
    omega

theorem advance (hq : ∀ a i, R a i → quietBit a i) {b : Nat} (hR : ∀ a i, R a i → ¬ countWord b a) (hb : b < 16) (bp : Int) (fuel : Nat) :
    ∀ {t : State} (cap : Nat), WebKeeps R K s t → WebKeeps R K s (t.advance b bp cap fuel) := by
  induction fuel with
  | zero => exact fun _ h => h
  | succ n ih =>
    intro t cap h
    unfold State.advance
    extract_lets x s1 p k k' s2
    have h2 : WebKeeps R K s s2 := ((h.fireTake hq x hb).setLine _ hR hb).setCompare _ hR hb
    split
    · exact h
    · split
      · exact h2
      · exact ih _ h2

end WebKeeps

theorem delayedBit_quiet : ∀ a i, delayedBit a i → quietBit a i := fun _ _ h => hitBit_quiet (b := 0) _ _ (Or.inl h)

theorem delayedBit_apart {b : Nat} : ∀ a i, delayedBit a i → ¬ countWord b a := by
  simp only [delayedBit, countWord]
  omega

/-- A hit leaves DELAYED and the clock. -/
theorem hit_delayed (s : State) {b : Nat} (hb : b < 16) (bp : Int) : WebKeeps delayedBit (fun _ => False) s (s.hit b bp) := by
  have hlines : WebKeeps delayedBit (fun _ => False) s (s.hitLines b bp) :=
    WebKeeps.advance delayedBit_quiet delayedBit_apart hb bp _ _ (WebKeeps.refl s)
  by_cases hk : ((s.hitLines b bp).line b - s.line b).toNat = 0
  · exact hit_still hk ▸ hlines
  · have hcounts : WebKeeps delayedBit (fun _ => False) s ((s.hitLines b bp).hitCounts b bp ((s.hitLines b bp).line b - s.line b).toNat) := by
      have hhwm : WebKeeps delayedBit (fun _ => False) s ((s.hitLines b bp).set64 GEK_LC_HWM_LO (bp / 2 ^ 32) b) := by
        refine hlines.set64Own GEK_LC_HWM_LO _ b 0 0 (by simp only [Fld.addr]; omega)
          (fun i hr => delayedBit_apart (b := b) _ _ hr ?_) fun i hr => delayedBit_apart (b := b) _ _ hr ?_
        all_goals
          simp only [countWord, Fld.addr]
          omega
      exact hhwm.cond fun _ => hhwm.setOwn GEK_LC_SKIP _ b 0 0 (by simp only [Fld.addr]; omega)
        fun i _ _ hr => delayedBit_apart (b := b) _ _ hr (by simp only [countWord, Fld.addr]; omega)
    exact hcounts.trans ((hit_keeps hb rfl hk).1.mono (fun _ _ _ => Or.inl) fun _ => id)

/-! ### Time -/

theorem netTicks_clk (s : State) (n : Nat) : (s.netTicks n).clk = s.clk := by
  unfold State.netTicks
  extract_lets unit f m s1
  have hwrap : ∀ (l : List Nat) (t : State), (l.foldl (fun (s : State) _ => s.nsWrap) t).clk = t.clk := fun l => by
    induction l with
    | nil => exact fun _ => rfl
    | cons _ l ih => exact fun t => ih t.nsWrap
  have h1 : s1.clk = s.clk := hwrap _ _
  rw [State.secHi]
  split
  · exact h1
  · exact h1

/-- What time does to a tracker leaves the clock. -/
theorem WebKeeps.interpolate_decay {K : Nat → Prop} {s t : State} (h : WebKeeps (fun _ _ => False) K s t) {k : Nat} (hk : k < 4) (hK : ¬ K k) (n : Nat) :
    WebKeeps (fun _ _ => False) K s ((t.interpolate k n).decay k) := by
  have hi : WebKeeps (fun _ _ => False) K s (t.interpolate k n) := by
    unfold State.interpolate
    extract_lets x adv lim a
    split
    · exact ((h.set64Own GEK_TRK_POS_LO _ k 0 0 (by simp only [Fld.addr]; omega) (fun _ => id) fun _ => id).setTk _ hK).refreshBack k fun _ _ => id
    · exact h
  unfold State.decay
  extract_lets x gap m q
  split
  · exact hi.setOwn GEK_TRK_SPEED _ k 0 0 (by simp only [Fld.addr]; omega) fun _ _ _ => id
  · exact hi

theorem elapse_clk (s : State) (dt : Nat) : (s.elapse dt).clk = s.clk + dt := by
  unfold State.elapse
  extract_lets c acc s1
  split
  · next h0 => exact h0 ▸ rfl
  · have h1 : s1.clk = s.clk + dt := netTicks_clk _ _
    refine (WebKeeps.each (R := fun _ _ => False) (K := fun _ => False) (WebKeeps.refl s1) fun k u hk hu => ?_).clk.trans h1
    split
    · have hk := List.mem_range.1 hk
      have hpass := KeepsPos.passChecks (WebKeeps.refl ((u.interpolate k ((c + dt) / 2 - c / 2)).decay k)) hk
      exact (hu.interpolate_decay hk id _).trans (hpass.mono (fun _ _ _ => False.elim) fun _ => False.elim)
    · exact hu

/-! ### A hit now, delayed, or none -/

/-- Line clock `b` takes no hit: it is off, waits for an edge, has a hit delayed, or the press is in BOOT. -/
def State.lcIdle (s : State) (b : Nat) : Prop :=
  s.on GEK_LC_CTL_EN b = false ∨ s.on GEK_LC_STAT_WAIT_SHEET b = true ∨ s.on GEK_LC_STAT_DELAYED b = true ∨ s.mode = 0

/-- Line clock `b` is within MINGAP of its previous hit (R73). -/
def State.lcSoon (s : State) (b : Nat) : Prop := ∃ t, (s.lk b).lastHit = some t ∧ (s.clk - t) * 5 < s.get GEK_LC_MINGAP b * 4

theorem lcIdle_iff (s : State) (b : Nat) :
    (!(s.on GEK_LC_CTL_EN b) || s.on GEK_LC_STAT_WAIT_SHEET b || s.on GEK_LC_STAT_DELAYED b || s.mode == 0) = true ↔ s.lcIdle b := by
  simp [State.lcIdle, or_assoc]

theorem lcSoon_iff (s : State) (b : Nat) :
    (match (s.lk b).lastHit with | some t => decide ((s.clk - t) * 5 < s.get GEK_LC_MINGAP b * 4) | none => false) = true ↔ s.lcSoon b := by
  unfold State.lcSoon
  cases (s.lk b).lastHit <;> simp

theorem tryHit_none {s : State} {b : Nat} (h : s.lcIdle b ∨ s.barFine b < s.compare b) : s.tryHit b = s := by
  unfold State.tryHit
  dsimp only
  split
  · rfl
  · next hi =>
    rw [lcIdle_iff] at hi
    exact if_pos (h.resolve_left hi)

theorem tryHit_soon {s : State} {b : Nat} (hi : ¬ s.lcIdle b) (hc : s.compare b ≤ s.barFine b) (hs : s.lcSoon b) :
    s.tryHit b = (s.put GEK_LC_STAT_DELAYED true b).raiseLim EV_OVERSPEED b b ms100 := by
  unfold State.tryHit
  dsimp only
  rw [if_neg (mt (lcIdle_iff s b).1 hi), if_neg (by omega)]
  exact if_pos ((lcSoon_iff s b).2 hs)

theorem tryHit_hit {s : State} {b : Nat} (hi : ¬ s.lcIdle b) (hc : s.compare b ≤ s.barFine b) (hs : ¬ s.lcSoon b) :
    s.tryHit b = s.hit b (s.barFine b) := by
  unfold State.tryHit
  dsimp only
  rw [if_neg (mt (lcIdle_iff s b).1 hi), if_neg (by omega)]
  exact if_neg (mt (lcSoon_iff s b).1 hs)

/-- A hit within MINGAP is noted and reported, no more (R73). -/
theorem overspeed_only (s : State) {b : Nat} (hb : b < 16) :
    let t := (s.put GEK_LC_STAT_DELAYED true b).raiseLim EV_OVERSPEED b b ms100
    t.on GEK_LC_STAT_DELAYED b = true ∧ t.line b = s.line b ∧ t.compare b = s.compare b ∧ OnlyEv [GEK_LC_STAT.addr b] s t := by
  intro t
  have hput := OnlyRegs_put s GEK_LC_STAT_DELAYED true b 0 0
  have hlim : WebKeeps (fun _ _ => True) (fun _ => True) (s.put GEK_LC_STAT_DELAYED true b) t := (WebKeeps.refl _).raiseLim ..
  have hown : WebKeeps (fun a _ => countWord b a) (fun _ => True) s t := WebKeeps.raiseLim
    ((WebKeeps.refl s).setOwn GEK_LC_STAT_DELAYED _ b 0 0 (by simp only [Fld.addr]; omega) fun i _ _ hR => by
      simp only [countWord, Fld.addr] at hR
      omega) ..
  obtain ⟨hline, hcompare, -, -⟩ := hown.counts hb fun _ _ => id
  exact ⟨(hlim.delayed hb fun _ _ _ => trivial).trans (State.on_put_same _ _ _ _ _ _ rfl (by decide)), hline, hcompare,
    OnlyEv_mono (OnlyEv_trans (OnlyEv_of_regs hput) (raiseLim_only ..)) (by simp [Fld.addr])⟩

theorem OnlyRegs_hitCounts (s : State) (b : Nat) (bp : Int) (k : Nat) :
    OnlyRegs [GEK_LC_HWM_LO.addr b, GEK_LC_HWM_LO.addr b + 4, GEK_LC_SKIP.addr b] s (s.hitCounts b bp k) := by
  unfold State.hitCounts State.cond
  split
  · exact OnlyRegs_trans (OnlyRegs_set64 ..) (OnlyRegs_set ..)
  · exact OnlyRegs_mono (OnlyRegs_set64 s GEK_LC_HWM_LO _ b 0 0) (by simp)

theorem skip_hitCounts (s : State) (b : Nat) (bp : Int) (k : Nat) :
    (s.hitCounts b bp k).get GEK_LC_SKIP b = min (s.get GEK_LC_SKIP b + (k - 1)) (2 ^ 32 - 1) := by
  have hlt : s.get GEK_LC_SKIP b < 2 ^ 32 := State.get_lt ..
  have hhwm : (s.set64 GEK_LC_HWM_LO (bp / 2 ^ 32) b).get GEK_LC_SKIP b = s.get GEK_LC_SKIP b :=
    State.get_congr _ _ _ _ (State.rd_set64_other _ _ _ _ _ _ (by simp [Fld.addr]) (by simp [Fld.addr]; omega))
  unfold State.hitCounts State.cond
  split
  · dsimp only
    rw [State.addSat, State.get_set_same _ _ _ _ _ _ (by decide), hhwm]
    exact Nat.mod_eq_of_lt (Nat.lt_of_le_of_lt (Nat.min_le_right _ _) (by decide))
  · next hk =>
    have hk : ¬ 1 < k := by simpa using hk
    rw [hhwm]
    omega

/-- What the clock shows after a hit of `k` lines. -/
theorem counts_hitCounts (s : State) (b : Nat) (bp : Int) (k : Nat) :
    let t := s.hitCounts b bp k
    t.line b = s.line b ∧ t.compare b = s.compare b ∧ t.geti64 GEK_LC_HWM_LO b = sx 64 (ux 64 (bp / 2 ^ 32)) := by
  intro t
  have hother := (OnlyRegs_hitCounts s b bp k).1
  refine ⟨State.geti64_congr _ _ _ _ (hother _ ?_) (hother _ ?_), ?_, ?_⟩
  · simp [Fld.addr]
    omega
  · simp [Fld.addr]
    omega
  · exact compare_congr fun a h0 h1 => hother a (by
      simp only [Fld.addr, List.mem_cons, List.not_mem_nil, or_false]
      omega)
  · have hset : (s.set64 GEK_LC_HWM_LO (bp / 2 ^ 32) b).geti64 GEK_LC_HWM_LO b = sx 64 (ux 64 (bp / 2 ^ 32)) := by
      rw [State.geti64, State.get64_set64]
    rw [← hset]
    simp only [t, State.hitCounts, State.cond]
    split
    · exact State.geti64_congr _ _ _ _ (State.rd_set_other _ _ _ _ _ _ _ (by simp [Fld.addr])) (State.rd_set_other _ _ _ _ _ _ _ (by simp [Fld.addr]; omega))
    · rfl

/-- A hit with nothing due on the fire side passes every compare that B has reached (R71, R72). -/
theorem hit_counts {z : State} {b : Nat} (hb : b < 16) (hsheet : z.on GEK_LC_CTL_SHEET b = false) (hfire : (z.cp b).fire = [])
    (hpitch : 0 < z.lcPitch b) (hc : z.compare b ≤ z.barFine b) :
    let k := 1 + ((z.barFine b - z.compare b) / z.lcPitch b).toNat
    k ≤ 2 ^ 64 → z.line b + k < 2 ^ 63 →
      let t := z.hit b (z.barFine b)
      t.line b = z.line b + k ∧ t.compare b = sx 96 (ux 96 (z.compare b + k * z.lcPitch b)) ∧
      t.get GEK_LC_SKIP b = min (z.get GEK_LC_SKIP b + (k - 1)) (2 ^ GEK_LC_SKIP.width - 1) ∧
      t.geti64 GEK_LC_HWM_LO b = sx 64 (ux 64 (z.barFine b / 2 ^ 32)) ∧ ∀ e < 28, bitN (t.get ENG_EVLATCH0 e) (8 + b) = true := by
  intro k hcap hmax t
  have hlines : z.hitLines b (z.barFine b) = z.passCompares b k := by
    rw [State.hitLines, hsheet, hfire]
    exact advance_passCompares hfire hpitch hc hcap
  have hline : (z.passCompares b k).line b = z.line b + k := line_passCompares z hmax
  have hk : ((z.hitLines b (z.barFine b)).line b - z.line b).toNat = k := by
    rw [hlines, hline]
    omega
  obtain ⟨hkeeps, hlatch⟩ := hit_keeps hb hk (by omega)
  rw [hlines] at hkeeps
  obtain ⟨hl, hcmp, hskip, hhwm⟩ := hkeeps.counts hb fun _ _ => Or.inr
  obtain ⟨hl', hcmp', hhwm'⟩ := counts_hitCounts (z.passCompares b k) b (z.barFine b) k
  refine ⟨hl.trans (hl'.trans hline), hcmp.trans (hcmp'.trans (compare_passCompares z b k)), ?_, hhwm.trans hhwm', hlatch⟩
  rw [hskip, skip_hitCounts, skip_passCompares]

/-! ### A delayed hit takes place (R73) -/

/-- The clock after the wait for a delayed hit due at `d`: at an even SEQ cycle, the first at or after `d`, where `d` has not passed. -/
theorem wait_until_even (now d : Nat) :
    let t := now + (d + d % 2 - now)
    now ≤ t ∧ d ≤ t ∧ (now < d → t % 2 = 0 ∧ t ≤ d + 1) := by
  dsimp only
  omega

theorem exec_lineClockDelayedHit {s : State} {b : Bar} {l : Nat} (hen : s.on GEK_LC_CTL_EN b = true) (hd : s.on GEK_LC_STAT_DELAYED b = true)
    (hl : (s.lk b).lastHit = some l) :
    let d := l + cdiv (s.get GEK_LC_MINGAP b * 4) 5
    let z := (s.elapse (d + d % 2 - s.clk)).put GEK_LC_STAT_DELAYED false b
    exec (.lineClockDelayedHit b) s = .next (if z.compare b ≤ z.barFine b then z.hit b (z.barFine b) else z) := by
  intro d z
  change execLineClockDelayedHit b s = _
  unfold execLineClockDelayedHit
  rw [hen, hd, hl]
  rfl

/-- Settles O27: LINE and COMPARE move by the lines a hit takes, and the rest of the hit leaves the clock's registers. -/
theorem lineClocksHitAndSkip : Obligations.LineClocksHitAndSkip := by
  unfold Obligations.LineClocksHitAndSkip
  intro s b dt z k soon idle
  have hb := b.isLt
  have hexec : exec (.lineClockHit b dt) s = .next (z.tryHit b) := rfl
  refine ⟨fun h => ?_, fun hi hc hs => ?_, fun hi hc hs hsheet hfire hpitch hcap hmax => ?_, fun l hen hd hl => ?_⟩
  · rw [hexec, tryHit_none h]
  · exact ⟨_, hexec.trans (congrArg _ (tryHit_soon hi hc hs)), overspeed_only z hb⟩
  · exact ⟨_, hexec.trans (congrArg _ (tryHit_hit hi hc hs)), hit_counts hb hsheet hfire hpitch hc hcap hmax⟩
  · refine ⟨_, exec_lineClockDelayedHit hen hd hl, ?_⟩
    generalize l + cdiv (s.get GEK_LC_MINGAP b * 4) 5 = d
    have hclk : (s.elapse (d + d % 2 - s.clk)).clk = s.clk + (d + d % 2 - s.clk) := elapse_clk _ _
    have hoff : ((s.elapse (d + d % 2 - s.clk)).put GEK_LC_STAT_DELAYED false b).on GEK_LC_STAT_DELAYED b = false :=
      State.on_put_same _ _ _ _ _ _ rfl (by decide)
    generalize hz : (s.elapse (d + d % 2 - s.clk)).put GEK_LC_STAT_DELAYED false b = z' at hoff
    have hz' : z'.clk = s.clk + (d + d % 2 - s.clk) := hz ▸ hclk
    have hkeeps : WebKeeps delayedBit (fun _ => False) z' (if z'.compare b ≤ z'.barFine b then z'.hit b (z'.barFine b) else z') := by
      split
      · exact hit_delayed z' hb _
      · exact WebKeeps.refl z'
    refine ⟨(hkeeps.delayed hb fun _ _ => id).trans hoff, ?_⟩
    rw [hkeeps.clk, hz']
    exact wait_until_even s.clk d

end Sys2Proof.Machine

/-! PROOFS. A line clock enabled, its shadowed words, sheet edges, and the latch of register pairs (R74 to R77, R81): O28. -/

namespace Sys2Proof.Machine

open Sys2Proof.Safety

/-! ### Enabling a line clock (R74) -/

/-- The word that the host enables a line clock with. -/
def lcCtlWord (k : Tn) (sh : Bool) : Word := BitVec.ofNat 32 (1 + 2 * k.val + 8 * b2n sh)

theorem lcCtlWord_fields (k : Tn) (sh : Bool) :
    getBits (lcCtlWord k sh) 0 1 = 1 ∧ getBits (lcCtlWord k sh) 1 2 = k ∧ getBits (lcCtlWord k sh) 3 1 = b2n sh := by
  revert k sh
  decide

/-- EN, TRK and SHEET take what is written. -/
theorem lcCtl_taken (b : Bar) : takenMask (GEK_LC_CTL.addr b) = 15 := by
  revert b
  decide +kernel

theorem getBits_lcCtl_written (b : Bar) (old v : Word) {lo w : Nat} (h : lo + w ≤ 4) :
    getBits (writeBits (GEK_LC_CTL.addr b) old v) lo w = getBits v lo w := by
  refine getBits_writeBits_taken old v fun i _ hi => ?_
  have hmask : ∀ i < 4, (15 : Word).getLsbD i = true := by decide
  rw [lcCtl_taken]
  exact hmask i (by omega)

theorem lcCtl_written (s : State) (b : Bar) (k : Tn) (sh : Bool) :
    let t := s.hostWrite (GEK_LC_CTL.addr b) (lcCtlWord k sh)
    t.on GEK_LC_CTL_EN b = true ∧ t.get GEK_LC_CTL_TRK b = k ∧ t.on GEK_LC_CTL_SHEET b = sh := by
  intro t
  obtain ⟨hen, htrk, hsheet⟩ := lcCtlWord_fields k sh
  have hget : ∀ f : Fld, f.addr b = GEK_LC_CTL.addr b → f.lo + f.width ≤ 4 → t.get f b = getBits (lcCtlWord k sh) f.lo f.width := fun f hf h4 => by
    rw [State.get, hf, State.rd_hostWrite, getBits_lcCtl_written _ _ _ h4]
  refine ⟨?_, (hget GEK_LC_CTL_TRK rfl (by decide)).trans htrk, ?_⟩
  · rw [State.on, hget GEK_LC_CTL_EN rfl (by decide), hen]
    rfl
  · rw [State.on, hget GEK_LC_CTL_SHEET rfl (by decide), hsheet]
    cases sh <;> rfl

/-- Line clock `b` starts: no high-water mark, no correction, no hit delayed, and in sheet mode it waits for an edge. -/
def State.lcStart (s : State) (b : Nat) : State :=
  let t := (s.set64 GEK_LC_HWM_LO (-(2 ^ 63)) b).setLk b Lc.empty
  (t.put GEK_LC_STAT_DELAYED false b).put GEK_LC_STAT_WAIT_SHEET (t.on GEK_LC_CTL_SHEET b) b

theorem rd_lcStart_other (s : State) (b : Nat) {a : Nat} (hlo : a ≠ GEK_LC_HWM_LO.addr b) (hhi : a ≠ GEK_LC_HWM_LO.addr b + 4)
    (hstat : a ≠ GEK_LC_STAT.addr b) : (s.lcStart b).rd a = s.rd a := by
  rw [State.lcStart, State.put, State.rd_set_other _ GEK_LC_STAT_WAIT_SHEET _ _ _ _ _ hstat, State.put,
    State.rd_set_other _ GEK_LC_STAT_DELAYED _ _ _ _ _ hstat]
  exact State.rd_set64_other s _ _ _ _ _ hlo hhi

theorem geti64_put_other (s : State) (f g : Fld) (c : Bool) {i : Nat} (hlo : g.addr i ≠ f.addr i) (hhi : g.addr i + 4 ≠ f.addr i) :
    (s.put f c i).geti64 g i = s.geti64 g i :=
  State.geti64_congr _ _ _ _ (State.rd_set_other _ _ _ _ _ _ _ hlo) (State.rd_set_other _ _ _ _ _ _ _ hhi)

/-- What a line clock that starts shows. -/
theorem lcStart_shows (s : State) (b : Nat) :
    let t := s.lcStart b
    t.geti64 GEK_LC_HWM_LO b = -(2 ^ 63) ∧ t.on GEK_LC_STAT_WAIT_SHEET b = s.on GEK_LC_CTL_SHEET b ∧ t.on GEK_LC_STAT_DELAYED b = false ∧
      t.rd (GEK_LC_CTL.addr b) = s.rd (GEK_LC_CTL.addr b) ∧ t.line b = s.line b ∧ t.compare b = s.compare b := by
  intro t
  refine ⟨?_, ?_, ?_, ?_, State.geti64_congr _ _ _ _ ?_ ?_, ?_⟩
  · rw [show t = s.lcStart b from rfl, State.lcStart,
      geti64_put_other _ GEK_LC_STAT_WAIT_SHEET GEK_LC_HWM_LO _ (by simp [Fld.addr]) (by simp [Fld.addr]; omega),
      geti64_put_other _ GEK_LC_STAT_DELAYED GEK_LC_HWM_LO _ (by simp [Fld.addr]) (by simp [Fld.addr]; omega)]
    change (s.set64 GEK_LC_HWM_LO (-(2 ^ 63)) b).geti64 GEK_LC_HWM_LO b = _
    rw [State.geti64, State.get64_set64, sx_ux_of_mem (by decide) (by decide)]
  · have hsheet : ((s.set64 GEK_LC_HWM_LO (-(2 ^ 63)) b).setLk b Lc.empty).on GEK_LC_CTL_SHEET b = s.on GEK_LC_CTL_SHEET b := by
      rw [State.on, State.on]
      exact congrArg (· == 1) (State.get_congr _ _ _ _ (State.rd_set64_other s _ _ _ _ _ (by simp [Fld.addr]) (by simp [Fld.addr]; omega)))
    exact (State.on_put_same _ _ _ _ _ _ rfl (by decide)).trans hsheet
  · exact (State.on_put_bits _ _ _ _ _ _ _ (by decide)).trans (State.on_put_same _ _ _ _ _ _ rfl (by decide))
  · exact rd_lcStart_other s b (by simp [Fld.addr]) (by simp [Fld.addr]; omega) (by simp [Fld.addr])
  · exact rd_lcStart_other s b (by simp [Fld.addr]) (by simp [Fld.addr]; omega) (by simp [Fld.addr])
  · exact rd_lcStart_other s b (by simp [Fld.addr]; omega) (by simp [Fld.addr]) (by simp [Fld.addr]; omega)
  · exact compare_congr fun a h0 h1 => rd_lcStart_other s b (by simp only [Fld.addr]; omega) (by simp only [Fld.addr]; omega) (by
      simp only [Fld.addr]
      omega)

/-- The host's write that sets EN of a clock that is off starts it (R74). -/
theorem lcCtl_enable {s : State} {b : Nat} {v : Word} (hoff : s.on GEK_LC_CTL_EN b = false)
    (hon : (s.hostWrite (GEK_LC_CTL.addr b) v).on GEK_LC_CTL_EN b = true) :
    let t := (s.hostWrite (GEK_LC_CTL.addr b) v).lcStart b
    s.lcCtl b v = (t.setOffCorr b 0 0).refreshBack (t.get GEK_LC_CTL_TRK b) := by
  intro t
  unfold State.lcCtl
  extract_lets was u on s1 s2
  have hstarts : (on && !was) = true := by
    rw [show on = true from hon, show was = false from hoff]
    rfl
  rw [if_pos hstarts]
  rfl

/-- What a line clock shows once it is enabled. -/
theorem lcCtl_shows {s : State} (b : Bar) (k : Tn) (sh : Bool) (hoff : s.on GEK_LC_CTL_EN b = false) :
    let t := s.lcCtl b (lcCtlWord k sh)
    t.on GEK_LC_CTL_EN b = true ∧ t.get GEK_LC_CTL_TRK b = k ∧ t.on GEK_LC_CTL_SHEET b = sh ∧ t.geti64 GEK_LC_HWM_LO b = -(2 ^ 63) ∧
      t.on GEK_LC_STAT_WAIT_SHEET b = sh ∧ t.on GEK_LC_STAT_DELAYED b = false ∧ t.line b = s.line b ∧ t.compare b = s.compare b := by
  have hb := b.isLt
  obtain ⟨hen, htrk, hsheet⟩ := lcCtl_written s b k sh
  dsimp only
  rw [lcCtl_enable hoff hen]
  have hother := (OnlyRegs_hostWrite s (GEK_LC_CTL.addr b) (lcCtlWord k sh)).1
  generalize s.hostWrite (GEK_LC_CTL.addr b) (lcCtlWord k sh) = u at hen htrk hsheet hother ⊢
  obtain ⟨hhwm, hwait, hdel, hctl, hline, hcmp⟩ := lcStart_shows u b
  generalize u.lcStart b = w at hhwm hwait hdel hctl hline hcmp ⊢
  have hkeeps : WebKeeps quietBit (fun _ => False) w ((w.setOffCorr b 0 0).refreshBack (w.get GEK_LC_CTL_TRK b)) :=
    ((WebKeeps.refl w).setOffCorr (fun _ _ => id) 0 0 hb).quietBack (fun _ _ => id) _
  have hq : ∀ a i, countWord b a → quietBit a i := fun a i h => hitBit_quiet (b := b) a i (Or.inr h)
  obtain ⟨hl, hc, -, hh⟩ := hkeeps.counts hb hq
  have hword := hkeeps.rd (a := GEK_LC_CTL.addr b) (by simp only [webReg, Fld.addr]; omega) fun i _ => by
    simp only [quietBit, Fld.addr]
    omega
  have hget : ∀ f : Fld, f.addr b = GEK_LC_CTL.addr b → ((w.setOffCorr b 0 0).refreshBack (w.get GEK_LC_CTL_TRK b)).get f b = u.get f b := fun f hf =>
    State.get_congr _ _ _ _ (hf ▸ hword.trans hctl)
  have hstat : ((w.setOffCorr b 0 0).refreshBack (w.get GEK_LC_CTL_TRK b)).get GEK_LC_STAT_WAIT_SHEET b = w.get GEK_LC_STAT_WAIT_SHEET b :=
    hkeeps.get GEK_LC_STAT_WAIT_SHEET b 0 0 (by simp only [webReg, Fld.addr]; omega) fun n (h0 : 3 ≤ n) (h1 : n < 3 + 1) => by
      simp only [quietBit, Fld.addr]
      omega
  have hdelay := hkeeps.delayed hb delayedBit_quiet
  have hu : u.line b = s.line b ∧ u.compare b = s.compare b := by
    exact ⟨State.geti64_congr _ _ _ _ (hother _ (by simp [Fld.addr])) (hother _ (by simp [Fld.addr]; omega)), compare_congr fun a h0 h1 => hother a (by
      simp only [Fld.addr, List.mem_singleton]
      omega)⟩
  refine ⟨?_, (hget GEK_LC_CTL_TRK rfl).trans htrk, ?_, hh.trans hhwm, ?_, hdelay.trans hdel, hl.trans (hline.trans hu.1), hc.trans (hcmp.trans hu.2)⟩
  · rw [State.on, hget GEK_LC_CTL_EN rfl, ← State.on, hen]
  · rw [State.on, hget GEK_LC_CTL_SHEET rfl, ← State.on, hsheet]
  · rw [State.on, hstat, ← State.on, hwait, hsheet]

theorem exec_lcEnable {s : State} (b : Bar) (k : Tn) (sh : Bool) (h : Hears s) : exec (.lcEnable b k sh) s = .next (s.lcCtl b (lcCtlWord k sh)) :=
  heard_eq h _

/-! ### PITCH and OFFSET written (R75) -/

theorem exec_lcPitchOffsetWrite {s : State} (b : Bar) (w : Fin 4) (v : BitVec 32) (h : Hears s) :
    let a := GEK_LC_OFFSET_LO.addr b + 4 * w
    exec (.lcPitchOffsetWrite b w v) s = .next (if s.on GEK_LC_CTL_EN b then s.wr a v else (s.wr a v).putAp a v) := by
  intro a
  have hen : (s.wr a v).on GEK_LC_CTL_EN b = s.on GEK_LC_CTL_EN b := by
    rw [State.on, State.on, State.get_congr _ _ _ _ (State.rd_wr_other _ _ _)]
    simp only [a, Fld.addr]
    omega
  refine (heard_eq h _).trans ?_
  rw [← hen]

/-- A word of PITCH or OFFSET stands in the shadow; a clock that is off takes it at once. -/
theorem shadowed_write (s : State) (a : Nat) (v : Word) (en : Bool) :
    let t := if en then s.wr a v else (s.wr a v).putAp a v
    t.rd a = v ∧ t.ap a = (if en then s.ap a else v) ∧ OnlyRegs [a] s { t with applied := s.applied } ∧ ∀ x, x ≠ a → t.ap x = s.ap x := by
  cases en with
  | true => exact ⟨State.rd_wr_same .., rfl, OnlyRegs_wr s a v, fun _ _ => rfl⟩
  | false => exact ⟨State.rd_wr_same .., State.ap_putAp_same .., OnlyRegs_applied (OnlyRegs_wr s a v), fun x hx => State.ap_putAp_other _ _ hx⟩

/-! ### A sheet edge taken (R77) -/

/-- What the first line of a job fills in is the composer's. -/
theorem WebKeeps.jobStart {R : Nat → Nat → Prop} {K : Nat → Prop} {s t : State} (h : WebKeeps R K s t) : WebKeeps R K s t.jobStart := by
  unfold State.jobStart
  split
  · exact h
  · split
    · exact h
    · split
      · exact (h.set64 CMP_JOB_START_LO _ 0 0 0 rfl).put CMP_JOB_START_STAT_VALID true 0 0 0 rfl
      · exact h

/-- What a clock that takes an edge shows. -/
theorem takeEdge_shows (s : State) (b : Nat) (e : Nat × Int) :
    let t := s.takeEdge b e
    t.get GEK_LC_SHEET b = e.1 % 2 ^ 32 ∧ t.compare b = sx 96 (ux 96 ((e.2 + s.get GEK_LC_SHEET_TOP b) * 2 ^ 32)) ∧
      t.on GEK_LC_STAT_WAIT_SHEET b = false ∧ t.line b = s.line b := by
  intro t
  have hset := (OnlyRegs_set s GEK_LC_SHEET e.1 b 0 0).1
  have hcmp := (OnlyRegs_setCompare (s.set GEK_LC_SHEET e.1 b) b ((e.2 + s.get GEK_LC_SHEET_TOP b) * 2 ^ 32)).1
  have hwait : ∀ a, a ≠ GEK_LC_STAT.addr b → t.rd a = ((s.set GEK_LC_SHEET e.1 b).setCompare b ((e.2 + s.get GEK_LC_SHEET_TOP b) * 2 ^ 32)).rd a :=
    fun a ha => State.rd_set_other _ GEK_LC_STAT_WAIT_SHEET _ _ _ _ _ ha
  have hrd : ∀ a, a ≠ GEK_LC_STAT.addr b → a < GEK_LC_CMP_FRAC.addr b ∨ GEK_LC_CMP_HI.addr b < a → t.rd a = (s.set GEK_LC_SHEET e.1 b).rd a := fun a h0 h1 =>
    (hwait a h0).trans (hcmp a (by
      simp only [Fld.addr, List.mem_cons, List.not_mem_nil, or_false] at h1 ⊢
      omega))
  have hline : ∀ a, GEK_LC_LINE_LO.addr b ≤ a → a ≤ GEK_LC_LINE_LO.addr b + 4 → t.rd a = s.rd a := fun a h0 h1 => by
    simp only [Fld.addr] at h0 h1
    exact (hrd a (by simp only [Fld.addr]; omega) (by simp only [Fld.addr]; omega)).trans (hset a (by
      simp only [Fld.addr, List.mem_singleton]
      omega))
  refine ⟨?_, ?_, State.on_put_same _ GEK_LC_STAT_WAIT_SHEET _ _ _ _ rfl (by decide), State.geti64_congr _ _ _ _ (hline _ ?_ ?_) (hline _ ?_ ?_)⟩
  · rw [State.get_congr GEK_LC_SHEET b 0 0 (hrd _ (by simp [Fld.addr]) (by simp only [Fld.addr]; omega))]
    exact State.get_set_same _ _ _ _ _ _ (by decide)
  · rw [← compare_setCompare (s.set GEK_LC_SHEET e.1 b) b]
    exact compare_congr fun a h0 h1 => hwait a (by simp only [Fld.addr]; omega)
  all_goals
    simp only [Fld.addr]
    omega

theorem exec_sheetEdgeTake {s : State} (b : Bar) {e : Nat × Int} (hen : s.on GEK_LC_CTL_EN b = true) (hsheet : s.on GEK_LC_CTL_SHEET b = true)
    (hwait : s.on GEK_LC_STAT_WAIT_SHEET b = true)
    (he : (s.tk (s.get GEK_LC_CTL_TRK b)).edges.find? (fun e => !(s.sheetDone b e.1)) = some e) :
    exec (.sheetEdgeTake b) s = .next (s.takeEdge b e).jobStart := by
  change execSheetEdgeTake b s = _
  unfold execSheetEdgeTake
  rw [hen, hsheet, hwait, he]
  rfl

/-! ### The latch of a register pair (R81) -/

/-- A register of the web-position block reads what it holds. -/
theorem peek_webReg (s : State) {a : Nat} (ha : webReg a) : s.peek a = s.rd a := by
  simp only [webReg] at ha
  have hchl : chlEnable a = false := by
    simp only [chlEnable, Bool.or_eq_false_iff, beq_eq_false_iff_ne, List.any_eq_false, beq_iff_eq, List.mem_range, Fld.addr]
    exact ⟨by omega, fun n hn => by omega⟩
  unfold State.peek
  rw [if_neg (by omega), if_neg (by simp only [Fld.addr]; omega), if_neg (by simp only [Fld.addr]; omega), if_neg (by simp only [Fld.addr]; omega),
    if_neg (by simp only [Fld.addr]; omega), if_neg (by simp only [Fld.addr]; omega), if_neg, if_neg (by simp [hchl])]
  simp only [Fld.addr]
  omega

/-- A read of the web-position block clears nothing. -/
theorem readClears_webReg (s : State) {a : Nat} (ha : webReg a) : s.readClears a = s := by
  simp only [webReg] at ha
  have hnone : ∀ (l : List Nat) (f : Nat → State → State) (p : Nat → Bool), (∀ n ∈ l, p n = false) →
      s.each l (fun n s => s.cond (p n) (f n)) = s := fun l f p hp =>
    State.each_inv (· = s) l _ (fun n t hn ht => by rw [hp n hn, State.cond, if_neg (by decide), ht]) s rfl
  unfold State.readClears
  rw [if_neg (by simp only [Fld.addr]; omega), if_neg (by simp only [Fld.addr]; omega), if_neg (by simp only [Fld.addr]; omega)]
  dsimp only
  rw [hnone (List.range 8), hnone (List.range 12)]
  all_goals
    intro n hn
    have hn := List.mem_range.1 hn
    simp only [Fld.addr, beq_eq_false_iff_ne]
    omega

theorem pairLow_trkPos (k : Tn) : pairLow (GEK_TRK_POS_LO.addr k) = true := by
  revert k
  decide +kernel

/-- A read of the low word of P latches the high word. -/
theorem latches_trkPos (s : State) (k : Tn) :
    s.latches (GEK_TRK_POS_LO.addr k) = [(GEK_TRK_POS_LO.addr k + 4, s.rd (GEK_TRK_POS_LO.addr k + 4))] := by
  have hk := k.isLt
  unfold State.latches
  rw [if_neg (by simp only [Fld.addr]; omega), if_neg (by simp only [Fld.addr]; omega), if_pos (pairLow_trkPos k),
    peek_webReg s (by simp only [webReg, Fld.addr]; omega)]

/-- Reading a low word of the web-position block whose high word is not latched, nor itself. -/
theorem readReg_latches {s : State} {a : Nat} (ha : webReg a) (h0 : smGet (fun _ => []) s.latched 0 = []) {n : Nat × Word} (hn : s.latches a = [n]) :
    (s.readReg 0 a).2 = { s with latched := smPut (fun _ => []) s.latched 0 [n] } := by
  unfold State.readReg
  rw [h0, hn, readClears_webReg s ha]
  rfl

/-- A latched word is read, whatever its register holds by then. -/
theorem readReg_latched {s : State} {a : Nat} {v : Word} (h : smGet (fun _ => []) s.latched 0 = [(a, v)]) : (s.readReg 0 a).1 = v := by
  unfold State.readReg
  simp [h]

theorem exec_regPairReadLatch {s : State} {a : Nat} (h : Hears s) (ha : webReg a) : exec (.regPairReadLatch a) s = .next (s.readReg 0 a).2 := by
  change execRegPairReadLatch a s = _
  unfold execRegPairReadLatch
  rw [if_neg (by simp only [webReg] at ha; omega), heard_eq h]

/-- Settles O28: each operation's registers read back, and what follows a start or an edge leaves them. -/
theorem lineClockControlAndSheetEdges : Obligations.LineClockControlAndSheetEdges := by
  unfold Obligations.LineClockControlAndSheetEdges
  refine ⟨fun s b k sh hh hoff => ⟨_, exec_lcEnable b k sh hh, lcCtl_shows b k sh hoff⟩,
    fun s b w v hh => ⟨_, exec_lcPitchOffsetWrite b w v hh, shadowed_write s _ v _⟩, fun s b e hen hsheet hwait he => ?_, fun s k hh h0 => ?_⟩
  · have hb := b.isLt
    refine ⟨_, exec_sheetEdgeTake b hen hsheet hwait he, ?_⟩
    obtain ⟨hnum, hcmp, hno, hline⟩ := takeEdge_shows s b e
    have hkeeps : WebKeeps (fun _ _ => True) (fun _ => False) (s.takeEdge b e) (s.takeEdge b e).jobStart := WebKeeps.jobStart (WebKeeps.refl _)
    obtain ⟨hl, hc, -, -⟩ := hkeeps.counts hb fun _ _ _ => trivial
    have hget : ∀ f : Fld, webReg (f.addr b) → (s.takeEdge b e).jobStart.get f b = (s.takeEdge b e).get f b := fun f hf =>
      hkeeps.get f b 0 0 hf fun _ _ _ => trivial
    refine ⟨(hget GEK_LC_SHEET ?_).trans hnum, hc.trans hcmp, ?_, hl.trans hline⟩
    · simp only [webReg, Fld.addr]
      omega
    · rw [State.on, hget GEK_LC_STAT_WAIT_SHEET (by simp only [webReg, Fld.addr]; omega)]
      exact hno
  · have hk := k.isLt
    have ha : webReg (GEK_TRK_POS_LO.addr k) := by
      simp only [webReg, Fld.addr]
      omega
    have hlatched := readReg_latches ha h0 (latches_trkPos s k)
    refine ⟨_, exec_regPairReadLatch hh ha, ?_⟩
    have hput := smGet_put_same (fun _ => []) s.latched 0 [(GEK_TRK_POS_LO.addr k + 4, s.rd (GEK_TRK_POS_LO.addr k + 4))]
    rw [hlatched]
    exact ⟨hput, rfl, fun u hu => readReg_latched (by rw [hu]; exact hput)⟩

end Sys2Proof.Machine

/-! SUPPORT for the proofs. How an instruction ends: it goes on, traps, passes control, stops issue or halts (R94, R98, R116, R118). -/

namespace Sys2Proof.Machine

open Sys2Proof.Safety

/-! ### The next instruction follows (R94) -/

/-- An instruction whose result is given in the words of the spec. -/
theorem issue_G_of_eq {s : State} {e : Nat} {w : Word} {op : State → UOut} {rd : Nat} {v v' : Word} (hv : v' = v) (h : Runs s e) (hr : rd < 32)
    (hop : op s = .next (s.setG e rd v')) : GResult s e rd v (.next (s.issue e w op)) :=
  issue_G h hr (hv ▸ hop)

/-- PC below its last word goes on without a wrap. -/
theorem get_PC_next {s : State} {e : Nat} (t : State) (h : Runs s e) : (t.set ENG_PC (s.get ENG_PC e + 4) e).get ENG_PC e = s.get ENG_PC e + 4 := by
  obtain ⟨-, -, -, -, hpc⟩ := h
  rw [get_PC_set, Nat.mod_eq_of_lt (by omega)]

/-- An instruction that completes below the last word of code memory. -/
theorem issue_complete {s t : State} {e : Nat} {w : Word} {op : State → UOut} (h : Runs s e) (hop : op s = .next t) :
    s.issue e w op = t.complete e (s.get ENG_PC e + 4) := by
  obtain ⟨hrun, herr, -, -, hpc⟩ := h
  simp only [State.issue, hrun, herr, hop, State.settle, State.follow, if_true, if_false, Bool.false_eq_true, show ¬ s.get ENG_PC e = 0xFFFC by omega]

/-- Completion of an instruction that left the engine in RUN with nothing to stop it. -/
theorem complete_eq {t : State} {e : Nat} (npc : Nat) (hrun : t.engState e = 2) (hhalt : (t.ex e).haltNext = false) (hbrk : t.on ENG_BREAK_EN e = false) :
    t.complete e npc = t.set ENG_PC npc e := by
  have hrun' : (t.set ENG_PC npc e).engState e = 2 := by
    rw [← hrun]
    exact State.get_set_addr _ _ _ _ _ _ _ _ _ _ (by simp [Fld.addr])
  have hbrk' : (t.set ENG_PC npc e).on ENG_BREAK_EN e = false := by
    rw [← hbrk, State.on, State.on, State.get_set_addr _ _ _ _ _ _ _ _ _ _ (by simp [Fld.addr])]
  have hhalt' : ((t.set ENG_PC npc e).ex e).haltNext = false := hhalt
  simp only [State.complete, hhalt', hrun', State.breakAt, hbrk', Bool.false_eq_true, Bool.false_and, if_false, if_true]

/-- Issue of an instruction that completes and leaves the engine's state, its own record and its breakpoint. -/
theorem issue_goes_on {s t : State} {e : Nat} {w : Word} {op : State → UOut} (h : Runs s e) (hop : op s = .next t)
    (hst : t.rd (ENG_STAT.addr e) = s.rd (ENG_STAT.addr e)) (hbr : t.rd (ENG_BREAK.addr e) = s.rd (ENG_BREAK.addr e)) (hx : t.ex e = s.ex e) :
    s.issue e w op = t.set ENG_PC (s.get ENG_PC e + 4) e := by
  rw [issue_complete h hop]
  obtain ⟨hrun, -, hhalt, hbrk, -⟩ := h
  refine complete_eq _ ?_ (by rw [hx, hhalt]) ?_
  · rw [← hrun]
    exact State.get_congr ENG_STAT_STATE e 0 0 hst
  · rw [← hbrk, State.on, State.on, State.get_congr ENG_BREAK_EN e 0 0 hbr]

/-- An instruction that changes nothing but the PC. -/
theorem issue_nothing {s : State} {e : Nat} {w : Word} {op : State → UOut} (h : Runs s e) (hop : op s = .next s) :
    JumpResult s e (s.get ENG_PC e + 4) (.next (s.issue e w op)) :=
  ⟨_, rfl, by rw [issue_goes_on h hop rfl rfl rfl, get_PC_next _ h], by rw [issue_goes_on h hop rfl rfl rfl]; exact OnlyRegs_set _ _ _ _ _ _⟩

/-! ### Control is passed (R94) -/

theorem get_PC_target (t : State) (e : Nat) {z : Int} (hz : z < 0x10000) : (t.set ENG_PC z.toNat e).get ENG_PC e = z.toNat := by
  rw [get_PC_set, Nat.mod_eq_of_lt (by omega)]

/-- An instruction that passes control and writes nothing. -/
theorem issue_jump {s : State} {e : Nat} {w : Word} {op : State → UOut} {z : Int} (h : Runs s e) (hop : op s = .jump z s) (hz : 0 ≤ z) (hz' : z < 0x10000) :
    JumpResult s e z.toNat (.next (s.issue e w op)) := by
  refine ⟨_, rfl, ?_⟩
  rw [issue_J h hop hz hz' (OnlyRegs_refl [] s) (by simp)]
  exact ⟨get_PC_target _ _ hz', OnlyRegs_set _ _ _ _ _ _⟩

theorem g_setG (s : State) (e rd : Nat) (v : Word) : (s.setG e rd v).g e rd = if rd = 0 then 0 else v := by
  unfold State.g State.setG
  split
  · rfl
  · exact State.rd_wr_same _ _ _

/-- An instruction that passes control and writes one G register other than G0. -/
theorem issue_jumpG {s : State} {e : Nat} {w : Word} {op : State → UOut} {z : Int} {rd : Nat} {v : Word} (h : Runs s e) (h0 : rd ≠ 0) (hr : rd < 32)
    (hop : op s = .jump z (s.setG e rd v)) (hz : 0 ≤ z) (hz' : z < 0x10000) :
    Gives (.next (s.issue e w op)) fun t => t.g e rd = v ∧ t.get ENG_PC e = z.toNat ∧ OnlyRegs [ENG_G.addr e rd, ENG_PC.addr e] s t := by
  have hG : OnlyRegs [ENG_G.addr e rd] s (s.setG e rd v) := by
    rw [State.setG, if_neg h0]
    exact OnlyRegs_wr _ _ _
  refine ⟨_, rfl, ?_⟩
  rw [issue_J h hop hz hz' hG (by simp [Fld.addr]; omega)]
  refine ⟨?_, get_PC_target _ _ hz', OnlyRegs_trans hG (OnlyRegs_set _ _ _ _ _ _)⟩
  have hrd : ((s.setG e rd v).set ENG_PC z.toNat e).rd (ENG_G.addr e rd) = (s.setG e rd v).rd (ENG_G.addr e rd) :=
    State.rd_set_other _ _ _ _ _ _ _ (by simp [Fld.addr]; omega)
  rw [State.g, if_neg h0, hrd, State.setG, if_neg h0, State.rd_wr_same]

/-! ### Traps (R94, R116) -/

/-- An instruction command that issues its word with an operation that traps. -/
theorem trapResult_of {s : State} {e : Eng} {i : Instr} {w : Word} {op : State → UOut} {c : Nat} (h : Runs s e) (hw : instrWord i = some (e, w))
    (hi : exec i s = .next (s.issue e w op)) (hop : op s = .trap c) : TrapResult s e c i :=
  ⟨e, w, hw, rfl, by rw [hi, issue_T h hop]⟩

/-- Control passed out of code memory traps with CODE_RANGE (R94). -/
theorem trapResult_jump {s t : State} {e : Eng} {i : Instr} {w : Word} {op : State → UOut} {z : Int} (h : Runs s e) (hw : instrWord i = some (e, w))
    (hi : exec i s = .next (s.issue e w op)) (hop : op s = .jump z t) (hz : z < 0 ∨ 0x10000 ≤ z) : TrapResult s e 5 i := by
  refine ⟨e, w, hw, rfl, ?_⟩
  obtain ⟨hrun, herr, -, -, -⟩ := h
  rw [hi]
  simp only [State.issue, hrun, herr, hop, State.settle, if_true, if_false, Bool.false_eq_true, if_pos hz]

/-! ### The engine's state set, with the running view of its unit (R118) -/

/-- The registers that a change of an engine's state may write. -/
def engRegs (e : Nat) : List Nat := [ENG_STAT.addr e, GLB_UST.addr (engUnit e), GLB_SKEW_MAP.addr (engUnit e / 32)]

theorem setEng_only (s : State) (e st cause : Nat) : OnlyEv (engRegs e) s (s.setEng e st cause) :=
  OnlyEv_trans (OnlyEv_set s ENG_STAT_STATE st e 0 0) (setRun_only _ _ _ _)

/-- A register of the engines' block is no register of a unit's views, nor one of reporting. -/
theorem rd_setRun_eng (s : State) {e : Nat} (run cause : Nat) (he : e < 28) {a : Nat} (ha : 0x81000 ≤ a) : (s.setRun (engUnit e) run cause).rd a = s.rd a := by
  refine (setRun_only s (engUnit e) run cause).1 a ?_ (evReg_above (by omega))
  simp only [List.mem_cons, List.not_mem_nil, or_false, Fld.addr, engUnit]
  omega

theorem setEng_state (s : State) {e st : Nat} (cause : Nat) (he : e < 28) (hst : st < 8) : (s.setEng e st cause).engState e = st := by
  have hrd := rd_setRun_eng (s.set ENG_STAT_STATE st e) (if st = 0 then 0 else if st = 1 then 1 else if st = 4 then 3 else 2) cause he
    (a := ENG_STAT_STATE.addr e) (by simp only [Fld.addr]; omega)
  rw [State.engState, State.setEng, State.get_congr _ _ _ _ hrd, State.get_set_same _ _ _ _ _ _ (by decide)]
  exact Nat.mod_eq_of_lt hst

/-- A field of ENG_STAT beside STATE stays. -/
theorem setEng_stat (s : State) {e : Nat} (st cause : Nat) (he : e < 28) (f : Fld) (hf : f.addr e = ENG_STAT.addr e) (hlo : 3 ≤ f.lo) :
    (s.setEng e st cause).get f e = s.get f e := by
  have hrd := rd_setRun_eng (s.set ENG_STAT_STATE st e) (if st = 0 then 0 else if st = 1 then 1 else if st = 4 then 3 else 2) cause he
    (a := f.addr e) (by rw [hf]; simp only [Fld.addr]; omega)
  rw [State.setEng, State.get_congr _ _ _ _ hrd]
  exact State.get_set_bits _ _ _ _ _ _ _ _ _ _ (.inr hlo)

/-- A register of the engines' block other than ENG_STAT stays. -/
theorem setEng_rd (s : State) {e : Nat} (st cause : Nat) (he : e < 28) {a : Nat} (ha : 0x81000 ≤ a) (hne : a ≠ ENG_STAT.addr e) :
    (s.setEng e st cause).rd a = s.rd a := by
  rw [State.setEng, rd_setRun_eng _ _ _ he ha]
  exact State.rd_set_other _ _ _ _ _ _ _ hne

theorem setEng_ex (s : State) (e st cause e' : Nat) : (s.setEng e st cause).ex e' = s.ex e' := OnlyEv_ex (setEng_only s e st cause) e'

theorem ex_setEx (s : State) (e : Nat) (x : EngX) : (s.setEx e x).ex e = x := smGet_put_same ..

/-! ### Issue stops (R98, R118, R119) -/

theorem issue_wait {s t : State} {e : Nat} {w : Word} {op : State → UOut} {u : UWait} (h : Runs s e) (hop : op s = .wait u t) : s.issue e w op =
    (((t.setEx e { t.ex e with wait := some u }).set ENG_STAT_WAIT_KIND u.kind e).set ENG_STAT_WAIT_UNIT u.unit e).setEng e 3 := by
  obtain ⟨hrun, herr, -, -, hpc⟩ := h
  simp only [State.issue, hrun, herr, hop, State.settle, if_true, if_false, Bool.false_eq_true, show ¬ s.get ENG_PC e = 0xFFFC by omega]

/-- An instruction that stops issue and changes nothing beside. -/
theorem issue_W {s : State} {e : Nat} {w : Word} {op : State → UOut} {u : UWait} (h : Runs s e) (he : e < 28) (hk : u.kind < 16) (hu : u.unit < 32)
    (hop : op s = .wait u s) : WaitResult s e u (.next (s.issue e w op)) := by
  refine ⟨_, rfl, ?_⟩
  rw [issue_wait h hop]
  refine ⟨setEng_state _ _ he (by decide), ?_, ?_, ?_, ?_⟩
  · rw [setEng_stat _ _ _ he ENG_STAT_WAIT_KIND rfl (by decide), State.get_set_bits _ _ _ _ _ _ _ _ _ _ (by decide),
      State.get_set_same _ _ _ _ _ _ (by decide)]
    exact Nat.mod_eq_of_lt hk
  · rw [setEng_stat _ _ _ he ENG_STAT_WAIT_UNIT rfl (by decide), State.get_set_same _ _ _ _ _ _ (by decide)]
    exact Nat.mod_eq_of_lt hu
  · rw [setEng_ex]
    exact congrArg EngX.wait (ex_setEx s e { s.ex e with wait := some u })
  · refine State.get_congr _ _ _ _ ?_
    rw [setEng_rd _ _ _ he (by simp only [Fld.addr]; omega) (by simp [Fld.addr]), State.rd_set_other _ _ _ _ _ _ _ (by simp [Fld.addr]),
      State.rd_set_other _ _ _ _ _ _ _ (by simp [Fld.addr])]
    rfl

/-- An instruction that halts the engine: it is HALTED, its PC at the next instruction (R94). -/
theorem issue_stop {s : State} {e : Nat} {w : Word} {op : State → UOut} (h : Runs s e) (he : e < 28) (hop : op s = .stop s) :
    Gives (.next (s.issue e w op)) fun t => t.engState e = 1 ∧ t.get ENG_PC e = s.get ENG_PC e + 4 := by
  refine ⟨_, rfl, ?_⟩
  have hpc := get_PC_next s h
  obtain ⟨hrun, herr, -, -, hlt⟩ := h
  simp only [State.issue, hrun, herr, hop, State.settle, if_true, if_false, Bool.false_eq_true, show ¬ s.get ENG_PC e = 0xFFFC by omega]
  have hev : ∀ f : Fld, 0x81000 ≤ f.addr e → evReg (f.addr e) = false := fun f hf => evReg_above (by omega)
  refine ⟨?_, ?_⟩
  · rw [State.engState, State.get_raise _ _ _ _ _ _ _ _ (hev _ (by simp only [Fld.addr]; omega))]
    exact setEng_state _ _ he (by decide)
  · rw [State.get_raise _ _ _ _ _ _ _ _ (hev _ (by simp only [Fld.addr]; omega))]
    exact (State.get_congr ENG_PC _ _ _ (setEng_rd _ _ _ he (by simp only [Fld.addr]; omega) (by simp [Fld.addr]))).trans hpc

end Sys2Proof.Machine

/-! SUPPORT for the proofs. The arithmetic of the integer instructions in the terms of R90: high products, extremes, leading zeros and set bits. -/

namespace Sys2Proof.Machine

open Sys2Proof.Safety

/-! ### Products (R90) -/

/-- The 64-bit product of two signed words (R90, R95). -/
theorem product_eq (a b : Word) : a.signExtend 64 * b.signExtend 64 = BitVec.ofInt 64 (a.toInt * b.toInt) := by
  rw [BitVec.ofInt_mul]
  rfl

theorem mulhs_eq (a b : Word) : mulhs a b = ((a.signExtend 64 * b.signExtend 64) >>> 32).setWidth 32 := by
  apply BitVec.eq_of_toNat_eq
  rw [product_eq, mulhs, BitVec.toNat_setWidth, BitVec.toNat_ushiftRight, BitVec.toNat_ofInt, BitVec.toNat_ofInt, Nat.shiftRight_eq_div_pow]
  generalize a.toInt * b.toInt = p
  omega

theorem mulhu_eq (a b : Word) : mulhu a b = ((a.setWidth 64 * b.setWidth 64) >>> 32).setWidth 32 := by
  have hprod : a.toNat * b.toNat < 2 ^ 32 * 2 ^ 32 := Nat.mul_lt_mul'' a.isLt b.isLt
  have hprod : a.toNat * b.toNat < 2 ^ 64 := by omega
  apply BitVec.eq_of_toNat_eq
  rw [mulhu, BitVec.toNat_setWidth, BitVec.toNat_ushiftRight, BitVec.toNat_mul, BitVec.toNat_ofNat, Nat.shiftRight_eq_div_pow,
    BitVec.toNat_setWidth_of_le (by decide), BitVec.toNat_setWidth_of_le (by decide), Nat.mod_eq_of_lt hprod]

/-! ### Extremes of two values of one width (R90, R110) -/

theorem mins_eq {n : Nat} (a b : BitVec n) : mins a b = if a.toInt ≤ b.toInt then a else b := by
  rcases Int.lt_trichotomy a.toInt b.toInt with h | h | h
  · simp [mins, BitVec.slt, h, Int.le_of_lt h]
  · simp [BitVec.eq_of_toInt_eq h, mins]
  · simp [mins, BitVec.slt, Int.not_lt.2 (Int.le_of_lt h), Int.not_le.2 h]

theorem maxs_eq {n : Nat} (a b : BitVec n) : maxs a b = if a.toInt ≤ b.toInt then b else a := by
  rcases Int.lt_trichotomy a.toInt b.toInt with h | h | h
  · simp [maxs, BitVec.slt, h, Int.le_of_lt h]
  · simp [BitVec.eq_of_toInt_eq h, maxs]
  · simp [maxs, BitVec.slt, Int.not_lt.2 (Int.le_of_lt h), Int.not_le.2 h]

theorem minu_eq {n : Nat} (a b : BitVec n) : minu a b = if a.toNat ≤ b.toNat then a else b := by
  rcases Nat.lt_trichotomy a.toNat b.toNat with h | h | h
  · simp [minu, BitVec.ult, h, Nat.le_of_lt h]
  · simp [BitVec.eq_of_toNat_eq h, minu]
  · simp [minu, BitVec.ult, Nat.not_lt.2 (Nat.le_of_lt h), Nat.not_le.2 h]

theorem maxu_eq {n : Nat} (a b : BitVec n) : maxu a b = if a.toNat ≤ b.toNat then b else a := by
  rcases Nat.lt_trichotomy a.toNat b.toNat with h | h | h
  · simp [maxu, BitVec.ult, h, Nat.le_of_lt h]
  · simp [BitVec.eq_of_toNat_eq h, maxu]
  · simp [maxu, BitVec.ult, Nat.not_lt.2 (Nat.le_of_lt h), Nat.not_le.2 h]

/-! ### Leading zeros and set bits (R90) -/

theorem bitN_toNat {n : Nat} (a : BitVec n) (i : Nat) : bitN a.toNat i = a.getLsbD i := bitN_testBit _ _

/-- The numbers below `n` that come before the first one without `p`. -/
theorem length_takeWhile_range {p : Nat → Bool} {n k : Nat} (hk : k ≤ n) (hbefore : ∀ i < k, p i = true) (hat : k < n → p k = false) :
    ((List.range n).takeWhile p).length = k := by
  obtain ⟨m, rfl⟩ := Nat.exists_eq_add_of_le hk
  have hfront : ∀ i ∈ List.range k, p i = true := fun i hi => hbefore i (List.mem_range.1 hi)
  rw [List.range_add, List.takeWhile_append_of_pos hfront]
  cases m with
  | zero => simp
  | succ m => simp [List.range_succ_eq_map, hat (by omega)]

theorem clz_eq (a : Word) : clz a = BitVec.ofNat 32 (if a = 0 then 32 else 31 - a.toNat.log2) := by
  unfold clz
  congr 1
  split
  · next h =>
    subst h
    exact length_takeWhile_range (Nat.le_refl _) (fun i _ => by simp [bitN]) (by omega)
  · next h =>
    have h0 : a.toNat ≠ 0 := fun h0 => h (BitVec.eq_of_toNat_eq h0)
    have htop : a.toNat.log2 < 32 := (Nat.log2_lt h0).2 a.isLt
    refine length_takeWhile_range (by omega) (fun i hi => ?_) fun _ => ?_
    · rw [bitN_testBit, Nat.testBit_lt_two_pow (Nat.lt_of_lt_of_le Nat.lt_log2_self (Nat.pow_le_pow_right (by decide) (by omega)))]
      rfl
    · rw [show 31 - (31 - a.toNat.log2) = a.toNat.log2 by omega, bitN_testBit, Nat.testBit_log2 h0]
      rfl

theorem popc_eq (a : Word) : popc a = BitVec.ofNat 32 ((List.range 32).countP fun i => a.getLsbD i) := by
  rw [popc, List.countP_eq_length_filter]
  simp only [bitN_toNat]

end Sys2Proof.Machine

/-! PROOFS. The integer instructions (R90, R91). -/

namespace Sys2Proof.Machine

open Sys2Proof.Safety

/-- SETF takes the four low bits of its register as the flags. -/
theorem flag_setFlags (s t : State) (e : Nat) (v : Word) (ht : t.rd (ENG_FLAGS.addr e) = (s.setFlags e v).rd (ENG_FLAGS.addr e)) {k : Nat} (hk : k < 4) :
    t.flag e k = v.getLsbD k := by
  rw [State.flag, State.get_congr _ _ _ _ ht, State.setFlags, State.get_set_same _ _ _ _ _ _ (by decide), bitN_testBit,
    Nat.mod_eq_of_lt (Nat.lt_of_lt_of_le (Nat.mod_lt _ (by decide)) (by decide)), show (16 : Nat) = 2 ^ 4 from rfl, Nat.testBit_mod_two_pow]
  simp [hk, BitVec.getLsbD]

/-- SETF (R90). -/
theorem exec_setf {s : State} {e : Eng} (ra : Fin 32) (h : Runs s e) :
    exec (.setf e ra) s = .next ((s.setFlags e (s.g e ra)).set ENG_PC (s.get ENG_PC e + 4) e) :=
  congrArg Host.Outcome.next (issue_next h rfl (OnlyRegs_set _ _ _ _ _ _) fun a ha => by
    rw [List.mem_singleton.1 ha]
    simp [Fld.addr]
    omega)

/-- Settles O1: every instruction writes one G register (`issue_G`) with the value R90 names; SETF writes the flags. -/
theorem integerRegisterResults : Obligations.IntegerRegisterResults := by
  unfold Obligations.IntegerRegisterResults
  intro s e rd ra rb n f h a b
  have hrd := rd.isLt
  refine ⟨issue_G h hrd rfl, issue_G h hrd rfl, issue_G h hrd rfl, issue_G h hrd rfl, issue_G h hrd rfl, issue_G h hrd rfl, issue_G h hrd rfl,
    issue_G h hrd rfl, issue_G h hrd rfl, issue_G_of_eq (mulhs_eq a b) h hrd rfl, issue_G_of_eq (mulhu_eq a b) h hrd rfl,
    issue_G_of_eq (mins_eq a b) h hrd rfl, issue_G_of_eq (maxs_eq a b) h hrd rfl, issue_G_of_eq (minu_eq a b) h hrd rfl,
    issue_G_of_eq (maxu_eq a b) h hrd rfl, issue_G h hrd rfl, issue_G_of_eq (clz_eq a) h hrd rfl, issue_G_of_eq (popc_eq a) h hrd rfl,
    issue_G h hrd rfl, issue_G h hrd rfl, issue_G h hrd rfl, issue_G h hrd rfl, _, exec_setf ra h, fun k hk => ?_, get_PC_next _ h,
    OnlyRegs_trans (OnlyRegs_set _ _ _ _ _ _) (OnlyRegs_set _ _ _ _ _ _)⟩
  refine flag_setFlags s _ e a (State.rd_set_other _ _ _ _ _ _ _ ?_) hk
  simp [Fld.addr]
  omega

/-- Settles O2: the immediates extended as R91 gives them. -/
theorem integerImmediateResults : Obligations.IntegerImmediateResults := by
  unfold Obligations.IntegerImmediateResults
  intro s e rd ra imm h
  have hrd := rd.isLt
  rw [← simm_eq, ← zimm_eq]
  exact ⟨issue_G h hrd rfl, issue_G h hrd rfl, issue_G h hrd rfl, issue_G h hrd rfl, issue_G h hrd rfl⟩

end Sys2Proof.Machine

/-! PROOFS. Compares and the arithmetic of positions (R92, R95). -/

namespace Sys2Proof.Machine

open Sys2Proof.Safety

/-- COND 0 to 5 (R92). -/
theorem holds_condHolds {n : Nat} (c : Fin 8) (a b : BitVec n) (hc : c.val < 6) : holds c a b = some (condHolds c a b) := by
  obtain ⟨c, hlt⟩ := c
  change c < 6 at hc
  interval_cases c
  · exact congrArg some (Bool.eq_iff_iff.2 (by simp [condHolds]))
  · exact congrArg some (Bool.eq_iff_iff.2 (by simp [condHolds]))
  · rfl
  · exact congrArg some (Bool.eq_iff_iff.2 (by simp [condHolds, BitVec.slt]))
  · rfl
  · exact congrArg some (Bool.eq_iff_iff.2 (by simp [condHolds, BitVec.ult]))

/-- COND 6 and 7 (R92). -/
theorem holds_none {n : Nat} {c : Nat} (a b : BitVec n) (hc : 6 ≤ c) : holds c a b = none := by
  obtain ⟨k, rfl⟩ := Nat.exists_eq_add_of_le' hc
  rfl

theorem cmpOut_next {n : Nat} (e f : Nat) (c : Fin 8) (a b : BitVec n) (s : State) (hc : c.val < 6) :
    cmpOut e c f a b s = .next (s.setFlag e f (condHolds c a b)) := by
  rw [cmpOut, holds_condHolds c a b hc]

theorem cmpOut_trap {n : Nat} (e c f : Nat) (a b : BitVec n) (s : State) (hc : 6 ≤ c) : cmpOut e c f a b s = .trap 1 := by
  rw [cmpOut, holds_none a b hc]

/-- Settles O3: the three compares are one operation on two values of one width. -/
theorem comparesWriteOneFlag : Obligations.ComparesWriteOneFlag := by
  unfold Obligations.ComparesWriteOneFlag
  intro s e c f ra rb pa pb imm h
  rw [← simm_eq]
  exact ⟨fun hc => ⟨issue_F h f.isLt (cmpOut_next _ _ _ _ _ _ hc), issue_F h f.isLt (cmpOut_next _ _ _ _ _ _ hc),
      issue_F h f.isLt (cmpOut_next _ _ _ _ _ _ hc)⟩,
    fun hc => ⟨trapResult_of h rfl rfl (cmpOut_trap _ _ _ _ _ _ hc), trapResult_of h rfl rfl (cmpOut_trap _ _ _ _ _ _ hc),
      trapResult_of h rfl rfl (cmpOut_trap _ _ _ _ _ _ hc)⟩⟩

theorem extractLsb'_low (x : Dword) : x.setWidth 32 = x.extractLsb' 0 32 := by
  apply BitVec.eq_of_toNat_eq
  simp

theorem extractLsb'_high (x : Dword) : (x >>> 32).setWidth 32 = x.extractLsb' 32 32 := by
  apply BitVec.eq_of_toNat_eq
  simp

/-- Settles O6: every instruction writes one P register (`issue_P`), one G register or one flag. -/
theorem positionArithmeticResults : Obligations.PositionArithmeticResults := by
  unfold Obligations.PositionArithmeticResults
  intro s e pd pa pb c f rd ra rb n h
  have hpd := pd.isLt
  rw [← product_eq, ← extractLsb'_low, ← extractLsb'_low, ← extractLsb'_high]
  exact ⟨issue_P h hpd rfl, issue_P h hpd rfl, issue_P h hpd rfl, issue_P h hpd rfl, issue_P h hpd rfl, issue_P h hpd rfl,
    issue_G h rd.isLt rfl, issue_G h rd.isLt rfl, issue_P h hpd rfl, issue_P h hpd rfl, issue_P h hpd rfl, issue_P h hpd rfl,
    fun hc => issue_F h f.isLt (cmpOut_next _ _ _ _ _ _ hc), fun hc => trapResult_of h rfl rfl (cmpOut_trap _ _ _ _ _ _ hc)⟩

end Sys2Proof.Machine

/-! PROOFS. Loads and stores of data memory (R84, R93). -/

namespace Sys2Proof.Machine

open Sys2Proof.Safety

/-! ### The address and its checks (R93) -/

theorem memAddr_eq (s : State) (e ra : Nat) (imm : BitVec 16) : memAddr s e ra imm.toNat = (s.g e ra + imm.signExtend 32).toNat := by
  rw [memAddr, simm_eq]

theorem memTrap_ok {e a n : Nat} (h : DataOk e a n) : memTrap e a n = none := by
  obtain ⟨hrange, halign⟩ := h
  rw [memTrap, if_neg (by omega), if_neg (by omega)]

theorem memTrap_range {e a : Nat} (n : Nat) (h : dataSize e ≤ a) : memTrap e a n = some 3 := by rw [memTrap, if_pos h]

theorem memTrap_align {e a n : Nat} (hrange : a < dataSize e) (halign : a % n ≠ 0) : memTrap e a n = some 4 := by
  rw [memTrap, if_neg (by omega), if_pos halign]

theorem dataSize_le (e : Nat) : dataSize e ≤ 262144 := by
  unfold dataSize
  split <;> decide

/-- An aligned access in range ends in range, whose size is a multiple of the access. -/
theorem dataOk_end_le {e a n : Nat} (h : DataOk e a n) (hn : n ∣ 32768) : a + n ≤ 262144 := by
  obtain ⟨hrange, halign⟩ := h
  have hsize : n ∣ dataSize e := by
    unfold dataSize
    split
    · exact hn.trans (by decide)
    · exact hn
  have hgap := Nat.le_of_dvd (by omega) (Nat.dvd_sub hsize (Nat.dvd_of_mod_eq_zero halign))
  have := dataSize_le e
  omega

/-! ### What a load and a store answer -/

theorem opLoad_ok {s : State} {n e ra imm : Nat} (rd : Nat) (h : memTrap e (memAddr s e ra imm) n = none) :
    opLoad n e rd ra imm s = .next (s.setG e rd (BitVec.ofNat 32 (s.dld e (memAddr s e ra imm) n))) := by rw [opLoad, h]

theorem opStore_ok {s : State} {n e ra imm : Nat} (rd : Nat) (h : memTrap e (memAddr s e ra imm) n = none) :
    opStore n e rd ra imm s = .next (s.dst e (memAddr s e ra imm) n (s.g e rd).toNat) := by rw [opStore, h]

theorem opPld_ok {s : State} {e ra imm : Nat} (pd : Nat) (h : memTrap e (memAddr s e ra imm) 8 = none) :
    opPld e pd ra imm s = .next (s.setP e pd (BitVec.ofNat 64 (s.dld e (memAddr s e ra imm) 8))) := by rw [opPld, h]

theorem opPst_ok {s : State} {e ra imm : Nat} (pd : Nat) (h : memTrap e (memAddr s e ra imm) 8 = none) :
    opPst e pd ra imm s = .next (s.dst e (memAddr s e ra imm) 8 (s.pr e pd).toNat) := by rw [opPst, h]

theorem opLoad_trap {s : State} {n e ra imm c : Nat} (rd : Nat) (h : memTrap e (memAddr s e ra imm) n = some c) :
    opLoad n e rd ra imm s = .trap c := by rw [opLoad, h]

theorem opStore_trap {s : State} {n e ra imm c : Nat} (rd : Nat) (h : memTrap e (memAddr s e ra imm) n = some c) :
    opStore n e rd ra imm s = .trap c := by rw [opStore, h]

theorem opPld_trap {s : State} {e ra imm c : Nat} (pd : Nat) (h : memTrap e (memAddr s e ra imm) 8 = some c) :
    opPld e pd ra imm s = .trap c := by rw [opPld, h]

theorem opPst_trap {s : State} {e ra imm c : Nat} (pd : Nat) (h : memTrap e (memAddr s e ra imm) 8 = some c) :
    opPst e pd ra imm s = .trap c := by rw [opPst, h]

theorem leNum_one (x : Nat) : leNum [x] = x % 256 := by simp [leNum]

/-- A byte loaded is that byte. -/
theorem ofNat_dld_one (s : State) (e a : Nat) : BitVec.ofNat 32 (s.dld e a 1) = (s.dmem e a).setWidth 32 := by
  have hlt := (s.dmem e a).isLt
  have hdld : s.dld e a 1 = (s.dmem e a).toNat := by
    rw [State.dld, show List.range 1 = [0] from rfl, List.map_singleton, leNum_one]
    exact Nat.mod_eq_of_lt hlt
  rw [hdld]
  apply BitVec.eq_of_toNat_eq
  simp

/-- An operation that changes data memory alone: the engine goes on, and registers stay but for the PC. -/
theorem issue_data {s t : State} {e : Nat} {w : Word} {op : State → UOut} (h : Runs s e) (hop : op s = .next t)
    (ht : t = { s with engData := t.engData }) :
    s.issue e w op = t.set ENG_PC (s.get ENG_PC e + 4) e ∧ (∀ x, x ≠ ENG_PC.addr e → (t.set ENG_PC (s.get ENG_PC e + 4) e).rd x = s.rd x) ∧
      t.set ENG_PC (s.get ENG_PC e + 4) e =
        { s with regs := (t.set ENG_PC (s.get ENG_PC e + 4) e).regs, engData := (t.set ENG_PC (s.get ENG_PC e + 4) e).engData } := by
  have hrd : ∀ x, t.rd x = s.rd x := fun x => by rw [ht]; rfl
  refine ⟨issue_goes_on h hop (hrd _) (hrd _) (by rw [ht]; rfl), fun x hx => ?_, ?_⟩
  · rw [State.rd_set_other _ _ _ _ _ _ _ hx, hrd]
  · rw [State.set_regs, ht]

/-- An instruction that stores the low bytes of a value. -/
theorem issue_store {s : State} {e a n v : Nat} {w : Word} {op : State → UOut} (h : Runs s e) (hop : op s = .next (s.dst e a n v)) (ha : a + n ≤ 262144) :
    StoreResult s e a n v (.next (s.issue e w op)) := by
  obtain ⟨hissue, hregs, hrest⟩ := issue_data (w := w) h hop (dst_only s e a n v)
  refine ⟨_, rfl, ?_⟩
  rw [hissue]
  refine ⟨dld_dst_same s _ e a n v ha rfl, fun e' a' ha' hne => ?_, get_PC_next _ h, hregs, hrest⟩
  change (s.dst e a n v).dmem e' a' = s.dmem e' a'
  rw [dmem_dst, if_neg (by omega)]

/-- Settles O4: `issue_G`, `issue_P` and `issue_store` where the address is in range and aligned, and the two traps of R93. -/
theorem loadsAndStoresOfDataMemory : Obligations.LoadsAndStoresOfDataMemory := by
  unfold Obligations.LoadsAndStoresOfDataMemory
  intro s e rd ra pd imm h
  rw [← memAddr_eq]
  intro a
  have hrd := rd.isLt
  refine ⟨fun ha => ?_, fun ha => ?_, fun ha => ?_, fun ha => ?_, fun ha => ?_, fun ha => ⟨fun hal => ?_, fun hal => ?_, fun hal => ?_⟩⟩
  · exact ⟨issue_G h hrd (opLoad_ok rd (memTrap_ok ha)), issue_store h (opStore_ok rd (memTrap_ok ha)) (dataOk_end_le ha (by decide))⟩
  · exact ⟨issue_G h hrd (opLoad_ok rd (memTrap_ok ha)), issue_store h (opStore_ok rd (memTrap_ok ha)) (dataOk_end_le ha (by decide))⟩
  · rw [← ofNat_dld_one]
    exact ⟨issue_G h hrd (opLoad_ok rd (memTrap_ok ha)), issue_store h (opStore_ok rd (memTrap_ok ha)) (dataOk_end_le ha (by decide))⟩
  · exact ⟨issue_P h pd.isLt (opPld_ok pd (memTrap_ok ha)), issue_store h (opPst_ok pd (memTrap_ok ha)) (dataOk_end_le ha (by decide))⟩
  · have hload : ∀ n, opLoad n e rd ra imm.toNat s = .trap 3 := fun n => opLoad_trap rd (memTrap_range n ha)
    have hstore : ∀ n, opStore n e rd ra imm.toNat s = .trap 3 := fun n => opStore_trap rd (memTrap_range n ha)
    exact ⟨trapResult_of h rfl rfl (hload 4), trapResult_of h rfl rfl (hload 2), trapResult_of h rfl rfl (hload 1), trapResult_of h rfl rfl (hstore 4),
      trapResult_of h rfl rfl (hstore 2), trapResult_of h rfl rfl (hstore 1), trapResult_of h rfl rfl (opPld_trap pd (memTrap_range 8 ha)),
      trapResult_of h rfl rfl (opPst_trap pd (memTrap_range 8 ha))⟩
  · exact ⟨trapResult_of h rfl rfl (opLoad_trap rd (memTrap_align ha hal)), trapResult_of h rfl rfl (opStore_trap rd (memTrap_align ha hal))⟩
  · exact ⟨trapResult_of h rfl rfl (opLoad_trap rd (memTrap_align ha hal)), trapResult_of h rfl rfl (opStore_trap rd (memTrap_align ha hal))⟩
  · exact ⟨trapResult_of h rfl rfl (opPld_trap pd (memTrap_align ha hal)), trapResult_of h rfl rfl (opPst_trap pd (memTrap_align ha hal))⟩

end Sys2Proof.Machine

/-! PROOFS. Control transfers (R94). -/

namespace Sys2Proof.Machine

open Sys2Proof.Safety

theorem sx_toNat {w : Nat} (x : BitVec w) : sx w x.toNat = x.toInt := by
  rw [sx, BitVec.toInt_eq_toNat_cond, Nat.mod_eq_of_lt x.isLt]

theorem target_eq (s : State) (e : Nat) {w : Nat} (off : BitVec w) : target s e w off.toNat = (s.get ENG_PC e : Int) + 4 * off.toInt := by
  rw [target, sx_toNat]

/-- BR: the three conditions that are assigned (R94). -/
theorem opBr_taken {s : State} {e : Nat} {c : Fin 8} {f : Fin 4} (off : Nat) (h : c = 0 ∨ (c = 1 ∧ s.flag e f = true) ∨ (c = 2 ∧ s.flag e f = false)) :
    opBr e c f off s = .jump (target s e 21 off) s := by
  rcases h with rfl | ⟨rfl, hf⟩ | ⟨rfl, hf⟩
  · rfl
  · exact if_pos hf
  · exact if_neg (by simp [hf])

theorem opBr_notTaken {s : State} {e : Nat} {c : Fin 8} {f : Fin 4} (off : Nat) (hc : c.val < 3)
    (h : ¬ (c = 0 ∨ (c = 1 ∧ s.flag e f = true) ∨ (c = 2 ∧ s.flag e f = false))) : opBr e c f off s = .next s := by
  have hcases : c = 0 ∨ c = 1 ∨ c = 2 := by omega
  rcases hcases with rfl | rfl | rfl
  · simp at h
  · exact if_neg fun hf => h (.inr (.inl ⟨rfl, hf⟩))
  · exact if_pos (by simpa using h)

theorem opBr_illegal (s : State) (e f off : Nat) {c : Nat} (hc : 3 ≤ c) : opBr e c f off s = .trap 1 := by
  obtain ⟨k, rfl⟩ := Nat.exists_eq_add_of_le' hc
  rfl

/-- DBNZ goes on where the register then reads 0 (R94). -/
theorem opDbnz_next {s : State} {e rd : Nat} (imm : Nat) (h : rd = 0 ∨ s.g e rd - 1 = 0) : opDbnz e rd imm s = .next (s.setG e rd (s.g e rd - 1)) := by
  have hz : (s.setG e rd (s.g e rd - 1)).g e rd = 0 := by
    rw [g_setG]
    split
    · rfl
    · exact h.resolve_left ‹_›
  exact if_pos hz

theorem opDbnz_jump {s : State} {e rd : Nat} (imm : Nat) (h0 : rd ≠ 0) (hv : s.g e rd - 1 ≠ 0) :
    opDbnz e rd imm s = .jump (target s e 16 imm) (s.setG e rd (s.g e rd - 1)) :=
  if_neg (by rwa [g_setG, if_neg h0])

/-- JR (R94, R499). -/
theorem opJr_range {s : State} {e ra : Nat} (h : 0x10000 ≤ (s.g e ra).toNat) : opJr e ra s = .trap 5 := if_pos h

theorem opJr_align {s : State} {e ra : Nat} (h : (s.g e ra).toNat < 0x10000) (hal : (s.g e ra).toNat % 4 ≠ 0) : opJr e ra s = .trap 6 := by
  rw [opJr, if_neg (by omega), if_pos hal]

theorem opJr_jump {s : State} {e ra : Nat} (h : (s.g e ra).toNat < 0x10000) (hal : (s.g e ra).toNat % 4 = 0) :
    opJr e ra s = .jump ((s.g e ra).toNat : Int) s := by
  rw [opJr, if_neg (by omega), if_neg (by omega)]

/-- Settles O5: each transfer jumps, goes on, traps or halts by its condition and its target. -/
theorem controlTransfers : Obligations.ControlTransfers := by
  unfold Obligations.ControlTransfers
  intro s e c f off rd ra imm h
  dsimp only
  rw [← target_eq s e off, ← target_eq s e imm]
  refine ⟨fun _ ht hz hz' => issue_jump h (opBr_taken _ ht) hz hz', fun _ ht hz => trapResult_jump h rfl rfl (opBr_taken _ ht) hz,
    fun hc ht => issue_nothing h (opBr_notTaken _ hc ht), fun hc => trapResult_of h rfl rfl (opBr_illegal s e f _ hc),
    fun hz hz' => issue_jumpG h (by decide) (by decide) rfl hz hz', fun hz => trapResult_jump h rfl rfl rfl hz,
    fun hr hal => ?_, fun hr => trapResult_of h rfl rfl (opJr_range hr), fun hr hal => trapResult_of h rfl rfl (opJr_align hr hal),
    fun hv => issue_G h rd.isLt (opDbnz_next _ (hv.imp_left Fin.val_eq_of_eq)), fun h0 hv hz hz' => ?_, fun h0 hv hz => ?_,
    issue_stop h e.isLt rfl⟩
  · exact issue_jump h (opJr_jump hr hal) (by omega) (by omega)
  · exact issue_jumpG h (Fin.val_ne_of_ne h0) rd.isLt (opDbnz_jump _ (Fin.val_ne_of_ne h0) hv) hz hz'
  · exact trapResult_jump h rfl rfl (opDbnz_jump _ (Fin.val_ne_of_ne h0) hv) hz

end Sys2Proof.Machine

/-! PROOFS. Reads of the press (R96, R97). -/

namespace Sys2Proof.Machine

open Sys2Proof.Safety

/-- IORD at an address that is no register of BAR0 (R96). -/
theorem opIord_trap {s : State} {e ra imm : Nat} (rd : Nat) (h : 0x4000000 ≤ memAddr s e ra imm ∨ memAddr s e ra imm % 4 ≠ 0) :
    opIord e rd ra imm s = .trap 8 := if_pos h

theorem opIord_next {s : State} {e ra imm : Nat} (rd : Nat) (h : memAddr s e ra imm < 0x4000000) (hal : memAddr s e ra imm % 4 = 0) :
    opIord e rd ra imm s = .next ((s.readReg (1 + e) (memAddr s e ra imm)).2.setG e rd (s.readReg (1 + e) (memAddr s e ra imm)).1) := by
  rw [opIord, if_neg (by omega)]

theorem issue_prd {s : State} {e : Eng} {pd : Fin 8} {unit : Fin 32} {mode : Fin 16} {z : Int} (h : Runs s e) (hz : prdVal s e mode unit = some z) :
    PResult s e pd (BitVec.ofInt 64 z) (exec (.prd e pd unit mode) s) :=
  issue_P h pd.isLt (by rw [opPrd, hz]; rfl)

theorem trapResult_prd {s : State} {e : Eng} {pd : Fin 8} {unit : Fin 32} {mode : Fin 16} (h : Runs s e) (hz : prdVal s e mode unit = none) :
    TrapResult s e 1 (.prd e pd unit mode) :=
  trapResult_of h rfl rfl (by rw [opPrd, hz])

/-- The position of a line clock (R97 mode 0). -/
theorem posSrc_bar (s : State) {unit : Nat} (h : 16 ≤ unit) (h' : unit < 32) :
    posSrc s unit false = some (s.pos (s.get GEK_LC_CTL_TRK (unit - 16)) - s.lcOffset (unit - 16)) := by
  rw [posSrc, if_neg (by omega), if_pos ⟨h, h'⟩]
  rfl

theorem posSrc_tracker (s : State) {unit : Nat} (h : unit < 4) : posSrc s unit false = some (s.pos unit) := by
  rw [posSrc, if_pos h]
  rfl

theorem posSrc_line (s : State) {unit : Nat} (h : 16 ≤ unit) (h' : unit < 32) : posSrc s unit true = some (s.line (unit - 16)) := by
  rw [posSrc, if_neg (by omega), if_pos ⟨h, h'⟩]
  rfl

theorem posSrc_none (s : State) {unit : Nat} (line : Bool) (h : 4 ≤ unit) (h' : unit < 16) : posSrc s unit line = none := by
  rw [posSrc, if_neg (by omega), if_neg (by omega)]

/-- No value has a MODE above 6 (R97). -/
theorem prdVal_mode (s : State) (e unit : Nat) {mode : Nat} (h : 6 < mode) : prdVal s e mode unit = none := by
  obtain ⟨k, rfl⟩ := Nat.exists_eq_add_of_le' h
  rfl

/-- Settles O7: IORD reads through the engine's latch; PRD by the rows of R97, and traps outside them. -/
theorem readsOfPressState : Obligations.ReadsOfPressState := by
  unfold Obligations.ReadsOfPressState
  intro s e rd ra imm pd unit mode h
  rw [← memAddr_eq]
  have hunit := unit.isLt
  refine ⟨fun ha hal => congrArg Host.Outcome.next (issue_complete h (opIord_next rd ha hal)), fun ha => trapResult_of h rfl rfl (opIord_trap rd ha),
    fun hu => ⟨issue_prd h (posSrc_tracker s hu), issue_prd h (if_pos hu), fun he => issue_prd h ?_, fun n z l he => issue_prd h ?_⟩,
    fun hu => ⟨issue_prd h (posSrc_bar s hu hunit), issue_prd h ?_, issue_prd h (if_pos ⟨hu, hunit⟩)⟩, fun hu => issue_prd h (if_pos hu),
    ?_, ?_, fun hm => trapResult_prd h (prdVal_mode s e unit hm), fun hu => ⟨trapResult_prd h (if_pos hu), trapResult_prd h (if_neg (by omega))⟩,
    fun hu => ⟨trapResult_prd h (if_neg (by omega)), trapResult_prd h (if_neg (by omega))⟩,
    fun hu hu' => trapResult_prd h (posSrc_none s _ hu hu'), fun hu => trapResult_prd h (if_neg (by omega)), fun hu => trapResult_prd h ?_⟩
  · exact (if_pos hu).trans (by rw [he])
  · exact (if_pos hu).trans (by rw [he])
  · exact (if_neg (by omega)).trans (posSrc_line s hu hunit)
  · rw [← BitVec.ofInt_natCast]
    exact issue_prd h rfl
  · rw [← BitVec.ofInt_natCast]
    exact issue_prd h rfl
  · exact (if_neg (by omega)).trans (if_neg (by omega))

end Sys2Proof.Machine

/-! PROOFS. Waits (R98 to R102). -/

namespace Sys2Proof.Machine

open Sys2Proof.Safety

/-! ### Flags and latches (R99, R100) -/

/-- A flag after one was written. -/
theorem flag_setFlag (s : State) (e : Nat) {f n : Nat} (b : Bool) (hn : n < 4) : (s.setFlag e f b).flag e n = if n = f then b else s.flag e n := by
  rw [State.flag, State.setFlag, State.get_set_same _ _ _ _ _ _ (by decide), bitN_testBit, Nat.testBit_mod_two_pow, testBit_putBit, State.flag, bitN_testBit]
  simp [show n < 32 by omega]

theorem latchFld_low {n : Nat} (h : n < 32) : latchFld n = ENG_EVLATCH0 := if_pos h

/-- A latch of the first word is clear once it was taken, and F2 and F3 tell of it (R100, R102). -/
theorem takeLatch_shows (s : State) {e n : Nat} (hn : n < 32) :
    (s.takeLatch e n).latched? e n = false ∧ (s.takeLatch e n).flag e 3 = false ∧
      (s.takeLatch e n).flag e 2 = bitN (smGet (fun _ => 0) s.latchMore e) n := by
  refine ⟨?_, ?_, ?_⟩
  · have hother : ∀ (t : State) (f : Nat) (b : Bool), (t.setFlag e f b).get ENG_EVLATCH0 e = t.get ENG_EVLATCH0 e := fun t f b =>
      State.get_set_addr _ _ _ _ _ _ _ _ _ _ (by simp only [Fld.addr]; omega)
    rw [State.latched?, latchFld_low hn, State.takeLatch, hother, hother, State.clearLatch, latchFld_low hn, State.get_set_same _ _ _ _ _ _ (by decide),
      bitN_testBit, Nat.testBit_mod_two_pow, testBit_putBit]
    simp
  · rw [State.takeLatch, flag_setFlag _ _ _ (by decide), if_pos rfl]
  · rw [State.takeLatch, flag_setFlag _ _ _ (by decide), if_neg (by decide), flag_setFlag _ _ _ (by decide), if_pos rfl]

/-! ### What a wait instruction answers -/

/-- The condition of a WAITPOS on a tracker (R98). -/
theorem posMet_tracker (s : State) {k : Nat} (tgt : Int) (le tmo : Bool) (hk : k < 4) :
    posMet s ⟨1, k, 0, tgt, false, le, tmo, 0⟩ = decide (if le then s.pos k ≤ tgt else tgt ≤ s.pos k) := by
  rw [posMet, posSrc_tracker s hk]
  cases le <;> rfl

theorem opWaitpos_met {s : State} {e pa k : Nat} {tmo le : Bool} (hk : k < 4) (h : if le then s.pos k ≤ (s.pr e pa).toInt else (s.pr e pa).toInt ≤ s.pos k) :
    opWaitpos e pa k false tmo le s = .next (s.setFlag e 3 false) := by
  rw [opWaitpos, posSrc_tracker s hk]
  exact if_pos (by rw [posMet_tracker s _ le tmo hk, decide_eq_true h])

theorem opWaitpos_waits {s : State} {e pa k : Nat} {tmo le : Bool} (hk : k < 4) (h : ¬ (if le then s.pos k ≤ (s.pr e pa).toInt else (s.pr e pa).toInt ≤ s.pos k)) :
    opWaitpos e pa k false tmo le s = .wait ⟨1, k, 0, (s.pr e pa).toInt, false, le, tmo, 0⟩ s := by
  rw [opWaitpos, posSrc_tracker s hk]
  exact if_neg (by rw [posMet_tracker s _ le tmo hk, decide_eq_false h]; decide)

theorem evtLatch_line {imm : Nat} (h : imm < 16) : evtLatch 1 imm = some (8 + imm) := if_pos h

theorem opWaitevt_set {s : State} {e imm : Nat} (tmo : Bool) (himm : imm < 16) (h : s.latched? e (8 + imm) = true) :
    opWaitevt e 1 imm false tmo s = .next (s.takeLatch e (8 + imm)) := by
  rw [opWaitevt, evtLatch_line himm]
  exact if_pos h

theorem opWaitevt_clear {s : State} {e imm : Nat} (tmo : Bool) (himm : imm < 16) (h : s.latched? e (8 + imm) = false) :
    opWaitevt e 1 imm false tmo s = .wait ⟨2, 1, 8 + imm, 0, false, false, tmo, 0⟩ s := by
  rw [opWaitevt, evtLatch_line himm]
  exact if_neg (by simp [h])

theorem opWaitt_zero {s : State} {e ra imm : Nat} (h : min ((s.g e ra).toNat + imm) (2 ^ 32 - 1) = 0) : opWaitt e ra imm s = .next s := if_pos h

theorem opWaitt_waits {s : State} {e ra imm : Nat} (h : min ((s.g e ra).toNat + imm) (2 ^ 32 - 1) ≠ 0) :
    opWaitt e ra imm s = .wait ⟨3, 0, 0, (min ((s.g e ra).toNat + imm) (2 ^ 32 - 1) : Nat), false, false, false, 0⟩ s := if_neg h

/-! ### How a wait ends (R98 to R102) -/

theorem exec_waitConditionMet {s : State} {e : Eng} {w : UWait} (h : (s.ex e).wait = some w) : exec (.waitConditionMet e) s =
    .next (if w.kind = 1 && posMet s w then (s.setFlag e 3 false).endWait e
      else if w.kind = 2 && s.latched? e w.imm then (s.takeLatch e w.imm).endWait e else s) := by
  change execWaitConditionMet e s = _
  rw [execWaitConditionMet, h]

theorem exec_waitTimeout {s : State} {e : Eng} {w : UWait} (h : (s.ex e).wait = some w) (htmo : w.tmo = true) (ht : s.get ENG_WAIT_TMO e ≠ 0) :
    exec (.waitTimeout e) s = .next (if w.kind = 1 && !(posMet s w) then (s.setFlag e 3 true).endWait e
      else if w.kind = 2 && !(s.latched? e w.imm) then ((s.setFlag e 2 false).setFlag e 3 true).endWait e else s) := by
  change execWaitTimeout e s = _
  simp [execWaitTimeout, h, htmo, ht]

theorem exec_waittExpiry {s : State} {e : Eng} {w : UWait} (h : (s.ex e).wait = some w) :
    exec (.waittExpiry e) s = .next (if w.kind = 3 then s.endWait e else s) := by
  change execWaittExpiry e s = _
  rw [execWaittExpiry, h]

/-- Settles O8: a wait instruction goes on (`issue_F`, `issue_complete`) or stops issue (`issue_W`); each end of a wait by its kind. -/
theorem waitsEndOrStopIssue : Obligations.WaitsEndOrStopIssue := by
  unfold Obligations.WaitsEndOrStopIssue
  refine ⟨fun s e pa k ra b tmo le imm h => ?_, fun s e w hw => ⟨fun hk hm => ?_, fun hk hl => ?_, fun hk htmo ht hm => ?_, fun hk htmo ht hl => ?_, fun hk => ?_⟩⟩
  · have hb := b.isLt
    have himm : (BitVec.ofNat 12 b).toNat = b := by
      rw [BitVec.toNat_ofNat]
      omega
    refine ⟨fun hp => issue_F h (by decide) (opWaitpos_met k.isLt hp), fun hp => issue_W h e.isLt (by simp) (by change k.val < 32; omega) (opWaitpos_waits k.isLt hp),
      fun hl => ⟨congrArg Host.Outcome.next (issue_complete h ?_), takeLatch_shows s (by omega)⟩, fun hl => issue_W h e.isLt (by simp) (by simp) ?_,
      fun hu => issue_nothing h (opWaitt_zero hu), fun hu => issue_W h e.isLt (by simp) (by simp) (opWaitt_waits hu)⟩
    · rw [himm]
      exact opWaitevt_set tmo hb hl
    · rw [himm]
      exact opWaitevt_clear tmo hb hl
  · rw [exec_waitConditionMet hw]
    simp [hk, hm]
  · rw [exec_waitConditionMet hw]
    simp [hk, hl]
  · rw [exec_waitTimeout hw htmo ht]
    simp [hk, hm]
  · rw [exec_waitTimeout hw htmo ht]
    simp [hk, hl]
  · rw [exec_waittExpiry hw, if_pos hk]

end Sys2Proof.Machine

/-! PROOFS. The lanes of the vector instructions (R110). -/

namespace Sys2Proof.Machine

open Sys2Proof.Safety

/-! ### Lanes -/

theorem length_vr (s : State) (e v : Nat) : (s.vr e v).length = 16 := by simp [State.vr]

theorem onV_eq {e : Nat} (h : 16 ≤ e) (k : UOut) : onV e k = k := if_pos (decide_eq_true h)

/-- A pixel engine issues an instruction that writes one V register. -/
theorem issue_lanes {s : State} {e : Eng} {w : Word} {op : State → UOut} {vd : Fin 32} {l l' : List Lane} (h : Runs s e) (he : 16 ≤ e.val)
    (hop : op s = onV e (.next (s.setV e vd l'))) (hl : l.length = 16) (heq : l' = l) : VResult s e vd l (.next (s.issue e w op)) :=
  issue_V h vd.isLt e.isLt hl (by rw [hop, onV_eq he, heq])

/-- An instruction that works lane by lane gives any function that agrees with its own. -/
theorem issue_lanewise {s : State} {e : Eng} {w : Word} {f g : Lane → Lane → Lane} {vd va vb : Fin 32} (h : Runs s e) (he : 16 ≤ e.val)
    (hfg : ∀ a b, f a b = g a b) : VResult s e vd (List.zipWith g (s.vr e va) (s.vr e vb)) (.next (s.issue e w (opV2 f e vd va vb))) :=
  issue_lanes h he rfl (by simp [length_vr]) (by rw [funext fun a => funext (hfg a)])

/-! ### The arithmetic of lanes in the terms of R110 -/

theorem clampI_eq {lo hi : Int} (h : lo ≤ hi) (z : Int) : clampI lo hi z = max lo (min hi z) := by
  unfold clampI
  split_ifs <;> omega

theorem satS_eq (z : Int) : satS z = BitVec.ofInt 16 (max (-32768) (min 32767 z)) := by rw [satS, clampI_eq (by decide)]

theorem satU_eq (z : Int) : satU z = BitVec.ofInt 16 (max 0 (min 65535 z)) := by rw [satU, clampI_eq (by decide)]

theorem absDiff_eq (a b : Lane) : (if a.ult b then b - a else a - b) = BitVec.ofNat 16 ((a.toNat : Int) - b.toNat).natAbs := by
  have ha := a.isLt
  have hb := b.isLt
  apply BitVec.eq_of_toNat_eq
  rw [BitVec.toNat_ofNat]
  by_cases h : a.toNat < b.toNat
  · rw [if_pos (by simpa [BitVec.ult] using h), BitVec.toNat_sub]
    omega
  · rw [if_neg (by simpa [BitVec.ult] using h), BitVec.toNat_sub]
    omega

theorem mul_eq_ofInt (a b : Lane) : a * b = BitVec.ofInt 16 (a.toInt * b.toInt) := by
  rw [BitVec.ofInt_mul, BitVec.ofInt_toInt, BitVec.ofInt_toInt]

/-- A window of a list, element by element. -/
theorem drop_take_eq_map {α : Type} (l : List α) (d : α) {k n : Nat} (h : k + n ≤ l.length) :
    (l.drop k).take n = (List.range n).map fun i => l.getD (i + k) d := by
  apply List.ext_getElem
  · simp
    omega
  · intro i h1 h2
    have hi : i < n := by simpa using h2
    simp only [List.getElem_take, List.getElem_drop, List.getElem_map, List.getElem_range]
    rw [List.getD_eq_getElem _ _ (by omega)]
    simp only [Nat.add_comm]

/-- A list read at every place is the list. -/
theorem map_range_getD {α : Type} (l : List α) (d : α) {n : Nat} (h : l.length = n) : ((List.range n).map fun i => l.getD i d) = l := by
  have hall := drop_take_eq_map l d (k := 0) (n := n) (by omega)
  rw [List.drop_zero, ← h, List.take_length] at hall
  rw [← h]
  exact hall.symm

/-- Settles O13: `issue_lanewise` for each operation on two lanes, and the two that move lanes. -/
theorem vectorLaneResults : Obligations.VectorLaneResults := by
  unfold Obligations.VectorLaneResults
  intro s e vd va vb k h he
  have hk := k.isLt
  refine ⟨issue_lanewise h he fun _ _ => rfl, issue_lanewise h he fun _ _ => rfl, issue_lanewise h he fun _ _ => satS_eq _, issue_lanewise h he fun _ _ => satS_eq _,
    issue_lanewise h he fun _ _ => satU_eq _, issue_lanewise h he fun _ _ => satU_eq _, issue_lanewise h he mins_eq, issue_lanewise h he maxs_eq,
    issue_lanewise h he minu_eq, issue_lanewise h he maxu_eq, issue_lanewise h he absDiff_eq, issue_lanewise h he fun _ _ => rfl,
    issue_lanewise h he fun _ _ => rfl, issue_lanewise h he fun _ _ => rfl, issue_lanewise h he mul_eq_ofInt, issue_lanewise h he fun _ _ => rfl,
    issue_lanewise h he fun _ _ => satS_eq _, issue_lanewise h he fun _ _ => rfl, issue_lanewise h he fun _ _ => rfl, issue_lanewise h he fun _ _ => rfl,
    issue_lanewise h he fun _ _ => rfl, issue_lanes h he rfl (by simp) ?_, issue_lanes h he rfl (by simp) ?_⟩
  · exact drop_take_eq_map _ _ (by simp only [List.length_append, length_vr]; omega)
  · conv_lhs => rw [← map_range_getD (s.vr e vb) 0 (length_vr s e vb)]
    rw [List.map_map]
    rfl

end Sys2Proof.Machine

/-! PROOFS. Vector reductions, moves, loads and stores (R84, R111). -/

namespace Sys2Proof.Machine

open Sys2Proof.Safety

/-! ### Masks and reductions (R111) -/

theorem testBit_maskOf (l : List Bool) (i : Nat) : (maskOf l).testBit i = l.getD i false := by
  induction l generalizing i with
  | nil => simp [maskOf]
  | cons b l ih =>
    have hcons : maskOf (b :: l) = b2n b + 2 * maskOf l := rfl
    rw [hcons]
    cases i with
    | zero => cases b <;> simp [b2n, Nat.testBit_zero]
    | succ i =>
      have hhalf : (b2n b + 2 * maskOf l) / 2 = maskOf l := by
        cases b <;> simp only [b2n, if_true, if_false, Bool.false_eq_true] <;> omega
      rw [Nat.testBit_succ, hhalf, ih]
      rfl

/-- The mask of the lanes that meet a condition. -/
theorem getLsbD_lanesMask (p : Lane → Lane → Bool) (la lb : List Lane) (ha : la.length = 16) (hb : lb.length = 16) {i : Nat} (hi : i < 32) :
    (BitVec.ofNat 32 (maskOf (List.zipWith p la lb))).getLsbD i = (decide (i < 16) && p (la.getD i 0) (lb.getD i 0)) := by
  rw [BitVec.getLsbD_ofNat, testBit_maskOf, decide_eq_true hi, Bool.true_and]
  by_cases h : i < 16
  · rw [List.getD_eq_getElem _ _ (by simp [ha, hb, h]), List.getElem_zipWith, List.getD_eq_getElem _ _ (by omega), List.getD_eq_getElem _ _ (by omega)]
    simp [h]
  · rw [List.getD_eq_default _ _ (by simp [ha, hb]; omega)]
    simp [h]

theorem foldl_add_eq_sum {α β : Type} [AddCommMonoid β] (f : α → β) (l : List α) : l.foldl (fun t a => t + f a) 0 = (l.map f).sum := by
  rw [List.sum_eq_foldl, List.foldl_map]

theorem toNat_square (z : Int) : (z * z).toNat = z.natAbs ^ 2 := by
  rw [← Int.natAbs_mul_self, Int.toNat_natCast, Nat.pow_two]

/-- The best of a list that is not empty is in it and no element beats it. -/
theorem bestOf_spec (f : Lane → Lane → Lane) (r : Lane → Lane → Prop) (hrefl : ∀ a, r a a) (htrans : ∀ a b c, r a b → r b c → r a c)
    (hf : ∀ a b, (f a b = a ∨ f a b = b) ∧ r a (f a b) ∧ r b (f a b)) (l : List Lane) (hl : l ≠ []) :
    bestOf f l ∈ l ∧ ∀ y ∈ l, r y (bestOf f l) := by
  have fold : ∀ (m : List Lane) (x : Lane), m.foldl f x ∈ x :: m ∧ ∀ y ∈ x :: m, r y (m.foldl f x) := fun m => by
    induction m with
    | nil => exact fun x => ⟨List.mem_singleton.2 rfl, fun y hy => List.mem_singleton.1 hy ▸ hrefl x⟩
    | cons z m ih =>
      intro x
      obtain ⟨hpick, hx, hz⟩ := hf x z
      obtain ⟨hmem, hbest⟩ := ih (f x z)
      refine ⟨?_, fun y hy => ?_⟩
      · rcases List.mem_cons.1 hmem with heq | hmem
        · rw [List.foldl_cons, heq]
          rcases hpick with hp | hp <;> simp [hp]
        · exact List.mem_cons_of_mem _ (List.mem_cons_of_mem _ hmem)
      · have htop := hbest _ List.mem_cons_self
        rcases List.mem_cons.1 hy with rfl | hy
        · exact htrans _ _ _ hx htop
        · rcases List.mem_cons.1 hy with rfl | hy
          · exact htrans _ _ _ hz htop
          · exact hbest y (List.mem_cons_of_mem _ hy)
  cases l with
  | nil => exact absurd rfl hl
  | cons x m => exact fold m x

/-- The best by a number that lanes have, where the operation keeps the one of greater number. -/
theorem bestOf_max {β : Type} [LinearOrder β] (f : Lane → Lane → Lane) (num : Lane → β) (hf : ∀ a b, f a b = if num a ≤ num b then b else a)
    (l : List Lane) (hl : l ≠ []) : bestOf f l ∈ l ∧ ∀ y ∈ l, num y ≤ num (bestOf f l) := by
  refine bestOf_spec f (fun a b => num a ≤ num b) (fun _ => le_refl _) (fun _ _ _ => le_trans) (fun a b => ?_) l hl
  rw [hf]
  split
  · exact ⟨.inr rfl, ‹_›, le_refl _⟩
  · exact ⟨.inl rfl, le_refl _, (lt_of_not_ge ‹_›).le⟩

theorem bestOf_min {β : Type} [LinearOrder β] (f : Lane → Lane → Lane) (num : Lane → β) (hf : ∀ a b, f a b = if num a ≤ num b then a else b)
    (l : List Lane) (hl : l ≠ []) : bestOf f l ∈ l ∧ ∀ y ∈ l, num (bestOf f l) ≤ num y := by
  refine bestOf_spec f (fun a b => num b ≤ num a) (fun _ => le_refl _) (fun _ _ _ h h' => le_trans h' h) (fun a b => ?_) l hl
  rw [hf]
  split
  · exact ⟨.inl rfl, le_refl _, ‹_›⟩
  · exact ⟨.inr rfl, (lt_of_not_ge ‹_›).le, le_refl _⟩

/-- A pixel engine issues an instruction that writes one G register. -/
theorem issue_scalar {s : State} {e : Eng} {w : Word} {op : State → UOut} {rd : Fin 32} {v v' : Word} (h : Runs s e) (he : 16 ≤ e.val)
    (hop : op s = onV e (.next (s.setG e rd v'))) (hv : v' = v) : GResult s e rd v (.next (s.issue e w op)) :=
  issue_G h rd.isLt (by rw [hop, onV_eq he, hv])

theorem vr_ne_nil (s : State) (e v : Nat) : s.vr e v ≠ [] := fun h => by
  have := length_vr s e v
  rw [h] at this
  cases this

theorem opVcmp_next (s : State) (e : Nat) {c : Nat} (rd va vb : Nat) (hc : c < 6) : opVcmp e c rd va vb s =
    onV e (.next (s.setG e rd (BitVec.ofNat 32 (maskOf (List.zipWith (fun a b => (holds c a b).getD false) (s.vr e va) (s.vr e vb)))))) :=
  if_neg (by omega)

/-! ### Loads and stores of lanes (R84, R111) -/

theorem onVmem_ok {n e ra imm : Nat} {s : State} {k : Nat → UOut} (he : 16 ≤ e) (h : memTrap e (memAddr s e ra imm) n = none) :
    onVmem n e ra imm s k = k (memAddr s e ra imm) := by rw [onVmem, h, onV_eq he]

/-- From `s` to `t` the `n` bytes of the data memories from place `base` on become `g`, by their distance from `base`; nothing else changes. -/
def StoresBytes (base n : Nat) (g : Nat → Byte) (s t : State) : Prop :=
  t = { s with engData := t.engData } ∧ ∀ e' a', t.dmem e' a' =
    if base ≤ 262144 * e' + a' ∧ 262144 * e' + a' < base + n then g (262144 * e' + a' - base) else s.dmem e' a'

/-- A loop whose every part stores its `m` bytes of one run. -/
theorem storesBytes_each {s : State} {f : Nat → State → State} (base m : Nat) (g : Nat → Byte)
    (hf : ∀ i t, t = { s with engData := t.engData } → f i t = { s with engData := (f i t).engData } ∧ ∀ e' a',
      (f i t).dmem e' a' = if base + m * i ≤ 262144 * e' + a' ∧ 262144 * e' + a' < base + m * i + m then g (262144 * e' + a' - base) else t.dmem e' a')
    (n : Nat) : StoresBytes base (m * n) g s (s.each (List.range n) f) := by
  induction n with
  | zero => exact ⟨rfl, fun e' a' => by rw [if_neg (by omega)]; rfl⟩
  | succ n ih =>
    obtain ⟨hrest, hbytes⟩ := ih
    obtain ⟨hrest', hbytes'⟩ := hf n _ hrest
    rw [State.each_range_succ]
    refine ⟨hrest', fun e' a' => ?_⟩
    rw [hbytes', hbytes, Nat.mul_succ]
    by_cases hpart : base + m * n ≤ 262144 * e' + a' ∧ 262144 * e' + a' < base + m * n + m
    · rw [if_pos hpart, if_pos (by omega)]
    · rw [if_neg hpart]
      exact if_congr (by omega) rfl rfl

/-- An instruction that stores bytes given by their place. -/
theorem issue_bytes {s t : State} {e a n : Nat} {w : Word} {op : State → UOut} {g : Nat → Byte} (h : Runs s e) (hop : op s = .next t) (ha : a + n ≤ 262144)
    (ht : StoresBytes (262144 * e + a) n g s t) : BytesResult s e a n g (.next (s.issue e w op)) := by
  obtain ⟨hrest, hbytes⟩ := ht
  obtain ⟨hissue, hregs, hrest⟩ := issue_data (w := w) h hop hrest
  refine ⟨_, rfl, ?_⟩
  rw [hissue]
  refine ⟨fun i hi => ?_, fun e' a' ha' hne => ?_, get_PC_next _ h, hregs, hrest⟩
  · change t.dmem e (a + i) = g i
    rw [hbytes, if_pos (by omega), show 262144 * e + (a + i) - (262144 * e + a) = i by omega]
  · change t.dmem e' a' = s.dmem e' a'
    rw [hbytes, if_neg (by omega)]

/-- Byte `r` of a lane. -/
theorem lane_byte (x : Lane) (r : Nat) : BitVec.ofNat 8 (x.toNat / 256 ^ r) = (x >>> (8 * r)).setWidth 8 := by
  apply BitVec.eq_of_toNat_eq
  rw [BitVec.toNat_ofNat, BitVec.toNat_setWidth, BitVec.toNat_ushiftRight, Nat.shiftRight_eq_div_pow, show (256 : Nat) = 2 ^ 8 from rfl, Nat.pow_mul]

/-- The lanes stored as words of 16 bits, little-endian. -/
theorem storesBytes_lanes (s : State) (e a vd : Nat) :
    StoresBytes (262144 * e + a) 32 (fun j => (((s.vr e vd).getD (j / 2) 0) >>> (8 * (j % 2))).setWidth 8) s
      (s.each (List.range 16) fun i s => s.dst e (a + 2 * i) 2 ((s.vr e vd).getD i 0).toNat) := by
  refine storesBytes_each _ 2 _ (fun i t ht => ?_) 16
  have hvr : t.vr e vd = s.vr e vd := by rw [ht]; rfl
  refine ⟨by rw [dst_only, ht], fun e' a' => ?_⟩
  rw [dmem_dst, hvr]
  by_cases h : 262144 * e + (a + 2 * i) ≤ 262144 * e' + a' ∧ 262144 * e' + a' < 262144 * e + (a + 2 * i) + 2
  · rw [if_pos h, if_pos (by omega), lane_byte, show (262144 * e' + a' - (262144 * e + a)) / 2 = i by omega,
      show 262144 * e' + a' - (262144 * e + (a + 2 * i)) = (262144 * e' + a' - (262144 * e + a)) % 2 by omega]
  · rw [if_neg h, if_neg (by omega)]

/-- The lanes stored as bytes, saturated. -/
theorem storesBytes_saturated (s : State) (e a vd : Nat) :
    StoresBytes (262144 * e + a) 16 (fun j => BitVec.ofInt 8 (max 0 (min 255 ((s.vr e vd).getD j 0).toInt))) s
      (s.each (List.range 16) fun i s => s.setDmem e (a + i) (BitVec.ofInt 8 (clampI 0 255 ((s.vr e vd).getD i 0).toInt))) := by
  refine storesBytes_each _ 1 _ (fun i t ht => ?_) 16
  have hvr : t.vr e vd = s.vr e vd := by rw [ht]; rfl
  refine ⟨by rw [State.setDmem, ht], fun e' a' => ?_⟩
  rw [dmem_setDmem, hvr, clampI_eq (by decide)]
  by_cases h : 262144 * e' + a' = 262144 * e + (a + i)
  · rw [if_pos h, if_pos (by omega), show 262144 * e' + a' - (262144 * e + a) = i by omega]
  · rw [if_neg h, if_neg (by omega)]

/-- Settles O14: each instruction writes one V register, one G register or bytes of data memory. -/
theorem vectorReductionsMovesAndMemory : Obligations.VectorReductionsMovesAndMemory := by
  unfold Obligations.VectorReductionsMovesAndMemory
  intro s e c vd va vb rd ra rb m imm h he
  rw [← memAddr_eq]
  intro A a sat
  have hA : A.length = 16 := length_vr ..
  have hne : A ≠ [] := vr_ne_nil s e va
  refine ⟨issue_lanes h he rfl (by simp [hA, length_vr]) rfl, issue_lanes h he rfl (by simp [hA, length_vr]) ?_,
    fun hc => ⟨_, issue_scalar h he (opVcmp_next _ _ _ _ _ hc) rfl, fun i hi => ?_⟩,
    fun hc => trapResult_of h rfl rfl (if_pos hc), issue_lanes h he rfl (by simp) ?_, issue_scalar h he rfl ?_, issue_scalar h he rfl ?_, issue_scalar h he rfl ?_,
    ?_, ?_, ?_, ?_, issue_lanes h he rfl (by simp) rfl, issue_lanes h he rfl (by simp [length_vr]) rfl, issue_scalar h he rfl rfl, issue_scalar h he rfl rfl,
    issue_lanes h he rfl hA rfl, fun ha => ⟨?_, ?_⟩, fun ha => ⟨?_, ?_⟩⟩
  · simp only [satS_eq]
    rfl
  · rw [getLsbD_lanesMask _ _ _ hA (length_vr ..) hi, holds_condHolds _ _ _ hc]
    rfl
  · simp only [bitN_toNat]
    rfl
  · rw [foldl_add_eq_sum]
  · rw [foldl_add_eq_sum]
  · simp only [foldl_add_eq_sum, toNat_square]
    rfl
  · obtain ⟨hmem, hbest⟩ := bestOf_max maxs BitVec.toInt maxs_eq A hne
    exact ⟨_, hmem, hbest, issue_scalar h he rfl rfl⟩
  · obtain ⟨hmem, hbest⟩ := bestOf_min mins BitVec.toInt mins_eq A hne
    exact ⟨_, hmem, hbest, issue_scalar h he rfl rfl⟩
  · obtain ⟨hmem, hbest⟩ := bestOf_max maxu BitVec.toNat maxu_eq A hne
    exact ⟨_, hmem, hbest, issue_scalar h he rfl rfl⟩
  · obtain ⟨hmem, hbest⟩ := bestOf_min minu BitVec.toNat minu_eq A hne
    exact ⟨_, hmem, hbest, issue_scalar h he rfl rfl⟩
  · exact issue_V h vd.isLt e.isLt (by simp) (onVmem_ok he (memTrap_ok ha))
  · exact issue_bytes h (onVmem_ok he (memTrap_ok ha)) (dataOk_end_le ha (by decide)) (storesBytes_lanes s e a vd)
  · exact issue_V h vd.isLt e.isLt (by simp) (onVmem_ok he (memTrap_ok ha))
  · exact issue_bytes h (onVmem_ok he (memTrap_ok ha)) (dataOk_end_le ha (by decide)) (storesBytes_saturated s e a vd)

end Sys2Proof.Machine

/-! PROOFS. DMAs of the pixel engines (R112, R113). -/

namespace Sys2Proof.Machine

open Sys2Proof.Safety

/-! ### DMA and DMAWAIT at issue (R112) -/

section
variable {s : State} {e pd ra rb : Nat} (out : Bool) (he : 16 ≤ e)
include he

theorem opDma_range (h : 262144 < (s.g e ra).toNat + (s.g e rb).toNat) : opDma out e pd ra rb s = .trap 3 := by
  rw [opDma, onV_eq he]
  exact if_pos (.inr h)

theorem opDma_align (h : (s.g e ra).toNat + (s.g e rb).toNat ≤ 262144)
    (hal : (s.pr e pd).toNat % 32 ≠ 0 ∨ (s.g e ra).toNat % 32 ≠ 0 ∨ (s.g e rb).toNat % 32 ≠ 0) : opDma out e pd ra rb s = .trap 4 := by
  rw [opDma, onV_eq he]
  exact (if_neg (by omega)).trans (if_pos hal)

theorem opDma_joins (h : (s.g e ra).toNat + (s.g e rb).toNat ≤ 262144) (ha : (s.pr e pd).toNat % 32 = 0) (hm : (s.g e ra).toNat % 32 = 0)
    (hn : (s.g e rb).toNat % 32 = 0) (h0 : 0 < (s.g e rb).toNat) (hroom : (s.ex e).dmas.length < 4) : opDma out e pd ra rb s =
      .next (s.setEx e { s.ex e with dmas := (s.ex e).dmas ++ [⟨(s.pr e pd).toNat, (s.g e ra).toNat, (s.g e rb).toNat, out⟩] }) := by
  rw [opDma, onV_eq he]
  exact (if_neg (by omega)).trans ((if_neg (by omega)).trans ((if_neg (by omega)).trans (if_neg (by omega))))

end

/-- An instruction that replaces what the engine keeps beside its registers, halting nothing. -/
theorem issue_setEx {s : State} {e : Nat} {w : Word} {op : State → UOut} {x : EngX} (h : Runs s e) (hop : op s = .next (s.setEx e x))
    (hx : x.haltNext = (s.ex e).haltNext) : s.issue e w op = (s.setEx e x).set ENG_PC (s.get ENG_PC e + 4) e := by
  rw [issue_complete h hop]
  obtain ⟨hrun, -, hhalt, hbrk, -⟩ := h
  exact complete_eq _ hrun (by rw [ex_setEx, hx, hhalt]) hbrk

/-! ### A DMA that is done (R112, R113) -/

theorem setDmem_each_ex (l : List Nat) (s : State) (e a : Nat) (v : Nat → Byte) (e' : Nat) :
    (s.each l fun k s => s.setDmem e (a + k) (v k)).ex e' = s.ex e' :=
  State.each_inv (fun t => t.ex e' = s.ex e') l (fun k s => s.setDmem e (a + k) (v k)) (fun _ _ _ ht => ht) s rfl

/-- The parts of a copy leave what every engine keeps. -/
theorem dmaParts_ex (e : Nat) (d : Dma) (e' : Nat) (i : Nat) : ∀ s : State, (dmaParts e d i s).1.ex e' = s.ex e' := by
  induction i with
  | zero => exact fun _ => rfl
  | succ n ih =>
    intro s
    unfold dmaParts
    dsimp only
    split_ifs
    · rfl
    · exact (ih _).trans (OnlyMem_proj (st_onlyMem ..) (fun t => t.ex e') fun _ _ _ _ => rfl)
    · exact OnlyMem_proj (each_onlyMem _ _ (fun b t => sawBurst_onlyMem t b) s) (fun t => t.ex e') fun _ _ _ _ => rfl
    · exact (ih _).trans (setDmem_each_ex ..)

theorem exec_dmaDone {s : State} {e : Eng} {d : Dma} {r : List Dma} (hd : (s.ex e).dmas = d :: r) (hw : (s.ex e).wait = none) :
    exec (.dmaDone e) s = .next ((dmaParts e d (d.len / 32) s).1.setEx e { (dmaParts e d (d.len / 32) s).1.ex e with
      dmas := r, dmaErr := ((dmaParts e d (d.len / 32) s).1.ex e).dmaErr || (dmaParts e d (d.len / 32) s).2 }) := by
  have hex := dmaParts_ex e d e (d.len / 32) s
  change execDmaDone e s = _
  simp only [execDmaDone, hd, hex, hw]

/-- Settles O15: the four answers of a DMA at issue, DMAWAIT by the number outstanding, and the oldest copy done. -/
theorem dmaQueuesAndCompletesInOrder : Obligations.DmaQueuesAndCompletesInOrder := by
  unfold Obligations.DmaQueuesAndCompletesInOrder
  refine ⟨fun s e pd ra rb imm h he => ⟨fun hr ha hm hn h0 hroom => ?_, fun hr => ?_, fun hr hal => ?_, fun hle => issue_nothing h ?_,
    fun hlt => issue_W h e.isLt (by simp) (by simp) ?_⟩, fun s e d r hd hw => exec_dmaDone hd hw⟩
  · exact ⟨congrArg Host.Outcome.next (issue_setEx h (opDma_joins false he hr ha hm hn h0 hroom) rfl),
      congrArg Host.Outcome.next (issue_setEx h (opDma_joins true he hr ha hm hn h0 hroom) rfl)⟩
  · exact ⟨trapResult_of h rfl rfl (opDma_range false he hr), trapResult_of h rfl rfl (opDma_range true he hr)⟩
  · exact ⟨trapResult_of h rfl rfl (opDma_align false he hr hal), trapResult_of h rfl rfl (opDma_align true he hr hal)⟩
  · exact (onV_eq he _).trans (if_pos hle)
  · exact (onV_eq he _).trans (if_neg (by omega))

end Sys2Proof.Machine

/-! PROOFS. LINE RELEASE, RELEASE_REL, LADDER and BLANK (R106, R132). -/

namespace Sys2Proof.Machine

open Sys2Proof.Safety

theorem isV_false {e : Nat} (h : e < 16) : isV e = false := decide_eq_false (by omega)

/-- The checks of an instruction on a bar that the sequencer is bound to (R82, R105). -/
theorem onBar_bound {s : State} {e b : Nat} (k : UOut) (he : e < 16) (hb : b < 16) (hbound : s.boundTo b = some e) : onBar s e b k = k := by
  rw [onBar, if_neg (by omega), isV_false he, if_neg (by decide), if_pos hbound]

theorem hb_setHb_same (s : State) (b : Nat) (x : HBar) : (s.setHb b x).hb b = x := smGet_put_same ..

theorem hb_setHb_other (s : State) {b c : Nat} (x : HBar) (h : c ≠ b) : (s.setHb b x).hb c = s.hb c := smGet_put_other _ _ _ h

/-- The substitutions that a LINE instruction leaves: those whose lines are not past, and its own (R106, R133). -/
def State.subsWith (s : State) (b : Nat) (x : Int) (sub : Option (Nat × Nat)) : List (Int × Int × Nat × Nat) :=
  let l := (s.hb b).subs.filter fun y => decide (s.line b ≤ y.2.1)
  match sub with
  | some (st, d) => (s.line b + 16, x, st, d) :: l
  | none => l

/-- In READY, PRINT and SERVICE a release changes the bar's record alone (R109). -/
theorem release_acts {s : State} {b : Nat} (e : Nat) (x : Int) (sub : Option (Nat × Nat)) (hm : s.barMode b = 2 ∨ s.barMode b = 3 ∨ s.barMode b = 6) :
    s.release e b x sub = s.setHb b { s.hb b with mark := max (s.hb b).mark x, subs := s.subsWith b x sub } := by
  cases sub <;> exact if_pos hm

/-- A LINE instruction of a bound sequencer. -/
theorem issue_line {s : State} {e : Eng} {w : Word} {op : State → UOut} {b : Fin 16} {x : Int} {sub : Option (Nat × Nat)} (h : Runs s e) (he : e.val < 16)
    (hbound : s.boundTo b = some e.val) (hm : s.barMode b = 2 ∨ s.barMode b = 3 ∨ s.barMode b = 6)
    (hop : op s = onBar s e b (.next (s.release e b x sub))) : LineResult s e b x (s.subsWith b x sub) (.next (s.issue e w op)) := by
  rw [onBar_bound _ he b.isLt hbound, release_acts e x sub hm] at hop
  refine ⟨_, rfl, ?_⟩
  rw [issue_goes_on h hop rfl rfl rfl]
  refine ⟨congrArg HBar.mark (hb_setHb_same ..), congrArg HBar.subs (hb_setHb_same ..), fun b' hb' => hb_setHb_other _ _ hb', get_PC_next _ h, ?_⟩
  exact OnlyRegs_set s ENG_PC _ e 0 0

theorem subsWith_none (s : State) (b : Nat) (x : Int) : s.subsWith b x none = (s.hb b).subs.filter fun y => decide (s.line b ≤ y.2.1) := rfl

/-- LADDER notes its substitution unless its step is 0 (R106). -/
theorem subsWith_ladder (s : State) (b : Nat) (x : Int) (imm : Nat) : s.subsWith b x (if imm % 256 = 0 then none else some (imm % 256, imm / 256 % 8)) =
    if imm % 256 = 0 then s.subsWith b x none else (s.line b + 16, x, imm % 256, imm / 256 % 8) :: s.subsWith b x none := by
  split <;> rfl

/-- Settles O11: the four LINE instructions are one release (`issue_line`) with their line and their substitution. -/
theorem releaseMarksNeverFall : Obligations.ReleaseMarksNeverFall := by
  unfold Obligations.ReleaseMarksNeverFall
  intro s e ra b imm h he hbound hm
  dsimp only
  rw [← subsWith_none s b 0]
  refine ⟨issue_line (sub := none) h he hbound hm rfl, issue_line (sub := none) h he hbound hm rfl, ?_, issue_line (sub := some (0, 0)) h he hbound hm rfl⟩
  have hline := issue_line (w := encD 0x24 b ra 2 imm.toNat) (op := opLadder e ra b imm.toNat) h he hbound hm rfl
  rw [subsWith_ladder] at hline
  exact hline

end Sys2Proof.Machine

/-! PROOFS. EMIT, and the ends of pulses (R104, R140, R142). -/

namespace Sys2Proof.Machine

open Sys2Proof.Safety

theorem ofNat12_toNat {n : Nat} (h : n < 4096) : (BitVec.ofNat 12 n).toNat = n := by rw [BitVec.toNat_ofNat, Nat.mod_eq_of_lt h]

/-- The target and the profile of an EMIT that sequencers alone execute (R82, R104). -/
theorem seqEmit_sequencer {e n lim : Nat} (k : UOut) (he : e < 16) (hn : n < lim) : seqEmit e n lim k = k := by
  rw [seqEmit, if_neg (by omega), isV_false he, if_neg (by decide)]

/-! ### General outputs (R104, R140, R142) -/

/-- Every level after one output was made `v`. -/
theorem setGio_level (s : State) {n k : Nat} (v pulse : Bool) (hk : k < 32) :
    bitN ((s.setGio n v pulse).get SEQ_GIO_OUT) k = if k = n then v else bitN (s.get SEQ_GIO_OUT) k := by
  rw [State.setGio, State.get_set_same _ _ _ _ _ _ (by decide), bitN_testBit, Nat.testBit_mod_two_pow, testBit_putBit, bitN_testBit]
  simp [hk]

theorem setGio_pulse (s : State) (n : Nat) (v pulse : Bool) : smGet (fun _ => false) (s.setGio n v pulse).gioPulse n = pulse := smGet_put_same ..

theorem setGio_rd (s : State) (n : Nat) (v pulse : Bool) {a : Nat} (h : a ≠ SEQ_GIO_OUT.addr) : (s.setGio n v pulse).rd a = s.rd a :=
  State.rd_set_other _ _ _ _ _ _ _ h

theorem setGio_only (s : State) (n : Nat) (v pulse : Bool) : OnlyRegs [SEQ_GIO_OUT.addr] s { s.setGio n v pulse with gioPulse := s.gioPulse } :=
  ⟨fun _ ha => setGio_rd s n v pulse (by simpa using ha), rfl⟩

/-- Outside SHADOW an EMIT on an output pin sets its level and nothing else (R104, R109, R141). -/
theorem gioEmit_output {s : State} {n : Nat} (e : Nat) (v pulse : Bool) (hm : s.mode ≠ 5) (hdir : bitN (s.get SEQ_GIO_DIR) n = true) :
    s.gioEmit e n v pulse = s.setGio n v pulse := by
  have hmode : (s.setGio n v pulse).mode = s.mode := State.get_congr GLB_MODE_STAT_MODE 0 0 0 (setGio_rd _ _ _ _ (by decide))
  have hout : (s.setGio n v pulse).get SEQ_GIO_DIR = s.get SEQ_GIO_DIR := State.get_congr SEQ_GIO_DIR 0 0 0 (setGio_rd _ _ _ _ (by decide))
  simp only [State.gioEmit, hmode, hout, if_neg hm, if_pos hdir]

/-- A sequencer issues an EMIT that makes an output a level. -/
theorem issue_gio {s : State} {e : Eng} {w : Word} {op : State → UOut} {n : Fin 32} {v pulse : Bool} (h : Runs s e) (he : e.val < 16) (hm : s.mode ≠ 5)
    (hdir : bitN (s.get SEQ_GIO_DIR) n = true) (hop : op s = seqEmit e (BitVec.ofNat 12 n).toNat 32 (.next (s.gioEmit e (BitVec.ofNat 12 n).toNat v pulse))) :
    GioResult s e n v pulse (.next (s.issue e w op)) := by
  rw [ofNat12_toNat (by omega), seqEmit_sequencer _ he n.isLt, gioEmit_output _ v pulse hm hdir] at hop
  have hout : ∀ f : Fld, 0x81000 ≤ f.addr e → f.addr e ≠ SEQ_GIO_OUT.addr := fun f hf heq => by
    rw [heq] at hf
    simp [Fld.addr] at hf
  refine ⟨_, rfl, ?_⟩
  rw [issue_goes_on h hop (setGio_rd _ _ _ _ (hout ENG_STAT (by simp only [Fld.addr]; omega))) (setGio_rd _ _ _ _ (hout ENG_BREAK (by simp only [Fld.addr]; omega))) rfl]
  refine ⟨fun k hk => ?_, setGio_pulse s n v pulse, get_PC_next _ h, OnlyRegs_trans (setGio_only s n v pulse) (OnlyRegs_set _ ENG_PC _ e 0 0)⟩
  rw [State.get_set_addr _ _ _ _ _ _ _ _ _ _ (by simp only [Fld.addr]; omega), setGio_level s v pulse hk]

/-! ### Internal triggers (R33, R99, R104) -/

/-- Latches set in every engine leave every register below the engines' latch words, and every engine's own record. -/
theorem latchAll_frame (s : State) (n : Nat) : (∀ a, (∀ x < 28, a ≠ ENG_EVLATCH0.addr x ∧ a ≠ ENG_EVLATCH1.addr x ∧ a ≠ ENG_EVLATCH2.addr x) →
    (s.latchAll n).rd a = s.rd a) ∧ s.latchAll n = { s with regs := (s.latchAll n).regs, latchMore := (s.latchAll n).latchMore } := by
  refine State.each_inv (fun t => (∀ a, (∀ x < 28, a ≠ ENG_EVLATCH0.addr x ∧ a ≠ ENG_EVLATCH1.addr x ∧ a ≠ ENG_EVLATCH2.addr x) → t.rd a = s.rd a) ∧
    t = { s with regs := t.regs, latchMore := t.latchMore }) _ _ (fun x t hx ht => ?_) s ⟨fun _ _ => rfl, rfl⟩
  obtain ⟨hregs, hrest⟩ := latch_frame t x n
  obtain ⟨htregs, htrest⟩ := ht
  refine ⟨fun a ha => ?_, by rw [hrest, htrest]⟩
  obtain ⟨h0, h1, h2⟩ := ha x (List.mem_range.1 hx)
  rw [hregs a h0 h1 h2, htregs a ha]

/-- A trigger sets its latch in every engine (R99). -/
theorem latched_latchAll (s : State) {e n : Nat} (he : e < 28) (hn : n < 16) : (s.latchAll (40 + n)).latched? e (40 + n) = true := by
  have hfld : latchFld (40 + n) = ENG_EVLATCH1 := (if_neg (by omega)).trans (if_pos (by omega))
  rw [State.latched?, hfld, show (40 + n) % 32 = 8 + n by omega, show 40 + n = 32 + (8 + n) by omega, bitN_latchAll s he (by omega) (by omega)]
  simp

/-- What an EMIT TRIG leaves (R33, R104). -/
def State.emitsTrig (s : State) (e n : Nat) : State :=
  let u := s.latchAll (40 + n)
  { u with startTrig := s.startTrig || (s.on GLB_PRINT_TRIG_EN && s.get GLB_PRINT_TRIG_TRIG == n && s.mode == 2 && !(isV e)) }

theorem opTrig_eq (s : State) (e : Nat) {n : Nat} (hn : n < 16) : opTrig e n s = .next (s.emitsTrig e n) := by
  obtain ⟨hregs, hrest⟩ := latchAll_frame s (40 + n)
  obtain ⟨hstart, hmode⟩ := latchAll_mode s (40 + n)
  have hrd : (s.latchAll (40 + n)).rd GLB_PRINT_TRIG.addr = s.rd GLB_PRINT_TRIG.addr := hregs _ fun x _ => by
    simp only [Fld.addr]
    omega
  have hen : (s.latchAll (40 + n)).on GLB_PRINT_TRIG_EN = s.on GLB_PRINT_TRIG_EN := by rw [State.on, State.on, State.get_congr GLB_PRINT_TRIG_EN 0 0 0 hrd]
  have htrig : (s.latchAll (40 + n)).get GLB_PRINT_TRIG_TRIG = s.get GLB_PRINT_TRIG_TRIG := State.get_congr GLB_PRINT_TRIG_TRIG 0 0 0 hrd
  rw [opTrig, if_neg (by omega)]
  dsimp only
  rw [hen, htrig, hmode, State.emitsTrig]
  split
  · next hc => rw [hc, Bool.or_true]
  · next hc => rw [Bool.eq_false_iff.2 hc, Bool.or_false, ← hstart]

/-- What an EMIT TRIG leaves: the latch in every engine, the start trigger, and the engine where it was (R33, R99, R104). -/
theorem issue_trig {s : State} {e : Eng} {w : Word} {op : State → UOut} {n : Nat} (h : Runs s e) (hn : n < 16) (hop : op s = opTrig e n s) :
    Gives (.next (s.issue e w op)) fun t =>
    (∀ e' : Eng, t.latched? e' (40 + n) = true) ∧ t.get ENG_PC e = s.get ENG_PC e + 4 ∧
      t.startTrig = (s.startTrig || (s.on GLB_PRINT_TRIG_EN && s.get GLB_PRINT_TRIG_TRIG == n && s.mode == 2 && decide (e.val < 16))) := by
  obtain ⟨hregs, hrest⟩ := latchAll_frame s (40 + n)
  have hkept : ∀ o, o % 256 < 0x3c → (s.emitsTrig e n).rd (0x81000 + 256 * e + o) = s.rd (0x81000 + 256 * e + o) := fun o ho =>
    hregs _ fun x _ => by
      simp only [Fld.addr]
      omega
  have hst : (s.emitsTrig e n).rd (ENG_STAT.addr e) = s.rd (ENG_STAT.addr e) := by
    have := hkept 4 (by decide)
    rwa [show 0x81000 + 256 * e.val + 4 = ENG_STAT.addr e by simp only [Fld.addr]; omega] at this
  have hbr : (s.emitsTrig e n).rd (ENG_BREAK.addr e) = s.rd (ENG_BREAK.addr e) := by
    have := hkept 0x2c (by decide)
    rwa [show 0x81000 + 256 * e.val + 0x2c = ENG_BREAK.addr e by simp only [Fld.addr]; omega] at this
  have hx : (s.latchAll (40 + n)).ex e = s.ex e := by
    rw [hrest]
    rfl
  refine ⟨_, rfl, ?_⟩
  rw [issue_goes_on h (hop.trans (opTrig_eq s e hn)) hst hbr hx]
  refine ⟨fun e' => ?_, get_PC_next _ h, ?_⟩
  · rw [← latched_latchAll s e'.isLt hn]
    have hfld : latchFld (40 + n) = ENG_EVLATCH1 := (if_neg (by omega)).trans (if_pos (by omega))
    rw [State.latched?, State.latched?, hfld, State.get_set_addr _ _ _ _ _ _ _ _ _ _ (by simp only [Fld.addr]; omega)]
    rfl
  · have hv : (!isV e) = decide (e.val < 16) := by
      rw [isV, ← decide_not]
      exact decide_eq_decide.2 (by omega)
    change (s.startTrig || _) = _
    rw [hv]

/-! ### Pulses and events of a program (R104, R125, R392) -/

/-- TPULSE on an output whose source is the sequencers. -/
theorem opTpulse_counts {s : State} {e ra n : Nat} (he : e < 16) (hn : n < 8) (hm : s.mode ≠ 5) (hsrc : s.get TPO_CFG_SRC n = 2) (hg : s.g e ra ≠ 0) :
    opTpulse e ra n s = .next (({ s with tpPulse := smPut (fun _ => false) s.tpPulse n true } : State).addWrap TPO_STAT_PULSES 1 n) := by
  rw [opTpulse, seqEmit_sequencer _ he hn, if_neg hm, if_pos ⟨hsrc, hg⟩]

theorem issue_tpulse {s : State} {e : Eng} {w : Word} {op : State → UOut} {n : Nat} (h : Runs s e)
    (hop : op s = .next (({ s with tpPulse := smPut (fun _ => false) s.tpPulse n true } : State).addWrap TPO_STAT_PULSES 1 n)) :
    Gives (.next (s.issue e w op)) fun t => t.get TPO_STAT_PULSES n = (s.get TPO_STAT_PULSES n + 1) % 2 ^ TPO_STAT_PULSES.width ∧
      smGet (fun _ => false) t.tpPulse n = true ∧ t.get ENG_PC e = s.get ENG_PC e + 4 := by
  have heng : ∀ a, a < 0xf80000 → (({ s with tpPulse := smPut (fun _ => false) s.tpPulse n true } : State).addWrap TPO_STAT_PULSES 1 n).rd a = s.rd a := fun a ha =>
    State.rd_set_other _ _ _ _ _ _ _ (by simp only [Fld.addr]; omega)
  refine ⟨_, rfl, ?_⟩
  rw [issue_goes_on h hop (heng _ (by simp only [Fld.addr]; omega)) (heng _ (by simp only [Fld.addr]; omega)) rfl]
  refine ⟨?_, smGet_put_same (fun _ => false) s.tpPulse n true, get_PC_next _ h⟩
  rw [State.get_set_addr _ _ _ _ _ _ _ _ _ _ (by simp only [Fld.addr]; omega), State.get_addWrap _ _ _ _ _ _ (by decide)]
  rfl

theorem issue_raise {s : State} {e : Eng} {w : Word} {op : State → UOut} {ev : Ev} {unit : Nat} {args : List Int} (h : Runs s e)
    (hop : op s = .next (s.raise ev unit args)) : s.issue e w op = (s.raise ev unit args).set ENG_PC (s.get ENG_PC e + 4) e :=
  issue_goes_on h hop (s.rd_raise _ _ _ (evReg_above (by simp only [Fld.addr]; omega))) (s.rd_raise _ _ _ (evReg_above (by simp only [Fld.addr]; omega)))
    (OnlyEv_ex (raise_only ..) e)

/-- Settles O9: an EMIT of a sequencer sets a level (`issue_gio`), a trigger's latches or a pulse; the ends of pulses are one write each. -/
theorem emitsDriveOutputsAndTriggers : Obligations.EmitsDriveOutputsAndTriggers := by
  unfold Obligations.EmitsDriveOutputsAndTriggers
  refine ⟨fun s e ra n h he hm hdir => ⟨issue_gio h he hm hdir rfl, issue_gio h he hm hdir rfl, issue_gio h he hm hdir ?_, fun hg => issue_gio h he hm hdir ?_⟩,
    fun s n hp => ⟨s.setGio n false false, congrArg Host.Outcome.next (if_pos hp), fun k hk => ?_, setGio_pulse ..⟩,
    fun s e n h => issue_trig h n.isLt (by rw [ofNat12_toNat (by omega)]),
    fun s e ra n h he hm hsrc hg => issue_tpulse h ?_, fun s n => ⟨_, rfl, smGet_put_same (fun _ => false) s.tpPulse n false, rfl⟩,
    fun s e ra c h => congrArg Host.Outcome.next (issue_raise h rfl)⟩
  · rw [ofNat12_toNat (by omega)]
    rfl
  · exact congrArg (seqEmit _ _ _ ∘ UOut.next) (if_neg hg)
  · rw [setGio_level s false false hk]
    by_cases hkn : k = n <;> simp [hkn]
  · rw [ofNat12_toNat (by omega)]
    exact opTpulse_counts he n.isLt hm hsrc hg

end Sys2Proof.Machine

/-! PROOFS. FIRE STROBE and FIRE TICKLE (R105, R109, R262, R274). -/

namespace Sys2Proof.Machine

open Sys2Proof.Safety

/-! ### One step for every port of a bar -/

theorem portsOf_nodup (s : State) (b : Nat) : (s.portsOf b).Nodup := by
  unfold State.portsOf State.portsFound
  split
  · exact List.nodup_nil
  · exact List.nodup_range.filter _

/-- A step that replaces the record of its own port at most. -/
def OnePort (f : Nat → State → State) : Prop := ∀ p t, f p t = t ∨ ∃ x, f p t = t.setHp p x

/-- A step for each of different ports gives every port the record it has after its own step, and changes nothing but the records of the list's ports. -/
theorem each_ports {s : State} {f : Nat → State → State} (hone : OnePort f)
    (hown : ∀ p m, ({ s with hport := m } : State).hp p = s.hp p → (f p { s with hport := m }).hp p = (f p s).hp p) (l : List Nat) :
    ∀ m, l.Nodup → (∀ p ∈ l, ({ s with hport := m } : State).hp p = s.hp p) →
      ∃ m', ({ s with hport := m } : State).each l f = { s with hport := m' } ∧
        (∀ q ∉ l, ({ s with hport := m' } : State).hp q = ({ s with hport := m } : State).hp q) ∧
        ∀ p ∈ l, ({ s with hport := m' } : State).hp p = (f p s).hp p := by
  induction l with
  | nil => exact fun m _ _ => ⟨m, rfl, fun _ _ => rfl, by simp⟩
  | cons p l ih =>
    intro m hnd hl
    obtain ⟨hp, hnd⟩ := List.nodup_cons.1 hnd
    have hstep : ∃ m₁, f p { s with hport := m } = { s with hport := m₁ } ∧
        ∀ q ≠ p, ({ s with hport := m₁ } : State).hp q = ({ s with hport := m } : State).hp q := by
      rcases hone p { s with hport := m } with h | ⟨x, h⟩
      · exact ⟨m, h, fun _ _ => rfl⟩
      · exact ⟨_, h, fun q hq => hp_setHp_other _ _ hq⟩
    obtain ⟨m₁, hm₁, hother⟩ := hstep
    obtain ⟨m', heach, hout, hin⟩ := ih m₁ hnd fun q hq => (hother q fun h => hp (h ▸ hq)).trans (hl q (List.mem_cons_of_mem _ hq))
    refine ⟨m', by rw [State.each_cons, hm₁, heach], fun q hq => ?_, fun q hq => ?_⟩
    · exact (hout q fun h => hq (List.mem_cons_of_mem _ h)).trans (hother q fun h => hq (h ▸ List.mem_cons_self))
    · rcases List.mem_cons.1 hq with rfl | hql
      · rw [hout q hp, ← hm₁, hown q m (hl q List.mem_cons_self)]
      · exact hin q hql

/-- A step for every port of a bar, from the state itself. -/
theorem each_portsOf {s : State} {f : Nat → State → State} (hone : OnePort f)
    (hown : ∀ p m, ({ s with hport := m } : State).hp p = s.hp p → (f p { s with hport := m }).hp p = (f p s).hp p) (b : Nat) :
    ∃ m, s.each (s.portsOf b) f = { s with hport := m } ∧ ∀ p ∈ s.portsOf b, ({ s with hport := m } : State).hp p = (f p s).hp p := by
  obtain ⟨m, heach, -, hin⟩ := each_ports hone hown (s.portsOf b) s.hport (portsOf_nodup s b) fun _ _ => rfl
  exact ⟨m, heach, hin⟩

/-! ### FIRE STROBE (R105, R274) -/

theorem strobeAt_one (b : Nat) (x : Int) : OnePort fun p t => t.strobeAt b p x := fun p t => by
  dsimp only [State.strobeAt]
  split
  · exact .inr ⟨_, rfl⟩
  · exact .inl rfl

/-- The STROBE of a port rests on that port's record alone. -/
theorem strobeAt_own (s : State) (b p : Nat) (x : Int) (m : SMap HPort) (h : ({ s with hport := m } : State).hp p = s.hp p) :
    (({ s with hport := m } : State).strobeAt b p x).hp p = (s.strobeAt b p x).hp p := by
  have hdelay : strobeDelay { s with hport := m } b p = strobeDelay s b p := by
    unfold strobeDelay
    rw [h]
    rfl
  have hstop : ({ s with hport := m } : State).stopped (portUnit p) = s.stopped (portUnit p) := rfl
  simp only [State.strobeAt, hdelay, hstop, h]
  split
  · rw [hp_setHp_same, hp_setHp_same]
  · exact h

/-- A port that has sent the line, and is not stopped, sends both copies. -/
theorem strobeAt_out {s : State} {p : Nat} {x : Int} (b : Nat) (hsent : ∃ l ∈ (s.hp p).sent, l.line = x) (hstop : s.stopped (portUnit p) = false) :
    ((s.strobeAt b p x).hp p).out = [strobeWord x (ux 16 (strobeDelay s b p)) false false, strobeWord x (ux 16 (strobeDelay s b p - 16)) false true] := by
  have hany : ((s.hp p).sent.any fun l => l.line == x) = true := by simpa using hsent
  simp only [State.strobeAt, hany, hstop, Bool.not_false, Bool.and_self, if_true, hp_setHp_same]

/-- The bar's record after a STROBE that fires: counted, and its line fired (R105). -/
def State.firedHb (s : State) (b : Nat) : HBar := { s.hb b with strobes := (s.hb b).strobes + 1, fired := some (s.line b - 1) }

/-- The end of a STROBE that fires: the choices of its copies are used up, and a job that ends with the line ends. -/
def State.strobePast (s : State) (b : Nat) (x : Int) : State :=
  let t : State := { s with fresh := s.fresh + 128 }
  if (t.cp b).endLine = some (x + 1) then t.barEnds b else t

section
variable {s : State} {b : Nat} (e : Nat) (hm : s.barMode b = 3) (htrap : (s.hb b).trapAt = none)
include hm htrap

/-- In PRINT, with no trap to recover from: a STROBE is counted, and its line fires unless it was the last one fired. -/
theorem strobe_print : s.strobe e b =
    if (s.hb b).fired = some (s.line b - 1) then
      ((s.setHb b { s.hb b with strobes := (s.hb b).strobes + 1 }).addSat ENG_CNT_FIRE_DUP 1 e).raiseLim EV_FIRE_DUP b b ms100
    else
      let u := (s.setHb b { s.hb b with strobes := (s.hb b).strobes + 1 }).setHb b (s.firedHb b)
      if s.barFires b then (u.each (u.portsOf b) fun p t => t.strobeAt b p (s.line b - 1)).strobePast b (s.line b - 1) else u := by
  have hres : s.resumeBar b (s.barFires b) = s := by rw [State.resumeBar, htrap]
  have hmode : ∀ x, (s.setHb b x).barMode b = 3 := fun _ => hm
  have hcond : ∀ x, ((s.setHb b x).cond (3 != 3 && 3 != 6) fun t => t.suppressed e) = s.setHb b x := fun _ => rfl
  rw [State.strobe]
  dsimp only
  rw [hres, hmode, hcond, hb_setHb_same]
  rfl

/-- In PRINT and not at the end of its job, a line that has not fired is recorded, and every port strobes it. -/
theorem strobe_fires (hstop : s.stopped b = false) (hfired : (s.hb b).fired ≠ some (s.line b - 1)) (hend : (s.cp b).endLine ≠ some (s.line b)) :
    ∃ h m f, s.strobe e b = { s with hbar := h, hport := m, fresh := f } ∧ ({ s with hbar := h } : State).hb b = s.firedHb b ∧
      ∀ p ∈ s.portsOf b, ({ s with hport := m } : State).hp p = (({ s with hbar := h } : State).strobeAt b p (s.line b - 1)).hp p := by
  have hacts : s.barFires b = true := by simp [State.barFires, hm, hstop]
  let u := (s.setHb b { s.hb b with strobes := (s.hb b).strobes + 1 }).setHb b (s.firedHb b)
  obtain ⟨m, heach, hown⟩ := each_portsOf (s := u) (strobeAt_one b (s.line b - 1)) (fun p m => strobeAt_own u b p (s.line b - 1) m) b
  refine ⟨u.hbar, m, s.fresh + 128, ?_, hb_setHb_same .., hown⟩
  rw [strobe_print e hm htrap, if_neg hfired, if_pos hacts]
  dsimp only
  rw [heach]
  exact if_neg (by rw [Int.sub_add_cancel]; exact hend)

end

/-- A STROBE that fires records its line, and gives every port that has sent it both copies. -/
theorem strobe_result {s : State} {e : Eng} {w : Word} {op : State → UOut} {b : Fin 16} (h : Runs s e) (hm : s.barMode b = 3) (hstop : s.stopped b = false)
    (htrap : (s.hb b).trapAt = none) (hop : op s = .next (s.strobe e b)) (hfired : (s.hb b).fired ≠ some (s.line b - 1))
    (hend : (s.cp b).endLine ≠ some (s.line b)) : Gives (.next (s.issue e w op)) fun t =>
      (t.hb b).fired = some (s.line b - 1) ∧ (t.hb b).strobes = (s.hb b).strobes + 1 ∧ t.get ENG_PC e = s.get ENG_PC e + 4 ∧
        (∀ a, a ≠ ENG_PC.addr e → t.rd a = s.rd a) ∧
        ∀ p ∈ s.portsOf b, (∃ l ∈ (s.hp p).sent, l.line = s.line b - 1) → s.stopped (portUnit p) = false → (t.hp p).out =
          [strobeWord (s.line b - 1) (ux 16 (strobeDelay s b p)) false false, strobeWord (s.line b - 1) (ux 16 (strobeDelay s b p - 16)) false true] := by
  obtain ⟨hbar, hport, f, hstrobe, hfires, hports⟩ := strobe_fires e hm htrap hstop hfired hend
  rw [hstrobe] at hop
  refine ⟨_, rfl, ?_⟩
  rw [issue_goes_on h hop rfl rfl rfl]
  refine ⟨congrArg HBar.fired hfires, congrArg HBar.strobes hfires, get_PC_next _ h, fun a ha => State.rd_set_other _ _ _ _ _ _ _ ha, fun p hp hsent hst => ?_⟩
  exact (congrArg HPort.out (hports p hp)).trans (strobeAt_out (s := { s with hbar := hbar }) b hsent hst)

/-- A line fired before is counted in FIRE_DUP, and stays fired. -/
theorem strobe_dup_result {s : State} {e : Eng} {w : Word} {op : State → UOut} {b : Fin 16} (h : Runs s e) (hm : s.barMode b = 3)
    (htrap : (s.hb b).trapAt = none) (hop : op s = .next (s.strobe e b)) (hfired : (s.hb b).fired = some (s.line b - 1)) :
    Gives (.next (s.issue e w op)) fun t => t.get ENG_CNT_FIRE_DUP e = min (s.get ENG_CNT_FIRE_DUP e + 1) 65535 ∧
      t.get ENG_PC e = s.get ENG_PC e + 4 ∧ (t.hb b).fired = some (s.line b - 1) := by
  rw [strobe_print e hm htrap, if_pos hfired] at hop
  let u := s.setHb b { s.hb b with strobes := (s.hb b).strobes + 1 }
  have hev := raiseLim_only (u.addSat ENG_CNT_FIRE_DUP 1 e) EV_FIRE_DUP b b ms100 []
  have hkept : ∀ a, 0x29005 ≤ a → a ≠ ENG_CNT.addr e → ((u.addSat ENG_CNT_FIRE_DUP 1 e).raiseLim EV_FIRE_DUP b b ms100).rd a = s.rd a :=
    fun a ha hne => (hev.1 a (by simp) (evReg_above ha)).trans (u.rd_set_other _ _ _ _ _ _ hne)
  have hcount : ((u.addSat ENG_CNT_FIRE_DUP 1 e).raiseLim EV_FIRE_DUP b b ms100).get ENG_CNT_FIRE_DUP e = min (s.get ENG_CNT_FIRE_DUP e + 1) 65535 := by
    rw [OnlyEv_get hev ENG_CNT_FIRE_DUP e 0 0 (by simp) (evReg_above (by simp only [Fld.addr]; omega)), State.get_addSat _ _ _ _ _ _ (by decide)]
    rfl
  have hrec : (((u.addSat ENG_CNT_FIRE_DUP 1 e).raiseLim EV_FIRE_DUP b b ms100).hb b).fired = some (s.line b - 1) := by
    rw [OnlyEv_proj hev (fun t => t.hb b) fun _ _ _ _ _ => rfl]
    exact (congrArg HBar.fired (hb_setHb_same s b _)).trans hfired
  refine ⟨_, rfl, ?_⟩
  rw [issue_goes_on h hop (hkept _ (by simp only [Fld.addr]; omega) (by simp only [Fld.addr]; omega))
    (hkept _ (by simp only [Fld.addr]; omega) (by simp only [Fld.addr]; omega)) (OnlyEv_ex hev e)]
  exact ⟨(State.get_set_addr _ _ _ _ _ _ _ _ _ _ (by simp only [Fld.addr]; omega)).trans hcount, get_PC_next _ h, hrec⟩

/-! ### FIRE TICKLE (R105, R263) -/

/-- The TICKLE of port `p` (R105). -/
def State.tickleAt (s : State) (e ra p : Nat) : State :=
  s.cond (s.linkUp p && !(s.stopped (portUnit p))) fun t => t.tx p [tickleWord (t.g e ra).toNat]

theorem tickleAt_one (e ra : Nat) : OnePort fun p t => t.tickleAt e ra p := fun p t => by
  dsimp only [State.tickleAt, State.cond]
  split
  · exact .inr ⟨_, rfl⟩
  · exact .inl rfl

/-- The TICKLE of a port rests on that port's record alone. -/
theorem tickleAt_own (s : State) (e ra p : Nat) (m : SMap HPort) (h : ({ s with hport := m } : State).hp p = s.hp p) :
    (({ s with hport := m } : State).tickleAt e ra p).hp p = (s.tickleAt e ra p).hp p := by
  have hlink : ({ s with hport := m } : State).linkUp p = s.linkUp p := rfl
  have hstop : ({ s with hport := m } : State).stopped (portUnit p) = s.stopped (portUnit p) := rfl
  have hg : ({ s with hport := m } : State).g e ra = s.g e ra := rfl
  simp only [State.tickleAt, State.cond, State.tx, hlink, hstop, hg, h]
  split
  · rw [hp_setHp_same, hp_setHp_same]
  · exact h

theorem tickleAt_out {s : State} {p : Nat} (e ra : Nat) (hup : s.linkUp p = true) (hstop : s.stopped (portUnit p) = false) :
    ((s.tickleAt e ra p).hp p).out = [tickleWord (s.g e ra).toNat] := by
  simp only [State.tickleAt, State.cond, State.tx, hup, hstop, Bool.not_false, Bool.and_self, if_true, hp_setHp_same]

/-- In PRINT a TICKLE changes the records of the bar's ports and nothing else. -/
theorem opTickle_print {s : State} {e : Nat} {b : Fin 16} (ra : Nat) (he : e < 16) (hbound : s.boundTo b = some e) (hm : s.barMode b = 3) :
    opTickle e ra b s = .next (s.each (s.portsOf b) fun p t => t.tickleAt e ra p) := by
  rw [opTickle, onBar_bound _ he b.isLt hbound]
  exact congrArg UOut.next (if_pos (.inr (.inl hm)))

theorem tickle_result {s : State} {e : Eng} {w : Word} {b : Fin 16} (ra : Nat) (h : Runs s e) (he : e.val < 16) (hbound : s.boundTo b = some e.val)
    (hm : s.barMode b = 3) : Gives (.next (s.issue e w (opTickle e ra b))) fun t => t.get ENG_PC e = s.get ENG_PC e + 4 ∧
      ∀ p ∈ s.portsOf b, s.linkUp p = true → s.stopped (portUnit p) = false → (t.hp p).out = [tickleWord (s.g e ra).toNat] := by
  obtain ⟨m, heach, hown⟩ := each_portsOf (s := s) (tickleAt_one e ra) (fun p m => tickleAt_own s e ra p m) b
  refine ⟨_, rfl, ?_⟩
  rw [issue_goes_on h ((opTickle_print ra he hbound hm).trans (congrArg UOut.next heach)) rfl rfl rfl]
  exact ⟨get_PC_next _ h, fun p hp hup hstop => (congrArg HPort.out (hown p hp)).trans (tickleAt_out e ra hup hstop)⟩

/-- Settles O10: a STROBE that fires (`strobe_result`), one of a line fired before (`strobe_dup_result`), and a TICKLE (`tickle_result`). -/
theorem fireStrobesAndTickles : Obligations.FireStrobesAndTickles := by
  unfold Obligations.FireStrobesAndTickles
  intro s e ra b h he hbound hm hstop htrap
  have hop : opStrobe e b s = .next (s.strobe e b) := onBar_bound _ he b.isLt hbound
  exact ⟨strobe_result h hm hstop htrap hop, strobe_dup_result h hm htrap hop, tickle_result ra h he hbound hm⟩

end Sys2Proof.Machine

/-! SUPPORT for the proofs. The word of an instruction command means that command (R86, R88). -/

namespace Sys2Proof.Machine

open Sys2Proof.Safety

/-! ### The fields of an encoded word (R86) -/

theorem encA_toNat {op rd ra rb sub : Nat} (hop : op < 64) (hd : rd < 32) (ha : ra < 32) (hb : rb < 32) (hs : sub < 2048) :
    (encA op rd ra rb sub).toNat = op * 67108864 + rd * 2097152 + ra * 65536 + rb * 2048 + sub := by
  rw [encA, BitVec.toNat_ofNat]
  omega

theorem encB_toNat {op rd ra imm : Nat} (hop : op < 64) (hd : rd < 32) (ha : ra < 32) (hi : imm < 65536) :
    (encB op rd ra imm).toNat = op * 67108864 + rd * 2097152 + ra * 65536 + imm := by
  rw [encB, BitVec.toNat_ofNat]
  omega

theorem encC_toNat {op c f off : Nat} (hop : op < 64) (hc : c < 8) (hf : f < 4) (ho : off < 2097152) :
    (encC op c f off).toNat = op * 67108864 + c * 8388608 + f * 2097152 + off := by
  rw [encC, BitVec.toNat_ofNat]
  omega

theorem encD_toNat {op unit ra mode imm : Nat} (hop : op < 64) (hu : unit < 32) (ha : ra < 32) (hm : mode < 16) (hi : imm < 4096) :
    (encD op unit ra mode imm).toNat = op * 67108864 + unit * 2097152 + ra * 65536 + mode * 4096 + imm := by
  rw [encD, BitVec.toNat_ofNat]
  omega

section
variable {op rd ra rb sub : Nat} (hop : op < 64) (hd : rd < 32) (ha : ra < 32) (hb : rb < 32) (hs : sub < 2048)
include hop hd ha hb hs

theorem fOp_encA : fOp (encA op rd ra rb sub) = op := by
  rw [fOp, encA_toNat hop hd ha hb hs, bitsN]
  omega

theorem fRd_encA : fRd (encA op rd ra rb sub) = rd := by
  rw [fRd, encA_toNat hop hd ha hb hs, bitsN]
  omega

theorem fRa_encA : fRa (encA op rd ra rb sub) = ra := by
  rw [fRa, encA_toNat hop hd ha hb hs, bitsN]
  omega

theorem fRb_encA : fRb (encA op rd ra rb sub) = rb := by
  rw [fRb, encA_toNat hop hd ha hb hs, bitsN]
  omega

theorem fSub_encA : fSub (encA op rd ra rb sub) = sub := by
  rw [fSub, encA_toNat hop hd ha hb hs, bitsN]
  omega

theorem fCond_encA : fCond (encA op rd ra rb sub) = rd / 4 := by
  rw [fCond, encA_toNat hop hd ha hb hs, bitsN]
  omega

theorem fFlag_encA : fFlag (encA op rd ra rb sub) = rd % 4 := by
  rw [fFlag, encA_toNat hop hd ha hb hs, bitsN]
  omega

end

section
variable {op rd ra imm : Nat} (hop : op < 64) (hd : rd < 32) (ha : ra < 32) (hi : imm < 65536)
include hop hd ha hi

theorem fOp_encB : fOp (encB op rd ra imm) = op := by
  rw [fOp, encB_toNat hop hd ha hi, bitsN]
  omega

theorem fRd_encB : fRd (encB op rd ra imm) = rd := by
  rw [fRd, encB_toNat hop hd ha hi, bitsN]
  omega

theorem fRa_encB : fRa (encB op rd ra imm) = ra := by
  rw [fRa, encB_toNat hop hd ha hi, bitsN]
  omega

theorem fImm_encB : fImm (encB op rd ra imm) = imm := by
  rw [fImm, encB_toNat hop hd ha hi, bitsN]
  omega

theorem fCond_encB : fCond (encB op rd ra imm) = rd / 4 := by
  rw [fCond, encB_toNat hop hd ha hi, bitsN]
  omega

theorem fFlag_encB : fFlag (encB op rd ra imm) = rd % 4 := by
  rw [fFlag, encB_toNat hop hd ha hi, bitsN]
  omega

end

section
variable {op c f off : Nat} (hop : op < 64) (hc : c < 8) (hf : f < 4) (ho : off < 2097152)
include hop hc hf ho

theorem fOp_encC : fOp (encC op c f off) = op := by
  rw [fOp, encC_toNat hop hc hf ho, bitsN]
  omega

theorem fCond_encC : fCond (encC op c f off) = c := by
  rw [fCond, encC_toNat hop hc hf ho, bitsN]
  omega

theorem fFlag_encC : fFlag (encC op c f off) = f := by
  rw [fFlag, encC_toNat hop hc hf ho, bitsN]
  omega

theorem fOff_encC : fOff (encC op c f off) = off := by
  rw [fOff, encC_toNat hop hc hf ho, bitsN]
  omega

end

section
variable {op unit ra mode imm : Nat} (hop : op < 64) (hu : unit < 32) (ha : ra < 32) (hm : mode < 16) (hi : imm < 4096)
include hop hu ha hm hi

theorem fOp_encD : fOp (encD op unit ra mode imm) = op := by
  rw [fOp, encD_toNat hop hu ha hm hi, bitsN]
  omega

theorem fRd_encD : fRd (encD op unit ra mode imm) = unit := by
  rw [fRd, encD_toNat hop hu ha hm hi, bitsN]
  omega

theorem fRa_encD : fRa (encD op unit ra mode imm) = ra := by
  rw [fRa, encD_toNat hop hu ha hm hi, bitsN]
  omega

theorem fMode_encD : fMode (encD op unit ra mode imm) = mode := by
  rw [fMode, encD_toNat hop hu ha hm hi, bitsN]
  omega

theorem fImm12_encD : fImm12 (encD op unit ra mode imm) = imm := by
  rw [fImm12, encD_toNat hop hu ha hm hi, bitsN]
  omega

end

/-! ### The values of OP that SUB or MODE divide (R88) -/

section
variable {e rd ra rb sub unit mode imm : Nat} {s : State}

theorem ulran_alu (hd : rd < 32) (ha : ra < 32) (hb : rb < 32) (hs : sub < 2048) :
    ulran e (encA 0x00 rd ra rb sub) s = ulranAlu e (encA 0x00 rd ra rb sub) s := by
  simp only [ulran, fOp_encA (op := 0x00) (by decide) hd ha hb hs]

theorem ulran_palu (hd : rd < 32) (ha : ra < 32) (hb : rb < 32) (hs : sub < 2048) :
    ulran e (encA 0x1C rd ra rb sub) s = ulranPalu e (encA 0x1C rd ra rb sub) s := by
  simp only [ulran, fOp_encA (op := 0x1C) (by decide) hd ha hb hs]

theorem ulran_valu (hd : rd < 32) (ha : ra < 32) (hb : rb < 32) (hs : sub < 2048) :
    ulran e (encA 0x30 rd ra rb sub) s = ulranValu e (encA 0x30 rd ra rb sub) s := by
  simp only [ulran, fOp_encA (op := 0x30) (by decide) hd ha hb hs]

theorem ulran_vmac (hd : rd < 32) (ha : ra < 32) (hb : rb < 32) (hs : sub < 2048) :
    ulran e (encA 0x31 rd ra rb sub) s = ulranVmac e (encA 0x31 rd ra rb sub) s := by
  simp only [ulran, fOp_encA (op := 0x31) (by decide) hd ha hb hs]

theorem ulran_vmov (hd : rd < 32) (ha : ra < 32) (hb : rb < 32) (hs : sub < 2048) :
    ulran e (encA 0x35 rd ra rb sub) s = ulranVmov e (encA 0x35 rd ra rb sub) s := by
  simp only [ulran, fOp_encA (op := 0x35) (by decide) hd ha hb hs]

theorem ulran_emit (hu : unit < 32) (ha : ra < 32) (hm : mode < 16) (hi : imm < 4096) :
    ulran e (encD 0x22 unit ra mode imm) s = ulranEmit e (encD 0x22 unit ra mode imm) s := by
  simp only [ulran, fOp_encD (op := 0x22) (by decide) hu ha hm hi]

theorem ulran_fire (hu : unit < 32) (ha : ra < 32) (hm : mode < 16) (hi : imm < 4096) :
    ulran e (encD 0x23 unit ra mode imm) s = ulranFire e (encD 0x23 unit ra mode imm) s := by
  simp only [ulran, fOp_encD (op := 0x23) (by decide) hu ha hm hi]

theorem ulran_line (hu : unit < 32) (ha : ra < 32) (hm : mode < 16) (hi : imm < 4096) :
    ulran e (encD 0x24 unit ra mode imm) s = ulranLine e (encD 0x24 unit ra mode imm) s := by
  simp only [ulran, fOp_encD (op := 0x24) (by decide) hu ha hm hi]

theorem ulran_send (hu : unit < 32) (ha : ra < 32) (hm : mode < 16) (hi : imm < 4096) :
    ulran e (encD 0x25 unit ra mode imm) s = ulranSend e (encD 0x25 unit ra mode imm) s := by
  simp only [ulran, fOp_encD (op := 0x25) (by decide) hu ha hm hi]

end

/-! ### Fields that hold two things -/

theorem condRd_div {f : Nat} (c : Nat) (h : f < 4) : condRd c f / 4 = c := by
  rw [condRd]
  omega

theorem condRd_mod {f : Nat} (c : Nat) (h : f < 4) : condRd c f % 4 = f := by
  rw [condRd]
  omega

theorem condRd_lt {c f : Nat} (hc : c < 8) (h : f < 4) : condRd c f < 32 := by
  rw [condRd]
  omega

/-- SUB of SEL and VSLIDE: their operand above the six bits that name them. -/
theorem sub_high {k n lim : Nat} (hk : k < lim) (hn : n < 64) : (64 * k + n) / 64 % lim = k := by
  rw [Nat.mul_add_div (by decide), Nat.div_eq_of_lt hn, Nat.add_zero, Nat.mod_eq_of_lt hk]

/-- MODE of WAITPOS and WAITEVT: one bit for each choice (R98, R99). -/
theorem bitN_mode (x y z : Bool) :
    bitN (b2n x + 2 * b2n y + 4 * b2n z) 0 = x ∧ bitN (b2n x + 2 * b2n y + 4 * b2n z) 1 = y ∧ bitN (b2n x + 2 * b2n y + 4 * b2n z) 2 = z := by
  revert x y z
  decide

theorem b2n_le (b : Bool) : b2n b ≤ 1 := by
  revert b
  decide

/-! ### The word of an instruction command (R86 to R88) -/

theorem issue_op_congr {s : State} {e : Nat} {w : Word} {op op' : State → UOut} (h : op' s = op s) :
    Host.Outcome.next (s.issue e w op) = (Host.Outcome.next (s.issue e w op') : Res) := by
  rw [State.issue, State.issue, h]

/-- Every instruction command issues what its word means, format by format of its word. -/
theorem exec_eq_issue_ulran {i : Instr} {e : Eng} {w : Word} (h : instrWord i = some (e, w)) (s : State) : exec i s = .next (s.issue e w (ulran e w)) := by
  cases i
  case add | sub | and | or | xor | sll | srl | sra | mul | mulhs | mulhu | min | max | minu | maxu | clz | popc | slli | srli | srai | getf | setf =>
    cases h
    refine issue_op_congr ?_
    simp (disch := omega) only [ulran_alu, ulranAlu, fRd_encA, fRa_encA, fRb_encA, fSub_encA]
  case sel =>
    cases h
    refine issue_op_congr ?_
    simp (disch := omega) only [ulran_alu, ulranAlu, sub_high, Nat.mul_add_mod, fRd_encA, fRa_encA, fRb_encA, fSub_encA]
  case addi | andi | ori | xori | lui | ld | ldh | ldb | st | sth | stb | pld | pst | dbnz | iord | waitt | vld | vst | vldb | vstb | dmawait =>
    cases h
    refine issue_op_congr ?_
    simp (disch := omega) only [ulran, fOp_encB, fRd_encB, fRa_encB, fImm_encB]
  case cmp e c f ra rb =>
    cases h
    have := condRd_lt c.isLt f.isLt
    refine issue_op_congr ?_
    simp (disch := omega) only [ulran, condRd_div, condRd_mod, fOp_encA, fRa_encA, fRb_encA, fCond_encA, fFlag_encA]
  case cmpi e c f ra imm =>
    cases h
    have := condRd_lt c.isLt f.isLt
    refine issue_op_congr ?_
    simp (disch := omega) only [ulran, condRd_div, condRd_mod, fOp_encB, fRa_encB, fImm_encB, fCond_encB, fFlag_encB]
  case br | call =>
    cases h
    refine issue_op_congr ?_
    simp (disch := omega) only [ulran, fOp_encC, fCond_encC, fFlag_encC, fOff_encC]
  case jr | halt | vcmp | vred =>
    cases h
    refine issue_op_congr ?_
    simp (disch := omega) only [ulran, fOp_encA, fRd_encA, fRa_encA, fRb_encA, fSub_encA]
  case padd | psub | paddg | pmac | psetg | psetgu | pgetl | pgeth | pmov | pseth | pslli | psrai =>
    cases h
    refine issue_op_congr ?_
    simp (disch := omega) only [ulran_palu, ulranPalu, fRd_encA, fRa_encA, fRb_encA, fSub_encA]
  case pcmp e c f pa pb =>
    cases h
    have := condRd_lt c.isLt f.isLt
    refine issue_op_congr ?_
    simp (disch := omega) only [ulran_palu, ulranPalu, condRd_div, condRd_mod, fRa_encA, fRb_encA, fSub_encA, fCond_encA, fFlag_encA]
  case prd | sheaf =>
    cases h
    refine issue_op_congr ?_
    simp (disch := omega) only [ulran, fOp_encD, fRd_encD, fRa_encD, fMode_encD, fImm12_encD]
  case waitpos e pa unit line tmo le =>
    cases h
    obtain ⟨hline, htmo, hle⟩ := bitN_mode line tmo le
    have := b2n_le line
    have := b2n_le tmo
    have := b2n_le le
    refine issue_op_congr ?_
    simp (disch := omega) only [ulran, fOp_encD, fRd_encD, fRa_encD, fMode_encD, hline, htmo, hle]
  case waitevt e unit imm clear tmo =>
    cases h
    obtain ⟨hclear, htmo, -⟩ := bitN_mode clear tmo false
    have := b2n_le clear
    have := b2n_le tmo
    refine issue_op_congr ?_
    simp (disch := omega) only [ulran, fOp_encD, fRd_encD, fMode_encD, fImm12_encD]
    exact congrArg₂ (fun c t => opWaitevt e unit imm.toNat c t s) hclear htmo
  case emitGioLow | emitGioHigh | emitGioToggle | emitGioPulse | emitTrig | emitTpulse | emitHostevt =>
    cases h
    refine issue_op_congr ?_
    simp (disch := omega) only [ulran_emit, ulranEmit, fRa_encD, fMode_encD, fImm12_encD]
  case fireStrobe | fireTickle =>
    cases h
    refine issue_op_congr ?_
    simp (disch := omega) only [ulran_fire, ulranFire, fRd_encD, fRa_encD, fMode_encD]
  case lineRelease | lineReleaseRel | lineLadder | lineBlank =>
    cases h
    refine issue_op_congr ?_
    simp (disch := omega) only [ulran_line, ulranLine, fRd_encD, fRa_encD, fMode_encD, fImm12_encD]
  case sendConfig | sendSync =>
    cases h
    refine issue_op_congr ?_
    simp (disch := omega) only [ulran_send, ulranSend, fRa_encD, fMode_encD, fImm12_encD]
  case vadd | vsub | vadds | vsubs | vaddus | vsubus | vmin | vmax | vminu | vmaxu | vabsd | vand | vor | vxor | vmull | vmulhs | vmulq | vshl | vshr
      | vsra | vavgu | vperm =>
    cases h
    refine issue_op_congr ?_
    simp (disch := omega) only [ulran_valu, ulranValu, fRd_encA, fRa_encA, fRb_encA, fSub_encA]
  case vslide =>
    cases h
    refine issue_op_congr ?_
    simp (disch := omega) only [ulran_valu, ulranValu, sub_high, Nat.mul_add_mod, fRd_encA, fRa_encA, fRb_encA, fSub_encA]
  case vmac | vmacq =>
    cases h
    refine issue_op_congr ?_
    simp (disch := omega) only [ulran_vmac, ulranVmac, fRd_encA, fRa_encA, fRb_encA, fSub_encA]
  case vsel =>
    cases h
    refine issue_op_congr ?_
    simp (disch := omega) only [ulran, fOp_encA, fRd_encA, fRa_encA, fRb_encA, fSub_encA, Nat.mul_div_cancel_left]
  case vbcast | vins | vext | vextu | vmovv =>
    cases h
    refine issue_op_congr ?_
    simp (disch := omega) only [ulran_vmov, ulranVmov, fRd_encA, fRa_encA, fRb_encA, fSub_encA]
  case dmaRead | dmaWrite =>
    cases h
    refine issue_op_congr ?_
    simp (disch := omega) only [ulran, fOp_encA, fRd_encA, fRa_encA, fRb_encA, fSub_encA]
    rfl
  all_goals cases h

end Sys2Proof.Machine

/-! PROOFS. START, RESUME, HALT, STEP and RESET of an engine (R100, R117, R119). -/

namespace Sys2Proof.Machine

open Sys2Proof.Safety

/-! ### Registers cleared (R100, R119) -/

/-- The registers at `A` read 0, and nothing else changed. -/
def Clears (A : List Nat) (s t : State) : Prop := OnlyRegs A s t ∧ ∀ a ∈ A, t.rd a = 0

theorem Clears_trans {A B : List Nat} {s t u : State} (h : Clears A s t) (h' : Clears B t u) : Clears (A ++ B) s u := by
  obtain ⟨hA, hzA⟩ := h
  obtain ⟨hB, hzB⟩ := h'
  refine ⟨OnlyRegs_trans hA hB, fun a ha => ?_⟩
  by_cases hb : a ∈ B
  · exact hzB a hb
  · rw [hB.1 a hb, hzA a ((List.mem_append.1 ha).resolve_right hb)]

theorem Clears_wr (s : State) (a : Nat) : Clears [a] s (s.wr a 0) :=
  ⟨OnlyRegs_wr .., fun b hb => by rw [List.mem_singleton.1 hb, State.rd_wr_same]⟩

theorem Clears_set (s : State) (f : Fld) (i j k : Nat) (hlo : f.lo = 0) (hw : f.width = 32) : Clears [f.addr i j k] s (s.set f 0 i j k) := by
  refine ⟨OnlyRegs_set .., fun a ha => BitVec.eq_of_toNat_eq ?_⟩
  rw [List.mem_singleton.1 ha, ← State.get_word _ _ _ _ _ hlo hw, State.get_set_same _ _ _ _ _ _ (by omega)]
  exact Nat.zero_mod _

theorem Clears_each {α : Type} {f : α → State → State} {g : α → List Nat} (h : ∀ x t, Clears (g x) t (f x t)) (l : List α) :
    ∀ s : State, Clears (l.flatMap g) s (s.each l f) := by
  induction l with
  | nil => exact fun s => ⟨OnlyRegs_refl [] s, by simp⟩
  | cons x r ih => exact fun s => Clears_trans (h x s) (ih _)

/-- The registers that START clears: G, P, V and F of the engine's window (R119, R122). -/
def engWindow (e : Nat) : List Nat :=
  (((List.range 32).flatMap fun n => [ENG_G.addr e n]) ++ ((List.range 8).flatMap fun n => [ENG_P_LO.addr e (n % 8)] ++ [ENG_P_LO.addr e (n % 8) + 4])) ++
    ((List.range 32).flatMap fun v => (List.range 8).flatMap fun w => [ENG_V.addr e v w]) ++ [ENG_FLAGS.addr e]

theorem clearRegs_clears (s : State) (e : Nat) : Clears (engWindow e) s (s.clearRegs e) :=
  Clears_trans (Clears_trans (Clears_trans (Clears_each (fun _ t => Clears_wr t _) _ _)
    (Clears_each (fun _ t => Clears_trans (Clears_wr t _) (Clears_wr _ _)) _ _))
    (Clears_each (fun _ => Clears_each (fun _ t => Clears_wr t _) _) _ _)) (Clears_set _ ENG_FLAGS e 0 0 rfl rfl)

theorem engWindow_above {e a : Nat} (h : a ∈ engWindow e) : 0x90000 ≤ a := by
  simp only [engWindow, List.mem_append, List.mem_flatMap, List.mem_cons, List.not_mem_nil, or_false, Fld.addr] at h
  omega

/-- The words of an engine's latches. -/
def latchWords (e : Nat) : List Nat := [ENG_EVLATCH0.addr e, ENG_EVLATCH1.addr e, ENG_EVLATCH2.addr e]

theorem clearLatches_clears (s : State) (e : Nat) :
    Clears (latchWords e) { s with latchMore := smPut (fun _ => 0) s.latchMore e 0 } (s.clearLatches e) :=
  Clears_trans (Clears_trans (Clears_set _ ENG_EVLATCH0 e 0 0 rfl rfl) (Clears_set _ ENG_EVLATCH1 e 0 0 rfl rfl)) (Clears_set _ ENG_EVLATCH2 e 0 0 rfl rfl)

theorem clearLatches_rd (s : State) {e a : Nat} (h : a ∉ latchWords e) : (s.clearLatches e).rd a = s.rd a := (clearLatches_clears s e).1.1 a h

theorem clearLatches_zero (s : State) {e a : Nat} (h : a ∈ latchWords e) : (s.clearLatches e).rd a = 0 := (clearLatches_clears s e).2 a h

section
variable {s : State} {e : Nat} (h : ∀ a ∈ engWindow e, s.rd a = 0)
include h

theorem g_of_cleared {n : Nat} (hn : n < 32) : s.g e n = 0 := by
  rw [State.g]
  split
  · rfl
  · refine h _ ?_
    simp only [engWindow, List.mem_append, List.mem_flatMap, List.mem_range, List.mem_singleton]
    exact .inl (.inl (.inl ⟨n, hn, rfl⟩))

theorem pr_of_cleared (n : Nat) : s.pr e n = 0 := by
  have hmem : ∀ a ∈ [ENG_P_LO.addr e (n % 8), ENG_P_LO.addr e (n % 8) + 4], a ∈ engWindow e := fun a ha => by
    simp only [engWindow, List.mem_append, List.mem_flatMap, List.mem_range]
    exact .inl (.inl (.inr ⟨n % 8, Nat.mod_lt _ (by decide), by simpa using ha⟩))
  rw [State.pr, h _ (hmem _ (by simp)), h _ (hmem _ (by simp))]
  rfl

theorem flag_of_cleared (n : Nat) : s.flag e n = false := by
  have hflags : s.rd (ENG_FLAGS.addr e) = 0 := h _ (by simp [engWindow])
  rw [State.flag, State.get_word _ _ _ _ _ rfl rfl, hflags]
  simp [bitN]

theorem vr_of_cleared {v : Nat} (hv : v < 32) : s.vr e v = List.replicate 16 0 := by
  have hword : ∀ w < 8, s.rd (ENG_V.addr e v w) = 0 := fun w hw => h _ (by
    simp only [engWindow, List.mem_append, List.mem_flatMap, List.mem_range, List.mem_singleton]
    exact .inl (.inr ⟨v, hv, w, hw, rfl⟩))
  rw [State.vr, List.map_congr_left (g := fun _ => 0), List.map_const', List.length_range]
  intro i hi
  have hi := List.mem_range.1 hi
  rw [hword (i / 2) (by omega)]
  simp

end

/-! ### An engine goes to a state, the marks of its halt cleared (R117, R119) -/

/-- The marks of a halt cleared, and the state made `st`: RUN for START, RESUME and STEP, OFF for RESET. -/
def State.engTo (s : State) (e st : Nat) : State := ((s.put ENG_STAT_BREAK false e).put ENG_STAT_SAFE_HALT false e).setEng e st

theorem engGo_eq (s : State) (e : Nat) : s.engGo e = s.engTo e 2 := rfl

section
variable (s : State) {e : Nat} (st : Nat) (he : e < 28)

theorem engTo_ex (e' : Nat) : (s.engTo e st).ex e' = s.ex e' := setEng_ex ..

include he

theorem engTo_rd {a : Nat} (ha : 0x81000 ≤ a) (hne : a ≠ ENG_STAT.addr e) : (s.engTo e st).rd a = s.rd a := by
  rw [State.engTo, setEng_rd _ _ _ he ha hne]
  exact (State.rd_set_other _ ENG_STAT_SAFE_HALT _ e 0 0 _ hne).trans (State.rd_set_other _ ENG_STAT_BREAK _ e 0 0 _ hne)

theorem engTo_state (hst : st < 8) : (s.engTo e st).engState e = st := setEng_state _ _ he hst

theorem engTo_break : (s.engTo e st).on ENG_STAT_BREAK e = false := by
  have hget := setEng_stat ((s.put ENG_STAT_BREAK false e).put ENG_STAT_SAFE_HALT false e) st 0 he ENG_STAT_BREAK rfl (by decide)
  have hput : ((s.put ENG_STAT_BREAK false e).put ENG_STAT_SAFE_HALT false e).get ENG_STAT_BREAK e = (s.put ENG_STAT_BREAK false e).get ENG_STAT_BREAK e :=
    State.get_set_bits _ _ _ _ _ _ _ _ _ _ (by decide)
  rw [State.on, State.engTo, hget, hput]
  exact State.on_put_same s ENG_STAT_BREAK false e 0 0 rfl (by decide)

theorem engTo_pc : (s.engTo e st).get ENG_PC e = s.get ENG_PC e :=
  State.get_congr _ _ _ _ (engTo_rd s st he (by simp only [Fld.addr]; omega) (by simp [Fld.addr]))

theorem engTo_g (n : Nat) : (s.engTo e st).g e n = s.g e n := by
  rw [State.g, State.g, engTo_rd s st he (by simp only [Fld.addr]; omega) (by simp only [Fld.addr]; omega)]

end

/-! ### START (R119) -/

/-- The engine at `pc` with no wait, no halt to come and its start noted. -/
def State.engAt (u : State) (e pc : Nat) : State :=
  let v := u.set ENG_PC pc e
  v.setEx e { v.ex e with wait := none, haltNext := false, dmaErr := false, startClk := some v.clk }

theorem engAt_rd (u : State) {e : Nat} (pc : Nat) {a : Nat} (ha : a ≠ ENG_PC.addr e) : (u.engAt e pc).rd a = u.rd a := State.rd_set_other _ _ _ _ _ _ _ ha

theorem engAt_pc (u : State) (e : Nat) {pc : Nat} (h : pc < 2 ^ 32) : (u.engAt e pc).get ENG_PC e = pc :=
  (State.get_set_same u ENG_PC pc e 0 0 (by decide)).trans (Nat.mod_eq_of_lt h)

theorem engAt_startClk (u : State) (e pc : Nat) : ((u.engAt e pc).ex e).startClk = some u.clk := congrArg EngX.startClk (ex_setEx (u.set ENG_PC pc e) e _)

/-- The engine before it runs: registers and latches cleared, PC at ENTRY. -/
def State.engFresh (s : State) (e : Nat) : State := ((s.clearRegs e).clearLatches e).engAt e (s.get ENG_ENTRY_ENTRY e)

section
variable (s : State) {e : Nat}

theorem engFresh_startClk : ((s.engFresh e).ex e).startClk = some s.clk := by
  rw [State.engFresh, engAt_startClk, (clearLatches_clears _ e).1.2]
  dsimp only
  rw [(clearRegs_clears s e).1.2]

theorem engFresh_pc : (s.engFresh e).get ENG_PC e = s.get ENG_ENTRY_ENTRY e :=
  engAt_pc _ e (lt_of_lt_of_le (State.get_lt s ENG_ENTRY_ENTRY e 0 0) (by decide))

theorem engFresh_latch {a : Nat} (ha : a ∈ latchWords e) : (s.engFresh e).rd a = 0 := by
  have hne : a ≠ ENG_PC.addr e := fun h => by
    rw [h] at ha
    simp [latchWords, Fld.addr] at ha
  rw [State.engFresh, engAt_rd _ _ hne, clearLatches_zero _ ha]

/-- A register of the engine's block that START does not clear. -/
theorem engFresh_kept {a : Nat} (ha : a < 0x90000) (hl : a ∉ latchWords e) (hpc : a ≠ ENG_PC.addr e) : (s.engFresh e).rd a = s.rd a := by
  rw [State.engFresh, engAt_rd _ _ hpc, clearLatches_rd _ hl]
  exact (clearRegs_clears s e).1.1 a fun h => absurd (engWindow_above h) (by omega)

variable (he : e < 28)
include he

theorem engFresh_window {a : Nat} (ha : a ∈ engWindow e) : (s.engFresh e).rd a = 0 := by
  have habove := engWindow_above ha
  rw [State.engFresh, engAt_rd _ _ (by simp only [Fld.addr]; omega), clearLatches_rd _ (by simp [latchWords, Fld.addr]; omega)]
  exact (clearRegs_clears s e).2 a ha

theorem engStart_eq (hb : s.engBarred = false) (hst : s.engState e ∉ [2, 3]) (hbrk : s.on ENG_BREAK_EN e = false) : s.engStart e = (s.engFresh e).engTo e 2 := by
  have hoff : ((s.engFresh e).engTo e 2).on ENG_BREAK_EN e = false := by
    rw [← hbrk, State.on, State.on, State.get_congr ENG_BREAK_EN e 0 0]
    rw [engTo_rd _ _ he (by simp only [Fld.addr]; omega) (by simp [Fld.addr])]
    exact engFresh_kept s (by simp only [Fld.addr]; omega) (by simp [latchWords, Fld.addr]) (by simp [Fld.addr])
  have hgo : ¬ (s.engBarred || s.engState e == 2 || s.engState e == 3) = true := by simpa [hb] using hst
  have hstart : s.engStart e = ((s.engFresh e).engTo e 2).breakAt e 0x10000 := if_neg hgo
  rw [hstart]
  simp only [State.breakAt, hoff, Bool.false_and, Bool.false_eq_true, if_false]

end

/-! ### HALT and RESET (R100, R119) -/

section
variable (s : State) {e : Nat} (he : e < 28)
include he

theorem haltEng_pc : (s.haltEng e).get ENG_PC e = s.get ENG_PC e :=
  State.get_congr _ _ _ _ (setEng_rd _ _ _ he (by simp only [Fld.addr]; omega) (by simp [Fld.addr]))

theorem haltEng_state : (s.haltEng e).engState e = 1 := setEng_state _ _ he (by decide)

theorem haltEng_waitKind : (s.haltEng e).get ENG_STAT_WAIT_KIND e = s.get ENG_STAT_WAIT_KIND e := setEng_stat _ _ _ he ENG_STAT_WAIT_KIND rfl (by decide)

omit he in
theorem haltEng_wait : ((s.haltEng e).ex e).wait = (s.ex e).wait := by
  rw [State.haltEng, setEng_ex, ex_setEx]

end

theorem clearWait_wait (s : State) (e : Nat) : ((s.clearWait e).ex e).wait = none := congrArg EngX.wait (ex_setEx s e _)

theorem clearWait_waitKind (s : State) (e : Nat) : (s.clearWait e).get ENG_STAT_WAIT_KIND e = 0 := by
  rw [State.clearWait, State.get_set_bits _ _ _ _ _ _ _ _ _ _ (by decide), State.get_set_same _ _ _ _ _ _ (by decide)]
  exact Nat.zero_mod _

theorem clearWait_only (s : State) (e : Nat) : OnlyRegs [ENG_STAT.addr e, ENG_STAT.addr e] (s.setEx e { s.ex e with wait := none }) (s.clearWait e) :=
  OnlyRegs_trans (OnlyRegs_set _ ENG_STAT_WAIT_KIND 0 e 0 0) (OnlyRegs_set _ ENG_STAT_WAIT_UNIT 0 e 0 0)

theorem clearWait_rd (s : State) {e a : Nat} (ha : a ≠ ENG_STAT.addr e) : (s.clearWait e).rd a = s.rd a := (clearWait_only s e).1 a (by simpa using ha)

theorem stopEng_run {s : State} {e : Nat} (h : s.engState e = 2) : s.stopEng e = s.haltEng e := by
  rw [State.stopEng, if_neg (by omega)]

/-- A wait other than a stalled SEND or SHEAF is abandoned. -/
theorem stopEng_wait {s : State} {e : Nat} {w : UWait} (h : s.engState e = 3) (hw : (s.ex e).wait = some w) (hk : w.kind ∉ [5, 6]) :
    s.stopEng e = (s.clearWait e).haltEng e := by
  have hk : ¬ (w.kind = 5 ∨ w.kind = 6) := by simpa using hk
  simp only [State.stopEng, if_pos h, hw, if_neg hk]

/-- The engine stopped before RESET makes it OFF: no wait, no latch, no halt to come. -/
def State.engQuiet (s : State) (e : Nat) : State :=
  ((s.clearWait e).clearLatches e).setEx e { ((s.clearWait e).clearLatches e).ex e with haltNext := false, dmaErr := false }

theorem engReset_eq (s : State) (e : Nat) : s.engReset e = (s.engQuiet e).engTo e 0 := rfl

theorem engQuiet_latch (s : State) {e a : Nat} (h : a ∈ latchWords e) : (s.engQuiet e).rd a = 0 := clearLatches_zero (s.clearWait e) h

theorem engQuiet_wait (s : State) (e : Nat) : ((s.engQuiet e).ex e).wait = none := by
  rw [State.engQuiet, ex_setEx]
  exact clearWait_wait s e

theorem engQuiet_g (s : State) (e n : Nat) (he : e < 28) : (s.engQuiet e).g e n = s.g e n := by
  have hrd : (s.engQuiet e).rd (ENG_G.addr e n) = s.rd (ENG_G.addr e n) :=
    (clearLatches_rd (s.clearWait e) (by simp [latchWords, Fld.addr]; omega)).trans (clearWait_rd s (by simp only [Fld.addr]; omega))
  rw [State.g, State.g, hrd]

theorem engTo_mems (s : State) (e st : Nat) : (s.engTo e st).engCode = s.engCode ∧ (s.engTo e st).engData = s.engData := by
  rw [State.engTo, (setEng_only _ e st 0).2]
  exact ⟨rfl, rfl⟩

/-! ### The commands of the host (R119) -/

section
variable {s : State} (e : Eng) (h : Hears s)
include h

theorem exec_engStart : exec (.engStart e) s = .next (s.engStart e) := heard_eq h _

theorem exec_engResume : exec (.engResume e) s = .next (s.engResume e) := heard_eq h _

theorem exec_engHalt : exec (.engHalt e) s = .next (s.engHalt e) := heard_eq h _

theorem exec_engStep : exec (.engStep e) s = .next (s.engStep e) := heard_eq h _

theorem exec_engReset : exec (.engReset e) s = .next (s.engReset e) := heard_eq h _

/-- START in OFF, HALTED and TRAP. -/
theorem start_runs (h7 : s.mode ≠ 7) (hst : s.engState e ∉ [2, 3]) (hbrk : s.on ENG_BREAK_EN e = false) : Gives (exec (.engStart e) s) fun t =>
    t.engState e = 2 ∧ t.get ENG_PC e = s.get ENG_ENTRY_ENTRY e ∧ (∀ n < 32, t.g e n = 0) ∧ (∀ n < 8, t.pr e n = 0) ∧ (∀ n < 4, t.flag e n = false) ∧
      t.rd (ENG_EVLATCH0.addr e) = 0 ∧ t.rd (ENG_EVLATCH1.addr e) = 0 ∧ t.rd (ENG_EVLATCH2.addr e) = 0 ∧ (t.ex e).startClk = some s.clk ∧
      (∀ n < 32, t.vr e n = List.replicate 16 0) := by
  have he := e.isLt
  refine ⟨_, exec_engStart e h, ?_⟩
  rw [engStart_eq s he (engBarred_false h h7) hst hbrk]
  have hcleared : ∀ a ∈ engWindow e, ((s.engFresh e).engTo e 2).rd a = 0 := fun a ha => by
    have habove := engWindow_above ha
    rw [engTo_rd _ _ he (by omega) (by simp only [Fld.addr]; omega), engFresh_window s he ha]
  have hlatch : ∀ a ∈ latchWords e, ((s.engFresh e).engTo e 2).rd a = 0 := fun a ha => by
    rw [← engFresh_latch s ha]
    simp only [latchWords, List.mem_cons, List.not_mem_nil, or_false, Fld.addr] at ha
    exact engTo_rd _ _ he (by omega) (by simp only [Fld.addr]; omega)
  exact ⟨engTo_state _ _ he (by decide), (engTo_pc _ _ he).trans (engFresh_pc s), fun n hn => g_of_cleared hcleared hn, fun n _ => pr_of_cleared hcleared n,
    fun n _ => flag_of_cleared hcleared n, hlatch _ (by simp [latchWords]), hlatch _ (by simp [latchWords]), hlatch _ (by simp [latchWords]),
    by rw [engTo_ex, engFresh_startClk], fun n hn => vr_of_cleared hcleared hn⟩

/-- RESUME in HALTED and TRAP. -/
theorem resume_runs (h7 : s.mode ≠ 7) (hst : s.engState e ∈ [1, 4]) : Gives (exec (.engResume e) s) fun t =>
    t.engState e = 2 ∧ t.get ENG_PC e = s.get ENG_PC e ∧ t.on ENG_STAT_BREAK e = false ∧ ∀ n < 32, t.g e n = s.g e n := by
  have he := e.isLt
  have hst : s.engState e = 1 ∨ s.engState e = 4 := by simpa using hst
  refine ⟨_, exec_engResume e h, ?_⟩
  rw [State.engResume, engBarred_false h h7]
  dsimp only
  rw [if_neg (by rcases hst with h1 | h4 <;> simp [*]), engGo_eq]
  exact ⟨engTo_state _ _ he (by decide), engTo_pc _ _ he, engTo_break _ _ he, fun n _ => engTo_g _ _ he n⟩

theorem halt_stops (hst : s.engState e ∈ [2, 3]) : exec (.engHalt e) s = .next (s.stopEng e) := by
  have hst : s.engState e = 2 ∨ s.engState e = 3 := by simpa using hst
  rw [exec_engHalt e h, State.engHalt, if_neg (by rcases hst with h2 | h3 <;> simp [*])]

/-- STEP issues the word at PC, which is the instruction's own. -/
theorem step_issues {i : Instr} {w : Word} (h7 : s.mode ≠ 7) (hst : s.engState e = 1) (hi : instrWord i = some (e, w)) (hw : s.code e (s.get ENG_PC e) = w) :
    exec (.engStep e) s = exec i ((s.engGo e).setEx e { (s.engGo e).ex e with haltNext := true }) := by
  obtain ⟨hmem, -⟩ := engTo_mems s e 2
  have hcode : (s.engTo e 2).code e ((s.engTo e 2).get ENG_PC e) = w := by
    rw [engTo_pc s 2 e.isLt, State.code, hmem]
    exact hw
  have hstep : s.engStep e = ((s.engGo e).setEx e { (s.engGo e).ex e with haltNext := true }).issue e ((s.engTo e 2).code e ((s.engTo e 2).get ENG_PC e))
      (ulran e ((s.engTo e 2).code e ((s.engTo e 2).get ENG_PC e))) := if_neg (by simp [engBarred_false h h7, hst])
  rw [exec_engStep e h, exec_eq_issue_ulran hi, hstep, hcode]

/-- RESET from any state. -/
theorem reset_off : Gives (exec (.engReset e) s) fun t => t.engState e = 0 ∧ (t.ex e).wait = none ∧ t.rd (ENG_EVLATCH0.addr e) = 0 ∧
    t.rd (ENG_EVLATCH1.addr e) = 0 ∧ t.rd (ENG_EVLATCH2.addr e) = 0 ∧ t.engCode = s.engCode ∧ t.engData = s.engData ∧ ∀ n < 32, t.g e n = s.g e n := by
  have he := e.isLt
  have hlatch : ∀ a ∈ latchWords e, ((s.engQuiet e).engTo e 0).rd a = 0 := fun a ha => by
    rw [← engQuiet_latch s ha]
    simp only [latchWords, List.mem_cons, List.not_mem_nil, or_false, Fld.addr] at ha
    exact engTo_rd _ _ he (by omega) (by simp only [Fld.addr]; omega)
  obtain ⟨hcode, hdata⟩ := engTo_mems (s.engQuiet e) e 0
  refine ⟨_, exec_engReset e h, ?_⟩
  rw [engReset_eq]
  exact ⟨engTo_state _ _ he (by decide), by rw [engTo_ex, engQuiet_wait], hlatch _ (by simp [latchWords]), hlatch _ (by simp [latchWords]),
    hlatch _ (by simp [latchWords]), hcode, hdata, fun n _ => (engTo_g _ _ he n).trans (engQuiet_g s e n he)⟩

/-- A command that the state of the engine does not accept (R119). -/
theorem refused_commands :
    (s.mode = 7 ∨ s.engState e ∈ [2, 3] → CmdErr s e (exec (.engStart e) s)) ∧ (s.mode = 7 ∨ s.engState e ∉ [1, 4] → CmdErr s e (exec (.engResume e) s)) ∧
      (s.engState e ∉ [2, 3] → CmdErr s e (exec (.engHalt e) s)) ∧ (s.mode = 7 ∨ s.engState e ≠ 1 → CmdErr s e (exec (.engStep e) s)) := by
  have hrefused : ∀ {c : Prop} [Decidable c] (t : State), c → CmdErr s e (.next (if c then s.cmdErr e else t)) := fun t hc => by
    rw [if_pos hc]
    exact cmdErr_gives s e
  rw [exec_engStart e h, exec_engResume e h, exec_engHalt e h, exec_engStep e h]
  refine ⟨fun hc => hrefused _ ?_, fun hc => hrefused _ ?_, fun hc => hrefused _ ?_, fun hc => hrefused _ ?_⟩
  all_goals
    simp only [State.engBarred, List.mem_cons, List.not_mem_nil, or_false, Bool.or_eq_true, Bool.and_eq_true, beq_iff_eq, bne_iff_ne] at hc ⊢
    omega

end

/-- Settles O29: what each command does in the states that accept it, and the refusals. -/
theorem engineCommands : Obligations.EngineCommands := by
  unfold Obligations.EngineCommands
  intro s e h
  have he := e.isLt
  refine ⟨start_runs e h, resume_runs e h, fun hst => ?_, fun w hst hw hk => ?_, fun i w => step_issues e h, reset_off e h, refused_commands e h⟩
  · refine ⟨_, halt_stops e h (by simp [hst]), ?_⟩
    rw [stopEng_run hst]
    exact ⟨haltEng_state s he, haltEng_pc s he⟩
  · refine ⟨_, halt_stops e h (by simp [hst]), ?_⟩
    rw [stopEng_wait hst hw hk]
    refine ⟨haltEng_state _ he, (haltEng_pc _ he).trans ?_, by rw [haltEng_wait, clearWait_wait], by rw [haltEng_waitKind _ he, clearWait_waitKind]⟩
    exact State.get_congr _ _ _ _ (clearWait_rd s (by simp [Fld.addr]))

end Sys2Proof.Machine

/-! SUPPORT for the proofs. What a change in the store's controller leaves alone, and what a request meets in the burst that it names (R151 to R154,
R157, R160, R176). -/

namespace Sys2Proof.Machine

open Sys2Proof.Safety

/-! ### Bits of registers, bytes, poison and submissions left alone -/

/-- `t` has the bits `P` of the registers, the bytes of the store, its poison codes and the queues below 32 of `s`. -/
structure Spares (P : Nat → Nat → Prop) (s t : State) : Prop where
  bits : ∀ a i, P a i → (t.rd a).getLsbD i = (s.rd a).getLsbD i
  store : t.store = s.store
  poison : t.poison = s.poison
  queues : ∀ q < 32, t.qu q = s.qu q

/-- Registers that reporting does not write. -/
def Unreported (P : Nat → Nat → Prop) : Prop := ∀ a i, P a i → evReg a = false

/-- Every bit of the registers that reporting does not write, but for those at `A`. -/
def apartFrom (A : List Nat) (a _i : Nat) : Prop := a ∉ A ∧ evReg a = false

theorem unreported_apartFrom (A : List Nat) : Unreported (apartFrom A) := fun _ _ h => h.2

/-! ### Entries of the queues of events -/

theorem qu_setQu_other (s : State) {p q : Nat} (x : Queue) (h : p ≠ q) : (s.setQu q x).qu p = s.qu p := by
  simp [State.qu, State.setQu, smGet_put, h]

theorem qu_raise (s : State) (e : Ev) (unit : Nat) (args : List Int) {q : Nat} (hq : q < 32) : (s.raise e unit args).qu q = s.qu q := by
  obtain ⟨hlo, hhi⟩ := evQueue_bound s e
  unfold State.raise State.evWrite
  extract_lets p s1 s2
  split
  · exact (qWrite_queueOnly s (s.evEntry e unit args) (e.cls == 3) (by omega)).others q (by omega)
  · unfold State.cond
    split
    · exact qu_setQu_other _ _ (by omega)
    · rfl

theorem qu_raiseLim (s : State) (e : Ev) (unit key period : Nat) (args : List Int) {q : Nat} (hq : q < 32) :
    (s.raiseLim e unit key period args).qu q = s.qu q := by
  unfold State.raiseLim
  dsimp only
  split
  · exact qu_raise s e unit args hq
  · rfl

namespace Spares

variable {P : Nat → Nat → Prop} {s t u : State}

theorem refl (s : State) : Spares P s s := ⟨fun _ _ _ => rfl, rfl, rfl, fun _ _ => rfl⟩

theorem trans (h : Spares P s t) (h' : Spares P t u) : Spares P s u :=
  ⟨fun a i ha => (h'.bits a i ha).trans (h.bits a i ha), h'.store.trans h.store, h'.poison.trans h.poison,
    fun q hq => (h'.queues q hq).trans (h.queues q hq)⟩

/-! #### What is read -/

theorem rd (h : Spares P s t) {a : Nat} (ha : ∀ i < 32, P a i) : t.rd a = s.rd a := BitVec.eq_of_getLsbD_eq fun i hi => h.bits a i (ha i hi)

theorem get (h : Spares P s t) (f : Fld) (i j k : Nat) (hf : ∀ n, f.lo ≤ n → n < f.lo + f.width → P (f.addr i j k) n) :
    t.get f i j k = s.get f i j k := getBits_congr fun n hlo hhi => h.bits _ n (hf n hlo hhi)

theorem on (h : Spares P s t) (f : Fld) (i j k : Nat) (hf : ∀ n, f.lo ≤ n → n < f.lo + f.width → P (f.addr i j k) n) :
    t.on f i j k = s.on f i j k := by rw [State.on, State.on, h.get f i j k hf]

/-! #### Changes elsewhere -/

/-- A change of neither registers nor the store nor the queues. -/
theorem same (h : Spares P s t) (hu : u.regs = t.regs ∧ u.store = t.store ∧ u.poison = t.poison ∧ u.queues = t.queues) : Spares P s u := by
  obtain ⟨hr, hs, hp, hq⟩ := hu
  exact h.trans ⟨fun a i _ => by rw [State.rd, State.rd, hr], hs, hp, fun q _ => by rw [State.qu, State.qu, hq]⟩

theorem set (h : Spares P s t) (f : Fld) (v i j k : Nat) (hf : ∀ n, f.lo ≤ n → n < f.lo + f.width → ¬ P (f.addr i j k) n) :
    Spares P s (t.set f v i j k) := by
  refine h.trans ⟨fun a n ha => ?_, rfl, rfl, fun _ _ => rfl⟩
  rw [State.set, State.rd_wr]
  split
  · next heq =>
    by_cases hn : n < 32
    · rw [getLsbD_putBits _ _ _ _ _ hn, if_neg fun hr => hf n hr.1 hr.2 (heq ▸ ha), heq]
    · rw [BitVec.getLsbD_of_ge _ _ (by omega), BitVec.getLsbD_of_ge _ _ (by omega)]
  · rfl

theorem put (h : Spares P s t) (f : Fld) (b : Bool) (i j k : Nat) (hf : ∀ n, f.lo ≤ n → n < f.lo + f.width → ¬ P (f.addr i j k) n) :
    Spares P s (t.put f b i j k) := h.set _ _ _ _ _ hf

theorem wr (h : Spares P s t) (a : Nat) (v : Word) (ha : ∀ n, ¬ P a n) : Spares P s (t.wr a v) :=
  h.trans ⟨fun b n hb => by rw [State.rd_wr_other _ _ fun heq : b = a => ha n (heq ▸ hb)], rfl, rfl, fun _ _ => rfl⟩

theorem set64 (h : Spares P s t) (f : Fld) (z : Int) (i j k : Nat) (hlo : ∀ n, ¬ P (f.addr i j k) n) (hhi : ∀ n, ¬ P (f.addr i j k + 4) n) :
    Spares P s (t.set64 f z i j k) := (h.wr _ _ hlo).wr _ _ hhi

theorem cond (h : Spares P s t) {c : Bool} {f : State → State} (hf : c = true → Spares P s (f t)) : Spares P s (t.cond c f) := by
  unfold State.cond
  split
  · exact hf ‹_›
  · exact h

theorem each {α : Type} (h : Spares P s t) {l : List α} {f : α → State → State} (hf : ∀ x u, x ∈ l → Spares P s u → Spares P s (f x u)) :
    Spares P s (t.each l f) := State.each_inv (Spares P s) l f hf t h

/-- A change of registers with reporting. -/
theorem only {A : List Nat} (h : Spares P s t) (hu : OnlyEv A t u) (hA : ∀ a ∈ A, ∀ n, ¬ P a n) (hP : Unreported P) (hq : ∀ q < 32, u.qu q = t.qu q) :
    Spares P s u :=
  h.trans ⟨fun a n ha => by rw [hu.1 a (fun hm => hA a hm n ha) (hP a n ha)], OnlyEv_proj hu State.store fun _ _ _ _ _ => rfl,
    OnlyEv_proj hu State.poison fun _ _ _ _ _ => rfl, hq⟩

theorem raise (h : Spares P s t) (hP : Unreported P) (e : Ev) (unit : Nat) (args : List Int) : Spares P s (t.raise e unit args) :=
  h.only (raise_only ..) (by simp) hP fun _ hq => qu_raise t e unit args hq

theorem raiseLim (h : Spares P s t) (hP : Unreported P) (e : Ev) (unit key period : Nat) (args : List Int) :
    Spares P s (t.raiseLim e unit key period args) :=
  h.only (raiseLim_only ..) (by simp) hP fun _ hq => qu_raiseLim t e unit key period args hq

end Spares

/-! ### The burst of an address (R151, R154) -/

theorem scOf_burst (s : State) (a : Nat) : s.scOf (64 * (a / 64)) = s.scOf a := by
  unfold State.scOf
  rw [show 64 * (a / 64) / 256 = a / 256 by omega]

/-- A burst of a ready store whose sub-channel takes requests is poisoned where it holds the code (R154). -/
theorem poisoned_taken {s : State} {a : Nat} (hr : s.on MEM_STAT_READY = true) (hb : s.scBad (s.scOf a) = false) :
    s.poisoned (a / 64) = smGet (fun _ => false) s.poison (a / 64) := by
  simp [State.poisoned, hr, scOf_burst, hb]

/-- The one burst that a part of it touches. -/
theorem bursts_one {a n : Nat} (h0 : 0 < n) (h : a % 64 + n ≤ 64) : bursts a n = [a / 64] := by
  rw [bursts, if_neg (by omega), show (a + n - 1) / 64 - a / 64 + 1 = 1 by omega]
  simp

theorem bursts_zero (a : Nat) : bursts a 0 = [] := if_pos rfl

theorem fullBursts_whole {a : Nat} (h : a % 64 = 0) : fullBursts a 64 = [a / 64] := by
  rw [fullBursts, bursts_one (by decide) (by omega)]
  simp
  omega

theorem fullBursts_part {a n : Nat} (h : a % 64 + n < 64) : fullBursts a n = [] := by
  rcases Nat.eq_zero_or_pos n with rfl | h0
  · rw [fullBursts, bursts_zero, List.filter_nil]
  · rw [fullBursts, bursts_one h0 (by omega)]
    simp
    omega

/-! ### A read (R152 to R154, R157) -/

theorem memRead_sound {s : State} {a : Nat} (p rank : Nat) (err : List Nat) (scrub write : Bool) (hc : a < s.memCap) (hp : s.poisoned (a / 64) = false) :
    s.memRead p a rank err scrub write = s.memJudge p a rank err scrub write := by
  rw [State.memRead, if_neg (by omega), if_neg (by simp [hp])]

/-- An error in one device of a rank with none erased is corrected (R153). -/
theorem memJudge_one {s : State} {a rank : Nat} (p d : Nat) (scrub write : Bool) (h : s.erased (s.scOf a) rank = none) :
    s.memJudge p a rank [d] scrub write = s.memCE (s.scOf a) rank d := by
  simp [State.memJudge, h, List.eraseDups_cons]

/-- Errors in two devices, or in one beside an erased one, are not (R154, R157). -/
theorem memJudge_two {s : State} {a rank d d' : Nat} (p : Nat) (scrub write : Bool)
    (h : s.erased (s.scOf a) rank = none ∧ d ≠ d' ∨ ∃ x, s.erased (s.scOf a) rank = some x ∧ x ≠ d ∧ (d' = d ∨ d' = x)) :
    s.memJudge p a rank [d, d'] scrub write = s.memUE p a (s.scOf a) scrub write := by
  rcases h with ⟨hn, hne⟩ | ⟨x, hx, hne, rfl | rfl⟩
  · simp [State.memJudge, hn, List.eraseDups_cons, Ne.symm hne]
  · simp [State.memJudge, hx, List.eraseDups_cons, Ne.symm hne]
  · simp [State.memJudge, hx, List.eraseDups_cons, Ne.symm hne]

end Sys2Proof.Machine

/-! PROOFS. Reads and writes of the store: errors, poison, fenced sub-channels, panic (R151 to R154, R157, R160, R169, R176, R178). -/

namespace Sys2Proof.Machine

open Sys2Proof.Safety

/-! ### Correctable errors (R153, R157) -/

theorem erase_spares {P : Nat → Nat → Prop} {s t : State} (h : Spares P s t) (hP : Unreported P) {n : Nat} (rank d : Nat)
    (hn : ∀ i, ¬ P (MEM_SC_STAT.addr n) i) : Spares P s (t.erase n rank d) := by
  unfold State.erase
  have hr := h.raise hP EV_MEM_DEV_ERASED (scUnit n) [n, rank, d]
  dsimp only
  split
  · exact (hr.put MEM_SC_STAT_ERASED0 _ n 0 0 fun i _ _ => hn i).set MEM_SC_STAT_DEV0 _ n 0 0 fun i _ _ => hn i
  · exact (hr.put MEM_SC_STAT_ERASED1 _ n 0 0 fun i _ _ => hn i).set MEM_SC_STAT_DEV1 _ n 0 0 fun i _ _ => hn i

/-- Once a correctable error is reported and counted, what follows it writes WORST and the erased device alone. -/
theorem memCE_spares (s : State) (n rank d : Nat) :
    Spares (apartFrom [MEM_SC_STAT.addr n, MEM_SC_WORST.addr n]) ((s.raiseLim EV_MEM_CE (scUnit n) n sec1).addSat MEM_SC_CE 1 n)
      (s.memCE n rank d) := by
  have hstat : ∀ i, ¬ apartFrom [MEM_SC_STAT.addr n, MEM_SC_WORST.addr n] (MEM_SC_STAT.addr n) i := fun _ h => h.1 (by simp)
  have hworst : ∀ i, ¬ apartFrom [MEM_SC_STAT.addr n, MEM_SC_WORST.addr n] (MEM_SC_WORST.addr n) i := fun _ h => h.1 (by simp)
  unfold State.memCE
  extract_lets s1 k c s2 s3 th
  have h2 : Spares (apartFrom [MEM_SC_STAT.addr n, MEM_SC_WORST.addr n]) s1 s2 := (Spares.refl s1).same ⟨rfl, rfl, rfl, rfl⟩
  have h3 : Spares (apartFrom [MEM_SC_STAT.addr n, MEM_SC_WORST.addr n]) s1 s3 := by
    simp only [s3]
    split
    · exact ((h2.set MEM_SC_WORST_COUNT _ n 0 0 fun i _ _ => hworst i).set MEM_SC_WORST_DEV _ n 0 0 fun i _ _ => hworst i).set
        MEM_SC_WORST_RANK _ n 0 0 fun i _ _ => hworst i
    · exact h2
  exact h3.cond fun _ => erase_spares h3 (unreported_apartFrom _) rank d hstat

theorem memCE_counts (s : State) {n : Nat} (rank d : Nat) (hn : n < 24) :
    let t := s.memCE n rank d
    t.get MEM_SC_CE n = min (s.get MEM_SC_CE n + 1) (2 ^ 32 - 1) ∧ t.store = s.store ∧ t.poison = s.poison ∧ t.mode = s.mode := by
  intro t
  have hrest : Spares _ _ t := memCE_spares s n rank d
  have hlim := raiseLim_only s EV_MEM_CE (scUnit n) n sec1 []
  have hce : evReg (MEM_SC_CE.addr n) = false := evReg_above (by simp only [Fld.addr]; omega)
  refine ⟨?_, ?_, ?_, ?_⟩
  · rw [hrest.get MEM_SC_CE n 0 0 fun _ _ _ => ⟨by simp [Fld.addr], hce⟩, State.get_addSat _ _ _ _ _ _ (by decide),
      OnlyEv_get hlim MEM_SC_CE n 0 0 (by simp) hce]
  · exact hrest.store.trans (OnlyEv_proj hlim State.store fun _ _ _ _ _ => rfl)
  · exact hrest.poison.trans (OnlyEv_proj hlim State.poison fun _ _ _ _ _ => rfl)
  · refine (hrest.get GLB_MODE_STAT_MODE 0 0 0 fun _ _ _ => ⟨?_, by decide⟩).trans
      ((State.get_set_addr _ MEM_SC_CE GLB_MODE_STAT_MODE _ _ _ _ _ _ _ ?_).trans (mode_raiseLim ..))
    · simp only [List.mem_cons, List.not_mem_nil, or_false, Fld.addr]
      omega
    · simp only [Fld.addr]
      omega

/-! ### Bytes written one after another (R154, R160, R452, R496) -/

/-- The byte at `a` is written: within the capacity of a ready store, on a sub-channel that takes requests. -/
def State.takes (s : State) (a : Nat) : Prop := a < s.memCap ∧ s.on MEM_STAT_READY = true ∧ s.scBad (s.scOf a) = false

theorem stByte_taken {s : State} {a : Nat} (v : Nat) (h : s.takes a) :
    s.stByte a v = { s with store := smPut (fun _ => 0) s.store a (BitVec.ofNat 8 v) } := by
  obtain ⟨hc, hr, hb⟩ := h
  rw [State.stByte, if_neg (by simp [hr, hb]; omega)]

theorem stByte_refused {s : State} {a : Nat} (v : Nat) (h : s.scBad (s.scOf a) = true) : s.stByte a v = s := by
  rw [State.stByte, if_pos (by simp [h])]

theorem stRun_only_from (l : List Nat) : ∀ (s t : State) (a : Nat), t = { s with store := t.store } →
    t.stRun a l = { s with store := (t.stRun a l).store } := by
  induction l with
  | nil => exact fun _ _ _ h => h
  | cons v r ih =>
    intro s t a h
    refine ih s (t.stByte a v) (a + 1) ?_
    unfold State.stByte
    split
    · exact h
    · conv_lhs => rw [h]

/-- A run of bytes changes the bytes of the store and nothing else. -/
theorem stRun_only (s : State) (a : Nat) (l : List Nat) : s.stRun a l = { s with store := (s.stRun a l).store } := stRun_only_from l s s a rfl

theorem stRun_refused (l : List Nat) : ∀ (s : State) (a : Nat), (∀ i < l.length, s.scBad (s.scOf (a + i)) = true) → s.stRun a l = s := by
  induction l with
  | nil => exact fun _ _ _ => rfl
  | cons v r ih =>
    intro s a h
    rw [List.length_cons] at h
    rw [State.stRun, stByte_refused (a := a) v (h 0 (by omega))]
    exact ih s (a + 1) fun i hi => by
      rw [show a + 1 + i = a + (i + 1) by omega]
      exact h _ (by omega)

/-- Every byte of a run that is taken stands in the store. -/
theorem stRun_bytes (l : List Nat) : ∀ (s : State) (a : Nat), (∀ i < l.length, s.takes (a + i)) → ∀ i < l.length,
    smGet (fun _ => (0 : Byte)) (s.stRun a l).store (a + i) = BitVec.ofNat 8 (l.getD i 0) := by
  induction l with
  | nil => exact fun _ _ _ i hi => absurd hi (by simp)
  | cons v r ih =>
    intro s a h i hi
    rw [List.length_cons] at h hi
    rw [State.stRun]
    cases i with
    | zero => rw [stRun_store_outside _ _ _ _ (by omega), stByte_taken (a := a) v (h 0 (by omega))]; simp
    | succ i =>
      rw [show a + (i + 1) = a + 1 + i by omega, ih _ _ (fun j hj => ?_) i (by omega)]
      · rfl
      · rw [stByte_taken (a := a) v (h 0 (by omega)), show a + 1 + j = a + (j + 1) by omega]
        exact h (j + 1) (by omega)

theorem stRun_regs (s : State) (a : Nat) (l : List Nat) : (s.stRun a l).regs = s.regs := by
  rw [stRun_only]

theorem stRun_poison (s : State) (a : Nat) (l : List Nat) : (s.stRun a l).poison = s.poison := by
  rw [stRun_only]

/-! ### Uncorrectable errors (R154) -/

/-- MEM_UE_INFO of an uncorrectable error, with its count. -/
def State.infoUE (s : State) (p n : Nat) (scrub write : Bool) : State :=
  ((((s.set MEM_UE_INFO_PORT p).set MEM_UE_INFO_SC n).put MEM_UE_INFO_SCRUB scrub).put MEM_UE_INFO_WRITE write).addSat MEM_UE_INFO_COUNT 1

/-- What is reported, recorded and counted of an uncorrectable error. -/
def State.recordUE (s : State) (p a n : Nat) (scrub write : Bool) : State :=
  (((s.raise EV_MEM_UE (portReq p) (w64 (64 * (a / 64 : Nat)) ++ [(n : Int), (p : Int)])).set64 MEM_UE_ADDR_LO (64 * (a / 64 : Nat))).infoUE
    p n scrub write).addSat MEM_SC_UE_UE 1 n

/-- Bytes written from the start of a burst that takes the poison code. -/
def State.poisonBurst (s : State) (b : Nat) (l : List Nat) : State :=
  { s.stRun (64 * b) l with poison := smPut (fun _ => false) s.poison b true }

theorem poisonBurst_rd (s : State) (b : Nat) (l : List Nat) (x : Nat) : (s.poisonBurst b l).rd x = s.rd x :=
  congrArg (fun m => smGet resetAt m x) (stRun_regs s (64 * b) l)

theorem poisonBurst_poison (s : State) (b : Nat) (l : List Nat) : smGet (fun _ => false) (s.poisonBurst b l).poison b = true :=
  smGet_put_same (fun _ => false) s.poison b true

theorem poisonBurst_store_outside (s : State) {b x : Nat} {l : List Nat} (hl : l.length = 64) (hx : x / 64 ≠ b) :
    smGet (fun _ => (0 : Byte)) (s.poisonBurst b l).store x = smGet (fun _ => 0) s.store x :=
  stRun_store_outside l s (64 * b) x (by omega)

theorem memUE_eq (s : State) (p a n : Nat) (scrub write : Bool) :
    s.memUE p a n scrub write = (s.recordUE p a n scrub write).poisonBurst (a / 64) (List.replicate 64 0) := rfl

theorem infoUE_only (s : State) (p n : Nat) (scrub write : Bool) : OnlyRegs [MEM_UE_INFO.addr] s (s.infoUE p n scrub write) := by
  have h := OnlyRegs_trans (OnlyRegs_trans (OnlyRegs_set s MEM_UE_INFO_PORT p 0 0 0) (OnlyRegs_set _ MEM_UE_INFO_SC n 0 0 0))
    (OnlyRegs_trans (OnlyRegs_put _ MEM_UE_INFO_SCRUB scrub 0 0 0) (OnlyRegs_put _ MEM_UE_INFO_WRITE write 0 0 0))
  exact OnlyRegs_mono (OnlyRegs_trans h (OnlyRegs_set _ MEM_UE_INFO_COUNT _ 0 0 0)) (by simp [Fld.addr])

theorem infoUE_shows (s : State) {p : Nat} (n : Nat) (scrub write : Bool) (hp : p < 256) :
    let t := s.infoUE p n scrub write
    t.get MEM_UE_INFO_PORT = p ∧ t.on MEM_UE_INFO_SCRUB = scrub ∧ t.on MEM_UE_INFO_WRITE = write := by
  have hcount : ∀ f : Fld, f.lo + f.width ≤ 16 → (s.infoUE p n scrub write).get f =
      ((((s.set MEM_UE_INFO_PORT p).set MEM_UE_INFO_SC n).put MEM_UE_INFO_SCRUB scrub).put MEM_UE_INFO_WRITE write).get f := fun f hf =>
    State.get_set_bits _ MEM_UE_INFO_COUNT f _ _ _ _ _ _ _ (Or.inl hf)
  refine ⟨?_, ?_, ?_⟩
  · rw [hcount MEM_UE_INFO_PORT (by decide), State.get_put_bits _ MEM_UE_INFO_WRITE _ _ _ _ _ (by decide),
      State.get_put_bits _ MEM_UE_INFO_SCRUB _ _ _ _ _ (by decide), State.get_set_bits _ MEM_UE_INFO_SC _ _ _ _ _ _ _ _ (by decide),
      State.get_set_same _ _ _ _ _ _ (by decide)]
    exact Nat.mod_eq_of_lt hp
  · rw [State.on, hcount MEM_UE_INFO_SCRUB (by decide), State.get_put_bits _ MEM_UE_INFO_WRITE _ _ _ _ _ (by decide)]
    exact State.on_put_same _ _ _ _ _ _ rfl (by decide)
  · rw [State.on, hcount MEM_UE_INFO_WRITE (by decide)]
    exact State.on_put_same _ _ _ _ _ _ rfl (by decide)

/-- The record of an error: its address and port are read from it, and it counts in UE of its sub-channel. -/
theorem recordUE_shows (s : State) {p n : Nat} (a : Nat) (scrub write : Bool) (hp : p < 256) :
    let t := s.recordUE p a n scrub write
    t.get MEM_SC_UE_UE n = min (s.get MEM_SC_UE_UE n + 1) 65535 ∧ t.geti64 MEM_UE_ADDR_LO = sx 64 (64 * (a / 64) % 2 ^ 64) ∧
      t.get MEM_UE_INFO_PORT = p ∧ t.on MEM_UE_INFO_SCRUB = scrub ∧ t.on MEM_UE_INFO_WRITE = write ∧ t.mode = s.mode := by
  generalize hu : s.raise EV_MEM_UE (portReq p) (w64 (64 * (a / 64 : Nat)) ++ [(n : Int), (p : Int)]) = u
  have hraise : ∀ f i, evReg (f.addr i) = false → u.get f i = s.get f i := fun f i hf => by
    rw [← hu]
    exact State.get_raise _ _ _ _ _ _ _ _ hf
  intro t
  have ht : t = ((u.set64 MEM_UE_ADDR_LO (64 * (a / 64 : Nat))).infoUE p n scrub write).addSat MEM_SC_UE_UE 1 n := by
    rw [← hu]
    rfl
  obtain ⟨hport, hscrub, hwrite⟩ := infoUE_shows (u.set64 MEM_UE_ADDR_LO (64 * (a / 64 : Nat))) n scrub write hp
  have honly := infoUE_only (u.set64 MEM_UE_ADDR_LO (64 * (a / 64 : Nat))) p n scrub write
  have hlow : ∀ x, x < 0xB01008 → t.rd x = ((u.set64 MEM_UE_ADDR_LO (64 * (a / 64 : Nat))).infoUE p n scrub write).rd x := fun x hx => by
    rw [ht]
    exact State.rd_set_other _ MEM_SC_UE_UE _ _ _ _ _ (by simp only [Fld.addr]; omega)
  have hsc : 0xB01008 ≤ MEM_SC_UE_UE.addr n := by
    simp only [Fld.addr]
    omega
  refine ⟨?_, ?_, ?_, ?_, ?_, ?_⟩
  · have hbefore : ((u.set64 MEM_UE_ADDR_LO (64 * (a / 64 : Nat))).infoUE p n scrub write).get MEM_SC_UE_UE n = s.get MEM_SC_UE_UE n := by
      rw [State.get_congr MEM_SC_UE_UE n 0 0 (honly.1 _ (by simp only [List.mem_singleton, Fld.addr]; omega)),
        State.get_congr MEM_SC_UE_UE n 0 0 (State.rd_set64_other u MEM_UE_ADDR_LO _ _ _ _ (by simp only [Fld.addr]; omega) (by simp only [Fld.addr]; omega)),
        hraise _ _ (evReg_above (by omega))]
    rw [ht, State.get_addSat _ _ _ _ _ _ (by decide), hbefore]
    rfl
  · have hpair : ∀ x ∈ [MEM_UE_ADDR_LO.addr, MEM_UE_ADDR_LO.addr + 4], t.rd x = (u.set64 MEM_UE_ADDR_LO (64 * (a / 64 : Nat))).rd x := by
      intro x hx
      simp only [List.mem_cons, List.not_mem_nil, or_false, Fld.addr] at hx
      exact (hlow x (by omega)).trans (honly.1 x (by simp only [List.mem_singleton, Fld.addr]; omega))
    rw [State.geti64, State.get64_congr MEM_UE_ADDR_LO 0 0 0 (hpair _ (by simp)) (hpair _ (by simp)), State.get64_set64]
    rfl
  · exact (State.get_congr MEM_UE_INFO_PORT 0 0 0 (hlow _ (by decide))).trans hport
  · rw [State.on, State.get_congr MEM_UE_INFO_SCRUB 0 0 0 (hlow _ (by decide))]
    exact hscrub
  · rw [State.on, State.get_congr MEM_UE_INFO_WRITE 0 0 0 (hlow _ (by decide))]
    exact hwrite
  · exact (State.get_congr GLB_MODE_STAT_MODE 0 0 0 (((hlow _ (by decide)).trans (honly.1 _ (by decide))).trans
      (State.rd_set64_other u _ _ _ _ _ (by decide) (by decide)))).trans (hraise GLB_MODE_STAT_MODE 0 (by decide))

/-- An uncorrectable error: recorded, the burst poisoned, every byte outside it as it was (R154). -/
theorem memUE_shows (s : State) {p : Nat} (a n : Nat) (scrub write : Bool) (hp : p < 256) :
    let t := s.memUE p a n scrub write
    t.get MEM_SC_UE_UE n = min (s.get MEM_SC_UE_UE n + 1) 65535 ∧ t.geti64 MEM_UE_ADDR_LO = sx 64 (64 * (a / 64) % 2 ^ 64) ∧
      t.get MEM_UE_INFO_PORT = p ∧ t.on MEM_UE_INFO_SCRUB = scrub ∧ t.on MEM_UE_INFO_WRITE = write ∧
      smGet (fun _ => false) t.poison (a / 64) = true ∧ t.mode = s.mode ∧
      ∀ x, x / 64 ≠ a / 64 → smGet (fun _ => (0 : Byte)) t.store x = smGet (fun _ => 0) s.store x := by
  intro t
  obtain ⟨hue, haddr, hport, hscrub, hwrite, hmode⟩ := recordUE_shows s (n := n) a scrub write hp
  have ht : t = _ := memUE_eq s p a n scrub write
  have hrd : ∀ x, t.rd x = (s.recordUE p a n scrub write).rd x := fun x => by rw [ht, poisonBurst_rd]
  have hget : ∀ (f : Fld) (i : Nat), t.get f i = (s.recordUE p a n scrub write).get f i := fun f i => State.get_congr _ _ _ _ (hrd _)
  have hrecord : (s.recordUE p a n scrub write).store = s.store :=
    OnlyEv_proj (raise_only s EV_MEM_UE (portReq p) _) State.store fun _ _ _ _ _ => rfl
  refine ⟨(hget ..).trans hue, ?_, (hget ..).trans hport, ?_, ?_, ?_, (hget ..).trans hmode, fun x hx => ?_⟩
  · rw [State.geti64, State.get64_congr _ _ _ _ (hrd _) (hrd _)]
    exact haddr
  · rw [State.on, hget]
    exact hscrub
  · rw [State.on, hget]
    exact hwrite
  · rw [ht]
    exact poisonBurst_poison ..
  · rw [ht, poisonBurst_store_outside _ List.length_replicate hx, hrecord]

/-! ### A write of bytes of one burst (R154, R160, R176) -/

/-- The sub-channel of a burst is that of each of its bytes. -/
theorem scOf_within (s : State) {a i : Nat} (h : a % 64 + i < 64) : s.scOf (a + i) = s.scOf a := by
  unfold State.scOf
  rw [show (a + i) / 256 = a / 256 by omega]

theorem takes_within {s : State} {a n : Nat} (hr : s.on MEM_STAT_READY = true) (hb : s.scBad (s.scOf a) = false) (hn : a % 64 + n ≤ 64)
    (hc : a + n ≤ s.memCap) : ∀ i < n, s.takes (a + i) := fun i hi =>
  ⟨by omega, hr, by rw [scOf_within s (by omega)]; exact hb⟩

/-- Nothing is counted of a write to a burst of a sub-channel that takes requests. -/
theorem st_taken {s : State} {a : Nat} {l : List Nat} (hb : s.scBad (s.scOf a) = false) (hl : a % 64 + l.length ≤ 64) :
    s.st a l = (s.stRun a l).each (fullBursts a l.length) fun b s => s.unpoison b := by
  have hf : s.on MEM_SC_STAT_FENCED (s.scOf a) = false := by
    simp only [State.scBad, Bool.or_eq_false_iff] at hb
    exact hb.1
  have hsaw : (bursts a l.length).filter (fun b => s.on MEM_SC_STAT_FENCED (s.scOf (64 * b))) = [] := by
    rcases Nat.eq_zero_or_pos l.length with h0 | h0
    · rw [h0, bursts_zero, List.filter_nil]
    · rw [bursts_one h0 hl]
      simp [scOf_burst, hf]
  rw [State.st, hsaw]
  rfl

theorem st_part {s : State} {a : Nat} {l : List Nat} (hb : s.scBad (s.scOf a) = false) (hl : a % 64 + l.length < 64) : s.st a l = s.stRun a l := by
  rw [st_taken hb (by omega), fullBursts_part hl]
  rfl

/-- A write of a whole burst ends its poison (R154). -/
theorem st_whole {s : State} {a : Nat} {l : List Nat} (hr : s.on MEM_STAT_READY = true) (hb : s.scBad (s.scOf a) = false) (ha : a % 64 = 0)
    (hl : l.length = 64) :
    s.st a l = { s with store := (s.stRun a l).store, poison := smPut (fun _ => false) s.poison (a / 64) false } := by
  rw [st_taken hb (by omega), hl, fullBursts_whole ha, stRun_only]
  have hu : ∀ m : SMap Byte, ({ s with store := m } : State).unpoison (a / 64) =
      { s with store := m, poison := smPut (fun _ => false) s.poison (a / 64) false } := fun m => by
    have hbad : ({ s with store := m } : State).scBad (({ s with store := m } : State).scOf (64 * (a / 64))) = false :=
      (congrArg s.scBad (scOf_burst s a)).trans hb
    have hready : ({ s with store := m } : State).on MEM_STAT_READY = true := hr
    rw [State.unpoison, if_neg (by simp [hbad, hready])]
  exact hu _

/-- A write to a fenced sub-channel is counted and stores nothing (R176). -/
theorem st_fenced {s : State} {a : Nat} {l : List Nat} (hr : s.on MEM_STAT_READY = true) (hf : s.on MEM_SC_STAT_FENCED (s.scOf a) = true)
    (hn : s.on MEM_SC_STAT_FAILED (s.scOf a) = false) (h0 : l ≠ []) (hl : a % 64 + l.length ≤ 64) :
    s.st a l = s.addSat MEM_SC_FENCED_REQ 1 (s.scOf a) := by
  have hlen : 0 < l.length := List.length_pos_iff.2 h0
  have hsaw : s.sawBurst (a / 64) = s.addSat MEM_SC_FENCED_REQ 1 (s.scOf a) := by
    rw [State.sawBurst, scOf_burst]
    simp [hr, hf, hn]
  have hcfg : (s.addSat MEM_SC_FENCED_REQ 1 (s.scOf a)).memN = s.memN := by
    rw [State.memN, State.memN, State.addSat, State.get_set_addr _ _ MEM_CFG_POP _ _ _ _ _ _ _ (by simp only [Fld.addr]; omega)]
  have hsc : ∀ x, (s.addSat MEM_SC_FENCED_REQ 1 (s.scOf a)).scOf x = s.scOf x := fun x => by rw [State.scOf, hcfg]; rfl
  have hbad : (s.addSat MEM_SC_FENCED_REQ 1 (s.scOf a)).scBad (s.scOf a) = true := by
    rw [State.scBad, State.on, State.addSat, State.get_set_addr _ _ MEM_SC_STAT_FENCED _ _ _ _ _ _ _ (by simp only [Fld.addr]; omega)]
    rw [State.on] at hf
    rw [hf]
    rfl
  have hunp : (s.addSat MEM_SC_FENCED_REQ 1 (s.scOf a)).unpoison (a / 64) = s.addSat MEM_SC_FENCED_REQ 1 (s.scOf a) := by
    rw [State.unpoison, if_pos]
    rw [hsc, scOf_burst, hbad]
    rfl
  rw [State.st, bursts_one hlen hl]
  simp only [List.filter_cons, List.filter_nil, scOf_burst, hf, if_true, State.each_cons, State.each_nil, hsaw]
  rw [stRun_refused]
  · refine State.each_inv (fun t => t = s.addSat MEM_SC_FENCED_REQ 1 (s.scOf a)) _ _ (fun b t hb ht => ?_) _ rfl
    have hba : b = a / 64 := by
      rw [fullBursts, bursts_one hlen hl] at hb
      exact List.mem_singleton.1 (List.mem_of_mem_filter hb)
    rw [ht, hba]
    exact hunp
  · intro i hi
    rw [hsc, scOf_within s (by omega)]
    exact hbad

/-! ### Panic (R169, R178) -/

theorem fifo_enters {s : State} {p : Nat} {v : Fin 65} (hp : p < 174) (hs : s.on MEM_PORT_CFG_SIDE p = false)
    (hc : s.on MEM_PORT_STAT_PANIC p = false) (hv : v.val < s.get MEM_PORT_CFG_THRESH p) :
    s.fifo p (some v) = (s.set MEM_PORT_STAT_LEVEL v p).setPanic p true := by
  have hcfg : ∀ f : Fld, f.addr p = MEM_PORT_CFG.addr p → (s.set MEM_PORT_STAT_LEVEL v p).get f p = s.get f p := fun f hf =>
    State.get_set_addr _ _ _ _ _ _ _ _ _ _ (by rw [hf]; simp only [Fld.addr]; omega)
  have hin : (s.set MEM_PORT_STAT_LEVEL v p).on MEM_PORT_STAT_PANIC p = false := by
    rw [State.on, State.get_set_bits _ MEM_PORT_STAT_LEVEL MEM_PORT_STAT_PANIC _ _ _ _ _ _ _ (by decide)]
    exact hc
  have hside : (s.set MEM_PORT_STAT_LEVEL v p).on MEM_PORT_CFG_SIDE p = false := by
    rw [State.on, hcfg MEM_PORT_CFG_SIDE rfl]
    exact hs
  have hth := hcfg MEM_PORT_CFG_THRESH rfl
  unfold State.fifo
  simp only [hth, hin, hside]
  rw [if_neg (by omega), if_neg (by omega), if_pos (by simpa using hv)]

/-- A port that enters panic is shown, counted and reported (R169, R178). -/
theorem setPanic_enters (s : State) {p : Nat} (hp : p < 174) :
    let t := s.setPanic p true
    t.on MEM_PORT_STAT_PANIC p = true ∧ t.get MEM_PORT_STAT_LEVEL p = s.get MEM_PORT_STAT_LEVEL p ∧
      t.get MEM_PORT_STAT_PANIC_CNT p = (s.get MEM_PORT_STAT_PANIC_CNT p + 1) % 65536 ∧ t.on MEM_PANIC_STAT_ANY = true ∧
      OnlyEv [MEM_PORT_STAT.addr p, MEM_PANIC_STAT.addr] s t := by
  have hlim : ∀ t : State, OnlyEv [] t (t.raiseLim EV_MEM_PANIC (portReq p) p ms100) := fun t => raiseLim_only ..
  have hport : evReg (MEM_PORT_STAT.addr p) = false := evReg_above (by simp only [Fld.addr]; omega)
  have hfar : ∀ f : Fld, f.addr p = MEM_PORT_STAT.addr p → f.addr p ≠ MEM_PANIC_STAT.addr := fun f hf => by
    rw [hf]
    simp only [Fld.addr]
    omega
  have hstat : ∀ (t : State) (f : Fld), f.addr p = MEM_PORT_STAT.addr p → t.panicStat.get f p = t.get f p := fun t f hf => by
    unfold State.panicStat
    dsimp only
    rw [State.get_set_addr _ MEM_PANIC_STAT_PORTS f _ _ _ _ _ _ _ (hfar f hf), State.put,
      State.get_set_addr _ MEM_PANIC_STAT_ANY f _ _ _ _ _ _ _ (hfar f hf)]
  have hany : (s.put MEM_PORT_STAT_PANIC true p).panicStat.on MEM_PANIC_STAT_ANY = true := by
    have hin : (s.put MEM_PORT_STAT_PANIC true p).on MEM_PORT_STAT_PANIC p = true := State.on_put_same _ _ _ _ _ _ rfl (by decide)
    have hne : ((List.range 174).filter fun p' => (s.put MEM_PORT_STAT_PANIC true p).on MEM_PORT_STAT_PANIC p').length ≠ 0 := fun h0 =>
      absurd (List.mem_filter.2 ⟨List.mem_range.2 hp, hin⟩) (by rw [List.eq_nil_of_length_eq_zero h0]; simp)
    unfold State.panicStat
    dsimp only
    rw [State.on, State.get_set_bits _ MEM_PANIC_STAT_PORTS MEM_PANIC_STAT_ANY _ _ _ _ _ _ _ (by decide), bne_iff_ne.2 hne]
    exact State.on_put_same _ _ _ _ _ _ rfl (by decide)
  have hget : ∀ (t : State) (f : Fld), f.addr p = MEM_PORT_STAT.addr p →
      (t.raiseLim EV_MEM_PANIC (portReq p) p ms100).get f p = t.get f p := fun t f hf =>
    OnlyEv_get (hlim t) f p 0 0 (by simp) (by rw [hf]; exact hport)
  intro t
  have ht : t = ((s.put MEM_PORT_STAT_PANIC true p).panicStat.addWrap MEM_PORT_STAT_PANIC_CNT 1 p).raiseLim EV_MEM_PANIC (portReq p) p ms100 := rfl
  rw [ht]
  refine ⟨?_, ?_, ?_, ?_, ?_⟩
  · rw [State.on, hget _ MEM_PORT_STAT_PANIC rfl, State.addWrap, State.get_set_bits _ MEM_PORT_STAT_PANIC_CNT _ _ _ _ _ _ _ _ (by decide),
      hstat _ MEM_PORT_STAT_PANIC rfl]
    exact State.on_put_same _ _ _ _ _ _ rfl (by decide)
  · rw [hget _ MEM_PORT_STAT_LEVEL rfl, State.addWrap, State.get_set_bits _ MEM_PORT_STAT_PANIC_CNT _ _ _ _ _ _ _ _ (by decide),
      hstat _ MEM_PORT_STAT_LEVEL rfl, State.get_put_bits _ MEM_PORT_STAT_PANIC _ _ _ _ _ (by decide)]
  · rw [hget _ MEM_PORT_STAT_PANIC_CNT rfl, State.get_addWrap _ _ _ _ _ _ (by decide), hstat _ MEM_PORT_STAT_PANIC_CNT rfl,
      State.get_put_bits _ MEM_PORT_STAT_PANIC _ _ _ _ _ (by decide)]
    rfl
  · rw [State.on, OnlyEv_get (hlim _) MEM_PANIC_STAT_ANY 0 0 0 (by simp) (by decide), State.addWrap,
      State.get_set_addr _ MEM_PORT_STAT_PANIC_CNT MEM_PANIC_STAT_ANY _ _ _ _ _ _ _ (by simp only [Fld.addr]; omega)]
    exact hany
  · have hpanic : ∀ t : State, OnlyEv [MEM_PANIC_STAT.addr] t t.panicStat := fun t =>
      OnlyEv_mono (OnlyEv_trans (OnlyEv_set t MEM_PANIC_STAT_ANY _ 0 0 0) (OnlyEv_set _ MEM_PANIC_STAT_PORTS _ 0 0 0)) (by simp [Fld.addr])
    have hshown := OnlyEv_trans (OnlyEv_set s MEM_PORT_STAT_PANIC 1 p 0 0) (hpanic _)
    exact OnlyEv_mono (OnlyEv_trans hshown (OnlyEv_trans (OnlyEv_set _ MEM_PORT_STAT_PANIC_CNT _ p 0 0) (hlim _))) (by simp [Fld.addr])

/-! ### The requests -/

theorem exec_storeReadRequest (p : Fin 195) (a : Nat) (r : Fin 2) (err : List (Fin 10)) (level : Option (Fin 65)) (s : State) :
    exec (.storeReadRequest p a r err level) s = .next ((s.memRead p a r (err.map (·.val)) (p == 192) false).fifo p level) := rfl

theorem exec_storeWriteRequest (p : Fin 195) (a : Nat) (l : List Byte) (r : Fin 2) (err : List (Fin 10)) (level : Option (Fin 65)) (s : State) :
    let d := (l.take (64 - a % 64)).map (·.toNat)
    exec (.storeWriteRequest p a l r err level) s = .next
      (((if d.length < 64 && !(s.poisoned (a / 64)) then s.memRead p a r (err.map (·.val)) false true else s).st a d).fifo p level) := rfl

/-- A write that needs no read first: of a whole burst, or to a burst that answers poisoned (R154). -/
theorem storeWrite_unread {s : State} {p : Fin 195} {a : Nat} {l : List Byte} (r : Fin 2) (err : List (Fin 10)) (hl : a % 64 + l.length ≤ 64)
    (h : l.length = 64 ∨ s.poisoned (a / 64) = true) :
    exec (.storeWriteRequest p a l r err none) s = .next (s.st a (l.map (·.toNat))) := by
  have htake : l.take (64 - a % 64) = l := List.take_of_length_le (by omega)
  have hread : ¬ (decide ((l.map (·.toNat)).length < 64) && !(s.poisoned (a / 64))) = true := by
    rcases h with h | h
    · simp [h]
    · simp [h]
  rw [exec_storeWriteRequest, htake]
  simp only [hread]
  rfl

/-- A run of bytes reads back in the store. -/
theorem stRun_word8 {s : State} {a : Nat} {l : List Byte} (h : ∀ i < l.length, s.takes (a + i)) {i : Nat} (hi : i < l.length) :
    smGet (fun _ => (0 : Byte)) (s.stRun a (l.map (·.toNat))).store (a + i) = l.getD i 0 := by
  rw [stRun_bytes _ s a (by simpa using h) i (by simpa using hi)]
  simp [List.getD_eq_getElem?_getD, hi]

/-- A whole burst written: its bytes are read, its poison is over, all else stays (R154). -/
theorem storeWrite_whole {s : State} {p : Fin 195} {a : Nat} {l : List Byte} (r : Fin 2) (hr : s.on MEM_STAT_READY = true)
    (hb : s.scBad (s.scOf a) = false) (ha : a % 64 = 0) (hl : l.length = 64) (hc : a + 64 ≤ s.memCap) :
    Gives (exec (.storeWriteRequest p a l r [] none) s) fun t =>
      (∀ i < 64, t.ldByte (a + i) = l.getD i 0) ∧ smGet (fun _ => false) t.poison (a / 64) = false ∧
      (∀ x, x / 64 ≠ a / 64 → smGet (fun _ => (0 : Byte)) t.store x = smGet (fun _ => 0) s.store x) ∧
      (∀ x, x ≠ a / 64 → smGet (fun _ => false) t.poison x = smGet (fun _ => false) s.poison x) ∧ t = { s with store := t.store, poison := t.poison } := by
  have htakes : ∀ i < l.length, s.takes (a + i) := takes_within hr hb (by omega) (by omega)
  refine ⟨_, storeWrite_unread r [] (by omega) (Or.inl hl), ?_⟩
  rw [st_whole hr hb ha (by simpa using hl)]
  generalize hm : (s.stRun a (l.map (·.toNat))).store = m
  have hclean : ({ s with store := m, poison := smPut (fun _ => false) s.poison (a / 64) false } : State).poisoned (a / 64) = false :=
    (poisoned_taken (s := { s with store := m, poison := smPut (fun _ => false) s.poison (a / 64) false }) hr hb).trans
      (smGet_put_same (fun _ => false) s.poison (a / 64) false)
  refine ⟨fun i hi => ?_, smGet_put_same (fun _ => false) s.poison (a / 64) false, fun x hx => ?_,
    fun x hx => smGet_put_other (fun _ => false) s.poison false hx, rfl⟩
  · have hcap : ¬ ({ s with store := m, poison := smPut (fun _ => false) s.poison (a / 64) false } : State).memCap ≤ a + i :=
      fun hge => absurd (show s.memCap ≤ a + i from hge) (by omega)
    rw [State.ldByte, if_neg (by simp [hcap]), show (a + i) / 64 = a / 64 by omega, if_neg (by simp [hclean]), ← stRun_word8 htakes (by omega), hm]
  · rw [← hm]
    exact stRun_store_outside _ _ _ _ (by simp; omega)

/-- A part of a poisoned burst written: the bytes join it and the poison stays (R154). -/
theorem storeWrite_part {s : State} {p : Fin 195} {a : Nat} {l : List Byte} (r : Fin 2) (err : List (Fin 10)) (hr : s.on MEM_STAT_READY = true)
    (hb : s.scBad (s.scOf a) = false) (hp : smGet (fun _ => false) s.poison (a / 64) = true) (hl : a % 64 + l.length < 64)
    (hc : a + l.length ≤ s.memCap) :
    Gives (exec (.storeWriteRequest p a l r err none) s) fun t =>
      (∀ i < l.length, smGet (fun _ => (0 : Byte)) t.store (a + i) = l.getD i 0) ∧ t.poison = s.poison ∧
      (∀ x, (x < a ∨ a + l.length ≤ x) → smGet (fun _ => (0 : Byte)) t.store x = smGet (fun _ => 0) s.store x) ∧ t = { s with store := t.store } := by
  refine ⟨_, storeWrite_unread r err (by omega) (Or.inr ((poisoned_taken hr hb).trans hp)), ?_⟩
  rw [st_part hb (by simpa using hl)]
  exact ⟨fun i hi => stRun_word8 (takes_within hr hb (by omega) hc) hi, stRun_poison ..,
    fun x hx => stRun_store_outside _ _ _ _ (by simpa using hx), stRun_only ..⟩

/-- Settles O34: a request meets a sound burst, errors, poison, a fence or its FIFO's threshold, one lemma each. -/
theorem storeRequestsMeetErrors : Obligations.StoreRequestsMeetErrors := by
  unfold Obligations.StoreRequestsMeetErrors
  intro s p a r d d' l v n hcap hready
  have hport : p.val < 256 := by omega
  have hscrub : ∀ s' : State, exec (.storeReadRequest p a r [d, d'] none) s' = .next (s'.memRead p a r [d.val, d'.val] (p.val == 192) false) := fun _ => by
    rw [exec_storeReadRequest, show (p == 192) = (p.val == 192) by simp [Fin.ext_iff, beq_eq_decide]]
    rfl
  refine ⟨fun hb hp => ⟨?_, fun her => ?_, fun her => ?_⟩, fun hb hp => ?_, fun hb ha hl hc => storeWrite_whole r hready hb ha hl hc,
    fun hb hp hl hc => storeWrite_part r [d] hready hb hp hl hc, fun hf hn hl h0 => ?_, fun hb hp h174 hside hpanic hv => ?_⟩
  · rw [exec_storeReadRequest, memRead_sound _ _ _ _ _ hcap ((poisoned_taken hready hb).trans hp)]
    rfl
  · obtain ⟨hce, hstore, hpoison, hmode⟩ := memCE_counts s r d (scOf_lt s a)
    refine ⟨_, exec_storeReadRequest .., ?_⟩
    rw [memRead_sound _ _ _ _ _ hcap ((poisoned_taken hready hb).trans hp), List.map_cons, List.map_nil, memJudge_one _ _ _ _ her]
    exact ⟨hce, hstore, hpoison, hmode⟩
  · have hne : s.erased n r = none ∧ d.val ≠ d'.val ∨ ∃ x, s.erased n r = some x ∧ x ≠ d.val ∧ (d'.val = d.val ∨ d'.val = x) := by
      rcases her with ⟨hnone, hdd⟩ | ⟨x, hx, hxd, hd'⟩
      · exact Or.inl ⟨hnone, Fin.val_ne_of_ne hdd⟩
      · exact Or.inr ⟨x, hx, hxd, hd'.imp_left fun h => congrArg Fin.val h⟩
    refine ⟨_, hscrub s, ?_⟩
    rw [memRead_sound _ _ _ _ _ hcap ((poisoned_taken hready hb).trans hp), memJudge_two _ _ _ hne]
    exact memUE_shows s a n _ _ hport
  · have hbad : s.on MEM_SC_STAT_FENCED n = false ∧ s.on MEM_SC_STAT_FAILED n = false := by simpa [State.scBad] using hb
    refine ⟨_, exec_storeReadRequest .., ?_⟩
    have hread : s.memRead p a r ([d].map (·.val)) (p == 192) false = s.addSat MEM_SC_UE_POISON_RD 1 n := by
      rw [State.memRead, if_neg (by omega), if_pos ((poisoned_taken hready hb).trans hp), State.sawBurst, scOf_burst]
      simp [hready, hbad.1, hbad.2, hp, n]
    rw [hread]
    exact ⟨State.get_addSat _ _ _ _ _ _ (by decide), OnlyRegs_set s MEM_SC_UE_POISON_RD _ n 0 0⟩
  · refine ⟨_, storeWrite_unread r [] hl (Or.inr ?_), ?_⟩
    · simp [State.poisoned, scOf_burst, State.scBad, hf, n]
    · rw [st_fenced hready hf hn (by simpa using h0) (by simpa using hl)]
      exact ⟨rfl, rfl, State.get_addSat _ _ _ _ _ _ (by decide), OnlyRegs_set ..⟩
  · have hread : s.memRead p a r (([] : List (Fin 10)).map (·.val)) (p == 192) false = s := by
      rw [memRead_sound _ _ _ _ _ hcap ((poisoned_taken hready hb).trans hp)]
      rfl
    refine ⟨_, exec_storeReadRequest .., ?_⟩
    rw [hread, fifo_enters h174 hside hpanic hv]
    obtain ⟨hin, hlevel, hcnt, hany, honly⟩ := setPanic_enters (s.set MEM_PORT_STAT_LEVEL v p) h174
    refine ⟨hin, hlevel.trans ?_, hcnt.trans ?_, hany, OnlyEv_mono (OnlyEv_trans (OnlyEv_set s MEM_PORT_STAT_LEVEL v p 0 0) honly) (by simp [Fld.addr])⟩
    · rw [State.get_set_same _ _ _ _ _ _ (by decide)]
      exact Nat.mod_eq_of_lt (show v.val < 2 ^ 7 by omega)
    · rw [State.get_set_bits _ MEM_PORT_STAT_LEVEL MEM_PORT_STAT_PANIC_CNT _ _ _ _ _ _ _ (by decide)]

end Sys2Proof.Machine

/-! SUPPORT for the proofs. What the running views of units, engines and bars leave alone: permission views, the store, submissions, and the registers of
other blocks (R35 to R40, R117, R118, R256). -/

namespace Sys2Proof.Machine

open Sys2Proof.Safety

/-- The bits that no running view, latch or report writes: of the unit states the permission views alone, but the whole state of a sub-channel. -/
def stillBit (a i : Nat) : Prop :=
  evReg a = false ∧ (a < 0x110 ∨ 0x130 ≤ a) ∧ (a < 0x81000 ∨ 0x83000 ≤ a) ∧ (a < 0xA00000 ∨ 0xB00000 ≤ a) ∧ a < 0xC00000 ∧
    (0x2000 ≤ a → a < 0x2400 → 0x2280 ≤ a ∧ a < 0x22E0 ∨ 4 ≤ i ∧ i < 7)

/-- Bits among those. -/
def Still (P : Nat → Nat → Prop) : Prop := ∀ a i, P a i → stillBit a i

namespace Still

variable {P : Nat → Nat → Prop}

theorem unreported (hP : Still P) : Unreported P := fun a i h => (hP a i h).1

/-- Of a unit that is no sub-channel, the permission view alone. -/
theorem unit (hP : Still P) {n : Nat} (hn : n < 0x100) (hs : n < 0xA0 ∨ 0xB8 ≤ n) : ∀ i, P (GLB_UST.addr n) i → 4 ≤ i ∧ i < 7 := fun i h => by
  obtain ⟨-, -, -, -, -, hu⟩ := hP _ i h
  simp only [Fld.addr] at hu
  omega

/-- A register where none of them lies. -/
theorem apart (hP : Still P) {a : Nat}
    (ha : (0x110 ≤ a ∧ a < 0x130) ∨ (0x81000 ≤ a ∧ a < 0x83000) ∨ (0xA00000 ≤ a ∧ a < 0xB00000) ∨ 0xC00000 ≤ a) : ∀ i, ¬ P a i := fun i h => by
  obtain ⟨-, h1, h2, h3, h4, -⟩ := hP _ i h
  omega

end Still

theorem barBase_ne (s : State) (b : Nat) : s.barBase b ≠ 5 := by
  unfold State.barBase
  split_ifs <;> decide

theorem portBase_ne (s : State) (p : Nat) : s.portBase p ≠ 5 := by
  unfold State.portBase
  dsimp only
  split_ifs <;> decide

namespace Spares

variable {P : Nat → Nat → Prop} {s t u : State}

/-- A field that takes the value it has. -/
theorem setSame (h : Spares P s t) (f : Fld) (v i j k : Nat) (hv : v = t.get f i j k) : Spares P s (t.set f v i j k) := by
  refine h.trans ⟨fun a n _ => ?_, rfl, rfl, fun _ _ => rfl⟩
  rw [State.set, State.rd_wr]
  split
  · next heq =>
    by_cases hn : n < 32
    · rw [getLsbD_putBits _ _ _ _ _ hn, heq]
      split
      · next hr =>
        rw [hv, State.get, testBit_getBits, show f.lo + (n - f.lo) = n by omega]
        simp
        omega
      · rfl
    · rw [BitVec.getLsbD_of_ge _ _ (by omega), BitVec.getLsbD_of_ge _ _ (by omega)]
  · rfl

theorem setFar (h : Spares P s t) (hP : Still P) (f : Fld) (v i j k : Nat)
    (hf : (0x110 ≤ f.addr i j k ∧ f.addr i j k < 0x130) ∨ (0x81000 ≤ f.addr i j k ∧ f.addr i j k < 0x83000) ∨
      (0xA00000 ≤ f.addr i j k ∧ f.addr i j k < 0xB00000) ∨ 0xC00000 ≤ f.addr i j k) : Spares P s (t.set f v i j k) :=
  h.set _ _ _ _ _ fun i _ _ => hP.apart hf i

theorem putFar (h : Spares P s t) (hP : Still P) (f : Fld) (b : Bool) (i j k : Nat)
    (hf : (0x110 ≤ f.addr i j k ∧ f.addr i j k < 0x130) ∨ (0x81000 ≤ f.addr i j k ∧ f.addr i j k < 0x83000) ∨
      (0xA00000 ≤ f.addr i j k ∧ f.addr i j k < 0xB00000) ∨ 0xC00000 ≤ f.addr i j k) : Spares P s (t.put f b i j k) := h.setFar hP _ _ _ _ _ hf

/-! ### Unit states (R35 to R39) -/

/-- A running view made, the permission view as it is. -/
theorem setViews (h : Spares P s t) (hP : Still P) {n : Nat} (run cause : Nat) (hn : n < 0x100) (hu : ∀ i, P (GLB_UST.addr n) i → 4 ≤ i ∧ i < 7) :
    Spares P s (t.setViews n run (t.get GLB_UST_PERMIT n) cause) := by
  have field : ∀ {w : State} (f : Fld) (v : Nat), Spares P s w → f.addr n = GLB_UST.addr n → f.lo + f.width ≤ 4 ∨ 7 ≤ f.lo → Spares P s (w.set f v n) :=
    fun f v hw hf hlo => hw.set f v n 0 0 fun i h0 h1 hi => by
      have := hu i (hf ▸ hi)
      omega
  unfold State.setViews
  extract_lets old new sk0 sk s1 s2 s3
  have h1 : Spares P s s1 := field GLB_UST_STATE _ ((field GLB_UST_RUNSTATE _ h rfl (by decide)).setSame GLB_UST_PERMIT _ n 0 0
    (State.get_set_bits _ _ _ _ _ _ _ _ _ _ (by decide)).symm) rfl (by decide)
  have h2 : Spares P s s2 := h1.cond fun _ => by
    have hc : Spares P s (s1.addWrap GLB_UST_CHANGES 1 n) := field GLB_UST_CHANGES _ h1 rfl (by decide)
    exact hc.cond fun _ => field GLB_UST_CAUSE _ hc rfl (by decide)
  have h3 : Spares P s s3 := (field GLB_UST_SKEW _ h2 rfl (by decide)).setFar hP GLB_SKEW_MAP _ (n / 32) 0 0 (by simp only [Fld.addr]; omega)
  clear_value s3
  split
  · exact h3.raise hP.unreported ..
  · split
    · exact h3.raise hP.unreported ..
    · exact h3

theorem setRun (h : Spares P s t) (hP : Still P) {n run : Nat} (cause : Nat) (hn : n < 0x100) (hu : ∀ i, P (GLB_UST.addr n) i → 4 ≤ i ∧ i < 7)
    (hrun : run ≠ 5) : Spares P s (t.setRun n run cause) := by
  unfold State.setRun
  rw [if_neg hrun]
  split_ifs
  · exact h
  · exact h
  · exact h.setViews hP _ _ hn hu

theorem stall (h : Spares P s t) (hP : Still P) {n : Nat} (cause : Nat) (hn : n < 0x100) (hu : ∀ i, P (GLB_UST.addr n) i → 4 ≤ i ∧ i < 7) :
    Spares P s (t.stall n cause) := by
  unfold State.stall
  dsimp only
  split_ifs
  · exact h
  · exact h.same ⟨rfl, rfl, rfl, rfl⟩
  · exact (h.same ⟨by rfl, by rfl, by rfl, by rfl⟩).setRun hP _ hn hu (by decide)

theorem unstall (h : Spares P s t) (hP : Still P) {n base : Nat} (cause : Nat) (hn : n < 0x100) (hu : ∀ i, P (GLB_UST.addr n) i → 4 ≤ i ∧ i < 7)
    (hb : base ≠ 5) : Spares P s (t.unstall n cause base) := by
  unfold State.unstall
  dsimp only
  split_ifs
  · exact (h.same ⟨by rfl, by rfl, by rfl, by rfl⟩).setRun hP _ hn hu hb
  · exact h.same ⟨rfl, rfl, rfl, rfl⟩
  · exact h

/-- The running view of a unit brought up to date where no cause of STALL is left. -/
theorem settleRun (h : Spares P s t) (hP : Still P) {n base : Nat} (hn : n < 0x100) (hu : ∀ i, P (GLB_UST.addr n) i → 4 ≤ i ∧ i < 7) (hb : base ≠ 5) :
    Spares P s (if (t.stallCauses n).isEmpty then t.setRun n base else t) := by
  split
  · exact h.setRun hP _ hn hu hb
  · exact h

/-! ### Bars and ports (R256) -/

theorem refreshBar (h : Spares P s t) (hP : Still P) {b : Nat} (hb : b < 16) : Spares P s (t.refreshBar b) := by
  have hu := hP.unit (n := b) (by omega) (by omega)
  unfold State.refreshBar
  dsimp only
  refine settleRun ?_ hP (by omega) hu (barBase_ne _ b)
  have hput : Spares P s (t.put HPL_BAR_STAT_STALL ((t.portsOf b).any fun p => t.get GLB_UST_RUNSTATE (portUnit p) == 3) b) :=
    h.putFar hP HPL_BAR_STAT_STALL _ b 0 0 (by simp only [Fld.addr]; omega)
  split
  · exact hput.stall hP _ (by omega) hu
  · exact hput.unstall hP _ (by omega) hu (barBase_ne _ b)

theorem refreshPort (h : Spares P s t) (hP : Still P) {p : Nat} (hp : p < 128) : Spares P s (t.refreshPort p) := by
  have hn : portUnit p < 0x90 := by
    unfold portUnit
    omega
  have hu := hP.unit (n := portUnit p) (by omega) (by omega)
  unfold State.refreshPort
  dsimp only
  refine refreshBar ?_ hP (port_bar_lt _ p)
  split
  · exact (h.same ⟨by rfl, by rfl, by rfl, by rfl⟩).setRun hP _ (by omega) hu (by decide)
  · refine settleRun ?_ hP (by omega) hu (portBase_ne t p)
    split
    · exact h.unstall hP _ (by omega) hu (portBase_ne t p)
    · exact h.stall hP _ (by omega) hu

theorem refreshBars (h : Spares P s t) (hP : Still P) : Spares P s t.refreshBars :=
  (h.each fun _ _ hp hu => hu.cond fun _ => hu.refreshPort hP (List.mem_range.1 hp)).each fun _ _ hb hu => hu.refreshBar hP (List.mem_range.1 hb)

/-! ### Engines (R99, R117, R118) -/

theorem latch (h : Spares P s t) (hP : Still P) {e : Nat} (n : Nat) (he : e < 28) : Spares P s (t.latch e n) := by
  obtain ⟨hregs, hrest⟩ := latch_frame t e n
  have haway : ∀ {a i}, P a i → a < 0x81000 ∨ 0x83000 ≤ a := fun hi => (hP _ _ hi).2.2.1
  refine h.trans ⟨fun a i ha => ?_, by rw [hrest], by rw [hrest], fun q _ => by rw [hrest]; rfl⟩
  have := haway ha
  rw [hregs a (by simp only [Fld.addr]; omega) (by simp only [Fld.addr]; omega) (by simp only [Fld.addr]; omega)]

theorem latchAll (h : Spares P s t) (hP : Still P) (n : Nat) : Spares P s (t.latchAll n) :=
  h.each fun _ _ he hu => hu.latch hP n (List.mem_range.1 he)

theorem engSet (h : Spares P s t) (hP : Still P) {e : Nat} (f : Fld) (v : Nat) (hf : f.addr e = ENG_STAT.addr e) (he : e < 28) :
    Spares P s (t.set f v e) := h.setFar hP f v e 0 0 (by rw [hf]; simp only [Fld.addr]; omega)

theorem setEng (h : Spares P s t) (hP : Still P) {e : Nat} (st cause : Nat) (he : e < 28) : Spares P s (t.setEng e st cause) := by
  unfold State.setEng
  refine (h.engSet hP ENG_STAT_STATE st rfl he).setRun hP _ (by unfold engUnit; omega) (hP.unit (by unfold engUnit; omega) (by unfold engUnit; omega)) ?_
  split_ifs <;> decide

theorem haltEng (h : Spares P s t) (hP : Still P) {e : Nat} (he : e < 28) : Spares P s (t.haltEng e) :=
  (h.same ⟨by rfl, by rfl, by rfl, by rfl⟩).setEng hP _ _ he

theorem clearWait (h : Spares P s t) (hP : Still P) {e : Nat} (he : e < 28) : Spares P s (t.clearWait e) :=
  ((h.same ⟨by rfl, by rfl, by rfl, by rfl⟩).engSet hP ENG_STAT_WAIT_KIND 0 rfl he).engSet hP ENG_STAT_WAIT_UNIT 0 rfl he

theorem stopEng (h : Spares P s t) (hP : Still P) {e : Nat} (he : e < 28) : Spares P s (t.stopEng e) := by
  unfold State.stopEng
  split
  · split
    · split
      · exact h.same ⟨rfl, rfl, rfl, rfl⟩
      · exact (h.clearWait hP he).haltEng hP he
    · exact h.haltEng hP he
  · exact h.haltEng hP he

end Spares

end Sys2Proof.Machine

/-! SUPPORT for the proofs. What a FATAL event leaves alone: the registers of the store's controller and the unit states of the sub-channels (R35, R45,
R46). -/

namespace Sys2Proof.Machine

open Sys2Proof.Safety

/-- The registers of the store's controller and the unit states of the sub-channels. -/
def memBit (a _i : Nat) : Prop := (0xB00000 ≤ a ∧ a < 0xC00000) ∨ (0x2280 ≤ a ∧ a < 0x22E0)

theorem evReg_of_memBit {a i : Nat} (h : memBit a i) : evReg a = false := by
  simp [memBit, evReg] at h ⊢
  omega

theorem still_memBit : Still memBit := fun a i h => by
  refine ⟨evReg_of_memBit h, ?_⟩
  simp only [memBit] at h
  omega

namespace Spares

variable {P : Nat → Nat → Prop} {s t u : State}

/-! ### Entries of the queues from 32 on (R418, R428, R433) -/

theorem setQu (h : Spares P s t) {q : Nat} (x : Queue) (hq : 32 ≤ q) : Spares P s (t.setQu q x) :=
  h.trans ⟨fun _ _ _ => rfl, rfl, rfl, fun p hp => qu_setQu_other _ _ (by omega)⟩

theorem signal (h : Spares P s t) (hP : Unreported P) {v : Nat} (hv : v < 64) : Spares P s (t.signal v) :=
  h.only (signal_only t v hv) (by simp) hP fun q _ => signal_qu t v q

theorem qWrite (h : Spares P s t) (hP : Unreported P) {q : Nat} (e : Entry) (now : Bool) (hq : 32 ≤ q) (hpi : ∀ i, ¬ P (HIF_Q_PI.addr q) i) :
    Spares P s (t.qWrite q e now) := by
  unfold State.qWrite
  extract_lets pi qu e' n s1 cnt tm
  have h1 : Spares P s s1 := (h.setQu _ hq).set HIF_Q_PI _ q 0 0 fun i _ _ => hpi i
  exact h1.cond fun _ => (h1.setQu _ hq).signal hP (State.get_lt ..)

theorem qSend (h : Spares P s t) (hP : Unreported P) {q : Nat} (e : Entry) (hq : 32 ≤ q) (hpi : ∀ i, ¬ P (HIF_Q_PI.addr q) i)
    (hstat : ∀ i, ¬ P (HIF_Q_STAT.addr q) i) : Spares P s (t.qSend q e) := by
  unfold State.qSend
  split
  · exact h.qWrite hP e false hq hpi
  · exact (h.setQu _ hq).put HIF_Q_STAT_STALL _ q 0 0 fun i _ _ => hstat i

end Spares

/-- A change of a register elsewhere. -/
theorem memSpares_set {s t : State} (h : Spares memBit s t) (f : Fld) (v i j k : Nat)
    (hf : f.addr i j k < 0x2280 ∨ (0x22E0 ≤ f.addr i j k ∧ f.addr i j k < 0xB00000) ∨ 0xC00000 ≤ f.addr i j k) : Spares memBit s (t.set f v i j k) :=
  h.set _ _ _ _ _ fun n _ _ hm => by
    simp only [memBit] at hm
    omega

/-! ### Sheaves and the twin at entry to SAFE (R199, R356, R396) -/

theorem memSpares_refreshSheaves {s t : State} (h : Spares memBit s t) : Spares memBit s t.refreshSheaves := by
  refine (memSpares_set h CMP_STAT_PENDING _ 0 0 0 (by simp only [Fld.addr]; omega)).each fun j u hj hu =>
    memSpares_set hu HIF_JOB_STAT_CHAINED _ j 0 0 ?_
  have := List.mem_range.1 hj
  simp only [Fld.addr]
  omega

theorem memSpares_discardSheaves {s t : State} (h : Spares memBit s t) : Spares memBit s t.discardSheaves := by
  unfold State.discardSheaves
  extract_lets l s1 s2
  have h1 : Spares memBit s s1 := (h.same (u := { t with sheaves := [] }) ⟨rfl, rfl, rfl, rfl⟩).each fun _ _ _ hu =>
    (hu.raise still_memBit.unreported ..).qSend still_memBit.unreported _ (by decide) (fun i hm => by simp [memBit, Fld.addr] at hm)
      fun i hm => by simp [memBit, Fld.addr] at hm
  have h2 : Spares memBit s s2 := h1.cond fun _ =>
    memSpares_set (h1.same (u := { s1 with chlPend := [] }) ⟨rfl, rfl, rfl, rfl⟩) CHL_SHEAF_PENDING _ 0 0 0 (by simp only [Fld.addr]; omega)
  exact memSpares_refreshSheaves h2

theorem memSpares_setActive {s t : State} (h : Spares memBit s t) (a : Bool) : Spares memBit s (t.setActive a) := by
  have hsw : Spares memBit s (t.cond (t.twn.twnSwitch && !a) fun s => ({ s with twn.twnSwitch := false } : State).set TWN_SWITCH_STAT_RESULT 3) :=
    h.cond fun _ => memSpares_set (h.same (u := { t with twn.twnSwitch := false }) ⟨rfl, rfl, rfl, rfl⟩) TWN_SWITCH_STAT_RESULT _ 0 0 0
      (by simp only [Fld.addr]; omega)
  exact (memSpares_set hsw TWN_STAT_ACTIVE (b2n a) 0 0 0 (by simp only [Fld.addr]; omega)).same ⟨rfl, rfl, rfl, rfl⟩

theorem memSpares_twinMode {s t : State} (h : Spares memBit s t) (old m : Nat) : Spares memBit s (t.twinMode old m) :=
  memSpares_setActive (h.cond fun _ => memSpares_set (h.same (u := { t with twn.twnJoin := 0, twn.twnShSkew := false }) ⟨rfl, rfl, rfl, rfl⟩)
    TWN_STAT_SB_READY _ 0 0 0 (by simp only [Fld.addr]; omega)) _

theorem memSpares_leaveHold {s t : State} (h : Spares memBit s t) : Spares memBit s t.leaveHold :=
  h.each fun b _ hb hu => by
    have hb := List.mem_range.1 hb
    exact hu.unstall still_memBit _ (by omega) (still_memBit.unit (by omega) (by omega)) (barBase_ne _ b)

/-! ### SAFE entered (R27, R30, R46) -/

theorem memSpares_safeEffects {s t : State} (h : Spares memBit s t) (old : Nat) : Spares memBit s (t.modeEffects old 7) := by
  unfold State.modeEffects
  extract_lets s1 s2 s3 s4 s5 s6 s7
  have h1 : Spares memBit s s1 := h.cond fun _ => memSpares_discardSheaves h
  have h2 : Spares memBit s s2 := h1.cond fun hc => by simp at hc
  have h3 : Spares memBit s s3 := h2.cond fun hc => by simp at hc
  have h4 : Spares memBit s s4 := h3.cond fun _ => memSpares_leaveHold h3
  have h5 : Spares memBit s s5 := h4.cond fun hc => by simp at hc
  have h6 : Spares memBit s s6 := h5.cond fun _ => h5.same ⟨rfl, rfl, rfl, rfl⟩
  have h7 : Spares memBit s s7 := h6.cond fun hc => by simp at hc
  have hpats : Spares memBit s (s7.twinMode old 7).refreshPats := (memSpares_twinMode h7 old 7).each fun _ _ _ hu => hu.same ⟨rfl, rfl, rfl, rfl⟩
  exact hpats.refreshBars still_memBit

theorem memSpares_setBarMode {s t : State} (h : Spares memBit s t) (b m : Nat) : Spares memBit s (t.setBarMode b m) := by
  unfold State.setBarMode
  split
  · exact memSpares_set h _ m 0 0 0 (by simp [Fld.addr, Fld.sh])
  · exact memSpares_set h _ m 0 0 0 (by simp [Fld.addr, Fld.sh])

theorem memSpares_setSafe {s t : State} (h : Spares memBit s t) (cause rep : Nat) : Spares memBit s (t.setMode 7 cause rep) := by
  unfold State.setMode
  extract_lets old s1 s2 s3 s4 s5
  have h1 : Spares memBit s s1 := h.cond fun hc => by simp at hc
  have h2 : Spares memBit s s2 := h1.cond fun hc => by simp at hc
  have h3 : Spares memBit s s3 := memSpares_set (memSpares_set h2 GLB_MODE_STAT_MODE 7 0 0 0 (by decide)) GLB_MODE_STAT_CAUSE cause 0 0 0 (by decide)
  have h4 : Spares memBit s s4 := h3.each fun b _ _ hu => memSpares_setBarMode hu b 7
  exact memSpares_safeEffects ((h4.latchAll still_memBit 61).raise still_memBit.unreported ..) old

theorem memSpares_preempt {s t : State} (h : Spares memBit s t) : Spares memBit s t.preempt := by
  unfold State.preempt
  split
  · exact h
  · dsimp only
    have hp : Spares memBit s (({ t with tr := none, twn.tkBars := none, twn.tkNext := none } : State).set GLB_MODE_STAT_PENDING 0xF) :=
      memSpares_set (h.same (u := { t with tr := none, twn.tkBars := none, twn.tkNext := none }) ⟨rfl, rfl, rfl, rfl⟩) GLB_MODE_STAT_PENDING _ 0 0 0 (by decide)
    split
    · exact memSpares_set (memSpares_set hp GLB_MODE_STAT_TAG _ 0 0 0 (by decide)) GLB_MODE_STAT_RESULT _ 0 0 0 (by decide)
    · exact hp

theorem memSpares_safeEngines {s t : State} (h : Spares memBit s t) : Spares memBit s t.safeEngines :=
  h.each fun e _ he hu => by
    have he := List.mem_range.1 he
    split
    · exact (hu.stopEng still_memBit he).engSet still_memBit ENG_STAT_SAFE_HALT 1 rfl he
    · exact hu

theorem memSpares_huskAbort {s t : State} (h : Spares memBit s t) : Spares memBit s t.huskAbort := by
  unfold State.huskAbort
  split
  · have hidle := memSpares_set (h.same (u := { t with husk := none }) ⟨rfl, rfl, rfl, rfl⟩) HSK_STAT_BUSY 0 0 0 0 (by decide)
    exact (memSpares_set hidle HSK_STAT_RESULT 4 0 0 0 (by decide)).raise still_memBit.unreported ..
  · exact h

theorem memSpares_safeLamps {s t : State} (h : Spares memBit s t) : Spares memBit s t.safeLamps := by
  unfold State.safeLamps
  extract_lets u l
  have hu : Spares memBit s u := h.each fun n _ _ hv => hv.cond fun _ => memSpares_set hv LS_STAT_STATE 0 n 0 0 (by simp only [Fld.addr]; omega)
  exact hu.same ⟨rfl, rfl, rfl, rfl⟩

/-- A FATAL event leaves the store's controller and the unit states of its sub-channels (R45, R46). -/
theorem fatal_spares (s : State) (e : Ev) (unit : Nat) : Spares memBit s (s.fatal e unit) := by
  unfold State.fatal
  extract_lets s1 s2
  have h1 : Spares memBit s s1 := (Spares.refl s).cond fun _ => memSpares_set (memSpares_set (memSpares_set (Spares.refl s) GLB_FATAL_FIRST_CODE _ 0 0 0
    (by decide)) GLB_FATAL_FIRST_UNIT _ 0 0 0 (by decide)) GLB_FATAL_FIRST_VALID _ 0 0 0 (by decide)
  have h2 : Spares memBit s s2 := (h1.raise still_memBit.unreported e unit []).same ⟨rfl, rfl, rfl, rfl⟩
  exact h2.cond fun _ => memSpares_setSafe (memSpares_safeLamps (memSpares_huskAbort (memSpares_safeEngines (memSpares_preempt h2)))) _ _

end Sys2Proof.Machine

/-! PROOFS. The store's controller: scrubbing, replays and a failed sub-channel, refresh, calibration, promotion, self-refresh (R155 to R160, R166, R167,
R170 to R172, R176). -/

namespace Sys2Proof.Machine

open Sys2Proof.Safety

/-! ### Scrubbing (R155 to R157) -/

/-- The scrubber steps (R155, R156). -/
def State.scrubs (s : State) : Bool := s.on MEM_SCRUB_CTL_EN && s.get MEM_SCRUB_CTL_PERIOD != 0 && s.on MEM_STAT_READY

/-- A step on a burst that is sound or beyond the capacity meets no error. -/
theorem exec_scrubStep_sound {s : State} (r : Fin 2) (h : s.scrubs = true)
    (hp : s.poisoned (s.get64 MEM_SCRUB_POS_LO / 64) = false ∨ s.memCap ≤ s.get64 MEM_SCRUB_POS_LO) :
    exec (.scrubStep r []) s =
      .next (if s.memCap ≤ s.get64 MEM_SCRUB_POS_LO + 64 then s.scrubPass else s.set64 MEM_SCRUB_POS_LO (s.get64 MEM_SCRUB_POS_LO + 64)) := by
  have hread : s.memRead 192 (s.get64 MEM_SCRUB_POS_LO) r [] true false = s := by
    by_cases hc : s.memCap ≤ s.get64 MEM_SCRUB_POS_LO
    · rw [State.memRead, if_pos hc]
    · rw [memRead_sound _ _ _ _ _ (by omega) (hp.resolve_right hc)]
      rfl
  change execScrubStep r [] s = _
  rw [execScrubStep, if_pos (show (s.on MEM_SCRUB_CTL_EN && s.get MEM_SCRUB_CTL_PERIOD != 0 && s.on MEM_STAT_READY) = true from h)]
  simp only [List.map_nil, hread]

theorem exec_scrubStep_off {s : State} (r : Fin 2) (err : List (Fin 10)) (h : s.on MEM_SCRUB_CTL_EN = false) : exec (.scrubStep r err) s = .next s := by
  change execScrubStep r err s = _
  rw [execScrubStep, if_neg (by simp [h])]

/-- The registers below those of the sub-channels that reporting does not write. -/
def lowBit (a _i : Nat) : Prop := a < 0xB01000 ∧ evReg a = false

/-- The registers of a pass's end keep the position and the count, and the store. -/
theorem scrubPass_spares (s : State) : Spares lowBit ((s.set64 MEM_SCRUB_POS_LO 0).addWrap MEM_SCRUB_PASSES 1) s.scrubPass := by
  unfold State.scrubPass
  extract_lets u
  have hu : Spares lowBit ((s.set64 MEM_SCRUB_POS_LO 0).addWrap MEM_SCRUB_PASSES 1) u := (Spares.refl _).raise (fun _ _ h => h.2) ..
  clear_value u
  have hdev : Spares lowBit ((s.set64 MEM_SCRUB_POS_LO 0).addWrap MEM_SCRUB_PASSES 1) { u with memDev := [] } := hu.same ⟨rfl, rfl, rfl, rfl⟩
  exact hdev.each fun n v _ hv => hv.wr _ _ fun i hi => by
    have hlow := hi.1
    simp only [Fld.addr] at hlow
    omega

theorem scrubPass_memDev (s : State) : s.scrubPass.memDev = [] := by
  unfold State.scrubPass
  extract_lets u
  clear_value u
  refine State.each_inv (fun v => v.memDev = []) (List.range 24) (fun n s => s.wr (MEM_SC_WORST.addr n) 0) ?_ { u with memDev := [] } rfl
  exact fun _ _ _ hv => hv

/-- The end of a pass: position 0, one more pass, the device counts start again (R156, R157). -/
theorem scrubPass_shows (s : State) :
    s.scrubPass.get64 MEM_SCRUB_POS_LO = 0 ∧ s.scrubPass.get MEM_SCRUB_PASSES = (s.get MEM_SCRUB_PASSES + 1) % 2 ^ 32 ∧ s.scrubPass.memDev = [] ∧
      s.scrubPass.store = s.store ∧ s.scrubPass.mode = s.mode := by
  have hrest := scrubPass_spares s
  have hdev := scrubPass_memDev s
  generalize s.scrubPass = t at hrest hdev ⊢
  have hrd : ∀ a, a < 0xB01000 → evReg a = false → t.rd a = ((s.set64 MEM_SCRUB_POS_LO 0).addWrap MEM_SCRUB_PASSES 1).rd a := fun a ha he =>
    hrest.rd fun _ _ => ⟨ha, he⟩
  have hpos : ∀ a, a ≠ MEM_SCRUB_PASSES.addr → 0x29005 ≤ a → a < 0xB01000 → t.rd a = (s.set64 MEM_SCRUB_POS_LO 0).rd a := fun a hne hge hlt =>
    (hrd a hlt (evReg_above hge)).trans (State.rd_set_other _ MEM_SCRUB_PASSES _ _ _ _ _ hne)
  refine ⟨?_, ?_, hdev, hrest.store, ?_⟩
  · rw [State.get64_congr MEM_SCRUB_POS_LO 0 0 0 (hpos _ (by decide) (by decide) (by decide)) (hpos _ (by decide) (by decide) (by decide)),
      State.get64_set64]
    rfl
  · rw [State.get_congr MEM_SCRUB_PASSES 0 0 0 (hrd _ (by decide) (by decide)), State.get_addWrap _ _ _ _ _ _ (by decide),
      State.get_congr MEM_SCRUB_PASSES 0 0 0 (State.rd_set64_other s _ _ _ _ _ (by decide) (by decide))]
  · exact State.get_congr GLB_MODE_STAT_MODE 0 0 0 (((hrd _ (by decide) (by decide)).trans
      (State.rd_set_other _ MEM_SCRUB_PASSES _ _ _ _ _ (by decide))).trans (State.rd_set64_other s _ _ _ _ _ (by decide) (by decide)))

/-! ### Replays (R158 to R160) -/

theorem smLook_absent {β : Type} (m : SMap β) (k : Nat) (h : ∀ e ∈ m, e.1 ≠ k) : smLook m k = none := by
  induction m with
  | nil => rfl
  | cons e m ih => rw [smLook, if_neg (h e List.mem_cons_self), ih fun x hx => h x (List.mem_cons_of_mem _ hx)]

/-- The failures of one sub-channel are forgotten with its filter. -/
theorem smGet_otherSubs (m : SMap Nat) {n y : Nat} (hy : y < 65536) : smGet (fun _ => 0) (m.filter fun e => e.1 / 65536 != n) (65536 * n + y) = 0 := by
  have hnone : smLook (m.filter fun e => e.1 / 65536 != n) (65536 * n + y) = none := smLook_absent _ _ fun e he hk => by
    obtain ⟨-, hne⟩ := List.mem_filter.1 he
    rw [hk, bne_iff_ne] at hne
    omega
  rw [smGet, hnone, Option.getD_none]

theorem OnlyEv_memFails {A : List Nat} {s t : State} {m : SMap Nat} (h : OnlyEv A s t) :
    OnlyEv A s { { t with memFails := m } with memFails := s.memFails } :=
  ⟨h.1, by rw [h.2]⟩

theorem dramAlert_asleep {s : State} {n : Fin 24} (c w : Bool) (x : Option (Fin 64)) (h : s.scAwake n = false) :
    exec (.dramAlert n c w x) s = .next s := by
  change execDramAlert n c w x s = _
  rw [execDramAlert, if_pos (by simp [h])]

/-- A parity replay that succeeds: it is reported and counted, the failures of the sub-channel are forgotten (R158, R160). -/
theorem dramAlert_parity {s : State} {n : Fin 24} (h : s.scAwake n = true) :
    exec (.dramAlert n true false none) s = .next
      { (s.raiseLim EV_MEM_CA_REPLAY (scUnit n) n sec1).addSat MEM_SC_REPLAY_CAPAR 1 n with
        memFails := ((s.raiseLim EV_MEM_CA_REPLAY (scUnit n) n sec1).addSat MEM_SC_REPLAY_CAPAR 1 n).memFails.filter fun x => x.1 / 65536 != n.val } := by
  change execDramAlert n true false none s = _
  rw [execDramAlert, if_neg (by simp [h])]
  rfl

/-- A command's third failed replay (R160). -/
theorem dramAlert_third {s : State} {n : Fin 24} {x : Fin 64} (h : s.scAwake n = true) (hf : 2 ≤ smGet (fun _ => 0) s.memFails (65536 * n + x)) :
    ∃ m, exec (.dramAlert n false false (some x)) s = .next (({ s with memFails := m } : State).scFail n) := by
  refine ⟨smPut (fun _ => 0) s.memFails (65536 * n.val + x.val) (smGet (fun _ => 0) s.memFails (65536 * n.val + x.val) + 1), ?_⟩
  change execDramAlert n false false (some x) s = _
  rw [execDramAlert, if_neg (by simp [h])]
  simp only [State.cond, Bool.false_eq_true, if_false]
  rw [if_pos (by omega)]

theorem scUnit_lt {n : Nat} (hn : n < 24) : scUnit n < 0x100 := by
  unfold scUnit
  omega

theorem memBit_unit {n : Nat} (hn : n < 24) (i : Nat) : memBit (GLB_UST.addr (scUnit n)) i := by
  simp only [memBit, scUnit, Fld.addr]
  omega

/-- A failed sub-channel: FAILED in both views and in the map, and SAFE (R38, R160). -/
theorem scFail_shows {s : State} {n : Nat} (hn : n < 24) (hm : s.mode ∉ [0, 7]) (hr : s.get GLB_UST_RUNSTATE (scUnit n) ≠ 5) :
    let t := s.scFail n
    t.on MEM_SC_STAT_FAILED n = true ∧ bitN (t.get MEM_FAILED_MAP) n = true ∧ t.get GLB_UST_RUNSTATE (scUnit n) = 5 ∧
      t.get GLB_UST_STATE (scUnit n) = 5 ∧ t.mode = 7 ∧ t.on GLB_FATAL_FIRST_VALID = true := by
  generalize hu : (s.put MEM_SC_STAT_FAILED true n).set MEM_FAILED_MAP (putBit (s.get MEM_FAILED_MAP) n true) = u
  have hlow : ∀ a, a < 0xB00000 → u.rd a = s.rd a := fun a ha => by
    rw [← hu, State.rd_set_other _ MEM_FAILED_MAP _ _ _ _ _ (by simp only [Fld.addr]; omega), State.put,
      State.rd_set_other _ MEM_SC_STAT_FAILED _ _ _ _ _ (by simp only [Fld.addr]; omega)]
  have hsleep : ∀ a, ({ u with memSleep := smPut (fun _ => false) u.memSleep n true } : State).rd a = u.rd a := fun _ => rfl
  generalize hv : ({ u with memSleep := smPut (fun _ => false) u.memSleep n true } : State) = v at hsleep
  have hvrun : v.get GLB_UST_RUNSTATE (scUnit n) ≠ 5 := by
    rw [State.get_congr _ _ _ _ ((hsleep _).trans (hlow _ (by simp only [scUnit, Fld.addr]; omega)))]
    exact hr
  have hview : v.setRun (scUnit n) 5 = v.setViews (scUnit n) 5 5 0xFF := by
    rw [State.setRun, if_neg hvrun, if_neg (by simp), if_pos rfl]
  have honly := setViews_only v (scUnit n) 5 5 0xFF
  obtain ⟨⟨hrun, -, hstate⟩, -⟩ := setViews_shows v 0xFF (scUnit_lt hn) (by decide : 5 < 8) (by decide : 5 < 8)
  have hwmode : (v.setViews (scUnit n) 5 5 0xFF).mode = s.mode := by
    refine (OnlyEv_get honly GLB_MODE_STAT_MODE 0 0 0 ?_ (by decide)).trans (State.get_congr _ _ _ _ ((hsleep _).trans (hlow _ (by decide))))
    simp only [List.mem_cons, List.not_mem_nil, or_false, scUnit, Fld.addr]
    omega
  have hmem : ∀ (f : Fld) (i : Nat), 0xB00000 ≤ f.addr i → (v.setViews (scUnit n) 5 5 0xFF).get f i = u.get f i := fun f i hf =>
    (OnlyEv_get honly f i 0 0 (by simp only [List.mem_cons, List.not_mem_nil, or_false, scUnit]; simp only [Fld.addr] at hf ⊢; omega)
      (evReg_above (by omega))).trans (State.get_congr _ _ _ _ (hsleep _))
  intro t
  have ht : t = (v.setViews (scUnit n) 5 5 0xFF).fatal EV_MEM_SC_FAILED (scUnit n) := by
    rw [← hview, ← hv, ← hu]
    rfl
  have hspare := fatal_spares (v.setViews (scUnit n) 5 5 0xFF) EV_MEM_SC_FAILED (scUnit n)
  obtain ⟨hmode, -, -, hvalid, -⟩ := fatal_shows (s := v.setViews (scUnit n) 5 5 0xFF) EV_MEM_SC_FAILED (unit := scUnit n) (hwmode ▸ hm) (by decide)
    (scUnit_lt hn)
  rw [ht]
  refine ⟨?_, ?_, ?_, ?_, hmode, hvalid⟩
  · rw [hspare.on MEM_SC_STAT_FAILED n 0 0 fun i _ _ => Or.inl (by simp only [Fld.addr]; omega), State.on,
      hmem MEM_SC_STAT_FAILED n (by simp only [Fld.addr]; omega), ← hu,
      State.get_set_addr _ MEM_FAILED_MAP MEM_SC_STAT_FAILED _ _ _ _ _ _ _ (by simp only [Fld.addr]; omega)]
    exact State.on_put_same _ _ _ _ _ _ rfl (by decide)
  · rw [hspare.get MEM_FAILED_MAP 0 0 0 fun i _ _ => Or.inl (by decide), hmem MEM_FAILED_MAP 0 (by decide), ← hu,
      State.get_set_same _ _ _ _ _ _ (by decide), bitN_testBit, Nat.testBit_mod_two_pow, testBit_putBit]
    simp
    omega
  · exact (hspare.get GLB_UST_RUNSTATE (scUnit n) 0 0 fun i _ _ => memBit_unit hn i).trans hrun
  · exact (hspare.get GLB_UST_STATE (scUnit n) 0 0 fun i _ _ => memBit_unit hn i).trans hstate

/-! ### Refresh and calibration (R166, R167, R171) -/

/-- A rank read hot: its sub-channel's refresh is doubled, and reported when the rank was not hot before (R167). -/
theorem mr4Read_hot {s : State} {n : Fin 24} (r : Fin 2) (h : s.scAwake n = true) :
    Gives (exec (.mr4Read n r true) s) fun t => t.on MEM_SC_STAT_REFRESH_2X n = true ∧ smGet (fun _ => false) t.memHot (2 * n + r) = true ∧
      OnlyEv [MEM_SC_STAT.addr n] s { t with memHot := s.memHot, memCool := s.memCool } := by
  generalize hm : smPut (fun _ => false) s.memHot (2 * n.val + r.val) true = m
  generalize hc : smPut (fun _ => 0) s.memCool (2 * n.val + r.val) (min 0 2) = c
  have hk : smGet (fun _ => false) m (2 * n.val + r.val) = true := by
    rw [← hm]
    exact smGet_put_same ..
  have hor : (smGet (fun _ => false) m (2 * n.val) || smGet (fun _ => false) m (2 * n.val + 1)) = true := by
    rcases (show r.val = 0 ∨ r.val = 1 by omega) with h0 | h0
    · rw [h0, Nat.add_zero] at hk
      rw [hk, Bool.true_or]
    · rw [h0] at hk
      rw [hk, Bool.or_true]
  have hexec : exec (.mr4Read n r true) s = .next
      ((({ s with memCool := c, memHot := m } : State).put MEM_SC_STAT_REFRESH_2X true n).cond (!(smGet (fun _ => false) s.memHot (2 * n.val + r.val)))
        fun s => s.raise EV_MEM_REFRESH_2X (scUnit n)) := by
    change execMr4Read n r true s = _
    rw [execMr4Read, if_neg (by simp [h])]
    simp only [if_true, Bool.true_or, Bool.true_and, hm, hc, hor]
  have honly : OnlyEv [] (({ s with memCool := c, memHot := m } : State).put MEM_SC_STAT_REFRESH_2X true n)
      ((({ s with memCool := c, memHot := m } : State).put MEM_SC_STAT_REFRESH_2X true n).cond (!(smGet (fun _ => false) s.memHot (2 * n.val + r.val)))
        fun s => s.raise EV_MEM_REFRESH_2X (scUnit n)) := OnlyEv_cond (OnlyEv_refl _ _) fun _ => raise_only ..
  have hall := OnlyEv_trans (OnlyEv_set ({ s with memCool := c, memHot := m } : State) MEM_SC_STAT_REFRESH_2X 1 n 0 0) honly
  refine ⟨_, hexec, ?_, ?_, ?_⟩
  · rw [State.on, OnlyEv_get honly MEM_SC_STAT_REFRESH_2X n 0 0 (by simp) (evReg_above (by simp only [Fld.addr]; omega))]
    exact State.on_put_same _ _ _ _ _ _ rfl (by decide)
  · exact (OnlyEv_proj honly (fun t => smGet (fun _ => false) t.memHot (2 * n.val + r.val)) fun _ _ _ _ _ => rfl).trans hk
  · obtain ⟨hregs, heq⟩ := OnlyEv_mono hall (B := [MEM_SC_STAT.addr n]) (by simp [Fld.addr])
    refine ⟨hregs, ?_⟩
    conv_lhs => rw [heq]

/-- A rank that was hot stays so until its second read that is not (R167). -/
theorem mr4Read_cooler {s : State} {n : Fin 24} (r : Fin 2) (h : s.scAwake n = true) (hw : smGet (fun _ => false) s.memHot (2 * n + r) = true) :
    Gives (exec (.mr4Read n r false) s) fun t =>
      smGet (fun _ => false) t.memHot (2 * n + r) = decide (smGet (fun _ => 0) s.memCool (2 * n + r) = 0) := by
  generalize hcool : smGet (fun _ => 0) s.memCool (2 * n.val + r.val) = c
  generalize hm : smPut (fun _ => false) s.memHot (2 * n.val + r.val) (decide (c + 1 < 2)) = m
  generalize hc : smPut (fun _ => 0) s.memCool (2 * n.val + r.val) (min (c + 1) 2) = l
  have hexec : exec (.mr4Read n r false) s = .next (({ s with memCool := l, memHot := m } : State).put MEM_SC_STAT_REFRESH_2X
      (smGet (fun _ => false) m (2 * n.val) || smGet (fun _ => false) m (2 * n.val + 1)) n) := by
    change execMr4Read n r false s = _
    rw [execMr4Read, if_neg (by simp [h])]
    simp only [Bool.false_eq_true, if_false, Bool.false_or, hw, Bool.true_and, Bool.not_true, Bool.and_false, State.cond, hcool, hm, hc]
  refine ⟨_, hexec, ?_⟩
  change smGet (fun _ => false) m (2 * n.val + r.val) = _
  rw [← hm, smGet_put_same]
  exact decide_eq_decide.2 (by omega)

theorem OnlyEv_memDrift {A : List Nat} {s t : State} {b : Bool} (h : OnlyEv A { s with memDrift := b } t) :
    OnlyEv A s { t with memDrift := s.memDrift } :=
  ⟨h.1, by rw [h.2]⟩

/-- Drift of the die changes nothing but the note of it (R166). -/
theorem checkDrift_only (s : State) :
    s.checkDrift.memDrift = decide (200 < (s.geti MGT_TDIE_TDIE - s.geti MEM_TRAIN_TEMP_TEMP).natAbs) ∧ OnlyEv [] s { s.checkDrift with memDrift := s.memDrift } := by
  unfold State.checkDrift
  extract_lets far new u
  have h : OnlyEv [] u (u.cond new fun s => s.raise EV_MEM_TEMP_DRIFT) := OnlyEv_cond (OnlyEv_refl _ _) fun _ => raise_only ..
  exact ⟨OnlyEv_proj h (fun t => t.memDrift) fun _ _ _ _ _ => rfl, OnlyEv_memDrift h⟩

theorem exec_zqCalibration {s : State} {n : Fin 24} (h : s.scAwake n = true) : exec (.zqCalibration n) s = .next s.checkDrift := by
  change execZqCalibration n s = _
  rw [execZqCalibration, if_pos h]

theorem exec_dqsTrack {s : State} {n : Fin 24} (r : Fin 2) (h : s.scAwake n = true) : exec (.dqsTrack n r) s = .next s.checkDrift := by
  change execDqsTrack n r s = _
  rw [execDqsTrack, if_pos h]

/-- Out of panic a refresh that is due is done (R171). -/
theorem exec_refreshDue {s : State} {n : Fin 24} (h : s.scAwake n = true) (hp : s.on MEM_PANIC_STAT_ANY = false) :
    exec (.refreshDue n) s = .next { s with memRefPost := smPut (fun _ => 0) s.memRefPost n 0 } := by
  change execRefreshDue n s = _
  rw [execRefreshDue, if_neg (by simp [h])]
  simp only [hp, Bool.false_and, Bool.false_eq_true, if_false]

/-- A sub-channel in self-refresh is not calibrated, refreshed or read, and raises no alert. -/
theorem exec_asleep {s : State} {n : Fin 24} (r : Fin 2) (h : s.scAwake n = false) :
    ∀ i ∈ [Instr.zqCalibration n, .dqsTrack n r, .refreshDue n, .mr4Read n r true, .dramAlert n true true none], exec i s = .next s := by
  simp only [List.forall_mem_cons]
  refine ⟨?_, ?_, ?_, ?_, dramAlert_asleep _ _ _ h, List.forall_mem_nil _⟩
  · change execZqCalibration n s = _
    rw [execZqCalibration, if_neg (by simp [h])]
  · change execDqsTrack n r s = _
    rw [execDqsTrack, if_neg (by simp [h])]
  · change execRefreshDue n s = _
    rw [execRefreshDue, if_pos (by simp [h])]
  · change execMr4Read n r true s = _
    rw [execMr4Read, if_pos (by simp [h])]

/-! ### Panic, promotion and self-refresh (R170 to R172, R176) -/

theorem OnlyEv_memPanicLong {A : List Nat} {s t : State} {m : SMap Bool} (h : OnlyEv A { s with memPanicLong := m } t) :
    OnlyEv A s { t with memPanicLong := s.memPanicLong } :=
  ⟨h.1, by rw [h.2]⟩

theorem OnlyEv_memSleep {A : List Nat} {s t : State} {m : SMap Bool} (h : OnlyEv A { s with memSleep := m } t) :
    OnlyEv A s { t with memSleep := s.memSleep } :=
  ⟨h.1, by rw [h.2]⟩

theorem exec_memPanicLong_first {s : State} {p : Fin 195} (h : s.on MEM_PORT_STAT_PANIC p = true) (hl : s.get MEM_PANIC_LIMIT ≠ 0)
    (hm : smGet (fun _ => false) s.memPanicLong p = false) :
    exec (.memPanicLong p) s =
      .next (({ s with memPanicLong := smPut (fun _ => false) s.memPanicLong p true } : State).raise EV_MEM_PANIC_LONG (portReq p)) := by
  change execMemPanicLong p s = _
  rw [execMemPanicLong, if_pos (by simp [h, hl, hm])]

theorem exec_memPanicLong_again {s : State} {p : Fin 195} (hm : smGet (fun _ => false) s.memPanicLong p = true) :
    exec (.memPanicLong p) s = .next s := by
  change execMemPanicLong p s = _
  rw [execMemPanicLong, if_neg (by simp [hm])]

/-- A promotion counts where every class has an age limit (R170). -/
theorem exec_requestPromotion {s : State} (c : Tn) (h0 : s.get MEM_AGE_CRIT ≠ 0) (h1 : s.get MEM_AGE_RT ≠ 0) (h2 : s.get MEM_AGE_BULK ≠ 0)
    (h3 : s.get MEM_AGE_BACK ≠ 0) :
    exec (.requestPromotion c) s =
      .next { s with memPromoted := smPut (fun _ => 0) s.memPromoted c (smGet (fun _ => 0) s.memPromoted c + 1) } := by
  change execRequestPromotion c s = _
  rw [execRequestPromotion, if_neg]
  split <;> assumption

/-- A drained fenced sub-channel sleeps, its running view OFF (R176). -/
theorem exec_subchannelDrained {s : State} {n : Fin 24} (h : s.on MEM_SC_STAT_FENCED n = true) :
    exec (.subchannelDrained n) s = .next (({ s with memSleep := smPut (fun _ => false) s.memSleep n true } : State).setRun (scUnit n) 0) := by
  change execSubchannelDrained n s = _
  rw [execSubchannelDrained, if_pos h]

theorem exec_subchannelDrained_open {s : State} {n : Fin 24} (h : s.on MEM_SC_STAT_FENCED n = false) :
    exec (.subchannelDrained n) s = .next s := by
  change execSubchannelDrained n s = _
  rw [execSubchannelDrained, if_neg (by simp [h])]

/-- The running view OFF is taken by every unit that has not FAILED (R38, R40). -/
theorem setRun_off {s : State} {u : Nat} (hu : u < 0x100) (h : s.get GLB_UST_RUNSTATE u ≠ 5) : (s.setRun u 0).get GLB_UST_RUNSTATE u = 0 := by
  unfold State.setRun
  rw [if_neg h]
  split_ifs with hs h5
  · simp only [State.stopped, Bool.and_eq_true, beq_iff_eq] at hs
    exact hs.1.2
  · exact absurd h5 (by decide)
  · obtain ⟨⟨hrun, -, -⟩, -⟩ := setViews_shows s 0xFF hu (by decide : 0 < 8)
      (State.get_lt s GLB_UST_PERMIT u 0 0)
    exact hrun

/-! ### The controller as a whole -/

/-- Settles O35: each event of the controller is one branch of its function; a third failed replay rests on the entry to SAFE keeping the sub-channel's
state (`fatal_spares`). -/
theorem storeControllerKeepsItself : Obligations.StoreControllerKeepsItself := by
  intro s n r c x p a
  refine ⟨fun hen hper hready hsound => ?_, exec_scrubStep_off r [], fun hawake => ⟨?_, ?_, mr4Read_hot r hawake, mr4Read_cooler r hawake, ?_, ?_, ?_⟩,
    exec_asleep r, fun hpanic hlimit => ⟨fun hm => ?_, exec_memPanicLong_again⟩, fun h0 h1 h2 h3 => ?_, fun hf hrun => ?_, exec_subchannelDrained_open⟩
  · have hstep := exec_scrubStep_sound r (show s.scrubs = true by simp [State.scrubs, hen, hper, hready]) hsound
    refine ⟨fun hlt => ?_, fun hle => ?_⟩
    · refine ⟨_, by rw [hstep, if_neg (by omega)], ?_, OnlyRegs_set64 ..⟩
      rw [State.get64_set64]
      rfl
    · exact ⟨_, by rw [hstep, if_pos hle], scrubPass_shows s⟩
  · have honly := raiseLim_only s EV_MEM_CA_REPLAY (scUnit n) n sec1 []
    refine ⟨_, dramAlert_parity hawake, ?_, fun y hy => smGet_otherSubs _ hy, ?_⟩
    · change ((s.raiseLim EV_MEM_CA_REPLAY (scUnit n) n sec1).addSat MEM_SC_REPLAY_CAPAR 1 n).get MEM_SC_REPLAY_CAPAR n = _
      rw [State.get_addSat _ _ _ _ _ _ (by decide), OnlyEv_get honly _ _ _ _ (by simp) (evReg_above (by simp only [Fld.addr]; omega))]
      norm_num
    · exact OnlyEv_memFails (OnlyEv_mono (OnlyEv_trans honly (OnlyEv_set _ MEM_SC_REPLAY_CAPAR _ n 0 0)) (by simp [Fld.addr]))
  · intro hf hm hr
    obtain ⟨m, hexec⟩ := dramAlert_third hawake hf
    exact ⟨_, hexec, scFail_shows n.isLt hm hr⟩
  · intro hany
    refine ⟨_, exec_refreshDue hawake hany, ?_, rfl⟩
    exact smGet_put_same (fun _ => 0) s.memRefPost n.val 0
  · exact ⟨_, exec_zqCalibration hawake, checkDrift_only s⟩
  · exact ⟨_, exec_dqsTrack r hawake, checkDrift_only s⟩
  · have honly := raise_only ({ s with memPanicLong := smPut (fun _ => false) s.memPanicLong p true } : State) EV_MEM_PANIC_LONG (portReq p) []
    refine ⟨_, exec_memPanicLong_first hpanic hlimit hm, ?_, OnlyEv_memPanicLong honly⟩
    rw [OnlyEv_proj honly (fun t => t.memPanicLong) fun _ _ _ _ _ => rfl]
    exact smGet_put_same (fun _ => false) s.memPanicLong p.val true
  · refine ⟨_, exec_requestPromotion c h0 h1 h2 h3, ?_, rfl⟩
    exact smGet_put_same (fun _ => 0) s.memPromoted c.val (smGet (fun _ => 0) s.memPromoted c.val + 1)
  · have honly := setRun_only ({ s with memSleep := smPut (fun _ => false) s.memSleep n true } : State) (scUnit n) 0 0xFF
    refine ⟨_, exec_subchannelDrained hf, ?_, setRun_off (scUnit_lt n.isLt) hrun, OnlyEv_memSleep honly⟩
    rw [OnlyEv_proj honly (fun t => t.memSleep) fun _ _ _ _ _ => rfl]
    exact smGet_put_same (fun _ => false) s.memSleep n.val true

end Sys2Proof.Machine

/-! SUPPORT for the proofs. An entry sent to any queue, a submission taken from one, and requests to the store beside the queues (R154, R418, R420, R428,
R433). -/

namespace Sys2Proof.Machine

open Sys2Proof.Safety

/-! ### An entry sent (R418, R428, R433) -/

/-- The registers that an entry for queue `q` may write: its PI and STAT, and the pending bits of masked vectors. -/
def sendRegs (q : Nat) : List Nat := [HIF_Q_PI.addr q, HIF_Q_STAT.addr q, 0x29000, 0x29004]

/-- `t` differs from `s` at most in queue `q`, in `sendRegs q` and in the messages sent. -/
structure Sends (q : Nat) (s t : State) : Prop where
  regs : ∀ a, a ∉ sendRegs q → t.rd a = s.rd a
  others : ∀ p, p ≠ q → t.qu p = s.qu p
  rest : t = { s with regs := t.regs, queues := t.queues, irqSent := t.irqSent }

namespace Sends

variable {q : Nat} {s t u : State}

theorem refl (q : Nat) (s : State) : Sends q s s := ⟨fun _ _ => rfl, fun _ _ => rfl, rfl⟩

theorem trans (h : Sends q s t) (h' : Sends q t u) : Sends q s u :=
  ⟨fun a ha => (h'.regs a ha).trans (h.regs a ha), fun p hp => (h'.others p hp).trans (h.others p hp), by rw [h'.rest, h.rest]⟩

theorem set (s : State) (f : Fld) (v i j k : Nat) (hf : f.addr i j k ∈ sendRegs q) : Sends q s (s.set f v i j k) :=
  ⟨fun _ ha => s.rd_set_other _ _ _ _ _ _ fun heq => ha (heq ▸ hf), fun _ _ => rfl, rfl⟩

theorem setQu (s : State) (x : Queue) : Sends q s (s.setQu q x) := ⟨fun _ _ => rfl, fun _ hp => qu_setQu_other s x hp, rfl⟩

/-- Whatever is read from neither the registers nor the queues stays. -/
theorem proj (h : Sends q s t) {α : Type} (p : State → α) (hp : ∀ (u : State) r x i, p { u with regs := r, queues := x, irqSent := i } = p u) : p t = p s := by
  rw [h.rest, hp]

theorem get (h : Sends q s t) (f : Fld) (i j k : Nat) (hf : f.addr i j k ∉ sendRegs q) : t.get f i j k = s.get f i j k :=
  State.get_congr _ _ _ _ (h.regs _ hf)

theorem on (h : Sends q s t) (f : Fld) (i j k : Nat) (hf : f.addr i j k ∉ sendRegs q) : t.on f i j k = s.on f i j k := by
  rw [State.on, State.on, h.get f i j k hf]

theorem store (h : Sends q s t) : t.store = s.store := h.proj State.store fun _ _ _ _ => rfl

theorem mode (h : Sends q s t) : t.mode = s.mode := h.get GLB_MODE_STAT_MODE 0 0 0 (by simp [sendRegs, Fld.addr]; omega)

end Sends

theorem signal_sends (q : Nat) (s : State) {v : Nat} (hv : v < 64) : Sends q s (s.signal v) := by
  unfold State.signal
  split
  · refine Sends.set _ _ _ _ _ _ ?_
    simp only [sendRegs, Fld.addr, Fld.sh, List.mem_cons]
    omega
  · exact ⟨fun _ _ => rfl, fun _ _ => rfl, rfl⟩

theorem qWrite_sends (s : State) (q : Nat) (e : Entry) (now : Bool) : Sends q s (s.qWrite q e now) := by
  unfold State.qWrite
  extract_lets pi qu e' n u cnt tm
  have hu : Sends q s u := (Sends.setQu s _).trans (Sends.set _ HIF_Q_PI _ q 0 0 (by simp [sendRegs]))
  unfold State.cond
  split
  · exact hu.trans ((Sends.setQu u _).trans (signal_sends q _ (State.get_lt ..)))
  · exact hu

theorem qSend_sends (s : State) (q : Nat) (e : Entry) : Sends q s (s.qSend q e) := by
  unfold State.qSend
  split
  · exact qWrite_sends s q e false
  · exact (Sends.setQu s _).trans (Sends.set _ HIF_Q_STAT_STALL _ q 0 0 (by simp [sendRegs, Fld.addr]))

/-- An entry for a queue with room, where none waits, is the last of its ring (R418). -/
theorem qSend_shows (s : State) {q : Nat} (e : Entry) (hq : q < 64) (hroom : s.qRoom q = true) (hw : (s.qu q).waiting = []) :
    (∃ p, ((s.qSend q e).qu q).ring = (s.qu q).ring ++ [{ e with phase := p }]) ∧ (s.qSend q e).get HIF_Q_PI q = (s.get HIF_Q_PI q + 1) % 2 ^ 32 := by
  rw [State.qSend, if_pos (by simp [hroom, hw])]
  exact (qWrite_shows s e false hq).2

/-! ### A submission taken (R420) -/

theorem takeSub_some {s t : State} {q : Nat} {x : Sub} (h : s.takeSub q = some (x, t)) :
    ∃ r, (s.qu q).fetched = x :: r ∧ t = s.setQu q { s.qu q with fetched := r } := by
  unfold State.takeSub at h
  split at h
  · cases h
  · next y r hf =>
    obtain ⟨rfl, rfl⟩ : y = x ∧ s.setQu q { s.qu q with fetched := r } = t := by simpa using h
    exact ⟨r, hf, rfl⟩

/-! ### Requests to the store beside the queues (R154, R176) -/

theorem setQu_ite (q : Nat) (x : Queue) (c : Prop) [Decidable c] (t u : State) :
    (if c then t else u).setQu q x = if c then t.setQu q x else u.setQu q x := by
  split <;> rfl

theorem sawBurst_setQu (s : State) (q : Nat) (x : Queue) (b : Nat) : (s.setQu q x).sawBurst b = (s.sawBurst b).setQu q x := by
  unfold State.sawBurst
  simp only [setQu_ite]
  rfl

theorem each_setQu {α : Type} {l : List α} {f : α → State → State} {q : Nat} {x : Queue} (hf : ∀ y (s : State), f y (s.setQu q x) = (f y s).setQu q x) :
    ∀ s : State, (s.setQu q x).each l f = (s.each l f).setQu q x := by
  induction l with
  | nil => exact fun _ => rfl
  | cons y l ih =>
    intro s
    change ((f y (s.setQu q x)).each l f) = _
    rw [hf]
    exact ih _

theorem stByte_setQu (s : State) (q : Nat) (x : Queue) (a v : Nat) : (s.setQu q x).stByte a v = (s.stByte a v).setQu q x := by
  unfold State.stByte
  rw [setQu_ite]
  rfl

theorem stRun_setQu (q : Nat) (x : Queue) (l : List Nat) : ∀ (s : State) (a : Nat), (s.setQu q x).stRun a l = (s.stRun a l).setQu q x := by
  induction l with
  | nil => exact fun _ _ => rfl
  | cons v l ih =>
    intro s a
    rw [State.stRun, stByte_setQu, ih, State.stRun]

theorem unpoison_setQu (s : State) (q : Nat) (x : Queue) (b : Nat) : (s.setQu q x).unpoison b = (s.unpoison b).setQu q x := by
  unfold State.unpoison
  rw [setQu_ite]
  rfl

/-- A write of the store does not read the queues. -/
theorem st_setQu (s : State) (q : Nat) (x : Queue) (a : Nat) (l : List Nat) : (s.setQu q x).st a l = (s.st a l).setQu q x := by
  unfold State.st
  dsimp only
  rw [← each_setQu fun b t => unpoison_setQu t q x b, ← stRun_setQu, ← each_setQu fun b t => sawBurst_setQu t q x b]
  rfl

end Sys2Proof.Machine

/-! PROOFS. Descriptors of Q00 to Q15: starts, transfers and jobs (R174, R421 to R424, R431, R432). -/

namespace Sys2Proof.Machine

open Sys2Proof.Safety

/-! ### A descriptor starts (R423, R428) -/

/-- Queue `q` has the descriptor `r` in progress. -/
def State.starts (s : State) (q : Nat) (r : Running) : State := s.setQu q { s.qu q with run := some r }

theorem starts_run (s : State) (q : Nat) (r : Running) : ((s.starts q r).qu q).run = some r := by rw [State.starts, State.qu_setQu]

theorem starts_fetched (s : State) (q : Nat) (r : Running) : ((s.starts q r).qu q).fetched = (s.qu q).fetched := by rw [State.starts, State.qu_setQu]

theorem startDesc_idle {s : State} {q : Nat} (ops : Nat → Bool) (flags : Nat) (f : Sub → State → Running × State)
    (h : (s.qu q).run ≠ none ∨ s.takeSub q = none ∨ (s.qu (16 + q)).waiting ≠ []) : s.startDesc q ops flags f = s := by
  unfold State.startDesc
  split
  · next x t hrun htake =>
    obtain h | h | h := h
    · exact absurd hrun h
    · rw [h] at htake
      cases htake
    · exact if_pos (by simp [h])
  · rfl

section

variable {s t : State} {q : Nat} {x : Sub} {ops : Nat → Bool} {flags : Nat} {f : Sub → State → Running × State}

/-- The oldest descriptor, with zeros and flags as its operation wants them. -/
theorem startDesc_good (hrun : (s.qu q).run = none) (htake : s.takeSub q = some (x, t)) (hwait : (s.qu (16 + q)).waiting = []) (hop : ops x.op = true)
    (hz : x.zeros = true) (hf : x.flags ≤ flags) : s.startDesc q ops flags f = (f x t).2.starts q (f x t).1 := by
  unfold State.startDesc
  simp only [hrun, htake, hwait, hop, hz, decide_eq_true hf, List.isEmpty_nil, Bool.not_true, Bool.or_self, Bool.false_eq_true, if_false, Bool.and_self,
    if_true]
  rfl

/-- Fields that are not zero, or unknown flags, are BAD_OP (R424). -/
theorem startDesc_bad (hrun : (s.qu q).run = none) (htake : s.takeSub q = some (x, t)) (hwait : (s.qu (16 + q)).waiting = []) (hop : ops x.op = true)
    (hb : x.zeros = false ∨ flags < x.flags) : s.startDesc q ops flags f = t.starts q (Running.ends x 4) := by
  have hbad : ¬ (x.zeros && decide (x.flags ≤ flags)) = true := by
    rcases hb with hb | hb
    · simp [hb]
    · simp
      omega
  unfold State.startDesc
  simp only [hrun, htake, hwait, hop, List.isEmpty_nil, Bool.not_true, Bool.or_self, Bool.false_eq_true, if_false, if_neg hbad]
  rfl

end

/-! ### Transfers (R422, R424, R425) -/

theorem startCopy_empty (s : State) {x : Sub} (d : List Byte) (lim n : Nat) (h : subF32 x 0x20 = 0) : s.startCopy x d lim n = (Running.ends x 0, s) := if_pos h

theorem startCopy_range {s : State} {x : Sub} (d : List Byte) (lim n : Nat) (h0 : subF32 x 0x20 ≠ 0) (h : s.memCap < subF64 x 0x18 + subF32 x 0x20) :
    s.startCopy x d lim n = (Running.ends x 3, s) := by
  rw [State.startCopy, if_neg h0, if_pos h]

theorem startCopy_moves {s : State} {x : Sub} (d : List Byte) {n : Nat} (h0 : subF32 x 0x20 ≠ 0) (h : subF64 x 0x18 + subF32 x 0x20 ≤ s.memCap) :
    s.startCopy x d (subF32 x 0x20) n = s.moveOn ⟨x, 0, 0, d, subF32 x 0x20⟩ n := by
  rw [State.startCopy, if_neg h0, if_neg (by omega), Nat.min_self]

/-- A write of the store moves to its end (R422). -/
theorem moveOn_writes (s : State) {r : Running} {n : Nat} (hop : r.sub.op = 1 ∨ r.sub.op = 3) (hn : r.lim ≤ n) :
    s.moveOn r n = ({ r with result := r.lim },
      s.st (subF64 r.sub 0x18 + r.result) (((r.data.drop r.result).take (r.lim - r.result)).map (·.toNat))) := by
  unfold State.moveOn
  simp only [if_pos hn, if_pos hop]
  rw [if_neg (by omega)]

/-- A read of the store moves to its end, and the host memory takes what it returns (R422). -/
theorem moveOn_reads (s : State) {r : Running} {n : Nat} (hop : r.sub.op = 2) (hn : r.lim ≤ n) :
    let a := subF64 r.sub 0x18 + r.result
    let d := r.data ++ (s.ld a (r.lim - r.result)).map (BitVec.ofNat 8)
    s.moveOn r n = ({ r with result := r.lim, status := if s.bad a (r.lim - r.result) then 1 else r.status, data := d },
      { s.saw a (r.lim - r.result) with hst.hostWr := some (subF64 r.sub 0x10, d) }) := by
  unfold State.moveOn
  simp only [if_pos hn, if_pos hop]

theorem moveOn_other (s : State) {r : Running} (n : Nat) (hop : r.sub.op ∉ [1, 2, 3]) : s.moveOn r n = (r, s) := by
  simp only [List.mem_cons, List.not_mem_nil, or_false, not_or] at hop
  unfold State.moveOn
  dsimp only
  rw [if_neg hop.2.1, if_neg (by omega)]

end Sys2Proof.Machine

/-! PROOFS. Jobs of the queues: JOB_LOAD and JOB_UNLOAD (R249, R254, R424, R430 to R432). -/

namespace Sys2Proof.Machine

open Sys2Proof.Safety

/-! ### What entering a job leaves alone -/

/-- The registers HIF_JOB of the slots. -/
def slotBit (a _i : Nat) : Prop := 0x20100 ≤ a ∧ a < 0x20180

/-- Those of the descriptors, and the VALID flags. -/
def entryBit (a i : Nat) : Prop := slotBit a i ∧ (a % 16 = 8 → i = 0)

theorem still_slotBit : Still slotBit := fun a i h => by
  simp only [slotBit] at h
  refine ⟨?_, by omega⟩
  simp [evReg]
  omega

/-- The ports mapped, and what follows from it, write no register below those of the tiler (R249, R254, R256). -/
theorem mapPorts_spares {P : Nat → Nat → Prop} {s t : State} (h : Spares P s t) (hP : Still P) (hlow : ∀ a i, P a i → a < 0x388000) :
    Spares P s t.mapPorts := by
  have haway : ∀ {a i}, 0x388000 ≤ a → ¬ P a i := fun ha hi => by
    have := hlow _ _ hi
    omega
  unfold State.mapPorts
  dsimp only
  refine Spares.refreshBars (h.each fun p u _ hu => ?_) hP
  have hport : ∀ (b : Bool) (ring depth : Nat), Spares P s (((u.put TIL_PORT_CFG_EN b p).set64 TIL_PORT_RING_LO ring p).set TIL_PORT_DEPTH depth p) := fun b ring depth =>
    ((hu.put TIL_PORT_CFG_EN b p 0 0 fun _ _ _ => haway (by simp only [Fld.addr]; omega)).set64 TIL_PORT_RING_LO ring p 0 0
      (fun _ => haway (by simp only [Fld.addr]; omega)) fun _ => haway (by simp only [Fld.addr]; omega)).set TIL_PORT_DEPTH depth p 0 0
      fun _ _ _ => haway (by simp only [Fld.addr]; omega)
  split
  · exact hport true _ _
  · exact hport false 0 0

theorem coverage_spares {s t : State} (h : Spares slotBit s t) (bars : List (Nat × Nat)) (ports : List Nat) : Spares slotBit s (t.coverage bars ports) := by
  have hgap : ∀ (g : Bool) (n : Nat), Spares slotBit s ((t.put TIL_STAT_MAP_GAP g).set TIL_MAP_GAPS n) := fun g n =>
    (h.put TIL_STAT_MAP_GAP g 0 0 0 fun _ _ _ hi => by simp [slotBit, Fld.addr] at hi).set TIL_MAP_GAPS n 0 0 0
      fun _ _ _ hi => by simp [slotBit, Fld.addr] at hi
  unfold State.coverage
  dsimp only
  exact (hgap _ _).cond fun _ => (hgap _ _).raise still_slotBit.unreported ..

/-! ### The start job's flag (R431) -/

/-- The slot made the start job's. -/
def State.flagStart (s : State) (slot : Nat) : State := s.each (List.range 8) fun i s => s.put HIF_JOB_STAT_START (i == slot) i

theorem flags_below (s : State) (slot n : Nat) :
    ∀ k < n, (s.each (List.range n) fun i s => s.put HIF_JOB_STAT_START (i == slot) i).on HIF_JOB_STAT_START k = (k == slot) := by
  induction n with
  | zero => exact fun _ hk => absurd hk (Nat.not_lt_zero _)
  | succ n ih =>
    intro k hk
    rw [State.each_range_succ]
    by_cases h : k = n
    · rw [h]
      exact State.on_put_same _ _ _ _ _ _ rfl (by decide)
    · have hne : HIF_JOB_STAT_START.addr k ≠ HIF_JOB_STAT_START.addr n := by
        simp only [Fld.addr]
        omega
      rw [State.on, State.put, State.get_set_addr _ HIF_JOB_STAT_START HIF_JOB_STAT_START _ _ _ _ _ _ _ hne]
      exact ih k (by omega)

theorem flagStart_on (s : State) (slot : Nat) {k : Nat} (hk : k < 8) : (s.flagStart slot).on HIF_JOB_STAT_START k = (k == slot) :=
  flags_below s slot 8 k hk

theorem flagStart_spares (s : State) (slot : Nat) : Spares entryBit s (s.flagStart slot) :=
  (Spares.refl s).each fun k u _ hu => hu.put HIF_JOB_STAT_START _ k 0 0 fun i hlo _ hi => by
    obtain ⟨-, hi⟩ := hi
    simp only [Fld.addr] at hi hlo
    omega

/-! ### A job entered (R175, R182, R232, R431) -/

/-- A job's descriptor and VALID in a slot. -/
def State.fillSlot (s : State) (j : JobD) (slot : Nat) : State := (s.set64 HIF_JOB_DESC_LO j.desc slot).set HIF_JOB_STAT 1 slot

/-- Bounds, warnings and coverage of a job. -/
def State.boundJob (s : State) (j : JobD) : State :=
  let fm := s.fMax j
  let fc := s.fCmp j
  let s := (s.set MEM_FMAX fm).set CMP_FMAX fc
  let s := s.cond (decide (fm < j.rate)) fun s => s.raise EV_MEM_BUDGET 255
  let s := s.cond (decide (fc < j.rate)) fun s => s.raise EV_CMP_BUDGET 255
  s.coverage j.portBars (j.ports.map (·.1))

theorem enterJob_eq (s : State) (j : JobD) (slot : Nat) (start : Bool) :
    (s.enterJob j slot start).2 = ((s.fillSlot j slot).boundJob j).cond start fun s => (s.flagStart slot).mapPorts := rfl

theorem boundJob_spares (s : State) (j : JobD) : Spares slotBit s (s.boundJob j) := by
  unfold State.boundJob
  extract_lets fm fc s1 s2 s3
  have h1 : Spares slotBit s s1 := ((Spares.refl s).set MEM_FMAX _ 0 0 0 fun _ _ _ hi => by simp [slotBit, Fld.addr] at hi).set CMP_FMAX _ 0 0 0
    fun _ _ _ hi => by simp [slotBit, Fld.addr] at hi
  have h2 : Spares slotBit s s2 := h1.cond fun _ => h1.raise still_slotBit.unreported ..
  have h3 : Spares slotBit s s3 := h2.cond fun _ => h2.raise still_slotBit.unreported ..
  exact coverage_spares h3 _ _

/-- What a slot shows of the job entered in it. -/
structure Entered (s : State) (slot desc : Nat) (start : Bool) (t : State) : Prop where
  valid : t.on HIF_JOB_STAT_VALID slot = true
  names : t.get64 HIF_JOB_DESC_LO slot = desc
  flagged : t.on HIF_JOB_STAT_START slot = start
  others : start = true → ∀ k < 8, k ≠ slot → t.on HIF_JOB_STAT_START k = false
  store : t.store = s.store
  queues : ∀ q < 32, t.qu q = s.qu q

theorem Entered.spares {s t u : State} {slot desc : Nat} {start : Bool} (h : Entered s slot desc start t) (hslot : slot < 8) (hu : Spares slotBit t u) :
    Entered s slot desc start u := by
  have hbit : ∀ {a i}, 0x20100 ≤ a → a < 0x20180 → slotBit a i := fun h0 h1 => ⟨h0, h1⟩
  have hon : ∀ k < 8, u.on HIF_JOB_STAT_START k = t.on HIF_JOB_STAT_START k := fun k hk =>
    hu.on HIF_JOB_STAT_START k 0 0 fun _ _ _ => hbit (by simp only [Fld.addr]; omega) (by simp only [Fld.addr]; omega)
  refine ⟨?_, ?_, (hon slot hslot).trans h.flagged, fun hs k hk hne => (hon k hk).trans (h.others hs k hk hne), hu.store.trans h.store,
    fun q hq => (hu.queues q hq).trans (h.queues q hq)⟩
  · exact (hu.on HIF_JOB_STAT_VALID slot 0 0 fun _ _ _ => hbit (by simp only [Fld.addr]; omega) (by simp only [Fld.addr]; omega)).trans h.valid
  · exact (State.get64_congr HIF_JOB_DESC_LO slot 0 0 (hu.rd fun _ _ => hbit (by simp only [Fld.addr]; omega) (by simp only [Fld.addr]; omega))
      (hu.rd fun _ _ => hbit (by simp only [Fld.addr]; omega) (by simp only [Fld.addr]; omega))).trans h.names

theorem fillSlot_entered (s : State) {j : JobD} (slot : Nat) (hd : j.desc < 2 ^ 64) : Entered s slot j.desc false (s.fillSlot j slot) := by
  have hstat : (s.fillSlot j slot).rd (HIF_JOB_STAT.addr slot) = 1 := by
    rw [State.fillSlot, State.set, State.rd_wr_same]
    exact putBits_word _ 1
  refine ⟨?_, ?_, ?_, fun h => absurd h (by decide), rfl, fun _ _ => rfl⟩
  · rw [State.on, State.get, show HIF_JOB_STAT_VALID.addr slot = HIF_JOB_STAT.addr slot from rfl, hstat]
    decide
  · rw [State.fillSlot, State.get64_congr (s := s.set64 HIF_JOB_DESC_LO j.desc slot) HIF_JOB_DESC_LO slot 0 0
      (State.rd_set_other _ HIF_JOB_STAT _ _ _ _ _ (by simp only [Fld.addr]; omega)) (State.rd_set_other _ HIF_JOB_STAT _ _ _ _ _ (by simp only [Fld.addr]; omega)),
      State.get64_set64]
    unfold ux
    omega
  · rw [State.on, State.get, show HIF_JOB_STAT_START.addr slot = HIF_JOB_STAT.addr slot from rfl, hstat]
    decide

/-- A job entered shows in its slot (R431). -/
theorem enterJob_entered (s : State) {j : JobD} {slot : Nat} (start : Bool) (hd : j.desc < 2 ^ 64) (hslot : slot < 8) :
    Entered s slot j.desc start (s.enterJob j slot start).2 := by
  have hbound := (fillSlot_entered s slot hd).spares hslot (boundJob_spares _ j)
  rw [enterJob_eq]
  cases start with
  | false => exact hbound
  | true =>
    generalize (s.fillSlot j slot).boundJob j = u at hbound
    have hflag := flagStart_spares u slot
    have hentry : ∀ {a i}, 0x20100 ≤ a → a < 0x20180 → (a % 16 = 8 → i = 0) → entryBit a i := fun h0 h1 h2 => ⟨⟨h0, h1⟩, h2⟩
    have hfl : Entered s slot j.desc true (u.flagStart slot) := by
      refine ⟨?_, ?_, ?_, fun _ k hk hne => ?_, hflag.store.trans hbound.store, fun q hq => (hflag.queues q hq).trans (hbound.queues q hq)⟩
      rotate_left 2
      · rw [flagStart_on u slot hslot, beq_self_eq_true]
      · rw [flagStart_on u slot hk, beq_eq_false_iff_ne]
        exact hne
      · exact (hflag.on HIF_JOB_STAT_VALID slot 0 0 fun _ h0 h1 => hentry (by simp only [Fld.addr]; omega) (by simp only [Fld.addr]; omega)
          (by simp only at h0 h1; omega)).trans hbound.valid
      · exact (State.get64_congr HIF_JOB_DESC_LO slot 0 0
          (hflag.rd fun _ _ => hentry (by simp only [Fld.addr]; omega) (by simp only [Fld.addr]; omega) (by simp only [Fld.addr]; omega))
          (hflag.rd fun _ _ => hentry (by simp only [Fld.addr]; omega) (by simp only [Fld.addr]; omega) (by simp only [Fld.addr]; omega))).trans hbound.names
    have hmap : Spares slotBit (u.flagStart slot) (u.flagStart slot).mapPorts := mapPorts_spares (Spares.refl _) still_slotBit fun a i h => by
      obtain ⟨-, h⟩ := h
      omega
    exact hfl.spares hslot hmap

/-! ### Slots (R431) -/

/-- With fewer than eight jobs loaded a slot is free. -/
theorem freeSlot_free {s : State} (h : s.jobSlots.length < 8) : s.freeSlot < 8 ∧ s.on HIF_JOB_STAT_VALID s.freeSlot = false := by
  unfold State.freeSlot
  cases hf : (List.range 8).find? fun j => !(s.on HIF_JOB_STAT_VALID j) with
  | some j =>
    have hmem := List.mem_of_find?_eq_some hf
    have hfree := List.find?_some hf
    exact ⟨List.mem_range.1 hmem, by simpa using hfree⟩
  | none =>
    have hall := List.find?_eq_none.1 hf
    have hfull : s.jobSlots = List.range 8 := List.filter_eq_self.2 fun j hj => by simpa using hall j hj
    rw [hfull] at h
    simp at h

/-! ### The checks of a job (R431) -/

theorem checkJob_desc {desc : Nat} {b : List Nat} {j : JobD} (h : checkJob desc b = some j) : j.desc = desc := by
  unfold checkJob at h
  dsimp only at h
  split at h
  · cases h
  · split at h
    · cases h
      rfl
    · cases h

/-- A job that passes has the descriptor's address, and a slot is free for it. -/
theorem judgeJob_good {s : State} {x : Sub} {j : JobD} (h : s.judgeJob x = (0, some j)) : j.desc = subF64 x 0x18 ∧ s.jobSlots.length < 8 := by
  unfold State.judgeJob at h
  dsimp only at h
  split at h
  · simp at h
  split at h
  · simp at h
  split at h
  · simp at h
  next j' hj' =>
    have hdesc : j'.desc = subF64 x 0x18 := checkJob_desc hj'
    split_ifs at h with h1 h2 h3 h4 h5 h6 h7 h8 <;> simp at h
    exact ⟨h ▸ hdesc, by omega⟩

section

variable (s : State) (q : Nat) (y : Queue)

theorem ld_setQu (a n : Nat) : (s.setQu q y).ld a n = s.ld a n := rfl

theorem bad_setQu (a n : Nat) : (s.setQu q y).bad a n = s.bad a n := rfl

theorem memCap_setQu : (s.setQu q y).memCap = s.memCap := rfl

theorem mode_setQu : (s.setQu q y).mode = s.mode := rfl

theorem jobSlots_setQu : (s.setQu q y).jobSlots = s.jobSlots := rfl

theorem portOk_setQu : (s.setQu q y).portOk = s.portOk := rfl

theorem jobAt_setQu (a : Nat) : (s.setQu q y).jobAt a = s.jobAt a := rfl

theorem jobSlot_setQu (a : Nat) : (s.setQu q y).jobSlot a = s.jobSlot a := rfl

theorem badHdrs_setQu (d : LayerD) (l : List Nat) : (s.setQu q y).badHdrs d l = s.badHdrs d l := rfl

theorem layerPoison_setQu (a : Nat) (f : LayerD → List Nat) : (s.setQu q y).layerPoison a f = s.layerPoison a f := rfl

theorem levelBad_setQu (j : JobD) : (s.setQu q y).levelBad j = s.levelBad j := rfl

/-- The checks of a job do not read the queues. -/
theorem judgeJob_setQu (x : Sub) : (s.setQu q y).judgeJob x = s.judgeJob x := by
  unfold State.judgeJob State.ldN
  simp only [ld_setQu, bad_setQu, jobAt_setQu, jobSlot_setQu, badHdrs_setQu, layerPoison_setQu, levelBad_setQu, memCap_setQu,
    jobSlots_setQu, portOk_setQu, mode_setQu]
  congr!

end

end Sys2Proof.Machine

/-! PROOFS. What each operation of Q00 to Q15 answers when it starts (R422 to R424, R431, R432). -/

namespace Sys2Proof.Machine

open Sys2Proof.Safety

/-! ### Each operation's start -/

/-- What JOB_LOAD does with its descriptor. -/
def State.loadJob (s : State) (x : Sub) : Running × State :=
  match s.judgeJob x with
  | (0, some j) =>
    let slot := s.freeSlot
    let was := match s.jobSlots.find? fun i => s.on HIF_JOB_STAT_START i with | some i => i + 1 | none => 0
    let (f, s) := s.enterJob j slot (x.flags == 1)
    (⟨x, 0, slot + 2 ^ 32 * f, [], if x.flags = 1 then was else 0⟩, s.saw (subF64 x 0x18) 64)
  | (st, some j) => (Running.ends x st, s.addSat HSK_HDR_BAD (s.jobBadHdrs j))
  | (st, none) => (Running.ends x st, if st = 1 then s.saw (subF64 x 0x18) (max 64 (s.ldN (subF64 x 0x18 + 8) 4)) else s)

/-- A failed check ends the descriptor and enters nothing (R431). -/
theorem loadJob_failed {s : State} {x : Sub} {st : Nat} (h : s.judgeJob x = (st, none)) :
    ∃ u, s.loadJob x = (Running.ends x st, u) ∧ u.store = s.store ∧ OnlyMem s u := by
  refine ⟨if st = 1 then s.saw (subF64 x 0x18) (max 64 (s.ldN (subF64 x 0x18 + 8) 4)) else s, ?_, ?_⟩
  · unfold State.loadJob
    rw [h]
    cases st <;> rfl
  · split
    · exact ⟨saw_store .., saw_onlyMem ..⟩
    · exact ⟨rfl, OnlyMem_refl s⟩

theorem loadJob_entered {s : State} {x : Sub} {j : JobD} (h : s.judgeJob x = (0, some j)) :
    ∃ r, s.loadJob x = (r, (s.enterJob j s.freeSlot (x.flags == 1)).2.saw (subF64 x 0x18) 64) ∧ r.sub = x ∧ r.status = 0 ∧
      r.result % 2 ^ 32 = s.freeSlot % 2 ^ 32 := by
  have hload : s.loadJob x = (⟨x, 0, s.freeSlot + 2 ^ 32 * (s.enterJob j s.freeSlot (x.flags == 1)).1, [],
      if x.flags = 1 then match s.jobSlots.find? fun i => s.on HIF_JOB_STAT_START i with | some i => i + 1 | none => 0 else 0⟩,
      (s.enterJob j s.freeSlot (x.flags == 1)).2.saw (subF64 x 0x18) 64) := by
    unfold State.loadJob
    rw [h]
    rfl
  exact ⟨_, hload, rfl, rfl, Nat.add_mul_mod_self_left ..⟩

theorem saw_poison (s : State) (a n : Nat) : (s.saw a n).poison = s.poison :=
  State.each_proj State.poison _ _ (fun b u => by
    unfold State.sawBurst
    dsimp only
    split_ifs <;> rfl) s

theorem spares_saw {P : Nat → Nat → Prop} {s t : State} (h : Spares P s t) (a n : Nat) (hP : ∀ b i, P b i → memReg b = false) : Spares P s (t.saw a n) := by
  have hm := saw_onlyMem t a n
  refine h.trans ⟨fun b i hb => by rw [hm.1 b (hP b i hb)], saw_store t a n, saw_poison t a n, fun q _ => ?_⟩
  exact congrFun (OnlyMem_proj hm State.qu fun _ _ _ _ => rfl) q

theorem exec_idle {s : State} {q : Fin 16} (d : List Byte) (n : Nat) (h : (s.qu q).run ≠ none ∨ s.takeSub q = none ∨ (s.qu (16 + q.val)).waiting ≠ []) :
    exec (.nop q) s = .next s ∧ exec (.copyIn q d n) s = .next s ∧ exec (.copyOut q none n) s = .next s ∧ exec (.fill q n) s = .next s ∧
      exec (.fence q) s = .next s ∧ exec (.jobLoad q) s = .next s ∧ exec (.jobUnload q) s = .next s :=
  ⟨congrArg _ (startDesc_idle _ _ _ h), congrArg _ (startDesc_idle _ _ _ h), congrArg _ (startDesc_idle _ _ _ h), congrArg _ (startDesc_idle _ _ _ h),
    congrArg _ (startDesc_idle _ _ _ h), congrArg _ (startDesc_idle _ _ _ h), congrArg _ (startDesc_idle _ _ _ h)⟩

section

variable {s t : State} {q : Fin 16} {x : Sub} (hrun : (s.qu q).run = none) (htake : s.takeSub q = some (x, t)) (hwait : (s.qu (16 + q.val)).waiting = [])

include hrun htake hwait

/-- Non-zero fields or unknown flags (R424). -/
theorem exec_badOp (d : List Byte) (n : Nat) (hb : x.zeros = false ∨ 1 < x.flags) :
    ∀ p ∈ [(0, Instr.nop q), (1, .copyIn q d n), (2, .copyOut q none n), (3, .fill q n), (4, .fence q), (5, .jobLoad q), (6, .jobUnload q)],
      x.op = p.1 → exec p.2 s = .next (t.starts q (Running.ends x 4)) := by
  have bad : ∀ {ops : Nat → Bool} {flags : Nat} {f : Sub → State → Running × State}, flags ≤ 1 → ops x.op = true →
      Host.Outcome.next (s.startDesc q ops flags f) = (.next (t.starts q (Running.ends x 4)) : Res) := fun hf hop =>
    congrArg _ (startDesc_bad hrun htake hwait hop (hb.imp_right fun h => by omega))
  simp only [List.forall_mem_cons]
  exact ⟨fun h => bad (by decide) (by simp [h]), fun h => bad (by decide) (by simp [h]), fun h => bad (by decide) (by simp [h]),
    fun h => bad (by decide) (by simp [h]), fun h => bad (by decide) (by simp [h]), fun h => bad (by decide) (by simp [h]),
    fun h => bad (by decide) (by simp [h]), List.forall_mem_nil _⟩

theorem exec_nop_good (hop : x.op = 0) (hz : x.zeros = true) (hf : x.flags = 0) : exec (.nop q) s = .next (t.starts q (Running.ends x 0)) := by
  refine congrArg _ ((startDesc_good hrun htake hwait (by simp [hop]) hz (by omega)).trans ?_)
  rw [if_pos hop]

/-- An unknown OP, whatever its fields (R424). -/
theorem exec_nop_unknown (hop : 6 < x.op) : exec (.nop q) s = .next (t.starts q (Running.ends x 4)) := by
  by_cases hgood : x.zeros = true ∧ x.flags ≤ 0
  · refine congrArg _ ((startDesc_good hrun htake hwait (by simp [hop]) hgood.1 hgood.2).trans ?_)
    rw [if_neg (by omega)]
  · refine congrArg _ (startDesc_bad hrun htake hwait (by simp [hop]) ?_)
    cases hz : x.zeros with
    | false => exact Or.inl rfl
    | true => exact Or.inr (Nat.pos_of_ne_zero fun h0 => hgood ⟨hz, h0.le⟩)

theorem exec_fence_good (hop : x.op = 4) (hz : x.zeros = true) (hf : x.flags ≤ 1) : exec (.fence q) s = .next (t.starts q (Running.ends x 0)) :=
  congrArg _ (startDesc_good hrun htake hwait (by simp [hop]) hz hf)

theorem exec_jobLoad_good (hop : x.op = 5) (hz : x.zeros = true) (hf : x.flags ≤ 1) :
    exec (.jobLoad q) s = .next ((t.loadJob x).2.starts q (t.loadJob x).1) :=
  congrArg _ (startDesc_good hrun htake hwait (by simp [hop]) hz hf)

theorem exec_copyIn_good (d : List Byte) (n : Nat) (hop : x.op = 1) (hz : x.zeros = true) (hf : x.flags = 0) :
    ∃ d' lim, (t.on HIF_STAT_LINK = true → d' = d ∧ lim = d.length) ∧
      exec (.copyIn q d n) s = .next ((t.startCopy x d' lim n).2.starts q (t.startCopy x d' lim n).1) :=
  ⟨if t.on HIF_STAT_LINK then d else [], (if t.on HIF_STAT_LINK then d else []).length, fun h => by simp [h],
    congrArg _ (startDesc_good hrun htake hwait (by simp [hop]) hz (by omega))⟩

theorem exec_copyOut_good (n : Nat) (hop : x.op = 2) (hz : x.zeros = true) (hf : x.flags = 0) :
    exec (.copyOut q none n) s = .next ((t.startCopy x [] (if t.on HIF_STAT_LINK then subF32 x 0x20 else 0) n).2.starts q
      (t.startCopy x [] (if t.on HIF_STAT_LINK then subF32 x 0x20 else 0) n).1) :=
  congrArg _ (startDesc_good hrun htake hwait (by simp [hop]) hz (by omega))

/-- The bytes of a FILL (R422). -/
def fillBytes (x : Sub) : List Byte := (List.range (subF32 x 0x20)).map fun i => BitVec.ofNat 8 ((bytesOf 8 (subF64 x 0x28)).getD (i % 8) 0)

omit hrun htake hwait in
theorem fillBytes_toNat (x : Sub) :
    (fillBytes x).map (·.toNat) = (List.range (subF32 x 0x20)).map fun i => (bytesOf 8 (subF64 x 0x28)).getD (i % 8) 0 % 256 := by
  rw [fillBytes, List.map_map]
  exact List.map_congr_left fun i _ => BitVec.toNat_ofNat ..

theorem exec_fill_good (n : Nat) (hop : x.op = 3) (hz : x.zeros = true) (hf : x.flags = 0) :
    exec (.fill q n) s = .next ((t.startCopy x (fillBytes x) (subF32 x 0x20) n).2.starts q (t.startCopy x (fillBytes x) (subF32 x 0x20) n).1) :=
  congrArg _ (startDesc_good hrun htake hwait (by simp [hop]) hz (by omega))

/-- A transfer that moves nothing: of no bytes, or past the capacity (R424). -/
theorem exec_still (d : List Byte) (n st : Nat) (hz : x.zeros = true) (hf : x.flags = 0)
    (h : ∀ d' lim n, t.startCopy x d' lim n = (Running.ends x st, t)) :
    ∀ p ∈ [(1, Instr.copyIn q d n), (2, .copyOut q none n), (3, .fill q n)], x.op = p.1 → exec p.2 s = .next (t.starts q (Running.ends x st)) := by
  simp only [List.forall_mem_cons]
  refine ⟨fun hop => ?_, fun hop => ?_, fun hop => ?_, List.forall_mem_nil _⟩
  · obtain ⟨d', lim, -, hexec⟩ := exec_copyIn_good hrun htake hwait d n hop hz hf
    rw [hexec, h]
  · rw [exec_copyOut_good hrun htake hwait n hop hz hf, h]
  · rw [exec_fill_good hrun htake hwait n hop hz hf, h]

end

end Sys2Proof.Machine

/-! PROOFS. Descriptors of Q00 to Q15 in progress: what stands in the queue, the store, host memory and the slots (R422 to R424, R431, R432). -/

namespace Sys2Proof.Machine

open Sys2Proof.Safety

/-- Queue `q` has `x` in progress with a status and a result, and the descriptors `l` fetched behind it. -/
def State.inProgress (t : State) (q : Nat) (x : Sub) (status result : Nat) (l : List Sub) : Prop :=
  ∃ r, (t.qu q).run = some r ∧ r.sub = x ∧ r.status = status ∧ r.result = result ∧ (t.qu q).fetched = l

theorem starts_inProgress {t u : State} (q : Nat) (r : Running) (h : u.qu q = t.qu q) :
    (u.starts q r).inProgress q r.sub r.status r.result (t.qu q).fetched :=
  ⟨r, starts_run u q r, rfl, rfl, rfl, (starts_fetched u q r).trans (congrArg Queue.fetched h)⟩

theorem subF64_lt (x : Sub) (o : Nat) : subF64 x o < 2 ^ 64 := by
  have hlo : subF32 x o < 2 ^ 32 := BitVec.isLt _
  have hhi : subF32 x (o + 4) < 2 ^ 32 := BitVec.isLt _
  unfold subF64
  omega

theorem st_qu (s : State) (a : Nat) (l : List Nat) (q : Nat) : (s.st a l).qu q = s.qu q :=
  congrFun (OnlyMem_proj (st_onlyMem s a l) State.qu fun _ _ _ _ => rfl) q

theorem saw_qu (s : State) (a n q : Nat) : (s.saw a n).qu q = s.qu q :=
  congrFun (OnlyMem_proj (saw_onlyMem s a n) State.qu fun _ _ _ _ => rfl) q

section

variable {s t : State} {q : Fin 16} {x : Sub} (hrun : (s.qu q).run = none) (htake : s.takeSub q = some (x, t)) (hwait : (s.qu (16 + q.val)).waiting = [])

include hrun htake hwait

/-! ### Transfers (R422) -/

omit hrun hwait in
/-- A write of the store runs to its end in one step. -/
theorem writes_run {d : List Byte} (hlen : subF32 x 0x20 ≠ 0) (hcap : subF64 x 0x18 + subF32 x 0x20 ≤ s.memCap) (hop : x.op = 1 ∨ x.op = 3)
    (hd : d.length = subF32 x 0x20) :
    let r := t.startCopy x d (subF32 x 0x20) (subF32 x 0x20)
    (r.2.starts q r.1).inProgress q x 0 (subF32 x 0x20) (t.qu q).fetched ∧ (r.2.starts q r.1).store = (s.st (subF64 x 0x18) (d.map (·.toNat))).store := by
  obtain ⟨l, hl, rfl⟩ := takeSub_some htake
  have hcap' : subF64 x 0x18 + subF32 x 0x20 ≤ (s.setQu q { s.qu q with fetched := l }).memCap := hcap
  intro r
  have hr : r = (⟨x, 0, subF32 x 0x20, d, subF32 x 0x20⟩, (s.setQu q { s.qu q with fetched := l }).st (subF64 x 0x18) (d.map (·.toNat))) := by
    change (s.setQu q { s.qu q with fetched := l }).startCopy x d (subF32 x 0x20) (subF32 x 0x20) = _
    rw [startCopy_moves d hlen hcap', moveOn_writes _ hop (Nat.le_refl _)]
    rw [List.drop_zero, Nat.sub_zero, Nat.add_zero, List.take_of_length_le hd.le]
  rw [hr]
  refine ⟨starts_inProgress _ _ (st_qu ..), ?_⟩
  dsimp only
  rw [st_setQu]
  rfl

theorem copyIn_moves {d : List Byte} (hlen : subF32 x 0x20 ≠ 0) (hcap : subF64 x 0x18 + subF32 x 0x20 ≤ s.memCap) (hop : x.op = 1)
    (hz : x.zeros = true) (hf : x.flags = 0) (hlink : s.on HIF_STAT_LINK = true) (hd : d.length = subF32 x 0x20) :
    Gives (exec (.copyIn q d (subF32 x 0x20)) s) fun u => u.inProgress q x 0 (subF32 x 0x20) (t.qu q).fetched ∧
      u.store = (s.st (subF64 x 0x18) (d.map (·.toNat))).store := by
  obtain ⟨d', lim, hl, hexec⟩ := exec_copyIn_good hrun htake hwait d (subF32 x 0x20) hop hz hf
  have hlink' : t.on HIF_STAT_LINK = true := by
    obtain ⟨l, -, rfl⟩ := takeSub_some htake
    exact hlink
  obtain ⟨rfl, rfl⟩ := hl hlink'
  exact ⟨_, hexec, by rw [hd]; exact writes_run htake hlen hcap (Or.inl hop) hd⟩

theorem fill_moves (hlen : subF32 x 0x20 ≠ 0) (hcap : subF64 x 0x18 + subF32 x 0x20 ≤ s.memCap) (hop : x.op = 3) (hz : x.zeros = true)
    (hf : x.flags = 0) :
    Gives (exec (.fill q (subF32 x 0x20)) s) fun u => u.inProgress q x 0 (subF32 x 0x20) (t.qu q).fetched ∧
      u.store = (s.st (subF64 x 0x18) ((List.range (subF32 x 0x20)).map fun i => (bytesOf 8 (subF64 x 0x28)).getD (i % 8) 0 % 256)).store := by
  refine ⟨_, exec_fill_good hrun htake hwait _ hop hz hf, ?_⟩
  rw [← fillBytes_toNat]
  exact writes_run htake hlen hcap (Or.inr hop) (by simp [fillBytes])

theorem copyOut_moves (hlen : subF32 x 0x20 ≠ 0) (hcap : subF64 x 0x18 + subF32 x 0x20 ≤ s.memCap) (hop : x.op = 2)
    (hz : x.zeros = true) (hf : x.flags = 0) (hlink : s.on HIF_STAT_LINK = true) :
    Gives (exec (.copyOut q none (subF32 x 0x20)) s) fun u =>
      u.inProgress q x (if s.bad (subF64 x 0x18) (subF32 x 0x20) = true then 1 else 0) (subF32 x 0x20) (t.qu q).fetched ∧ u.store = s.store ∧
      u.hst.hostWr = some (subF64 x 0x10, (s.ld (subF64 x 0x18) (subF32 x 0x20)).map (BitVec.ofNat 8)) := by
  refine ⟨_, exec_copyOut_good hrun htake hwait _ hop hz hf, ?_⟩
  obtain ⟨l, hl, rfl⟩ := takeSub_some htake
  have hlink' : (s.setQu q { s.qu q with fetched := l }).on HIF_STAT_LINK = true := hlink
  have hcap' : subF64 x 0x18 + subF32 x 0x20 ≤ (s.setQu q { s.qu q with fetched := l }).memCap := hcap
  rw [if_pos hlink', startCopy_moves [] hlen hcap', moveOn_reads _ hop (Nat.le_refl _)]
  simp only [Nat.add_zero, Nat.sub_zero, List.nil_append, ld_setQu, bad_setQu]
  refine ⟨starts_inProgress _ _ ?_, saw_store .., rfl⟩
  exact saw_qu ..

/-! ### Jobs (R424, R431, R432) -/

theorem jobLoad_fails {st : Nat} (hop : x.op = 5) (hz : x.zeros = true) (hf : x.flags ≤ 1) (h : s.judgeJob x = (st, none)) :
    Gives (exec (.jobLoad q) s) fun u => u.inProgress q x st 0 (t.qu q).fetched ∧ u.store = s.store ∧
      ∀ j < 8, u.rd (HIF_JOB_STAT.addr j) = s.rd (HIF_JOB_STAT.addr j) := by
  refine ⟨_, exec_jobLoad_good hrun htake hwait hop hz hf, ?_⟩
  obtain ⟨l, -, rfl⟩ := takeSub_some htake
  obtain ⟨u, hload, hstore, hmem⟩ := loadJob_failed ((judgeJob_setQu s q _ x).trans h)
  rw [hload]
  refine ⟨starts_inProgress q (Running.ends x st) (congrFun (OnlyMem_proj hmem State.qu fun _ _ _ _ => rfl) q), hstore, fun j hj => ?_⟩
  refine hmem.1 _ ?_
  simp [memReg, Fld.addr]
  omega

/-- A job that passes stands in a slot that was free (R431). -/
theorem jobLoad_enters {j : JobD} (hop : x.op = 5) (hz : x.zeros = true) (hf : x.flags ≤ 1) (h : s.judgeJob x = (0, some j)) :
    ∃ (u : State) (r : Running) (slot : Nat), exec (.jobLoad q) s = .next (u.starts q r) ∧ slot < 8 ∧ s.on HIF_JOB_STAT_VALID slot = false ∧
      Entered s slot (subF64 x 0x18) (x.flags == 1) { u with queues := s.queues } ∧ r.sub = x ∧ r.status = 0 ∧ r.result % 2 ^ 32 = slot := by
  have hexec := exec_jobLoad_good hrun htake hwait hop hz hf
  obtain ⟨l, -, rfl⟩ := takeSub_some htake
  obtain ⟨hdesc, hslots⟩ := judgeJob_good h
  obtain ⟨hslot, hfree⟩ := freeSlot_free hslots
  obtain ⟨r, hload, hsub, hst, hres⟩ := loadJob_entered ((judgeJob_setQu s q { s.qu q with fetched := l } x).trans h)
  rw [hload] at hexec
  have hent := (enterJob_entered (s.setQu q { s.qu q with fetched := l }) (x.flags == 1) (hdesc ▸ subF64_lt x 0x18) hslot).spares hslot
    (spares_saw (Spares.refl _) (subF64 x 0x18) 64 fun b i hb => by
      simp only [slotBit] at hb
      simp [memReg]
      omega)
  rw [hdesc] at hent
  exact ⟨_, r, s.freeSlot, hexec, hslot, hfree, ⟨hent.valid, hent.names, hent.flagged, hent.others, hent.store, fun _ _ => rfl⟩, hsub, hst,
    hres.trans (Nat.mod_eq_of_lt (show s.freeSlot < 2 ^ 32 by omega))⟩

theorem exec_jobUnload_absent (hop : x.op = 6) (hz : x.zeros = true) (hf : x.flags = 0) (h : t.jobSlot (subF64 x 0x18) = none) :
    exec (.jobUnload q) s = .next (t.starts q (Running.ends x 0x18)) := by
  refine congrArg _ ((startDesc_good hrun htake hwait (by simp [hop]) hz (by omega)).trans ?_)
  rw [h]

theorem exec_jobUnload_busy {j : Nat} (hop : x.op = 6) (hz : x.zeros = true) (hf : x.flags = 0) (h : t.jobSlot (subF64 x 0x18) = some j)
    (hb : (t.on HIF_JOB_STAT_START j || t.on HIF_JOB_STAT_RUNNING j || t.on HIF_JOB_STAT_CHAINED j) = true) :
    exec (.jobUnload q) s = .next (t.starts q (Running.ends x 0x17)) := by
  refine congrArg _ ((startDesc_good hrun htake hwait (by simp [hop]) hz (by omega)).trans ?_)
  rw [h]
  dsimp only
  rw [if_pos hb]

theorem exec_jobUnload_free {j : Nat} (hop : x.op = 6) (hz : x.zeros = true) (hf : x.flags = 0) (h : t.jobSlot (subF64 x 0x18) = some j)
    (hb : ¬ (t.on HIF_JOB_STAT_START j || t.on HIF_JOB_STAT_RUNNING j || t.on HIF_JOB_STAT_CHAINED j) = true) :
    exec (.jobUnload q) s = .next ((t.put HIF_JOB_STAT_VALID false j).starts q (Running.ends x 0 j)) := by
  refine congrArg _ ((startDesc_good hrun htake hwait (by simp [hop]) hz (by omega)).trans ?_)
  rw [h]
  dsimp only
  rw [if_neg hb]

end

end Sys2Proof.Machine

/-! PROOFS. Descriptors of Q00 to Q15: completion and abort (R174, R421, R423 to R425, R428, R434). -/

namespace Sys2Proof.Machine

open Sys2Proof.Safety

/-! ### The completion entry (R421, R428) -/

theorem qRoom_congr {s t : State} {q : Nat} (h : ∀ a ∈ [HIF_STAT.addr, HIF_Q_CFG.addr q, HIF_Q_PI.addr q, HIF_Q_CI.addr q, HIF_Q_STAT.addr q], t.rd a = s.rd a) :
    t.qRoom q = s.qRoom q := by
  simp only [List.forall_mem_cons] at h
  obtain ⟨hlink, hcfg, hpi, hci, hstat, -⟩ := h
  unfold State.qRoom State.qUsed State.qSize State.on
  rw [State.get_congr HIF_Q_STAT_ACTIVE q 0 0 hstat, State.get_congr HIF_STAT_LINK 0 0 0 hlink, State.get_congr HIF_Q_PI q 0 0 hpi,
    State.get_congr HIF_Q_CI q 0 0 hci, State.get_congr HIF_Q_CFG_SIZEL q 0 0 hcfg]

theorem completes_sends (s : State) (q : Nat) (x : Sub) (status result head : Nat) : Sends (16 + q) s (s.completes q x status result head) :=
  qSend_sends ..

/-- A completion entry written to a paired queue with room. -/
theorem completes_shows (s : State) {q : Nat} (x : Sub) (status result head : Nat) (hq : q < 16) (hroom : s.qRoom (16 + q) = true)
    (hw : (s.qu (16 + q)).waiting = []) :
    let t := s.completes q x status result head
    t.get HIF_Q_PI (16 + q) = (s.get HIF_Q_PI (16 + q) + 1) % 2 ^ 32 ∧
      ∃ e, (t.qu (16 + q)).ring = (s.qu (16 + q)).ring ++ [e] ∧ e.kind = 1 ∧ e.status = status ∧ e.src = q ∧ e.tag = x.tag := by
  obtain ⟨⟨p, hring⟩, hpi⟩ := qSend_shows s ⟨1, status, q, head % 2 ^ 16, x.tag, false, [BitVec.ofNat 32 result, BitVec.ofNat 32 (result / 2 ^ 32)]⟩
    (by omega : 16 + q < 64) hroom hw
  exact ⟨hpi, _, hring, rfl, rfl, rfl, rfl⟩

/-! ### What is left of a transfer moves (R422) -/

/-- The host interface's own state replaced. -/
def State.withHst (s : State) (m : HstSt) : State := { s with hst := m }

theorem st_nil (s : State) (a : Nat) : s.st a [] = s := rfl

/-- Of a transfer at its end nothing moves, and other operations move nothing. -/
theorem moveOn_done (s : State) {r : Running} (h : r.result = r.lim ∨ r.sub.op ∉ [1, 2, 3]) :
    ∃ r' m, s.moveOn r r.lim = (r', s.withHst m) ∧ r'.sub = r.sub ∧ r'.status = r.status ∧ r'.result = r.result := by
  by_cases hop : r.sub.op ∈ [1, 2, 3]
  · have hend := h.resolve_right fun hn => hn hop
    simp only [List.mem_cons, List.not_mem_nil, or_false] at hop
    by_cases h2 : r.sub.op = 2
    · refine ⟨{ r with result := r.lim, data := r.data ++ [] }, { s.hst with hostWr := some (subF64 r.sub 0x10, r.data ++ []) }, ?_, rfl, rfl, hend.symm⟩
      rw [moveOn_reads s h2 (Nat.le_refl _), hend, Nat.sub_self]
      rfl
    · refine ⟨{ r with result := r.lim }, s.hst, (moveOn_writes s (by omega) (Nat.le_refl _)).trans ?_, rfl, rfl, hend.symm⟩
      rw [hend, Nat.sub_self, List.take_zero, List.map_nil, st_nil]
      rfl
  · exact ⟨r, s.hst, moveOn_other s _ hop, rfl, rfl, rfl⟩

/-! ### Completion (R423, R424, R434) -/

/-- A copy ends short of its bytes (R424). -/
abbrev Running.cut (r : Running) : Prop := (r.sub.op = 1 ∨ r.sub.op = 2) ∧ r.status ≤ 1 ∧ r.result < subF32 r.sub 0x20

/-- The status that a descriptor completes with. -/
def Running.final (r : Running) : Nat := if r.cut then 2 else r.status

/-- A copy cut short counts (R424). -/
def State.counts (s : State) (r : Running) : State := if r.cut then s.addSat HIF_ERR_HOST 1 else s

/-- The queue without its descriptor in progress. -/
def State.frees (s : State) (q : Nat) : State := s.setQu q { s.qu q with run := none, ended := some true }

/-- A job loaded is reported. -/
def State.reports (s : State) (r : Running) : State :=
  s.cond (r.sub.op == 5 && r.final == 0) fun s => s.raise EV_JOB_LOADED 255 (((r.result % 8 : Nat) : Int) :: w64 (subF64 r.sub 0x18))

/-- Completion once nothing is left to move. -/
def State.finish (s : State) (q : Nat) (r : Running) : State :=
  let u := s.counts r
  let t := ((u.frees q).reports r).completes q r.sub r.final r.result (u.get HIF_Q_CI q + 2 ^ 32 - (u.qu q).fetched.length)
  t.withHst { t.hst with doorbells := smPut (fun _ => []) t.hst.doorbells q ((smGet (fun _ => []) t.hst.doorbells q).filter fun d => !(idxReached (t.qDone q) d.1)) }

/-- A descriptor at its end, which no fence holds back, leaves its queue and its completion entry follows. -/
theorem exec_descriptorComplete_done {s : State} {q : Fin 16} {r : Running} (hrun : (s.qu q).run = some r) (hf : r.sub.op ≠ 4 ∨ s.fenceOk q r.sub = true)
    (hdone : r.result = r.lim ∨ r.sub.op ∉ [1, 2, 3]) :
    ∃ r' m, exec (.descriptorComplete q) s = .next ((s.withHst m).finish q r') ∧ r'.sub = r.sub ∧ r'.status = r.status ∧ r'.result = r.result := by
  obtain ⟨r', m, hmove, hsub, hst, hres⟩ := moveOn_done s hdone
  refine ⟨r', m, ?_, hsub, hst, hres⟩
  have hstop : ¬ ((r.sub.op = 1 ∨ r.sub.op = 2) ∧ r.status ≤ 1 ∧ r.result < r.lim ∧ !(s.on HIF_STAT_LINK)) := by
    rintro ⟨hop, -, hlt, -⟩
    rcases hdone with hd | hd
    · omega
    · simp only [List.mem_cons, List.not_mem_nil, or_false, not_or] at hd
      omega
  change execDescriptorComplete q s = _
  unfold execDescriptorComplete
  rw [hrun]
  dsimp only
  rw [if_neg (by rcases hf with hf | hf <;> simp [hf]), if_neg hstop, hmove, ← hsub]
  rfl

/-- The registers below those of the queues from 32 on that reporting does not write. -/
def hostBit (a _i : Nat) : Prop := a < 0x21800 ∧ evReg a = false

theorem reports_spares (s : State) (r : Running) : Spares hostBit s (s.reports r) :=
  (Spares.refl s).cond fun _ => (Spares.refl s).raise (fun _ _ h => h.2) ..

theorem counts_spares (s : State) (r : Running) : Spares (fun a _ => a ≠ HIF_ERR.addr) s (s.counts r) := by
  unfold State.counts
  split
  · exact (Spares.refl s).set HIF_ERR_HOST _ 0 0 0 fun _ _ _ h => h rfl
  · exact Spares.refl s

theorem counts_host (s : State) (r : Running) :
    (s.counts r).get HIF_ERR_HOST = if r.cut then min (s.get HIF_ERR_HOST + 1) 65535 else s.get HIF_ERR_HOST := by
  unfold State.counts
  split
  · exact State.get_addSat s HIF_ERR_HOST 1 0 0 0 (by decide)
  · rfl

theorem evReg_host {a : Nat} (h : a < 0x10100 ∨ 0x20000 ≤ a ∧ a < 0x21800) : evReg a = false := by
  simp [evReg]
  omega

/-- What a completed descriptor leaves (R423, R424). -/
theorem finish_shows {s : State} {q : Nat} (r : Running) (hq : q < 16) (hroom : s.qRoom (16 + q) = true) (hw : (s.qu (16 + q)).waiting = []) :
    let t := s.finish q r
    (t.qu q).run = none ∧ (t.qu q).fetched = (s.qu q).fetched ∧ t.mode = s.mode ∧ t.store = s.store ∧
      t.get HIF_ERR_HOST = (if r.cut then min (s.get HIF_ERR_HOST + 1) 65535 else s.get HIF_ERR_HOST) ∧
      t.get HIF_Q_PI (16 + q) = (s.get HIF_Q_PI (16 + q) + 1) % 2 ^ 32 ∧
      ∃ e, (t.qu (16 + q)).ring = (s.qu (16 + q)).ring ++ [e] ∧ e.kind = 1 ∧ e.status = r.final ∧ e.src = q ∧ e.tag = r.sub.tag := by
  have hcounts := counts_spares s r
  have hreports := reports_spares ((s.counts r).frees q) r
  generalize hv : ((s.counts r).frees q).reports r = v at hreports
  have hhost : ∀ a, a < 0x10100 ∨ 0x20000 ≤ a ∧ a < 0x21800 → v.rd a = (s.counts r).rd a := fun a ha =>
    hreports.rd fun _ _ => ⟨by omega, evReg_host ha⟩
  have hrd : ∀ a, a ≠ 0x2000C → (a < 0x10100 ∨ 0x20000 ≤ a ∧ a < 0x21800) → v.rd a = s.rd a := fun a hne ha =>
    (hhost a ha).trans (hcounts.rd fun _ _ => hne)
  have hqu : v.qu q = { s.qu q with run := none, ended := some true } := by
    rw [hreports.queues q (by omega), State.frees, State.qu_setQu, hcounts.queues q (by omega)]
  have hpair : v.qu (16 + q) = s.qu (16 + q) := by
    rw [hreports.queues _ (by omega), State.frees, qu_setQu_other _ _ (by omega), hcounts.queues _ (by omega)]
  have hroomv : v.qRoom (16 + q) = true := by
    rw [qRoom_congr, hroom]
    simp only [List.forall_mem_cons]
    refine ⟨hrd _ ?_ ?_, hrd _ ?_ ?_, hrd _ ?_ ?_, hrd _ ?_ ?_, hrd _ ?_ ?_, List.forall_mem_nil _⟩
    all_goals
      simp only [Fld.addr]
      omega
  intro t
  generalize hhead : (s.counts r).get HIF_Q_CI q + 2 ^ 32 - ((s.counts r).qu q).fetched.length = head
  have ht : ∃ m, t = (v.completes q r.sub r.final r.result head).withHst m := ⟨_, by
    rw [← hv, ← hhead]
    rfl⟩
  obtain ⟨m, ht⟩ := ht
  have hsends := completes_sends v q r.sub r.final r.result head
  obtain ⟨hpi, e, hring, he⟩ := completes_shows v r.sub r.final r.result head hq hroomv (hpair ▸ hw)
  generalize v.completes q r.sub r.final r.result head = u at hsends hpi hring ht
  have hquu : u.qu q = { s.qu q with run := none, ended := some true } := (hsends.others q (by omega)).trans hqu
  rw [ht]
  refine ⟨congrArg Queue.run hquu, (congrArg Queue.fetched hquu :), ?_, ?_, ?_, ?_, e, ?_, he⟩
  · exact hsends.mode.trans (State.get_congr GLB_MODE_STAT_MODE 0 0 0 (hrd _ (by decide) (by decide)))
  · exact hsends.store.trans (hreports.store.trans hcounts.store)
  · refine (hsends.get HIF_ERR_HOST 0 0 0 ?_).trans ((State.get_congr HIF_ERR_HOST 0 0 0 (hhost _ (by decide))).trans (counts_host s r))
    simp [sendRegs, Fld.addr]
    omega
  · refine hpi.trans ?_
    rw [State.get_congr HIF_Q_PI (16 + q) 0 0 (hrd _ (by simp only [Fld.addr]; omega) (by simp only [Fld.addr]; omega))]
  · exact hring.trans (by rw [hpair])

theorem exec_descriptorComplete_empty {s : State} {q : Fin 16} (h : (s.qu q).run = none) : exec (.descriptorComplete q) s = .next s := by
  change execDescriptorComplete q s = _
  unfold execDescriptorComplete
  rw [h]

/-- A fence waits for the writes before it (R174). -/
theorem exec_descriptorComplete_fence {s : State} {q : Fin 16} {r : Running} (hrun : (s.qu q).run = some r) (hop : r.sub.op = 4)
    (hf : s.fenceOk q r.sub = false) : exec (.descriptorComplete q) s = .next s := by
  change execDescriptorComplete q s = _
  unfold execDescriptorComplete
  rw [hrun]
  exact if_pos ⟨hop, by simp [hf]⟩

/-! ### Abort (R425) -/

/-- What the abort of all that is fetched leaves. -/
theorem dropFetched_shows (s : State) (q : Nat) :
    let t := s.dropFetched q
    (t.qu q).run = (s.qu q).run ∧ (t.qu q).fetched = [] ∧ t.store = s.store ∧ ∀ a, a ∉ sendRegs (16 + q) → t.rd a = s.rd a := by
  unfold State.dropFetched
  extract_lets l ci x u v t
  have hu : u.qu q = { s.qu q with fetched := [] } := State.qu_setQu ..
  have hv : Sends (16 + q) u v := State.each_inv (Sends (16 + q) u) _ _ (fun i w _ hw => hw.trans (completes_sends ..)) u (Sends.refl _ u)
  have hqv : v.qu q = { s.qu q with fetched := [] } := (hv.others q (by omega)).trans hu
  have ht : t = v ∨ t = v.setQu q { v.qu q with ended := some true } := by
    change v.cond (!l.isEmpty) _ = v ∨ v.cond (!l.isEmpty) _ = _
    unfold State.cond
    split
    · exact Or.inr rfl
    · exact Or.inl rfl
  clear_value t v
  rcases ht with ht | ht
  · rw [ht, hqv]
    exact ⟨rfl, rfl, hv.store, hv.regs⟩
  · rw [ht, State.qu_setQu, hqv]
    exact ⟨rfl, rfl, hv.store, hv.regs⟩

/-- The press mode, and VALID of slot `j`. -/
def abortBit (j a i : Nat) : Prop := a = 0x104 ∨ (a = HIF_JOB_STAT.addr j ∧ i = 0)

theorem still_abortBit {j : Nat} (hj : j < 8) : Still (abortBit j) := fun a i h => by
  simp only [abortBit, Fld.addr] at h
  refine ⟨evReg_host (by omega), by omega⟩

/-- The abort of a descriptor unloads the job that it loaded, and leaves the mode (R425). -/
theorem unload_shows (s : State) (r : Running) :
    (s.unload r).mode = s.mode ∧ (s.unload r).store = s.store ∧ (∀ q < 32, (s.unload r).qu q = s.qu q) ∧
      (r.sub.op = 5 → r.status = 0 → (s.unload r).on HIF_JOB_STAT_VALID (r.result % 8) = false) := by
  have hj : r.result % 8 < 8 := Nat.mod_lt _ (by decide)
  unfold State.unload
  split
  · generalize r.result % 8 = j at hj
    dsimp only
    have flag : ∀ {w : State} (b : Bool) (k : Nat), Spares (abortBit j) (s.put HIF_JOB_STAT_VALID false j) w →
        Spares (abortBit j) (s.put HIF_JOB_STAT_VALID false j) (w.put HIF_JOB_STAT_START b k) := fun b k hw => hw.put HIF_JOB_STAT_START b k 0 0 fun i hlo _ hi => by
      simp only [abortBit, Fld.addr] at hi hlo
      omega
    have hstart := flag false j (Spares.refl _)
    have hmap := mapPorts_spares (hstart.cond (c := r.lim != 0) (f := fun s => s.put HIF_JOB_STAT_START true (r.lim - 1)) fun _ => flag true _ hstart)
      (still_abortBit hj) fun a i ha => by
        simp only [abortBit, Fld.addr] at ha
        omega
    refine ⟨?_, hmap.store, fun q hq => hmap.queues q hq, fun _ _ => ?_⟩
    · refine (hmap.get GLB_MODE_STAT_MODE 0 0 0 fun _ _ _ => Or.inl rfl).trans (State.get_congr GLB_MODE_STAT_MODE 0 0 0 ?_)
      exact State.rd_set_other _ HIF_JOB_STAT_VALID _ _ _ _ _ (by simp only [Fld.addr]; omega)
    · refine (hmap.on HIF_JOB_STAT_VALID j 0 0 fun i h0 h1 => Or.inr ⟨rfl, ?_⟩).trans (State.on_put_same _ _ _ _ _ _ rfl (by decide))
      simp only at h0 h1
      omega
  · next hn => exact ⟨rfl, rfl, fun _ _ => rfl, fun h5 h0 => absurd ⟨h5, h0⟩ hn⟩

theorem exec_queueAbort {s : State} (q : Fin 16) (h : Hears s) : exec (.queueAbort q) s = .next (s.qAbort q) := heard_eq h _

theorem abort_idle {s : State} {q : Nat} (hq : q < 16) (hrun : (s.qu q).run = none) :
    (s.qAbort q).get HIF_Q_STAT_ABORT q = (if (s.qu q).ended = none then 0 else 2) ∧ (s.qAbort q).store = s.store ∧ (s.qAbort q).mode = s.mode := by
  generalize hu : s.set HIF_Q_STAT_ABORT (if (s.qu q).ended.isSome then 2 else 0) q = u
  have heq : s.qAbort q = u.dropFetched q := by
    unfold State.qAbort
    rw [hrun, ← hu]
  obtain ⟨-, -, hstore, hrd⟩ := dropFetched_shows u q
  rw [heq]
  refine ⟨?_, hstore.trans (by rw [← hu]; rfl), ?_⟩
  · rw [State.get_congr HIF_Q_STAT_ABORT q 0 0 (hrd _ (by simp [sendRegs, Fld.addr]; omega)), ← hu, State.get_set_same _ _ _ _ _ _ (by decide)]
    cases (s.qu q).ended <;> rfl
  · refine State.get_congr GLB_MODE_STAT_MODE 0 0 0 ((hrd _ (by simp [sendRegs, Fld.addr]; omega)).trans ?_)
    rw [← hu]
    exact State.rd_set_other _ HIF_Q_STAT_ABORT _ _ _ _ _ (by simp only [Fld.addr]; omega)

/-- The abort of a descriptor in progress (R425). -/
theorem abort_running {s : State} {q : Nat} {r : Running} (hq : q < 16) (hrun : (s.qu q).run = some r) :
    let t := s.qAbort q
    t.get HIF_Q_STAT_ABORT q = 1 ∧ (t.qu q).run = none ∧ (t.qu q).fetched = [] ∧ t.store = s.store ∧ t.mode = s.mode ∧
      (r.sub.op = 5 → r.status = 0 → t.on HIF_JOB_STAT_VALID (r.result % 8) = false) := by
  generalize hv : (s.frees q).unload r = v
  generalize hhead : s.get HIF_Q_CI q + 2 ^ 32 - (s.qu q).fetched.length = head
  generalize hres : (if r.sub.op = 5 then 0 else r.result) = res
  generalize hw : v.completes q r.sub 5 res head = w
  have heq : s.qAbort q = (w.set HIF_Q_STAT_ABORT 1 q).dropFetched q := by
    rw [← hw, ← hv, ← hhead, ← hres]
    unfold State.qAbort
    rw [hrun]
    rfl
  obtain ⟨hmode, hstore, hqu, hvalid⟩ := unload_shows (s.frees q) r
  rw [hv] at hmode hstore hqu hvalid
  have hsends : Sends (16 + q) v w := hw ▸ completes_sends ..
  obtain ⟨hdrun, hdfetched, hdstore, hdrd⟩ := dropFetched_shows (w.set HIF_Q_STAT_ABORT 1 q) q
  have hrd : ∀ a, a < 0x21000 → ((w.set HIF_Q_STAT_ABORT 1 q).dropFetched q).rd a = v.rd a := fun a ha => by
    have haway : a ∉ sendRegs (16 + q) ∧ a ≠ HIF_Q_STAT_ABORT.addr q := by
      simp [sendRegs, Fld.addr]
      omega
    rw [hdrd a haway.1, State.rd_set_other _ HIF_Q_STAT_ABORT _ _ _ _ _ haway.2, hsends.regs a haway.1]
  intro t
  rw [show t = _ from heq]
  refine ⟨?_, hdrun.trans ?_, hdfetched, hdstore.trans (hsends.store.trans hstore), ?_, fun h5 h0 => ?_⟩
  · rw [State.get_congr HIF_Q_STAT_ABORT q 0 0 (hdrd _ (by simp [sendRegs, Fld.addr]; omega)), State.get_set_same _ _ _ _ _ _ (by decide)]
    rfl
  · change (w.qu q).run = none
    rw [hsends.others q (by omega), hqu q (by omega), State.frees, State.qu_setQu]
  · exact (State.get_congr GLB_MODE_STAT_MODE 0 0 0 (hrd _ (by decide))).trans hmode
  · rw [State.on, State.get_congr HIF_JOB_STAT_VALID _ 0 0 (hrd _ (by simp only [Fld.addr]; omega))]
    exact hvalid h5 h0

end Sys2Proof.Machine

/-! PROOFS. Descriptors of Q00 to Q15 as a whole (R174, R418, R421 to R425, R428, R431, R432). -/

namespace Sys2Proof.Machine

open Sys2Proof.Safety

/-- A descriptor that starts and moves nothing: only the queues change. -/
theorem starts_queues (s : State) (q : Nat) (x : Queue) (r : Running) :
    ((s.setQu q x).starts q r).inProgress q r.sub r.status r.result ((s.setQu q x).qu q).fetched ∧
      (s.setQu q x).starts q r = { s with queues := ((s.setQu q x).starts q r).queues } :=
  ⟨starts_inProgress q r rfl, rfl⟩

theorem OnlyRegs_queues {A : List Nat} {s t : State} {m : SMap Queue} (h : OnlyRegs A s t) :
    OnlyRegs A s { { t with queues := m } with queues := s.queues } :=
  ⟨h.1, by rw [h.2]⟩

/-- A slot freed when its descriptor starts. -/
theorem unloads_only (s : State) (q : Nat) (y : Queue) (r : Running) (j : Nat) :
    OnlyRegs [HIF_JOB_STAT.addr j] s { ((s.setQu q y).put HIF_JOB_STAT_VALID false j).starts q r with queues := s.queues } := by
  have hput : (s.setQu q y).put HIF_JOB_STAT_VALID false j = (s.put HIF_JOB_STAT_VALID false j).setQu q y := rfl
  have hstarts : ∃ m, ((s.put HIF_JOB_STAT_VALID false j).setQu q y).starts q r = { s.put HIF_JOB_STAT_VALID false j with queues := m } := ⟨_, rfl⟩
  obtain ⟨m, hm⟩ := hstarts
  rw [hput, hm]
  exact OnlyRegs_queues (OnlyRegs_put s HIF_JOB_STAT_VALID false j 0 0)

/-- Settles O58: each operation is one function of the oldest descriptor; transfers rest on one write or read of the store, JOB_LOAD on what entering a job
leaves of the slots, completion and abort on what an entry sent leaves alone. -/
theorem descriptorsRunAndComplete : Obligations.DescriptorsRunAndComplete := by
  refine ⟨fun s q d n h => exec_idle d n h, ?_, ?_⟩
  · intro s t0 q d n x hrun htake hwait a len runs good
    obtain ⟨l, -, rfl⟩ := takeSub_some htake
    refine ⟨fun p hp hop hb => ⟨_, exec_badOp hrun htake hwait d n hb p hp hop, starts_queues ..⟩,
      fun hop ⟨hz, hf⟩ => ⟨_, exec_nop_good hrun htake hwait hop hz hf, starts_queues ..⟩,
      fun hop => ⟨_, exec_nop_unknown hrun htake hwait hop, starts_queues ..⟩,
      fun hop hz hf => ⟨_, exec_fence_good hrun htake hwait hop hz hf, starts_queues ..⟩,
      fun ⟨hz, hf⟩ p hp hop => ⟨fun h0 => ?_, fun h0 hcap => ?_⟩,
      fun ⟨hz, hf⟩ h0 hcap => ⟨fun hop hlink hd => copyIn_moves hrun htake hwait h0 hcap hop hz hf hlink hd,
        fun hop => fill_moves hrun htake hwait h0 hcap hop hz hf, fun hop hlink => copyOut_moves hrun htake hwait h0 hcap hop hz hf hlink⟩,
      fun hop hz hf => ⟨fun st hj _ => jobLoad_fails hrun htake hwait hop hz hf hj, fun j hj => ?_⟩,
      fun hop ⟨hz, hf⟩ => ⟨fun hnone => ?_, fun j hj => ?_⟩⟩
    · exact ⟨_, exec_still hrun htake hwait d n 0 hz hf (fun d' lim n => startCopy_empty _ d' lim n h0) p hp hop, starts_inProgress q _ rfl, rfl⟩
    · exact ⟨_, exec_still hrun htake hwait d n 3 hz hf (fun d' lim n => startCopy_range d' lim n h0 hcap) p hp hop, starts_inProgress q _ rfl, rfl⟩
    · obtain ⟨u, r, slot, hexec, hslot, hfree, hent, hr⟩ := jobLoad_enters hrun htake hwait hop hz hf hj
      exact ⟨_, hexec, slot, hslot, hfree, hent.valid, hent.names, hent.flagged, hent.store, fun h1 => hent.others (by simp [h1]), r, starts_run .., hr⟩
    · exact ⟨_, exec_jobUnload_absent hrun htake hwait hop hz hf hnone, starts_queues ..⟩
    · have hbusy : (s.on HIF_JOB_STAT_START j = true ∨ s.on HIF_JOB_STAT_RUNNING j = true ∨ s.on HIF_JOB_STAT_CHAINED j = true) ↔
          (s.on HIF_JOB_STAT_START j || s.on HIF_JOB_STAT_RUNNING j || s.on HIF_JOB_STAT_CHAINED j) = true := by
        rw [Bool.or_eq_true, Bool.or_eq_true, or_assoc]
      intro busy
      refine ⟨fun hb => ⟨_, exec_jobUnload_busy hrun htake hwait hop hz hf hj (hbusy.1 hb), starts_queues ..⟩, fun hb => ?_⟩
      refine ⟨_, exec_jobUnload_free hrun htake hwait hop hz hf hj fun h => hb (hbusy.2 h), starts_inProgress q _ rfl,
        State.on_put_same _ _ _ _ _ _ rfl (by decide), unloads_only ..⟩
  · intro s q
    refine ⟨exec_descriptorComplete_empty, fun r hr => ⟨fun hop hf => exec_descriptorComplete_fence hr hop hf, fun hf hdone hroom hwait => ?_⟩,
      fun hh => ⟨fun hrun _ => ⟨_, exec_queueAbort q hh, abort_idle q.isLt hrun⟩, fun r hr => ⟨_, exec_queueAbort q hh, abort_running q.isLt hr⟩⟩⟩
    obtain ⟨r', m, hexec, hsub, hst, hres⟩ := exec_descriptorComplete_done hr hf hdone
    have hshows := finish_shows (s := s.withHst m) r' q.isLt hroom hwait
    simp only [Running.final, Running.cut, hsub, hst, hres] at hshows
    exact ⟨_, hexec, hshows⟩

end Sys2Proof.Machine

/-! SUPPORT for the proofs. What the running views of cameras and lamp groups, and a unit stopped or permitted again, leave alone (R40, R41, R176, R287,
R344). -/

namespace Sys2Proof.Machine

open Sys2Proof.Safety

namespace Spares

variable {P : Nat → Nat → Prop} {s t u : State}

theorem refreshCam (h : Spares P s t) (hP : Still P) {c : Nat} (hc : c < 8) : Spares P s (t.refreshCam c) := by
  have hn : camUnit c < 0x98 := by
    unfold camUnit
    omega
  have hu := hP.unit (n := camUnit c) (by omega) (by omega)
  have hbase : ∀ b : Bool, (if b then 2 else 1) ≠ 5 := by decide
  unfold State.refreshCam
  extract_lets up n v base w
  have hstat : Spares P s v :=
    (h.putFar hP CAM_U_STAT_UP _ c 0 0 (by simp only [Fld.addr]; omega)).putFar hP CAM_U_STAT_INLINE _ c 0 0 (by simp only [Fld.addr]; omega)
  clear_value v
  split
  · exact (hstat.same ⟨by rfl, by rfl, by rfl, by rfl⟩).setRun hP _ (by omega) hu (by decide)
  · refine settleRun ?_ hP (by omega) hu (hbase _)
    change Spares P s (if up then v.unstall n 1 base else v.stall n 1)
    split
    · exact hstat.unstall hP _ (by omega) hu (hbase _)
    · exact hstat.stall hP _ (by omega) hu

theorem refreshGroup (h : Spares P s t) (hP : Still P) {g : Nat} (hg : g < 8) : Spares P s (t.refreshGroup g) := by
  have hn : grpUnit g < 0xA0 := by
    unfold grpUnit
    omega
  have hu := hP.unit (n := grpUnit g) (by omega) (by omega)
  have hbase : ∀ b : Bool, (if b then 2 else 1) ≠ 5 := by decide
  unfold State.refreshGroup
  extract_lets n l base has w
  split
  · exact (h.same ⟨by rfl, by rfl, by rfl, by rfl⟩).setRun hP _ (by omega) hu (by decide)
  · refine settleRun (h.each fun x v _ hv => ?_) hP (by omega) hu (hbase _)
    dsimp only
    split
    · exact hv.stall hP _ (by omega) hu
    · exact hv.unstall hP _ (by omega) hu (hbase _)

/-- What a unit that stops leaves undone (R40). -/
theorem stopEffects (h : Spares P s t) (hP : Still P) {n : Nat} (hn : n < 0xD4) : Spares P s (t.stopEffects n) := by
  unfold State.stopEffects
  split_ifs
  · exact h.same ⟨rfl, rfl, rfl, rfl⟩
  · exact h.each fun i v _ hv => (hv.same ⟨by rfl, by rfl, by rfl, by rfl⟩).setFar hP LS_STAT_STATE _ i 0 0 (by simp only [Fld.addr]; omega)
  · exact h.stopEng hP (by omega)
  · exact h
  · exact h

/-- A fenced unit that stops (R40). -/
theorem stopUnit (h : Spares P s t) (hP : Still P) {n : Nat} (hn : n < 0xD4) (hs : n < 0xA0 ∨ 0xB8 ≤ n) : Spares P s (t.stopUnit n) := by
  have hu := hP.unit (n := n) (by omega) hs
  unfold State.stopUnit
  dsimp only
  split
  · have hview := (((h.stopEffects hP hn).same (u := { t.stopEffects n with causes := smPut (fun _ => []) (t.stopEffects n).causes n [] })
      ⟨rfl, rfl, rfl, rfl⟩).setViews hP 0 0xFF (by omega) hu)
    split_ifs
    · exact hview.refreshBar hP (by omega)
    · exact hview.refreshBar hP (State.get_lt _ HPL_PORT_CFG_BAR _ _ _)
    · exact hview
  · exact h

/-- A unit permitted again (R40, R176). -/
theorem wakeUnit (h : Spares P s t) (hP : Still P) (hlow : ∀ a i, P a i → a < 0xB00000) {n : Nat} (hn : n < 0xD4)
    (hu : ∀ i, P (GLB_UST.addr n) i → 4 ≤ i ∧ i < 7) : Spares P s (t.wakeUnit n) := by
  unfold State.wakeUnit
  split_ifs
  · exact h.refreshBar hP (by omega)
  · exact h.refreshPort hP (by omega)
  · exact h.refreshCam hP (by omega)
  · exact h.refreshGroup hP (by omega)
  · have haway : ∀ {a i}, 0xB00000 ≤ a → ¬ P a i := fun ha hi => by
      have := hlow _ _ hi
      omega
    extract_lets c v
    have hv : Spares P s v := h.same ⟨rfl, rfl, rfl, rfl⟩
    refine Spares.setRun ?_ hP _ (by omega) hu (by split <;> decide)
    exact (hv.put MEM_SC_STAT_FENCED false c 0 0 fun _ _ _ => haway (by simp only [Fld.addr]; omega)).set MEM_FENCED_MAP _ 0 0 0
      fun _ _ _ => haway (by decide)
  · exact h

end Spares

/-- The press mode, and the permission view of unit `n`. -/
def permitBit (n a i : Nat) : Prop := a = 0x104 ∨ (a = GLB_UST.addr n ∧ 4 ≤ i ∧ i < 7)

theorem still_permitBit {n : Nat} (hn : n < 0x100) : Still (permitBit n) := fun a i h => by
  simp only [permitBit, Fld.addr] at h
  exact ⟨evReg_host (by omega), by omega⟩

theorem permitBit_unit {n : Nat} : ∀ i, permitBit n (GLB_UST.addr n) i → 4 ≤ i ∧ i < 7 := fun i h => by
  simp only [permitBit, Fld.addr] at h
  omega

theorem Spares.permit {s t : State} {n : Nat} (h : Spares (permitBit n) s t) : t.get GLB_UST_PERMIT n = s.get GLB_UST_PERMIT n ∧ t.mode = s.mode :=
  ⟨h.get GLB_UST_PERMIT n 0 0 fun _ h0 h1 => Or.inr ⟨rfl, h0, h1⟩, h.get GLB_MODE_STAT_MODE 0 0 0 fun _ _ _ => Or.inl rfl⟩

/-- The permission view made as the firmware asks, the mode and the store as they are (R38). -/
theorem setPermit_shows {s : State} {n p : Nat} (hn : n < 0x100) (hp : p < 5) (h : s.get GLB_UST_PERMIT n ≠ 5) :
    (s.setPermit n p).get GLB_UST_PERMIT n = p ∧ (s.setPermit n p).mode = s.mode ∧ (s.setPermit n p).store = s.store := by
  have heq : s.setPermit n p = s.setViews n (s.get GLB_UST_RUNSTATE n) p 0xFF := by
    rw [State.setPermit, if_neg h, if_neg (by omega)]
  have honly := setViews_only s n (s.get GLB_UST_RUNSTATE n) p 0xFF
  obtain ⟨⟨-, hpermit, -⟩, -⟩ := setViews_shows s 0xFF hn (State.get_lt s GLB_UST_RUNSTATE n 0 0) (show p < 8 by omega)
  rw [heq]
  refine ⟨hpermit, OnlyEv_get honly GLB_MODE_STAT_MODE 0 0 0 ?_ (by decide), OnlyEv_proj honly State.store fun _ _ _ _ _ => rfl⟩
  simp only [List.mem_cons, List.not_mem_nil, or_false, Fld.addr]
  omega

/-- PRINT is read from the modes of the bars alone (R498). -/
theorem printing_congr {s t : State} (h0 : t.rd 0x80240 = s.rd 0x80240) (h4 : t.rd 0x80244 = s.rd 0x80244) : t.printing = s.printing := by
  have hbar : t.barMode = s.barMode := by
    funext b
    unfold State.barMode
    rw [State.get_congr (SEQ_BAR_MODE0_MODE0.sh (4 * b)) 0 0 0 h0, State.get_congr (SEQ_BAR_MODE1_MODE0.sh (4 * (b - 8))) 0 0 0 h4]
  rw [State.printing, State.printing, hbar]

theorem setPermit_printing {s : State} {n p : Nat} (hn : n < 0x100) (hp : p < 5) (h : s.get GLB_UST_PERMIT n ≠ 5) :
    (s.setPermit n p).printing = s.printing := by
  have heq : s.setPermit n p = s.setViews n (s.get GLB_UST_RUNSTATE n) p 0xFF := by
    rw [State.setPermit, if_neg h, if_neg (by omega)]
  have honly := setViews_only s n (s.get GLB_UST_RUNSTATE n) p 0xFF
  rw [heq]
  refine printing_congr (honly.1 _ ?_ (by decide)) (honly.1 _ ?_ (by decide))
  · simp only [List.mem_cons, List.not_mem_nil, or_false, Fld.addr]
    omega
  · simp only [List.mem_cons, List.not_mem_nil, or_false, Fld.addr]
    omega

theorem faultHold_outside {s : State} (kind cause trk sc : Nat) (h : s.printing = false) : s.faultHold kind cause trk sc = s := by
  rw [State.faultHold, if_neg (by simp [h])]

/-- A unit fenced outside PRINT: its permission view is FENCED, and the mode stays (R40, R41, R176). -/
theorem fenceUnit_shows {s : State} {n : Nat} (hn : n < 0xD4) (hp : s.printing = false) (h5 : s.get GLB_UST_PERMIT n ≠ 5) :
    (s.fenceUnit n).get GLB_UST_PERMIT n = 4 ∧ (s.fenceUnit n).mode = s.mode := by
  unfold State.fenceUnit
  split
  · next h => exact ⟨h.resolve_right h5, rfl⟩
  · obtain ⟨hpermit, hmode, -⟩ := setPermit_shows (p := 4) (show n < 0x100 by omega) (by decide) h5
    have hprint := (setPermit_printing (p := 4) (show n < 0x100 by omega) (by decide) h5).trans hp
    generalize s.setPermit n 4 = u at hpermit hmode hprint
    have keeps : ∀ {v : State}, Spares (permitBit n) u v → v.get GLB_UST_PERMIT n = 4 ∧ v.mode = s.mode := fun hv =>
      ⟨hv.permit.1.trans hpermit, hv.permit.2.trans hmode⟩
    have hstill : Still (permitBit n) := still_permitBit (by omega)
    dsimp only
    split_ifs with hsub
    · have haway : ∀ {a i}, 0xB00000 ≤ a → ¬ permitBit n a i := fun ha hi => by
        simp only [permitBit, Fld.addr] at hi
        omega
      rw [faultHold_outside]
      · exact keeps (((Spares.refl u).put MEM_SC_STAT_FENCED true (n - 0xA0) 0 0 fun _ _ _ => haway (by simp only [Fld.addr]; omega)).set MEM_FENCED_MAP _
          0 0 0 fun _ _ _ => haway (by decide))
      · refine (printing_congr ?_ ?_).trans hprint
        · rw [State.rd_set_other _ MEM_FENCED_MAP _ _ _ _ _ (by decide), State.put,
            State.rd_set_other _ MEM_SC_STAT_FENCED _ _ _ _ _ (by simp only [Fld.addr]; omega)]
        · rw [State.rd_set_other _ MEM_FENCED_MAP _ _ _ _ _ (by decide), State.put,
            State.rd_set_other _ MEM_SC_STAT_FENCED _ _ _ _ _ (by simp only [Fld.addr]; omega)]
    · exact ⟨hpermit, hmode⟩
    · exact keeps ((Spares.refl u).stopUnit hstill hn (by omega))

/-- A unit permitted again: its permission view is ACTIVE; the mode and the store stay (R40, R176). -/
theorem permitUnit_shows {s : State} {n : Nat} (hn : n < 0xD4) (h5 : s.get GLB_UST_PERMIT n ≠ 5) :
    ((s.setPermit n 1).wakeUnit n).get GLB_UST_PERMIT n = 1 ∧ ((s.setPermit n 1).wakeUnit n).mode = s.mode ∧
      ((s.setPermit n 1).wakeUnit n).store = s.store := by
  obtain ⟨hpermit, hmode, hstore⟩ := setPermit_shows (p := 1) (show n < 0x100 by omega) (by decide) h5
  have hwake := (Spares.refl (s.setPermit n 1)).wakeUnit (still_permitBit (show n < 0x100 by omega)) (fun a i ha => by
    simp only [permitBit, Fld.addr] at ha
    omega) hn permitBit_unit
  exact ⟨hwake.permit.1.trans hpermit, hwake.permit.2.trans hmode, hwake.store.trans hstore⟩

end Sys2Proof.Machine

/-! PROOFS. The mailbox: which requests are taken, and what each CMD answers (R176, R428, R440, R441). -/

namespace Sys2Proof.Machine

open Sys2Proof.Safety

/-! ### Which requests are taken (R428, R440, R441) -/

/-- The firmware can take the oldest request `x` of mailbox queue `q`, which leaves `t`. -/
structure MboxTakes (s : State) (q : Nat) (x : Sub) (t : State) : Prop where
  oldest : s.takeSub (56 + q) = some (x, t)
  runs : s.fwRuns = true
  quiet : (s.qu (58 + q)).waiting = []
  free : s.norReplies.contains q = false

/-- The reserved bytes of a request are 0. -/
def mbFits (x : Sub) : Bool := mbZeros x (mbCmd x == 0x13 && bitN (mbArg1 x) 0)

section

variable {s t : State} {q : Nat} {x : Sub} {cmd : Nat → Bool} {nor : Bool} {f : Sub → State → State}

theorem mbox_idle (h : s.takeSub (56 + q) = none ∨ s.fwRuns = false ∨ (s.qu (58 + q)).waiting ≠ [] ∨ s.norReplies.contains q = true) :
    s.mbox q cmd nor f = s := by
  unfold State.mbox
  split
  · rfl
  · next y u hy =>
    refine if_pos ?_
    rcases h with h | h | h | h
    · rw [h] at hy
      cases hy
    · simp [h]
    · simp [h]
    · simp [-List.contains_eq_mem, h]

/-- A request that writes SPI NOR waits behind a write in progress. -/
theorem mbox_writing (h : s.norJobs ≠ []) : s.mbox q cmd true f = s := by
  unfold State.mbox
  split
  · rfl
  · exact if_pos (by simp [h])

theorem mbox_other (ht : s.takeSub (56 + q) = some (x, t)) (h : cmd (mbCmd x) = false) : s.mbox q cmd nor f = s := by
  unfold State.mbox
  simp only [ht]
  exact if_pos (by simp [h])

theorem mbox_taken (h : MboxTakes s q x t) (hc : cmd (mbCmd x) = true) (hn : nor = true → s.norJobs = []) :
    s.mbox q cmd nor f = if mbFits x then f x t else t.reply q x.tag 1 := by
  obtain ⟨ht, hruns, hquiet, hfree⟩ := h
  have hgo : ¬ (!s.fwRuns || !(cmd (mbCmd x)) || !(s.qu (58 + q)).waiting.isEmpty || s.norReplies.contains q || (nor && !s.norJobs.isEmpty)) = true := by
    cases nor with
    | false => simp [-List.contains_eq_mem, hruns, hc, hquiet, hfree]
    | true => simp [-List.contains_eq_mem, hruns, hc, hquiet, hfree, hn rfl]
  unfold State.mbox
  simp only [ht]
  rw [if_neg hgo]
  cases hz : mbFits x with
  | true => exact if_neg (by simp [mbFits] at hz; simp [hz])
  | false => exact if_pos (by simp [mbFits] at hz; simp [hz])

theorem mbox_bad (h : MboxTakes s q x t) (hc : cmd (mbCmd x) = true) (hn : nor = true → s.norJobs = []) (hz : mbFits x = false) :
    s.mbox q cmd nor f = t.reply q x.tag 1 := by
  rw [mbox_taken h hc hn, if_neg (by simp [hz])]

theorem mbox_good (h : MboxTakes s q x t) (hc : cmd (mbCmd x) = true) (hn : nor = true → s.norJobs = []) (hz : mbFits x = true) :
    s.mbox q cmd nor f = f x t := by
  rw [mbox_taken h hc hn, if_pos hz]

end

/-! ### The commands -/

/-- The commands of the mailbox, with the CMD that each takes. -/
noncomputable def mboxCommands (q : Fin 2) : List (Nat × Instr) :=
  [(1, .mboxPing q), (2, .mboxFence q), (3, .mboxPermit q), (0x10, .trainRead q), (0x11, .calRead q), (0x12, .calPlace q), (0x13, .boardWrite q),
    (0x20, .imageWrite q), (0x21, .imageCommit q), (0x30, .logRead q)]

/-- Every command answers what the mailbox answers whatever is asked of it. -/
theorem exec_mbox_all {s r : State} {q : Fin 2} (h : ∀ cmd nor f, s.mbox q cmd nor f = r) : ∀ p ∈ mboxCommands q, exec p.2 s = .next r := by
  simp only [mboxCommands, List.forall_mem_cons]
  exact ⟨congrArg _ (h ..), congrArg _ (h ..), congrArg _ (h ..), congrArg _ (h ..), congrArg _ (h ..), congrArg _ (h ..), congrArg _ (h ..),
    congrArg _ (h ..), congrArg _ (h ..), congrArg _ (h ..), List.forall_mem_nil _⟩

theorem exec_mbox_writing {s : State} {q : Fin 2} (h : s.norJobs ≠ []) :
    exec (.boardWrite q) s = .next s ∧ exec (.imageWrite q) s = .next s ∧ exec (.imageCommit q) s = .next s :=
  ⟨congrArg _ (mbox_writing h), congrArg _ (mbox_writing h), congrArg _ (mbox_writing h)⟩

theorem exec_mbox_other {s t : State} {q : Fin 2} {x : Sub} (ht : s.takeSub (56 + q.val) = some (x, t)) :
    ∀ p ∈ mboxCommands q, p.1 ≠ 1 → mbCmd x ≠ p.1 → exec p.2 s = .next s := by
  have other : ∀ {c : Nat} {nor : Bool} {f : Sub → State → State}, mbCmd x ≠ c → Host.Outcome.next (s.mbox q (· == c) nor f) = (.next s : Res) := fun h =>
    congrArg _ (mbox_other ht (by simpa using h))
  simp only [mboxCommands, List.forall_mem_cons]
  exact ⟨fun h => absurd rfl h, fun _ h => other h, fun _ h => other h, fun _ h => other h, fun _ h => other h, fun _ h => other h, fun _ h => other h,
    fun _ h => other h, fun _ h => other h, fun _ h => other h, List.forall_mem_nil _⟩

section

variable {s t : State} {q : Fin 2} {x : Sub} (h : MboxTakes s q x t)

include h

/-- Non-zero reserved bytes (R440). -/
theorem exec_mbox_bad (hz : mbFits x = false) (hn : s.norJobs = []) :
    ∀ p ∈ mboxCommands q, mbCmd x = p.1 → exec p.2 s = .next (t.reply q x.tag 1) := by
  have bad : ∀ {cmd : Nat → Bool} {nor : Bool} {f : Sub → State → State}, cmd (mbCmd x) = true →
      Host.Outcome.next (s.mbox q cmd nor f) = (.next (t.reply q x.tag 1) : Res) := fun hc => congrArg _ (mbox_bad h hc (fun _ => hn) hz)
  simp only [mboxCommands, List.forall_mem_cons]
  exact ⟨fun hc => bad (by simp [hc]), fun hc => bad (by simp [hc]), fun hc => bad (by simp [hc]), fun hc => bad (by simp [hc]),
    fun hc => bad (by simp [hc]), fun hc => bad (by simp [hc]), fun hc => bad (by simp [hc]), fun hc => bad (by simp [hc]),
    fun hc => bad (by simp [hc]), fun hc => bad (by simp [hc]), List.forall_mem_nil _⟩

/-- A CMD that R440 does not name. -/
theorem exec_mboxPing_unknown (hc : mbCmd x ∉ mbCmds) : exec (.mboxPing q) s = .next (t.reply q x.tag 1) := by
  have h1 : mbCmd x ≠ 1 := fun h1 => hc (by rw [h1]; decide)
  refine congrArg _ ((mbox_taken h (by simp [hc]) (fun hn => absurd hn (by decide))).trans ?_)
  rw [if_neg h1, ite_self]

theorem exec_mboxPing (hc : mbCmd x = 1) (hz : mbFits x = true) : exec (.mboxPing q) s = .next (t.reply q x.tag 0 (t.get GLB_FW_SEQ_SEQ)) := by
  refine congrArg _ ((mbox_good h (by simp [hc]) (fun hn => absurd hn (by decide)) hz).trans ?_)
  rw [if_pos hc]

/-- A request of one CMD that fits runs its command. -/
theorem exec_mboxFence (hc : mbCmd x = 2) (hz : mbFits x = true) :
    exec (.mboxFence q) s = .next (if 0xD4 ≤ mbArg0 x then t.reply q x.tag 3 else (t.fenceUnit (mbArg0 x)).reply q x.tag 0) :=
  congrArg _ (mbox_good h (by simp [hc]) (fun hn => absurd hn (by decide)) hz)

theorem exec_mboxPermit (hc : mbCmd x = 3) (hz : mbFits x = true) :
    exec (.mboxPermit q) s = .next (if 0xD4 ≤ mbArg0 x then t.reply q x.tag 3
      else if 0xA0 ≤ mbArg0 x ∧ mbArg0 x < 0xB8 ∧ t.mode ≠ 1 ∧ t.mode ≠ 6 then t.reply q x.tag 2
      else if t.get GLB_UST_STATE (mbArg0 x) = 5 then t.reply q x.tag 5
      else if t.get GLB_UST_PERMIT (mbArg0 x) = 1 then t.reply q x.tag 0
      else ((t.setPermit (mbArg0 x) 1).wakeUnit (mbArg0 x)).reply q x.tag 0) :=
  congrArg _ (mbox_good h (by simp [hc]) (fun hn => absurd hn (by decide)) hz)

end

end Sys2Proof.Machine

/-! PROOFS. The mailbox: requests that name a store address or write SPI NOR, and the writes of SPI NOR (R440, R441, R445, R452, R454, R463). -/

namespace Sys2Proof.Machine

open Sys2Proof.Safety

/-! ### What is read of SPI NOR (R443, R454) -/

section

variable {s t : State} (h : t.norLd = s.norLd)

include h

theorem trainCur_congr : t.trainCur = s.trainCur := by
  simp only [State.trainCur, State.trainCopy, h]

theorem trainRead_congr : t.trainRead = s.trainRead := by
  unfold State.trainRead
  rw [trainCur_congr h]
  simp only [State.trainCopy, h]

theorem calCur_congr : t.calCur = s.calCur := by
  simp only [State.calCur, State.calCopy, h]

theorem slotValid_congr (k : Nat) (hm : t.mgt = s.mgt) : t.slotValid k = s.slotValid k := by
  unfold State.slotValid State.slotHdr
  rw [h, hm]

end

theorem norLd_congr {s t : State} (hn : t.nor = s.nor) (hl : t.mgt.logRing = s.mgt.logRing) : t.norLd = s.norLd := by
  funext a n
  simp only [State.norLd, State.norByte, hn, hl]

/-! ### Requests that name a store address (R440, R452) -/

theorem storeOr_ready {s : State} {q : Nat} {x : Sub} {f : State → State} (h : s.on MEM_STAT_READY = true) : s.storeOr q x f = f s := if_pos h

theorem storeOr_waits {s : State} {q : Nat} {x : Sub} {f : State → State} (h : ¬ s.on MEM_STAT_READY = true) : s.storeOr q x f = s.reply q x.tag 3 := if_neg h

/-- Tables placed in the store, and where camera `u` finds them (R440). -/
def State.placeTables (s : State) (u a : Nat) (tone flat : List Nat) : State :=
  (((s.st a tone).st (a + 6144) flat).set64 CAM_U_TONE_LO a u).set64 CAM_U_FLAT_LO (a + 6144) u

/-- The bytes of a tone table. -/
def CamCal.toneBytes (c : CamCal) : List Nat := (List.range 3072).flatMap fun i => bytesOf 2 (c.tone.getD i 0)

/-- The bytes of a flat-field table. -/
def CamCal.flatBytes (c : CamCal) : List Nat := (List.range (3 * c.nflat)).flatMap fun i => bytesOf 4 (c.flat.getD i 0)

/-- A write of SPI NOR queued (R454). -/
def State.queueNor (s : State) (j : NorJob) : State := { s with norJobs := s.norJobs ++ [j] }

theorem queueNor_first {s : State} (h : s.norJobs = []) (j : NorJob) : s.queueNor j = { s with norJobs := [j] } := by
  rw [State.queueNor, h, List.nil_append]

/-- A board record queued for SPI NOR (R440, R454). -/
def State.queueBoard (s : State) (q tag : Nat) (b : List Nat) : State := s.queueNor (.cal (s.boardRec b) (some (q, tag)))

/-- The board record of an inline request (R440). -/
def mbBoard (x : Sub) : List Nat :=
  [mbArg0 x % 256, 0] ++ bytesOf 6 (mbAddr x) ++ bytesOf 4 (subF32 x 0x24) ++ bytesOf 4 (subF32 x 0x28) ++ List.replicate 48 0

/-- The states in which a board record may be written (R440). -/
def State.boardAllowed (s : State) (inline : Bool) : Bool :=
  s.mode == 6 || (inline && (s.mode == 7 && !(s.on GLB_START_STAT_DONE) && (s.get GLB_START_STAT_RESULT == 6 || s.get GLB_START_STAT_RESULT == 7)))

theorem boardAllowed_iff (s : State) (inline : Bool) :
    s.boardAllowed inline = true ↔ s.mode = 6 ∨ (inline = true ∧ s.mode = 7 ∧ s.on GLB_START_STAT_DONE = false ∧
      (s.get GLB_START_STAT_RESULT = 6 ∨ s.get GLB_START_STAT_RESULT = 7)) := by
  simp [State.boardAllowed, and_assoc]

section

variable {s t : State} {q : Fin 2} {x : Sub} (h : MboxTakes s q x t) (hz : mbFits x = true)

include h hz

theorem exec_trainRead_waits (hc : mbCmd x = 0x10) (hr : ¬ t.on MEM_STAT_READY = true) : exec (.trainRead q) s = .next (t.reply q x.tag 3) :=
  congrArg _ ((mbox_good h (by simp [hc]) (fun hn => absurd hn (by decide)) hz).trans (storeOr_waits hr))

theorem exec_trainRead_none (hc : mbCmd x = 0x10) (hr : t.on MEM_STAT_READY = true) (hb : t.trainRead = none) :
    exec (.trainRead q) s = .next (t.reply q x.tag 6) := by
  refine congrArg _ ((mbox_good h (by simp [hc]) (fun hn => absurd hn (by decide)) hz).trans ((storeOr_ready hr).trans ?_))
  rw [hb]

theorem exec_trainRead_some {b : List Nat} (hc : mbCmd x = 0x10) (hr : t.on MEM_STAT_READY = true) (hb : t.trainRead = some b) :
    exec (.trainRead q) s = .next ((t.st (mbAddr x) b).reply q x.tag 0 trainLen) := by
  refine congrArg _ ((mbox_good h (by simp [hc]) (fun hn => absurd hn (by decide)) hz).trans ((storeOr_ready hr).trans ?_))
  rw [hb]

theorem exec_calRead_waits (hc : mbCmd x = 0x11) (hr : ¬ t.on MEM_STAT_READY = true) : exec (.calRead q) s = .next (t.reply q x.tag 3) :=
  congrArg _ ((mbox_good h (by simp [hc]) (fun hn => absurd hn (by decide)) hz).trans (storeOr_waits hr))

theorem exec_calRead_none (hc : mbCmd x = 0x11) (hr : t.on MEM_STAT_READY = true) (hb : t.calCur = none) :
    exec (.calRead q) s = .next (t.reply q x.tag 6) := by
  refine congrArg _ ((mbox_good h (by simp [hc]) (fun hn => absurd hn (by decide)) hz).trans ((storeOr_ready hr).trans ?_))
  rw [hb]

theorem exec_calRead_some {i : Nat} (hc : mbCmd x = 0x11) (hr : t.on MEM_STAT_READY = true) (hb : t.calCur = some i) :
    exec (.calRead q) s = .next ((t.st (mbAddr x) (t.norLd (calAt i) 0x400000)).reply q x.tag 0 0x400000) := by
  refine congrArg _ ((mbox_good h (by simp [hc]) (fun hn => absurd hn (by decide)) hz).trans ((storeOr_ready hr).trans ?_))
  rw [hb]

theorem exec_calPlace (hc : mbCmd x = 0x12) : exec (.calPlace q) s = .next (if 7 < mbArg0 x then t.reply q x.tag 3
    else t.storeOr q x fun s => if s.camCal (mbArg0 x) = CamCal.empty then s.reply q x.tag 6
      else (s.placeTables (mbArg0 x) (mbAddr x) (s.camCal (mbArg0 x)).toneBytes (s.camCal (mbArg0 x)).flatBytes).reply q x.tag 0) :=
  congrArg _ (mbox_good h (by simp [hc]) (fun hn => absurd hn (by decide)) hz)

theorem exec_logRead (hc : mbCmd x = 0x30) : exec (.logRead q) s = .next (t.storeOr q x fun s =>
    (s.st (mbAddr x) ((s.logFrom (mbArg1 x) (mbLen x)).flatMap fun r => (List.range 64).map fun i => Config.free 17 (64 * r.num + i) % 256)).reply q x.tag 0
      (s.logFrom (mbArg1 x) (mbLen x)).length) :=
  congrArg _ (mbox_good h (by simp [hc]) (fun hn => absurd hn (by decide)) hz)

theorem exec_boardWrite (hc : mbCmd x = 0x13) (hn : s.norJobs = []) :
    exec (.boardWrite q) s = .next (if !(t.boardAllowed (bitN (mbArg1 x) 0)) then t.reply q x.tag 2
      else if bitN (mbArg1 x) 0 then t.queueBoard q x.tag (mbBoard x)
      else t.storeOr q x fun s => if s.bad (mbAddr x) 64 then s.reply q x.tag 6 else s.queueBoard q x.tag (s.ld (mbAddr x) 64)) :=
  congrArg _ (mbox_good h (by simp [hc]) (fun _ => hn) hz)

theorem exec_imageWrite (hc : mbCmd x = 0x20) (hn : s.norJobs = []) :
    exec (.imageWrite q) s = .next (if 1 < mbArg0 x ∨ 0x1800000 < mbArg1 x + mbLen x ∨ 2 ^ 20 < mbLen x then t.reply q x.tag 3
      else if mbArg0 x = t.get GLB_BOOT_SLOT then t.reply q x.tag 4
      else t.storeOr q x fun s => if mbLen x = 0 then s.reply q x.tag 0
        else if s.bad (mbAddr x) (mbLen x) then s.reply q x.tag 6
        else s.queueNor (.image (0x1800000 * mbArg0 x + mbArg1 x) (s.ld (mbAddr x) (mbLen x)) (q.val, x.tag))) :=
  congrArg _ (mbox_good h (by simp [hc]) (fun _ => hn) hz)

/-- A slot found valid: its minimum is raised where the request says so (R440, R445). -/
def State.commitImage (s : State) (k : Nat) (up : Bool) : State :=
  (if up then { s with mgt.fuseSvn := max s.mgt.fuseSvn (fieldAt (s.slotHdr k) 0xC 2) } else s).logRec 3 [(k : Int)]

theorem exec_imageCommit (hc : mbCmd x = 0x21) (hn : s.norJobs = []) :
    exec (.imageCommit q) s = .next (if 1 < mbArg0 x then t.reply q x.tag 3
      else if bitN (mbArg1 x) 0 && t.mode != 6 then t.reply q x.tag 2
      else if !(t.slotValid (mbArg0 x)) then t.reply q x.tag 7
      else (t.commitImage (mbArg0 x) (bitN (mbArg1 x) 0)).reply q x.tag 0) :=
  congrArg _ (mbox_good h (by simp [hc]) (fun _ => hn) hz)

end

theorem reply_sends (s : State) (q tag status res0 res1 : Nat) : Sends (58 + q) s (s.reply q tag status res0 res1) := qSend_sends ..

theorem set64_store (s : State) (f : Fld) (z : Int) (i j k : Nat) : (s.set64 f z i j k).store = s.store := rfl

/-- The tables placed, and where the camera finds them (R440). -/
theorem placeTables_shows (s : State) {u a : Nat} (tone flat : List Nat) (q tag : Nat) (hu : u ≤ 7) (ha : a < 2 ^ 64) (hq : q < 2) :
    let t := (s.placeTables u a tone flat).reply q tag 0
    t.get64 CAM_U_TONE_LO u = a ∧ t.get64 CAM_U_FLAT_LO u = (a + 6144) % 2 ^ 64 ∧ t.store = ((s.st a tone).st (a + 6144) flat).store := by
  have hsends := reply_sends (s.placeTables u a tone flat) q tag 0 0 0
  intro t
  have hrd : ∀ b, 0x30000 ≤ b → t.rd b = (s.placeTables u a tone flat).rd b := fun b hb => hsends.regs b (by
    simp only [sendRegs, Fld.addr, List.mem_cons, List.not_mem_nil, or_false]
    omega)
  refine ⟨?_, ?_, hsends.store.trans (by rw [State.placeTables, set64_store, set64_store])⟩
  · rw [State.get64_congr CAM_U_TONE_LO u 0 0 (hrd _ (by simp only [Fld.addr]; omega)) (hrd _ (by simp only [Fld.addr]; omega)), State.placeTables,
      State.get64_congr CAM_U_TONE_LO u 0 0
      (State.rd_set64_other _ CAM_U_FLAT_LO _ _ _ _ (by simp only [Fld.addr]; omega) (by simp only [Fld.addr]; omega))
      (State.rd_set64_other _ CAM_U_FLAT_LO _ _ _ _ (by simp only [Fld.addr]; omega) (by simp only [Fld.addr]; omega)), State.get64_set64]
    unfold ux
    omega
  · rw [State.get64_congr CAM_U_FLAT_LO u 0 0 (hrd _ (by simp only [Fld.addr]; omega)) (hrd _ (by simp only [Fld.addr]; omega)), State.placeTables,
      State.get64_set64]
    unfold ux
    omega

theorem commitImage_shows (s : State) (k : Nat) (up : Bool) (q tag : Nat) :
    let t := (s.commitImage k up).reply q tag 0
    t.nor = s.nor ∧ t.mgt.fuseSvn = if up = true then max s.mgt.fuseSvn (fieldAt (s.slotHdr k) 0xC 2) else s.mgt.fuseSvn := by
  have hsends := reply_sends (s.commitImage k up) q tag 0 0 0
  refine ⟨(hsends.proj State.nor fun _ _ _ _ => rfl).trans ?_, (hsends.proj (fun t => t.mgt.fuseSvn) fun _ _ _ _ => rfl).trans ?_⟩
  · cases up <;> rfl
  · cases up <;> rfl

theorem logBytes_length (l : List LogRec) :
    (l.flatMap fun r => (List.range 64).map fun i => Config.free 17 (64 * r.num + i) % 256).length = 64 * l.length := by
  simp [List.length_flatMap, Nat.mul_comm]

/-- PING's reply (R440). -/
theorem ping_shows {s : State} {q : Nat} (tag : Nat) (hq : q < 2) (hroom : s.qRoom (58 + q) = true) (hw : (s.qu (58 + q)).waiting = []) :
    let t := s.reply q tag 0 (s.get GLB_FW_SEQ_SEQ)
    ∃ e, (t.qu (58 + q)).ring = (s.qu (58 + q)).ring ++ [e] ∧ e.kind = 8 ∧ e.status = 0 ∧ e.tag = tag ∧ e.body.getD 0 0 = s.rd GLB_FW_SEQ.addr ∧
      t.mode = s.mode ∧ t.store = s.store := by
  have hsends := reply_sends s q tag 0 (s.get GLB_FW_SEQ_SEQ) 0
  obtain ⟨⟨p, hring⟩, -⟩ := qSend_shows s ⟨8, 0, 0, 0, tag, false, [BitVec.ofNat 32 (s.get GLB_FW_SEQ_SEQ), BitVec.ofNat 32 (s.get GLB_FW_SEQ_SEQ / 2 ^ 32),
    BitVec.ofNat 32 0, BitVec.ofNat 32 (0 / 2 ^ 32)]⟩ (show 58 + q < 64 by omega) hroom hw
  refine ⟨_, hring, rfl, rfl, rfl, ?_, hsends.mode, hsends.store⟩
  change BitVec.ofNat 32 (getBits (s.rd 0x20) 0 32) = s.rd 0x20
  have hlt := (s.rd 0x20).isLt
  rw [getBits, Nat.pow_zero, Nat.div_one, Nat.mod_eq_of_lt hlt, BitVec.ofNat_toNat, BitVec.setWidth_eq]

/-! ### Writes of SPI NOR end (R454) -/

/-- The oldest write taken; a first try that does not read back is reported and logged. -/
def State.norTries (s : State) (r : List NorJob) (first : Bool) : State :=
  ({ s with norJobs := r } : State).cond (!first) fun s => (s.raise EV_NOR_ERR).logRec 5 []

theorem norTries_shows (s : State) (r : List NorJob) (first : Bool) :
    (s.norTries r first).nor = s.nor ∧ (s.norTries r first).norJobs = r ∧ (s.norTries r first).mgt.logRing = s.mgt.logRing := by
  cases first with
  | true => exact ⟨rfl, rfl, rfl⟩
  | false =>
    have honly := raise_only ({ s with norJobs := r } : State) EV_NOR_ERR 255 []
    exact ⟨OnlyEv_proj honly State.nor fun _ _ _ _ _ => rfl, OnlyEv_proj honly State.norJobs fun _ _ _ _ _ => rfl,
      OnlyEv_proj honly (fun t => t.mgt.logRing) fun _ _ _ _ _ => rfl⟩

theorem smLook_filter_kept {β : Type} (m : SMap β) {p : Nat × β → Bool} {k : Nat} (h : ∀ v, p (k, v) = true) : smLook (m.filter p) k = smLook m k := by
  induction m with
  | nil => rfl
  | cons e m ih =>
    obtain ⟨a, v⟩ := e
    by_cases hk : a = k
    · rw [hk, List.filter_cons_of_pos (h v), smLook, smLook, if_pos rfl, if_pos rfl]
    · rw [List.filter_cons]
      split
      · rw [smLook, smLook, if_neg hk, if_neg hk, ih]
      · rw [ih, smLook, if_neg hk]

theorem norErase_outside (s : State) {a n k : Nat} (h : k < a ∨ a + n ≤ k) :
    smGet (fun _ => (0xFF : Byte)) (s.norErase a n).nor k = smGet (fun _ => 0xFF) s.nor k := by
  have hkeep : smLook (s.nor.filter fun e => !(decide (a ≤ e.1) && decide (e.1 < a + n))) k = smLook s.nor k := smLook_filter_kept _ fun v => by
    simp
    omega
  exact congrArg (fun o : Option Byte => o.getD 0xFF) hkeep

theorem smGet_puts_outside (f : Nat → Nat) (v : Nat → Byte) {k : Nat} (l : List Nat) (h : ∀ i ∈ l, f i ≠ k) : ∀ m : SMap Byte,
    smGet (fun _ => (0xFF : Byte)) (l.foldl (fun m i => smPut (fun _ => 0xFF) m (f i) (v i)) m) k = smGet (fun _ => 0xFF) m k := by
  induction l with
  | nil => exact fun _ => rfl
  | cons i l ih =>
    intro m
    rw [List.foldl_cons, ih fun j hj => h j (List.mem_cons_of_mem _ hj)]
    exact smGet_put_other (fun _ => 0xFF) m _ (h i List.mem_cons_self).symm

theorem norPut_outside (s : State) {a k : Nat} {l : List Nat} (h : k < a ∨ a + l.length ≤ k) :
    smGet (fun _ => (0xFF : Byte)) (s.norPut a l).nor k = smGet (fun _ => 0xFF) s.nor k :=
  smGet_puts_outside (fun i => a + i) _ _ (fun i hi => by
    have := List.mem_range.1 hi
    omega) s.nor

section

variable {s : State} {r : List NorJob} {a tag rq : Nat} {b : List Nat} {c : CalRec} {rep : Option (Nat × Nat)}

theorem exec_norWriteDone_image (first second : Bool) (h : s.norJobs = .image a b (rq, tag) :: r) :
    exec (.norWriteDone first second) s = .next ((if first || second then (s.norTries r first).norPut a b else s.norTries r first).reply rq tag
      (if first || second then 0 else 6)) := by
  change execNorWriteDone first second s = _
  unfold execNorWriteDone
  rw [h]
  rfl

/-- The record of a write that reads back, or not, in the copy that is not in force. -/
def State.norCal (s : State) (c : CalRec) (ok : Bool) : State :=
  let t := s.norErase (calAt (otherCopy s.calCur)) 0x400000
  if ok then { t.norPut (calAt (otherCopy s.calCur)) c.bytes with cal := some c } else t

/-- What a write answers to the request it came from. -/
def State.answer (s : State) (rep : Option (Nat × Nat)) (status : Nat) : State :=
  match rep with
  | some (q, tag) => s.reply q tag status
  | none => s

theorem exec_norWriteDone_cal (first second : Bool) (h : s.norJobs = .cal c rep :: r) :
    exec (.norWriteDone first second) s = .next (((s.norTries r first).norCal c (first || second)).answer rep (if first || second then 0 else 6)) := by
  change execNorWriteDone first second s = _
  unfold execNorWriteDone
  rw [h]
  rfl

theorem answer_cal (s : State) (rep : Option (Nat × Nat)) (status : Nat) : (s.answer rep status).cal = s.cal ∧ (s.answer rep status).norJobs = s.norJobs := by
  cases rep with
  | none => exact ⟨rfl, rfl⟩
  | some p =>
    have hsends := reply_sends s p.1 p.2 status 0 0
    exact ⟨hsends.proj State.cal fun _ _ _ _ => rfl, hsends.proj State.norJobs fun _ _ _ _ => rfl⟩

theorem exec_norWriteDone_train (first second : Bool) (h : s.norJobs = .train b :: r) :
    exec (.norWriteDone first second) s = .next (
      let u := s.norTries r first
      let v := u.norErase (trainAt (otherCopy u.trainCur)) 0x10000
      if first || second then v.norPut (trainAt (otherCopy u.trainCur)) b else v) := by
  change execNorWriteDone first second s = _
  unfold execNorWriteDone
  rw [h]
  rfl

/-- A training record goes into the copy that is not in force (R454). -/
theorem norWriteDone_train (first second : Bool) (h : s.norJobs = .train b :: r) (hb : b.length ≤ 65536) :
    Gives (exec (.norWriteDone first second) s) fun t => t.norJobs = r ∧
      ∀ n, n < trainAt (otherCopy s.trainCur) ∨ trainAt (otherCopy s.trainCur) + 65536 ≤ n →
        smGet (fun _ => (0xFF : Byte)) t.nor n = smGet (fun _ => 0xFF) s.nor n := by
  refine ⟨_, exec_norWriteDone_train first second h, ?_⟩
  obtain ⟨hnor, hjobs, hring⟩ := norTries_shows s r first
  generalize s.norTries r first = u at hnor hjobs hring
  rw [← trainCur_congr (norLd_congr hnor hring), ← hnor]
  dsimp only
  generalize trainAt (otherCopy u.trainCur) = a
  have herase : ∀ n, n < a ∨ a + 65536 ≤ n → smGet (fun _ => (0xFF : Byte)) (u.norErase a 65536).nor n = smGet (fun _ => 0xFF) u.nor n := fun n hn =>
    norErase_outside u hn
  split
  · exact ⟨hjobs, fun n hn => (norPut_outside _ (by omega)).trans (herase n hn)⟩
  · exact ⟨hjobs, herase⟩

end

end Sys2Proof.Machine

/-! PROOFS. Mailbox requests and writes of SPI NOR as a whole (R176, R428, R440, R441, R454, R463). -/

namespace Sys2Proof.Machine

open Sys2Proof.Safety

section

variable {s : State} {q : Fin 2} {x : Sub} {y : Queue} (h : MboxTakes s q x (s.setQu (56 + q.val) y)) (hz : mbFits x = true)

include h hz

theorem mbox_fence (hc : mbCmd x = 2) :
    (0xD4 ≤ mbArg0 x → exec (.mboxFence q) s = .next ((s.setQu (56 + q.val) y).reply q x.tag 3)) ∧
    (s.get GLB_UST_PERMIT (mbArg0 x) = 4 → mbArg0 x < 0xD4 → exec (.mboxFence q) s = .next ((s.setQu (56 + q.val) y).reply q x.tag 0)) ∧
    (mbArg0 x < 0xD4 → exec (.mboxFence q) s = .next (((s.setQu (56 + q.val) y).fenceUnit (mbArg0 x)).reply q x.tag 0) ∧
      (s.printing = false → s.get GLB_UST_PERMIT (mbArg0 x) ≠ 5 →
        Gives (exec (.mboxFence q) s) fun t => t.get GLB_UST_PERMIT (mbArg0 x) = 4 ∧ t.mode = s.mode)) := by
  have hexec := exec_mboxFence h hc hz
  have hin : mbArg0 x < 0xD4 → exec (.mboxFence q) s = .next (((s.setQu (56 + q.val) y).fenceUnit (mbArg0 x)).reply q x.tag 0) := fun hn => by
    rw [hexec, if_neg (by omega)]
  refine ⟨fun hn => by rw [hexec, if_pos hn], fun h4 hn => ?_, fun hn => ⟨hin hn, fun hp h5 => ⟨_, hin hn, ?_⟩⟩⟩
  · have hstays : (s.setQu (56 + q.val) y).fenceUnit (mbArg0 x) = s.setQu (56 + q.val) y := if_pos (Or.inl h4)
    rw [hin hn, hstays]
  · obtain ⟨hpermit, hmode⟩ := fenceUnit_shows (s := s.setQu (56 + q.val) y) hn hp h5
    have hsends := reply_sends ((s.setQu (56 + q.val) y).fenceUnit (mbArg0 x)) q x.tag 0 0 0
    refine ⟨(hsends.get GLB_UST_PERMIT (mbArg0 x) 0 0 ?_).trans hpermit, hsends.mode.trans hmode⟩
    simp only [sendRegs, Fld.addr, List.mem_cons, List.not_mem_nil, or_false]
    omega

theorem mbox_permit (hc : mbCmd x = 3) :
    let n := mbArg0 x
    let stays := 0xA0 ≤ n ∧ n < 0xB8 ∧ s.mode ≠ 1 ∧ s.mode ≠ 6
    let t0 := s.setQu (56 + q.val) y
    (0xD4 ≤ n → exec (.mboxPermit q) s = .next (t0.reply q x.tag 3)) ∧
    (stays → exec (.mboxPermit q) s = .next (t0.reply q x.tag 2)) ∧
    (n < 0xD4 → ¬stays → s.get GLB_UST_STATE n = 5 → exec (.mboxPermit q) s = .next (t0.reply q x.tag 5)) ∧
    (n < 0xD4 → ¬stays → s.get GLB_UST_STATE n ≠ 5 → s.get GLB_UST_PERMIT n = 1 → exec (.mboxPermit q) s = .next (t0.reply q x.tag 0)) ∧
    (n < 0xD4 → ¬stays → s.get GLB_UST_STATE n ≠ 5 → s.get GLB_UST_PERMIT n ≠ 1 → s.get GLB_UST_PERMIT n ≠ 5 →
      Gives (exec (.mboxPermit q) s) fun t => t.get GLB_UST_PERMIT n = 1 ∧ t.mode = s.mode ∧ t.store = s.store) := by
  have hexec := exec_mboxPermit h hc hz
  intro n stays t0
  refine ⟨fun hn => hexec.trans ?_, fun hst => hexec.trans ?_, fun hn hst h5 => hexec.trans ?_, fun hn hst h5 h1 => hexec.trans ?_,
    fun hn hst h5 h1 hp => ⟨((t0.setPermit n 1).wakeUnit n).reply q x.tag 0, hexec.trans ?_, ?_⟩⟩
  · exact congrArg _ (if_pos hn)
  · exact congrArg _ ((if_neg fun hn => by have := hst.2.1; omega).trans (if_pos hst))
  · exact congrArg _ ((if_neg (by omega)).trans ((if_neg hst).trans (if_pos h5)))
  · exact congrArg _ ((if_neg (by omega)).trans ((if_neg hst).trans ((if_neg h5).trans (if_pos h1))))
  · exact congrArg _ ((if_neg (by omega)).trans ((if_neg hst).trans ((if_neg h5).trans (if_neg h1))))
  · obtain ⟨hpermit, hmode, hstore⟩ := permitUnit_shows (s := t0) hn hp
    have hsends := reply_sends ((t0.setPermit n 1).wakeUnit n) q x.tag 0 0 0
    refine ⟨(hsends.get GLB_UST_PERMIT n 0 0 ?_).trans hpermit, hsends.mode.trans hmode, hsends.store.trans hstore⟩
    simp only [sendRegs, Fld.addr, List.mem_cons, List.not_mem_nil, or_false]
    omega

/-- Requests that name a store address end RANGE while the store is not READY (R452). -/
theorem mbox_notReady (hr : ¬ s.on MEM_STAT_READY = true) :
    (∀ p ∈ [(0x10, Instr.trainRead q), (0x11, Instr.calRead q), (0x30, Instr.logRead q)], mbCmd x = p.1 →
      exec p.2 s = .next ((s.setQu (56 + q.val) y).reply q x.tag 3)) ∧
    (mbCmd x = 0x12 → exec (.calPlace q) s = .next ((s.setQu (56 + q.val) y).reply q x.tag 3)) := by
  simp only [List.forall_mem_cons]
  refine ⟨⟨fun hc => exec_trainRead_waits h hz hc hr, fun hc => exec_calRead_waits h hz hc hr,
    fun hc => (exec_logRead h hz hc).trans (congrArg _ (storeOr_waits hr)), List.forall_mem_nil _⟩, fun hc => (exec_calPlace h hz hc).trans (congrArg _ ?_)⟩
  split
  · rfl
  · exact storeOr_waits hr

theorem mbox_calPlace (hr : s.on MEM_STAT_READY = true) (hc : mbCmd x = 0x12) :
    (7 < mbArg0 x → exec (.calPlace q) s = .next ((s.setQu (56 + q.val) y).reply q x.tag 3)) ∧
    (mbArg0 x ≤ 7 → s.camCal (mbArg0 x) = CamCal.empty → exec (.calPlace q) s = .next ((s.setQu (56 + q.val) y).reply q x.tag 6)) ∧
    (mbArg0 x ≤ 7 → s.camCal (mbArg0 x) ≠ CamCal.empty → Gives (exec (.calPlace q) s) fun t =>
      t.get64 CAM_U_TONE_LO (mbArg0 x) = mbAddr x ∧ t.get64 CAM_U_FLAT_LO (mbArg0 x) = (mbAddr x + 6144) % 2 ^ 64 ∧
      t.store = ((s.st (mbAddr x) (s.camCal (mbArg0 x)).toneBytes).st (mbAddr x + 6144) (s.camCal (mbArg0 x)).flatBytes).store) := by
  have hexec := exec_calPlace h hz hc
  rw [storeOr_ready (s := s.setQu (56 + q.val) y) hr] at hexec
  refine ⟨fun hu => hexec.trans (congrArg _ (if_pos hu)), fun hu he => hexec.trans (congrArg _ ((if_neg (by omega)).trans (if_pos he))), fun hu he => ?_⟩
  refine ⟨_, hexec.trans (congrArg _ ((if_neg (by omega)).trans (if_neg he))), ?_⟩
  change _ ∧ _ ∧ _ = _
  obtain ⟨htone, hflat, hstore⟩ := placeTables_shows (s.setQu (56 + q.val) y) (s.camCal (mbArg0 x)).toneBytes (s.camCal (mbArg0 x)).flatBytes q x.tag hu
    (subF64_lt x 0x18) q.isLt
  refine ⟨htone, hflat, hstore.trans ?_⟩
  rw [st_setQu, st_setQu]
  rfl

theorem mbox_logRead (hr : s.on MEM_STAT_READY = true) (hc : mbCmd x = 0x30) :
    ∃ b : List Nat, b.length = 64 * (s.logFrom (mbArg1 x) (mbLen x)).length ∧
      exec (.logRead q) s = .next (((s.setQu (56 + q.val) y).st (mbAddr x) b).reply q x.tag 0 (s.logFrom (mbArg1 x) (mbLen x)).length) :=
  ⟨_, logBytes_length _, (exec_logRead h hz hc).trans (congrArg _ (storeOr_ready hr))⟩

/-! ### Requests that write SPI NOR (R440, R441, R445) -/

theorem mbox_board (hn : s.norJobs = []) (hc : mbCmd x = 0x13) :
    let t0 := s.setQu (56 + q.val) y
    let a := mbAddr x
    let ready := s.on MEM_STAT_READY = true
    let inl := bitN (mbArg1 x) 0 = true
    let res := s.get GLB_START_STAT_RESULT
    let allowed := s.mode = 6 ∨ (inl ∧ s.mode = 7 ∧ s.on GLB_START_STAT_DONE = false ∧ (res = 6 ∨ res = 7))
    let queued := fun (b : List Nat) => exec (.boardWrite q) s = .next { t0 with norJobs := [.cal (s.boardRec b) (some (q.val, x.tag))] }
    (¬allowed → exec (.boardWrite q) s = .next (t0.reply q x.tag 2)) ∧
    (allowed → inl → queued (mbBoard x)) ∧
    (allowed → ¬inl → ready → s.bad a 64 = false → queued (s.ld a 64)) ∧
    (allowed → ¬inl → ready → s.bad a 64 = true → exec (.boardWrite q) s = .next (t0.reply q x.tag 6)) ∧
    (allowed → ¬inl → ¬ready → exec (.boardWrite q) s = .next (t0.reply q x.tag 3)) := by
  have hexec := exec_boardWrite h hz hc hn
  have hiff := boardAllowed_iff (s.setQu (56 + q.val) y) (bitN (mbArg1 x) 0)
  have hqueue : ∀ b, (s.setQu (56 + q.val) y).queueBoard q x.tag b =
      { s.setQu (56 + q.val) y with norJobs := [.cal (s.boardRec b) (some (q.val, x.tag))] } := fun b => queueNor_first (s := s.setQu (56 + q.val) y) hn _
  intro t0 a ready inl res allowed queued
  have hyes : allowed → exec (.boardWrite q) s = .next (if bitN (mbArg1 x) 0 then t0.queueBoard q x.tag (mbBoard x)
      else t0.storeOr q x fun s => if s.bad (mbAddr x) 64 then s.reply q x.tag 6 else s.queueBoard q x.tag (s.ld (mbAddr x) 64)) := fun ha =>
    hexec.trans (congrArg _ (if_neg (by simp [hiff.2 ha])))
  refine ⟨fun ha => hexec.trans (congrArg _ (if_pos ?_)), fun ha hi => ?_, fun ha hi hr hb => ?_, fun ha hi hr hb => ?_, fun ha hi hr => ?_⟩
  · rw [Bool.not_eq_true']
    exact Bool.eq_false_iff.2 fun hb => ha (hiff.1 hb)
  · exact (hyes ha).trans (congrArg _ ((if_pos hi).trans (hqueue _)))
  · exact (hyes ha).trans (congrArg _ ((if_neg hi).trans ((storeOr_ready (s := t0) hr).trans ((if_neg (Bool.eq_false_iff.1 hb)).trans (hqueue _)))))
  · exact (hyes ha).trans (congrArg _ ((if_neg hi).trans ((storeOr_ready (s := t0) hr).trans (if_pos hb))))
  · exact (hyes ha).trans (congrArg _ ((if_neg hi).trans (storeOr_waits (s := t0) hr)))

theorem mbox_image (hn : s.norJobs = []) (hc : mbCmd x = 0x20) :
    let t0 := s.setQu (56 + q.val) y
    let a := mbAddr x
    let k := mbArg0 x
    let len := mbLen x
    let range := 1 < k ∨ 0x1800000 < mbArg1 x + len ∨ 2 ^ 20 < len
    (range → exec (.imageWrite q) s = .next (t0.reply q x.tag 3)) ∧
    (¬range → k = s.get GLB_BOOT_SLOT → exec (.imageWrite q) s = .next (t0.reply q x.tag 4)) ∧
    (¬range → k ≠ s.get GLB_BOOT_SLOT → s.on MEM_STAT_READY = true → len ≠ 0 → s.bad a len = false → exec (.imageWrite q) s =
      .next { t0 with norJobs := [.image (0x1800000 * k + mbArg1 x) (s.ld a len) (q.val, x.tag)] }) := by
  have hexec := exec_imageWrite h hz hc hn
  intro t0 a k len range
  refine ⟨fun hr => hexec.trans (congrArg _ (if_pos hr)), fun hr hk => hexec.trans (congrArg _ ((if_neg hr).trans (if_pos hk))),
    fun hr hk hready h0 hb => hexec.trans (congrArg _ ((if_neg hr).trans ((if_neg hk).trans ((storeOr_ready (s := t0) hready).trans ((if_neg h0).trans ?_)))))⟩
  refine (if_neg (fun hbad => ?_)).trans ?_
  · exact Bool.false_ne_true (hb.symm.trans hbad)
  · exact queueNor_first (s := s.setQu (56 + q.val) y) hn _

theorem mbox_commit (hn : s.norJobs = []) (hc : mbCmd x = 0x21) :
    let t0 := s.setQu (56 + q.val) y
    let k := mbArg0 x
    let up := bitN (mbArg1 x) 0 = true
    (1 < k → exec (.imageCommit q) s = .next (t0.reply q x.tag 3)) ∧
    (k ≤ 1 → up → s.mode ≠ 6 → exec (.imageCommit q) s = .next (t0.reply q x.tag 2)) ∧
    (k ≤ 1 → (up → s.mode = 6) → s.slotValid k = false → exec (.imageCommit q) s = .next (t0.reply q x.tag 7)) ∧
    (k ≤ 1 → (up → s.mode = 6) → s.slotValid k = true → Gives (exec (.imageCommit q) s) fun t => t.nor = s.nor ∧
      t.mgt.fuseSvn = if up then max s.mgt.fuseSvn (fieldAt (s.slotHdr k) 0xC 2) else s.mgt.fuseSvn) := by
  have hexec := exec_imageCommit h hz hc hn
  have hvalid : (s.setQu (56 + q.val) y).slotValid (mbArg0 x) = s.slotValid (mbArg0 x) := slotValid_congr rfl _ rfl
  rw [hvalid] at hexec
  intro t0 k up
  have hmode : (up → s.mode = 6) → ¬ (bitN (mbArg1 x) 0 && (s.setQu (56 + q.val) y).mode != 6) = true := fun hm => by
    rw [Bool.and_eq_true, bne_iff_ne]
    exact fun hb => hb.2 (hm hb.1)
  refine ⟨fun hk => hexec.trans (congrArg _ (if_pos hk)),
    fun hk hu hm => hexec.trans (congrArg _ ((if_neg (by omega)).trans (if_pos ?_))),
    fun hk hm hv => hexec.trans (congrArg _ ((if_neg (by omega)).trans ((if_neg (hmode hm)).trans (if_pos (congrArg not hv))))),
    fun hk hm hv => ⟨_, hexec.trans (congrArg _ ((if_neg (by omega)).trans ((if_neg (hmode hm)).trans (if_neg (by rw [show s.slotValid (mbArg0 x) = true from hv]; decide))))), ?_⟩⟩
  · rw [Bool.and_eq_true, bne_iff_ne]
    exact ⟨hu, hm⟩
  · obtain ⟨hnor, hsvn⟩ := commitImage_shows (s.setQu (56 + q.val) y) (mbArg0 x) (bitN (mbArg1 x) 0) q x.tag
    exact ⟨hnor, hsvn⟩

end

/-! ### The mailbox and SPI NOR -/

/-- A write of an image part that reads back in neither try leaves SPI NOR as it was. -/
theorem norWriteDone_imageFails {s : State} {r : List NorJob} {a tag rq : Nat} {b : List Nat} (h : s.norJobs = .image a b (rq, tag) :: r) :
    Gives (exec (.norWriteDone false false) s) fun t => t.nor = s.nor ∧ t.norJobs = r := by
  obtain ⟨hnor, hjobs, -⟩ := norTries_shows s r false
  have hsends := reply_sends (s.norTries r false) rq tag 6 0 0
  exact ⟨_, exec_norWriteDone_image false false h, (hsends.proj State.nor fun _ _ _ _ => rfl).trans hnor,
    (hsends.proj State.norJobs fun _ _ _ _ => rfl).trans hjobs⟩

theorem norCal_good (s : State) (c : CalRec) : (s.norCal c true).cal = some c ∧ (s.norCal c true).norJobs = s.norJobs := by
  unfold State.norCal
  generalize c.bytes = b
  dsimp only
  rw [if_pos rfl]
  exact ⟨rfl, rfl⟩

/-- A calibration record that reads back is the record in force. -/
theorem norWriteDone_cal {s : State} {r : List NorJob} {c : CalRec} {rep : Option (Nat × Nat)} {first second : Bool} (h : s.norJobs = .cal c rep :: r)
    (hok : (first || second) = true) : Gives (exec (.norWriteDone first second) s) fun t => t.cal = some c ∧ t.norJobs = r := by
  obtain ⟨-, hjobs, -⟩ := norTries_shows s r first
  have hexec := exec_norWriteDone_cal first second h
  rw [hok] at hexec
  obtain ⟨hcal, hrest⟩ := answer_cal ((s.norTries r first).norCal c true) rep 0
  obtain ⟨hc, hkeep⟩ := norCal_good (s.norTries r first) c
  exact ⟨_, hexec, hcal.trans hc, hrest.trans (hkeep.trans hjobs)⟩

theorem exec_norWriteDone_none {s : State} (first second : Bool) (h : s.norJobs = []) : exec (.norWriteDone first second) s = .next s := by
  change execNorWriteDone first second s = _
  unfold execNorWriteDone
  rw [h]

/-- Settles O59: a request is one function of the oldest entry of its queue; fences and permits rest on what the units leave of the permission views, the
writes of SPI NOR on the bytes that an erase and a program leave. -/
theorem mailboxRequestsAndNorWrites : Obligations.MailboxRequestsAndNorWrites := by
  refine ⟨?_, ?_⟩
  · intro s t0 q x all
    refine ⟨fun h => exec_mbox_all fun _ _ _ => mbox_idle h, exec_mbox_writing, fun ht => ⟨exec_mbox_other ht, fun h1 hc => ?_⟩,
      fun ht hruns hquiet hfree => ?_⟩
    · refine congrArg _ (mbox_other ht ?_)
      have hin : mbCmds.contains (mbCmd x) = true := List.contains_iff_mem.2 hc
      rw [hin, Bool.not_true, Bool.or_false]
      exact beq_false_of_ne h1
    · have h : MboxTakes s q x t0 := ⟨ht, hruns, hquiet, hfree⟩
      obtain ⟨l, -, rfl⟩ := takeSub_some ht
      refine ⟨fun ⟨hz, hc⟩ hroom => ?_, fun hc => exec_mboxPing_unknown h hc, fun hz hn p hp hc => exec_mbox_bad h (Bool.eq_false_iff.2 hz) hn p hp hc,
        fun hz hc => mbox_fence h hz hc, fun hz hc => mbox_permit h hz hc, fun hz hr _ => mbox_notReady h hz hr,
        fun hz hr => ⟨fun hc => ?_, fun hc => ?_, mbox_calPlace h hz hr, mbox_logRead h hz hr⟩,
        fun hz hn hc => mbox_board h hz hn hc, fun hz hn hc => mbox_image h hz hn hc, fun hz hn hc => mbox_commit h hz hn hc⟩
      · have hreply : (s.setQu (56 + q.val) { s.qu (56 + q.val) with fetched := l }).qu (58 + q.val) = s.qu (58 + q.val) := qu_setQu_other _ _ (by omega)
        obtain ⟨e, hring, hping⟩ := ping_shows (s := s.setQu (56 + q.val) { s.qu (56 + q.val) with fetched := l }) x.tag q.isLt hroom
          ((congrArg Queue.waiting hreply).trans hquiet)
        exact ⟨_, exec_mboxPing h hc hz, e, hring.trans (by rw [hreply]), hping⟩
      · have hsame := trainRead_congr (s := s) (t := s.setQu (56 + q.val) { s.qu (56 + q.val) with fetched := l }) rfl
        cases hb : s.trainRead with
        | some b => exact exec_trainRead_some h hz hc hr (hsame.trans hb)
        | none => exact exec_trainRead_none h hz hc hr (hsame.trans hb)
      · have hsame := calCur_congr (s := s) (t := s.setQu (56 + q.val) { s.qu (56 + q.val) with fetched := l }) rfl
        cases hb : s.calCur with
        | some i => exact exec_calRead_some h hz hc hr (hsame.trans hb)
        | none => exact exec_calRead_none h hz hc hr (hsame.trans hb)
  · intro s first second r a tag rq b c rep
    exact ⟨exec_norWriteDone_none first second, fun h => ⟨exec_norWriteDone_image true second h, norWriteDone_imageFails h⟩, norWriteDone_cal,
      norWriteDone_train first second⟩

end Sys2Proof.Machine
